-- ==== Sys2Proof/Word.lean ====
section
/-! DEFINITION. The words of the FMC9: bytes, 32-bit register words, and the address-to-byte lists that
hold every addressed store of the device (R5: little-endian, so a byte is the unit of storage). -/

namespace Sys2Proof

/-- One byte of a register, slot, record, DRAM location or drive block. -/
abbrev Byte := BitVec 8

/-- A 32-bit register of the BAR0 map (R7). -/
abbrev Reg32 := BitVec 32

/-- The parameter or response bytes of a mailbox slot, body offset 0 first (R10). -/
abbrev Body := List Byte

end Sys2Proof
end

