-- ==== Sys2Proof/Syntax.lean ====
section
/-! DEFINITION. The commands of the FMC9, one constructor for each row of the table of operations: mailbox
commands (their operand is the slot that carries them, and the outside world's answers where a command has
any), host accesses, and the events of the device. -/

namespace Sys2Proof

/-- The two host ports (R43, R47). -/
inductive Port where
  | pcie | qspi
deriving DecidableEq, Repr

/-- A W1C register of the attention window (R76, R77). -/
inductive LeafReg where
  | cause (b : Fin 32) | doneQ | sub (k : Fin 4)
deriving DecidableEq, Repr

/-- A mask register of the attention window (R74, R76, R77). -/
inductive MaskReg where
  | summary | cause (b : Fin 32) | doneQ | sub (k : Fin 4)
deriving DecidableEq, Repr

/-- A doorbell of the NVMe controller: the tail of a submission queue, or the head of a completion queue (R334). -/
inductive NvmeQueue where
  | submission (n : Fin 65) | completion (n : Fin 65)
deriving DecidableEq, Repr

/-- The flow context that a frame addresses, with its generation (R407). -/
structure FlowRef where
  num : BitVec 16
  gen : Byte
deriving DecidableEq, Repr

/-- The client that a poisoned burst meets outside DRAM (R594): Flagstone; the write of the Media Gate of a number in
order of acceptance, at a byte of its data; a host read of the Gate. -/
inductive BurstClient where
  | none | flagstone | staged (index off : Nat) | gateRead
deriving DecidableEq, Repr

/-- A host access: the number of bytes read, or the bytes written. -/
inductive HostAccess where
  | read (count : Nat) | write (data : List Byte)
deriving DecidableEq, Repr

/-- What the read link ECC met during a DRAM read (R514). -/
inductive LinkFault where
  | clean | corrected | retried
deriving DecidableEq, Repr

/-- What a lane's verify decoder found: agreement, or the low byte of its first error's code, 0 for a
difference only (R284, R301). -/
inductive Verify where
  | ok | bad (err : Byte)
deriving DecidableEq, Repr

/-- What a drive that trained shows: link generation and width, log2 of its block size, its blocks (R327). -/
structure DriveFacts where
  gen : Nat
  width : Nat
  lbaLog2 : Nat
  blocks : Nat
deriving DecidableEq, Repr

/-- Why the Gate declares a drive failed (R328). -/
inductive DriveFault where
  | linkLoss | fatal | timeout | adminError
deriving DecidableEq, Repr

/-- The dwords every submission-queue entry has (R333). -/
structure NvmeHead where
  cid : BitVec 16
  nsid : BitVec 32
  fuse : Fin 4
  psdt : Fin 4
  /-- the entry's opcode is none of the table of R335 for its queue -/
  unknown : Bool
deriving DecidableEq, Repr

/-- What a CSI-2 port made of a packet header (R96). -/
inductive HeaderState where
  | good | corrected | bad
deriving DecidableEq, Repr

/-- A packet of a sensor link: the bytes of a Flimocia packet (R91), or a CSI-2 packet with its header, its
samples or bytes, and whether its payload check code is good (R95, R96). -/
inductive Packet where
  | link (bytes : List Byte)
  | csi (hdr : HeaderState) (vc : Fin 16) (dt : BitVec 6) (data : BitVec 16) (payload : List (BitVec 16)) (crcOk : Bool)
deriving DecidableEq, Repr

/-- A flow control frame as it arrives: its header's source, flow and generation, and its payload after `op`
(R397, R408). -/
structure Control where
  src : BitVec 12
  dflow : BitVec 16
  dgen : Byte
  kind : Byte
  code : Byte
  sgen : Byte
  sflow : BitVec 16
  token : BitVec 16
  lat : BitVec 32
  maxItem : BitVec 32
  extra : List Byte
deriving DecidableEq, Repr

/-- What a panel answers to a DCS command on a port: result code 0 to 3, error report, and the bytes it read back
(R452). -/
structure DcsResult where
  code : Fin 4
  report : BitVec 16
  data : List Byte
deriving DecidableEq, Repr

/-- A boot that stops (R581): the step, the cause of `BOOT_STATUS`, the channel and the byte lane. -/
structure BootFailure where
  phase : Fin 9
  cause : Fin 7
  channel : Fin 16
  byteLane : Fin 2
deriving DecidableEq, Repr

/-- What a rank's mode registers report: its type, its die density in Gb and the rank count (R503, R504). -/
structure RankModes where
  lpddr5x : Bool
  gbits : Nat
  ranks : Nat
deriving DecidableEq, Repr

/-- The sweeps of a byte lane's read and write delays, a position every 1/64 UI: whether the lane passes there (R503). -/
structure LaneSweep where
  read : List Bool
  write : List Bool
deriving DecidableEq, Repr

/-- A DQ oscillator's reading of a rank, for its two byte lanes, in steps of 1/64 UI (R505). -/
structure DqReading where
  lane0 : Int
  lane1 : Int
deriving DecidableEq, Repr

/-- What training finds on a channel: the sweeps of its two byte lanes, and the oscillator of each rank (R503, R505). -/
structure ChannelTraining where
  sweeps : List LaneSweep
  osc : List DqReading
deriving DecidableEq, Repr

/-- A channel's report: the entries in its write queue and its read queue, the writes that found the queue full since
the last report, and the single-bit read link errors and the multi-bit ones that a further read cleared, in reads of any
client but a BAR2 access of its own row (R507, R514). -/
structure ChannelReport where
  level : Fin 257
  reads : Fin 257
  held : BitVec 32
  corrected : BitVec 32
  retried : BitVec 32
deriving DecidableEq, Repr

/-- A remapped row at boot: whether the die reports a free repair resource in its bank group, and whether a repair would
read back well (R517). -/
structure RowRepair where
  resource : Bool
  reads : Bool
deriving DecidableEq, Repr

/-- What the exit from a low-power state met: the drive that trained on each root port, and each channel's oscillators with
the sweeps of a lane that is trained again (R505, R574). -/
structure ExitReport where
  drives : List (Option DriveFacts)
  channels : List ChannelTraining
deriving DecidableEq, Repr

/-- What a boot measured and found: RCAL in 0.1 ohm, the codes of the calibration classes, the mode registers of each
channel's ranks and what training found on each channel, whether REFQ[0] qualified, how each remapped row would repair, the
assigned opcodes the firmware lacks, whether the flash takes writes, the time from the start of the reset to `ready`, and the
highest generation and width of the PCIe partner, 0 where none answers (R43, R361, R503, R517, R540, R585). -/
structure BootReport where
  fail : Option BootFailure
  rcal : BitVec 32
  codes : List (List (BitVec 10))
  modes : List (List RankModes)
  channels : List ChannelTraining
  refq : Bool
  ppr : List RowRepair
  lacks : List Nat
  flash : Bool
  ms : BitVec 32
  epGen : Fin 6
  epWidth : Fin 5
deriving DecidableEq, Repr

/-- The rows of the table of operations and events. -/
inductive Instr where
  /-- SYS_IDENTIFY (R19). -/
  | sysIdentify (n : Fin 40)
  /-- SYS_RESET (R568). -/
  | sysReset (n : Fin 40)
  /-- SYS_GPIO (R616). -/
  | sysGpio (n : Fin 40)
  /-- SYS_TALLY (R615). -/
  | sysTally (n : Fin 40)
  /-- EVQ_CONFIG (R88). -/
  | evqConfig (n : Fin 40)
  /-- EVQ_ROUTE (R80). -/
  | evqRoute (n : Fin 40)
  /-- EVQ_RESET (R88). -/
  | evqReset (n : Fin 40)
  /-- SENS_CONFIG (R100). -/
  | sensConfig (n : Fin 40)
  /-- SENS_POWER (R102). -/
  | sensPower (n : Fin 40)
  /-- SENS_START (R104). -/
  | sensStart (n : Fin 40)
  /-- SENS_STOP (R104). -/
  | sensStop (n : Fin 40)
  /-- SENS_CLEAR (R105). -/
  | sensClear (n : Fin 40)
  /-- SENS_BUS_XFER (R120). -/
  | sensBusXfer (n : Fin 40)
  /-- SENS_COUNTERS (R114). -/
  | sensCounters (n : Fin 40)
  /-- SENS_META_POLL (R122). -/
  | sensMetaPoll (n : Fin 40)
  /-- SCHED_SENSOR (R143). -/
  | schedSensor (n : Fin 40)
  /-- SCHED_COMMIT (R129). -/
  | schedCommit (n : Fin 40)
  /-- SCHED_STATUS (R143). -/
  | schedStatus (n : Fin 40)
  /-- FE_LIN_LOAD (R151). -/
  | feLinLoad (n : Fin 40)
  /-- FE_MERGE (R152). -/
  | feMerge (n : Fin 40)
  /-- FE_BLACK (R157). -/
  | feBlack (n : Fin 40)
  /-- FE_MAP_ALLOC (R159). -/
  | feMapAlloc (n : Fin 40)
  /-- FE_MAP_FREE (R177). -/
  | feMapFree (n : Fin 40)
  /-- FE_MAP_SELECT (R160). -/
  | feMapSelect (n : Fin 40)
  /-- FE_DEFECT (R164). -/
  | feDefect (n : Fin 40)
  /-- FE_STATS_CONFIG (R170). -/
  | feStatsConfig (n : Fin 40)
  /-- FE_CAL_CAPTURE (R173). -/
  | feCalCapture (n : Fin 40)
  /-- FE_CAL_ABORT (R176). -/
  | feCalAbort (n : Fin 40)
  /-- DEV_CFA (R186). -/
  | devCfa (n : Fin 40)
  /-- DEV_DEMOSAIC (R189). -/
  | devDemosaic (n : Fin 40)
  /-- DEV_SL_FRAME (R196). -/
  | devSlFrame (n : Fin 40)
  /-- COL_TRANSFORM (R209). -/
  | colTransform (n : Fin 40)
  /-- COL_GAINS (R212). -/
  | colGains (n : Fin 40)
  /-- COL_SHAPER_LOAD (R213). -/
  | colShaperLoad (n : Fin 40)
  /-- LUT_LOAD (R215). -/
  | lutLoad (n : Fin 40)
  /-- COL_CONTRAST (R217). -/
  | colContrast (n : Fin 40)
  /-- COL_OUTPUT (R218). -/
  | colOutput (n : Fin 40)
  /-- COL_STATUS (R228). -/
  | colStatus (n : Fin 40)
  /-- RND0_OUTPUT (R239). -/
  | rnd0Output (n : Fin 40)
  /-- RND_BIND (R240). -/
  | rndBind (n : Fin 40)
  /-- RND_GEOMETRY (R241). -/
  | rndGeometry (n : Fin 40)
  /-- RND_STATUS (R249). -/
  | rndStatus (n : Fin 40)
  /-- TAP_CONFIG (R248). -/
  | tapConfig (n : Fin 40)
  /-- CODEC_STREAM (R285). -/
  | codecStream (n : Fin 40)
  /-- CODEC_JOB_ENCODE (R294). -/
  | codecJobEncode (n : Fin 40)
  /-- CODEC_JOB_DECODE (R296). -/
  | codecJobDecode (n : Fin 40)
  /-- CODEC_JOB_RESUME (R295). -/
  | codecJobResume (n : Fin 40)
  /-- CODEC_JOB_ABORT (R295). -/
  | codecJobAbort (n : Fin 40)
  /-- CODEC_STATUS (R298). -/
  | codecStatus (n : Fin 40)
  /-- REC_START (R309). -/
  | recStart (n : Fin 40)
  /-- REC_STOP (R310). -/
  | recStop (n : Fin 40)
  /-- REC_CHANNEL (R302). -/
  | recChannel (n : Fin 40)
  /-- REC_VOL_FORMAT (R323). -/
  | recVolFormat (n : Fin 40)
  /-- REC_VOL_MOUNT (R320). -/
  | recVolMount (n : Fin 40)
  /-- REC_VOL_UNMOUNT (R320). -/
  | recVolUnmount (n : Fin 40)
  /-- REC_CLIP_DELETE (R323). -/
  | recClipDelete (n : Fin 40)
  /-- REC_STATUS (R324). -/
  | recStatus (n : Fin 40)
  /-- GATE_STATUS (R331). -/
  | gateStatus (n : Fin 40)
  /-- GATE_DRIVE (R327). -/
  | gateDrive (n : Fin 40) (drive : Option DriveFacts)
  /-- GATE_SERVICE (R353). -/
  | gateService (n : Fin 40)
  /-- GATE_REMOTE (R347). -/
  | gateRemote (n : Fin 40)
  /-- GATE_SESSION_OPEN (R348). -/
  | gateSessionOpen (n : Fin 40)
  /-- GATE_SESSION_CLOSE (R353). -/
  | gateSessionClose (n : Fin 40)
  /-- LANE_CONFIG (R357). -/
  | laneConfig (n : Fin 40) (khzA khzB : Nat)
  /-- LANE_STATUS (R382). -/
  | laneStatus (n : Fin 40) (taps : List Int) (eyeW eyeH : Nat)
  /-- LANE_LINK (R377). -/
  | laneLink (n : Fin 40)
  /-- LANE_POWER (R376). -/
  | lanePower (n : Fin 40)
  /-- LANE_LOOP (R375). -/
  | laneLoop (n : Fin 40) (bits : BitVec 64) (errs : BitVec 32)
  /-- LANE_EQ (R373). -/
  | laneEq (n : Fin 40)
  /-- RING_CONFIG (R388). -/
  | ringConfig (n : Fin 40)
  /-- RING_STATUS (R418). -/
  | ringStatus (n : Fin 40)
  /-- FLOW_OPEN (R408). -/
  | flowOpen (n : Fin 40)
  /-- FLOW_CLOSE (R412). -/
  | flowClose (n : Fin 40)
  /-- FLOW_LISTEN (R414). -/
  | flowListen (n : Fin 40)
  /-- FLOW_SEND (R415). -/
  | flowSend (n : Fin 40)
  /-- FLOW_STATUS (R415). -/
  | flowStatus (n : Fin 40)
  /-- OUT_SDI (R425). -/
  | outSdi (n : Fin 40)
  /-- OUT_2110 (R428). -/
  | out2110 (n : Fin 40)
  /-- OUT_ETH_PORT (R433). -/
  | outEthPort (n : Fin 40)
  /-- OUT_STATUS (R433). -/
  | outStatus (n : Fin 40)
  /-- DISP_CONFIG (R438). -/
  | dispConfig (n : Fin 40)
  /-- DISP_LAYER (R443). -/
  | dispLayer (n : Fin 40)
  /-- DISP_COMMIT (R448). -/
  | dispCommit (n : Fin 40)
  /-- DISP_DCS (R452). -/
  | dispDcs (n : Fin 40) (r0 r1 : DcsResult)
  /-- DISP_STATUS (R453). -/
  | dispStatus (n : Fin 40)
  /-- AUD_CONFIG (R457). -/
  | audConfig (n : Fin 40)
  /-- AUD_PORT (R460). -/
  | audPort (n : Fin 40)
  /-- AUD_CHANNEL (R466). -/
  | audChannel (n : Fin 40)
  /-- AUD_SLOTS (R467). -/
  | audSlots (n : Fin 40)
  /-- AUD_START (R468). -/
  | audStart (n : Fin 40)
  /-- AUD_STOP (R469). -/
  | audStop (n : Fin 40)
  /-- AUD_STATUS (R470). -/
  | audStatus (n : Fin 40)
  /-- TIME_DOMAIN (R482). -/
  | timeDomain (n : Fin 40)
  /-- TIME_SELECT (R484). -/
  | timeSelect (n : Fin 40)
  /-- TIME_PORT (R496). -/
  | timePort (n : Fin 40)
  /-- TIME_SYNC (R496). -/
  | timeSync (n : Fin 40)
  /-- TIME_LTC (R496). -/
  | timeLtc (n : Fin 40)
  /-- TIME_SERVE (R496). -/
  | timeServe (n : Fin 40)
  /-- TIME_STATUS (R496). -/
  | timeStatus (n : Fin 40)
  /-- MEM_STATUS (R520). -/
  | memStatus (n : Fin 40)
  /-- MEM_APERTURE (R519). -/
  | memAperture (n : Fin 40)
  /-- MEM_KEEP (R513). -/
  | memKeep (n : Fin 40)
  /-- THERM_CONFIG (R541). -/
  | thermConfig (n : Fin 40)
  /-- THERM_STATUS (R541). -/
  | thermStatus (n : Fin 40)
  /-- CAL_CONFIG (R542). -/
  | calConfig (n : Fin 40)
  /-- CAL_RUN (R542). -/
  | calRun (n : Fin 40)
  /-- CAL_STATUS (R542). -/
  | calStatus (n : Fin 40)
  /-- BR_STATUS (R565). -/
  | brStatus (n : Fin 40)
  /-- BR_POLICY (R565). -/
  | brPolicy (n : Fin 40)
  /-- PWR_STATE (R571). -/
  | pwrState (n : Fin 40)
  /-- PWR_UNIT_RESET (R569). -/
  | pwrUnitReset (n : Fin 40)
  /-- FW_STAGE (R577). -/
  | fwStage (n : Fin 40)
  /-- FW_ACTIVATE (R582). -/
  | fwActivate (n : Fin 40)
  /-- FW_STATUS (R582). -/
  | fwStatus (n : Fin 40)
  /-- SPARE_STATUS (R598). -/
  | spareStatus (n : Fin 40)
  /-- SPARE_LEDGER (R595). -/
  | spareLedger (n : Fin 40)
  /-- SPARE_RETURN (R589). -/
  | spareReturn (n : Fin 40)
  /-- FLINT_SET (R416). -/
  | flintSet (n : Fin 40)
  /-- FLINT_STATUS (R417). -/
  | flintStatus (n : Fin 40)
  /-- DOORBELL_RING (R55). -/
  | doorbellRing (port : Port) (n : Fin 40) (value : BitVec 32)
  /-- REGISTER_WRITE (R50). -/
  | registerWrite (port : Port) (addr : Nat) (data : List Byte)
  /-- ATTN_LEAF_CLEAR (R78). -/
  | attnLeafClear (port : Port) (reg : LeafReg) (value : BitVec 32)
  /-- ATTN_MASK_WRITE (R74). -/
  | attnMaskWrite (port : Port) (reg : MaskReg) (value : BitVec 32)
  /-- WM_HIT_CLEAR (R86). -/
  | wmHitClear (port : Port) (q : Fin 16)
  /-- EQ_PORT_READ (R82). -/
  | eqPortRead (q : Fin 16) (word : Fin 8)
  /-- EQ_MARK (R83). -/
  | eqMark (port : Port) (q : Fin 16)
  /-- EQ_REWIND (R83). -/
  | eqRewind (port : Port) (q : Fin 16) (alsoMark : Bool)
  /-- EQ_RELEASE (R84). -/
  | eqRelease (port : Port) (q : Fin 16) (value : BitVec 32)
  /-- PWR_WAKE_WRITE (R572). -/
  | pwrWakeWrite (port : Port) (value : BitVec 32)
  /-- TB_COUNT_READ (R638). -/
  | tbCountRead (wide : Bool)
  /-- TB_DOMAIN_READ (R638). -/
  | tbDomainRead (d : Fin 2) (wide : Bool)
  /-- BEDROCK_WINDOW_WRITE (R546). -/
  | bedrockWindowWrite (port : Port) (word : BitVec 14) (value : BitVec 32)
  /-- BAR2_ACCESS (R44). -/
  | bar2Access (off : BitVec 32) (access : HostAccess) (ecc : LinkFault)
  /-- QSPI_TRANSACTION (R48). -/
  | qspiTransaction (instr : Byte) (addr : BitVec 32) (data : List Byte) (count : Nat)
  /-- QSPI_STATUS_READ (R47). -/
  | qspiStatusRead
  /-- COLD_POWER_ON (R579). -/
  | coldPowerOn (refclk alt resetLow plossLow : Bool) (mv : List (BitVec 16))
  /-- BOOT_READY (R579). -/
  | bootReady (r : BootReport)
  /-- RESET_N (R566). -/
  | resetN (held : Bool)
  /-- PLOSS_N_FALL (R557). -/
  | plossNFall
  /-- PLOSS_DRAIN_DONE (R351). -/
  | plossDrainDone (ports : BitVec 4) (us : BitVec 32)
  /-- PLOSS_RESET_POINT (R558). -/
  | plossResetPoint (low : Bool)
  /-- PLOSS_RESPONSE_END (R558). -/
  | plossResponseEnd
  /-- RAIL_UNDERVOLTAGE (R551). -/
  | railUndervoltage (k : Fin 8) (mv : BitVec 16)
  /-- RAIL_OVERVOLTAGE (R552). -/
  | railOvervoltage (k : Fin 8) (mv : BitVec 16)
  /-- REFCLK_LOST (R33). -/
  | refclkLost (alt : Bool)
  /-- REFCLK_FAILOVER_DONE (R33). -/
  | refclkFailoverDone
  /-- REFCLK_STOP (R494). -/
  | refclkStop (final : Bool)
  /-- THERMAL_TRIP (R559). -/
  | thermalTrip
  /-- LOCKSTEP_FAULT (R561). -/
  | lockstepFault
  /-- CORE_HEARTBEAT_MISS (R555). -/
  | coreHeartbeatMiss (core : Fin 5) (flash : Bool)
  /-- WATCHDOG_RESET (R556). -/
  | watchdogReset
  /-- TEST_EN_FALL (R560). -/
  | testEnFall
  /-- FLINT_GATE_OPEN (R560). -/
  | flintGateOpen
  /-- SPWR_PG_FALL (R554). -/
  | spwrPgFall (sensor : Fin 4)
  /-- SPWR_PG_RISE (R553). -/
  | spwrPgRise (sensor : Fin 4)
  /-- SPWR_PG_TIMEOUT (R553). -/
  | spwrPgTimeout (sensor : Fin 4)
  /-- SENSOR_POWER_SETTLED (R553). -/
  | sensorPowerSettled (sensor : Fin 4)
  /-- GPIO_EDGE (R614). -/
  | gpioEdge (levels : BitVec 32)
  /-- WAKE_GPIO (R572). -/
  | wakeGpio
  /-- WAKE_TIME (R572). -/
  | wakeTime
  /-- POWER_STATE_ENTERED (R574). -/
  | powerStateEntered
  /-- POWER_STATE_EXIT_DONE (R570). -/
  | powerStateExitDone (us : BitVec 32) (r : ExitReport)
  /-- FW_STAGE_WRITE_DONE (R577). -/
  | fwStageWriteDone (result : Fin 3)
  /-- FW_ACTIVATION_DONE (R582). -/
  | fwActivationDone (lacks : List Nat)
  /-- FW_ACTIVATION_REVERT (R582). -/
  | fwActivationRevert
  /-- FRAME_START (R107). -/
  | frameStart (sensor : Fin 4) (p : Packet)
  /-- FRAME_END (R109). -/
  | frameEnd (sensor : Fin 4) (p : Packet)
  /-- LINE_PACKET (R110). -/
  | linePacket (sensor : Fin 4) (p : Packet)
  /-- EMBEDDED_PACKET (R95). -/
  | embeddedPacket (sensor : Fin 4) (p : Packet)
  /-- LINE_TIMEOUT (R109). -/
  | lineTimeout (sensor : Fin 4)
  /-- FRAME_PERIOD_TIMEOUT (R109). -/
  | framePeriodTimeout (sensor : Fin 4)
  /-- LINK_LOCK_LOSS (R112). -/
  | linkLockLoss (sensor link : Fin 4) (lanes : BitVec 16)
  /-- SENSOR_LINK_UP (R112). -/
  | sensorLinkUp (sensor link : Fin 4)
  /-- BUS_XFER_DONE (R120). -/
  | busXferDone (bus : Fin 6) (result : Fin 5) (written : Nat) (data : List Byte)
  /-- META_POLL_TRIGGER (R122). -/
  | metaPollTrigger (sensor : Fin 4) (fifo : Fin 2)
  /-- META_POLL_DONE (R122). -/
  | metaPollDone (bus : Fin 6) (result : Fin 5) (data : List Byte)
  /-- BAND_ISSUE (R134). -/
  | bandIssue (engine : Fin 8)
  /-- BAND_COMPLETE (R170). -/
  | bandComplete (engine : Fin 9) (misses stall : Nat)
  /-- DEADLINE_DROP (R136). -/
  | deadlineDrop (sensor : Fin 4)
  /-- ENGINE_FAULT (R139). -/
  | engineFault (engine : Fin 9) (flash : Bool)
  /-- ENGINE_NO_PROGRESS (R139). -/
  | engineNoProgress (engine : Fin 9) (flash : Bool)
  /-- SLOT_RELEASE (R28). -/
  | slotRelease (sensor : Fin 4) (slot : Fin 8)
  /-- BANK_WRITE (R225). -/
  | bankWrite (inst : Fin 6) (bank : Fin 2)
  /-- CAL_FINAL_PASS_DONE (R173). -/
  | calFinalPassDone (sensor : Fin 4)
  /-- RENDITION_TAKE (R244). -/
  | renditionTake (r : Fin 6)
  /-- RENDITION_FRAME_DONE (R245). -/
  | renditionFrameDone (r : Fin 6)
  /-- SLAB_ISSUE (R292). -/
  | slabIssue (lane : Fin 4)
  /-- SLAB_VERIFIED (R283). -/
  | slabVerified (p : Fin 5) (v : Verify) (flash : Bool)
  /-- CODEC_DEADLINE (R291). -/
  | codecDeadline (t : Fin 8)
  /-- CODEC_LANE_FAULT (R297). -/
  | codecLaneFault (p : Fin 5) (flash : Bool)
  /-- CODEC_LANE_NO_PROGRESS (R297). -/
  | codecLaneNoProgress (p : Fin 5) (flash : Bool)
  /-- HELD_MARKER_STAGED (R307). -/
  | heldMarkerStaged (c : Fin 8)
  /-- REC_CHECKPOINT (R317). -/
  | recCheckpoint (c : Fin 8)
  /-- REC_CLIP_CLOSE (R310). -/
  | recClipClose (c : Fin 8)
  /-- GATE_ADMIT (R330). -/
  | gateAdmit (port : Fin 4) (blocks : Nat)
  /-- JOURNAL_RECORD_DURABLE (R343). -/
  | journalRecordDurable (port : Fin 4)
  /-- DRIVE_WRITE_COMPLETE (R329). -/
  | driveWriteComplete (port : Fin 4) (index blocks : Nat)
  /-- JOURNAL_RETIRE (R343). -/
  | journalRetire (port : Fin 4)
  /-- DRIVE_FAILED (R328). -/
  | driveFailed (port : Fin 4) (cause : DriveFault)
  /-- NVME_DOORBELL (R334). -/
  | nvmeDoorbell (queue : NvmeQueue) (value : BitVec 16)
  /-- NVME_CC_ENABLE (R333). -/
  | nvmeCcEnable (mps css iosqes iocqes : Fin 16) (asqs acqs : BitVec 12)
  /-- NVME_CONTROLLER_RESET (R345). -/
  | nvmeControllerReset
  /-- NVME_SHUTDOWN (R345). -/
  | nvmeShutdown
  /-- NVME_CREATE_IO_SQ (R335). -/
  | nvmeCreateIoSq (h : NvmeHead) (qid size cq : BitVec 16) (contiguous : Bool)
  /-- NVME_CREATE_IO_CQ (R335). -/
  | nvmeCreateIoCq (h : NvmeHead) (qid size vector : BitVec 16) (contiguous irq : Bool)
  /-- NVME_DELETE_IO_SQ (R335). -/
  | nvmeDeleteIoSq (h : NvmeHead) (qid : BitVec 16)
  /-- NVME_DELETE_IO_CQ (R335). -/
  | nvmeDeleteIoCq (h : NvmeHead) (qid : BitVec 16)
  /-- NVME_GET_LOG_PAGE (R335). -/
  | nvmeGetLogPage (h : NvmeHead) (page : Byte) (dwords : BitVec 16) (off : BitVec 16)
  /-- NVME_IDENTIFY (R335). -/
  | nvmeIdentify (h : NvmeHead) (cns : Byte)
  /-- NVME_ABORT (R346). -/
  | nvmeAbort (h : NvmeHead) (sq target : BitVec 16)
  /-- NVME_SET_FEATURES (R335). -/
  | nvmeSetFeatures (h : NvmeHead) (fid : Byte) (value : BitVec 32)
  /-- NVME_GET_FEATURES (R335). -/
  | nvmeGetFeatures (h : NvmeHead) (fid : Byte)
  /-- NVME_ASYNC_EVENT_REQUEST (R335). -/
  | nvmeAsyncEventRequest (h : NvmeHead)
  /-- NVME_FLUSH (R341). -/
  | nvmeFlush (sq : Fin 65) (h : NvmeHead)
  /-- NVME_WRITE (R342). -/
  | nvmeWrite (sq : Fin 65) (h : NvmeHead) (lba : BitVec 64) (blocks : BitVec 16) (fua : Bool) (data : List Byte)
  /-- NVME_READ (R332). -/
  | nvmeRead (sq : Fin 65) (h : NvmeHead) (lba : BitVec 64) (blocks : BitVec 16) (failed : Bool)
  /-- NVME_WRITE_ZEROES (R335). -/
  | nvmeWriteZeroes (sq : Fin 65) (h : NvmeHead) (lba : BitVec 64) (blocks : BitVec 16) (fua : Bool)
  /-- NVME_WRITE_ORDERED (R338). -/
  | nvmeWriteOrdered (sq : Fin 65) (h : NvmeHead) (lba : BitVec 64) (blocks : BitVec 16) (fua : Bool) (data : List Byte)
  /-- NVME_BARRIER (R339). -/
  | nvmeBarrier (sq : Fin 65) (h : NvmeHead) (clean : Bool)
  /-- LANE_BLOCK_LOCK (R368). -/
  | laneBlockLock (lane : Fin 70) (skewNs : Nat) (flash : Bool)
  /-- LANE_LOCK_LOSS (R368). -/
  | laneLockLoss (lane : Fin 70) (markers flash : Bool)
  /-- MILESTONE_MARKER (R378). -/
  | milestoneMarker (lane : Fin 70) (marker : List Byte) (idle : Fin 3) (stuffErrors : Nat) (deep flash : Bool)
  /-- SPARE_LOCK_TIMEOUT (R379). -/
  | spareLockTimeout (pair : Fin 6) (flash : Bool)
  /-- ALIGNMENT_COLUMN (R371). -/
  | alignmentColumn (lane : Fin 70) (invalid : Nat)
  /-- REFQ_LOST (R358). -/
  | refqLost (refq : Fin 4) (flash : Bool)
  /-- LANE_LOOP_END (R383). -/
  | laneLoopEnd (lane : Fin 70) (locked : Bool) (bits : BitVec 64) (errs : BitVec 32) (flash : Bool)
  /-- LANE_WEAR_RETIRE (R592). -/
  | laneWearRetire (lane : Fin 70)
  /-- FLIT_RECEIVED (R392). -/
  | flitReceived (port : Fin 8) (flit : List Byte)
  /-- FLIT_TRANSMIT (R393). -/
  | flitTransmit (port : Fin 8)
  /-- REPLAY_TIMEOUT (R393). -/
  | replayTimeout (port : Fin 8)
  /-- LINK_SILENCE_TIMEOUT (R395). -/
  | linkSilenceTimeout (port : Fin 8)
  /-- FLOW_DATA_FRAME (R411). -/
  | flowDataFrame (src : BitVec 12) (dflow : BitVec 16) (dgen : Byte) (fseqno : BitVec 32) (payload : List Byte) (miss : Bool)
  /-- FLOW_ACK_FRAME (R411). -/
  | flowAckFrame (src : BitVec 12) (dflow : BitVec 16) (dgen : Byte) (last : BitVec 32)
  /-- FLOW_ACK_TIMER (R411). -/
  | flowAckTimer (flow : BitVec 16)
  /-- REORDER_TIMEOUT (R411). -/
  | reorderTimeout (flow : BitVec 16)
  /-- FLOW_SILENCE (R411). -/
  | flowSilence (flow : BitVec 16)
  /-- OPEN (R408). -/
  | openFrame (c : Control)
  /-- ACCEPT (R408). -/
  | acceptFrame (c : Control)
  /-- CONFIRM (R408). -/
  | confirmFrame (c : Control)
  /-- NACK (R409). -/
  | nackFrame (c : Control)
  /-- CLOSE (R412). -/
  | closeFrame (c : Control)
  /-- CLOSED (R412). -/
  | closedFrame (c : Control)
  /-- OPEN_RESEND (R408). -/
  | openResend (flow : BitVec 16)
  /-- CONFIRM_TIMEOUT (R408). -/
  | confirmTimeout (flow : BitVec 16)
  /-- CLOSE_TIMEOUT (R412). -/
  | closeTimeout (flow : BitVec 16)
  /-- BREAK_NOTICE (R400). -/
  | breakNotice (port : Fin 8) (origin : BitVec 12) (p : Fin 64)
  /-- HEAL_NOTICE (R400). -/
  | healNotice (port : Fin 8) (origin : BitVec 12) (p : Fin 64)
  /-- BEACON_SEND (R403). -/
  | beaconSend
  /-- BEACON (R403). -/
  | beaconFrame (port : Fin 8) (accNs budgetNs : BitVec 32) (number : BitVec 16)
  /-- BEACON_STALE (R404). -/
  | beaconStale
  /-- WIRE_DELAY_MEASURE (R402). -/
  | wireDelayMeasure (port : Fin 8) (ps : BitVec 32)
  /-- TIME_FRAME_SEND (R481). -/
  | timeFrameSend
  /-- TIME_FRAME (R481). -/
  | timeFrame (src : BitVec 12) (flow : FlowRef) (port : Fin 8) (payload : List Byte) (stamp : Nat)
  /-- TIME_FLOW_TIMEOUT (R481). -/
  | timeFlowTimeout (d : Fin 2)
  /-- PTP_SYNC (R479). -/
  | ptpSync (d : Fin 2) (sender : Nat) (t1 : Int) (stamp : Nat)
  /-- PTP_ANNOUNCE (R480). -/
  | ptpAnnounce (d : Fin 2) (sender : Nat) (dataset : List Nat)
  /-- PTP_DELAY_RESP (R479). -/
  | ptpDelayResp (d : Fin 2) (stamp : Nat) (t4 : Int)
  /-- ANNOUNCE_TIMEOUT (R480). -/
  | announceTimeout (d : Fin 2)
  /-- SYNC_TIMEOUT (R480). -/
  | syncTimeout (d : Fin 2)
  /-- REVERT_TIMER (R484). -/
  | revertTimer
  /-- VIEW_STEP (R488). -/
  | viewStep
  /-- REF_HOLD_END (R490). -/
  | refHoldEnd (k : Fin 20) (lines : Int)
  /-- CADENCE_ALIGNED (R490). -/
  | cadenceAligned (k : Fin 20)
  /-- SYNC_IN_FRAME (R491). -/
  | syncInFrame (fmt : Fin 5) (num den periodPs stamp : Nat)
  /-- SYNC_IN_LOST (R491). -/
  | syncInLost
  /-- LTC_FRAME (R492). -/
  | ltcFrame (value : BitVec 32) (stamp : Nat)
  /-- LTC_FREEWHEEL (R492). -/
  | ltcFreewheel
  /-- LTC_GENERATOR_FRAME (R493). -/
  | ltcGeneratorFrame (offset : Int)
  /-- OUTPUT_SELECT (R422). -/
  | outputSelect (i : Fin 12) (adjusted : Bool)
  /-- ETH_PORT_DOWN (R430). -/
  | ethPortDown (e : Fin 2)
  /-- DISPLAY_VBLANK (R448). -/
  | displayVblank
  /-- DISPLAY_LINE (R441). -/
  | displayLine
  /-- LAYER_BURST (R447). -/
  | layerBurst (layer : Fin 4) (line : Fin 1600) (burst : Fin 3)
  /-- COMPOSE_DEADLINE (R446). -/
  | composeDeadline (line : Fin 1600) (late : List (BitVec 32))
  /-- DISPLAY_FRAME_CRC (R451). -/
  | displayFrameCrc (crc0 crc1 : BitVec 32)
  /-- AUDIO_STROBE (R457). -/
  | audioStrobe (j : Nat) (pdm : List (List Bool)) (rx : List (List (BitVec 24)))
  /-- AUDIO_CHANGE_TIMEOUT (R466). -/
  | audioChangeTimeout (item : Fin 35)
  /-- AUDIO_FRAME (R462). -/
  | audioFrame (port : Fin 3) (slots : List (BitVec 24)) (soon : Bool)
  /-- AUDIO_CLOCK_FAULT (R463). -/
  | audioClockFault (port fault : Fin 3) (periodPs : BitVec 32)
  /-- AUDIO_CLOCK_QUALIFIED (R464). -/
  | audioClockQualified (port : Fin 3) (periodPs : BitVec 32)
  /-- MR4_READ (R509). -/
  | mr4Read (ch : Fin 16) (rank : Fin 2) (code : Byte) (band : Fin 3)
  /-- PAYBACK_END (R511). -/
  | paybackEnd (ch : Fin 16) (rank : Fin 2) (ns : BitVec 32)
  /-- WRITE_DRAIN (R507). -/
  | writeDrain (ch : Fin 16) (r : ChannelReport)
  /-- DQ_OSC_READ (R505). -/
  | dqOscRead (ch : Fin 16) (rank : Fin 2) (osc : DqReading)
  /-- BURST_POISONED (R515). -/
  | burstPoisoned (addr : BitVec 36) (rank : Fin 2) (bank : BitVec 12) (row : BitVec 32) (client : BurstClient)
  /-- SCRUB_REPORT (R516). -/
  | scrubReport (ch : Fin 16) (rank : Fin 2) (bank row : Nat) (corrections : BitVec 32)
  /-- ROW_REMAP_DONE (R516). -/
  | rowRemapDone (ch : Fin 16) (flash : Bool)
  /-- SENSOR_CONVERSION (R527). -/
  | sensorConversion (sensor : Fin 28) (reading : BitVec 16) (bias : Bool) (flash : Bool)
  /-- SUSPECT_TIMEOUT (R528). -/
  | suspectTimeout (sensor : Fin 24) (flash : Bool)
  /-- RISE_EVALUATION (R529). -/
  | riseEvaluation
  /-- CONTROL_PERIOD (R532). -/
  | controlPeriod (ma : BitVec 32)
  /-- CAL_INTERVAL (R538). -/
  | calInterval (cls : Fin 6)
  /-- CAL_MEASURE (R539). -/
  | calMeasure (cls : Fin 6) (target : Fin 54) (tries : List (BitVec 10 × BitVec 10))
  /-- CAL_GAP_APPLY (R538). -/
  | calGapApply (cls : Fin 6) (target : Fin 54)
  /-- RCAL_CHECK (R540). -/
  | rcalCheck (value : BitVec 32)
  /-- BANK_FAULT (R588). -/
  | bankFault (array : Fin 15) (unit : Fin 16) (bank : Fin 1024) (spans : List (Fin 1600 × Fin 2560 × Fin 2561)) (flash : Bool)
  /-- BANK_WEAR (R588). -/
  | bankWear (array : Fin 15) (unit : Fin 16) (bank : Fin 1024) (corrections : BitVec 32) (flash : Bool)
  /-- SELF_TEST_DONE (R589). -/
  | selfTestDone (cls : Fin 8) (index : Fin 64) (pass flash : Bool)
  /-- LOCKSTEP_RESTART_DONE (R561). -/
  | lockstepRestartDone
  /-- REFCLK_QUALIFIED (R32). -/
  | refclkQualified (alt : Bool)
  /-- RESET_N_RISE (R566). -/
  | resetNRise
  /-- RAIL_IN_WINDOW (R551). -/
  | railInWindow (k : Fin 8) (mv : BitVec 16)
  /-- PLOSS_RESET_EXIT (R558). -/
  | plossResetExit
  /-- STAGGER_WAIT_END (R553). -/
  | staggerWaitEnd (sensor : Fin 4)
  /-- ETH_PORT_UP (R430). -/
  | ethPortUp (e : Fin 2)
  /-- REFRESH_DUE (R510). -/
  | refreshDue (ch : Fin 16) (rank : Fin 2) (waiting : Bool) (issued : Fin 18)
  /-- DECODE_SLAB_DONE (R296). -/
  | decodeSlabDone (p : Fin 5)
deriving DecidableEq, Repr

end Sys2Proof
end

