-- ==== Sys2Proof/Config.lean ====
section
/-! DEFINITION. What an implementation fixes and the manual leaves open: the free values. Each is an
uninterpreted constant with no body, applied to the draw counter that the state holds, so that no proof can
rest on a number chosen here. -/

namespace Sys2Proof.Config

/-- A value the manual leaves undefined, one for each draw (R162, R200, R238, R519, R641 and the other
places the assumption log names). Nothing evaluates it. -/
opaque freeNat : Nat → Nat

/-- The bytes of a stretch of memory whose content the manual leaves undefined, one function of position
for each draw. -/
opaque freeByte : Nat → Nat → Byte

/-- The payload byte of a break or heal notice, whose layout the manual does not give (R400): ring, link
position, 0 break or 1 heal, byte. -/
opaque noticeByte : Nat → Nat → Nat → Nat → Byte

/-- Where a node lies in the device's own layout of a deep lattice, which the manual does not give (R216):
byte offset of a node number. -/
opaque latticeOffset : Nat → Nat

/-- The fused equaliser presets (R373): personality, rate code, tap. -/
opaque eqPreset : Nat → Nat → Nat → Int

/-- The fused latency of a port's stamps in ps (R478): port, personality, rate code. -/
opaque portLatency : Nat → Nat → Nat → Int

/-- A code of a pixel whose generation names no colour bank, which the manual does not give (R223, R226): frame, column,
line, channel. -/
opaque unbankedCode : Nat → Nat → Nat → Nat → Nat

/-- The fields of the fused fallback policy that R549 does not give, by number: four for each sensor, `die_bind`, and the bytes
of `pubkey` (R548, R565). -/
opaque fallbackField : Nat → Nat

/-- Selyon's PCI-SIG vendor ID, the same on all parts, which the manual does not write out (R43). -/
opaque vendorId : Nat

/-- Payload bytes of an ST 2110-40 packet, which the manual does not give (R428, R431). -/
opaque ancPayload : Nat

/-- The DRAM parameters the controller knows, with the fused minimum of each: parameter number and minimum (R578).
The manual refers to JESD209-5C and lists none. -/
opaque profileParams : List (Nat × Nat)

end Sys2Proof.Config
end

