-- ==== Sys2Proof/Machine/State.lean ====
section
/-! DEFINITION. The state of the FMC9: every register, queue, counter, mode, pin and store the manual gives
the device, as plain data, with the commands that wait. A field's default is its value at `State.reset`: the
Reset column of the manual where it gives one, otherwise the value the assumption log names. -/

namespace Sys2Proof.Machine

/-- Reasons the machine would stop with a fault. The manual gives the block no fault: an access outside an
address range reads 0 and is ignored on write (R44, R48, R50), so no constructor exists and no row can raise
one; safe, since nothing is left out behind it. -/
inductive Fault
deriving DecidableEq, Repr

/-- Reasons a row is refused. -/
inductive Refusal where
  /-- A row of the table that has no meaning in the model; raised only by `exec`'s arms, safe. -/
  | notModelled (mnemonic : String)
deriving DecidableEq, Repr

/-- An addressed store in canonical form: addresses strictly rising, no cell equal to 0, which is what an
unlisted address reads as. -/
abbrev Mem := List Host.Cell

/-! ## The part -/

/-- The throughput tier (R13). -/
inductive Tier where
  | a | b | c
deriving DecidableEq, Repr

/-- What the fuses and the bonding of this die hold (R13 to R18, R19, R476, R560, R577), fixed for the run. -/
structure Fuse where
  tier : Tier := .a
  /-- package M rather than L -/
  pkgM : Bool := false
  ring : Bool := true
  /-- die stepping, letter in [7:4], digit in [3:0] (R18) -/
  stepping : Nat := 0x11
  dieId : Nat := 0
  /-- `xtal_corr`, parts per 2^41 (R476); 0 when unprogrammed -/
  xtalCorr : Int := 0
  /-- fused minimum counter of firmware images (R577) -/
  fwMinCounter : Nat := 0
  /-- key hashes of the policy and of firmware, and the policy's minimum counter (R548, R549, R577) -/
  polKeyHash : List Byte := []
  fwKeyHash : List Byte := []
  polMinCounter : Nat := 0
  /-- the Flint lock fuse (R560) -/
  flintLock : Bool := false
  /-- installed LPDDR5X in GiB as bonded (R14, R499), found by training -/
  bondedGib : Nat := 16
  /-- two ranks of 16 Gb where R499 allows either them or one of 32 Gb -/
  dualRank : Bool := false
  /-- neighbour list, offset and self-test delta of each temperature sensor, in 1/16 °C (R524) -/
  tempNbrs : List (List Nat) := (List.range 28).map fun i =>
    if i < 24 then [i / 6 * 6 + (i + 5) % 6, i / 6 * 6 + (i + 1) % 6] else [(i - 24) * 6 + 2, (i - 24) * 6 + 3]
  tempOffset : List Int := List.replicate 28 0
  tempDelta : List Int := List.replicate 28 160
  /-- the fused default code of each target of each calibration class (R540) -/
  calDefault : List (List Nat) := List.replicate 6 []
deriving DecidableEq, Repr

/-! ## Mailboxes (chapter 03) -/

/-- A command slot's life and the doorbell region (R53 to R72). -/
structure Mbx where
  /-- the 40 slots of 512 bytes, slot n at 512 × n (R53) -/
  slots : Mem := []
  /-- `MBX_DB_n` and `MBX_DB_Qn` `seq` (R55) -/
  db : Vector Nat 40 := Vector.replicate 40 0
  /-- the slots firmware owns, in arrival order (R60); `busy` is membership -/
  arrival : List Nat := []
  /-- owned slots whose command has been accepted and whose response is still to come -/
  started : List Nat := []
  /-- owned slots held for the new firmware (R70), a part of `arrival` -/
  heldSlots : List Nat := []
  /-- `MBX_DONE` in [31:0] and `MBX_DONE_Q` in [39:32] -/
  done : BitVec 40 := 0
  ready : Bool := false
  staged : Bool := false
  activating : Bool := false
  epoch : BitVec 8 := 0
  ringBusy : Nat := 0
  lockedWrites : Nat := 0
  discarded : Nat := 0
deriving DecidableEq, Repr

/-! ## Attention and event queues (chapter 04) -/

/-- One 32-byte event record (R79), with `rec_seq` left to its position. -/
structure EvRecord where
  ts : Nat := 0
  code : Nat := 0
  source : Nat := 0
  origin : Nat := 0
  gap : Bool := false
  /-- class S timestamp -/
  classS : Bool := false
  remote : Bool := false
  cont : Bool := false
  recSeq : Nat := 0
  payload : List Byte := []
  /-- the record was lost with its SRAM bank (R588); its position stands -/
  erased : Bool := false
deriving DecidableEq, Repr

/-- An event queue or metadata FIFO (R81 to R88): the unreleased records, oldest first, and the registers. -/
structure Queue where
  /-- the records from `rel` up to `wr`, oldest first -/
  recs : List EvRecord := []
  rel : BitVec 32 := 0
  mark : BitVec 32 := 0
  rd : BitVec 32 := 0
  wr : BitVec 32 := 0
  wm : Nat := 1024
  wmHit : Bool := false
  /-- `wm_hit` was cleared at or above the watermark: the next record sets it again (R86) -/
  rearm : Bool := false
  peak : Nat := 0
  lost : Nat := 0
  /-- the lost leaf of the queue: `ATTN_CAUSE_31` bit q, or the `_lost` bit of a FIFO (R85) -/
  lostLeaf : Bool := false
  badctl : Nat := 0
  /-- the last records were lost with a bank: the next record carries `gap` (R588) -/
  gapNext : Bool := false
  /-- banks of 512 records that the queue runs without (R590) -/
  missing : Nat := 0
  /-- the record port's copy and the position it was latched at (R82) -/
  port : List Byte := []
  portPos : BitVec 32 := 0
  /-- the copy is of a record, not of an empty queue -/
  portValid : Bool := false
  ctrl : Nat := 0
  release : BitVec 32 := 0
deriving DecidableEq, Repr

/-- Masks and stored leaves of the attention tree (R73 to R78). The leaves of summary bits 0, 2, 29 and 31 are
stored with the mailboxes and queues they show. -/
structure Attn where
  mask : Reg32 := 0xFFFFFFFF
  cause : List Reg32 := List.replicate 32 0
  cmask : List Reg32 := List.replicate 32 0xFFFFFFFF
  cmask2 : Reg32 := 0xFFFFFFFF
  /-- masks of sub-cause registers 0 to 3 of summary bit 2, the only ones with bits (R77, R78) -/
  submask : List Reg32 := List.replicate 4 0xFFFFFFFF
  /-- MSI-X messages sent (R74) -/
  msix : Nat := 0
deriving DecidableEq, Repr

/-- What the two host ports hold (R43 to R48), and the last data returned to a read. -/
structure HostPorts where
  /-- DRAM base of the BAR2 window (R44, R519) -/
  bar2Base : Nat := 0
  bar2Blocked : Nat := 0
  qspiLastErr : Bool := false
  /-- bytes the last read of a host port returned -/
  readData : List Byte := []
  /-- the last BAR2 read's completion went out as a poisoned TLP (R594) -/
  readPoisoned : Bool := false
  /-- the generation and width at which the PCIe endpoint has trained, 0 while it has not (R43) -/
  epGen : Nat := 0
  epWidth : Nat := 0
  /-- the highest generation of its partner, 0 while none has answered -/
  epPartner : Nat := 0
deriving DecidableEq, Repr

/-! ## Time base (chapter 20) -/

/-- States of a time domain (R482). -/
inductive DomState where
  | off | acquiring | settling | locked | holdover | fault
deriving DecidableEq, Repr

/-- Sources of a time domain (R480). -/
inductive DomSource where
  | none | ptp | flow | sync | free
deriving DecidableEq, Repr

/-- A foreign master of a PTP domain with its Announce data set (R480). -/
structure ForeignMaster where
  /-- the sending port's identity -/
  port : Nat
  /-- priority1, class, accuracy, variance, priority2, identity, steps removed, in comparison order -/
  dataset : List Nat
deriving DecidableEq, Repr

/-- One time domain (R475, R482, R483). -/
structure Domain where
  state : DomState := .off
  source : DomSource := .none
  port : Nat := 0
  ptpDomain : Nat := 0
  logSync : Int := 0
  logAnnounce : Int := 0
  receiptTimeout : Nat := 0
  stageAddr : Nat := 0
  tauMs : Nat := 0
  lockNs : Nat := 0
  /-- O_d, 96 bits -/
  ofs : Nat := 0
  anchor : Nat := 0
  rate : Int := 0
  /-- the last measurement, in 2^-48 s -/
  theta : Int := 0
  pathNs : Int := 0
  /-- path delay in 2^-48 s, the last measured -/
  path : Int := 0
  meas : Nat := 0
  /-- the last measurements while acquiring, newest first, at most 4 -/
  window : List Int := []
  /-- consecutive measurements within `lock_ns` while settling -/
  good : Nat := 0
  /-- consecutive measurements beyond 1 ms -/
  bad : Nat := 0
  /-- the integral term i times the denominator of its step -/
  iNum : Int := 0
  /-- the last rates, newest first, at most 64 -/
  rates : List Int := []
  lockLosses : Nat := 0
  ignored : Nat := 0
  steps : Nat := 0
  masters : List ForeignMaster := []
  /-- the last Sync's t1 and t2, in 2^-48 s, for the path delay (R479); none before the first -/
  syncT : Option (Int × Int) := none
  /-- the count at which the domain last became locked -/
  lockedAt : Nat := 0
  /-- sync-input seconds are counted from this count (R491) -/
  flow : Option Nat := none
deriving DecidableEq, Repr

/-- A view of time (R477): its base, and its correction `delta0` in 2^-48 s at count `from0`, slewed to 0 at
`slewPpb`. -/
structure View where
  /-- domain 0 or 1, or `none` for F -/
  base : Option Nat := none
  delta0 : Int := 0
  from0 : Nat := 0
  slewPpb : Nat := 100
  /-- while the base domain restarts, the offset, anchor and rate it ran on before (R487) -/
  frozen : Option (Int × Nat × Int) := none
deriving DecidableEq, Repr

/-- The cadence of a class S consumer (R490). -/
structure Cadence where
  /-- 0 aligned, 1 holding, 2 slewing -/
  phase : Nat := 0
  cause : Nat := 0
  linesLeft : Int := 0
  /-- S, in 2^-48 s, at which its last frame starts (R489) -/
  start : Option Int := none
deriving DecidableEq, Repr

/-- The sync input's separator (R491). -/
structure SyncIn where
  enable : Bool := false
  /-- the qualified format, 0 none, else the code of the format seen -/
  format : Nat := 0
  candidate : Nat := 0
  frames : Nat := 0
  periodPs : Nat := 0
  /-- frame rate of the qualified format -/
  fpsNum : Nat := 0
  fpsDen : Nat := 1
  /-- C at the last frame of the qualified format -/
  last : Nat := 0
  /-- frames since the first qualified frame -/
  since : Nat := 0
deriving DecidableEq, Repr

/-- The LTC reader and generator (R492, R493); timecode values are BCD hh:mm:ss:ff. -/
structure Ltc where
  rate : Nat := 0
  genSrc : Nat := 0
  freewheel : Nat := 1
  outEnable : Bool := false
  preset : Nat := 0
  readerValid : Bool := false
  reader : Nat := 0
  /-- C at the last valid frame -/
  readerAt : Nat := 0
  generator : Nat := 0
  jammed : Bool := false
  /-- a change of source waits for the next frame boundary -/
  srcPending : Bool := false
  /-- the last value sent on LTC_OUT, none before the first -/
  sent : Option Nat := none
deriving DecidableEq, Repr

/-- The time base (chapter 20). -/
structure TimeBase where
  /-- the counter C (R473) -/
  c : BitVec 64 := 0
  doms : List Domain := [{}, {}]
  /-- domains whose time flow a reset or Hibernate ended, to be opened again (R568, R575) -/
  reopen : List Bool := [false, false]
  primary : Nat := 0
  secondary : Option Nat := none
  revert : Bool := false
  viewS : View := {}
  viewL : View := {}
  stepWait : Bool := false
  /-- domain whose waiting step of S is pending -/
  stepTo : Option Nat := none
  slewPpb : Nat := 100
  cadences : List Cadence := List.replicate 20 {}
  syncIn : SyncIn := {}
  syncOutStd : Nat := 0
  syncOutFpsNum : Nat := 0
  syncOutFpsDen : Nat := 1
  syncOutPhase : Int := 0
  ltc : Ltc := {}
  serve : Bool := false
  maxClients : Nat := 0
  /-- last ingress and egress stamps of ports 0 to 11 -/
  rx : List Nat := List.replicate 12 0
  tx : List Nat := List.replicate 12 0
  rxAdj : List Int := List.replicate 12 0
  txAdj : List Int := List.replicate 12 0
  asym : List Int := List.replicate 12 0
  /-- latched TB_COUNT with snapshots S, L, D0, D1 (R638) -/
  snap : List Nat := [0, 0, 0, 0, 0]
  /-- latched domain blocks: O, rate, anchor, theta, path, meas -/
  blocks : List (List Nat) := [[0, 0, 0, 0, 0, 0], [0, 0, 0, 0, 0, 0]]
  /-- time frames sent by this server (R481) -/
  flowSeq : Nat := 0
deriving DecidableEq, Repr

/-! ## Clocks, resets and power (chapters 02, 24) -/

/-- `CLK_STATUS` and `CLK_FAILOVERS` (R32 to R34). -/
structure Clocks where
  refSel : Bool := false
  refclkOk : Bool := false
  altOk : Bool := false
  rootLock : Bool := false
  holdover : Bool := false
  /-- C when the holdover in progress began (a reset of C carries it back), and whether REFCLK_ALT was then in use
  (R33) -/
  holdoverAt : Option Int := none
  lostSel : Bool := false
  /-- the holdover began in the cold or RESET_N boot in progress -/
  lostInBoot : Bool := false
  failovers : Nat := 0
  /-- the ordered stop of R494 has begun -/
  stopping : Bool := false
deriving DecidableEq, Repr

/-- The power states of R570. -/
inductive PwrState where
  | run | standby | hibernate
deriving DecidableEq, Repr

/-- The reset kinds that lead to a boot (R566, R585), with the kind `EV_PWR_RESET` reports. -/
inductive ResetKind where
  | cold | resetN | soft | watchdog | reverted
deriving DecidableEq, Repr

/-- What a firmware slot of the boot flash holds (R577, R582). -/
structure FwSlot where
  valid : Bool := false
  level : Nat := 0
  minor : Nat := 0
  patch : Nat := 0
  build : Nat := 0
  counter : Nat := 0
deriving DecidableEq, Repr

/-- A boot record of generation 0 with slot 0 active, up to its reserved bytes, with its check code (R576). -/
def bootRecordZero : List Byte × Nat :=
  ([0x42, 0x52, 0x43, 0x44, 1, 0, 0, 0, 0, 0, 0, 0, 0, 0, 0, 0, 0, 0, 0, 0, 0, 0x20, 0, 0, 0, 0, 1, 0, 0, 0, 0x10, 0,
    0, 0, 0x90, 0], 0x22ADA383)

/-- A move between Run and Standby or Hibernate in progress (R570 to R574). -/
structure PwrMove where
  entering : Bool
  target : PwrState
  /-- what `EV_PWR_STATE` will report of an exit: 0 command, 1 `PWR_WAKE`, 2 GPIO, 3 `t_wake` -/
  cause : Nat := 0
deriving DecidableEq, Repr

/-- Power state, boot and firmware (chapter 24). -/
structure Power where
  state : PwrState := .run
  move : Option PwrMove := none
  /-- a wake arrived while Hibernate entry was in progress (R567), with its cause -/
  wakePending : Option Nat := none
  /-- the reset whose boot is in progress; `none` once `ready` has set -/
  booting : Option ResetKind := some .cold
  /-- the always-on rails have entered their windows -/
  powered : Bool := false
  /-- RESET_N is low -/
  resetNLow : Bool := false
  -- BOOT_STATUS (R581)
  phase : Nat := 0
  failed : Bool := false
  cause : Nat := 0
  channel : Nat := 0
  byteLane : Nat := 0
  bootSlot : Nat := 0
  /-- commands the reset in progress discarded (R585) -/
  dropped : Nat := 0
  /-- a watchdog reset fell in the cold or RESET_N boot in progress (R556) -/
  wdInBoot : Bool := false
  /-- DRAM training has started since VDD_AON was good or the last reset that undoes it (R613) -/
  dramStarted : Bool := false
  /-- `PWR_WAKE` `key` -/
  wakeKey : BitVec 32 := 0
  wakeGpio : Nat := 0xFF
  wakeFalling : Bool := false
  tWake : Nat := 0
  /-- boot flash: the boot record's copies A and B, up to the reserved bytes, each with its check code (R576) -/
  record : List (List Byte × Nat) := [bootRecordZero, bootRecordZero]
  /-- the active slot of the valid copy, and the two slots -/
  active : Nat := 0
  recGen : Nat := 0
  slots : List FwSlot := [{ valid := true, level := 3, minor := 4 }, {}]
  /-- a staging write in progress: its slot and its image -/
  staging : Option (Nat × FwSlot) := none
  stagedSlot : Option Nat := none
  /-- CAP_FW (R18) and the build that runs -/
  capFw : Reg32 := 0
  fwBuild : Nat := 0
  /-- dram_gib of CAP_IO, 0 until mailbox ready -/
  dramGib : Nat := 0
  /-- the slot whose FW_ACTIVATE waits for the new firmware -/
  activateSlot : Option Nat := none
  /-- opcodes assigned in level 3 that the running firmware does not implement (R66 step 2, R71) -/
  fwLacks : List Nat := []
  /-- what firmware saves of the drive ports at Hibernate entry, state and window, and the lanes that were at work
  (R574) -/
  savedPorts : List (Nat × Nat) := []
  savedLanes : List Nat := []
deriving DecidableEq, Repr

/-! ## Bedrock (chapter 23) -/

/-- The policy's terms for one sensor's power (R548). -/
structure SensPolicy where
  grant : Bool := false
  pgUse : Bool := false
  pgTimeoutMs : Nat := 0
  settleMs : Nat := 0
  offMs : Nat := 0
deriving DecidableEq, Repr

/-- The signed part of a policy (R548); the defaults are the fallback policy of R549. -/
structure Policy where
  polCounter : Nat := 0
  dieBind : Nat := 0
  coreLimitMa : Nat := 40000
  fanFloor : Nat := 255
  flintPermit : Bool := false
  wdCoreMs : Nat := 50
  wdMs : Nat := 500
  staggerMs : Nat := 10
  sens : List SensPolicy := [{}, {}, {}, {}]
  /-- `pubkey`, as `BR_POLICY` returns it -/
  pubkey : List Byte := []
deriving DecidableEq, Repr

/-- Where a sensor's power sequence stands (R553). -/
inductive SpwrSeq where
  | idle
  /-- waiting out the stagger time before SPWR_EN -/
  | stagger
  /-- SPWR_EN asserted, waiting for power good -/
  | waitPg
  | settle
  | offWait
deriving DecidableEq, Repr

/-- Supply k of R551 as measured. -/
structure Rail where
  mv : Nat := 0
  low : Bool := false
  high : Bool := false
deriving DecidableEq, Repr

/-- A Bedrock notice not yet posted: leaf, unit, entered, mv, counter (R564), and the class L time of its event (R79). -/
structure Notice where
  leaf : Nat
  unit : Nat
  entered : Bool
  mv : Nat
  counter : Nat
  ts : Nat
deriving DecidableEq, Repr

/-- What holds everything but Bedrock in reset. -/
inductive FaultHold where
  | overVoltage | trip | lockstep | refStop | ploss
deriving DecidableEq, Repr

/-- Bedrock (R545 to R565). -/
structure Bedrock where
  /-- the policy block in the boot flash, empty when absent (R547, R548) -/
  flashPolicy : List Byte := []
  policy : Policy := {}
  /-- `policy_src`: the fallback policy is in force -/
  fallback : Bool := false
  ploss : Bool := false
  /-- the power-loss response runs because of a trip (R559) -/
  trip : Bool := false
  plossLow : Bool := false
  drained : Bool := false
  /-- the reset point of the response has passed (R558) -/
  pointPassed : Bool := false
  flintGate : Bool := false
  testEn : Bool := false
  spwrOn : List Bool := [false, false, false, false]
  spwrSeq : List SpwrSeq := [.idle, .idle, .idle, .idle]
  /-- sensor power requests that wait for a lockstep restart: sensor and on (R561) -/
  held : List (Nat × Bool) := []
  lastStop : Nat := 0
  lsRestart : Bool := false
  /-- C at the last lockstep fault, and when SPWR_EN was last asserted (R553, R561); a reset of C carries them back -/
  lsAt : Option Int := none
  /-- that fault fell in the cold or RESET_N boot in progress -/
  lsInBoot : Bool := false
  lastPowerOn : Option Int := none
  writes : Nat := 0
  lockstep : Nat := 0
  wdResets : Nat := 0
  plossCount : Nat := 0
  rails : List Rail := List.replicate 8 {}
  /-- per sensor: C when SPWR_EN was last released, and whether for a fall of its power good (R562) -/
  spwrOffAt : List (Option (Int × Bool)) := [none, none, none, none]
  /-- a rail was above its window before the monitors were armed (R609) -/
  rampHigh : Bool := false
  /-- a watchdog expiry deferred to the end of the power-loss response (R562) -/
  wdDeferred : Bool := false
  hold : Option FaultHold := none
  /-- notices waiting for mailboxes to be ready -/
  notices : List Notice := []
deriving DecidableEq, Repr

/-! ## Memory controller (chapter 21) -/

/-- What a command's allocation in DRAM holds (R636); the number tells the unit that owns it. -/
inductive DramObj where
  | ring (s : Nat) | statsRing (s : Nat) | map (h : Nat) | accum (s : Nat)
  /-- the versions of a sensor's tracking column term (R156, R163) -/
  | column (s : Nat)
  | slFrame (s : Nat) | rnd0 (s : Nat) | rendition (k : Nat) | tap (s t : Nat)
  /-- a copy of a table or lattice that a parameter set names -/
  | copy
  /-- a released object that frames or sinks still hold -/
  | dying
  | preroll (c : Nat) | sendBuf (f : Nat) | recvRing (f : Nat)
deriving DecidableEq, Repr

/-- One allocated range of device addresses. -/
structure Region where
  obj : DramObj
  base : Nat
  size : Nat
deriving DecidableEq, Repr

/-- One rank's refresh state (R509 to R511). -/
structure Rank where
  band : Nat := 0
  /-- the lower band its last readings reported, and how many in a row -/
  lowerBand : Nat := 0
  lowerRun : Nat := 0
  /-- refreshes postponed, negative when issued in advance -/
  owed : Int := 0
  /-- refreshes the payback in progress owes, with the new band and whether a drain ran -/
  payback : Option (Nat × Nat × Bool) := none
  /-- its DQ oscillator at training, for the two byte lanes (R505) -/
  osc : List Int := [0, 0]
deriving DecidableEq, Repr

/-- A byte lane of a channel: its eyes and its delays, in steps of 1/64 UI (R503), with the corrections made since (R505). -/
structure DqLane where
  readEye : Nat := 0
  writeEye : Nat := 0
  readDelay : Nat := 0
  writeDelay : Nat := 0
  steps : Int := 0
deriving DecidableEq, Repr

/-- A row to retire or remapped: rank, bank, row, corrections reported, poisoned cause, and the row of the channel's
remap reserve that takes its place (R516). -/
structure DramRow where
  rank : Nat
  bank : Nat
  row : Nat
  corrections : Nat := 0
  poisoned : Bool := false
  into : Nat := 0
deriving DecidableEq, Repr

/-- One LPDDR5X channel (R507, R514 to R518). -/
structure DramChannel where
  ranks : List Rank := [{}, {}]
  paybacks : Nat := 0
  drains : Nat := 0
  wqPeak : Nat := 0
  /-- entries in the write queue and the read queue (R507) -/
  wqLevel : Nat := 0
  rqLevel : Nat := 0
  draining : Bool := false
  fabricHolds : Nat := 0
  corrections : Nat := 0
  retries : Nat := 0
  poisoned : Nat := 0
  remap : List DramRow := []
  /-- rows queued for retirement, oldest first -/
  retire : List DramRow := []
  awaitPpr : Nat := 0
  lastScrub : Nat := 0
  lanes : List DqLane := [{}, {}]
deriving DecidableEq, Repr

/-- The memory controller and its allocator. -/
structure MemCtl where
  channels : List DramChannel := List.replicate 16 {}
  keep : Nat := 0x7F
  /-- base addresses of poisoned 32-byte bursts (R515) -/
  poison : List Nat := []
  /-- the bank of each burst that has been poisoned (R600) -/
  poisonBanks : List (Nat × Nat) := []
  regions : List Region := []
  /-- bytes of the firmware's own DRAM area (R574) -/
  fwArea : Nat := 2 ^ 26
deriving DecidableEq, Repr

/-! ## Spares and the Quarry ledger (chapter 25) -/

/-- A ledger entry (R595). -/
structure LedgerEntry where
  cls : Nat
  event : Nat
  cause : Nat
  index : Nat
  bank : Nat
  time : Nat
  detail : Nat
  count : Nat
deriving DecidableEq, Repr

/-- A retired SRAM bank: array, unit, bank (R587, R588). -/
structure BankId where
  array : Nat
  unit : Nat
  bank : Nat
deriving DecidableEq, Repr

/-- One half of the ledger's flash region (R595, R596): its header up to the reserved bytes, empty when erased, the header's
check code, and the 32-byte entries, oldest first. -/
structure LedgerHalf where
  head : List Byte := []
  crc : Nat := 0
  entries : List (List Byte) := []
deriving DecidableEq, Repr

/-- The ledger, the pools' counters and the banks retired. -/
structure Spares where
  /-- the entries of the current half, in memory -/
  ledger : List LedgerEntry := []
  qgen : Nat := 0
  ledgerFault : Bool := false
  /-- the two halves in the boot flash, and the current one -/
  halves : List LedgerHalf := [{}, {}]
  half : Nat := 0
  /-- the boot flash takes the ledger's writes -/
  flashOk : Bool := true
  retired : List BankId := []
  /-- retirements of banks whose array had no spare left (R590) -/
  overdrawn : List BankId := []
  /-- banks that arrays have run without since the last cold power-on (R590) -/
  gone : List BankId := []
  substitutions : List Nat := List.replicate 7 0
  poisonHandled : Nat := 0
  /-- self-tests running: class and index, and whether a command asked (R589) -/
  testing : List (Nat × Nat × Bool) := []
  /-- Flagstone cores: logical to physical, and failed -/
  coreMap : List Nat := [0, 1, 2, 3]
  coreFailed : List Bool := List.replicate 5 false
deriving DecidableEq, Repr

/-! ## Sensors and ingest (chapter 05) -/

/-- What `SENS_CONFIG` sets (R100), with the ring it was given (R106). -/
structure SensConfig where
  iface : Nat
  exposures : Nat
  bits : Nat
  width : Nat
  height : Nat
  fpsNum : Nat
  fpsDen : Nat
  depth : Nat
  shortLimit : Nat
  pedestal : Nat
  first : Nat
  links : Nat
  lanesPer : Nat
  rate : Nat
  /-- (vc, dt) of exposures 0 to 2 -/
  vcdt : List (Nat × Nat)
  lineTimeout : Nat
  /-- `ring_base` -/
  base : Nat
deriving DecidableEq, Repr

/-- A transfer on a control bus (R120). -/
structure BusXfer where
  ticket : Nat
  bus : Nat
  speed : Nat
  target : Nat
  wr : List Byte
  rdLen : Nat
deriving DecidableEq, Repr

/-- What waits on or runs on a bus, the head running (R119). -/
inductive BusJob where
  /-- an immediate transfer of the command in a mailbox slot -/
  | host (slot : Nat) (x : BusXfer)
  | deferred (sensor : Nat) (x : BusXfer)
  | poll (sensor fifo : Nat) (x : BusXfer)
deriving DecidableEq, Repr

/-- A metadata poll (R122). -/
structure MetaPoll where
  trigger : Nat
  periodUs : Nat
  x : BusXfer
deriving DecidableEq, Repr

/-! ## Parameter sets (chapters 07, 08, 09, 10) -/

/-- A table a command copied into DRAM: where, and its entries. -/
structure Copy where
  base : Nat
  vals : List Nat
deriving DecidableEq, Repr

/-- Merge terms of one exposure (R152), F24 codes. -/
structure ExpMerge where
  k : Nat := 0x3F0000
  sat : Nat := 0x3F0000
  nRead : Nat := 0x2B0000
  nShot : Nat := 0x2F0000
deriving DecidableEq, Repr

/-- `FE_BLACK` (R157). -/
structure Black where
  colMode : Nat := 0
  rowCount : Nat := 0
  alpha : Nat := 0
  rowFirst : Nat := 0
  obFirst : Nat := 0
  obCount : Nat := 0
  rowLimit : Nat := 0
  table : Option Copy := none
deriving DecidableEq, Repr

/-- `FE_MAP_SELECT` (R160) and `FE_DEFECT` (R164). -/
structure Defect where
  map : Option Nat := none
  offsetUnit : Nat := 0x2B0000
  classAction : Nat := 0x5555AAA8
  mode : Nat := 0
  tAbs : Nat := 0
  tRel : Nat := 0
  storm : Nat := 0
deriving DecidableEq, Repr

/-- `DEV_CFA` (R185 to R188) and `DEV_DEMOSAIC`. Roles: 0 R, 1 G, 2 B, 3 W, 0xFF unused. -/
structure Mosaic where
  px : Nat := 2
  py : Nat := 2
  phaseX : Nat := 0
  phaseY : Nat := 0
  roles : List Nat := [0, 1, 1, 2]
  /-- cell (i, j) at 8 j + i -/
  cells : List Nat := [0, 1, 0, 0, 0, 0, 0, 0, 2, 3]
  bal : List Nat := [0x3F0000, 0x3F0000, 0x3F0000, 0x3F0000]
  gradFloor : Nat := 0x2F0000
  cas : Nat := 0x3E0000
deriving DecidableEq, Repr

/-- One colour engine's parameters (R208 to R221, R230). -/
structure Colour where
  form : Nat := 0
  illums : Nat := 1
  miredA : Nat := 0x463200
  miredB : Nat := 0
  mired : Nat := 0
  matA : List Nat := [0x3F0000, 0, 0, 0, 0x3F0000, 0, 0, 0, 0x3F0000]
  matB : List Nat := []
  hlMode : Nat := 0
  exposure : Nat := 0x3F0000
  wgain : List Nat := [0x3F0000, 0x3F0000, 0x3F0000]
  /-- host shaper tables, R then G then B; none for the default -/
  shaper : Option Copy := none
  /-- lattice size, 0 for none, and its nodes as binary16 codes -/
  latticeN : Nat := 0
  lattice : Option Copy := none
  lcStrength : Nat := 0
  lcFloor : Nat := 0x2F0000
  lw : List Nat := [0x3D0000, 0x3E4000, 0x3C0000]
  grid : Option Copy := none
  format : Nat := 0
  tf : Nat := 1
  ycc : Nat := 0
  tfScale : Nat := 0x3F0000
  outMat : List Nat := [0x3F0000, 0, 0, 0, 0x3F0000, 0, 0, 0, 0x3F0000]
  tfTable : Option Copy := none
deriving DecidableEq, Repr

/-- A rendition's placement (R241); `kernel` none is the default. -/
structure Placement where
  cropX : Nat
  cropY : Nat
  cropW : Nat
  cropH : Nat
  outW : Nat
  outH : Nat
  kernel : Option Copy
deriving DecidableEq, Repr

/-- A sensor's parameter set: shadow, pending, or that of a generation (R129 to R131). -/
structure Params where
  /-- linearisation tables of exposures 0 to 2; none for the default -/
  lin : List (Option Copy) := [none, none, none]
  guard : Nat := 0
  merge : List ExpMerge := [{}, {}, {}]
  black : Black := {}
  defect : Defect := {}
  mosaic : Mosaic := {}
  /-- colour of renditions 0 to 5 -/
  colour : List Colour := List.replicate 6 {}
  /-- placements of renditions 0 to 5; 0 has none -/
  place : List (Option Placement) := List.replicate 6 none
deriving DecidableEq, Repr

/-- A pending set (R129, R132, R225): for each rendition the bank its image is in, none where it has still to
be written. -/
structure PendingSet where
  params : Params
  banks : List (Option Nat)
  deferrals : Nat := 0
  /-- deferrals in a row for lack of a bank, and whether `EV_COL_BANK_WAIT` went out -/
  bankWaits : Nat := 0
  waitPosted : Bool := false
  /-- it carries an `FE_BLACK` (R156) -/
  newRun : Bool := false
  /-- order of the commits -/
  order : Nat := 0
deriving DecidableEq, Repr

/-- The image a colour bank holds (R223). -/
structure ColImage where
  lattice : List Nat
  shaper : List Nat
  knots : List Nat
  grid : List Nat
deriving DecidableEq, Repr

/-- A colour bank and the image it holds. -/
structure Bank where
  image : Option ColImage := none
deriving DecidableEq, Repr

/-- Counters of `COL_STATUS`. -/
structure ColCounters where
  hl : Nat := 0
  shaperLow : Nat := 0
  shaperHigh : Nat := 0
  tfLow : Nat := 0
  tfHigh : Nat := 0
  half : Nat := 0
  misses : Nat := 0
  stall : Nat := 0
deriving DecidableEq, Repr

/-! ## Frames (chapters 05 to 10) -/

/-- A raw tap's setting (R246, R247). -/
structure Tap where
  format : Nat
  gain : Nat
  offset : Nat
  base : Nat
deriving DecidableEq, Repr

/-- A scene-linear frame's setting (R195 to R197); `scale` is log2 S. -/
structure SlCfg where
  scale : Nat
  depth : Nat
  base : Nat
deriving DecidableEq, Repr

/-- RND0's write (R239). -/
structure Rnd0Cfg where
  layout : Nat
  depth : Nat
  base : Nat
deriving DecidableEq, Repr

/-- A statistics ring (R171). -/
structure StatsCfg where
  depth : Nat
  e0 : Nat
  weights : List Nat
  base : Nat
deriving DecidableEq, Repr

/-- Zone totals (R169): count and sum (in 2^-24) for R, G, B, W; saturated and used counts. -/
structure Zone where
  counts : List Nat := [0, 0, 0, 0]
  sums : List Nat := [0, 0, 0, 0]
  sat : Nat := 0
  used : Nat := 0
deriving DecidableEq, Repr

/-- A frame's working statistics (R166 to R170). -/
structure Stats where
  saturated : Nat := 0
  motion : Nat := 0
  statics : Nat := 0
  dynamics : Nat := 0
  unrepaired : Nat := 0
  rowClamped : Nat := 0
  lines : Nat := 0
  /-- bins hit of the histograms R, G, B, luma: bin 1024 h + b with its count -/
  hist : List (Nat × Nat) := []
  /-- zones hit, with their totals -/
  zones : List (Nat × Zone) := []
deriving DecidableEq, Repr

/-- A frame from its FS until it has left the ring and its Slate item is posted. -/
structure IngestFrame where
  seq : Nat
  /-- sensor frame number -/
  num : Nat
  cfg : SensConfig
  slot : Option Nat
  gen : Nat
  params : Params
  banks : List (Option Nat)
  /-- the column term's run and version it uses (R156) -/
  run : Nat
  col : List Nat
  /-- FS time, class S, 2^-48 s, and its deadline (R134) -/
  fs : Int
  deadline : Int
  cls : Nat
  /-- received lines, bit y of exposure e's number -/
  got : List Nat := [0, 0, 0]
  /-- CSI-2: exposures whose Frame End has come, and the next line number of each -/
  ended : List Bool := [false, false, false]
  nextLine : List Nat := [0, 0, 0]
  extra : Nat := 0
  crcFails : Nat := 0
  hdrDiscards : Nat := 0
  embBytes : Nat := 0
  marks : Nat := 0
  closed : Bool := false
  closeTime : Nat := 0
  /-- dropped: 0 short, 1 by the scheduler, 2 no slot -/
  drop : Option Nat := none
  bandsDone : List (Nat × Nat) := []
  complete : Bool := false
  /-- when its last band completed -/
  completeAt : Int := 0
  /-- its outputs after a drop have had their final state -/
  dropFinished : Bool := false
  released : Bool := false
  itemReady : Bool := false
  /-- first frame after `SENS_START` -/
  first : Bool := false
  statsCfg : Option StatsCfg := none
  stats : Stats := {}
  taps : List (Option Tap) := [none, none, none, none]
  tapClamps : List Nat := [0, 0, 0, 0]
  sl : Option SlCfg := none
  slBuf : Option Nat := none
  slFallback : Nat := 0
  slClamps : Nat := 0
  slFlags : Nat := 0
  rnd0 : Option Rnd0Cfg := none
  rnd0Buf : Option Nat := none
  rnd0Flags : Nat := 0
  /-- codec streams that still need it (R28) -/
  codecHold : List Nat := []
  /-- its Slate item has been posted -/
  posted : Bool := false
deriving DecidableEq, Repr

/-- A scene-linear buffer (R197 to R200). -/
structure SlBuf where
  /-- order of the fills, 0 never filled -/
  fill : Nat := 0
  seq : Nat := 0
  /-- 0 filling, 1 complete, 2 dropped; 3 never filled -/
  state : Nat := 3
  gen : Nat := 0
  num : Nat := 0
  fs : Int := 0
  params : Params := {}
  banks : List (Option Nat) := []
deriving DecidableEq, Repr

/-- A calibration capture (R173 to R176). -/
structure Capture where
  kind : Nat
  frames : Nat
  handle : Nat
  hot : Nat
  target : Nat
  gainLo : Nat
  gainHi : Nat
  offsetUnit : Nat
  /-- frames counted are those from this `ingest_seq` on -/
  fromSeq : Nat
  counted : Nat := 0
  skipped : Nat := 0
  accepted : Nat := 0
  finalPass : Bool := false
  /-- sums of b in 2^-32, photosite y × width + x -/
  acc : List Int := []
deriving DecidableEq, Repr

/-- One sensor slot. -/
structure Sensor where
  cfg : Option SensConfig := none
  streaming : Bool := false
  /-- `SENS_STOP` has run and an open frame is still to close -/
  stopping : Bool := false
  /-- the power request in progress, on or off -/
  powerReq : Option Bool := none
  linkUp : Bool := false
  /-- SENSOR lanes of the group that are out of lock, bit mask -/
  unlocked : Nat := 0
  /-- the link group was up since `SENS_START` and lost lock: what other links deliver are orphans (R112) -/
  linkLost : Bool := false
  /-- `ingest_seq` of the next FS -/
  seq : Nat := 0
  lastNum : Option Nat := none
  /-- every frame number since `SENS_START` was 0 (R113) -/
  zeroNums : Bool := true
  firstFrame : Bool := false
  /-- free ring slots, the one free longest first -/
  freeSlots : List Nat := []
  frames : List IngestFrame := []
  /-- kind k, column c at 4 k + c (R113) -/
  counters : List Nat := List.replicate 64 0
  deferred : List BusXfer := []
  polls : List (Option MetaPoll) := [none, none]
  -- scheduler (chapter 06)
  cls : Nat := 1
  budgetUs : Nat := 0
  gen : Nat := 0
  shadow : Params := {}
  active : Params := {}
  banks : List (Option Nat) := List.replicate 6 none
  /-- order of the `SENS_CONFIG` whose set is active, among the commits -/
  order : Nat := 0
  pendingSet : Option PendingSet := none
  framesDone : Nat := 0
  framesDropped : Nat := 0
  latchDeferred : Nat := 0
  superseded : Nat := 0
  /-- margins of the last completed frames, newest first, at most 64 -/
  margins : List Int := []
  -- column term (R156)
  blackSince : Bool := false
  run : Nat := 0
  colTerm : List Nat := []
  /-- regions freed with the last frame of a ring: the ring's base and the region's (R178, R203) -/
  afterRing : List (Nat × Nat) := []
  capture : Option Capture := none
  -- outputs: as commanded, and as in effect
  statsCmd : Option StatsCfg := none
  statsEff : Option StatsCfg := none
  statsNext : Nat := 0
  slCmd : Option SlCfg := none
  slEff : Option SlCfg := none
  slBufs : List SlBuf := []
  rnd0Cmd : Option Rnd0Cfg := none
  rnd0Eff : Option Rnd0Cfg := none
  /-- order of the fills of the RND0 buffers -/
  rnd0Fill : List Nat := []
  tapCmd : List (Option Tap) := [none, none, none, none]
  tapEff : List (Option Tap) := [none, none, none, none]
  colCnt : ColCounters := {}
  /-- generation of the last `EV_RND_SKIP` of RND0 for its format -/
  rnd0SkipGen : Option Nat := none
  rnd0SkipCount : Nat := 0
deriving DecidableEq, Repr

/-- A band on an engine (R125, R134). -/
structure Band where
  sensor : Nat
  seq : Nat
  stripe : Nat
  row : Nat
  /-- C when it was issued -/
  start : Nat := 0
deriving DecidableEq, Repr

/-- A physical stripe engine (R126). -/
structure Engine where
  failed : Bool := false
  running : Option Band := none
deriving DecidableEq, Repr

/-- The stripe scheduler (chapter 06). -/
structure Sched where
  engines : List Engine := List.replicate 9 {}
  /-- logical to physical -/
  logical : List Nat := [0, 1, 2, 3, 4, 5, 6, 7]
  /-- logical engines without a physical one -/
  lost : List Nat := []
  /-- bands returned under R139, first to be issued -/
  returned : List Band := []
  reruns : Nat := 0
  /-- credit of R533 in sixteenths of a PIPE clock, at count `creditAt` -/
  credit : Int := 16 * 8 * 122880
  creditAt : Nat := 0
  commits : Nat := 0
deriving DecidableEq, Repr

/-- A photosite map (R159). -/
structure PhotoMap where
  width : Nat
  height : Nat
  base : Nat
deriving DecidableEq, Repr

/-- A rendition buffer (R237, R245). -/
structure RndBuf where
  fill : Nat := 0
  seq : Nat := 0
  state : Nat := 3
  gen : Nat := 0
  width : Nat := 0
  height : Nat := 0
  fs : Int := 0
  format : Nat := 0
deriving DecidableEq, Repr

/-- A frame that a rendition engine renders. -/
structure Taken where
  sensor : Nat
  slBuf : Nat
  /-- the scene-linear buffer's record -/
  src : SlBuf
  sl : SlCfg
  cfg : SensConfig
  buf : Nat
deriving DecidableEq, Repr

/-- RND1 to RND5 (R240 to R245). -/
structure Rendition where
  sensor : Option Nat := none
  dest : Nat := 0
  layout : Nat := 0
  div : Nat := 0
  depth : Nat := 0
  maxW : Nat := 0
  maxH : Nat := 0
  base : Nat := 0
  bufs : List RndBuf := []
  taken : Option Taken := none
  /-- the newest `ingest_seq` taken or passed over -/
  lastSeen : Option Nat := none
  framesDone : Nat := 0
  lateSkips : Nat := 0
  sinkFull : Nat := 0
  formatSkips : Nat := 0
  geomSkips : Nat := 0
  clamps : Nat := 0
  /-- `EV_RND_SKIP` reason 1 has gone out since the last frame delivered -/
  fullPosted : Bool := false
  /-- generations of the last events with reason 2 and 3 -/
  formatGen : Option Nat := none
  cropGen : Option Nat := none
  /-- frames skipped for each reason since the last such event -/
  since : List Nat := [0, 0, 0, 0]
  colCnt : ColCounters := {}
  /-- credit of R533 in sixteenths of a PIPE clock, at count `creditAt` -/
  credit : Int := 16 * 122880
  creditAt : Nat := 0
deriving DecidableEq, Repr

/-- The imaging pipeline. -/
structure Imaging where
  sensors : List Sensor := List.replicate 4 {}
  buses : List (List BusJob) := List.replicate 6 []
  ticket : Nat := 0
  sched : Sched := {}
  maps : List (Option PhotoMap) := List.replicate 16 none
  rnds : List Rendition := List.replicate 6 {}
  rnd0Done : Nat := 0
  /-- banks 0 and 1 of the colour engines of renditions 0 to 5 -/
  banks : List (List Bank) := List.replicate 6 [{}, {}]
  /-- fills made so far, of scene-linear, RND0 and rendition buffers -/
  fills : Nat := 0
deriving DecidableEq, Repr

/-! ## Schist lanes, streams and jobs (chapter 12) -/

/-- A stream's or job's coding parameters: a normal frame's quantiser sets come from the ladder (R287). -/
structure CodecCfg where
  src : Nat
  unit : Nat
  point : Nat
  split : Nat
  echoes : Bool
  lossless : Bool
  slabW : Nat
  slabH : Nat
  ratio : Nat
  qMin : Nat
  qMax : Nat
  base : List Nat
  rbias : Nat
  chromaOff : Nat
  frameMax : Nat
deriving DecidableEq, Repr

/-- What a stream keeps of a slab position (R280): symbol counts, ladder set, padded length. -/
structure SlabHistory where
  counts : List Nat
  set : Nat
  len : Nat
deriving DecidableEq, Repr

/-- A frame that a stream codes (R289 to R292). -/
structure CodecFrame where
  /-- the setting in effect when the stream took it -/
  cfg : CodecCfg
  sensor : Nat
  seq : Nat
  num : Nat
  fs : Int
  gen : Nat
  width : Nat
  height : Nat
  /-- where its samples lie: a tap plane, or a layout 0 buffer, with its line stride -/
  addr : Nat
  stride : Nat
  /-- a proxy's rendition buffer -/
  buf : Nat := 0
  deadline : Int
  /-- none until its first slab issues -/
  ceiling : Option Nat := none
  emergency : Bool := false
  /-- slab whose length exceeded the ceiling of the normal pass -/
  overSlab : Nat := 0xFFFF
  /-- slabs issued in this pass, and those written: number and padded bytes -/
  issued : List Nat := []
  done : List (Nat × List Byte) := []
  total : Nat := 0
  /-- slabs of the emergency pass that a lane fault left with no lane -/
  noLane : List Nat := []
  /-- the stream's `epoch` when it took the frame -/
  epoch : Nat := 0
  /-- the history each slab of the normal pass was coded under, which an emergency pass uses again (R290) -/
  used : List (Nat × Option SlabHistory) := []
deriving DecidableEq, Repr

/-- An item of a channel: a coded frame, a chunk, or a marker (R304, R305). -/
structure RecItem where
  seq : Nat
  /-- FS time, class S, 64 bits -/
  fs : Nat
  gen : Nat
  mflags : Nat
  payload : List Byte
deriving DecidableEq, Repr

/-- A record-mode stream (R285 to R291). -/
structure CodecStream where
  /-- as commanded, and as in effect -/
  cmd : Option CodecCfg := none
  eff : Option CodecCfg := none
  /-- slab histories, by slab number, and how often they have been cleared (R280) -/
  history : List (Nat × SlabHistory) := []
  epoch : Nat := 0
  frames : List CodecFrame := []
  framesCoded : Nat := 0
  emergencies : Nat := 0
  lost : Nat := 0
  fallbacks : Nat := 0
  /-- K_f less delivery time of the last delivered frames, newest first, at most 64 -/
  margins : List Int := []
  /-- delivered items that wait for an earlier frame of the stream -/
  out : List RecItem := []
  lastCeiling : Nat := 0
  lastBytes : Nat := 0
deriving DecidableEq, Repr

/-- A memory job's parameters (R294, R296). -/
inductive JobSpec where
  | encode (proxy : Bool) (split policy width height slabW slabH : Nat) (echoes : Bool) (qsets inAddr inStride
      headAddr seq : Nat) (sets : List (List Nat))
  | decode (inLen inAddr outAddr outStride slabFirst slabCount errAddr errMax outSize : Nat)
deriving DecidableEq, Repr

/-- A memory job in use. -/
structure Job where
  spec : JobSpec
  /-- 1 queued, 2 running, 3 paused -/
  state : Nat := 1
  /-- order of acceptance -/
  order : Nat
  outAddr : Nat := 0
  outSize : Nat := 0
  issued : List Nat := []
  /-- coded slabs not yet written, in any order -/
  coded : List (Nat × List Byte) := []
  slabsDone : Nat := 0
  outThis : Nat := 0
  outTotal : Nat := 0
  /-- lengths of the slabs written, for the index -/
  lens : List Nat := []
  nextLen : Nat := 0
  failed : Nat := 0
  firstError : Nat := 0
  errRecords : Nat := 0
  aborting : Bool := false
deriving DecidableEq, Repr

/-- A slab on a lane. -/
inductive LaneWork where
  | stream (t seq slab : Nat) (emergency fallback : Bool)
  | job (j slab : Nat) (fallback : Bool)
deriving DecidableEq, Repr

/-- A physical Schist lane (R277, R297). -/
structure Lane where
  failed : Bool := false
  running : Option LaneWork := none
  /-- credit of R533 in sixteenths of a PIPE clock, at count `creditAt` -/
  credit : Int := 16 * 122880
  creditAt : Nat := 0
deriving DecidableEq, Repr

/-- The Schist pool. -/
structure Codec where
  streams : List CodecStream := List.replicate 8 {}
  jobs : List (Option Job) := List.replicate 16 none
  jobOrder : Nat := 0
  lanes : List Lane := List.replicate 5 {}
  logical : List Nat := [0, 1, 2, 3]
  lost : List Nat := []
  /-- slabs returned under R297 or R284, first to be issued -/
  returned : List LaneWork := []
deriving DecidableEq, Repr

/-! ## Recording (chapter 13) -/

/-- An index entry (R317): data offset, length in blocks, `mflags`. -/
structure IndexEntry where
  off : Nat
  blocks : Nat
  mflags : Nat
  /-- FS time of its item -/
  fs : Nat
deriving DecidableEq, Repr

/-- An open clip (R313 to R318). -/
structure Clip where
  vol : Nat
  entry : Nat
  part : Nat
  take : Nat
  /-- first clip frame number, and that of the next item -/
  firstN : Nat
  n : Nat
  t : Nat
  timecode : Nat
  cflags : Nat
  partnerVol : Nat
  partnerEntry : Nat
  /-- allocation units, in order -/
  aus : List Nat
  /-- data offset of the next record -/
  off : Nat
  entries : List IndexEntry
  /-- entries not yet in a checkpoint -/
  pending : Nat
  /-- data offset of the latest checkpoint, all ones if none -/
  lastCkpt : Nat
  /-- count of the latest checkpoint, or of the opening -/
  ckptAt : Nat
  /-- data offsets of the extent-list blocks -/
  exts : List Nat
  markers : Nat
  /-- bytes the drive has reported durable -/
  durable : Nat
  opened : Bool
  /-- the drive of the other side of its pair has failed: `cflags` [3] at its close (R321) -/
  partnerLost : Bool := false
deriving DecidableEq, Repr

/-- A recording channel (R302 to R310). -/
structure RecChannel where
  kind : Nat := 0
  src : Nat := 0
  vol : Nat := 0
  spill : Nat := 0xFF
  audioRate : Nat := 0
  prerollMs : Nat := 0
  audioMask : Nat := 0
  prerollMib : Nat := 0
  /-- 0 unconfigured, 1 idle, 2 recording, 3 closing -/
  state : Nat := 0
  take : Nat := 0
  /-- start and stop instants, class S 64-bit; the stop pending or in effect -/
  t : Nat := 0
  u : Option Nat := none
  clip : Option Clip := none
  preroll : List RecItem := []
  waiting : List RecItem := []
  held : Option RecItem := none
  /-- the chunks under way (kinds 4 and 5), oldest first: their frames, and the bytes gathered -/
  chunks : List RecItem := []
  items : Nat := 0
  markers : Nat := 0
  overruns : Nat := 0
  /-- lens and IMU records with their times, not yet in a chunk (kind 5) -/
  metaRecs : List (Nat × List Byte) := []
deriving DecidableEq, Repr

/-- A clip volume as mounted (R311, R312, R320). -/
structure Volume where
  mounted : Bool := false
  failed : Bool := false
  volId : Nat := 0
  generation : Nat := 0
  units : Nat := 0
  formatTime : Nat := 0
  label : List Byte := []
  reserveEntered : Bool := false
  /-- writes of the engine that every later one follows (R340) -/
  barrier : List Nat := []
deriving DecidableEq, Repr

/-! ## Media Gate (chapter 14) -/

/-- Who asked for a write (R327). -/
inductive GReq where
  | engine (vol : Nat)
  | host (sq cid nsid : Nat)
  | remote (flow : Nat)
deriving DecidableEq, Repr

/-- What the recording engine learns when a write of its own is durable: the channel and the bytes of a
record. -/
inductive RecNote where
  | none
  | record (chan bytes : Nat)
deriving DecidableEq, Repr

/-- An accepted write that is not yet durable, or durable and not yet retired (R329). -/
structure GWrite where
  id : Nat
  who : GReq
  port : Nat
  /-- bytes of a block on this port -/
  blk : Nat
  /-- first LBA and blocks of each target, in the order of the data -/
  targets : List (Nat × Nat)
  data : List Byte
  /-- an atomic unit, journalled (R342) -/
  journal : Bool := false
  /-- the main's write whose staged bytes it shares (R330) -/
  shared : Option Nat := none
  /-- blocks in the admission window, and blocks the drive has made durable -/
  admitted : Nat := 0
  written : Nat := 0
  /-- its journal record: sequence number, ring block, and whether it is durable -/
  jrec : Option (Nat × Nat × Bool) := none
  /-- writes that must be durable before it is (R338 to R340) -/
  after : List Nat := []
  note : RecNote := .none
deriving DecidableEq, Repr

/-- A root port with its drive (R327 to R330). The drive's content outlives everything the device does. -/
structure GatePort where
  /-- 0 down, 1 up, 2 failed, 3 service attached -/
  state : Nat := 0
  gen : Nat := 0
  width : Nat := 0
  lbaLog2 : Nat := 0
  windowKib : Nat := 0
  blocks : Nat := 0
  mediaErrors : Nat := 0
  retiredSeq : Nat := 0
  jhead : Nat := 0
  /-- sequence number of the last journal record made -/
  jseq : Nat := 0
  written : Nat := 0
  read : Nat := 0
  rolledBack : Nat := 0
  drain : Nat := 0
  /-- `drain` and the admitted blocks left non-durable, as the journal header holds them since the last drain (R342);
  `drain` above is what the last bring-up found -/
  headDrain : Nat := 0
  left : Nat := 0
  clipValid : Bool := false
  disk : Mem := []
deriving DecidableEq, Repr

/-- A completion the NVMe controller posted: SQ, CID, status code type and code, DW0. -/
structure NvmeDone where
  sq : Nat
  cid : Nat
  sct : Nat
  sc : Nat
  dw0 : Nat := 0
deriving DecidableEq, Repr

/-- A fetched command whose completion is still to come. -/
inductive NvmeWork where
  /-- a flush: the writes it waits for -/
  | flush (waits : List Nat)
  /-- a flush of every namespace: the writes, and the remote namespaces whose flush is still out -/
  | flushAll (waits remotes : List Nat)
  /-- a write with FUA, or accepted and waiting for it -/
  | fua (write : Nat)
  /-- a write not yet accepted, for lack of space, order or a fence -/
  | write (nsid : Nat) (ordered : Bool)
  | barrier
  /-- forwarded to the serving device of a session -/
  | remote (nsid : Nat)
  | aer
  /-- an Abort, whose completion follows its target's (R346): the target's queue and command, and its own DW0 -/
  | abort (sq cid dw0 : Nat)
deriving DecidableEq, Repr

structure NvmeCmd where
  sq : Nat
  cid : Nat
  work : NvmeWork
deriving DecidableEq, Repr

/-- A submission queue: its completion queue, size, and doorbell. -/
structure NvmeSq where
  cq : Nat
  size : Nat
  head : Nat := 0
  tail : Nat := 0
  /-- a Barrier holds later commands back -/
  barrier : Bool := false
deriving DecidableEq, Repr

structure NvmeCq where
  size : Nat
  vector : Nat := 0
  irq : Bool := false
  head : Nat := 0
  tail : Nat := 0
deriving DecidableEq, Repr

/-- The NVMe controller (R333 to R346). -/
structure Nvme where
  enabled : Bool := false
  /-- 0 disabled, 1 ready, 2 fatal, 3 shutting down -/
  state : Nat := 0
  shst : Nat := 0
  sqs : List (Option NvmeSq) := List.replicate 65 none
  cqs : List (Option NvmeCq) := List.replicate 65 none
  outstanding : List NvmeCmd := []
  /-- completions posted, oldest first -/
  done : List NvmeDone := []
  /-- the last Write Ordered of each domain: SQ, namespace, write -/
  ordered : List (Nat × Nat × Nat) := []
  /-- writes that every later write of a submission queue must follow (R339): SQ, write -/
  barrierWrites : List (Nat × Nat) := []
  /-- writes a shutdown waits for -/
  shutWaits : List Nat := []
  /-- MSI-X messages sent for completions -/
  messages : Nat := 0
  /-- feature values by number -/
  features : Mem := []
  /-- namespaces whose attributes changed since the log was read -/
  changed : List Nat := []
  /-- a notice waits for an Asynchronous Event Request -/
  noticeHeld : Bool := false
  abortsNot : Nat := 0
  /-- NSIDs fenced for a volume command (R337) -/
  fenced : List Nat := []
  /-- completions that wait for room in their completion queue: the queue, the completion -/
  waitingDone : List (Nat × NvmeDone) := []
  /-- the queue whose turn it is, and the entries taken in it (R334) -/
  turn : Nat × Nat := (0, 0)
  /-- remote namespaces whose flush a shutdown waits for -/
  shutRemotes : List Nat := []
  /-- those of them whose flush waits for the session's credit (R348) -/
  shutUnsent : List Nat := []
  /-- CC as enabled, 0 while disabled -/
  cc : Nat := 0
deriving DecidableEq, Repr

/-- What a command of a session waits for on the server (R349): to start, or its writes to be durable. -/
inductive SessWork where
  | start (request : List Byte)
  | fua (write : Nat)
  | flush (waits : List Nat)
deriving DecidableEq, Repr

/-- A command of a session in flight on the server: the number its requester gave it (log entry 184). -/
structure SessCmd where
  num : Nat
  work : SessWork
deriving DecidableEq, Repr

/-- A command that a requester has in flight on a session (R348): its number there (log entry 184), the queue and the
command of the host that sent it, and whether that command still waits for its answer. -/
structure SessSent where
  num : Nat
  sq : Nat
  cid : Nat
  live : Bool := true
deriving DecidableEq, Repr

/-- A remote session (R347 to R350): as the requester with its NSID, or as the server. -/
structure Session where
  server : Bool
  nsid : Nat
  flow : Nat
  partner : Nat
  remoteNs : Nat
  credits : Nat
  /-- opened by both sides -/
  active : Bool := false
  closing : Bool := false
  nsze : Nat := 0
  index : Nat := 0
  /-- NSATTR bit 0 of the remote namespace, as the server last told it (R349) -/
  writeProtected : Bool := false
  /-- on the server: lost, its context held until its own commands have finished (R350) -/
  ended : Bool := false
  /-- on the server: commands in flight, in order of arrival -/
  cmds : List SessCmd := []
  /-- on the requester: the number of the next command, and the commands in flight -/
  nextNum : Nat := 0
  sent : List SessSent := []
  /-- on the server: the last Write Ordered accepted -/
  lastOrdered : Option Nat := none
deriving DecidableEq, Repr

/-- The Media Gate. -/
structure Gate where
  ports : List GatePort := List.replicate 4 {}
  writes : List GWrite := []
  nextId : Nat := 0
  nvme : Nvme := {}
  serve : Bool := false
  maxSessions : Nat := 0
  creditPool : Nat := 0
  sessions : List Session := []
  /-- admission stopped (R351), since count -/
  stopped : Option Nat := none
  /-- ports whose drain within the power-loss response finished, as a mask, and its time in us -/
  drained : Nat := 0
  drainUs : Nat := 0
deriving DecidableEq, Repr

/-- Recording. -/
structure Recording where
  chans : List RecChannel := List.replicate 8 {}
  vols : List Volume := List.replicate 4 {}
deriving DecidableEq, Repr

/-! ## Serial lanes (chapter 15) -/

/-- A test loop that runs on a lane (R375, R383). -/
structure LaneLoop where
  loop : Nat
  pattern : Nat
  returnSpare : Bool
  seconds : Nat
  /-- the lane was retired when the loop started, and is again when it ends without a return -/
  retired : Bool
deriving DecidableEq, Repr

/-- A serial lane (R356, R362, R373, R376). -/
structure SerialLane where
  pers : Nat := 0
  rate : Nat := 0
  pll : Nat := 0
  /-- 0 off, 1 deep, 2 training, 3 locked, 4 shallow, 5 loop, 6 retired, 7 spare at rest -/
  st : Nat := 1
  /-- 0 PRESET, 1 ADAPT, 2 HOLD, 3 FROZEN -/
  eq : Nat := 0
  /-- taps 1 to 12, kept in the deep state -/
  taps : List Int := List.replicate 12 0
  eyeW : Nat := 0
  eyeH : Nat := 0
  lockLosses : Nat := 0
  markerFails : Nat := 0
  stuffErrors : Nat := 0
  codeErrors : Nat := 0
  idleIns : Nat := 0
  idleDel : Nat := 0
  loopErrors : Nat := 0
  loop : Option LaneLoop := none
deriving DecidableEq, Repr

/-- A quad's two PLLs as set (R357). -/
structure Quad where
  refA : Nat := 0xFF
  fa : Nat := 0
  srcB : Nat := 0xFF
  fb : Nat := 0
deriving DecidableEq, Repr

/-- The spare of a quad pair (R377, R380): the lane that is it, and the port whose link has taken it. -/
structure PairSpare where
  lane : Nat
  user : Option Nat := none
deriving DecidableEq, Repr

/-- A Causeway link formed by `LANE_LINK` (R376 to R379). -/
structure LaneLink where
  /-- lanes of positions 0 upward -/
  lanes : List Nat
  /-- formed with a spare -/
  spare : Bool
  /-- positions retired, in order -/
  lost : List Nat := []
  /-- the spare taken, and the position it replaces -/
  spareLane : Option Nat := none
  sparePos : Option Nat := none
  joined : Bool := false
  /-- the partner's last `rx_ok` and `active` -/
  partnerOk : Nat := 0
  partnerActive : Nat := 0
  /-- the link has come up, and its active set is not empty -/
  formed : Bool := false
  up : Bool := false
  /-- state asked by this host, and in effect: 0 run, 1 shallow, 2 deep -/
  lpAsk : Nat := 0
  lp : Nat := 0
  /-- C when this host asked for a low-power state: `lp` is sent 100 µs after the break notice (R400) -/
  askAt : Option Nat := none
  /-- C at the first loss -/
  lossAt : Option Nat := none
  /-- position whose worn lane the spare is to replace (R592) -/
  worn : Option Nat := none
  /-- retired lanes that have passed a test and belong to the pair's spares since (R380) -/
  returned : List Nat := []
deriving DecidableEq, Repr

/-- The lanes: 0 to 47, then the spares 64 to 69 at places 48 to 53. -/
structure Lanes where
  lanes : List SerialLane := List.replicate 54 {}
  quads : List Quad := List.replicate 12 {}
  pairs : List PairSpare := (List.range 6).map fun k => { lane := 64 + k }
  /-- links by Causeway port -/
  links : List (Option LaneLink) := List.replicate 8 none
deriving DecidableEq, Repr

/-! ## Causeway ring, flows and Flint (chapter 16) -/

/-- A frame of the ring (R397); its check code is made when its bytes are. -/
structure Frame where
  dst : Nat
  ftype : Nat
  src : Nat
  wrapped : Bool := false
  dflow : Nat := 0
  dgen : Nat := 0
  ttl : Nat := 4095
  fseqno : Nat := 0
  payload : List Byte := []
  /-- it ends with `abort` (R401) -/
  abort : Bool := false
  /-- its header's `len` where fewer payload bytes are here -/
  len : Option Nat := none
  /-- still arriving, on an input port and VC, while this device forwards it (R399) -/
  cut : Option (Nat × Nat) := none
  /-- a time frame that came in on a port, with its ingress stamp (R481) -/
  arrived : Option (Nat × Int) := none
  /-- input credits of a port that it holds while it waits for the context cache (R406) -/
  hold : Option (Nat × Nat) := none
deriving DecidableEq, Repr

/-- A data flit kept until acknowledged (R393), with the frame it belongs to. -/
structure HeldFlit where
  seq : Nat
  vc : Nat
  sof : Bool
  eof : Bool
  bytes : List Byte
  frame : Frame
deriving DecidableEq, Repr

/-- A Flint injector (R416). -/
structure Injector where
  mode : Nat := 0
  n : Nat := 0
  burst : Nat := 0
  offset : Nat := 0
  pattern : Nat := 0
  count : Nat := 0
  lfsr : Nat := 0
  armed : Bool := false
  /-- units of the present burst still to be affected -/
  left : Nat := 0
  /-- injections made since it was set, toward `count` -/
  done : Nat := 0
  injections : Nat := 0
  units : Nat := 0
deriving DecidableEq, Repr

/-- A Causeway port engine (R391 to R396, R401). -/
structure RingPort where
  /-- 0 unbound, 1 handshake, 2 up, 3 failed -/
  state : Nat := 0
  /-- the link's lanes are up -/
  lanesUp : Bool := false
  /-- link layer version: 1, or 0 on CAUSEWAY-8B (R396) -/
  version : Nat := 1
  initGood : Nat := 0
  txNext : Nat := 0
  held : List HeldFlit := []
  /-- flits of `held` still to resend in the replay under way -/
  replay : Nat := 0
  /-- `ack` has advanced since the last replay ended -/
  advanced : Bool := true
  consecutive : Nat := 0
  /-- banks the replay buffer runs without (R590) -/
  lostBanks : Nat := 0
  /-- the last data flit accepted -/
  rxLast : Nat := 0xFFF
  needNak : Bool := false
  nakSent : Bool := false
  credit0 : Nat := 0
  credit1 : Nat := 0
  freed0 : Nat := 0
  freed1 : Nat := 0
  /-- frames waiting on the express and bulk VC, and the flits of the frames under way -/
  express : List Frame := []
  bulk : List Frame := []
  cur0 : List HeldFlit := []
  cur1 : List HeldFlit := []
  /-- the frame under way on each VC that is still arriving, with the flits made of it so far (R399) -/
  open0 : Option (Frame × Nat) := none
  open1 : Option (Frame × Nat) := none
  /-- flows that have had their turn on the bulk VC: source, destination, flow (R398) -/
  round : List (Nat × Nat × Nat) := []
  /-- bulk input slots whose credit waits for the frame's end (R406) -/
  wait1 : Nat := 0
  /-- frame bytes received so far on each VC -/
  asm0 : List Byte := []
  asm1 : List Byte := []
  /-- the last flit put on the link, none when it was dropped or nothing has been sent -/
  lastFlit : Option (List Byte) := none
  /-- flits a reorder injection holds back, with the units still to pass -/
  heldBack : List (Nat × List Byte) := []
  wirePs : Nat := 0
  replays : Nat := 0
  fcrcErrors : Nat := 0
  wrapped : Nat := 0
  dropped : Nat := 0
  aborts : Nat := 0
deriving DecidableEq, Repr

/-- A ring on which the device holds a position: the home ring or a child ring (R386, R387). -/
structure RingSlot where
  ring : Nat
  pos : Nat
  size : Nat
  portCw : Nat
  portCcw : Nat
  /-- bit p: the link between positions p and p + 1 is broken (R400) -/
  breaks : BitVec 64 := 0
deriving DecidableEq, Repr

/-- An item in a message or stream flow's send buffer. -/
structure FlowItem where
  no : Nat
  size : Nat
  lost : Bool
  /-- the `fseqno` of its last frame, once numbered -/
  last : Option Nat := none
deriving DecidableEq, Repr

/-- A flow context in use (R405 to R415). Kinds: 1 message, 2 stream, 3 time, 4 storage, 5 ST 2110 sender,
6 PTP peer. -/
structure Flow where
  num : Nat
  kind : Nat
  /-- 1 opening, 2 open, 3 closing -/
  state : Nat
  /-- opened by the partner -/
  inbound : Bool := false
  partner : Nat := 0
  remote : Nat := 0
  /-- generation of the context here and at the partner -/
  gen : Nat := 0
  dgen : Nat := 0
  token : Nat := 0
  maxItem : Nat := 0
  latNs : Nat := 0
  tries : Nat := 0
  /-- the mailbox slot whose command waits for the open -/
  slot : Option Nat := none
  /-- codec stream of a stream flow at its opener -/
  stream : Nat := 0
  closeSent : Bool := false
  /-- lost, and held only until its session's commands have finished (R350): it takes no frame -/
  dead : Bool := false
  -- sending
  nextItem : Nat := 0
  items : List FlowItem := []
  /-- segments not yet numbered: item, its payload, and whether it is the item's last -/
  segments : List (Nat × List Byte × Bool) := []
  txSeq : Nat := 0
  /-- frames sent and not acknowledged -/
  unacked : Nat := 0
  -- receiving
  rxNext : Nat := 0
  rxHeld : List (Nat × List Byte) := []
  sinceAck : Nat := 0
  curItem : Option Nat := none
  /-- the item expected after the last one completed -/
  rxItem : Nat := 0
  curData : List Byte := []
  /-- whole items of a storage flow that the Gate has still to take -/
  stored : List (List Byte) := []
  rxBase : Nat := 0
  rxSlotBytes : Nat := 0
  rxDepth : Nat := 0
  rxSlot : Nat := 0
  rxFilled : Nat := 0
  overwritesAll : Nat := 0
  -- counters
  sentItems : Nat := 0
  rcvdItems : Nat := 0
  gapLost : Nat := 0
  duplicates : Nat := 0
  stale : Nat := 0
  overwrites : Nat := 0
  txOverruns : Nat := 0
  reorderHolds : Nat := 0
deriving DecidableEq, Repr

/-- `FLOW_LISTEN` settings of a kind. -/
structure Listen where
  accept : Bool := false
  maxFlows : Nat := 0
  slotBytes : Nat := 0
  depth : Nat := 0
deriving DecidableEq, Repr

/-- The ring, its flows and Flint. -/
structure Ring where
  /-- home address, used as `origin` (R386, R387) -/
  stageAddr : Nat := 0
  configured : Bool := false
  junction : Bool := false
  /-- home ring first, then child slots 1 to 3 -/
  slots : List (Option RingSlot) := [none, none, none, none]
  budgetUs : Nat := 0
  /-- route table entries: exit position and slot, where valid -/
  route : List (Option (Nat × Nat)) := List.replicate 64 none
  ports : List RingPort := List.replicate 8 {}
  /-- `root_lat` in ns, none before the first beacon (R403) -/
  rootLat : Option Nat := none
  /-- the root's budget in ns, from the last beacon -/
  budgetNs : Nat := 0
  within : Bool := false
  stale : Bool := false
  lastBeacon : Nat := 0
  beaconNo : Nat := 0
  /-- frames that reached this device and whose step has not been taken -/
  inbox : List Frame := []
  flows : List Flow := []
  /-- generations of contexts, by flow number -/
  gens : Mem := []
  nextToken : Nat := 0
  /-- refusals already sent, for repeated OPENs: source, token, code -/
  nacks : List (Nat × Nat × Nat) := []
  listen1 : Listen := {}
  listen2 : Listen := {}
  cacheMisses : Nat := 0
  opensRefused : Nat := 0
  staleFree : Nat := 0
  injectors : List Injector := List.replicate 14 {}
deriving DecidableEq, Repr

/-! ## SDI and ST 2110 outputs (chapter 17) -/

/-- A rendition buffer that a sink holds or has sent: its number, address and what its header says. -/
structure HeldBuf where
  buf : Nat
  addr : Nat
  fill : Nat
  seq : Nat
  gen : Nat
  format : Nat
deriving DecidableEq, Repr

/-- What an output sent with its last frame or packet (R423, R424, R426, R428). -/
structure OutFrame where
  /-- its RTP timestamp: the start of the frame at 90 kHz, or the first sample's strobe at 48 kHz -/
  rtp : Nat
  /-- the three values of black, where it is no buffer's picture -/
  black : Option (List Nat) := none
  /-- transfer (0 SDR, 1 PQ, 2 HLG) and colorimetry (0 BT.709, 1 BT.2100) of the ST 352 identifier -/
  transfer : Nat := 0
  colorimetry : Nat := 0
  /-- ST 12-2 ATC timecode, where it carries one -/
  timecode : Option Nat := none
  /-- audio samples, one list of channels for each strobe -/
  audio : List (List Int) := []
  /-- payload bytes of each packet of a video line (R429) -/
  line : List Nat := []
  /-- it left on the line: the lane was locked, or a path was up (R381) -/
  onLine : Bool := true
deriving DecidableEq, Repr

/-- An SDI output (0 to 3) or an ST 2110 sender (4 to 11) (R425, R428, R433). -/
structure Output where
  enabled : Bool := false
  /-- disabled, with the frame in progress still to complete -/
  ending : Bool := false
  /-- 0 SDI, 1 video, 2 audio, 3 ANC -/
  kind : Nat := 0
  /-- rendition, or the video sender of an ANC sender -/
  src : Nat := 0
  std : Nat := 0
  width : Nat := 0
  height : Nat := 0
  fpsNum : Nat := 0
  fpsDen : Nat := 1
  psf : Nat := 0
  hold : Nat := 0
  delayUs : Nat := 0
  phaseNs : Int := 0
  audioMask : Nat := 0
  anc : Nat := 0
  colorimetry : Nat := 0
  paths : Nat := 0
  ptype : Nat := 0
  dscp : Nat := 0
  timing : Nat := 0
  ssrc : Nat := 0
  /-- destinations of paths 0 and 1, 16 bytes each -/
  dests : List Byte := []
  /-- 0 off, 1 sending, 2 black -/
  st : Nat := 0
  /-- the buffer held and sent -/
  held : Option HeldBuf := none
  /-- fill order of the newest buffer chosen or passed over -/
  lastFill : Nat := 0
  run : Nat := 0
  lastSeq : Nat := 0
  lastGen : Nat := 0
  /-- format of the last frame sent -/
  lastFormat : Option Nat := none
  repeats : Nat := 0
  skips : Nat := 0
  sizeSkips : Nat := 0
  audioAdjust : Nat := 0
  /-- generation of the last size mismatch reported, and the fill orders counted -/
  sizeGen : Option Nat := none
  sizeFill : Nat := 0
  /-- `tf` and `ycc` of the last buffer sent -/
  lastTf : Option Nat := none
  lastYcc : Option Nat := none
  /-- samples gathered for the next frame or packet, one list of channels for each strobe -/
  embed : List (List Int) := []
  /-- frames sent since it was enabled, and what the last frame or packet carried -/
  frames : Nat := 0
  frame : Option OutFrame := none
  /-- extended sequence number of a sender's next packet (R429) -/
  seq : Nat := 0
  /-- pinned context of a sender (R432) -/
  flow : Option Nat := none
deriving DecidableEq, Repr

/-- A packet of a sender on one path (R428 to R430): the source of its port, the destination block of its path, its RTP
header, and of a video packet the row, the first pixel and the bytes that its sample row data header names. -/
structure OutPacket where
  sender : Nat
  mac : List Byte
  vlan : Nat
  ip : List Byte
  dest : List Byte
  dscp : Nat
  ptype : Nat
  ssrc : Nat
  seq : Nat
  rtp : Nat
  row : Option (Nat × Nat × Nat) := none
  payload : Nat
  /-- bytes that an injector changed: their offset and the pattern (R416) -/
  hurt : Option (Nat × Nat) := none
deriving DecidableEq, Repr

/-- An ETH port (R433). -/
structure EthPort where
  up : Bool := false
  link : Bool := false
  fec : Nat := 0
  mac : List Byte := List.replicate 6 0
  vlan : Nat := 0
  ip : List Byte := List.replicate 4 0
  packets : Nat := 0
  /-- the last packet that left, and those an injector holds back, with the units still to pass (R416) -/
  sent : Option OutPacket := none
  heldBack : List (Nat × OutPacket) := []
deriving DecidableEq, Repr

structure Outputs where
  outs : List Output := List.replicate 12 {}
  eth : List EthPort := [{}, {}]
  /-- the last 48 kHz samples of the 32 channels, a muted one 0, newest first, at most 2,048 (R426) -/
  recent : List (List Int) := []
deriving DecidableEq, Repr

/-! ## Viewfinder (chapter 18) -/

/-- `DISP_CONFIG` (R436 to R439). -/
structure DispCfg where
  ports : Nat := 0
  lanes : Nat := 1
  pixfmt : Nat := 0
  laneRate : Nat := 0
  clkMode : Nat := 0
  hActive : Nat := 0
  vActive : Nat := 0
  hTotal : Nat := 0
  vTotal : Nat := 0
  hSync : Nat := 0
  hBack : Nat := 0
  vSync : Nat := 0
  vBack : Nat := 0
  fpsDen : Nat := 1
  fpsNum : Nat := 0
  phaseNs : Int := 0
deriving DecidableEq, Repr

/-- A layer as `DISP_LAYER` sets it (R442 to R445). -/
structure DispLayer where
  enable : Bool := false
  x : Nat := 0
  y : Nat := 0
  w : Nat := 0
  h : Nat := 0
  stride : Nat := 0
  addr : Nat := 0
  gen : Nat := 0
  rnd : Nat := 0
  palette : List Nat := [0, 0, 0, 0]
deriving DecidableEq, Repr

/-- A pending or latched display state (R448). -/
structure DispSet where
  layers : List DispLayer := List.replicate 4 {}
  lineMatch : Nat := 0xFFFF
deriving DecidableEq, Repr

/-- The buffer layer 0 holds, and what its header says (R443, R444). -/
structure L0Buf where
  rnd : Nat
  addr : Nat
  fill : Nat
  seq : Nat
  width : Nat
  height : Nat
  layout : Nat
  format : Nat
  ycc : Nat
deriving DecidableEq, Repr

/-- A DSI command sent in low-power mode (R452): its ports as a mask, its data type, virtual channel and bytes. -/
structure DsiCommand where
  ports : Nat
  dtype : Nat
  vc : Nat
  data : List Byte
deriving DecidableEq, Repr

/-- A DCS command that waits for blanking: its slot and its response. -/
structure DcsWait where
  slot : Nat
  resp : List Byte
  cmd : DsiCommand
deriving DecidableEq, Repr

/-- What the ports send in a line (R437): on virtual channel 0, VSS on the first sync line and HSS on every other; on an
active line one Packed Pixel Stream packet; EoTp after the burst, and LP-11 for the rest of the line. -/
structure DsiLine where
  vss : Bool
  /-- data type and payload of the pixel packet -/
  pixels : Option (Nat × List Byte)
deriving DecidableEq, Repr

/-- The display (R436 to R455). -/
structure Display where
  enabled : Bool := false
  /-- disabled, with the frame in progress still to finish -/
  finishing : Bool := false
  /-- what the enabled ports sent in the line that started last; none at LP-11 -/
  sent : Option DsiLine := none
  /-- a `DISP_CONFIG` with `enable` 1 has been accepted since reset -/
  configured : Bool := false
  cfg : DispCfg := {}
  shadow : List DispLayer := List.replicate 4 {}
  /-- the pending state and the `dframe` whose blanking latches it -/
  pending : Option (DispSet × Nat) := none
  latched : DispSet := {}
  dframe : Nat := 0
  /-- the line in scan-out; none before the first frame starts -/
  line : Option Nat := none
  /-- C at its start -/
  lineAt : Nat := 0
  /-- lines of the frame store that are not black -/
  store : List (Nat × List Nat) := []
  /-- the same lines as they were composed, which the composed CRC is taken over (R451) -/
  composed : List (Nat × List Nat) := []
  /-- lines of the frame under composition whose windows have opened, and those written -/
  opened : Nat := 0
  written : List Nat := []
  /-- layer data that has arrived: layer, line, burst, bytes -/
  fetched : List (Nat × Nat × Nat × List Byte) := []
  /-- for each layer, the line from which it is off in the frame under composition -/
  off : List (Option Nat) := [none, none, none, none]
  held : Option L0Buf := none
  /-- layers that were off in the last composed frame, its number and its CRC -/
  frameOff : Nat := 0
  frameNo : Nat := 0
  frameCrc : Nat := 0
  dcs : List DcsWait := []
  /-- the last command sent to a panel -/
  dcsSent : Option DsiCommand := none
  superseded : Nat := 0
  lateCommits : Nat := 0
  underruns : List Nat := [0, 0, 0, 0]
  stales : List Nat := [0, 0, 0]
  mismatches : List Nat := [0, 0]
deriving DecidableEq, Repr

/-! ## Audio (chapter 19) -/

/-- A slot mask that has not yet taken effect (R467). -/
structure SlotsWait where
  mask : Nat
  route : List Nat
  /-- channels whose zero crossing it still waits for; none left once committed -/
  waits : List Nat
  /-- frame starts of a master port it must let pass, being too close to the commit -/
  skip : Nat := 0
  replaced : Nat := 0
  timedOut : Bool := false
deriving DecidableEq, Repr

/-- A frame in an elastic buffer (R462), and the slot mask it was captured under (R467). -/
structure SlotFrame where
  mask : Nat := 0
  slots : List Int := List.replicate 8 0
deriving DecidableEq, Repr

/-- An I2S or TDM port (R460 to R464). -/
structure AudPort where
  /-- 0 off, 1 receive, 2 transmit -/
  dir : Nat := 0
  master : Bool := false
  fmt : Nat := 0
  bclkInv : Bool := false
  mask : Nat := 0
  route : List Nat := List.replicate 8 0xFF
  wait : Option SlotsWait := none
  /-- the clock fault in force -/
  fault : Option Nat := none
  /-- frames in the elastic buffer, oldest first; `filling` until it holds 2 -/
  buf : List SlotFrame := []
  filling : Bool := false
  /-- the frame last read, and the frame last sent -/
  lastFrame : SlotFrame := {}
  sent : List Int := List.replicate 8 0
  drops : Nat := 0
  repeats : Nat := 0
  /-- C at the last `EV_AUD_SLIP` -/
  slipAt : Option Nat := none
  faults : Nat := 0
  slips : Nat := 0
deriving DecidableEq, Repr

/-- A change of gain and mute that waits for a zero crossing (R466). -/
structure GainWait where
  gain : Nat
  mute : Bool
  replaced : Nat := 0
deriving DecidableEq, Repr

/-- A device channel (R456, R465). -/
structure AudChan where
  gain : Nat := 0x100000
  mute : Bool := false
  wait : Option GainWait := none
  /-- muted by a clock fault, and whether the clock is good again and a crossing is awaited -/
  faultMute : Bool := false
  unmute : Bool := false
  /-- the input sample before -/
  prev : Int := 0
  out : Int := 0
  outMuted : Bool := false
  /-- delivered samples and whether each was muted, newest first, at most 31 (R458) -/
  past : List (Int × Bool) := []
deriving DecidableEq, Repr

/-- A microphone's filter chain (R459): five integrators, five combs, and the half-band delay line at 2 fs. -/
structure Mic where
  integ : List Int := [0, 0, 0, 0, 0]
  comb : List Int := [0, 0, 0, 0, 0]
  past : List Int := []
deriving DecidableEq, Repr

/-- An `AUD_START` whose strobe has not come, its units and S0; or an `AUD_STOP`, its units and the time of its commit. -/
structure AudStart where
  units : Nat
  at_ : Nat
deriving DecidableEq, Repr

/-- The audio unit (R456 to R472). -/
structure Audio where
  /-- 1 for 48 kHz, 2 for 96 kHz -/
  fs : Nat := 1
  pdm : List Nat := [0, 0]
  mclk : Nat := 0
  ports : List AudPort := [{}, {}, {}]
  chans : List AudChan := List.replicate 32 {}
  mics : List Mic := List.replicate 8 {}
  running : List Bool := List.replicate 5 false
  starts : List AudStart := []
  /-- stops committed: the units, and when; each acts at the first strobe after it -/
  stops : List AudStart := []
  /-- changes replaced, by unit -/
  replaced : List Nat := List.replicate 5 0
deriving DecidableEq, Repr

/-! ## Thermal manager and Touchstone (chapter 22) -/

/-- States of a temperature sensor (R526). -/
inductive TempState where
  | normal | suspect | failed | rest | service | spareFailed
deriving DecidableEq, Repr

/-- A temperature sensor (R523 to R529); temperatures are in 1/16 °C. -/
structure TempSensor where
  state : TempState := .normal
  reading : Int := 0
  /-- the readings of its rate-check history, newest first, at most 101 (R527) -/
  hist : List Int := []
  /-- it has converted since cold power-on -/
  converted : Bool := false
  /-- consecutive conversions more than 8.0 °C from P -/
  apart : Nat := 0
  /-- consecutive conversions within 8.0 °C of P -/
  near : Nat := 0
  /-- its last conversion met the implausible-rise condition -/
  rising : Bool := false
  /-- a further implausible rise occurred while suspect (R528) -/
  again : Bool := false
  /-- consecutive sustained-rise evaluations that exceeded the threshold -/
  rises : Nat := 0
deriving DecidableEq, Repr

/-- A calibration target (R538, R539). -/
structure CalTarget where
  code : Nat := 0
  /-- a new code waiting for its gap -/
  next : Option Nat := none
  /-- intervals in a row without a gap -/
  waits : Nat := 0
  /-- measured in the pass under way -/
  done : Bool := false
deriving DecidableEq, Repr

/-- A calibration class (R538, R542). -/
structure CalClass where
  enabled : Bool := true
  interval : Nat := 1000
  /-- an interval set by CAL_CONFIG, in force from the next interval -/
  nextInterval : Nat := 1000
  nextEnabled : Bool := true
  targets : List CalTarget := []
  /-- a pass is under way -/
  running : Bool := false
  /-- C at the start of the pass -/
  startedAt : Nat := 0
  /-- of the pass under way -/
  corrections : Nat := 0
  disagreements : Nat := 0
  measured : Nat := 0
  largest : Nat := 0
  /-- largest correction of the last pass, and the counters of `CAL_STATUS` -/
  lastLargest : Nat := 0
  passes : Nat := 0
  applied : Nat := 0
  disagreed : Nat := 0
  starved : Nat := 0
deriving DecidableEq, Repr

/-- The thermal manager and Touchstone. -/
structure Thermal where
  /-- the throttle allowance A, in sixteenths (R532) -/
  allow : Nat := 16
  /-- `ceiling_ma` as commanded, and as in force since the last control period (R541) -/
  ceilingMa : Nat := 40000
  ceilingNow : Nat := 40000
  fanLo : Int := 960
  fanHi : Int := 1520
  fanMin : Nat := 64
  sensors : List TempSensor := List.replicate 24 ({} : TempSensor) ++ List.replicate 4 { state := .rest }
  /-- Tmax and the sensor that gave it, sampled at the last control period -/
  tmax : Int := 0
  hottest : Nat := 0
  fanDuty : Nat := 64
  warn : Bool := false
  /-- the condition of R531 stands -/
  floor : Bool := false
  /-- ms left in the hold of R535 -/
  holdMs : Nat := 0
  /-- a sustained rise was signalled since the last control period (R529) -/
  riseSignal : Bool := false
  /-- control periods, at most 20, since the last step down, step up and pre-emptive step -/
  sinceDown : Nat := 20
  sinceUp : Nat := 20
  sincePre : Nat := 20
  /-- control periods in a row, at most 20, with Tmax below 100.0 °C -/
  cool : Nat := 0
  /-- A is 4 and a step was due at the last control period -/
  stuckFloor : Bool := false
  measuredMa : Nat := 0
  stepsDown : Nat := 0
  stepsUp : Nat := 0
  -- Touchstone
  agree : Nat := 1
  nextAgree : Nat := 1
  classes : List CalClass := [
    { targets := List.replicate 54 {} }, { targets := List.replicate 6 {} }, { targets := List.replicate 32 {} },
    { targets := List.replicate 2 {}, interval := 10000, nextInterval := 10000 },
    { targets := List.replicate 16 {} }, { targets := List.replicate 28 {} }]
  rcalFault : Bool := false
  /-- RCAL in 0.1 Ω as last measured -/
  rcal : Nat := 20000
  /-- passes in a row of the RCAL check while faulty -/
  rcalGood : Nat := 0
  /-- an RCAL fault of the boot, reported once mailboxes are ready (R540) -/
  rcalReport : Bool := false
deriving DecidableEq, Repr

/-! ## GPIO and tally pins (chapter 26) -/

/-- The GPIO pins and the tallies (R614 to R616). -/
structure Pins where
  /-- per pin: 0 input, 1 push-pull, 2 open drain; and its edges: 0 none, 1 rising, 2 falling, 3 both -/
  mode : List Nat := List.replicate 32 0
  edge : List Nat := List.replicate 32 0
  out : BitVec 32 := 0
  /-- what the board drives on each pin -/
  board : BitVec 32 := 0
  /-- C at the last selected edge of each pin (R614) -/
  edgeAt : List (Option Int) := List.replicate 32 none
  /-- per tally: `source` and `chmask` -/
  tally : List (Nat × Nat) := List.replicate 4 (0, 0)
deriving DecidableEq, Repr

/-! ## The machine -/

/-- The state of the device and the commands that wait. -/
structure State where
  /-- commands waiting, first in first out -/
  pending : List Instr := []
  fuse : Fuse := {}
  mbx : Mbx := {}
  attn : Attn := {}
  /-- event-record routes of groups 0x01 to 0x16 (R80) -/
  route : List Nat := List.replicate 23 0
  /-- event queues 0 to 3, then metadata FIFOs 4 + 3 × s + k -/
  queues : List Queue := List.replicate 16 {}
  host : HostPorts := {}
  time : TimeBase := {}
  clk : Clocks := {}
  pwr : Power := {}
  br : Bedrock := {}
  mem : MemCtl := {}
  spare : Spares := {}
  /-- device DRAM (R44, chapter 21) -/
  dram : Mem := []
  lane : Lanes := {}
  ring : Ring := {}
  img : Imaging := {}
  codec : Codec := {}
  recs : Recording := {}
  gate : Gate := {}
  out : Outputs := {}
  disp : Display := {}
  aud : Audio := {}
  therm : Thermal := {}
  pins : Pins := {}
  /-- draws made so far from the free values of `Config` (the model's own field) -/
  draws : Nat := 0
deriving DecidableEq, Repr

/-- The machine right after reset: cold power-on begun, every register at its Reset column, mailboxes not
ready, no command waiting. -/
def State.reset : State := {}

end Sys2Proof.Machine
end

