-- ==== Sys2Proof/Machine/Ops.lean ====
section
/-! DEFINITION. The shared operations: bytes and stores, the part's figures, time, the attention tree, event
records, and the life of a mailbox command. -/

namespace Sys2Proof.Machine

/-! ## Bytes, numbers, lists -/

/-- The little-endian value of a byte list (R5). -/
def leNat : List Byte → Nat
  | [] => 0
  | b :: bs => b.toNat + 256 * leNat bs

/-- `len` little-endian bytes of a value (R5). -/
def leBytes : Nat → Nat → List Byte
  | 0, _ => []
  | len + 1, v => BitVec.ofNat 8 v :: leBytes len (v / 256)

/-- Two's complement reading of a value of `bits` bits. -/
def signed (bits v : Nat) : Int :=
  if v % 2 ^ bits < 2 ^ (bits - 1) then (v % 2 ^ bits : Nat) else (v % 2 ^ bits : Nat) - (2 ^ bits : Nat)

/-- Two's complement coding of an integer in `bits` bits. -/
def unsigned (bits : Nat) (v : Int) : Nat := (v % (2 ^ bits : Nat)).toNat

/-- Little-endian bytes of a signed value. -/
def leInt (len : Nat) (v : Int) : List Byte := leBytes len (unsigned (8 * len) v)

/-- The unsigned field of a command body at an offset (R10). -/
def fld (b : Body) (off len : Nat) : Nat := leNat ((b.drop off).take len)

/-- The signed field of a command body. -/
def sfld (b : Body) (off len : Nat) : Int := signed (8 * len) (fld b off len)

/-- A counter that saturates at a bound (R6). -/
def satAdd (bits a k : Nat) : Nat := min (a + k) (2 ^ bits - 1)

/-- The default 32-bit saturating counter of R6. -/
def sat32 (a k : Nat) : Nat := satAdd 32 a k

def clampInt (x lo hi : Int) : Int := if x < lo then lo else if hi < x then hi else x

def ceilDiv (a b : Nat) : Nat := (a + b - 1) / b

/-- Round a quotient of integers to the nearest, halves upward. -/
def roundDiv (a : Int) (b : Nat) : Int := (2 * a + b).fdiv (2 * b)

def bitSet (v i : Nat) : Bool := v.testBit i

def boolNat (b : Bool) : Nat := if b then 1 else 0

/-- Replace element `i` of a list by what a function makes of it; out of range, nothing changes. -/
def modAt {α : Type} (l : List α) (i : Nat) (f : α → α) : List α := l.modify i f

/-! ## Stores -/

/-- The byte at an address; an unlisted address reads 0. -/
def memGet : Mem → Nat → Byte
  | [], _ => 0
  | (a, b) :: m, x => if a = x then b else memGet m x

/-- Write a byte, keeping the form canonical: writing 0 removes the cell. -/
def memPut : Mem → Nat → Byte → Mem
  | [], x, v => if v = 0 then [] else [(x, v)]
  | (a, b) :: m, x, v =>
    if x < a then (if v = 0 then (a, b) :: m else (x, v) :: (a, b) :: m)
    else if x = a then (if v = 0 then m else (a, v) :: m)
    else (a, b) :: memPut m x v

/-- `n` bytes from an address. -/
def memBytes (m : Mem) (x : Nat) : Nat → List Byte
  | 0 => []
  | n + 1 => memGet m x :: memBytes m (x + 1) n

/-- Write bytes from an address upward. -/
def memPutBytes (m : Mem) (x : Nat) : List Byte → Mem
  | [] => m
  | b :: bs => memPutBytes (memPut m x b) (x + 1) bs

/-- Little-endian read and write of a store. -/
def memLE (m : Mem) (x n : Nat) : Nat := leNat (memBytes m x n)
def memPutLE (m : Mem) (x n v : Nat) : Mem := memPutBytes m x (leBytes n v)

/-- Drop every cell of a range `[lo, hi)`: those bytes then read 0. -/
def memClear (m : Mem) (lo hi : Nat) : Mem := m.filter fun c => c.1 < lo || hi ≤ c.1

/-- Keep only the cells that a test on their addresses accepts. -/
def memKeep (m : Mem) (p : Nat → Bool) : Mem := m.filter fun c => p c.1

/-- The canonical form of a store. -/
def Mem.wf : Mem → Bool
  | [] => true
  | [(_, b)] => b != 0
  | (a, b) :: (a', b') :: m => b != 0 && a < a' && Mem.wf ((a', b') :: m)

/-! ## The part (R14 to R22) -/

def Tier.code : Tier → Nat
  | .a => 0 | .b => 1 | .c => 2

def stripeActive (f : Fuse) : Nat := match f.tier with | .a => 8 | .b => 4 | .c => 2
def renditionCount (f : Fuse) : Nat := match f.tier with | .a => 6 | .b => 4 | .c => 2
def lanesEnc (f : Fuse) : Nat := match f.tier with | .a => 4 | .b => 2 | .c => 1
def dramChannels (f : Fuse) : Nat := if f.pkgM then 8 else 16
def serialLanes (f : Fuse) : Nat := if f.pkgM then 24 else 48
def spareLanes (f : Fuse) : Nat := if f.pkgM then 3 else 6

/-- The last four digits of the part number, in BCD (R13, R18). -/
def partNumber (f : Fuse) : Nat :=
  0x9000 + (match f.tier with | .a => 0x800 | .b => 0x500 | .c => 0x300) +
    (if f.pkgM then 0x40 else 0x60) + boolNat f.ring

/-- CAP_PART (R18). -/
def capPart (f : Fuse) : Nat :=
  partNumber f + f.tier.code * 2 ^ 16 + boolNat f.pkgM * 2 ^ 18 + boolNat f.ring * 2 ^ 19 +
    (f.stepping % 256) * 2 ^ 20

/-- CAP_UNITS (R18). -/
def capUnits (f : Fuse) : Nat :=
  stripeActive f + 2 ^ 4 + renditionCount f * 2 ^ 8 + lanesEnc f * 2 ^ 12 + 2 ^ 16 + 4 * 2 ^ 20 + 2 ^ 24

/-- CAP_IO (R18) with the `dram_gib` that training found. -/
def capIo (f : Fuse) (gib : Nat) : Nat :=
  dramChannels f + serialLanes f * 2 ^ 5 + spareLanes f * 2 ^ 13 + boolNat f.ring * 2 ^ 17 +
    (gib % 256) * 2 ^ 18

/-- Developed-rate limit in pixels per second (R22). -/
def devLimit (f : Fuse) : Nat :=
  match f.tier with
  | .a => if f.pkgM then 5900000000 else 9830400000
  | .b => 4915200000
  | .c => 2457600000

/-- Ingest-rate limit in samples per second (R22). -/
def ingestLimit (f : Fuse) : Nat :=
  match f.tier with
  | .a => if f.pkgM then 11800000000 else 19660800000
  | .b => 9830400000
  | .c => 4915200000

/-- CAP_RATE: both limits in units of 10^7, rounded to nearest (R18). -/
def capRate (f : Fuse) : Nat :=
  (devLimit f + 5000000) / 10000000 + (ingestLimit f + 5000000) / 10000000 * 2 ^ 16

/-- What a function of the host endpoint presents in PCIe configuration space (R43, R333); `none` where the manual gives
no value. -/
structure PciFunction where
  vendorId : Nat
  deviceId : Nat
  revisionId : Option Nat
  classCode : Nat
  /-- bytes of BAR0, and of BAR2 where there is one; both are 64-bit, and BAR2 alone is prefetchable -/
  bar0Bytes : Nat
  bar2Bytes : Option Nat
  msixVectors : Nat
  intx : Bool
  maxPayload : Option Nat
  maxReadRequest : Option Nat
deriving DecidableEq, Repr

/-- Function 0, the control function (R43); Selyon's vendor ID is a number the manual does not give. -/
def pciControl (f : Fuse) : PciFunction where
  vendorId := Config.vendorId
  deviceId := 0xF900 + 4 * f.tier.code + 2 * boolNat f.pkgM + boolNat f.ring
  revisionId := some (f.stepping % 256)
  classCode := 0x048000
  bar0Bytes := 2 * 2 ^ 20
  bar2Bytes := some (4 * 2 ^ 30)
  msixVectors := 1
  intx := false
  maxPayload := some 512
  maxReadRequest := some 4096

/-- Installed DRAM in bytes, and the part of it below the remap reserve, its top 1/128 (R19, R502, R513). -/
def dramBytes (f : Fuse) : Nat := f.bondedGib * 2 ^ 30
def dramUsable (f : Fuse) : Nat := dramBytes f - dramBytes f / 128

/-! ## Time (R473 to R477) -/

/-- Units of 2^-48 s in one second. -/
def oneSec : Int := 2 ^ 48

/-- The elapsed time, in 2^-48 s, of `k` PIPE clocks at a rate (R475). -/
def elapsed (k : Int) (rate : Int) : Int := (k * 2 ^ 31 * (2 ^ 41 + rate)).fdiv (9375 * 2 ^ 41)
/-- The same over a number of eighth-ticks (R478). -/
def elapsed8 (k : Int) (rate : Int) : Int := (k * 2 ^ 31 * (2 ^ 41 + rate)).fdiv (8 * 9375 * 2 ^ 41)

/-- T_d(C) (R475), as an unreduced number of 2^-48 s. -/
def domTime (d : Domain) (c : Nat) : Int := d.ofs + elapsed ((c : Int) - d.anchor) d.rate

/-- The free view F (R475). -/
def freeTime (f : Fuse) (c : Nat) : Int := elapsed c f.xtalCorr

/-- The time of a view's base at a count (R477). -/
def baseTime (s : State) (b : Option Nat) (c : Nat) : Int :=
  match b with
  | none => freeTime s.fuse c
  | some d => domTime (s.time.doms.getD d {}) c

/-- How far a view's correction has been slewed at a count: at most `slewPpb` (R485, R487). -/
def viewDelta (v : View) (c : Nat) : Int :=
  let moved := ((c - v.from0 : Nat) : Int) * 2 ^ 31 * v.slewPpb / (9375 * 1000000000)
  if v.delta0 < 0 then min 0 (v.delta0 + moved) else max 0 (v.delta0 - moved)

/-- A view's time at a count: its base, or the frozen run of a base that restarts, with its correction. -/
def viewTime (s : State) (v : View) (c : Nat) : Int :=
  (match v.frozen with
    | some (o, a, r) => o + elapsed ((c : Int) - a) r
    | none => baseTime s v.base c) + viewDelta v c

/-- A domain's time at a stamp, a count of eighth-ticks (R475, R478). -/
def domTimeAt (d : Domain) (stamp : Int) : Int := d.ofs + elapsed8 (stamp - 8 * d.anchor) d.rate

/-- The time of a view at a stamp (R477, R478). -/
def viewTimeAt (s : State) (v : View) (stamp : Int) : Int :=
  (match v.frozen, v.base with
    | some (o, a, r), _ => o + elapsed8 (stamp - 8 * a) r
    | none, none => elapsed8 stamp s.fuse.xtalCorr
    | none, some d => domTimeAt (s.time.doms.getD d {}) stamp) + viewDelta v (stamp / 8).toNat

/-- The 64-bit form of a full time (R474): bits [79:16]. -/
def time64 (t : Int) : Nat := ((t / 2 ^ 16) % 2 ^ 64).toNat

/-- Class S and class L time now (R474, R477). -/
def classS (s : State) : Nat := time64 (viewTime s s.time.viewS s.time.c.toNat)
def classL (s : State) : Nat := time64 (viewTime s s.time.viewL s.time.c.toNat)

/-! ## The attention tree (R73 to R78) -/

def leafBit (bit : Nat) : Reg32 := BitVec.ofNat 32 (2 ^ bit)

/-- A register word with the bits a list of flags sets, bit 0 first. -/
def packBits : List Bool → Nat
  | [] => 0
  | b :: bs => boolNat b + 2 * packBits bs

/-- Sub-cause register s of summary bit 2: the FIFOs of sensor s (R78, R87). -/
def subCause (s : State) (sn : Nat) : Reg32 :=
  let q (k : Nat) := s.queues.getD (4 + 3 * sn + k) {}
  BitVec.ofNat 32 (packBits [(q 0).wmHit, (q 1).wmHit, (q 2).wmHit, false,
    (q 0).lostLeaf, (q 1).lostLeaf, (q 2).lostLeaf])

/-- The value of cause register b (R76, R77, R87). -/
def attnCause (s : State) (b : Nat) : Reg32 :=
  if b = 0 then s.mbx.done.setWidth 32
  else if b = 2 then
    BitVec.ofNat 32 (packBits ((List.range 4).map fun k =>
      (subCause s k &&& ~~~(s.attn.submask.getD k 0)) != 0))
  else if b = 29 then BitVec.ofNat 32 (packBits ((s.queues.take 4).map (·.wmHit)))
  else if b = 31 then BitVec.ofNat 32 (packBits ((s.queues.take 4).map (·.lostLeaf)))
  else s.attn.cause.getD b 0

/-- `MBX_DONE_Q`, which is `ATTN_CAUSE2_0` (R76). -/
def attnCause2 (s : State) : Reg32 := (s.mbx.done >>> 32).setWidth 32

/-- Whether summary bit b is set: the OR of its unmasked cause bits (R75). -/
def summaryBit (s : State) (b : Nat) : Bool :=
  if 23 ≤ b && b ≤ 28 then false
  else (attnCause s b &&& ~~~(s.attn.cmask.getD b 0)) != 0 ||
    (b == 0 && (attnCause2 s &&& ~~~s.attn.cmask2) != 0)

/-- `ATTN_SUMMARY`. -/
def attnSummary (s : State) : Reg32 := BitVec.ofNat 32 (packBits ((List.range 32).map (summaryBit s)))

/-- `ATTN_PENDING` (R75); INT_N is low exactly while it is not zero (R73). -/
def attnPending (s : State) : Reg32 := attnSummary s &&& ~~~s.attn.mask
def intActive (s : State) : Bool := attnPending s != 0

/-- An MSI-X message goes out when the INT_N source turns active (R43, R74). -/
def attnEdge (before after : State) : State :=
  if intActive after && !intActive before then { after with attn.msix := after.attn.msix + 1 } else after

/-- After a host write to a leaf or mask, one further message if the source is active (R74). -/
def attnResend (s : State) : State :=
  if intActive s then { s with attn.msix := s.attn.msix + 1 } else s

/-- Set bits of cause register b. -/
def setLeaves (s : State) (b : Nat) (bits : Reg32) : State :=
  attnEdge s { s with attn.cause := modAt s.attn.cause b (· ||| bits) }

/-- Set one leaf. -/
def setLeaf (s : State) (b bit : Nat) : State := setLeaves s b (leafBit bit)

/-! ## Event records (R79 to R86) -/

/-- Mark the oldest record that survives with `gap` (R85). -/
def gapFirst : List EvRecord → List EvRecord
  | [] => []
  | r :: l => if r.erased then r :: gapFirst l else { r with gap := true } :: l

/-- `rd` passes over positions whose records were lost with a bank (R588), up to the next record. -/
def Queue.skipLost (q : Queue) : Queue :=
  { q with rd := q.rd + BitVec.ofNat 32 ((q.recs.drop (q.rd - q.rel).toNat).takeWhile (·.erased)).length }

/-- The records a queue holds: 1,024, or 512 for a queue that runs without one of its banks. DESIGN CHOICE: R590 takes
no other capacity from it, and a watermark above what is left is never reached (log entry 229). -/
def Queue.capacity (q : Queue) : Nat := 1024 - 512 * q.missing

/-- A queue without both its banks keeps no record: each is lost as it is posted. -/
def Queue.drop (q : Queue) : Queue :=
  { q with
    recs := [], rel := q.wr + 1, mark := q.wr + 1, rd := q.wr + 1, wr := q.wr + 1
    lost := sat32 q.lost 1, lostLeaf := true, gapNext := true }

/-- Post a record to a queue (R85, R86): a full queue first gives up its oldest record, which counts as lost unless it
was lost with its bank before. -/
def Queue.post (q : Queue) (r : EvRecord) : Queue :=
  if q.capacity = 0 then q.drop else
  let full := q.capacity ≤ q.recs.length
  let lose := full && !(q.recs.getD 0 {}).erased
  let old := if full then q.recs.drop 1 else q.recs
  let rel := if full then q.rel + 1 else q.rel
  let mark := if full && q.mark == q.rel then rel else q.mark
  let rd := if full && q.rd == q.rel then rel else q.rd
  let recs := old ++ [{ r with recSeq := q.wr.toNat % 256, gap := r.gap || q.gapNext }]
  let recs := if full then gapFirst recs else recs
  let level := recs.length
  let q1 : Queue := { q with
    recs := recs, rel := rel, mark := mark, rd := rd, wr := q.wr + 1, gapNext := false,
    lost := if lose then sat32 q.lost 1 else q.lost,
    lostLeaf := q.lostLeaf || lose,
    wmHit := q.wmHit || q.rearm || (level ≥ q.wm && old.length < q.wm),
    rearm := false,
    peak := max q.peak level }
  if full then q1.skipLost else q1

/-- Pad a payload to its 16 bytes (R79, R633). -/
def pad16 (p : List Byte) : List Byte := (p ++ List.replicate 16 0).take 16

/-- Post a record to queue `qi` (0 to 3 event queues, 4 to 15 FIFOs). -/
def postTo (s : State) (qi : Nat) (r : EvRecord) : State :=
  attnEdge s { s with queues := modAt s.queues qi (·.post { r with payload := pad16 r.payload }) }

/-- The queue that receives events of a group (R80). -/
def routeOf (s : State) (group : Nat) : Nat := s.route.getD group 0

/-- Post an event with a class L timestamp of its own to its group's queue (R79, R80). -/
def postEventAt (s : State) (ts code source : Nat) (payload : List Byte) : State :=
  postTo s (routeOf s (code / 256))
    { ts := ts, code := code, source := source, origin := s.ring.stageAddr, payload := payload }

/-- Post an event of this instant with a class L timestamp to its group's queue (R80, R634). -/
def postEvent (s : State) (code source : Nat) (payload : List Byte) : State :=
  postEventAt s (classL s) code source payload

/-- Post an event with a class S timestamp. -/
def postEventS (s : State) (code source : Nat) (payload : List Byte) : State :=
  postTo s (routeOf s (code / 256))
    { ts := classS s, code := code, source := source, origin := s.ring.stageAddr, classS := true,
      payload := payload }

/-- Post an event and set a leaf of its group's cause register. -/
def notify (s : State) (code source : Nat) (payload : List Byte) (bit : Nat) : State :=
  setLeaf (postEvent s code source payload) (code / 256) bit

/-- Post a record to FIFO k of a sensor, class S (R633, R634). -/
def postFifo (s : State) (sn k code : Nat) (ts : Nat) (payload : List Byte) (cont : Bool) : State :=
  postTo s (4 + 3 * sn + k)
    { ts := ts, code := code, source := sn, origin := s.ring.stageAddr, classS := true, cont := cont,
      payload := payload }

/-! ## Free values -/

/-- Draw the next free value. -/
def draw (s : State) : Nat × State := (Config.freeNat s.draws, { s with draws := s.draws + 1 })

/-- Draw `n` bytes of undefined content. -/
def drawBytes (s : State) (n : Nat) : List Byte × State :=
  ((List.range n).map (Config.freeByte s.draws), { s with draws := s.draws + 1 })

/-! ## Mailbox commands (R53 to R72) -/

/-- A rejection: error code, `err_offset`, `err_info` (R64). -/
structure Rej where
  code : Nat
  off : Nat
  info : Nat
deriving DecidableEq, Repr

/-- How a command ends: with a response, or by going on until the device answers later. -/
inductive Answer where
  | now (resp : List Byte)
  | later
deriving DecidableEq, Repr

/-- A command card: its length rule (`some info` refuses), its checks of steps 6 and 7 in order, its
conditions of step 8 (those of `E_SEQUENCE`, then those of `E_STATE`) and of step 9, and its effect. -/
structure Card where
  opcode : Nat
  len : Nat → Body → Option Nat
  fields : Body → State → List (Option Rej) := fun _ _ => []
  seq : Body → State → List (Option Rej) := fun _ _ => []
  state : Body → State → List (Option Rej) := fun _ _ => []
  res : Body → State → List (Option Rej) := fun _ _ => []
  effect : Nat → Body → State → State × Answer

def slotAddr (n : Nat) : Nat := 512 * n

/-- Header fields of a slot (R53). -/
def slotField (s : State) (n off len : Nat) : Nat := memLE s.mbx.slots (slotAddr n + off) len
def slotOpcode (s : State) (n : Nat) : Nat := slotField s n 0 2
def slotSequence (s : State) (n : Nat) : Nat := slotField s n 2 2
def slotLength (s : State) (n : Nat) : Nat := slotField s n 4 2
def slotFlags (s : State) (n : Nat) : Nat := slotField s n 6 2
def slotStatus (s : State) (n : Nat) : Nat := slotField s n 8 2

/-- The parameter bytes of a slot. -/
def slotBody (s : State) (n : Nat) : Body :=
  memBytes s.mbx.slots (slotAddr n + 16) (min 496 (slotLength s n))

/-- Write bytes into a slot. -/
def slotWrite (s : State) (n off : Nat) (bs : List Byte) : State :=
  { s with mbx.slots := memPutBytes s.mbx.slots (slotAddr n + off) bs }

/-- Firmware completes a command (R57, R59): response, length, status; busy and started cleared, done set;
last the record, unless `no_record`. -/
def mbxFinish (s : State) (n status errOff : Nat) (resp : List Byte) : State :=
  let op := slotOpcode s n
  let sq := slotSequence s n
  let fl := slotFlags s n
  let s1 := slotWrite s n 16 resp
  let s2 := slotWrite s1 n 0x0A (leBytes 2 resp.length)
  let s3 := slotWrite s2 n 0x08 (leBytes 2 status)
  let s4 := attnEdge s3 { s3 with
    mbx.arrival := s3.mbx.arrival.erase n
    mbx.started := s3.mbx.started.erase n
    mbx.heldSlots := s3.mbx.heldSlots.erase n
    mbx.done := s3.mbx.done ||| BitVec.ofNat 40 (2 ^ n) }
  if fl.testBit 2 then s4
  else postTo s4 (fl % 4)
    { ts := classL s4, code := 0x0100, source := n, origin := s4.ring.stageAddr,
      payload := leBytes 2 op ++ leBytes 2 sq ++ leBytes 2 status ++ leBytes 2 resp.length ++
        leBytes 2 errOff }

/-- Complete with status OK. -/
def mbxOk (s : State) (n : Nat) (resp : List Byte) : State := mbxFinish s n 0 0 resp

/-- Complete with a rejection (R63, R64): 8 bytes of response. -/
def mbxReject (s : State) (n : Nat) (r : Rej) : State :=
  mbxFinish s n r.code r.off (leBytes 2 r.off ++ [0, 0] ++ leBytes 4 r.info)

/-- The first failure of a list of checks (R66). -/
def firstRej : List (Option Rej) → Option Rej
  | [] => none
  | none :: l => firstRej l
  | some r :: _ => some r

def rejIf (bad : Bool) (code off info : Nat) : Option Rej := if bad then some ⟨code, off, info⟩ else none

def eLength (info : Nat) : Option Rej := some ⟨0x0102, 0xFF04, info⟩
def eRange (bad : Bool) (off : Nat) : Option Rej := rejIf bad 0x0103 off 0
def eComb (bad : Bool) (off : Nat) : Option Rej := rejIf bad 0x0104 off 0
def eState (bad : Bool) : Option Rej := rejIf bad 0x0105 0xFFFF 0
def eStateAt (bad : Bool) (off : Nat) : Option Rej := rejIf bad 0x0105 off 0
def eBusy (bad : Bool) : Option Rej := rejIf bad 0x0106 0xFFFF 0
def eBusyAt (bad : Bool) (off : Nat) : Option Rej := rejIf bad 0x0106 off 0
def eVariant (bad : Bool) (off : Nat) : Option Rej := rejIf bad 0x0107 off 0
def eNoCtx (bad : Bool) (info : Nat) : Option Rej := rejIf bad 0x0108 0xFFFF info
def eNoCtxAt (bad : Bool) (off info : Nat) : Option Rej := rejIf bad 0x0108 off info
def eSeq (bad : Bool) : Option Rej := rejIf bad 0x010A 0xFFFF 0
def eSeqAt (bad : Bool) (off : Nat) : Option Rej := rejIf bad 0x010A off 0

/-- A reserved field must be 0 (R11). -/
def resv (b : Body) (off len : Nat) : Option Rej := eRange (fld b off len != 0) off

/-- A field outside `lo..hi` is rejected (R20). -/
def inRange (b : Body) (off len lo hi : Nat) : Option Rej :=
  eRange (fld b off len < lo || hi < fld b off len) off

/-- A check of a field that only the present mode makes (R635). -/
def inMode (c : Bool) (r : Option Rej) : Option Rej := if c then r else none
def offMode (c : Bool) (r : Option Rej) : Option Rej := inMode (!c) r

/-- A field that is not one of the listed values is rejected (R11). -/
def oneOf (b : Body) (off len : Nat) (l : List Nat) : Option Rej := eRange (!l.contains (fld b off len)) off

/-- A signed field outside `lo..hi` is rejected. -/
def sRange (b : Body) (off len : Nat) (lo hi : Int) : Option Rej :=
  eRange (sfld b off len < lo || hi < sfld b off len) off

/-- A field that the present mode requires to be 0 (R635). -/
def mustBe0 (b : Body) (off len : Nat) : Option Rej := eComb (fld b off len != 0) off

/-- The card's length is one fixed length. -/
def fixedLen (k : Nat) (plen : Nat) (_ : Body) : Option Nat := if plen = k then none else some k

/-- The commands accepted in Standby among those assigned in interface level 3 (R629). -/
def standbyOpcodes : List Nat :=
  [0x0101, 0x0102, 0x0103, 0x0104, 0x0201, 0x0202, 0x0203, 0x0307, 0x0403, 0x0615, 0x0704, 0x0806,
   0x0908, 0x0A01, 0x0B02, 0x0C02, 0x0C14, 0x0D04, 0x0E05, 0x0F07, 0x1001, 0x1002, 0x1003, 0x1004] ++
  [0x1005, 0x1006, 0x1007, 0x1101, 0x1102, 0x1103, 0x1201, 0x1202, 0x1203, 0x1204, 0x1205, 0x1301,
   0x1302, 0x1401, 0x1412, 0x1501, 0x1502, 0x1503, 0x1610, 0x1611]

/-- The other assigned commands (R629). -/
def runOpcodes : List Nat :=
  [0x0301, 0x0302, 0x0303, 0x0304, 0x0305, 0x0306, 0x0308, 0x0401, 0x0402, 0x0501, 0x0502, 0x0503,
   0x0504, 0x0505, 0x0506, 0x0507, 0x0508, 0x0509, 0x050A, 0x0601, 0x0602, 0x0603, 0x0610, 0x0611] ++
  [0x0612, 0x0613, 0x0614, 0x0620, 0x0701, 0x0702, 0x0703, 0x0710, 0x0801, 0x0802, 0x0803, 0x0804,
   0x0805, 0x0901, 0x0902, 0x0903, 0x0904, 0x0905, 0x0906, 0x0907, 0x0A02, 0x0A03, 0x0A04, 0x0A05] ++
  [0x0A06, 0x0B01, 0x0B03, 0x0B04, 0x0B05, 0x0B06, 0x0C01, 0x0C10, 0x0C11, 0x0C12, 0x0C13, 0x0D01,
   0x0D02, 0x0D03, 0x0E01, 0x0E02, 0x0E03, 0x0E04, 0x0F01, 0x0F02, 0x0F03, 0x0F04, 0x0F05, 0x0F06] ++
  [0x1402, 0x1410, 0x1411]

def opcodeAssigned (op : Nat) : Bool := standbyOpcodes.contains op || runOpcodes.contains op

/-- Commands that exist only on ring parts and are refused at step 3 (R21, R353, R495, R629). -/
def ringOnly (op : Nat) : Bool :=
  op / 256 == 0x0C || op == 0x0A04 || op == 0x0A05 || op == 0x0A06 || op == 0x1007

/-- The doorbell value differs from the slot's `sequence` (R55), which is checked before step 1 of R66. -/
def doorbellCheck (s : State) (n : Nat) : Option Rej :=
  rejIf (s.mbx.db.getD n 0 != slotSequence s n) 0x010A 0xFF02 0

/-- Steps 1 to 3 of R66 for an opcode. -/
def opcodeChecks (s : State) (op : Nat) : List (Option Rej) :=
  [rejIf (!opcodeAssigned op) 0x0101 0xFF00 0, rejIf (s.pwr.fwLacks.contains op) 0x010B 0xFF00 0,
   rejIf (ringOnly op && !s.fuse.ring) 0x0107 0xFF00 0]

/-- Commands refused in Standby whose own requirement gives E_STATE there at an offset of its own (R583, R632). -/
def ownStandby : List Nat := [0x1402]

/-- The checks of R66 in order, for the command in slot n under a card. -/
def cardChecks (c : Card) (n : Nat) (s : State) : Option Rej :=
  let b := slotBody s n
  firstRej (doorbellCheck s n :: opcodeChecks s c.opcode ++
    [(c.len (slotLength s n) b).bind eLength, eRange (8 ≤ slotFlags s n) 0xFF06] ++ c.fields b s ++ c.seq b s ++
    [eState (s.pwr.state == .standby && !standbyOpcodes.contains c.opcode && !ownStandby.contains c.opcode)] ++ c.state b s ++ c.res b s)

/-- Commands that, once started, hold up no later command of their group: a `DISP_DCS` that waits for blanking has no
state change to complete (R452), and an accepted `FW_ACTIVATE` waits for every command owned before it (R70). -/
def afterwards (op : Nat) : Bool := op == 0x0E04 || op == 0x1411

/-- Whether firmware runs the command of slot n now, as the command of an opcode: it owns the slot, the
command is not held or already under way, the and no earlier command of the group waits
(R55, R61, R70). -/
def mbxTurn (s : State) (op n : Nat) : Bool :=
  s.mbx.arrival.contains n && !s.mbx.heldSlots.contains n && !s.mbx.started.contains n &&
  slotOpcode s n == op &&
  !((s.mbx.arrival.takeWhile (· != n)).any fun m =>
    slotOpcode s m / 256 == op / 256 && !(afterwards (slotOpcode s m) && s.mbx.started.contains m))

/-- Run the command of slot n under its card: a rejection, a response, or work that answers later. Where it
is not the command's turn nothing runs. -/
def mbxRun (c : Card) (n : Nat) (s : State) : State :=
  if mbxTurn s c.opcode n then
    match cardChecks c n s with
    | some r => mbxReject s n r
    | none =>
      match c.effect n (slotBody s n) s with
      | (s', .now resp) => mbxOk s' n resp
      | (s', .later) => { s' with mbx.started := s'.mbx.started ++ [n] }
  else s

end Sys2Proof.Machine
end

