-- ==== Sys2Proof/Machine/Regs.lean ====
section
/-! DEFINITION. The BAR0 register map as either host port reads and writes it: the capability block, the
doorbell region with the mailbox slots, the attention tree, the event-queue windows, the Bedrock window and
the time-base window (R43 to R52, R55, R56, R73 to R88, R550, R638). -/

namespace Sys2Proof.Machine

/-! ## Waking (R572) -/

/-- The phases of the board-facing outputs (R611). -/
inductive PinPhase where
  | u | a | r | w | run | standby | hibernate
deriving DecidableEq, Repr

/-- The phase of the outputs: unpowered, before the end of step 3, in a reset or a hold of everything but Bedrock, in a soft
or watchdog reset, or in a power state. -/
def pinPhase (s : State) : PinPhase :=
  if !s.pwr.powered then .u
  else if s.pwr.booting = some .cold && s.pwr.phase < 3 && !s.pwr.failed then .a
  else if s.br.hold.isSome || s.pwr.failed || s.pwr.booting = some .cold || s.pwr.booting = some .resetN then .r
  else if s.pwr.booting.isSome then .w
  else match s.pwr.state with
    | .run => .run
    | .standby => .standby
    | .hibernate => .hibernate

/-- A wake source fires: exit starts, or follows an entry in progress (R567). -/
def wake (s : State) (cause : Nat) : State :=
  match s.pwr.move with
  | some m => if m.entering then { s with pwr.wakePending := some cause } else s
  | none =>
    if s.pwr.state = .run then s
    else { s with pwr.move := some { entering := false, target := .run, cause := cause } }

/-! ## Doorbells (R52, R55, R56, R69, R70) -/

def ownsSlot (port : Port) (n : Nat) : Bool :=
  match port with
  | .pcie => n < 32
  | .qspi => 32 ≤ n && n < 40

def countLocked (s : State) : State := { s with mbx.lockedWrites := satAdd 16 s.mbx.lockedWrites 1 }
def countRingBusy (s : State) : State := { s with mbx.ringBusy := satAdd 16 s.mbx.ringBusy 1 }

/-- Firmware takes slot n (R54, R55): the doorbell value is kept, `busy` set, `done` cleared, `status` 0xFFFF, the
reserved word cleared; what `response_length` reads until the answer is a free value. -/
def slotTake (s : State) (n v : Nat) : State :=
  let d := drawBytes s 2
  let s1 := slotWrite (slotWrite (slotWrite d.2 n 0x08 [0xFF, 0xFF]) n 0x0A d.1) n 0x0C [0, 0, 0, 0]
  { s1 with
    mbx.db := s1.mbx.db.setIfInBounds n v
    mbx.arrival := s1.mbx.arrival ++ [n]
    mbx.heldSlots := if s1.mbx.activating then s1.mbx.heldSlots ++ [n] else s1.mbx.heldSlots
    mbx.done := s1.mbx.done &&& ~~~(BitVec.ofNat 40 (2 ^ n)) }

/-- Reject what no row of the table can run: a doorbell mismatch (R55), then an opcode that is not assigned
(R629). -/
def earlyReject (s : State) (n : Nat) : State :=
  if s.mbx.db.getD n 0 != slotSequence s n then mbxReject s n ⟨0x010A, 0xFF02, 0⟩
  else if !opcodeAssigned (slotOpcode s n) then mbxReject s n ⟨0x0101, 0xFF00, 0⟩
  else s

/-- A command held for new firmware whose opcode no row of the table has is answered when its turn comes, in arrival order
(R66, R70). -/
def answerUnassigned (s : State) : State :=
  s.mbx.arrival.foldl (fun s m =>
    if !opcodeAssigned (slotOpcode s m) && mbxTurn s (slotOpcode s m) m then earlyReject s m else s) s

/-- A doorbell write for slot n with a value, from a port. -/
def ringDoorbell (s : State) (port : Port) (n v : Nat) : State :=
  if !ownsSlot port n then countLocked s
  else if !s.mbx.ready || s.mbx.arrival.contains n then countRingBusy s
  else
    let s1 := slotTake s n (v % 2 ^ 16)
    if s1.mbx.heldSlots.contains n then s1 else earlyReject s1 n

/-- A write of bytes inside the slot regions, `off` counted from slot 0 (R52, R56, R69). -/
def slotHostWrite (s : State) (port : Port) (off : Nat) (bs : List Byte) : State :=
  let n := off / 512
  if !ownsSlot port n || !s.mbx.ready || s.mbx.arrival.contains n then countLocked s
  else { s with mbx.slots := memPutBytes s.mbx.slots off bs }

/-! ## Event-queue windows (R81 to R87) -/

/-- The 32 bytes of a record (R79). -/
def recordBytes (r : EvRecord) : List Byte :=
  leBytes 8 r.ts ++ leBytes 2 r.code ++ leBytes 2 r.source ++ leBytes 2 r.origin ++
    leBytes 2 (boolNat r.gap + 2 * boolNat r.classS + 4 * boolNat r.remote + 8 * boolNat r.cont +
      256 * r.recSeq) ++ pad16 r.payload

/-- Latch the record at `rd` into the port (R82). -/
def Queue.latch (q : Queue) : Queue :=
  if q.rd == q.wr then { q with port := List.replicate 32 0, portPos := q.rd, portValid := false }
  else { q with
    port := recordBytes (q.recs.getD (q.rd - q.rel).toNat {})
    portPos := q.rd
    portValid := true }

/-- The advance at the last word of the port (R82): once for each latched record. DEDUCED (log entry 11): a copy that has
been advanced over is not advanced over again; and in max(rd + 1, rel) `rd` is the latched position, also after an
overwrite (R85) or a bank loss (R588) that has itself moved `rd`, so that no record is passed over unread. -/
def Queue.advance (q : Queue) : Queue :=
  if !q.portValid then q
  else
    let next := q.portPos + 1
    Queue.skipLost { q with rd := if 0 < (q.rel - next).toInt then q.rel else next, portValid := false }

/-- A write to `EQ_CTRL` (R83): rewind first, then mark. -/
def Queue.control (q : Queue) (v : Nat) : Queue :=
  let q1 := if v.testBit 1 then
      Queue.skipLost { q with rd := q.mark, port := List.replicate 32 0, portValid := false } else q
  let q2 := if v.testBit 0 then { q1 with mark := q1.rd } else q1
  { q2 with ctrl := v % 4 }

/-- A write to `EQ_RELEASE` (R84). -/
def Queue.releaseTo (q : Queue) (v : BitVec 32) : Queue :=
  let q := { q with release := v }
  if 0 < (v - q.rd).toInt then { q with badctl := sat32 q.badctl 1 }
  else if 0 < (v - q.rel).toInt then
    { q with
      recs := q.recs.drop (v - q.rel).toNat
      mark := if 0 < (v - q.mark).toInt then v else q.mark
      rel := v }
  else q

/-- `wm_level` set (R88). DESIGN CHOICE (log entry 10): the setting again that a clear of `wm_hit` left to the next record
(R86) is dropped where the level is below the new value. -/
def Queue.setWm (q : Queue) (wm : Nat) : Queue := { q with wm := wm, rearm := q.rearm && decide (wm ≤ q.recs.length) }

/-- A clear of `wm_hit` (R86, R87). -/
def Queue.clearWm (q : Queue) : Queue :=
  { q with wmHit := false, peak := q.recs.length, rearm := decide (q.wm ≤ q.recs.length) }

def Queue.clearLost (q : Queue) : Queue := { q with lostLeaf := false }

/-- `EQ_STATUS`. -/
def Queue.status (q : Queue) : Nat := q.recs.length + boolNat q.wmHit * 2 ^ 15 + q.peak * 2 ^ 16

def updQueue (s : State) (qi : Nat) (f : Queue → Queue) : State := { s with queues := modAt s.queues qi f }

/-- A 4-byte write at an offset of a queue's block. -/
def eqWrite (s : State) (qi off v : Nat) : State :=
  if off = 0x20 then updQueue s qi (·.control v)
  else if off = 0x24 then updQueue s qi (·.releaseTo (BitVec.ofNat 32 v))
  else if off = 0x38 then (if v.testBit 15 then updQueue s qi Queue.clearWm else s)
  else s

/-- A 4-byte read at an offset of a queue's block, with what the read does (R82). -/
def eqRead (s : State) (qi off : Nat) : Nat × State :=
  let s1 := if off = 0 then updQueue s qi Queue.latch else s
  let q := s1.queues.getD qi {}
  let v :=
    if off < 0x20 then leNat ((q.port.drop off).take 4)
    else if off = 0x20 then q.ctrl
    else if off = 0x24 then q.release.toNat
    else if off = 0x28 then q.wr.toNat
    else if off = 0x2C then q.rd.toNat
    else if off = 0x30 then q.mark.toNat
    else if off = 0x34 then q.rel.toNat
    else if off = 0x38 then q.status
    else if off = 0x3C then q.lost
    else if off = 0x40 then q.wm
    else if off = 0x44 then q.badctl
    else 0
  (v, if off = 0x1C then updQueue s1 qi Queue.advance else s1)

/-! ## The attention window (R73 to R78) -/

/-- Clear the queues' `wm_hit` or lost leaves that a W1C value names, bit q for queue `base + q`. -/
def clearQueues (s : State) (base : Nat) (count : Nat) (v : Nat) (f : Queue → Queue) : State :=
  { s with queues := s.queues.mapIdx fun i q =>
      if base ≤ i && i < base + count && v.testBit (i - base) then f q else q }

/-- A W1C write to cause register b (R76, R78, R87). -/
def causeClear (s : State) (b v : Nat) : State :=
  if b = 0 then { s with mbx.done := s.mbx.done &&& ~~~(BitVec.ofNat 40 (v % 2 ^ 32)) }
  else if b = 2 then s
  else if b = 29 then clearQueues s 0 4 v Queue.clearWm
  else if b = 31 then clearQueues s 0 4 v Queue.clearLost
  else { s with attn.cause := modAt s.attn.cause b (· &&& ~~~(BitVec.ofNat 32 v)) }

/-- A W1C write to sub-cause register s of summary bit 2. -/
def subCauseClear (s : State) (sn v : Nat) : State :=
  clearQueues (clearQueues s (4 + 3 * sn) 3 v Queue.clearWm) (4 + 3 * sn) 3 (v / 16) Queue.clearLost

/-- A W1C write to `MBX_DONE_Q`. -/
def doneQClear (s : State) (v : Nat) : State :=
  { s with mbx.done := s.mbx.done &&& ~~~(BitVec.ofNat 40 ((v % 256) * 2 ^ 32)) }

/-- A 4-byte write at an offset of the attention window, without the further MSI-X message. -/
def attnStore (s : State) (off v : Nat) : State :=
  if off = 4 then { s with attn.mask := BitVec.ofNat 32 v ||| 0x1F800000 }
  else if 0x100 ≤ off && off < 0x300 then
    let b := (off - 0x100) / 16
    let r := off % 16
    if 23 ≤ b && b ≤ 28 then s
    else if r = 0 then causeClear s b v
    else if r = 4 then { s with attn.cmask := modAt s.attn.cmask b fun _ => BitVec.ofNat 32 v }
    else if b = 0 && r = 8 then doneQClear s v
    else if b = 0 && r = 12 then { s with attn.cmask2 := BitVec.ofNat 32 v ||| 0xFFFFFF00 }
    else s
  else if 0x1100 ≤ off && off < 0x1140 then
    let k := (off - 0x1100) / 16
    if off % 16 = 0 then subCauseClear s k v
    else if off % 16 = 4 then
      { s with attn.submask := modAt s.attn.submask k fun _ => BitVec.ofNat 32 v }
    else s
  else s

/-- Whether an offset of the attention window is a W1C leaf register or a mask. `ATTN_CAUSE_2` leads to sub-cause
registers only (R78), and `ATTN_CAUSE_19` has no leaves (R630). -/
def attnLeafOrMask (off : Nat) : Bool :=
  off == 4 || (0x100 ≤ off && off < 0x300 && !(0x270 ≤ off && off < 0x2D0) &&
    (off % 16 == 0 && off != 0x120 && off != 0x230 || off % 16 == 4 || off == 0x108 || off == 0x10C)) ||
  (0x1100 ≤ off && off < 0x1140 && (off % 16 == 0 || off % 16 == 4))

/-- A host write in the attention window (R74). DEDUCED: a write that itself turns the INT_N source active sends the
message of that transition and then the further message, for the source is still active after the write (log entry
173). -/
def attnWrite (s : State) (off v : Nat) : State :=
  let s1 := attnEdge s (attnStore s off v)
  if attnLeafOrMask off then attnResend s1 else s1

/-- A read in the attention window. -/
def attnRead (s : State) (off : Nat) : Nat :=
  if off = 0 then (attnSummary s).toNat
  else if off = 4 then s.attn.mask.toNat
  else if off = 8 then (attnPending s).toNat
  else if 0x100 ≤ off && off < 0x300 then
    let b := (off - 0x100) / 16
    let r := off % 16
    if 23 ≤ b && b ≤ 28 then 0
    else if r = 0 then (attnCause s b).toNat
    else if r = 4 then (s.attn.cmask.getD b 0).toNat
    else if b = 0 && r = 8 then (attnCause2 s).toNat
    else if b = 0 && r = 12 then s.attn.cmask2.toNat
    else 0
  else if 0x1100 ≤ off && off < 0x1140 then
    let k := (off - 0x1100) / 16
    if off % 16 = 0 then (subCause s k).toNat
    else if off % 16 = 4 then (s.attn.submask.getD k 0).toNat else 0
  else 0

/-! ## The doorbell region (R55 to R57, R69, R581) -/

/-- `MBX_STATE`. -/
def mbxState (s : State) : Nat :=
  boolNat s.mbx.ready + 2 * boolNat s.mbx.staged + 4 * boolNat s.mbx.activating +
    256 * (s.mbx.heldSlots.length % 256) + 2 ^ 24 * s.mbx.epoch.toNat

/-- `BOOT_STATUS` (R581). -/
def bootStatus (s : State) : Nat :=
  s.pwr.phase % 16 + 16 * boolNat s.pwr.failed + 2 ^ 8 * (s.pwr.cause % 256) + 2 ^ 16 * (s.pwr.channel % 16) +
    2 ^ 20 * (s.pwr.byteLane % 2) + 2 ^ 21 * (s.pwr.bootSlot % 4)

def busyMask (s : State) : Nat :=
  packBits ((List.range 40).map fun n => s.mbx.arrival.contains n)

def doorbellRead (s : State) (off : Nat) : Nat :=
  if off < 0xA0 then s.mbx.db.getD (off / 4) 0
  else if off = 0x100 then busyMask s % 2 ^ 32
  else if off = 0x104 then busyMask s / 2 ^ 32
  else if off = 0x108 then (attnCause s 0).toNat
  else if off = 0x10C then (attnCause2 s).toNat
  else if off = 0x110 then mbxState s
  else if off = 0x114 then s.mbx.ringBusy + 2 ^ 16 * s.mbx.lockedWrites
  else if off = 0x118 then s.mbx.discarded
  else if off = 0x120 then bootStatus s
  else if off = 0x124 then s.pwr.wakeKey.toNat
  else 0

/-- A write to `PWR_WAKE` (R572). -/
def wakeKeyWrite (s : State) (v : Nat) : State :=
  let s1 := { s with pwr.wakeKey := BitVec.ofNat 32 v }
  if v = 0x57414B45 then wake s1 1 else s1

def doorbellWrite (s : State) (port : Port) (off v : Nat) : State :=
  if off < 0xA0 then ringDoorbell s port (off / 4) v
  else if off = 0x108 then causeClear s 0 v
  else if off = 0x10C then doneQClear s v
  else if off = 0x124 then wakeKeyWrite s v
  else s

/-! ## The Bedrock window (R34, R546, R550) -/

/-- `BR_STATE`. -/
def brState (s : State) : Nat :=
  boolNat s.br.fallback + 2 * boolNat s.br.ploss + 4 * boolNat s.br.flintGate + 8 * boolNat s.br.testEn +
    2 ^ 4 * packBits s.br.spwrOn + 2 ^ 8 * packBits (s.br.spwrSeq.map (· != .idle)) +
    2 ^ 12 * packBits (s.br.policy.sens.map (·.grant)) + 2 ^ 16 * (s.br.lastStop % 8) +
    2 ^ 19 * boolNat s.br.lsRestart

def railWord (r : Rail) : Nat := r.mv % 2 ^ 16 + 2 ^ 16 * boolNat r.low + 2 ^ 17 * boolNat r.high

/-- `CLK_STATUS` (R34). -/
def clkStatus (s : State) : Nat :=
  boolNat s.clk.refSel + 2 * boolNat s.clk.refclkOk + 4 * boolNat s.clk.altOk + 8 * boolNat s.clk.rootLock +
    16 * boolNat s.clk.holdover + 2 ^ 16 * ((s.clk.holdoverAt.map fun c => (((s.time.c.toNat : Int) - c) / 1228800).toNat).getD 0 % 2 ^ 16)

def bedrockRead (s : State) (off : Nat) : Nat :=
  if off = 0 then s.br.policy.polCounter
  else if off = 4 then brState s
  else if off = 0x10 then s.br.writes
  else if off = 0x14 then s.br.lockstep
  else if off = 0x18 then s.br.wdResets
  else if off = 0x1C then s.br.plossCount
  else if 0x20 ≤ off && off < 0x40 then railWord (s.br.rails.getD ((off - 0x20) / 4) {})
  else if off = 0x40 then clkStatus s
  else if off = 0x44 then s.clk.failovers
  else 0

/-- Post the notice of a Bedrock leaf with the time of its event (R79, R564), or keep it until mailboxes are ready. -/
def postNotice (s : State) (n : Notice) : State :=
  if s.mbx.ready then
    postEventAt s n.ts 0x1301 n.leaf ([BitVec.ofNat 8 n.unit, BitVec.ofNat 8 (boolNat n.entered)] ++
      leBytes 2 n.mv ++ leBytes 4 n.counter)
  else { s with br.notices := s.br.notices ++ [n] }

/-- Set a Bedrock leaf and report it (R563, R564). -/
def bedrockLeaf (s : State) (leaf unit : Nat) (entered : Bool) (mv counter : Nat) : State :=
  postNotice (setLeaf s 30 leaf) ⟨leaf, unit, entered, mv, counter, classL s⟩

/-- An ignored write to the Bedrock window (R546, R563). -/
def bedrockWrite (s : State) : State :=
  let s1 := { s with br.writes := sat32 s.br.writes 1 }
  bedrockLeaf s1 5 0xFF true 0 s1.br.writes

/-! ## The time-base window (R638) -/

def DomState.code : DomState → Nat
  | .off => 0 | .acquiring => 1 | .settling => 2 | .locked => 3 | .holdover => 4 | .fault => 5

def baseCode : Option Nat → Nat
  | none => 2
  | some d => d

/-- `TB_STATE`. -/
def tbState (s : State) : Nat :=
  let t := s.time
  let d (k : Nat) := (t.doms.getD k {}).state.code
  let refPhase := if t.cadences.any (·.phase == 1) then 1 else if t.cadences.any (·.phase == 2) then 2 else 0
  baseCode t.viewS.base + 4 * baseCode t.viewL.base + 2 ^ 4 * d 0 + 2 ^ 7 * d 1 +
    2 ^ 10 * boolNat (viewDelta t.viewS t.c.toNat != 0) + 2 ^ 11 * boolNat (viewDelta t.viewL t.c.toNat != 0) +
    2 ^ 12 * boolNat t.stepWait + 2 ^ 13 * refPhase

/-- Latch the count and the views at it (R638). -/
def tbLatch (s : State) : State :=
  let c := s.time.c.toNat
  let dom (k : Nat) : Nat :=
    let d := s.time.doms.getD k {}
    if d.state = .off then 0 else time64 (domTime d c)
  { s with time.snap := [c, classS s, classL s, dom 0, dom 1] }

def saturate32 (v : Int) : Int := clampInt v (-(2 ^ 31)) (2 ^ 31 - 1)

/-- θ in whole ns from 2^-48 s, toward zero. -/
def thetaNs (t : Int) : Int := saturate32 ((t * 1000000000).tdiv (2 ^ 48))

/-- Latch a domain's block (R638); it reads 0 while the domain is off. -/
def tbBlockLatch (s : State) (k : Nat) : State :=
  let d := s.time.doms.getD k {}
  let blk := if d.state = .off then [0, 0, 0, 0, 0, 0]
    else [d.ofs % 2 ^ 96, unsigned 32 d.rate, d.anchor, unsigned 32 (thetaNs d.theta), unsigned 32 d.pathNs, d.meas]
  { s with time.blocks := modAt s.time.blocks k fun _ => blk }

/-- A domain block's 4-byte word at an offset, from its latched values. -/
def tbBlockWord (blk : List Nat) (r : Nat) : Nat :=
  let g (k : Nat) := blk.getD k 0
  (if r = 0 then g 0 else if r = 4 then g 0 / 2 ^ 32 else if r = 8 then g 0 / 2 ^ 64
   else if r = 12 then g 1 else if r = 16 then g 2 else if r = 20 then g 2 / 2 ^ 32
   else if r = 24 then g 3 else if r = 28 then g 4 else if r = 32 then g 5 else 0) % 2 ^ 32

/-- A 4-byte word of the time-base window after any latching; a domain that is off reads 0 (R638). -/
def tbWord (s : State) (off : Nat) : Nat :=
  if off < 0x28 then
    if 0x18 ≤ off && (s.time.doms.getD (off / 8 - 3) {}).state = .off then 0
    else (s.time.snap.getD (off / 8) 0 / 2 ^ (8 * (off % 8))) % 2 ^ 32
  else if off = 0x28 then tbState s
  else if 0x100 ≤ off && off < 0x180 then
    let k := (off - 0x100) / 0x40
    if (s.time.doms.getD k {}).state = .off then 0
    else tbBlockWord (s.time.blocks.getD k []) ((off - 0x100) % 0x40)
  else if 0x1000 ≤ off && off < 0x10C0 then
    let p := (off - 0x1000) / 16
    let r := off % 16
    ((if r < 8 then s.time.rx.getD p 0 else s.time.tx.getD p 0) / 2 ^ (8 * (r % 8))) % 2 ^ 32
  else 0

/-- What a 4-byte read of the time-base window latches first. -/
def tbTouch (s : State) (off : Nat) : State :=
  if off = 0 then tbLatch s
  else if off = 0x100 then tbBlockLatch s 0
  else if off = 0x140 then tbBlockLatch s 1
  else s

/-! ## The whole map (R46, R50, R51) -/

/-- A 4-byte read of BAR0 at a multiple of 4, with what the read does. -/
def bar0Read4 (s : State) (addr : Nat) : Nat × State :=
  if addr < 0x14 then
    (match addr / 4 with
      | 0 => capPart s.fuse
      | 1 => capUnits s.fuse
      | 2 => capIo s.fuse s.pwr.dramGib
      | 3 => capRate s.fuse
      | _ => s.pwr.capFw.toNat, s)
  else if 0x1000 ≤ addr && addr < 0x2000 then (doorbellRead s (addr - 0x1000), s)
  else if 0x10000 ≤ addr && addr < 0x15000 then (memLE s.mbx.slots (addr - 0x10000) 4, s)
  else if 0x20000 ≤ addr && addr < 0x21400 then (attnRead s (addr - 0x20000), s)
  else if 0x30000 ≤ addr && addr < 0x31000 then eqRead s ((addr - 0x30000) / 256) (addr % 256)
  else if 0x40000 ≤ addr && addr < 0x50000 then (bedrockRead s (addr - 0x40000), s)
  else if 0x100000 ≤ addr && addr < 0x200000 then
    let s1 := tbTouch s (addr - 0x100000)
    (tbWord s1 (addr - 0x100000), s1)
  else (0, s)

/-- A 4-byte write of BAR0 at a multiple of 4. -/
def bar0Write4 (s : State) (port : Port) (addr v : Nat) : State :=
  if 0x1000 ≤ addr && addr < 0x2000 then doorbellWrite s port (addr - 0x1000) v
  else if 0x10000 ≤ addr && addr < 0x15000 then slotHostWrite s port (addr - 0x10000) (leBytes 4 v)
  else if 0x20000 ≤ addr && addr < 0x21400 then attnWrite s (addr - 0x20000) v
  else if 0x30000 ≤ addr && addr < 0x31000 then eqWrite s ((addr - 0x30000) / 256) (addr % 256) v
  else if 0x40000 ≤ addr && addr < 0x50000 then bedrockWrite s
  else s

/-- The alignment an access of a size needs inside the slot regions: its size rounded up to a power of two. -/
def slotAlign (size : Nat) : Nat := if size ≤ 1 then 1 else if size ≤ 2 then 2 else if size ≤ 4 then 4 else 8

def inSlots (addr : Nat) : Bool := 0x10000 ≤ addr && addr < 0x15000

/-- Whether BAR0 accepts an access of a size at an address (R46). -/
def bar0Accepts (addr size : Nat) : Bool :=
  addr + size ≤ 0x200000 &&
  if inSlots addr then 1 ≤ size && size ≤ 8 && addr % slotAlign size == 0
  else (size == 4 || size == 8) && addr % size == 0

/-- A host write to BAR0 (R46): 8 bytes act as two writes of 4, the lower address first. -/
def bar0Write (s : State) (port : Port) (addr : Nat) (bs : List Byte) : State :=
  if !bar0Accepts addr bs.length then s
  else if bs.length = 4 then bar0Write4 s port addr (leNat bs)
  else if bs.length = 8 then
    bar0Write4 (bar0Write4 s port addr (leNat (bs.take 4))) port (addr + 4) (leNat (bs.drop 4))
  else slotHostWrite s port (addr - 0x10000) bs

/-- A host read of BAR0; the time-base window is read atomically (R46, R638). -/
def bar0Read (s : State) (addr size : Nat) : List Byte × State :=
  if !bar0Accepts addr size then (List.replicate size 0, s)
  else if size = 4 then
    let r := bar0Read4 s addr
    (leBytes 4 r.1, r.2)
  else if size = 8 then
    let r := bar0Read4 s addr
    let r2 := bar0Read4 r.2 (addr + 4)
    (leBytes 4 r.1 ++ leBytes 4 r2.1, r2.2)
  else (memBytes s.mbx.slots (addr - 0x10000) size, s)

end Sys2Proof.Machine
end

