-- ==== Sys2Proof/Machine/Alloc.lean ====
section
/-! DEFINITION. DRAM addressing and allocation (R501, R502, R513, R515, R636), check codes (R93), and the
Quarry ledger's append with its events (R595, R596, R599, R600). -/

namespace Sys2Proof.Machine

/-! ## Addressing -/

def log2Channels (f : Fuse) : Nat := if f.pkgM then 3 else 4

/-- The channel of a device address (R501). -/
def dramChannelOf (f : Fuse) (a : Nat) : Nat :=
  let u := a / 256
  (u ^^^ (u / 16) ^^^ (u / 256)) % 2 ^ log2Channels f

/-- The channel-local offset of a device address (R501). -/
def dramOffset (f : Fuse) (a : Nat) : Nat := (a / 256 / 2 ^ log2Channels f) * 256 + a % 256

/-- Ranks of each channel (R499). -/
def ranksOf (f : Fuse) : Nat :=
  if f.dualRank && f.bondedGib * 8 / dramChannels f = 32 then 2 else 1

/-- 0 for 8 Gb, 1 for 16 Gb, 2 for 32 Gb per die (R499, `MEM_STATUS`). -/
def densityCode (f : Fuse) : Nat :=
  match f.bondedGib * 8 / dramChannels f / ranksOf f with
  | 8 => 0 | 16 => 1 | _ => 2

/-- Installed capacities that R14 and R499 allow. -/
def capacityOk (f : Fuse) : Bool :=
  if f.pkgM then [8, 16, 32].contains f.bondedGib else [16, 32, 64].contains f.bondedGib

/-- The rank of a device address: the high bits of its channel-local offset (R501). -/
def dramRankOf (f : Fuse) (a : Nat) : Nat := dramOffset f a / (dramBytes f / 2 ^ log2Channels f / ranksOf f)

/-- What the mode registers of the fitted DRAM report (R499). -/
def fittedModes (f : Fuse) : RankModes :=
  ⟨true, f.bondedGib * 8 / dramChannels f / ranksOf f, ranksOf f⟩

/-- The 32-byte burst an address lies in. -/
def burstOf (a : Nat) : Nat := a / 32 * 32

/-- Change one channel's state. -/
def updChannel (s : State) (c : Nat) (f : DramChannel → DramChannel) : State :=
  { s with mem.channels := modAt s.mem.channels c f }

/-- Bytes of DRAM written by a client: the burst's poison goes once it is written whole (R515). -/
def dramWrite (s : State) (a : Nat) (bs : List Byte) : State :=
  { s with
    dram := memPutBytes s.dram a bs
    mem.poison := s.mem.poison.filter fun p => !(a ≤ p && p + 32 ≤ a + bs.length) }

def dramRead (s : State) (a n : Nat) : List Byte := memBytes s.dram a n

/-- Whether a range of device addresses holds a poisoned burst. -/
def poisonedRange (s : State) (a n : Nat) : Bool := s.mem.poison.any fun p => p < a + n && a < p + 32

/-- Poisoned bursts inside a range of addresses. -/
def poisonIn (s : State) (a n : Nat) : List Nat := s.mem.poison.filter fun p => p < a + n && a < p + 32

/-! ## Training and repair (R503 to R505, R516) -/

/-- The widest run of passing positions, the first of several: where it starts and its width. -/
def widestEye : List Bool → Nat → Nat → Nat × Nat → Nat × Nat
  | [], _, _, best => best
  | false :: l, pos, _, best => widestEye l (pos + 1) 0 best
  | true :: l, pos, run, best =>
    widestEye l (pos + 1) (run + 1) (if best.2 < run + 1 then (pos - run, run + 1) else best)

def eyeOf (l : List Bool) : Nat × Nat := widestEye l 0 0 (0, 0)

/-- A byte lane after its sweeps: each delay at the centre of the widest eye (R503). -/
def trainedLane (x : LaneSweep) : DqLane :=
  let r := eyeOf x.read
  let w := eyeOf x.write
  { readEye := r.2, writeEye := w.2, readDelay := r.1 + r.2 / 2, writeDelay := w.1 + w.2 / 2 }

/-- A reading's value for a byte lane. -/
def dqValue (r : DqReading) (l : Nat) : Int := if l = 0 then r.lane0 else r.lane1

/-- A channel's lanes after training, with the oscillators of its ranks saved (R503, R505). -/
def trainChannel (t : ChannelTraining) (c : DramChannel) : DramChannel :=
  { c with
    lanes := (List.range 2).map fun l => trainedLane (t.sweeps.getD l ⟨[], []⟩)
    ranks := c.ranks.mapIdx fun r x => { x with
      osc := let o := t.osc.getD r ⟨0, 0⟩
             [o.lane0, o.lane1] } }

/-- How far a reading says that a byte lane's delays have drifted from where they are (R505). -/
def oscDrift (c : DramChannel) (rank l : Nat) (x : DqLane) (o : DqReading) : Int :=
  dqValue o l - (c.ranks.getD rank {}).osc.getD l 0 - x.steps

/-- On exit from a low-power state a byte lane whose drift exceeds 4 steps for some rank is trained again (R505). -/
def retrainChannel (f : Fuse) (t : ChannelTraining) (c : DramChannel) : DramChannel :=
  let far (l : Nat) (x : DqLane) : Bool :=
    (List.range (ranksOf f)).any fun r => 4 < (oscDrift c r l x (t.osc.getD r ⟨0, 0⟩)).natAbs
  let again := c.lanes.mapIdx far
  { c with
    lanes := c.lanes.mapIdx fun l x => if again.getD l false then trainedLane (t.sweeps.getD l ⟨[], []⟩) else x
    ranks := c.ranks.mapIdx fun r x => { x with
      osc := x.osc.mapIdx fun l v => if again.getD l false then dqValue (t.osc.getD r ⟨0, 0⟩) l else v } }

/-- The row of the reserve that the next remapped row of a channel is copied into (R516). DESIGN CHOICE (log entry 226): the
lowest that is free. -/
def freeReserveRow (rows : List DramRow) : Nat :=
  ((List.range (rows.length + 1)).find? fun n => !(rows.any fun r => r.into == n)).getD 0

/-- The table of a channel with entries for some rows, each with a row of the reserve. -/
def remapRows (rows : List DramRow) : List DramRow :=
  rows.foldl (fun t r => t ++ [{ r with into := freeReserveRow t }]) []

/-! ## Allocation -/

/-- Insert a range in address order. -/
def insertRegion (r : Region) : List Region → List Region
  | [] => [r]
  | x :: l => if r.base < x.base then r :: x :: l else x :: insertRegion r l

/-- The lowest start, at or above `cur`, of a free range of `size` bytes before `limit`, aligned. -/
def firstFit (align size limit : Nat) : Nat → List Region → Option Nat
  | cur, [] =>
    let a := (cur + align - 1) / align * align
    if a + size ≤ limit then some a else none
  | cur, r :: l =>
    let a := (cur + align - 1) / align * align
    if a + size ≤ r.base && a + size ≤ limit then some a
    else firstFit align size limit (max cur (r.base + r.size)) l

/-- The largest free range below the remap reserve, in bytes. -/
def largestFree (limit : Nat) : Nat → List Region → Nat
  | cur, [] => limit - cur
  | cur, r :: l => max (r.base - cur) (largestFree limit (max cur (r.base + r.size)) l)

/-- Where the device's own DRAM starts: the Media Gate's staging area of 1 GiB, then the firmware's area, which ends in
segment 7 (R329, R574). DESIGN CHOICE (log entry 13): both lie directly below the remap reserve. -/
def deviceBase (s : State) : Nat := dramUsable s.fuse - s.mem.fwArea - 2 ^ 30

/-- Free MiB as `err_info` reports them (R636). -/
def freeMib (s : State) : Nat := largestFree (deviceBase s) 0 s.mem.regions / 2 ^ 20

/-- Where an allocation would go: 256-byte units, lowest free addresses (R501, R513). -/
def allocBase (s : State) (size : Nat) : Option Nat := firstFit 256 size (deviceBase s) 0 s.mem.regions

/-- Allocate a range for an object; no change where none fits. -/
def alloc (s : State) (obj : DramObj) (size : Nat) : Nat × State :=
  match allocBase s size with
  | some a => (a, { s with mem.regions := insertRegion ⟨obj, a, size⟩ s.mem.regions })
  | none => (0, s)

/-- Release every range of an object. -/
def release (s : State) (obj : DramObj) : State :=
  { s with mem.regions := s.mem.regions.filter fun r => r.obj != obj }

def regionOf (s : State) (obj : DramObj) : Option Region := s.mem.regions.find? fun r => r.obj == obj

/-- The state in which an allocation's object has first been released, as a command that replaces it sees. -/
def allocFits (s : State) (frees : List DramObj) (size : Nat) : Bool :=
  (allocBase (frees.foldl release s) size).isSome

/-- A host address range inside installed capacity and outside the remap reserve. -/
def hostRangeOk (s : State) (a n : Nat) : Bool := a + n ≤ dramUsable s.fuse

/-- Whether a range lies wholly in the segments Hibernate keeps (R513). -/
def keptRange (s : State) (a n : Nat) : Bool :=
  let seg := dramBytes s.fuse / 8
  n == 0 || (List.range 8).all fun k =>
    a + n ≤ k * seg || (k + 1) * seg ≤ a || k == 7 || s.mem.keep.testBit k

/-- Bytes of the allocations inside and outside the keep region (`MEM_KEEP`). -/
def keptBytes (s : State) (keep : Nat) : Nat × Nat :=
  let seg := dramBytes s.fuse / 8
  s.mem.regions.foldl (fun acc r =>
    let inside := (List.range 8).foldl (fun t k =>
      if k == 7 || keep.testBit k then
        t + (min (r.base + r.size) ((k + 1) * seg) - max r.base (k * seg)) else t) 0
    (acc.1 + inside, acc.2 + (r.size - inside))) (0, 0)

/-! ## Check codes -/

/-- One step of a reflected CRC over 8 bits. -/
def crcBits (poly : Nat) : Nat → Nat → Nat
  | 0, c => c
  | k + 1, c => crcBits poly k (if c.testBit 0 then (c / 2) ^^^ poly else c / 2)

def crcByte (poly : Nat) (c : Nat) (b : Byte) : Nat := crcBits poly 8 (c ^^^ b.toNat)

/-- CRC-32C: reflected polynomial 0x82F63B78, initial value and final XOR all ones (R93). -/
def crc32c (bs : List Byte) : Nat := (bs.foldl (crcByte 0x82F63B78) 0xFFFFFFFF) ^^^ 0xFFFFFFFF

/-! ## The Quarry ledger -/

/-- Entries one half holds (R595). -/
def ledgerCapacity : Nat := 15232

/-- The first 28 bytes of an entry, then its check code (R595). -/
def ledgerBody (e : LedgerEntry) : List Byte :=
  leBytes 1 e.cls ++ leBytes 1 e.event ++ leBytes 1 e.cause ++ [0] ++ leBytes 2 e.index ++ leBytes 2 e.bank ++
    leBytes 8 e.time ++ leBytes 8 e.detail ++ leBytes 4 e.count
def ledgerBytes (e : LedgerEntry) : List Byte := ledgerBody e ++ leBytes 4 (crc32c (ledgerBody e))

/-- Whether two entries concern one resource. -/
def sameResource (a b : LedgerEntry) : Bool :=
  a.cls == b.cls && a.index == b.index && a.bank == b.bank && (a.cls != 7 || a.detail == b.detail)

/-- The latest entry of each resource whose latest entry leaves it retired, spared or remapped (R596). -/
def ledgerOpen : List LedgerEntry → List LedgerEntry
  | [] => []
  | e :: l =>
    if l.any (sameResource e) then ledgerOpen l
    else if e.event ≤ 1 then e :: ledgerOpen l else ledgerOpen l

/-- The 16 bytes `EV_SPARE` shows of an entry (R600). -/
def sparePayload (e : LedgerEntry) : List Byte := (ledgerBody e).take 8 ++ leBytes 8 e.detail

/-- Post `EV_SPARE` for an entry and set its class's leaf (R599, R600). -/
def spareEvent (s : State) (e : LedgerEntry) : State :=
  notify s 0x1501 e.cls (sparePayload e) (if e.cls = 0 then 8 else e.cls - 1)

/-- The header of a half: its magic, version 1, its generation and the die (R595); the bytes after it are 0. -/
def halfHead (qgen die : Nat) : List Byte := leBytes 4 0x52525551 ++ leBytes 2 1 ++ [0, 0] ++ leBytes 8 qgen ++ leBytes 8 die

/-- The check code of a sector's first 0xFFC bytes, of which those after `head` are 0. -/
def sectorCrc (head : List Byte) : Nat := crc32c (head ++ List.replicate (0xFFC - head.length) 0)

/-- A half with a new header. -/
def newHalf (qgen die : Nat) (entries : List LedgerEntry) : LedgerHalf :=
  { head := halfHead qgen die, crc := sectorCrc (halfHead qgen die), entries := entries.map ledgerBytes }

def halfValid (h : LedgerHalf) : Bool :=
  fld h.head 0 4 == 0x52525551 && fld h.head 4 2 == 1 && h.crc == sectorCrc h.head
def halfGen (h : LedgerHalf) : Nat := fld h.head 8 8

/-- The half that boot uses: valid, of the higher generation (R596). -/
def chosenHalf (x : Spares) : Option Nat :=
  let a := x.halves.getD 0 {}
  let b := x.halves.getD 1 {}
  if halfValid a && (!halfValid b || halfGen b ≤ halfGen a) then some 0 else if halfValid b then some 1 else none

/-- An entry's fields; a torn write is ignored for its check code (R595, R596). -/
def entryOf (b : List Byte) : Option LedgerEntry :=
  if b.length = 32 && fld b 0x1C 4 == crc32c (b.take 28) then
    some ⟨fld b 0 1, fld b 1 1, fld b 2 1, fld b 4 2, fld b 6 2, fld b 8 8, fld b 0x10 8, fld b 0x18 4⟩
  else none

/-- The ledger as the flash holds it (R596); one of another die is ignored, and a fresh one started in half 0 (R597). -/
def readLedger (f : Fuse) (x : Spares) : Spares :=
  match (chosenHalf x).map fun k => (k, x.halves.getD k {}) with
  | some (k, h) =>
    if fld h.head 0x10 8 = f.dieId then
      { x with ledger := h.entries.filterMap entryOf, qgen := halfGen h, half := k, ledgerFault := false }
    else { x with ledger := [], qgen := 0, half := 0, halves := [newHalf 0 f.dieId [], {}], ledgerFault := false }
  | none => { x with ledger := [], qgen := 0, half := 0, halves := [newHalf 0 f.dieId [], {}], ledgerFault := false }

/-- Append an entry (R596); when the half is full, the open state goes into the other with the next generation, and the full half
is erased. A write that fails leaves the flash as it is, and the ledger in memory alone until the next soft reset. -/
def ledgerAppend (s : State) (e : LedgerEntry) : State :=
  let x := s.spare
  let cur := x.halves.getD x.half {}
  let full := ledgerCapacity ≤ max x.ledger.length cur.entries.length
  let next := if full then 1 - x.half else x.half
  let qgen := if full then x.qgen + 1 else x.qgen
  let l := (if full then ledgerOpen x.ledger else x.ledger) ++ [e]
  let s1 := { s with
    spare.ledger := l
    spare.qgen := qgen
    spare.half := next }
  if x.ledgerFault then s1
  else if x.flashOk then
    { s1 with spare.halves :=
        if full then (x.halves.set next (newHalf qgen s.fuse.dieId l)).set x.half {}
        else x.halves.set next { cur with entries := cur.entries ++ [ledgerBytes e] } }
  else
    spareEvent { s1 with spare.ledgerFault := true }
      ⟨0, 6, 0, 0, 0, 0, 0x10000 + next * 491520 + 4096 + 32 * (l.length - 1), 0⟩

/-- Report a spare event and record it (R596, R600). -/
def spareRecord (s : State) (cls event cause index bank detail count : Nat) : State :=
  let e : LedgerEntry := ⟨cls, event, cause, index, bank, classL s, detail, count⟩
  ledgerAppend (spareEvent s e) e

/-- Count a substitution of a class. -/
def countSubst (s : State) (cls : Nat) : State :=
  { s with spare.substitutions := modAt s.spare.substitutions (cls - 1) (sat32 · 1) }

/-- A client has handled a poisoned burst (R594, R600). -/
def poisonHandled (s : State) (addr : Nat) : State :=
  let bank := ((s.mem.poisonBanks.find? fun p => p.1 == addr).map (·.2)).getD 0
  spareEvent { s with spare.poisonHandled := sat32 s.spare.poisonHandled 1 }
    ⟨7, 5, 0, dramChannelOf s.fuse addr, dramRankOf s.fuse addr * 4096 + bank, 0, addr, 0⟩

end Sys2Proof.Machine
end

