-- ==== Sys2Proof/Machine/F24.lean ====
section
/-! DEFINITION. F24 and binary16 arithmetic (R181 to R184, R207), and the fixed-point functions from which the
device's built tables are made. An F24 value is held as its 24-bit code; its exact value is an integer count of
2^-78. -/

namespace Sys2Proof.Machine

/-- The quotient of two naturals rounded to nearest, ties to even. -/
def roundEven (n d : Nat) : Nat :=
  let q := n / d
  let r := 2 * (n % d)
  if r < d then q else if d < r then q + 1 else q + q % 2

/-- The same for an integer. -/
def roundEvenInt (n : Int) (d : Nat) : Int :=
  if n < 0 then -(roundEven n.natAbs d : Int) else roundEven n.natAbs d

namespace F24

def one : Nat := 0x3F0000
def maxPos : Nat := 0x7FFFFF

/-- A code's value in units of 2^-78 (R181); code 0x800000 reads as 0 (R182). -/
def val (c : Nat) : Int :=
  let e := c / 65536 % 128
  let f := c % 65536
  let m : Nat := if e = 0 then f else (65536 + f) * 2 ^ (e - 1)
  if c.testBit 23 then -(m : Int) else m

/-- The code of an integer mantissa `q` times 2^k units, `q` at most 2^17. -/
def pack (q k : Nat) : Nat :=
  if q < 65536 then q
  else if q = 131072 then (if 125 < k then maxPos else (k + 2) * 65536)
  else if 126 < k then maxPos
  else (k + 1) * 65536 + (q - 65536)

/-- Round n / d units of 2^-78 to F24 (R183): nearest, ties to even, saturating, zero always +0. -/
def round (n : Int) (d : Nat) : Nat :=
  let a := n.natAbs
  let k := Nat.log2 (a / d) - 16
  let c := pack (roundEven a (d * 2 ^ k)) k
  if n < 0 && c != 0 then c + 0x800000 else c

def ofInt (n : Int) : Nat := round (n * 2 ^ 78) 1
/-- The code of n × 2^-k. -/
def ofScaled (n : Int) (k : Nat) : Nat := round (n * 2 ^ 78) (2 ^ k)

def add (a b : Nat) : Nat := round (val a + val b) 1
def sub (a b : Nat) : Nat := round (val a - val b) 1
def mul (a b : Nat) : Nat := round (val a * val b) (2 ^ 78)
def neg (a : Nat) : Nat := round (-(val a)) 1
def abs (a : Nat) : Nat := round ((val a).natAbs : Int) 1
/-- 1 / a, and the largest value for 0. -/
def recip (a : Nat) : Nat :=
  let v := val a
  if v = 0 then maxPos else round (if v < 0 then -(2 ^ 156) else 2 ^ 156) v.natAbs
/-- a × 2^-k. -/
def shr (a k : Nat) : Nat := round (val a) (2 ^ k)
def lt (a b : Nat) : Bool := val a < val b
def le (a b : Nat) : Bool := val a ≤ val b
/-- Negative zero, where an operand brings it, goes on as +0 (R182). -/
def plus (a : Nat) : Nat := if a = 0x800000 then 0 else a
def max (a b : Nat) : Nat := plus (if val a < val b then b else a)
def min (a b : Nat) : Nat := plus (if val b < val a then b else a)
/-- The sum of a list, left to right, one rounding for each addition. -/
def sum : List Nat → Nat
  | [] => 0
  | a :: l => l.foldl add (plus a)

/-- The median of an odd number of values: rank (n + 1) / 2 in numeric order. -/
def median (l : List Nat) : Nat := plus ((l.mergeSort le).getD (l.length / 2) 0)

/-- A parameter word is a non-negative or signed F24 within bounds. -/
def inBounds (c lo hi : Nat) : Bool := c < 2 ^ 24 && le lo c && le c hi

/-- 2^k for an exponent between -62 and 64. -/
def pow2 (k : Int) : Nat := ((63 + k).toNat) * 65536

end F24

/-- The largest r with r^k ≤ x, by bits from `n` down. -/
def rootBits (k x : Nat) : Nat → Nat → Nat
  | 0, r => if (r + 1) ^ k ≤ x then r + 1 else r
  | n + 1, r => rootBits k x n (if (r + 2 ^ (n + 1)) ^ k ≤ x then r + 2 ^ (n + 1) else r)

/-- floor of the k-th root. -/
def rootFloor (k x : Nat) : Nat := rootBits k x (Nat.log2 x / k + 1) 0

namespace F24

/-- The k-th root of a non-negative value, rounded once from the exact root (R207): two guard bits and a
sticky bit stand for the exact remainder. -/
def root (k a : Nat) : Nat :=
  let x := (val a).toNat * 2 ^ (78 * (k - 1)) * 2 ^ (2 * k)
  let r := rootFloor k x
  round (2 * r + (if r ^ k = x then 0 else 1) : Nat) 8
def sqrt (a : Nat) : Nat := root 2 a
def cbrt (a : Nat) : Nat := root 3 a

end F24

/-! ## binary16 (R184) -/

/-- A binary16 code's value in units of 2^-24; infinities and NaNs have none. -/
def halfVal (h : Nat) : Int :=
  let e := h / 1024 % 32
  let f := h % 1024
  let m : Nat := if e = 0 then f else (1024 + f) * 2 ^ (e - 1)
  if h.testBit 15 then -(m : Int) else m

def halfFinite (h : Nat) : Bool := h / 1024 % 32 != 31

/-- binary16 to F24, exact. -/
def halfToF24 (h : Nat) : Nat := F24.round (halfVal h * 2 ^ 54) 1

/-- F24 to binary16 and whether it clamped (R184). -/
def toHalf (a : Nat) : Nat × Bool :=
  let v := F24.val a
  let m := v.natAbs
  let k := Nat.log2 (m / 2 ^ 54) - 10
  let q := roundEven m (2 ^ 54 * 2 ^ k)
  let mag := q * 2 ^ k
  let code :=
    if 65504 * 2 ^ 24 < mag then 0x7BFF
    else if q < 1024 then q
    else if q = 2048 then (k + 2) * 1024 else (k + 1) * 1024 + (q - 1024)
  (if v < 0 && code != 0 then code + 0x8000 else code, decide (65504 * 2 ^ 24 < mag))

/-! ## Fixed point with 256 fraction bits, for the tables the device builds (R213, R220, R242) -/

/-- Fraction bits. -/
def fxBits : Nat := 256
def fxOne : Nat := 2 ^ 256

/-- ln 2, from the sum of 1 / (k 2^k). -/
def fxLn2 : Nat := ((List.range 270).map fun k => fxOne / ((k + 1) * 2 ^ (k + 1))).sum

/-- π, by Machin's formula. -/
def fxAtanInv (n : Nat) : Int :=
  ((List.range 200).map fun k =>
    let t : Int := (fxOne / (n ^ (2 * k + 1) * (2 * k + 1)) : Nat)
    if k % 2 = 0 then t else -t).sum
def fxPi : Int := 4 * (4 * fxAtanInv 5 - fxAtanInv 239)

/-- The fraction bits of log2 of a number in [1, 2), by squaring. -/
def fxLog2Frac : Nat → Nat → Nat → Nat
  | 0, _, acc => acc
  | n + 1, x, acc =>
    let y := x * x / fxOne
    if 2 * fxOne ≤ y then fxLog2Frac n (y / 2) (2 * acc + 1) else fxLog2Frac n y (2 * acc)

/-- log2 of a positive fixed-point number, with 256 fraction bits. -/
def fxLog2 (x : Nat) : Int :=
  let n := Nat.log2 x
  let m := if n ≤ 256 then x * 2 ^ (256 - n) else x / 2 ^ (n - 256)
  ((n : Int) - 256) * fxOne + fxLog2Frac 256 m 0

/-- 2 to the power of a fraction, from 2^-1, 2^-2, … roots of 2. -/
def fxExp2Frac : Nat → Nat → Nat → Nat → Nat
  | 0, _, _, acc => acc
  | n + 1, f, r, acc =>
    fxExp2Frac n f (Nat.sqrt (r * fxOne)) (if f.testBit n then acc * r / fxOne else acc)

/-- 2^y of a fixed-point number, as a fixed-point number. -/
def fxExp2 (y : Int) : Nat :=
  let k := y / fxOne
  let v := fxExp2Frac 256 (y % fxOne).toNat (Nat.sqrt (2 * fxOne * fxOne)) fxOne
  if 0 ≤ k then v * 2 ^ k.toNat else v / 2 ^ (-k).toNat

/-- x to a rational power, x a positive fixed-point number. -/
def fxPow (x num den : Nat) : Nat := if x = 0 then 0 else fxExp2 (fxLog2 x * num / den)

/-- sin of a fixed-point angle of at most 4 π in magnitude, by its series after reduction by π. -/
def fxSin (x : Int) : Int :=
  let q := (x + fxPi / 2) / fxPi
  let r := x - q * fxPi
  let r2 := r * r / fxOne
  let rec go : Nat → Nat → Int → Int → Int
    | 0, _, _, acc => acc
    | n + 1, k, t, acc =>
      let t' := -(t * r2 / fxOne) / ((2 * k) * (2 * k + 1) : Nat)
      go n (k + 1) t' (acc + t')
  let v := go 40 1 r r
  if q % 2 = 0 then v else -v

end Sys2Proof.Machine
end

