-- ==== Sys2Proof/Machine/Pixel.lean ====
section
/-! DEFINITION. A photosite through the front end, demosaic and a colour engine (R123 to R125, R147 to R170,
R185 to R222), as functions of a frame, its parameters and DRAM. -/

namespace Sys2Proof.Machine

/-! ## Geometry (R106, R123, R124, R149) -/

def lineStride (c : SensConfig) : Nat := ceilDiv (2 * c.width) 256 * 256
def bitmapOffset (c : SensConfig) : Nat := c.exposures * c.height * lineStride c
def bitmapBytes (c : SensConfig) : Nat := ceilDiv (c.exposures * c.height) 2048 * 256
def embOffset (c : SensConfig) : Nat := bitmapOffset c + bitmapBytes c
def slotBytes (c : SensConfig) : Nat := ceilDiv (embOffset c + 16384) 65536 * 65536
/-- The address of word(e, y, x) of a ring slot. -/
def wordAddr (c : SensConfig) (slot e y x : Nat) : Nat :=
  c.base + slot * slotBytes c + e * c.height * lineStride c + y * lineStride c + 2 * x

def stripeCount (c : SensConfig) : Nat := ceilDiv c.width 2048
/-- First column of stripe k; stripe k ends before the first column of k + 1. -/
def stripeStart (c : SensConfig) (k : Nat) : Nat := 8 * (k * (c.width / 8) / stripeCount c)
def stripeWidth (c : SensConfig) (k : Nat) : Nat := stripeStart c (k + 1) - stripeStart c k
/-- Columns an engine colours of a stripe: its own, and one beyond each inner edge (R235). -/
def colouredColumns (c : SensConfig) (k : Nat) : Nat :=
  stripeWidth c k + boolNat (k != 0) + boolNat (k + 1 < stripeCount c)
def bandRows (c : SensConfig) : Nat := ceilDiv c.height 32
def bandLines (c : SensConfig) (b : Nat) : Nat := min 32 (c.height - 32 * b)
/-- Owned output lines of band b: first, and one past the last (R149). -/
def ownedFirst (b : Nat) : Nat := if b = 0 then 0 else 32 * b + 4
def ownedEnd (c : SensConfig) (b : Nat) : Nat := min (32 * b + 36) c.height

/-- Band time in PIPE clocks (R37). -/
def bandTime (c : SensConfig) (w l : Nat) : Nat := max (w * l) ((w + 48) * l * c.exposures / 2) + 48
/-- The stripe of greatest and of least width. -/
def widestStripe (c : SensConfig) : Nat := ((List.range (stripeCount c)).map (stripeWidth c)).foldl max 0
def narrowestStripe (c : SensConfig) : Nat := ((List.range (stripeCount c)).map (stripeWidth c)).foldl min c.width

/-- A position outside 0 to n − 1 reads its mirror image (R124, R149). -/
def mirror (n : Nat) (i : Int) : Nat :=
  if i < 0 then (-i).toNat else if (n : Int) ≤ i then (2 * (n : Int) - 2 - i).toNat else i.toNat

def lineGot (f : IngestFrame) (e y : Nat) : Bool := (f.got.getD e 0).testBit y

/-- The word an engine reads: a line not received reads `pedestal` (R108). -/
def wordAt (d : Mem) (f : IngestFrame) (e y x : Nat) : Nat :=
  match f.slot with
  | some s => if lineGot f e y then memLE d (wordAddr f.cfg s e y x) 2 else f.cfg.pedestal
  | none => f.cfg.pedestal

/-! ## Linearisation and merge (R150 to R153) -/

/-- Table entry i of an exposure. -/
def linEntry (f : IngestFrame) (e i : Nat) : Nat :=
  match f.params.lin.getD e none with
  | some c => c.vals.getD i 0
  | none => F24.ofScaled (16 * i - f.cfg.pedestal) 16

/-- Stage 1 (R150). -/
def linearise (f : IngestFrame) (e w : Nat) : Nat :=
  let i := w / 16
  let t := linEntry f e
  let d := if i < 4095 then F24.sub (t (i + 1)) (t i) else F24.sub (t 4095) (t 4094)
  F24.add (t i) (F24.shr (F24.mul d (F24.ofInt (w % 16 : Nat))) 4)

def expMerge (f : IngestFrame) (e : Nat) : ExpMerge := f.params.merge.getD e {}

/-- The variance term s[e] of R153. -/
def mergeVar (m : ExpMerge) (v : Nat) : Nat :=
  F24.mul (F24.mul m.k m.k) (F24.add m.nRead (F24.mul m.nShot (F24.max v 0)))

/-- The state of the blend over the exposures after the reference. -/
structure Blend where
  sw : Nat
  swx : Nat
  used : Nat
  excluded : Nat
deriving DecidableEq, Repr

/-- Stage 2 (R153) of the exposures' values: m, saturated, exposures excluded by the motion guard. -/
def mergeValues (f : IngestFrame) (present : Nat → Bool) (v : Nat → Nat) : Nat × Bool × Nat :=
  let es := List.range f.cfg.exposures
  if f.cfg.exposures = 1 then (v 0, F24.le (expMerge f 0).sat (v 0), 0)
  else
    let ok (e : Nat) : Bool := present e && F24.lt (v e) (expMerge f e).sat
    match es.find? ok with
    | none =>
      let r := ((es.filter present).getLast?).getD 0
      (F24.mul (expMerge f r).k (v r), true, 0)
    | some r =>
      let xr := F24.mul (expMerge f r).k (v r)
      let sr := mergeVar (expMerge f r) (v r)
      let w0 := F24.recip sr
      let g := f.params.guard
      let step (b : Blend) (e : Nat) : Blend :=
        if e ≤ r || !ok e then b
        else
          let x := F24.mul (expMerge f e).k (v e)
          let s := mergeVar (expMerge f e) (v e)
          let dd := F24.mul (F24.sub x xr) (F24.sub x xr)
          if F24.val g != 0 && F24.lt (F24.mul (F24.mul g g) (F24.add s sr)) dd then
            { b with excluded := b.excluded + 1 }
          else
            let w := F24.recip s
            { b with sw := F24.add b.sw w, swx := F24.add b.swx (F24.mul w x), used := b.used + 1 }
      let b := es.foldl step ⟨w0, F24.mul w0 xr, 1, 0⟩
      (if b.used = 1 then xr else F24.mul b.swx (F24.recip b.sw), false, b.excluded)

/-- Stage 2 at a photosite. -/
def stage2 (d : Mem) (f : IngestFrame) (x y : Nat) : Nat × Bool × Nat :=
  mergeValues f (fun e => lineGot f e y) (fun e => linearise f e (wordAt d f e y x))

/-! ## Black level (R154 to R157) -/

/-- Remove the first element that equals a value. -/
def dropOne (p : Nat → Bool) : List Nat → List Nat
  | [] => []
  | a :: l => if p a then l else a :: dropOne p l

/-- The row term of a line, and whether it was clamped (R154). -/
def rowTerm (d : Mem) (f : IngestFrame) (y : Nat) : Nat × Bool :=
  let b := f.params.black
  if b.rowCount = 0 || !lineGot f 0 y then (0, false)
  else
    let q := (List.range b.rowCount).map fun c => linearise f 0 (wordAt d f 0 y (b.rowFirst + c))
    let hi := q.foldl F24.max (q.headD 0)
    let q1 := if 4 ≤ b.rowCount then dropOne (fun a => F24.val a == F24.val hi) q else q
    let lo := q1.foldl F24.min (q1.headD 0)
    let q2 := if 4 ≤ b.rowCount then dropOne (fun a => F24.val a == F24.val lo) q1 else q1
    let row := F24.mul (F24.sum q2) (F24.recip (F24.ofInt (q2.length : Nat)))
    if F24.val b.rowLimit != 0 && F24.lt b.rowLimit (F24.abs row) then
      (if F24.lt row 0 then F24.neg b.rowLimit else b.rowLimit, true)
    else (row, false)

/-- The column term of a column (R155). -/
def colTermAt (f : IngestFrame) (x : Nat) : Nat :=
  match f.params.black.colMode with
  | 0 => 0
  | 1 => (f.params.black.table.map fun c => c.vals.getD x 0).getD 0
  | _ => f.col.getD x 0

/-- Stage 3 (R157). -/
def stage3 (d : Mem) (f : IngestFrame) (x y : Nat) : Nat :=
  F24.sub (F24.sub (stage2 d f x y).1 (rowTerm d f y).1) (colTermAt f x)

/-! ## Photosite map and defects (R158 to R164) -/

def mapStride (w : Nat) : Nat := ceilDiv (4 * w) 256 * 256
def mapBytes (w h : Nat) : Nat := h * mapStride w

/-- The map entry of a photosite; with no map, unity gain and no flags. -/
def mapEntry (d : Mem) (maps : List (Option PhotoMap)) (f : IngestFrame) (x y : Nat) : Nat :=
  match f.params.defect.map.bind fun h => maps.getD h none with
  | some m => memLE d (m.base + y * mapStride m.width + 4 * x) 4
  | none => 0x40000000

/-- Stage 4's y4 (R160). -/
def stage4 (d : Mem) (maps : List (Option PhotoMap)) (f : IngestFrame) (x y : Nat) : Nat :=
  let en := mapEntry d maps f x y
  let p := F24.mul (stage3 d f x y) (F24.ofScaled (en / 2 ^ 20 : Nat) 10)
  let q := F24.mul (F24.ofInt (signed 12 (en / 256))) f.params.defect.offsetUnit
  F24.add p q

/-- The class action of a photosite. -/
def siteAction (d : Mem) (maps : List (Option PhotoMap)) (f : IngestFrame) (x y : Nat) : Nat :=
  let cls := mapEntry d maps f x y / 16 % 16
  f.params.defect.classAction / 4 ^ cls % 4

/-- Colour index of a photosite (R185). -/
def colourIndex (m : Mosaic) (x y : Nat) : Nat :=
  m.cells.getD ((x + m.phaseX) % m.px + 8 * ((y + m.phaseY) % m.py)) 0
def roleOf (m : Mosaic) (i : Nat) : Nat := m.roles.getD i 0xFF

/-- The at most two row neighbours on one side: columns inside the frame at distances 1 to 16 (R161). -/
def sideNeighbours (f : IngestFrame) (x : Int) (idx y : Nat) (dir : Int) : List Nat :=
  ((List.range 16).filterMap fun (k : Nat) =>
    let c := x + dir * ((k : Int) + 1)
    if 0 ≤ c && c < f.cfg.width && colourIndex f.params.mosaic c.toNat y == idx then some c.toNat else none).take 2

/-- The replacement of a photosite at a position from the usable neighbours, none where there is none (R161). -/
def replacement (d : Mem) (maps : List (Option PhotoMap)) (f : IngestFrame) (l r : List Nat) (y : Nat) :
    Option Nat :=
  match l.head?, r.head? with
  | some a, some b => some (F24.shr (F24.add (stage4 d maps f a y) (stage4 d maps f b y)) 1)
  | some a, none => some (stage4 d maps f a y)
  | none, some b => some (stage4 d maps f b y)
  | none, none => none

/-- What the defect stages did at a site. -/
inductive Repair where
  | none | fixed | dynamic | unrepaired
deriving DecidableEq, Repr

/-- Stages 4 and 5 at a position of the window (R160 to R164): after static repair, and the final value, with
what was done. DESIGN CHOICE (log entry 212): a position beyond an edge takes the stage-4 value of the position it mirrors and
its own neighbours inside the frame. -/
def stage5 (d : Mem) (maps : List (Option PhotoMap)) (f : IngestFrame) (x y : Int) : Nat × Nat × Repair :=
  let X := mirror f.cfg.width x
  let Y := mirror f.cfg.height y
  let idx := colourIndex f.params.mosaic X Y
  let usable (l : List Nat) : List Nat := l.filter fun c => siteAction d maps f c Y != 2
  let l := usable (sideNeighbours f x idx Y (-1))
  let r := usable (sideNeighbours f x idx Y 1)
  let y4 := stage4 d maps f X Y
  let act := siteAction d maps f X Y
  if act = 2 then
    match replacement d maps f l r Y with
    | some v => (v, v, .fixed)
    | none => (y4, y4, .unrepaired)
  else if act = 0 && f.params.defect.mode != 0 && 3 ≤ l.length + r.length then
    let vs := (l ++ r).map fun c => stage4 d maps f c Y
    let hi := vs.foldl F24.max (vs.headD 0)
    let lo := vs.foldl F24.min (vs.headD 0)
    let p := f.params.defect
    let hot := F24.lt (F24.add (F24.add hi p.tAbs) (F24.mul p.tRel (F24.abs hi))) y4
    let cold := p.mode == 2 &&
      F24.lt y4 (F24.sub (F24.sub lo p.tAbs) (F24.mul p.tRel (F24.abs lo)))
    if hot || cold then (y4, (replacement d maps f l r Y).getD y4, .dynamic) else (y4, y4, .none)
  else (y4, y4, .none)

/-! ## Demosaic (R189 to R194) -/

/-- What demosaic reads of a frame. -/
structure Dm where
  d : Mem
  maps : List (Option PhotoMap)
  f : IngestFrame

def Dm.index (c : Dm) (p : Int × Int) : Nat :=
  colourIndex c.f.params.mosaic (mirror c.f.cfg.width p.1) (mirror c.f.cfg.height p.2)
def Dm.role (c : Dm) (p : Int × Int) : Nat := roleOf c.f.params.mosaic (c.index p)
def Dm.v (c : Dm) (p : Int × Int) : Nat := (stage5 c.d c.maps c.f p.1 p.2).2.1
/-- The balanced mosaic n (R189). -/
def Dm.n (c : Dm) (p : Int × Int) : Nat := F24.mul (c.f.params.mosaic.bal.getD (c.index p) 0) (c.v p)
/-- The balance of a role: that of the lowest index with it. -/
def Dm.balOf (c : Dm) (k : Nat) : Nat :=
  c.f.params.mosaic.bal.getD (((List.range 4).find? fun i => roleOf c.f.params.mosaic i == k).getD 0) 0

/-- Step of a direction: H, V, D, A. -/
def dirStep : Nat → Int × Int
  | 0 => (1, 0) | 1 => (0, 1) | 2 => (1, 1) | _ => (1, -1)

def windowOffsets : List Int := [-3, -2, -1, 0, 1, 2, 3]

/-- A direction's central line, and its two parallel lines (R190). -/
def dirLine (p : Int × Int) (dir : Nat) : List (Int × Int) :=
  windowOffsets.map fun j => (p.1 + j * (dirStep dir).1, p.2 + j * (dirStep dir).2)
def dirParallels (p : Int × Int) (dir : Nat) : List (List (Int × Int)) :=
  if dir = 0 then [dirLine (p.1, p.2 - 1) 0, dirLine (p.1, p.2 + 1) 0]
  else if dir = 1 then [dirLine (p.1 - 1, p.2) 1, dirLine (p.1 + 1, p.2) 1]
  else
    let side (o : Int) : List (Int × Int) :=
      (windowOffsets.filter fun j => (j + o).natAbs ≤ 3).map fun j =>
        (p.1 + j + o, p.2 + j * (dirStep dir).2)
    [side (-1), side 1]

/-- A mean of balanced values, one rounding for each addition and one for the product. -/
def Dm.mean (c : Dm) (l : List (Int × Int)) : Nat :=
  F24.mul (F24.sum (l.map c.n)) (F24.recip (F24.ofInt (l.length : Nat)))

/-- E[k][d], defined where the central line holds a site of role k (R190). -/
def Dm.estimate (c : Dm) (p : Int × Int) (k dir : Nat) : Option Nat :=
  let line := dirLine p dir
  let ks := line.filter fun q => c.role q == k
  if ks.isEmpty then none
  else some (F24.sub (F24.add (c.n p) (c.mean ks)) (c.mean (line.filter fun q => c.index q == c.index p)))

/-- Absolute differences between consecutive sites of one index on a line. -/
def Dm.differences (c : Dm) : List (Int × Int) → List Nat
  | a :: b :: l => F24.abs (F24.sub (c.n b) (c.n a)) :: Dm.differences c (b :: l)
  | _ => []

/-- The weight of a direction (R191); none where it has no pair. -/
def Dm.weight (c : Dm) (p : Int × Int) (dir : Nat) : Option Nat :=
  let ds := (dirLine p dir :: dirParallels p dir).flatMap fun line =>
    (List.range 4).flatMap fun i => c.differences (line.filter fun q => c.index q == i)
  if ds.isEmpty then none
  else
    let g := F24.mul (F24.sum ds) (F24.recip (F24.ofInt (ds.length : Nat)))
    let t := F24.add g c.f.params.mosaic.gradFloor
    some (F24.recip (F24.mul t t))

/-- The 7 × 7 window, row by row. -/
def window7 (p : Int × Int) : List (Int × Int) :=
  windowOffsets.flatMap fun j => windowOffsets.map fun i => (p.1 + i, p.2 + j)

/-- out[k] and whether the fallback was taken (R192). -/
def Dm.out (c : Dm) (p : Int × Int) (k : Nat) : Nat × Bool :=
  if c.role p = k then (c.v p, false)
  else
    let step (acc : Nat × Nat) (dir : Nat) : Nat × Nat :=
      match c.weight p dir, c.estimate p k dir with
      | some w, some e => (F24.add acc.1 w, F24.add acc.2 (F24.mul w e))
      | _, _ => acc
    let r := (List.range 4).foldl step (0, 0)
    if F24.val r.1 = 0 then
      let e := F24.sub (F24.add (c.n p) (c.mean ((window7 p).filter fun q => c.role q == k)))
        (c.mean ((window7 p).filter fun q => c.index q == c.index p))
      (F24.mul e (F24.recip (c.balOf k)), true)
    else (F24.mul (F24.mul r.2 (F24.recip r.1)) (F24.recip (c.balOf k)), false)

/-- The balanced estimate B_k (R193). -/
def Dm.balanced (c : Dm) (p : Int × Int) (k : Nat) : Nat := F24.mul (c.out p k).1 (c.balOf k)
/-- c1 (k = R) and c2 (k = B). -/
def Dm.chroma (c : Dm) (p : Int × Int) (k : Nat) : Nat := F24.sub (c.balanced p k) (c.balanced p 1)

def block3 (p : Int × Int) : List (Int × Int) :=
  [-1, 0, 1].flatMap fun j => [-1, 0, 1].map fun i => (p.1 + i, p.2 + j)

/-- The demosaiced R, G, B of a site, and the roles that took the fallback (R193). -/
def Dm.rgb (c : Dm) (p : Int × Int) : List Nat × Nat :=
  let fb := ((List.range 3).filter fun k => (c.out p k).2).length
  let a := c.f.params.mosaic.cas
  let g := (c.out p 1).1
  if F24.val a = 0 then ([(c.out p 0).1, g, (c.out p 2).1], fb)
  else
    let side (k : Nat) : Nat :=
      let ck := c.chroma p k
      let m := F24.median ((block3 p).map fun q => c.chroma q k)
      let ck' := F24.add ck (F24.mul a (F24.sub m ck))
      F24.mul (F24.add (c.balanced p 1) ck') (F24.recip (c.balOf k))
    ([side 0, g, side 2], fb)

/-! ## Colour engine (R208 to R222) -/

/-- Stage 1's blended coefficients (R209). -/
def blendedMatrix (c : Colour) : List Nat :=
  if c.illums = 1 then c.matA
  else
    let k := F24.mul (F24.sub c.mired c.miredA) (F24.recip (F24.sub c.miredB c.miredA))
    let k := F24.min (F24.max k 0) F24.one
    if F24.lt c.miredB c.mired then c.matB
    else if F24.lt c.mired c.miredA then c.matA
    else c.matA.zipWith (fun a b => F24.add a (F24.mul k (F24.sub b a))) c.matB

/-- A row of coefficients applied to terms, products added left to right. -/
def rowSum (row terms : List Nat) : Nat := F24.sum (row.zipWith F24.mul terms)

/-- The terms of R210 and R211. -/
def transformTerms (form : Nat) (rgb : List Nat) : List Nat :=
  if form = 0 then rgb
  else
    let r := F24.max (rgb.getD 0 0) 0
    let g := F24.max (rgb.getD 1 0) 0
    let b := F24.max (rgb.getD 2 0) 0
    let cb (x y z : Nat) : Nat := F24.cbrt (F24.mul (F24.mul x y) z)
    rgb ++ [F24.sqrt (F24.mul r g), F24.sqrt (F24.mul g b), F24.sqrt (F24.mul r b), cb r g g, cb g b b, cb r b b,
      cb g r r, cb b g g, cb b r r, cb r g b]

def applyMatrix (n : Nat) (m terms : List Nat) : List Nat :=
  (List.range 3).map fun i => rowSum ((m.drop (n * i)).take n) terms

/-- The default shaper entry (R213): round(2048 (log2 x_s + 24)). The power 4096 gives twice the fraction. -/
def defaultShaper (s : Nat) : Nat :=
  let l := Nat.log2 ((128 + s % 128) ^ 4096) - 28672
  min (2048 * (s / 128) + (l + 1) / 2) 65535

/-- The shaper tables, R then G then B. -/
def shaperTables (c : Colour) : List Nat :=
  match c.shaper with
  | some t => t.vals
  | none => (List.replicate 3 ((List.range 4096).map defaultShaper)).flatten

/-- A table looked up on the grid of stage 3, between knots s and s + 1 (R213). -/
def knotLookup (t : Nat → Nat) (x : Nat) : Nat :=
  let s := (x / 65536 % 128 - 39) * 128 + x % 65536 / 512
  let a : Int := t s
  let b : Int := t (s + 1)
  (a + ((b - a) * (x % 512 : Nat) + 256) / 512).toNat

/-- The lattice's tetrahedron for one pixel (R214): node offsets with their integer weights. -/
def tetra (d fr fg fb : Nat) : List ((Nat × Nat × Nat) × Nat) :=
  if fg ≤ fr then
    (if fb ≤ fg then [((0, 0, 0), d - fr), ((1, 0, 0), fr - fg), ((1, 1, 0), fg - fb), ((1, 1, 1), fb)]
     else if fb ≤ fr then [((0, 0, 0), d - fr), ((1, 0, 0), fr - fb), ((1, 0, 1), fb - fg), ((1, 1, 1), fg)]
     else [((0, 0, 0), d - fb), ((0, 0, 1), fb - fr), ((1, 0, 1), fr - fg), ((1, 1, 1), fg)])
  else
    (if fg ≤ fb then [((0, 0, 0), d - fb), ((0, 0, 1), fb - fg), ((0, 1, 1), fg - fr), ((1, 1, 1), fr)]
     else if fr ≤ fb then [((0, 0, 0), d - fg), ((0, 1, 0), fg - fb), ((0, 1, 1), fb - fr), ((1, 1, 1), fr)]
     else [((0, 0, 0), d - fg), ((0, 1, 0), fg - fr), ((1, 1, 0), fr - fb), ((1, 1, 1), fb)])

/-- A pixel's cell of the lattice, and the offsets of its tetrahedron's nodes with their weights (R213, R214). -/
def latticePoint (c : Colour) (rgb : List Nat) : List Nat × List ((Nat × Nat × Nat) × Nat) :=
  let tables := shaperTables c
  let coord (ch x : Nat) : Nat :=
    let t (s : Nat) : Nat := tables.getD (4096 * ch + s) 0
    if F24.lt x (F24.pow2 (-24)) then t 0 else if F24.le (F24.ofInt 255) x then t 4095 else knotLookup t x
  let u := rgb.mapIdx coord
  let d := if c.latticeN = 65 then 1024 else 512
  (u.map (· / d), tetra d (u.getD 0 0 % d) (u.getD 1 0 % d) (u.getD 2 0 % d))

/-- A node's place in the lattice, red fastest. -/
def nodeIndex (n : Nat) (base : List Nat) (o : Nat × Nat × Nat) : Nat :=
  base.getD 0 0 + o.1 + n * (base.getD 1 0 + o.2.1 + n * (base.getD 2 0 + o.2.2))

/-- The nodes a pixel's result takes a part of. -/
def latticeNodes (c : Colour) (rgb : List Nat) : List Nat :=
  let z := latticePoint c rgb
  (z.2.filter fun w => w.2 != 0).map fun w => nodeIndex c.latticeN z.1 w.1

/-- Stages 3 and 4 of a pixel's three channels, with the counts of low and high values (R213, R214). A node of
weight above 0 that a poisoned burst holds makes the lattice pass its input on (R594). -/
def latticeStage (c : Colour) (bad : Nat → Bool) (rgb : List Nat) : List Nat × Nat × Nat :=
  let z := latticePoint c rgb
  let d := if c.latticeN = 65 then 1024 else 512
  let nodes := (c.lattice.map (·.vals)).getD []
  let node (o : Nat × Nat × Nat) (ch : Nat) : Int :=
    halfVal (nodes.getD (3 * nodeIndex c.latticeN z.1 o + ch) 0)
  let out (ch : Nat) : Nat :=
    F24.round ((z.2.map fun w => (w.2 : Int) * node w.1 ch).sum * 2 ^ 54) d
  (if (latticeNodes c rgb).any bad then rgb else (List.range 3).map out,
    (rgb.filter fun x => F24.lt x (F24.pow2 (-24))).length, (rgb.filter fun x => F24.le (F24.ofInt 255) x).length)

/-- Stage 5 (R217) of a pixel at (x, y) of a w × h image. -/
def contrastStage (c : Colour) (rgb : List Nat) (x y w h : Nat) : List Nat :=
  if F24.val c.lcStrength = 0 then rgb
  else
    let yl := rowSum c.lw rgb
    let X := x * 2 ^ 22 / w
    let Z := y * 2 ^ 21 / h
    let ix := X / 65536
    let iy := Z / 65536
    let fx := F24.ofScaled (X % 65536 : Nat) 16
    let fy := F24.ofScaled (Z % 65536 : Nat) 16
    let A (j i : Nat) : Nat := ((c.grid.map (·.vals)).getD []).getD (65 * j + i) 0
    let lerp (a b t : Nat) : Nat := F24.add a (F24.mul t (F24.sub b a))
    let a := lerp (lerp (A iy ix) (A iy (ix + 1)) fx) (lerp (A (iy + 1) ix) (A (iy + 1) (ix + 1)) fx) fy
    if F24.lt 0 yl then
      let dd := F24.mul (F24.sub yl a) (F24.recip (F24.add (F24.add yl a) c.lcFloor))
      let g := F24.add F24.one (F24.mul c.lcStrength dd)
      rgb.map fun v => F24.mul v g
    else rgb

/-- x_s of a knot as fixed point with 256 fraction bits. -/
def knotX (s : Nat) : Nat := if s = 4096 then 256 * fxOne else (128 + s % 128) * 2 ^ (s / 128) * 2 ^ 225

/-- min(x × tf_scale / div, 1) in fixed point. -/
def scaledLevel (x scale div : Nat) : Nat := min ((x * (F24.val scale).toNat) / 2 ^ 78 / div) fxOne

/-- A decimal constant n / d in fixed point. -/
def fxRat (n d : Nat) : Nat := fxOne * n / d

/-- E′ of a level under `tf` 1 to 3 (R220), fixed point. -/
def transferE (tf x scale : Nat) : Nat :=
  if tf = 1 then
    let l := scaledLevel x scale 1
    if l < fxRat 18 1000 then 45 * l / 10
    else 1099 * fxPow l 9 20 / 1000 - fxRat 99 1000
  else if tf = 2 then
    let p := fxPow (scaledLevel x scale 10000) 2610 16384
    let num := fxRat 3424 4096 + p * (32 * 2413) / 4096
    let den := fxOne + p * (32 * 2392) / 4096
    fxPow (num * fxOne / den) (128 * 2523) 4096
  else
    let e := scaledLevel x scale 1
    if 12 * e ≤ fxOne then Nat.sqrt (3 * e * fxOne)
    else
      let ln := fxLog2 (12 * e - fxRat 28466892 100000000) * fxLn2 / fxOne
      (ln * 17883277 / 100000000 + fxRat 55991073 100000000).toNat

/-- The transfer knots of a colour engine (R219, R220). -/
def transferKnots (c : Colour) : List Nat :=
  if c.tf = 0 then []
  else if c.tf = 4 then (c.tfTable.map (·.vals)).getD []
  else (List.range 4097).map fun s => roundEven (65535 * transferE c.tf (knotX s) c.tfScale) fxOne

/-- V of a channel value (R219): 0 to 65,535. -/
def transferValue (c : Colour) (x : Nat) : Nat :=
  let k := transferKnots c
  if F24.lt x (F24.pow2 (-24)) then k.getD 0 0
  else if F24.le (F24.ofInt 256) x then k.getD 4096 0
  else knotLookup (fun s => k.getD s 0) x

/-- The codes of a pixel for formats 0 to 2 (R221), each rounded once from the exact rational. -/
def outputCodes (format ycc : Nat) (v : List Nat) : List Nat :=
  let g (k : Nat) : Int := v.getD k 0
  if format = 1 then v.map fun x => 256 + roundEven (3504 * x) 65535
  else if format = 2 then v.map fun x => roundEven (4095 * x) 65535
  else
    let kr : Int := if ycc = 0 then 2126 else 2627
    let kb : Int := if ycc = 0 then 722 else 593
    let ey := kr * g 0 + (10000 - kr - kb) * g 1 + kb * g 2
    let chroma (c k : Int) : Nat :=
      (512 + roundEvenInt (896 * (10000 * c - ey)) ((20000 - 2 * k).toNat * 65535)).toNat
    [(64 + roundEvenInt (876 * ey) (65535 * 10000)).toNat, chroma (g 2) kb, chroma (g 0) kr]

/-- Counters of one pixel, added. -/
def ColCounters.plus (a b : ColCounters) : ColCounters where
  hl := sat32 a.hl b.hl
  shaperLow := sat32 a.shaperLow b.shaperLow
  shaperHigh := sat32 a.shaperHigh b.shaperHigh
  tfLow := sat32 a.tfLow b.tfLow
  tfHigh := sat32 a.tfHigh b.tfHigh
  half := sat32 a.half b.half
  misses := sat32 a.misses b.misses
  stall := satAdd 64 a.stall b.stall

/-- The stages of a colour engine before the shaper (R208). -/
def colourLinear (c : Colour) (rgb : List Nat) (saturated : Bool) : List Nat :=
  let s1 := applyMatrix (if c.form = 0 then 3 else 13) (blendedMatrix c) (transformTerms c.form rgb)
  let top := s1.foldl F24.max (s1.headD 0)
  (if c.hlMode == 1 && saturated then [top, top, top] else s1).zipWith
    (fun v g => F24.mul (F24.mul v c.exposure) g) c.wgain

/-- A pixel through a colour engine (R208): its three codes, and what it counts. -/
def colourPixel (c : Colour) (bad : Nat → Bool) (rgb : List Nat) (saturated : Bool) (x y w h : Nat) : List Nat × ColCounters :=
  let hl := c.hlMode == 1 && saturated
  let s2 := colourLinear c rgb saturated
  let s4 := if c.latticeN = 0 then (s2, 0, 0) else latticeStage c bad s2
  let s5 := contrastStage c s4.1 x y w h
  let o := applyMatrix 3 c.outMat s5
  let cnt : ColCounters := { hl := boolNat hl, shaperLow := s4.2.1, shaperHigh := s4.2.2 }
  if c.format = 3 then
    (o.map fun v => (toHalf v).1, { cnt with half := (o.filter fun v => (toHalf v).2).length })
  else
    (outputCodes c.format c.ycc (o.map (transferValue c)),
      { cnt with
        tfLow := (o.filter fun v => F24.lt v (F24.pow2 (-24))).length
        tfHigh := (o.filter fun v => F24.le (F24.ofInt 256) v).length })

/-- The image a bank holds for a colour engine (R223). -/
def colImage (c : Colour) : ColImage where
  lattice := if c.latticeN = 65 then (c.lattice.map (·.vals)).getD [] else []
  shaper := shaperTables c
  knots := transferKnots c
  grid := (c.grid.map (·.vals)).getD []

/-! ## Stored pixels (R234, R235) -/

/-- Layouts and the formats they accept. -/
def layoutAccepts (layout format : Nat) : Bool :=
  if layout = 0 then format == 0 else if layout = 1 then format == 1 || format == 2 else format == 3

/-- Bytes of a line of a layout, before rounding up to the stride. -/
def layoutLine (layout w : Nat) : Nat :=
  if layout = 0 then w / 2 * 5 else if layout = 1 then w / 2 * 9 else w * 6
def layoutStride (layout w : Nat) : Nat := ceilDiv (layoutLine layout w) 256 * 256
/-- Twice the bytes per pixel. -/
def layoutBytes2 (layout : Nat) : Nat := if layout = 0 then 5 else if layout = 1 then 9 else 12
def layoutBufBytes (layout w h : Nat) : Nat := ceilDiv (0x200 + h * layoutStride layout w) 65536 * 65536

/-- Place fields of a width end to end, the first lowest. -/
def packFields (bits : Nat) : List Nat → Nat
  | [] => 0
  | v :: l => v % 2 ^ bits + 2 ^ bits * packFields bits l

/-- The bytes of one group of a line, from a function that gives a pixel's codes (R234, R235). -/
def layoutGroup (layout w : Nat) (px : Nat → List Nat) (i : Nat) : List Byte :=
  if layout = 0 then
    let a := px (mirror w ((2 * i : Nat) - 1 : Int))
    let b := px (2 * i)
    let c := px (2 * i + 1)
    let ch (k : Nat) : Nat := (a.getD k 0 + 2 * b.getD k 0 + c.getD k 0 + 2) / 4
    leBytes 5 (packFields 10 [ch 1, b.getD 0 0, ch 2, c.getD 0 0])
  else if layout = 1 then leBytes 9 (packFields 12 (px (2 * i) ++ px (2 * i + 1)))
  else leBytes 6 (packFields 16 (px i))

/-- Groups in a line, and columns of a group. -/
def layoutGroups (layout w : Nat) : Nat := if layout = 2 then w else w / 2
def groupCols (layout : Nat) : Nat := if layout = 2 then 1 else 2
def groupBytes (layout : Nat) : Nat := if layout = 0 then 5 else if layout = 1 then 9 else 6

end Sys2Proof.Machine
end

