-- ==== Sys2Proof/Machine/RingOps.lean ====
section
/-! DEFINITION. The Causeway ring's operations: addresses and routes, frames and flits, the link layer, flow
contexts, flow data, and Flint (R386 to R417). -/

namespace Sys2Proof.Machine

/-! ## Addresses and routes (R386 to R388, R400) -/

/-- A stage address (R3). -/
def stageAddress (ring pos : Nat) : Nat := ring * 64 + pos

def updRing (s : State) (f : Ring → Ring) : State := { s with ring := f s.ring }
def ringPort (s : State) (q : Nat) : RingPort := s.ring.ports.getD q {}
def updPort (s : State) (q : Nat) (f : RingPort → RingPort) : State :=
  { s with ring.ports := modAt s.ring.ports q f }
def ringSlot (s : State) (k : Nat) : Option RingSlot := s.ring.slots.getD k none
def updSlot (s : State) (k : Nat) (f : RingSlot → RingSlot) : State :=
  { s with ring.slots := modAt s.ring.slots k (·.map f) }

/-- The addresses the device answers to: its home address and position 0 of its child rings (R387). -/
def isOwnAddress (s : State) (a : Nat) : Bool :=
  a == s.ring.stageAddr ||
    (s.ring.slots.drop 1).any fun o => o.any fun r => a == stageAddress r.ring 0

/-- The slot whose ring has a number. -/
def slotOfRing (s : State) (ring : Nat) : Option Nat :=
  (List.range 4).find? fun k => (ringSlot s k).any fun r => r.ring == ring

/-- Whether the cw path of `n` links from position `p` crosses no recorded break (R400). -/
def pathClear (r : RingSlot) : Nat → Nat → Bool
  | _, 0 => true
  | p, n + 1 => !r.breaks.getLsbD (p % r.size) && pathClear r (p + 1) n

def cwHops (r : RingSlot) (b : Nat) : Nat := (b + r.size - r.pos) % r.size
def ccwHops (r : RingSlot) (b : Nat) : Nat := (r.pos + 64 * r.size - b) % r.size
def cwClear (r : RingSlot) (b : Nat) : Bool := pathClear r r.pos (cwHops r b)
def ccwClear (r : RingSlot) (b : Nat) : Bool := pathClear r b (ccwHops r b)

/-- The port toward position b of a ring: the shorter way, cw on a tie, turned the other way by a break; none
when neither way is clear (R388, R400). -/
def portToward (r : RingSlot) (b : Nat) : Option Nat :=
  if cwHops r b ≤ ccwHops r b then
    (if cwClear r b then some r.portCw else if ccwClear r b then some r.portCcw else none)
  else
    (if ccwClear r b then some r.portCcw else if cwClear r b then some r.portCw else none)

/-- Where a frame to a stage address leaves: slot and port (R388). -/
def routeTo (s : State) (dst : Nat) : Option (Nat × Nat) :=
  let ring := dst / 64
  match slotOfRing s ring with
  | some k => (ringSlot s k).bind fun r => (portToward r (dst % 64)).map fun q => (k, q)
  | none =>
    (s.ring.route.getD ring none).bind fun e =>
      (ringSlot s e.2).bind fun r => (portToward r e.1).map fun q => (e.2, q)

/-- The other port of the ring a port belongs to. -/
def otherPort (s : State) (q : Nat) : Option Nat :=
  (List.range 4).findSome? fun k => (ringSlot s k).bind fun r =>
    if r.portCw == q then some r.portCcw else if r.portCcw == q then some r.portCw else none

/-- Slot and direction (0 cw, 1 ccw) of a named port. -/
def portRole (s : State) (q : Nat) : Option (Nat × Nat) :=
  (List.range 4).findSome? fun k => (ringSlot s k).bind fun r =>
    if r.portCw == q then some (k, 0) else if r.portCcw == q then some (k, 1) else none

/-! ## Port stamps (R474, R478) -/

/-- A 96-bit time value (R474). -/
def mod96 (t : Int) : Nat := (t % 2 ^ 96).toNat

/-- Picoseconds as eighth-ticks of 1 / 9.8304 GHz. -/
def psToEighths (ps : Int) : Int := roundDiv (ps * 98304) 10000000

/-- The fused latency of a port for its lane's personality and rate: ports 0 and 1 the ETH ports, 2 to 9 the ring
ports; the sync and LTC inputs have no lane. -/
def portLatency (s : State) (p : Nat) : Int :=
  let lane := if p < 2 then some ((if s.fuse.pkgM then 20 else 36) + p)
    else if p < 10 then (s.lane.links.getD (p - 2) none).bind fun l => l.lanes.head?
    else none
  let x := (lane.map fun a => s.lane.lanes.getD a {}).getD {}
  Config.portLatency p x.pers x.rate

/-- Record an ingress stamp, less the fused latency and the host's adjustment, and an egress stamp, more by both
(R478). -/
def stampRx (s : State) (p : Nat) (raw : Nat) : Int × State :=
  let v : Int := raw - psToEighths (portLatency s p + s.time.rxAdj.getD p 0)
  (v, { s with time.rx := s.time.rx.set p (unsigned 64 v) })
def stampTx (s : State) (p : Nat) (raw : Nat) : Int × State :=
  let v : Int := raw + psToEighths (portLatency s p + s.time.txAdj.getD p 0)
  (v, { s with time.tx := s.time.tx.set p (unsigned 64 v) })

/-! ## Frames (R397, R398, R401) -/

/-- The 16 header bytes of a frame. -/
def frameHeader (f : Frame) : List Byte :=
  leBytes 2 (f.dst % 4096 + 4096 * f.ftype) ++ leBytes 2 (f.src % 4096 + 4096 * boolNat f.wrapped) ++
    leBytes 2 f.dflow ++ leBytes 1 f.dgen ++ [0] ++ leBytes 2 (f.len.getD f.payload.length) ++ leBytes 2 f.ttl ++
    leBytes 4 f.fseqno

/-- A frame's bytes, with its `ecrc`. -/
def frameBytes (f : Frame) : List Byte :=
  let b := frameHeader f ++ f.payload
  b ++ leBytes 4 (crc32c b)

/-- The frame that some bytes are, or begin. -/
def frameOf (b : List Byte) : Frame :=
  let payload := (b.drop 16).take (fld b 8 2)
  { dst := fld b 0 2 % 4096, ftype := fld b 0 2 / 4096, src := fld b 2 2 % 4096,
    wrapped := (fld b 2 2).testBit 12, dflow := fld b 4 2, dgen := fld b 6 1, ttl := fld b 10 2,
    fseqno := fld b 12 4, payload := payload
    len := if payload.length = fld b 8 2 then none else some (fld b 8 2) }

/-- Read a frame from its bytes; none where the length or the check code is wrong. -/
def parseFrame (b : List Byte) : Option Frame :=
  let len := fld b 8 2
  if b.length != 20 + len then none
  else if crc32c (b.take (16 + len)) != fld b (16 + len) 4 then none
  else some (frameOf b)

/-- Flow data travels on the bulk VC, every other type on the express VC (R398). -/
def frameVc (f : Frame) : Nat := if f.ftype = 0 then 1 else 0

def countDropped (s : State) (q : Nat) : State :=
  updPort s q fun p => { p with dropped := sat32 p.dropped 1 }

/-- A frame waits at a port on its VC; version 0 has one VC and no express priority (R396, R398). -/
def queueFrame (s : State) (q : Nat) (f : Frame) : State :=
  updPort s q fun p =>
    if frameVc f = 1 || p.version = 0 then { p with bulk := p.bulk ++ [f] } else { p with express := p.express ++ [f] }

/-- Queue a frame at a port; a port that is down wraps it to the other port of its ring, once (R401). -/
def enqueueAt (s : State) (q : Nat) (f : Frame) : State :=
  if (ringPort s q).state = 2 then queueFrame s q f
  else if f.wrapped then countDropped s q
  else match otherPort s q with
    | none => countDropped s q
    | some q' =>
      if (ringPort s q').state = 2 then
        updPort (queueFrame s q' { f with wrapped := true }) q' fun p => { p with wrapped := sat32 p.wrapped 1 }
      else countDropped s q

/-- Send a frame toward its destination (R388); an unreachable one is dropped and counted at its home cw
port. -/
def sendFrame (s : State) (f : Frame) : State :=
  if isOwnAddress s f.dst then updRing s fun r => { r with inbox := r.inbox ++ [f] }
  else match routeTo s f.dst with
    | some (_, q) => enqueueAt s q f
    | none => match ringSlot s 0 with
      | some r => countDropped s r.portCw
      | none => s

/-- A frame that ends here: it addresses the device, is ring management, or is of no known type. -/
def endsHere (s : State) (f : Frame) : Bool := isOwnAddress s f.dst || f.ftype = 3 || 5 ≤ f.ftype

/-- A time frame that passes through takes its ingress stamp; where within the PIPE clock the flit came is a free
value (R478, R481). -/
def stampTransit (s : State) (q : Nat) (f : Frame) : Frame × State :=
  if f.ftype != 4 then (f, s)
  else
    let r := draw s
    let x := stampRx r.2 (2 + q) (8 * s.time.c.toNat + r.1 % 8)
    ({ f with arrived := some (q, x.1) }, x.2)

/-- What the device does with a frame that arrived, or whose first flit did (R388, R397, R399): its own go to the
inbox, ring management frames too; a transit frame goes on with its `ttl` less 1. -/
def frameArrived (s : State) (q : Nat) (f : Frame) : State :=
  if 5 ≤ f.ftype then countDropped s q
  else if endsHere s f then
    (if f.abort then s else updRing s fun r => { r with inbox := r.inbox ++ [f] })
  else if f.ttl ≤ 1 then countDropped s q
  else
    let s1 := if f.abort then updPort s q fun p => { p with aborts := sat32 p.aborts 1 } else s
    match routeTo s1 f.dst with
    | some (_, q') =>
      let x := stampTransit s1 q f
      enqueueAt x.2 q' { x.1 with ttl := f.ttl - 1 }
    | none => countDropped s1 q

/-! ## Flits (R390 to R396) -/

/-- Cut bytes into pieces of at most `k`. -/
def chunk (k : Nat) : Nat → List Byte → List (List Byte)
  | 0, _ => []
  | fuel + 1, bs => if bs.isEmpty then [] else bs.take k :: chunk k fuel (bs.drop k)

/-- The data flits of a frame, 52 bytes each, not yet numbered (R397). -/
def frameFlits (f : Frame) : List HeldFlit :=
  let ps := chunk 52 (f.payload.length + 20) (frameBytes f)
  ps.mapIdx fun i p => ⟨0, frameVc f, i == 0, i + 1 == ps.length, p, f⟩

/-- The flits that a frame gives so far: whole pieces only of one that is still arriving (R399). -/
def framePieces (f : Frame) : List HeldFlit :=
  if f.cut.isSome then (frameFlits f).take ((16 + f.payload.length) / 52) else frameFlits f

/-- More of a frame that is still arriving reaches its copy at a port, queued or under way. -/
def growAt (key : Nat × Nat) (new : Frame) (p : RingPort) : RingPort :=
  let g (h : Frame) : Frame :=
    if h.cut = some key then { new with ttl := h.ttl, wrapped := h.wrapped, arrived := h.arrived } else h
  let gs (l : List HeldFlit) : List HeldFlit := l.map fun h => { h with frame := g h.frame }
  let more (cur : List HeldFlit) (o : Option (Frame × Nat)) : List HeldFlit × Option (Frame × Nat) :=
    match o with
    | none => (cur, none)
    | some (f, n) =>
      if f.cut = some key then
        let ps := framePieces (g f)
        (cur ++ ps.drop n, if new.cut.isSome then some (g f, ps.length) else none)
      else (cur, some (f, n))
  let a := more (gs p.cur0) p.open0
  let b := more (gs p.cur1) p.open1
  { p with
    express := p.express.map g, bulk := p.bulk.map g, held := gs p.held
    cur0 := a.1, open0 := a.2, cur1 := b.1, open1 := b.2 }

/-- More of a transit frame has arrived, or its end. -/
def growFrame (s : State) (key : Nat × Nat) (new : Frame) : State :=
  updRing s fun r => { r with ports := r.ports.map (growAt key new) }

/-- Sequence modulus and replay window of a link layer version (R390, R393, R396). -/
def seqMod (p : RingPort) : Nat := if p.version = 0 then 256 else 4096
def replayWindow (p : RingPort) : Nat := min (if p.version = 0 then 128 else 1024) (1024 - 256 * p.lostBanks)

/-- A flit's 64 bytes (R390). -/
def flitBytes (fctl fseq ack c0 c1 : Nat) (payload : List Byte) : List Byte :=
  let b := leBytes 1 fctl ++ leBytes 1 payload.length ++ leBytes 2 fseq ++ leBytes 2 ack ++ leBytes 1 c0 ++
    leBytes 1 c1 ++ (payload ++ List.replicate 52 0).take 52
  b ++ leBytes 4 (crc32c b)

/-- `fctl` of a data flit. -/
def dataFctl (h : HeldFlit) (version : Nat) (replay nak : Bool) : Nat :=
  1 + 2 * boolNat h.sof + 4 * boolNat h.eof + 8 * (if version = 0 then 0 else h.vc) + 16 * boolNat replay +
    32 * boolNat nak + 128 * boolNat (h.eof && h.frame.abort)

/-- The policy and the lock fuse allow Flint (R549, R560). -/
def flintAllowed (s : State) : Bool := s.br.policy.flintPermit && !s.fuse.flintLock

/-- Every injector disarms because TEST_EN fell or the gate closed, and `EV_FLINT` says so (R417). -/
def flintDisarm (s : State) : State :=
  notify (updRing s fun r => { r with injectors := r.injectors.map fun i => { i with armed := false, left := 0 } })
    0x1601 0xFF ([1, 0xFF]) 1

/-- One step of the 31-bit LFSR x^31 + x^28 + 1 (R416). -/
def lfsrStep (x : Nat) : Nat :=
  (x * 2 + boolNat (x.testBit 30 != x.testBit 27)) % 2 ^ 31

/-- XOR a 4-byte pattern into bytes from an offset. -/
def corruptAt (bs : List Byte) (off pattern : Nat) : List Byte :=
  bs.mapIdx fun i b => if off ≤ i && i < off + 4 then b ^^^ BitVec.ofNat 8 (pattern / 2 ^ (8 * (i - off))) else b

/-- An injector meets a unit: whether the unit is affected, and the injector after it (R416). -/
def injectorStep (i : Injector) : Bool × Injector :=
  let x := lfsrStep i.lfsr
  let i := { i with lfsr := x, units := sat32 i.units 1 }
  if 0 < i.left then (true, { i with left := i.left - 1 })
  else if x % 2 ^ i.n = 0 then
    (true, { i with left := i.burst - 1, done := i.done + 1, injections := sat32 i.injections 1 })
  else (false, i)

def injectorAt (s : State) (k : Nat) : Injector := s.ring.injectors.getD k {}
/-- Injector k acts: it is armed, and Bedrock holds the gate open (R417). -/
def injecting (s : State) (k : Nat) : Bool := (injectorAt s k).armed && s.br.flintGate

/-- A unit passes injector k: whether it is affected; at its `count` the injector disarms (R416, R420). -/
def injectUnit (s : State) (k : Nat) : Bool × State :=
  let r := injectorStep (injectorAt s k)
  let fin := r.2.count != 0 && r.2.count ≤ r.2.done && r.2.left == 0
  let i := if fin then { r.2 with armed := false } else r.2
  let s1 := { s with ring.injectors := modAt s.ring.injectors k fun _ => i }
  (r.1, if fin then notify s1 0x1601 k ([0, BitVec.ofNat 8 k, 0, 0] ++ leBytes 4 i.injections) 0 else s1)

/-- A data flit has passed the flits that a reorder injection holds back. -/
def passHeld (p : RingPort) : RingPort := { p with heldBack := p.heldBack.map fun h => (h.1 - 1, h.2) }

/-- Put a flit's bytes on the link, through the port's injector where it is armed and the gate open. -/
def putFlit (s : State) (q : Nat) (bytes : List Byte) (isData : Bool) : State :=
  let i := injectorAt s q
  if !isData then updPort s q fun p => { p with lastFlit := some bytes }
  else if !injecting s q then updPort s q fun p => passHeld { p with lastFlit := some bytes }
  else
    let r := injectUnit s q
    if !r.1 then updPort r.2 q fun p => passHeld { p with lastFlit := some bytes }
    else if i.mode = 1 then updPort r.2 q fun p => passHeld { p with lastFlit := none }
    else if i.mode = 2 then
      updPort r.2 q fun p => passHeld { p with lastFlit := some (corruptAt bytes i.offset i.pattern) }
    else updPort r.2 q fun p => { passHeld p with
      lastFlit := none, heldBack := (passHeld p).heldBack ++ [(i.burst, bytes)] }

/-- The flags and reports every flit carries: `nak`, `ack`, credits freed; sending them clears them. -/
def sendFlit (s : State) (q : Nat) (fctl fseq : Nat) (payload : List Byte) (isData : Bool) : State :=
  let p := ringPort s q
  let bytes := flitBytes (fctl + 32 * boolNat p.needNak) fseq p.rxLast (min 255 p.freed0) (min 255 p.freed1)
    payload
  let s1 := updPort s q fun p => { p with
    nakSent := p.nakSent || p.needNak,
    needNak := false,
    freed0 := p.freed0 - min 255 p.freed0,
    freed1 := p.freed1 - min 255 p.freed1 }
  putFlit s1 q bytes isData

/-- Start the replay of every held flit after the latest `ack` (R393). -/
def startReplay (s : State) (q : Nat) : State :=
  updPort s q fun p => { p with
    replay := p.held.length
    advanced := false
    replays := if p.held.isEmpty then p.replays else sat32 p.replays 1 }

/-- Number, hold and send a new data flit on a VC. -/
def sendNew (s : State) (q : Nat) (h : HeldFlit) : State :=
  let p := ringPort s q
  let h := { h with seq := p.txNext }
  let s1 := updPort s q fun p => { p with
    txNext := (p.txNext + 1) % seqMod p
    held := p.held ++ [h]
    credit0 := if p.version != 0 && h.vc = 0 then p.credit0 - 1 else p.credit0
    credit1 := if p.version = 0 || h.vc = 1 then p.credit1 - 1 else p.credit1 }
  sendFlit s1 q (dataFctl h p.version false false) h.seq h.bytes true

/-- A time frame as it leaves a port (R478, R481): one of this device's own carries its egress stamp's time, one that
passes through gains its residence time and the wire delay of its input link. -/
def frameLeaves (s : State) (q : Nat) (f : Frame) : Frame × State :=
  if f.ftype != 4 then (f, s)
  else
    let r := draw s
    let x := stampTx r.2 (2 + q) (8 * s.time.c.toNat + r.1 % 8)
    let origin := match f.arrived with
      | some _ => f.payload.take 12
      | none => leBytes 12 (mod96 (viewTimeAt s s.time.viewS x.1))
    let corr := match f.arrived with
      | some (p, v) => sfld f.payload 12 8 + roundDiv ((x.1 - v) * 10000000) 98304 + (ringPort s p).wirePs
      | none => sfld f.payload 12 8
    ({ f with payload := origin ++ leInt 8 corr ++ f.payload.drop 20 }, x.2)

/-- A frame starts to leave a port on a VC; what is sent again after a failure is the frame as it was queued. -/
def startFrame (s : State) (q vc : Nat) (f : Frame) : State :=
  let g := frameLeaves s q f
  let ps := (framePieces g.1).map fun h => { h with frame := f }
  let o := if f.cut.isSome then some (f, ps.length) else none
  updPort g.2 q fun p => if vc = 0 then { p with cur0 := ps, open0 := o } else { p with cur1 := ps, open1 := o }

/-- The bulk frame whose turn it is: flows in round robin, one frame per turn (R398). -/
def nextBulk (p : RingPort) : Option (Frame × RingPort) :=
  let key (f : Frame) := (f.src, f.dst, f.dflow)
  match p.bulk.find? fun f => !p.round.contains (key f), p.bulk with
  | some f, _ => some (f, { p with bulk := p.bulk.erase f, round := p.round ++ [key f] })
  | none, f :: l => some (f, { p with bulk := l, round := [key f] })
  | none, [] => none

/-- Take the next waiting frame of each VC into flits, where none is under way. -/
def loadFlits (s : State) (q : Nat) : State :=
  let p := ringPort s q
  let s1 := if !p.cur0.isEmpty || p.open0.isSome then s else match p.express with
    | [] => s
    | f :: l => startFrame (updPort s q fun p => { p with express := l }) q 0 f
  let p := ringPort s1 q
  if !p.cur1.isEmpty || p.open1.isSome then s1 else match nextBulk p with
    | none => s1
    | some x => startFrame (updPort s1 q fun _ => x.2) q 1 x.1

/-- Whether a VC has credit; version 0 has one VC (R396). -/
def hasCredit (p : RingPort) (vc : Nat) : Bool :=
  if p.version = 0 || vc = 1 then 0 < p.credit1 else 0 < p.credit0

/-- The transmitter's next flit (R391, R393, R398): an init flit in the handshake; a flit of the replay under
way; a flit a reorder injection held back; then an express flit before a bulk flit; otherwise a control flit. -/
def transmit (s : State) (q : Nat) : State :=
  let p := ringPort s q
  if p.state = 1 then
    updPort s q fun p => { p with lastFlit := some (flitBytes 0x40 0 0xFFF 16 240 []) }
  else if p.state != 2 then s
  else match p.heldBack.find? (·.1 == 0) with
  | some h => updPort s q fun p => { p with lastFlit := some h.2, heldBack := p.heldBack.erase h }
  | none =>
    if 0 < p.replay then
      match p.held[p.held.length - p.replay]? with
      | none => updPort s q fun p => { p with replay := 0 }
      | some h =>
        let s1 := sendFlit s q (dataFctl h p.version true false) h.seq h.bytes true
        updPort s1 q fun p =>
          if p.replay = 1 then { p with
            replay := 0
            consecutive := if p.advanced then 0 else p.consecutive + 1
            advanced := false }
          else { p with replay := p.replay - 1 }
    else
      let s1 := loadFlits s q
      let p := ringPort s1 q
      let room := p.held.length < replayWindow p
      match p.cur0, p.cur1 with
      | h :: l, c1 =>
        if room && hasCredit p 0 then sendNew (updPort s1 q fun p => { p with cur0 := l }) q h
        else match c1 with
          | h1 :: l1 =>
            if room && hasCredit p 1 then sendNew (updPort s1 q fun p => { p with cur1 := l1 }) q h1
            else sendFlit s1 q 0 0 [] false
          | [] => sendFlit s1 q 0 0 [] false
      | [], h1 :: l1 =>
        if room && hasCredit p 1 then sendNew (updPort s1 q fun p => { p with cur1 := l1 }) q h1
        else sendFlit s1 q 0 0 [] false
      | [], [] => sendFlit s1 q 0 0 [] false

/-- `EV_RING_PORT` (R419, R420). -/
def ringPortEvent (s : State) (q what cause wrapped : Nat) : State :=
  notify s 0x0C01 q (leBytes 1 what ++ leBytes 1 cause ++ [0, 0] ++ leBytes 4 (ringPort s q).wirePs ++
    leBytes 4 wrapped) q

/-- `EV_RING_BREAK` (R419, R420). -/
def ringBreakEvent (s : State) (k : Nat) (heal : Bool) (p : Nat) : State :=
  match ringSlot s k with
  | none => s
  | some r => notify s 0x0C02 k (leBytes 1 r.ring ++ leBytes 1 (boolNat heal) ++ leBytes 1 p ++
      [0, 0, 0, 0, 0] ++ leBytes 8 r.breaks.toNat) 8

/-- The link position p that a port's link has on its ring: the link from p to p + 1 (R400). -/
def linkPosition (r : RingSlot) (dir : Nat) : Nat := if dir = 0 then r.pos else (r.pos + r.size - 1) % r.size

/-- A break or heal notice, sent both ways around a ring (R400). -/
def sendNotice (s : State) (k : Nat) (heal : Bool) (p : Nat) : State :=
  match ringSlot s k with
  | none => s
  | some r =>
    let f : Frame := {
      dst := stageAddress r.ring r.pos, ftype := 3, src := s.ring.stageAddr,
      payload := (List.range 32).map (Config.noticeByte r.ring p (boolNat heal)) }
    let one (s : State) (q : Nat) : State := if (ringPort s q).state = 2 then queueFrame s q f else s
    one (one s r.portCw) r.portCcw

/-- Record a break or a heal in a slot's map, with its event where the map changes (R400, R420). -/
def recordBreak (s : State) (k : Nat) (heal : Bool) (p : Nat) : State :=
  match ringSlot s k with
  | none => s
  | some r =>
    if r.breaks.getLsbD p == !heal then s
    else
      let bit := BitVec.ofNat 64 (2 ^ p)
      let s1 := updSlot s k fun r => { r with breaks := if heal then r.breaks &&& ~~~bit else r.breaks ||| bit }
      ringBreakEvent s1 k heal p

/-- The link of a port is a break, or heals, at this end: recorded here and told to the ring. -/
def endBreak (s : State) (q : Nat) (heal : Bool) : State :=
  match portRole s q with
  | none => s
  | some (k, dir) => match ringSlot s k with
    | none => s
    | some r => sendNotice (recordBreak s k heal (linkPosition r dir)) k heal (linkPosition r dir)

/-- The ring's map holds the break of a port's link. -/
def breakKnown (s : State) (q : Nat) : Bool :=
  (portRole s q).any fun x => (ringSlot s x.1).any fun r => r.breaks.getLsbD (linkPosition r x.2)

/-- Clear a port's link-layer state for a new handshake (R391). -/
def portHandshake (p : RingPort) : RingPort :=
  { p with state := 1, initGood := 0, txNext := 0, held := [], replay := 0, advanced := true, consecutive := 0,
           rxLast := 0xFFF, needNak := false, nakSent := false, credit0 := 0, credit1 := 0, freed0 := 0,
           freed1 := 0, asm0 := [], asm1 := [], cur0 := [], cur1 := [], heldBack := [], open0 := none, open1 := none
           round := [], wait1 := 0 }

/-- The frames of some flits in order: each starts at its `sof`, or at the first flit left of its VC. -/
def flitFrames : List HeldFlit → List Nat → List Frame
  | [], _ => []
  | h :: l, seen => if h.sof || !seen.contains h.vc then h.frame :: flitFrames l (h.vc :: seen) else flitFrames l seen

/-- Frames with an unacknowledged or unsent flit, oldest first, each once (R401). -/
def unfinished (p : RingPort) : List Frame :=
  let fs := flitFrames (p.held ++ p.cur0 ++ p.cur1) []
  let rest := (p.open0.toList ++ p.open1.toList).filter fun o => !fs.any fun f => f.cut == o.1.cut
  fs ++ rest.map (·.1) ++ p.express ++ p.bulk

/-- How many frames of a port that is down its ring's other port takes (R401, R420). -/
def wrapCount (s : State) (q : Nat) (frames : List Frame) : Nat :=
  if (otherPort s q).any fun o => (ringPort s o).state = 2 then (frames.filter fun f => !f.wrapped).length else 0

/-- A partial frame on the input ends with an abort (R401): one that is being forwarded goes on to its end, one for
this device is discarded. -/
def abortPartial (s : State) (q vc : Nat) (b : List Byte) : State :=
  if b.isEmpty || endsHere s (frameOf b) then s
  else
    growFrame (updPort s q fun p => { p with aborts := sat32 p.aborts 1 }) (q, vc) { frameOf b with abort := true }

/-- A link fails (R395): a break of its ring; its frames are sent again wrapped, its partial input aborted; the
handshake starts again as soon as its lanes are up. -/
def linkFail (s : State) (q cause : Nat) : State :=
  let p := ringPort s q
  if p.state != 2 && p.state != 1 then s
  else
    let s1 := updPort s q fun p => { portHandshake p with
      state := if p.lanesUp then 1 else 3, express := [], bulk := [] }
    if p.state = 1 then updPort s1 q fun _ => { p with state := if p.lanesUp then 1 else 3, initGood := 0 }
    else
      let frames := unfinished p
      let s2 := ringPortEvent s1 q 2 cause (wrapCount s1 q frames)
      let s3 := endBreak s2 q false
      let s4 := frames.foldl (fun s f => enqueueAt s q f) s3
      abortPartial (abortPartial s4 q 0 p.asm0) q 1 p.asm1

/-- The lanes of a port's link come up: the handshake starts (R391). -/
def linkLanesUp (s : State) (q version : Nat) : State :=
  updPort s q fun p =>
    let p := { p with lanesUp := true, version := version }
    if p.state = 0 || p.state = 3 then (if (portRole s q).isSome then portHandshake p else p) else p

/-- The lanes of a port's link go down. -/
def linkLanesDown (s : State) (q cause : Nat) : State :=
  linkFail (updPort s q fun p => { p with lanesUp := false }) q cause

/-- Distance from an `ack` to a held flit's number: held flits up to `ack` are covered. -/
def covered (m ack seq last : Nat) : Bool := (seq + m - last) % m ≤ (ack + m - last) % m

/-- What a good flit's `ack`, credits and `nak` do at the transmitter (R393). -/
def takeAck (s : State) (q : Nat) (ack c0 c1 : Nat) (nak : Bool) : State :=
  let p := ringPort s q
  let m := seqMod p
  let ack := ack % m
  let within := (p.held.any fun h => h.seq == ack)
  let keep := if within then (p.held.dropWhile fun h => h.seq != ack).drop 1 else p.held
  let moved := keep.length != p.held.length
  let s1 := updPort s q fun p => { p with
    held := keep
    replay := min p.replay keep.length
    advanced := p.advanced || moved
    consecutive := if moved then 0 else p.consecutive
    credit0 := p.credit0 + (if p.version = 0 then 0 else c0)
    credit1 := p.credit1 + (if p.version = 0 then c0 + c1 else c1) }
  if nak then startReplay s1 q else s1

/-- Frame bytes received so far on a VC. -/
def asmOf (p : RingPort) (vc : Nat) : List Byte := if vc = 0 then p.asm0 else p.asm1
def setAsm (s : State) (q vc : Nat) (v : List Byte) : State :=
  updPort s q fun p => if vc = 0 then { p with asm0 := v } else { p with asm1 := v }

/-- Input credits that waited for a frame's end are free (R406). -/
def freeWaiting (s : State) (q : Nat) : State := updPort s q fun p => { p with freed1 := p.freed1 + p.wait1, wait1 := 0 }

/-- A frame that ends here is whole (R397, R406): one for a cold context keeps its credits until it is taken. -/
def endFrame (s : State) (q : Nat) (b : List Byte) (ab : Bool) : State :=
  let n := (ringPort s q).wait1
  let hold := if n = 0 then none else some (q, n)
  if ab then freeWaiting s q
  else if isOwnAddress s (frameOf b).dst then
    match parseFrame b with
    | some f => updPort (frameArrived s q { f with hold := if frameVc f = 1 then hold else none }) q fun p =>
        if frameVc f = 1 then { p with wait1 := 0 } else p
    | none => freeWaiting s q
  else frameArrived s q (frameOf b)

/-- Frame bytes of an accepted data flit (R397, R399): from `sof` to `eof` on its VC. A frame in transit is routed from
its first flit on; the flits of one whose `sof` never came are nothing. -/
def takeData (s : State) (q vc : Nat) (sof eof ab : Bool) (bs : List Byte) : State :=
  let old := if sof then [] else asmOf (ringPort s q) vc
  let f := frameOf (old ++ bs)
  if !sof && old.isEmpty then s
  else
    let s0 := if sof then abortPartial s q vc (asmOf (ringPort s q) vc) else s
    let s1 := setAsm s0 q vc (if eof then [] else old ++ bs)
    if endsHere s f then (if eof then endFrame s1 q (old ++ bs) ab else s1)
    else if sof then frameArrived s1 q { f with abort := eof && ab, cut := if eof then none else some (q, vc) }
    else if !eof then growFrame s1 (q, vc) { f with cut := some (q, vc) }
    else if ab then abortPartial s1 q vc (old ++ bs)
    else growFrame s1 (q, vc) f

/-- A flit is not accepted in order: counted where its check fails, and answered with one `nak` (R392). -/
def discardFlit (s : State) (q : Nat) (bad : Bool) : State :=
  updPort s q fun p => { p with
    fcrcErrors := if bad then sat32 p.fcrcErrors 1 else p.fcrcErrors
    needNak := p.needNak || !p.nakSent }

/-- A new numbering of a port's link starts with every input slot free (R391). -/
def dropHolds (s : State) (q : Nat) : State :=
  updRing s fun r => { r with inbox := r.inbox.map fun f => if f.hold.any fun h => h.1 == q then { f with hold := none } else f }

/-- The link is up once 4 good init flits have been received (R391). -/
def takeInit (s : State) (q : Nat) (c0 c1 : Nat) : State :=
  let p := ringPort s q
  if p.initGood + 1 < 4 then updPort s q fun p => { p with initGood := p.initGood + 1 }
  else
    let s1 := updPort s q fun p => { portHandshake p with
      state := 2
      rxLast := seqMod p - 1
      credit0 := if p.version = 0 then 0 else c0
      credit1 := if p.version = 0 then c0 + c1 else c1 }
    let s2 := ringPortEvent (dropHolds s1 q) q 1 0 0
    match portRole s2 q with
    | none => s2
    | some (k, dir) => match ringSlot s2 k with
      | none => s2
      | some r => if r.breaks.getLsbD (linkPosition r dir) then endBreak s2 q true else s2

/-! ## Contexts a frame addresses (R405 to R407) -/

def flowLimit : Nat := 65536

def flowOf (s : State) (f : Nat) : Option Flow := s.ring.flows.find? fun x => x.num == f
def updFlow (s : State) (f : Nat) (g : Flow → Flow) : State :=
  { s with ring.flows := s.ring.flows.map fun x => if x.num == f then g x else x }

def isPinnedKind (k : Nat) : Bool := k == 3 || k == 5 || k == 6

/-- A context in use that has not been lost (R350). -/
def liveFlow (s : State) (num : Nat) : Option Flow := (flowOf s num).filter fun f => !f.dead

/-- The context a frame addresses, if its generation is right (R407). -/
def flowFor (s : State) (num gen : Nat) : Option Flow := (liveFlow s num).filter fun f => f.gen == gen

/-- The contexts that are hot: 4,096, or 128 fewer for each bank the array runs without (R406, R590). -/
def hotContexts (s : State) : Nat := 4096 - 128 * (s.spare.gone.filter fun b => b.array == 9).length

/-- Whether a context may be cold, so that a frame to it can miss the cache (R406). -/
def mayMiss (s : State) (f : Flow) : Bool :=
  hotContexts s < s.ring.flows.length && !isPinnedKind f.kind

/-- A frame of flow data for a context of this device that may be cold. -/
def coldFrame (s : State) (f : Frame) : Bool :=
  isOwnAddress s f.dst && f.ftype = 0 && (flowFor s f.dflow f.dgen).any (mayMiss s)

/-! ## Receiving -/

/-- A flit arrives at a port (R391, R392). -/
def receiveFlit (s : State) (q : Nat) (b : List Byte) : State :=
  let p := ringPort s q
  let good := b.length == 64 && crc32c (b.take 60) == fld b 60 4
  let fctl := fld b 0 1
  if p.state = 1 then
    (if good && fctl.testBit 6 && !fctl.testBit 0 then takeInit s q (fld b 6 1) (fld b 7 1)
     else updPort s q fun p => { p with
       initGood := 0, fcrcErrors := if good then p.fcrcErrors else sat32 p.fcrcErrors 1 })
  else if p.state != 2 then s
  else if !good then discardFlit s q true
  else if fctl.testBit 6 then s
  else
    let s1 := takeAck s q (fld b 4 2 % 4096) (fld b 6 1) (fld b 7 1) (fctl.testBit 5)
    let p := ringPort s1 q
    if !fctl.testBit 0 then s1
    else if fld b 2 2 % seqMod p != (p.rxLast + 1) % seqMod p then discardFlit s1 q false
    else
      let vc := if p.version = 0 then 1 else boolNat (fctl.testBit 3)
      let bs := (b.drop 8).take (fld b 1 1)
      let cold := vc = 1 && coldFrame s1 (frameOf (if fctl.testBit 1 then bs else p.asm1 ++ bs))
      let s2 := updPort s1 q fun p => { p with
        rxLast := (p.rxLast + 1) % seqMod p
        nakSent := p.nakSent && !fctl.testBit 4
        freed0 := if vc = 0 then p.freed0 + 1 else p.freed0
        freed1 := if vc = 1 && !cold then p.freed1 + 1 else p.freed1
        wait1 := if cold then p.wait1 + 1 else p.wait1 }
      takeData s2 q vc (fctl.testBit 1) (fctl.testBit 2) (fctl.testBit 7) bs

/-! ## Frames of the inbox -/

/-- A frame of the inbox is the one a row takes, whichever of this device's addresses it came to, however many devices
forwarded it. -/
def Frame.taken (x f : Frame) : Bool :=
  x.ftype == f.ftype && x.src == f.src && x.dflow == f.dflow && x.dgen == f.dgen && x.fseqno == f.fseqno &&
    x.payload == f.payload && !x.abort

/-- A frame that reached this device has been taken, and gives back the input credits it held (R406). -/
def takeInbox (s : State) (f : Frame) : State :=
  match s.ring.inbox.find? (·.taken f) with
  | none => s
  | some x =>
    let s1 := updRing s fun r => { r with inbox := r.inbox.erase x }
    match x.hold with
    | some (q, n) => updPort s1 q fun p => { p with freed1 := p.freed1 + n }
    | none => s1

/-- A frame is stale: its context is free or of another generation (R407). -/
def countStale (s : State) (num : Nat) : State :=
  if (flowOf s num).isSome then updFlow s num fun f => { f with stale := sat32 f.stale 1 }
  else updRing s fun r => { r with staleFree := sat32 r.staleFree 1 }

/-! ## Flow contexts (R405 to R410) -/

def pinnedCount (s : State) : Nat := (s.ring.flows.filter fun f => isPinnedKind f.kind).length
def pinnedFree (s : State) : Bool := pinnedCount s < 1024 && s.ring.flows.length < flowLimit

/-- The lowest number no context in use has. -/
def freeFlowNumber (s : State) : Nat :=
  ((List.range (s.ring.flows.length + 1)).find? fun n => !(s.ring.flows.any fun f => f.num == n)).getD 0

/-- Allocate a context: its generation increases by 1 (R407); a full pool sets its leaf (R410). -/
def allocFlow (s : State) (f : Flow) : Nat × State :=
  let n := freeFlowNumber s
  let g := (memGet s.ring.gens n).toNat + 1
  let s1 := { s with
    ring.gens := memPut s.ring.gens n (BitVec.ofNat 8 g)
    ring.flows := s.ring.flows ++ [{ f with num := n, gen := g % 256 }] }
  (n, if s1.ring.flows.length = flowLimit then setLeaf s1 12 13 else s1)

/-- Free a context with its DRAM. -/
def freeFlow (s : State) (f : Nat) : State :=
  release (release (updRing s fun r => { r with flows := r.flows.filter fun x => x.num != f }) (.sendBuf f))
    (.recvRing f)

/-- `EV_FLOW_STATE` (R419, R420). -/
def flowStateEvent (s : State) (src what kind partner remote code rxBase : Nat) : State :=
  notify s 0x0C10 src (leBytes 1 what ++ leBytes 1 kind ++ leBytes 2 partner ++ leBytes 2 remote ++
    leBytes 1 code ++ [0] ++ leBytes 8 rxBase) 10

/-- A flow control payload (R408). -/
def controlPayload (s : State) (op kind code sgen sflow token maxItem : Nat) (extra : List Byte) : List Byte :=
  (leBytes 1 op ++ leBytes 1 kind ++ leBytes 1 code ++ leBytes 1 sgen ++ leBytes 2 sflow ++ leBytes 2 token ++
    leBytes 4 (s.ring.rootLat.getD 0) ++ leBytes 4 maxItem ++ extra ++ List.replicate 16 0).take 32

/-- Send a flow control frame to a partner. -/
def sendControl (s : State) (dst dflow dgen : Nat) (payload : List Byte) : State :=
  sendFrame s { dst := dst, ftype := 2, src := s.ring.stageAddr, dflow := dflow, dgen := dgen,
                payload := payload }

/-- The device may open and accept flows (R404). -/
def inBudget (s : State) : Bool := s.ring.configured && s.ring.rootLat.isSome && s.ring.within

/-- Send a flow's OPEN, again or for the first time (R408). -/
def sendOpen (s : State) (f : Flow) (extra : List Byte) : State :=
  let s1 := updFlow s f.num fun f => { f with tries := f.tries + 1 }
  sendControl s1 f.partner 0 0 (controlPayload s1 1 f.kind 0 f.gen f.num f.token f.maxItem extra)

/-- Start an open: a context with the next token (R408). -/
def startOpen (s : State) (f : Flow) : Nat × State :=
  allocFlow (updRing s fun r => { r with nextToken := (r.nextToken + 1) % 2 ^ 16 })
    { f with state := 1, token := s.ring.nextToken }

/-- The OPEN frame of a context just started (R408). -/
def launchOpen (s : State) (num : Nat) : State :=
  match flowOf s num with
  | some f => sendOpen s f []
  | none => s

/-! ## Flow data (R411, R413, R414) -/

/-- The segments of an item: 4,088 bytes each with an 8-byte header (R413). -/
def itemSegments (no : Nat) (data : List Byte) (lost : Bool) : List (Nat × List Byte × Bool) :=
  if lost then [(no, leBytes 4 no ++ leBytes 2 0 ++ leBytes 2 3, true)]
  else
    let ps := chunk 4088 (data.length + 1) data
    ps.mapIdx fun i p =>
      (no, leBytes 4 no ++ leBytes 2 i ++ leBytes 2 (boolNat (i + 1 == ps.length)) ++ p, i + 1 == ps.length)

/-- Send waiting segments while fewer than 256 frames are unacknowledged (R411). -/
def pumpFlow (num : Nat) : Nat → State → State
  | 0, s => s
  | fuel + 1, s =>
    match flowOf s num with
    | none => s
    | some f =>
      match f.segments with
      | [] => s
      | (no, payload, last) :: rest =>
        if 256 ≤ f.unacked then s
        else
          let s1 := updFlow s num fun f => { f with
            segments := rest, txSeq := (f.txSeq + 1) % 2 ^ 32, unacked := f.unacked + 1
            items := if last then f.items.map fun i => if i.no == no then { i with last := some f.txSeq } else i
              else f.items }
          pumpFlow num fuel (sendFrame s1 {
            dst := f.partner, ftype := 0, src := s.ring.stageAddr,
            dflow := f.remote, dgen := f.dgen, fseqno := f.txSeq, payload := payload })

/-- Queue an item for sending and start sending it. -/
def flowQueueItem (s : State) (num : Nat) (data : List Byte) (lost : Bool) : State :=
  match flowOf s num with
  | none => s
  | some _ =>
    let s1 := updFlow s num fun f => { f with
      nextItem := (f.nextItem + 1) % 2 ^ 32
      items := f.items ++ [⟨f.nextItem, data.length, lost, none⟩]
      segments := f.segments ++ itemSegments f.nextItem data lost }
    pumpFlow num 257 s1

/-- Bytes of the send buffer in use. -/
def sendBufBytes (f : Flow) : Nat := (f.items.map (·.size)).sum

/-- A delivered codec frame, or a lost marker, into the stream flow attached to a codec stream (R414). -/
def streamFlowSend (s : State) (stream frameMax : Nat) (data : List Byte) (lost : Bool) : State :=
  match s.ring.flows.find? fun f => f.kind == 2 && !f.inbound && f.state == 2 && f.stream == stream with
  | none => s
  | some f =>
    if lost then flowQueueItem s f.num [] true
    else if 2 * frameMax < sendBufBytes f + data.length then
      flowQueueItem (updFlow s f.num fun f => { f with txOverruns := sat32 f.txOverruns 1 }) f.num [] true
    else flowQueueItem s f.num data false

/-- Send a flow ack (R411). -/
def sendFlowAck (s : State) (num : Nat) : State :=
  match flowOf s num with
  | none => s
  | some f =>
    sendFrame (updFlow s num fun x => { x with sinceAck := 0 })
      { dst := f.partner, ftype := 1, src := s.ring.stageAddr, dflow := f.remote, dgen := f.dgen,
        payload := leBytes 4 ((f.rxNext + 2 ^ 32 - 1) % 2 ^ 32) }

/-- Open an item's receive slot: `seq_end` invalid, then `seq_begin`, state 0 (R413). -/
def slotBegin (s : State) (f : Flow) (item : Nat) : State :=
  let a := f.rxBase + f.rxSlot * f.rxSlotBytes
  dramWrite (dramWrite s (a + 0xFC) [0xFF, 0xFF, 0xFF, 0xFF]) a (leBytes 4 item ++ [0])

/-- Complete an item in its receive slot (R413), with `EV_FLOW_ITEM`. DESIGN CHOICE (log entry 208): the event's overwrites
field (R420) is a lifetime count that no clear of `FLOW_STATUS` touches; it saturates (R6). -/
def slotComplete (s : State) (num item : Nat) (lost : Bool) : State :=
  match flowOf s num with
  | none => s
  | some f =>
    let full := f.rxDepth ≤ f.rxFilled
    let overwrites := if full then sat32 f.overwritesAll 1 else f.overwritesAll
    let data := if lost then [] else f.curData
    let s1 :=
      if f.rxDepth = 0 then s
      else
        let a := f.rxBase + f.rxSlot * f.rxSlotBytes
        let s1 := dramWrite (slotBegin s f item) (a + 0x100) (data.take (f.rxSlotBytes - 0x100))
        dramWrite s1 a (leBytes 4 item ++ leBytes 1 (if lost then 2 else 1) ++ [0, 0, 0] ++
          leBytes 4 data.length ++ leBytes 2 f.partner ++ leBytes 2 num ++ leBytes 8 (classL s) ++
          List.replicate (0xFC - 0x18) 0 ++ leBytes 4 item)
    let s2 := updFlow s1 num fun f => { f with
      curItem := none
      curData := []
      rxItem := (item + 1) % 2 ^ 32
      rcvdItems := sat32 f.rcvdItems 1
      rxSlot := if f.rxDepth = 0 then 0 else (f.rxSlot + 1) % f.rxDepth
      rxFilled := min f.rxDepth (f.rxFilled + 1)
      overwritesAll := overwrites
      overwrites := if full then sat32 f.overwrites 1 else f.overwrites }
    notify s2 0x0C11 num (leBytes 4 item ++ leBytes 1 f.rxSlot ++ leBytes 1 (boolNat lost) ++ [0, 0] ++
      leBytes 4 data.length ++ leBytes 4 overwrites) 11

/-- Whether a 32-bit number comes before another (R411). -/
def seqBefore (a b : Nat) : Bool := a != b && (b + 2 ^ 32 - a) % 2 ^ 32 < 2 ^ 31

/-- A whole item of a storage flow waits for the Gate (R349). -/
def storeItem (s : State) (num item : Nat) : State :=
  updFlow s num fun f => { f with
    stored := f.stored ++ [f.curData], curItem := none, curData := [], rxItem := (item + 1) % 2 ^ 32
    rcvdItems := sat32 f.rcvdItems 1 }

/-- Take one segment delivered in order; one of an item already marked lost says nothing. -/
def takeSegment (s : State) (num : Nat) (payload : List Byte) : State :=
  let item := fld payload 0 4
  let flags := fld payload 6 2
  if (flowOf s num).all fun f => !([1, 2, 4].contains f.kind) || seqBefore item f.rxItem then s else
  let s1 := match flowOf s num with
    | some f =>
      if f.curItem = some item then s
      else updFlow (if f.rxDepth = 0 then s else slotBegin s f item) num fun f => { f with
        curItem := some item, curData := [] }
    | none => s
  let s2 := updFlow s1 num fun f => { f with curData := f.curData ++ payload.drop 8 }
  if !flags.testBit 0 then s2
  else if (flowOf s2 num).any fun f => f.kind == 4 then storeItem s2 num item
  else slotComplete s2 num item (flags.testBit 1)

/-- Deliver the next frame in order, then every held frame that follows it (R411). -/
def deliverFrames (num : Nat) : Nat → State → List Byte → State
  | 0, s, _ => s
  | fuel + 1, s, payload =>
    let s1 := takeSegment s num payload
    let s2 := updFlow s1 num fun f => { f with rxNext := (f.rxNext + 1) % 2 ^ 32, sinceAck := f.sinceAck + 1 }
    match flowOf s2 num with
    | none => s2
    | some f =>
      let s3 := if 16 ≤ f.sinceAck then sendFlowAck s2 num else s2
      match f.rxHeld.find? fun h => h.1 == f.rxNext with
      | none => s3
      | some h => deliverFrames num fuel (updFlow s3 num fun f => { f with rxHeld := f.rxHeld.erase h }) h.2

end Sys2Proof.Machine
end

