-- ==== Sys2Proof/Machine/LaneOps.lean ====
section
/-! DEFINITION. Serial lanes: their numbers and allocation, rates and PLLs, markers, equalisers, and how links
form, lose positions and take spares (R356 to R380). -/

namespace Sys2Proof.Machine

/-! ## Numbers (R356) -/

/-- Place of a lane address in the list of lanes; none where no FMC9 part has it. -/
def lanePlace (a : Nat) : Option Nat :=
  if a < 48 then some a else if 64 ≤ a && a < 70 then some (a - 16) else none
/-- The lane is bonded on this part. -/
def laneBonded (f : Fuse) (a : Nat) : Bool :=
  if a < 64 then a < serialLanes f else a < 64 + spareLanes f
def laneOf (s : State) (a : Nat) : SerialLane :=
  match lanePlace a with
  | some k => s.lane.lanes.getD k {}
  | none => {}
def updSerial (s : State) (a : Nat) (f : SerialLane → SerialLane) : State :=
  match lanePlace a with
  | some k => { s with lane.lanes := modAt s.lane.lanes k f }
  | none => s
def quadOf (s : State) (q : Nat) : Quad := s.lane.quads.getD q {}
def linkOf (s : State) (q : Nat) : Option LaneLink := s.lane.links.getD q none
def updLink (s : State) (q : Nat) (f : LaneLink → LaneLink) : State :=
  { s with lane.links := modAt s.lane.links q (·.map f) }
/-- Lane addresses of the part. -/
def laneAddrs (f : Fuse) : List Nat := List.range (serialLanes f) ++ (List.range (spareLanes f)).map (64 + ·)

/-! ## Allocation (R359, R360) -/

/-- Fixed-function personalities that a lane may take. -/
def lanePersonalities (f : Fuse) (a : Nat) : List Nat :=
  if f.pkgM then
    (if a < 4 then [4] else if a < 18 then [3, 5] else if a < 20 then [3, 5, 7] else if a < 22 then [6] else [7])
  else
    (if a < 4 then [4] else if a < 20 then [3] else if a < 36 then [5] else if a < 38 then [6]
     else if a < 42 then [7] else [])
def laneAllows (f : Fuse) (a pers : Nat) : Bool :=
  pers == 0 || pers == 1 || pers == 2 || (lanePersonalities f a).contains pers

/-- The quad of root port p. -/
def rootQuad (f : Fuse) (p : Nat) : Nat := if f.pkgM then [3, 4, 1, 2].getD p 0 else 5 + p
/-- The lanes of ETH port e and of SDI output i. -/
def ethLane (f : Fuse) (e : Nat) : Nat := (if f.pkgM then 20 else 36) + e
def sdiLane (f : Fuse) (i : Nat) : Nat :=
  if f.pkgM then [22, 23, 18, 19].getD i 0 else 38 + i

/-! ## Rates and PLLs (R357, R362) -/

/-- The rate of a personality's rate code in units of 10 kbit/s; 0 where the code fixes none. -/
def laneRate (pers rate : Nat) : Nat :=
  match pers with
  | 1 => [1031250, 1250000, 1600000, 2062500, 2578125, 2800000, 3200000].getD rate 0
  | 2 => [312500, 625000].getD rate 0
  | 4 => [0, 250000, 500000, 800000, 1600000, 3200000].getD rate 0
  | 5 => [0, 250000, 500000, 800000, 1600000, 3200000].getD rate 0
  | 6 => [1031250, 2578125].getD rate 0
  | _ => 0

/-- Rate codes listed for a personality. -/
def rateListed (pers rate : Nat) : Bool :=
  match pers with
  | 1 => rate < 7
  | 2 => rate < 2
  | 4 => 1 ≤ rate && rate ≤ 5
  | 5 => 1 ≤ rate && rate ≤ 5
  | 6 => rate < 2
  | _ => rate == 0

/-- Rates that PLL A makes from 100 MHz (f = 0) or 156.25 MHz. -/
def pllAMakes (f pers rate : Nat) : Bool :=
  match pers with
  | 1 => (if f = 0 then [1, 2, 5, 6] else [0, 1, 3, 4]).contains rate
  | 4 => f == 0
  | 5 => f == 0
  | 6 => f == 1
  | _ => true

/-- The PLL a lane names is of the kind and source its personality needs, and makes its rate. -/
def pllFits (q : Quad) (pers rate pll : Nat) : Bool :=
  if pers = 0 then true
  else if pll = 0 then q.refA != 0xFF && [1, 2, 4, 5, 6].contains pers && pllAMakes q.fa pers rate
  else q.srcB != 0xFF && (if pers = 7 then q.srcB == 4 else if pers = 3 then true
    else (pers == 1 || pers == 2) && q.srcB != 4)

/-- Two rates are apart by a power of 2, 8 or less. -/
def ratesShare (a b : Nat) : Bool := (List.range 4).any fun k => a == b * 2 ^ k || b == a * 2 ^ k

/-- Frequency in kHz that a setting declares, and whether a measurement qualifies it (R358). -/
def declaredKhz (f : Nat) : Nat := if f = 0 then 100000 else 156250
def refQualifies (f khz : Nat) : Bool :=
  khz * 2000 ≤ declaredKhz f * 2001 && declaredKhz f * 1999 ≤ khz * 2000

/-! ## Uses (R375) -/

/-- The lanes that belong to a link by position: a retired one that has become its pair's spare does no more (R380). -/
def members (l : LaneLink) : List Nat := l.lanes.filter fun a => !l.returned.contains a

/-- The port whose link holds a lane, as a member or as its spare. -/
def lanePort (s : State) (a : Nat) : Option Nat :=
  (List.range 8).find? fun q => (linkOf s q).any fun l => (members l).contains a || l.spareLane == some a
/-- The quad whose PLLs a lane uses; a spare in use runs on those of its link's quad, which R356 leaves open (DESIGN
CHOICE, log entry 188). -/
def laneQuad (s : State) (a : Nat) : Option Nat :=
  if a < 64 then some (a / 4) else ((lanePort s a).bind (linkOf s)).map fun l => l.lanes.headD 0 / 4
/-- Whether a REFQ input feeds the PLL of a lane (R358). -/
def laneFedBy (s : State) (a refq : Nat) : Bool :=
  let x := laneOf s a
  x.pers != 0 && (laneQuad s a).any fun k =>
    let q := quadOf s k
    if x.pll = 0 then q.refA == refq else q.srcB == refq
/-- Its position in the link: 4 for a spare in use. -/
def lanePos (s : State) (a : Nat) : Option Nat :=
  (lanePort s a).bind fun q => (linkOf s q).bind fun l =>
    if l.spareLane == some a then some 4 else l.lanes.findIdx? (· == a)

/-- The sensor that a SENSOR lane is bound to. -/
def laneSensor (s : State) (a : Nat) : Option Nat :=
  (List.range 4).find? fun sn => ((s.img.sensors.getD sn {}).cfg).any fun c =>
    c.iface == 0 && 4 + c.first ≤ a && a < 4 + c.first + c.links * c.lanesPer

/-- A lane that carries traffic; a retired position of a link carries none (R378, R380). -/
def laneInUse (s : State) (a : Nat) : Bool :=
  let x := laneOf s a
  ((lanePort s a).isSome && x.st != 6) || (x.pers == 3 && (laneSensor s a).isSome) || (x.pers == 4 && x.st == 3) ||
    (x.pers == 5 && (List.range 4).any fun p => rootQuad s.fuse p == a / 4 && (s.gate.ports.getD p {}).state % 2 == 1) ||
    (x.pers == 6 && (List.range 2).any fun e => ethLane s.fuse e == a && (s.out.eth.getD e {}).up) ||
    (x.pers == 7 && (List.range 4).any fun i => sdiLane s.fuse i == a &&
      ((s.out.outs.getD i {}).enabled || (s.out.outs.getD i {}).ending))

/-- Touchstone may correct a lane's termination: in a gap of the coding, or in a low-power state or without traffic
(R374). -/
def laneGap (s : State) (a : Nat) : Bool :=
  [1, 2, 3].contains (laneOf s a).pers || [0, 1, 4, 7].contains (laneOf s a).st || !laneInUse s a

/-- Lanes that a root port needs, all with PCIE-RP personality. -/
def rpLanes (s : State) (p : Nat) : Bool :=
  (List.range 4).all fun i => (laneOf s (4 * rootQuad s.fuse p + i)).pers == 5

def ethPortUp (s : State) (p : Nat) : Bool := (s.out.eth.getD p {}).up

/-- SENSOR lane k has the SENSOR personality, in a quad that no root port and no SDI output has taken (R360); its
lane is bonded. -/
def sensorLane (s : State) (k : Nat) : Bool :=
  (laneOf s (4 + k)).pers == 3 &&
    (List.range 4).all fun i => !([5, 7].contains (laneOf s (4 * ((4 + k) / 4) + i)).pers)
def sensorLaneBonded (s : State) (k : Nat) : Bool := laneBonded s.fuse (4 + k)

/-- Lanes of a configuration's link group. -/
def groupLanes (c : SensConfig) : List Nat :=
  if c.iface = 0 then (List.range (c.links * c.lanesPer)).map (4 + c.first + ·) else []
def sensorLanesLocked (s : State) (c : SensConfig) : Bool := (groupLanes c).all fun a => (laneOf s a).st == 3

/-- The serial rate of an enabled SDI output in units of 10/1,001 kbit/s, with its divisor 1.001 (R425). -/
def sdiRate (o : Output) : Nat :=
  [148500, 297000, 594000, 1188000].getD o.std 0 * (if o.fpsDen = 1001 then 1000 else 1001)

/-- The rate of a lane with one, in units of 10/1,001 kbit/s: from its code, its sensor or its output. -/
def knownRate (s : State) (a : Nat) : Option Nat :=
  let x := laneOf s a
  if x.pers = 0 then none
  else if x.pers = 3 then
    ((laneSensor s a).bind fun sn => (s.img.sensors.getD sn {}).cfg).map fun c => c.rate * 1001000
  else if x.pers = 7 then
    ((List.range 4).find? fun i => sdiLane s.fuse i == a && (s.out.outs.getD i {}).enabled).map fun i =>
      sdiRate (s.out.outs.getD i {})
  else some (laneRate x.pers x.rate * 1001)

/-- A sensor's lane rate against the other lanes on the PLLs of its lanes (R357). The lanes of the configuration that is
being replaced still count with their rate, which R637 leaves open (DESIGN CHOICE, log 182). -/
def sensorPllOk (s : State) (_ : Nat) (c : SensConfig) : Bool :=
  let own := groupLanes c
  own.all fun a => (List.range 4).all fun i =>
    let b := 4 * (a / 4) + i
    own.contains b || (laneOf s b).pll != (laneOf s a).pll || (knownRate s b).all fun r => ratesShare r (c.rate * 1001000)

/-! ## Native coding (R365 to R367, R370) -/

/-- One byte of the marker's check code, most significant bit first. -/
def crc8Byte (c : Nat) (b : Byte) : Nat :=
  (List.range 8).foldl (fun c _ => if c.testBit 7 then (c * 2 % 256) ^^^ 7 else c * 2 % 256) (c ^^^ b.toNat)
def crc8 (bs : List Byte) : Nat := bs.foldl crc8Byte 0

/-- A milestone marker (R365). -/
def markerBytes (pos lp mseq active rxOk : Nat) : List Byte :=
  let b := [0x5D, 0xE6] ++ leBytes 1 (pos % 8 + 8 * lp + 16) ++ leBytes 2 mseq ++ leBytes 1 active ++ leBytes 1 rxOk
  b ++ leBytes 1 (crc8 b)

/-- A marker with good `sync` and `mcrc`. -/
def markerGood (m : List Byte) : Bool :=
  m.length == 8 && m.take 2 == [0x5D, 0xE6] && crc8 (m.take 7) == fld m 7 1

/-- The scrambler and the descrambler (R366), over payload bits and the last 58 line bits, newest first. -/
def scramble : List Bool → List Bool → List Bool
  | _, [] => []
  | past, d :: l =>
    let b := xor d (xor (past.getD 38 false) (past.getD 57 false))
    b :: scramble (b :: past.take 57) l
def descramble : List Bool → List Bool → List Bool
  | _, [] => []
  | past, b :: l => xor b (xor (past.getD 38 false) (past.getD 57 false)) :: descramble (b :: past.take 57) l

/-- Bit stuffing (R367): after 40 equal line bits one of the opposite value; the run so far and its value. -/
def stuff : Nat → Bool → List Bool → List Bool
  | _, _, [] => []
  | run, v, b :: l =>
    let n := if b == v then run + 1 else 1
    if n = 40 then b :: (!b) :: stuff 1 (!b) l else b :: stuff n b l

/-- Its removal; a removed bit that repeats the run is a stuff error. -/
def unstuff : Nat → Bool → List Bool → List Bool × Nat
  | _, _, [] => ([], 0)
  | run, v, b :: l =>
    if run = 40 then
      let r := unstuff (if b == v then 41 else 1) b l
      (r.1, r.2 + boolNat (b == v))
    else
      let r := unstuff (if b == v then run + 1 else 1) b l
      (b :: r.1, r.2)

/-- The positions of an `active` mask in the order of the stripe, the spare (4) in the position of the lane it
replaces, and where word w of a link goes (R370). -/
def activePositions (mask sparePos : Nat) : List Nat :=
  (List.range 4).filterMap fun i =>
    if mask.testBit 4 && sparePos == i then some 4 else if mask.testBit i then some i else none
def wordPosition (mask sparePos w : Nat) : Option Nat :=
  (activePositions mask sparePos)[w % (activePositions mask sparePos).length]?

/-! ## States and equalisers (R373, R376, R384, R385) -/

/-- `EV_LANE_STATE`. -/
def laneEvent (s : State) (a old new cause : Nat) : State :=
  let x := laneOf s a
  notify s 0x0B01 a (leBytes 1 old ++ leBytes 1 new ++ leBytes 1 cause ++ leBytes 1 x.pers ++ leBytes 4 x.lockLosses)
    (if new = 0 || new = 6 || (new = 1 && cause != 0) then 0 else 1)

/-- A lane's taps at the fused preset of its personality and rate code. -/
def presetTaps (x : SerialLane) : SerialLane :=
  { x with eq := 0, taps := (List.range 12).map (Config.eqPreset x.pers x.rate) }

/-- The equaliser as a new state leaves it: preset taps in training, the saved ones after the deep state; adapting when
locked, held when shallow. A frozen equaliser stays frozen through the shallow state (DESIGN CHOICE, log entry 188). -/
def eqFor (x : SerialLane) (new : Nat) : SerialLane :=
  let frozen := x.eq = 3 && (x.st = 3 || x.st = 4)
  if new = 2 then (if x.st = 1 then { x with eq := 0 } else presetTaps x)
  else if new = 3 then { x with eq := if frozen then 3 else 1 }
  else if new = 4 || new = 7 then { x with eq := if frozen then 3 else 2 }
  else x

/-- A tap within its range (R373). -/
def tapRange (i : Nat) (v : Int) : Int := if i = 0 then clampInt v (-64) 63 else clampInt v (-32) 31

/-- The taps as adaptation has left them, free values within their ranges: what is held, saved or frozen from now on
(R373; which values: log entry 223). -/
def adapted (s : State) (a : Nat) : State :=
  if (laneOf s a).st = 3 && (laneOf s a).eq = 1 then
    let d := drawBytes s 12
    updSerial d.2 a fun x => { x with taps := d.1.mapIdx fun i b => tapRange i ((b.toNat : Int) % 128 - 64) }
  else s

/-- `EV_LANE_LOOP`. -/
def loopEvent (s : State) (a : Nat) (l : LaneLoop) (result : Nat) (spare : Bool) (bits errs : Nat) : State :=
  notify s 0x0B03 a (leBytes 1 l.loop ++ leBytes 1 l.pattern ++ leBytes 1 result ++ leBytes 1 (boolNat spare) ++
    leBytes 8 bits ++ leBytes 4 errs) 10

/-- A use takes a lane under test (R375): its loop stops, with what the checker has counted as free values (DESIGN CHOICE,
log entry 224). -/
def stopLoop (s : State) (a : Nat) : State :=
  match (laneOf s a).loop with
  | none => s
  | some l =>
    let bits := draw s
    let errs := draw bits.2
    loopEvent (updSerial errs.2 a fun x => { x with loop := none, loopErrors := sat32 x.loopErrors (errs.1 % 2 ^ 32) }) a l 3
      false (bits.1 % 2 ^ 64) (errs.1 % 2 ^ 32)

/-- A lane is retired, under test or not (R380). -/
def laneRetired (s : State) (a : Nat) : Bool := (laneOf s a).st == 6 || (laneOf s a).loop.any (·.retired)

/-- A lane takes a new state, with its event. A loop on it stops, and a retired lane stays retired (R375, R380). -/
def setLane (s : State) (a want cause : Nat) : State :=
  let x := laneOf s a
  let new := if want != 5 && x.loop.any (·.retired) then 6 else want
  let s0 := if want = 5 then s else stopLoop (if [1, 4, 7].contains new then adapted s a else s) a
  if x.st = new then s0 else laneEvent (updSerial s0 a fun x => { eqFor x new with st := new }) a x.st new cause

/-- A lane loses lock: counted, its taps back at the preset. -/
def countLoss (s : State) (a : Nat) : State :=
  updSerial s a fun x => presetTaps { x with lockLosses := sat32 x.lockLosses 1 }

/-! ## Links (R376 to R380, R385) -/

/-- Positions this end receives in lock, bit 4 for the spare: its `rx_ok`. -/
def rxOk (s : State) (l : LaneLink) : Nat :=
  ((List.range l.lanes.length).filter fun i => !l.lost.contains i && (laneOf s (l.lanes.getD i 0)).st == 3).foldl
    (fun m i => m + 2 ^ i) 0 +
  16 * boolNat (l.spareLane.any fun a => (laneOf s a).st == 3)

/-- Its transmit `active` mask: healthy positions the partner receives (R378), the spare once it has joined. -/
def txActive (s : State) (l : LaneLink) : Nat := (rxOk s l &&& l.partnerOk) &&& (15 + 16 * boolNat l.joined)

/-- `EV_LANE_LINK`. -/
def linkEventOf (s : State) (q what pos : Nat) : State :=
  match linkOf s q with
  | none => s
  | some l =>
    let ns := match l.lossAt with
      | some c => min ((s.time.c.toNat - c) * 625 / 768) 0xFFFFFFFF
      | none => 0
    notify s 0x0B02 q (leBytes 1 what ++ leBytes 1 (txActive s l) ++ leBytes 1 l.partnerActive ++ leBytes 1 pos ++
      leBytes 4 ns) (2 + q)

/-- A restripe during a replay starts the replay again (R394). -/
def restripe (s : State) (q : Nat) : State :=
  updPort s q fun p => if 0 < p.replay then { p with replay := p.held.length } else p

/-- The pair a lane's quad belongs to. -/
def pairOf (a : Nat) : Nat := if a < 64 then a / 8 else a - 64
def pairSpare (s : State) (k : Nat) : PairSpare := s.lane.pairs.getD k { lane := 64 + k }
/-- The pair's spare is free and in service, and not under test (R375). -/
def spareFree (s : State) (k : Nat) : Bool :=
  k < spareLanes s.fuse && (pairSpare s k).user.isNone && !([5, 6].contains (laneOf s (pairSpare s k).lane).st)

/-- The state of a lane that carries nothing: at rest where it is the free spare of a pair with a link formed with one,
else deep (R377). -/
def idleState (s : State) (a : Nat) : Nat :=
  let k := pairOf a
  if (pairSpare s k).lane = a && (pairSpare s k).user.isNone && k < spareLanes s.fuse &&
      (List.range 8).any fun p => (linkOf s p).any fun m => m.spare && pairOf (m.lanes.headD 0) == k then 7 else 1

/-- A link takes its pair's spare for a position: the spare trains (R377, R379), and the pool may be exhausted (R599). -/
def takeSpare (s : State) (q pos : Nat) : State :=
  match linkOf s q with
  | none => s
  | some l =>
    let k := pairOf (l.lanes.headD 0)
    let a := (pairSpare s k).lane
    let m := laneOf s (l.lanes.headD 0)
    let s0 := { s with lane.pairs := modAt s.lane.pairs k fun x => { x with user := some q } }
    let s1 := if (List.range (spareLanes s.fuse)).any (spareFree s0) then s0 else setLeaf s0 21 7
    let s2 := updSerial s1 a fun x => presetTaps { x with pers := m.pers, rate := m.rate, pll := m.pll }
    setLane (updLink s2 q fun l => { l with spareLane := some a, sparePos := some pos }) a 2 0

/-- A ledger entry for a lane: event, cause, lane, replacing spare. -/
def laneLedger (s : State) (event cause a spare : Nat) : State :=
  spareRecord s 5 event cause a 0 spare (laneOf s a).lockLosses

/-- The link's active set has changed: down when it is empty, degraded otherwise (R378). -/
def afterLoss (s : State) (q pos : Nat) : State :=
  match linkOf s q with
  | none => s
  | some l =>
    if !l.formed then s
    else if txActive s l = 0 then
      (if l.up then linkLanesDown (linkEventOf (updLink s q fun l => { l with up := false }) q 1 pos) q 1 else s)
    else linkEventOf (restripe s q) q 2 pos

/-- A position is retired in both directions (R378 to R380): ledger cause 4 local or 5 partner. -/
def losePosition (s : State) (q pos ledger cause : Nat) : State :=
  match linkOf s q with
  | none => s
  | some l =>
    if l.lost.contains pos || l.lanes.length ≤ pos then s
    else
      let a := l.lanes.getD pos 0
      let take := l.spare && l.spareLane.isNone && l.sparePos.isNone && spareFree s (pairOf a)
      let s1 := updLink s q fun l => { l with
        lost := l.lost ++ [pos], lossAt := some (l.lossAt.getD s.time.c.toNat) }
      let s2 := setLane s1 a 6 cause
      let s3 := if take then takeSpare s2 q pos else setLeaf s2 11 12
      let s4 := laneLedger s3 0 ledger a (if take then (pairSpare s (pairOf a)).lane else 0)
      afterLoss s4 q pos

/-- The spare in use of a link is retired: recorded as local (4) or partner (5), and no other takes its place (R379,
R384, R591). -/
def loseSpare (s : State) (q a ledger cause : Nat) : State :=
  let s1 := updLink s q fun l => { l with spareLane := none, joined := false, worn := none }
  laneLedger (setLeaf (setLane s1 a 6 cause) 11 12) 0 ledger a 0

/-- The spare has both ends' lock and joins (R379, R592). -/
def joinSpare (s : State) (q : Nat) : State :=
  match linkOf s q with
  | none => s
  | some l => match l.spareLane with
    | none => s
    | some a =>
      if l.joined || (laneOf s a).st != 3 || !l.partnerOk.testBit 4 then s
      else
        let s1 := updLink s q fun l => { l with joined := true }
        let s2 := match l.worn with
          | none => s1
          | some pos =>
            let w := l.lanes.getD pos 0
            laneLedger (setLane (updLink s1 q fun l => { l with lost := l.lost ++ [pos], worn := none }) w 6 0) 0 2 w a
        let s3 := restripe (linkEventOf s2 q 3 (l.sparePos.getD 0xFF)) q
        let s4 := laneLedger (countSubst s3 5) 1 (if l.worn.isSome then 2 else 4) a 0
        if l.formed && !l.up then linkLanesUp (updLink s4 q fun l => { l with up := true }) q 1 else s4

/-- Every named lane is active: the link is up (R382's `LANE_LINK`); one that has been up comes up again once every
position that is left is active (R376). An 8b/10b link needs its own lanes locked (R371, R372). -/
def formLink (s : State) (q : Nat) : State :=
  match linkOf s q with
  | none => s
  | some l =>
    let old := (laneOf s (l.lanes.headD 0)).pers == 2
    let all := l.lanes.all fun a => (laneOf s a).st == 3
    let live := if l.formed then
        (((List.range l.lanes.length).filter fun i => !l.lost.contains i).map (2 ^ ·)).sum + 16 * boolNat l.joined
      else 2 ^ l.lanes.length - 1
    let ready := if old then all else live != 0 && txActive s l &&& live == live
    if l.up || l.lp != 0 || !ready then s
    else
      let s1 := updLink s q fun l => { l with formed := true, up := true }
      linkLanesUp (linkEventOf s1 q 0 0xFF) q (if old then 0 else 1)

/-- An 8b/10b link goes down and every lane retrains (R372): it has lost a lane, and no such link has a spare (R384). -/
def linkRetrain (s : State) (q : Nat) : State :=
  match linkOf s q with
  | none => s
  | some l =>
    let s1 := l.lanes.foldl (fun s a => setLane s a 2 0) s
    if l.up then
      linkLanesDown (linkEventOf (setLeaf (updLink s1 q fun l => { l with up := false, lossAt := some s.time.c.toNat }) 11 12)
        q 1 0xFF) q 4
    else s1

/-- Lanes of 8b/10b links lose lock together: each is counted with its cause, then their links retrain (R358, R372). -/
def loseOld (s : State) (lanes : List Nat) (cause : Nat) : State :=
  let s1 := lanes.foldl (fun s a => setLane (countLoss s a) a 2 cause) s
  ((List.range 8).filter fun q => lanes.any fun a => lanePort s a == some q).foldl linkRetrain s1

/-! ## Low power (R376, R400) -/

/-- A ring port leaves the ring on purpose: its break is told, its frames go the other way. -/
def ringPortDown (s : State) (q : Nat) : State :=
  let p := ringPort s q
  let s0 := updPort s q fun p => { p with lanesUp := false }
  if p.state != 2 then updPort s0 q fun p => { p with state := if p.state = 1 then 3 else p.state }
  else
    let frames := unfinished p
    let s1 := updPort s0 q fun p => { portHandshake p with state := 3, express := [], bulk := [] }
    let s2 := ringPortEvent s1 q 0 0 (wrapCount s1 q frames)
    let s3 := if breakKnown s2 q then s2 else endBreak s2 q false
    frames.foldl (fun s f => enqueueAt s q f) s3

/-- The link enters the deeper of the states its ends ask for. -/
def enterLowPower (s : State) (q lp : Nat) : State :=
  match linkOf s q with
  | none => s
  | some l =>
    let s1 := ringPortDown (updLink s q fun l => { l with
      lp := lp, up := false, askAt := none
      -- the deep state ends the markers: the partner's masks are not known until its lanes have trained again
      partnerOk := if lp = 2 then 0 else l.partnerOk, partnerActive := if lp = 2 then 0 else l.partnerActive }) q
    let live := (members l ++ l.spareLane.toList).filter fun a => (laneOf s a).st == 3 || (lp = 2 && (laneOf s a).st == 2)
    linkEventOf (live.foldl (fun s a => setLane s a (if lp = 1 then 4 else 1) 0) s1) q 4 0xFF

/-- Both ends return to Run: shallow lanes at once, deep lanes through training. -/
def leaveLowPower (s : State) (q : Nat) : State :=
  match linkOf s q with
  | none => s
  | some l =>
    if l.lp = 0 then s
    else
      let asleep := (members l ++ l.spareLane.toList).filter fun a => [1, 4].contains (laneOf s a).st
      let s1 := updLink s q fun l => { l with lp := 0, lpAsk := 0, askAt := none }
      let s2 := asleep.foldl (fun s a => setLane s a (if (laneOf s a).st = 4 then 3 else 2) 0) s1
      let s3 := linkEventOf s2 q 5 0xFF
      if l.lp = 1 && l.formed then linkLanesUp (updLink s3 q fun l => { l with up := true }) q 1 else s3

/-- PIPE ticks of the 100 µs between the break notice and the link's leaving Run (R36, R400). -/
def noticeTicks : Nat := 122880

/-- The host asks for a link's state (R376). A ring port that is to leave Run tells its break first (R400); withdrawn
before the link left Run, the break heals. -/
def portPower (s : State) (q state : Nat) : State :=
  match linkOf s q with
  | none => s
  | some l =>
    let s1 := updLink s q fun l => { l with
      lpAsk := state, askAt := if state = 0 then none else some (l.askAt.getD s.time.c.toNat) }
    let ring := (ringPort s q).state = 2
    if state != 0 then (if ring && l.askAt.isNone then endBreak s1 q false else s1)
    else if l.lp != 0 then leaveLowPower s1 q
    else if ring && breakKnown s1 q then endBreak s1 q true
    else s1

/-- This end sends `lp`: the host has asked, and the wait of R400 is over. -/
def asksPower (s : State) (l : LaneLink) : Bool :=
  l.lpAsk != 0 && l.askAt.all fun c => c + noticeTicks ≤ s.time.c.toNat

/-! ## ETH ports and PCIe widths (R381, R434, R435) -/

def ethOf (s : State) (e : Nat) : EthPort := s.out.eth.getD e {}
def updEth (s : State) (e : Nat) (f : EthPort → EthPort) : State := { s with out.eth := modAt s.out.eth e f }
/-- The ETH ports that a sender names. -/
def pathsOf (x : Output) : List Nat := [0, 1].filter x.paths.testBit

/-- `EV_OUT_ETH` (R435), with the enabled senders that have no path left. -/
def ethEvent (s : State) (e : Nat) (up : Bool) : State :=
  let cut := ((s.out.outs.drop 4).filter fun x => x.enabled && (pathsOf x).all fun k => !(ethOf s k).link).length
  notify s 0x0D02 e (leBytes 1 (boolNat up) ++ leBytes 1 cut) (12 + e)

/-- The link of an ETH port goes down or comes up. -/
def ethLink (s : State) (e : Nat) (up : Bool) : State :=
  if (ethOf s e).link = up then s else ethEvent (updEth s e fun p => { p with link := up }) e up

/-- Widths at which PCIe trains (R43). -/
def pcieWidths : List Nat := [4, 2, 1]

/-- The widest PCIe width that the locked lanes of a quad make; lanes are not reversed (R363, R381). -/
def pcieWidth (s : State) (quad : Nat) : Nat :=
  (pcieWidths.find? fun w => (List.range w).all fun i => (laneOf s (4 * quad + i)).st == 3).getD 0

/-- The endpoint has trained, or has no lane left to: the widest width its locked lanes make, at the highest generation
that its rate code and its partner both offer (R43, R361, R362). DESIGN CHOICE: the generation of a partner that no
training has met before is a free value (log entry 207). -/
def epTrain (s : State) : State :=
  let w := if (laneOf s 0).pers = 4 then pcieWidth s 0 else 0
  if w = 0 then { s with host := { s.host with epGen := 0, epWidth := 0 } }
  else
    let d := draw s
    let s1 := if s.host.epPartner = 0 then { d.2 with host.epPartner := 1 + d.1 % 5 } else s
    { s1 with host := { s1.host with epGen := min (laneOf s 0).rate s1.host.epPartner, epWidth := w } }

/-- The lanes of a root port take the states of a link of some width: locked, the others still training; all deep
where the port is down. -/
def rootLanes (s : State) (p width : Nat) (up : Bool) : State :=
  (List.range 4).foldl (fun s i => setLane s (4 * rootQuad s.fuse p + i) (if !up then 1 else if i < width then 3 else 2) 0) s

/-- PCIe Recovery retrains a link that has lost a lane at the widest width that remains (R381). -/
def pcieRetrain (s : State) (a : Nat) : State :=
  if (laneOf s a).pers = 4 then epTrain s
  else match (List.range 4).find? fun p => rootQuad s.fuse p == a / 4 with
    | some p => { s with gate.ports := modAt s.gate.ports p fun x => { x with width := pcieWidth s (a / 4) } }
    | none => s

end Sys2Proof.Machine
end

