-- ==== Sys2Proof/Machine/GateOps.lean ====
section
/-! DEFINITION. The Media Gate's operations: staging, admission and durability, the journal, drives, and the
completions of the NVMe controller (R327 to R346). -/

namespace Sys2Proof.Machine

def gatePort (s : State) (p : Nat) : GatePort := s.gate.ports.getD p {}
def updGatePort (s : State) (p : Nat) (f : GatePort → GatePort) : State :=
  { s with gate.ports := modAt s.gate.ports p f }
def updNvme (s : State) (f : Nvme → Nvme) : State := { s with gate.nvme := f s.gate.nvme }
def volume (s : State) (v : Nat) : Volume := s.recs.vols.getD v {}
def updVolume (s : State) (v : Nat) (f : Volume → Volume) : State :=
  { s with recs.vols := modAt s.recs.vols v f }
def recChan (s : State) (c : Nat) : RecChannel := s.recs.chans.getD c {}
def updChan (s : State) (c : Nat) (f : RecChannel → RecChannel) : State :=
  { s with recs.chans := modAt s.recs.chans c f }

/-! ## Writes (R329, R332) -/

def GWrite.blocks (w : GWrite) : Nat := w.data.length / w.blk
def GWrite.durable (w : GWrite) : Bool := w.blocks ≤ w.written

/-- The LBA of block i of a write. -/
def targetLba : List (Nat × Nat) → Nat → Nat
  | [], i => i
  | (lba, n) :: l, i => if i < n then lba + i else targetLba l (i - n)

/-- Which block of a write lies at an LBA. -/
def targetIndex : List (Nat × Nat) → Nat → Option Nat
  | [], _ => none
  | (lba, n) :: l, x =>
    if lba ≤ x && x < lba + n then some (x - lba) else (targetIndex l x).map (· + n)

def GWrite.block (w : GWrite) (i : Nat) : List Byte := (w.data.drop (i * w.blk)).take w.blk

/-- Two writes touch a common block. -/
def GWrite.overlaps (a b : GWrite) : Bool :=
  a.port == b.port && a.targets.any fun t => b.targets.any fun u => t.1 < u.1 + u.2 && u.1 < t.1 + t.2

/-- Blocks `lo` to `hi` − 1 of a write laid on a drive's content. -/
def diskPut (m : Mem) (w : GWrite) (lo hi : Nat) : Mem :=
  (List.range (hi - lo)).foldl (fun m i =>
    memPutBytes m (targetLba w.targets (lo + i) * w.blk) (w.block (lo + i))) m

/-- A block as writes of a list leave it: the newest accepted, else the drive's (R332). -/
def blockUnder (ws : List GWrite) (s : State) (p blk lba : Nat) : List Byte :=
  ws.foldl (fun acc w =>
    if w.port = p then ((targetIndex w.targets lba).map w.block).getD acc else acc)
    (memBytes (gatePort s p).disk (lba * blk) blk)

/-- The data of a block of a port (R332). -/
def gateBlock (s : State) (p blk lba : Nat) : List Byte := blockUnder s.gate.writes s p blk lba

/-- `n` blocks of a port. -/
def gateRead (s : State) (p blk lba n : Nat) : List Byte :=
  (List.range n).flatMap fun i => gateBlock s p blk (lba + i)

/-! ## Space (R330, R331, R334) -/

def stagingBytes : Nat := 2 ^ 30
def engineBytes : Nat := 896 * 2 ^ 20

/-- Staged bytes a write still holds; a mirror's copy shares its main's while the main's is staged (R330). -/
def stagedBy (ws : List GWrite) (w : GWrite) : Nat :=
  let mine := (w.blocks - w.admitted) * w.blk
  match w.shared with
  | none => mine
  | some m => match ws.find? fun x => x.id == m with
    | some x => mine - (x.blocks - x.admitted) * x.blk
    | none => mine

def GReq.isEngine : GReq → Bool
  | .engine _ => true
  | _ => false

def stagedTotal (s : State) (engine : Bool) : Nat :=
  ((s.gate.writes.filter fun w => w.who.isEngine == engine).map (stagedBy s.gate.writes)).sum

def stagingFree (s : State) : Nat := stagingBytes - (stagedTotal s true + stagedTotal s false)

/-- Admitted bytes of a port that are not durable, journal writes included (R343); a record larger than the window
passes through it in parts. -/
def windowUsed (s : State) (p : Nat) : Nat :=
  ((s.gate.writes.filter fun w => w.port == p).map fun w =>
    (w.admitted - w.written) * w.blk +
      (match w.jrec with
        | some (_, _, false) => min ((1 + w.blocks) * w.blk) ((gatePort s p).windowKib * 1024)
        | _ => 0)).sum

/-- KiB that the windows of all ports may take (R330, R590). -/
def windowLimit (s : State) : Nat := 16384 - 16 * (s.spare.overdrawn.filter fun b => b.array == 6).length
def windowFree (s : State) (p : Nat) : Nat := (gatePort s p).windowKib * 1024 - windowUsed s p
def windowsFree (s : State) : Nat := ((List.range 4).map (windowFree s)).sum

/-- The headroom H (R331). -/
def headroom (s : State) : Nat := stagingFree s + windowsFree s

/-- Whether the engine may stage more bytes (R307, R331). -/
def engineFits (s : State) (n : Nat) : Bool :=
  stagedTotal s true + n ≤ engineBytes && n ≤ headroom s

/-- Whether a host's or a remote write of some bytes is accepted (R331). -/
def hostFits (s : State) (n : Nat) : Bool :=
  stagedTotal s false + n ≤ stagingBytes - engineBytes + windowsFree s && n ≤ headroom s

/-- Sessions served, and the credits granted to them (R348). -/
def served (s : State) : List Session := s.gate.sessions.filter (·.server)
def creditsGranted (s : State) : Nat := ((served s).map (·.credits)).sum

/-- Tags of the offload host's commands, from fetch until the completion is posted, and of the sessions' commands
(R334). -/
def hostTags (s : State) : Nat := s.gate.nvme.outstanding.length + s.gate.nvme.waitingDone.length
def sessionTags (s : State) : Nat := ((served s).map (·.cmds.length)).sum

/-- Tags a write of the engine takes: one for each 256 KiB (R334). -/
def writeTags (w : GWrite) : Nat := ceilDiv w.data.length 262144

/-- Tags the engine may hold: 512, of those that neither the host holds nor the sessions' credits may take; its writes
hold them in order of acceptance (R334; what is set aside for the sessions: DESIGN CHOICE, log entry 184). -/
def engineTagLimit (s : State) : Nat := min 512 (4096 - hostTags s - creditsGranted s)
def engineTags (s : State) : Nat :=
  min (engineTagLimit s) ((s.gate.writes.filter fun w => w.who.isEngine).map writeTags).sum
def tagsUsed (s : State) : Nat := engineTags s + hostTags s + sessionTags s

/-! ## The journal's blocks (R342) -/

def withCrc (b : List Byte) : List Byte := b ++ leBytes 4 (crc32c b)
def zeros (n : Nat) : List Byte := List.replicate n 0

/-- The journal header block. -/
def journalHeader (retired jhead drain left : Nat) : List Byte :=
  withCrc (leBytes 4 0x4C434A48 ++ leBytes 2 1 ++ leBytes 2 0 ++ leBytes 8 retired ++ leBytes 2 jhead ++
    leBytes 1 drain ++ [0] ++ leBytes 4 left ++ zeros 4068)

/-- The record block of a unit. -/
def journalRecord (targets : List (Nat × Nat)) (seq : Nat) (old : List Byte) : List Byte :=
  let t := targets.flatMap fun x => leBytes 8 x.1 ++ leBytes 4 x.2
  withCrc (leBytes 4 0x4C434A52 ++ leBytes 2 targets.length ++ leBytes 2 (old.length / 4096) ++ leBytes 8 seq ++
    t ++ zeros (768 - t.length) ++ leBytes 4 (crc32c old) ++ zeros 3304)

/-- A block carries its own check code in its last four bytes. -/
def crcOk (b : List Byte) : Bool := crc32c (b.take (b.length - 4)) == fld b (b.length - 4) 4

def journalBlock (k : Nat) : Nat := 257 + k

/-- A ring position holds a good record of a sequence number: its targets and old content. -/
def recordAt (m : Mem) (seq pos : Nat) : Option (List (Nat × Nat) × List Byte) :=
  let a := journalBlock pos * 4096
  if memLE m a 4 != 0x4C434A52 || memLE m (a + 8) 8 != seq then none
  else
    let b := memBytes m a 4096
    let n := fld b 6 2
    if !crcOk b || n = 0 || 64 < n || 64 < fld b 4 2 || 1023 < pos + 1 + n then none
    else
      let old := memBytes m (a + 4096) (n * 4096)
      if crc32c old != fld b 0x310 4 then none
      else some ((List.range (fld b 4 2)).map fun i => (fld b (16 + 12 * i) 8, fld b (24 + 12 * i) 4), old)

/-- The records that follow a sequence number without a gap, newest first (R344). -/
def journalRun (m : Mem) : Nat → Nat → List (List (Nat × Nat) × List Byte) → List (List (Nat × Nat) × List Byte)
  | 0, _, acc => acc
  | k + 1, seq, acc =>
    match (List.range 1023).findSome? (recordAt m seq) with
    | none => acc
    | some r => journalRun m k (seq + 1) (r :: acc)

/-- Old content put back in place. -/
def putBack (m : Mem) (r : List (Nat × Nat) × List Byte) : Mem :=
  (List.range (r.2.length / 4096)).foldl (fun m i =>
    memPutBytes m (targetLba r.1 i * 4096) ((r.2.drop (i * 4096)).take 4096)) m

/-- A superblock copy on a drive is valid (R312). -/
def superOk (b : List Byte) : Bool := fld b 0 4 == 0x4C435646 && fld b 4 2 == 1 && crcOk b
def superValid (s : State) (p : Nat) : Bool :=
  superOk (gateBlock s p 4096 0) || superOk (gateBlock s p 4096 1)

/-! ## Namespaces (R336) -/

def sessionOf (s : State) (nsid : Nat) : Option Session :=
  s.gate.sessions.find? fun x => !x.server && x.nsid == nsid

def nsPort (nsid : Nat) : Nat := if nsid ≤ 4 then nsid - 1 else nsid - 5

def nsActive (s : State) (nsid : Nat) : Bool :=
  if 1 ≤ nsid && nsid ≤ 4 then (gatePort s (nsid - 1)).state == 1 && (gatePort s (nsid - 1)).clipValid
  else if 5 ≤ nsid && nsid ≤ 8 then (gatePort s (nsid - 5)).state == 3
  else (sessionOf s nsid).any (·.active)

/-- Bytes of a logical block, and blocks, of a namespace. -/
def nsBlk (s : State) (nsid : Nat) : Nat :=
  if 5 ≤ nsid && nsid ≤ 8 then 2 ^ (gatePort s (nsid - 5)).lbaLog2 else 4096
def nsBlocks (s : State) (nsid : Nat) : Nat :=
  if nsid ≤ 8 then (gatePort s (nsPort nsid)).blocks else ((sessionOf s nsid).map (·.nsze)).getD 0

/-- Writes to a clip namespace are protected: mounted, or fenced for a volume command (R336, R337). -/
def nsProtected (s : State) (nsid : Nat) : Bool :=
  if 8 < nsid then (sessionOf s nsid).any (·.writeProtected)
  else nsid ≤ 4 && ((volume s (nsid - 1)).mounted || s.gate.nvme.fenced.contains nsid)

/-- The status of a read or write before its data moves, none where it may go on (R335 to R337); of a remote
namespace the server says whether it is protected (R349). -/
def rangeStatus (s : State) (nsid lba n : Nat) (write : Bool) : Option (Nat × Nat) :=
  if !nsActive s nsid then some (0, 0x0B)
  else if nsBlocks s nsid < lba + n then some (0, 0x80)
  else if 262144 < n * nsBlk s nsid then some (0, 2)
  else if write && nsid ≤ 8 && nsProtected s nsid then some (0, 0x20)
  else if write && nsid ≤ 4 && lba < 1280 && 256 < lba + n then some (7, 0xC0)
  else none

/-! ## Completions -/

/-- A completion queue has no free entry: one always stays empty between its tail and the host's head (PRESUMED, the
NVMe base specification; log entry 185). -/
def cqFull (s : State) (cqn : Nat) : Bool :=
  (s.gate.nvme.cqs.getD cqn none).any fun q => (q.tail + 1) % q.size == q.head

/-- Post a completion to a completion queue, with its MSI-X message. -/
def postDone (s : State) (cqn : Nat) (d : NvmeDone) : State :=
  let irq := (s.gate.nvme.cqs.getD cqn none).any (·.irq)
  updNvme s fun n => { n with
    done := n.done ++ [d]
    cqs := modAt n.cqs cqn (·.map fun q => { q with tail := (q.tail + 1) % q.size })
    messages := if irq then n.messages + 1 else n.messages }

/-- Complete a command of a submission queue: the completion is posted, or waits for room in its queue. -/
def nvmeComplete (s : State) (sq cid sct sc dw0 : Nat) : State :=
  let cqn := ((s.gate.nvme.sqs.getD sq none).map (·.cq)).getD 0
  let d : NvmeDone := { sq := sq, cid := cid, sct := sct, sc := sc, dw0 := dw0 }
  if cqFull s cqn then updNvme s fun n => { n with waitingDone := n.waitingDone ++ [(cqn, d)] }
  else postDone s cqn d

/-- Post the completions that wait for a queue, oldest first, while it has room. -/
def postWaiting (cqn : Nat) : Nat → State → State
  | 0, s => s
  | k + 1, s =>
    match s.gate.nvme.waitingDone.find? (·.1 == cqn) with
    | none => s
    | some e =>
      if cqFull s cqn then s
      else postWaiting cqn k (postDone (updNvme s fun n => { n with waitingDone := n.waitingDone.erase e }) cqn e.2)

/-- Commands in flight on the sessions whose command of the host has ended without them: their answers complete nothing,
while they keep their credits (R345, R348). -/
def orphanSent (s : State) (hit : SessSent → Bool) : State :=
  { s with gate.sessions := s.gate.sessions.map fun x =>
    { x with sent := x.sent.map fun e => if hit e then { e with live := false } else e } }

/-- Complete an outstanding command. -/
def nvmeEnd (s : State) (c : NvmeCmd) (sct sc dw0 : Nat) : State :=
  nvmeComplete (updNvme (orphanSent s fun e => e.sq == c.sq && e.cid == c.cid) fun n => { n with
    outstanding := n.outstanding.erase c }) c.sq c.cid sct sc dw0

/-- A Namespace Attribute Changed notice (R336): noted for the changed list, and reported through a waiting
Asynchronous Event Request. -/
def nsNotice (s : State) (nsid : Nat) : State :=
  let s1 := updNvme s fun n => { n with
    changed := if n.changed.contains nsid then n.changed else n.changed ++ [nsid] }
  match s1.gate.nvme.outstanding.find? fun c => c.work == .aer with
  | some c => nvmeEnd s1 c 0 0 0x040002
  | none => updNvme s1 fun n => { n with noticeHeld := true }

/-- Whether a write of a list of numbers is still to become durable, or to retire. -/
def stillPending (s : State) (ids : List Nat) : Bool := s.gate.writes.any fun w => ids.contains w.id

/-- Whether an outstanding command may complete now. -/
def workDone (s : State) (c : NvmeCmd) : Bool :=
  match c.work with
  | .flush waits => !stillPending s waits
  | .flushAll waits remotes => remotes.isEmpty && !stillPending s waits
  | .fua w => !stillPending s [w]
  | .barrier => !(s.gate.nvme.outstanding.any fun x => x.sq == c.sq && x != c && x.work != .aer)
  | .abort sq cid _ => !(s.gate.nvme.outstanding.any fun x => x.sq == sq && x.cid == cid && x != c) &&
      !(s.gate.nvme.waitingDone.any fun e => e.2.sq == sq && e.2.cid == cid)
  | _ => false

/-- DW0 of the completion of a command that waited. -/
def NvmeWork.dw0 : NvmeWork → Nat
  | .abort _ _ d => d
  | _ => 0

/-- The end of a Barrier: later commands of its queue follow its writes (R339). -/
def barrierEnd (s : State) (sq : Nat) : State :=
  let mine := s.gate.writes.filterMap fun w => match w.who with
    | .host q _ _ => if q = sq then some (sq, w.id) else none
    | _ => none
  updNvme s fun n => { n with
    barrierWrites := n.barrierWrites.filter (fun e => e.1 != sq) ++ mine
    sqs := modAt n.sqs sq (·.map fun q => { q with barrier := false }) }

/-- Accept a write (R329): its number, and the state with it last. -/
def acceptWrite (s : State) (w : GWrite) : Nat × State :=
  (s.gate.nextId, { s with
    gate.nextId := s.gate.nextId + 1
    gate.writes := s.gate.writes ++ [{ w with id := s.gate.nextId }] })

/-- A write that covers a superblock copy settles anew whether the namespace holds a clip volume, with its notice where
that changes (R336). -/
def noteSuper (s : State) (nsid lba : Nat) : State :=
  if nsid ≤ 4 && lba ≤ 1 then
    let was := nsActive s nsid
    let s1 := updGatePort s (nsPort nsid) fun q => { q with clipValid := superValid s (nsPort nsid) }
    if nsActive s1 nsid == was then s1 else nsNotice s1 nsid
  else s

/-! ## Sessions served (R348 to R350)

The manual gives a session's commands and answers no layout on the flow. The model's (DESIGN CHOICE, log entry 184): an
item in 8-byte-headed segments as in R413. A request: opcode, FUA, 2 zeros, the requester's number for it (4 bytes), LBA
(8), blocks (4), 4 zeros, data. An answer: that number (4), SCT, SC, NSATTR, a zero, data; number 0xFFFF_FFFF, which no
request has, tells NSATTR alone. -/

def noRequest : Nat := 2 ^ 32 - 1

def updSession (s : State) (num : Nat) (f : Session → Session) : State :=
  { s with gate.sessions := s.gate.sessions.map fun x => if x.server && x.flow == num then f x else x }
def servedOn (s : State) (num : Nat) : Option Session := (served s).find? fun x => x.flow == num

def sessionRequest (op fua num lba n : Nat) (data : List Byte) : List Byte :=
  leBytes 1 op ++ leBytes 1 fua ++ [0, 0] ++ leBytes 4 num ++ leBytes 8 lba ++ leBytes 4 n ++ [0, 0, 0, 0] ++ data
def requestOp (b : List Byte) : Nat := fld b 0 1
def requestNum (b : List Byte) : Nat := fld b 4 4
def requestLba (b : List Byte) : Nat := fld b 8 8
def requestBlocks (b : List Byte) : Nat := fld b 16 4
def isWriteOp (op : Nat) : Bool := op = 1 || op = 8 || op = 0x81
/-- The data of a request to write. -/
def requestData (b : List Byte) : List Byte :=
  if requestOp b = 8 then zeros (requestBlocks b * 4096) else (b.drop 24).take (requestBlocks b * 4096)

/-- Answer a command of a session; a session that has ended hears nothing. -/
def sessionReply (s : State) (x : Session) (num sct sc : Nat) (data : List Byte) : State :=
  if x.ended then s
  else flowQueueItem s x.flow (leBytes 4 num ++ leBytes 1 sct ++ leBytes 1 sc ++
    leBytes 1 (boolNat (nsProtected s x.remoteNs)) ++ [0] ++ data) false

/-- Tell every session on a volume's namespace its NSATTR (R349). -/
def tellSessions (s : State) (v : Nat) : State :=
  ((served s).filter fun x => x.active && x.remoteNs == v + 1).foldl
    (fun s x => sessionReply s x noRequest 0 0 []) s

/-- A command of a session leaves it with its answer. -/
def sessionDone (s : State) (x : Session) (c : SessCmd) (sct sc : Nat) (data : List Byte) : State :=
  sessionReply (updSession s x.flow fun y => { y with cmds := y.cmds.erase c }) x c.num sct sc data
def sessionHolds (s : State) (x : Session) (c : SessCmd) (w : SessWork) : State :=
  updSession s x.flow fun y => { y with cmds := y.cmds.map fun d => if d == c then { c with work := w } else d }

/-- Whether a request may start now: not while admission is stopped (R351), a write only with space (R331). -/
def mayStart (s : State) (x : Session) (b : List Byte) : Bool :=
  s.gate.stopped.isNone &&
    (!isWriteOp (requestOp b) || hostFits s (requestBlocks b * 4096) ||
      (rangeStatus s x.remoteNs (requestLba b) (requestBlocks b) true).isSome)

/-- Run a session's request: the namespace's checks, its ordering domain and its atomicity as for a host (R349). -/
def serveRequest (s : State) (x : Session) (c : SessCmd) (b : List Byte) : State :=
  let ns := x.remoteNs
  let op := requestOp b
  let lba := requestLba b
  let n := requestBlocks b
  if op = 0 then
    if !nsActive s ns then sessionDone s x c 0 0x0B []
    else sessionHolds s x c (.flush ((s.gate.writes.filter fun w => w.who == .remote x.flow).map (·.id)))
  else if op = 2 then
    match rangeStatus s ns lba n false with
    | some (sct, sc) => sessionDone s x c sct sc []
    | none =>
      -- whether the drive-side read fails is a free value
      let r := draw s
      if r.1 % 2 = 1 then
        sessionDone (updGatePort r.2 (ns - 1) fun q => { q with mediaErrors := sat32 q.mediaErrors 1 }) x c 2 0x81 []
      else
        let data := gateRead s (ns - 1) 4096 lba n
        sessionDone (updGatePort r.2 (ns - 1) fun q => { q with read := satAdd 64 q.read data.length }) x c 0 0 data
  else if isWriteOp op then
    match rangeStatus s ns lba n true with
    | some (sct, sc) => sessionDone s x c sct sc []
    | none =>
      let prior := if op = 0x81 then x.lastOrdered.toList else []
      let r := acceptWrite s { id := 0, who := .remote x.flow, port := ns - 1, blk := 4096, targets := [(lba, n)],
                               data := requestData b, journal := true,
                               after := prior.filter fun i => s.gate.writes.any fun w => w.id == i }
      let s1 := noteSuper (updSession r.2 x.flow fun y => { y with
        lastOrdered := if op = 0x81 then some r.1 else y.lastOrdered }) ns lba
      if fld b 1 1 = 1 then sessionHolds s1 x c (.fua r.1) else sessionDone s1 x c 0 0 []
  else sessionDone s x c 0 1 []

/-- Start a session's waiting requests in order of arrival. -/
def startRequests (num : Nat) : Nat → State → State
  | 0, s => s
  | k + 1, s =>
    match servedOn s num with
    | none => s
    | some x =>
      match x.cmds.findSome? fun c => match c.work with
          | .start b => some (c, b)
          | _ => none with
      | none => s
      | some (c, b) => if mayStart s x b then startRequests num k (serveRequest s x c b) else s

/-- Whether what a session's command waited for has happened. -/
def sessionWorkDone (s : State) (c : SessCmd) : Bool :=
  match c.work with
  | .fua w => !stillPending s [w]
  | .flush ws => !stillPending s ws
  | .start _ => false

/-- The Gate takes a request that has arrived on a session's flow into its commands, where the session's credits and the
device's tags have room for it (R334, R348). -/
def takeRequest (s : State) (num : Nat) : State :=
  match flowOf s num, servedOn s num with
  | some f, some x =>
    match f.stored with
    | [] => s
    | b :: l =>
      if x.cmds.length < x.credits && tagsUsed s < 4096 then
        updSession (updFlow s num fun f => { f with stored := l }) num fun y => { y with
          cmds := y.cmds ++ [{ num := requestNum b, work := .start b }] }
      else s
  | _, _ => s

/-- Requests are taken and started while there is room for more: each that completes at once makes room. -/
def serveStored (num : Nat) : Nat → State → State
  | 0, s => s
  | k + 1, s =>
    let s1 := takeRequest s num
    serveStored num k (startRequests num (((servedOn s1 num).map (·.cmds.length)).getD 0) s1)

/-- A session's commands complete, its waiting requests start, and a lost one frees its context at the end (R350). -/
def settleSession (s : State) (num : Nat) : State :=
  match servedOn s num with
  | none => s
  | some x =>
    let s1 := (x.cmds.filter (sessionWorkDone s)).foldl (fun s c => sessionDone s x c 0 0 []) s
    let s2 := serveStored num (((flowOf s1 num).map (·.stored.length)).getD 0 + 1) s1
    match servedOn s2 num with
    | some y =>
      if y.ended && y.cmds.isEmpty then freeFlow { s2 with gate.sessions := s2.gate.sessions.erase y } num else s2
    | none => s2

/-- Complete every command that waited for what has now happened, in fetch order. -/
def settleCommands (s : State) : State :=
  s.gate.nvme.outstanding.foldl (fun s c =>
    if workDone s c then
      let s1 := nvmeEnd s c 0 0 c.work.dw0
      if c.work = .barrier then barrierEnd s1 c.sq else s1
    else s) s

/-- The host's commands complete, and once more those that waited for one of them (R339, R346); then a shutdown, and the
sessions' commands. -/
def nvmeSettle (s : State) : State :=
  let s1 := settleCommands (settleCommands s)
  let s2 := if s1.gate.nvme.shst = 1 && s1.gate.nvme.shutRemotes.isEmpty && !stillPending s1 s1.gate.nvme.shutWaits then
      updNvme s1 fun n => { n with shst := 2, shutWaits := [] }
    else s1
  (served s2).foldl (fun s x => settleSession s x.flow) s2

/-! ## Admission and durability (R330, R338, R340, R343) -/

/-- Every write a write must follow satisfies a test, or is no longer pending. -/
def afterAll (s : State) (w : GWrite) (test : GWrite → Bool) : Bool :=
  s.gate.writes.all fun x => !w.after.contains x.id || test x

/-- Writes accepted before one. -/
def earlier (s : State) (w : GWrite) : List GWrite := s.gate.writes.takeWhile fun x => x.id != w.id

/-- Where a record of n old blocks would start in the ring: a record never passes block 1,022 (R342). -/
def ringStart (jhead n : Nat) : Nat := if 1023 < jhead + 1 + n then 0 else jhead

/-- Whether the ring has room for a record behind the oldest unretired one (R343). -/
def ringRoom (s : State) (p n : Nat) : Bool :=
  let a := ringStart (gatePort s p).jhead n
  n + 1 ≤ 1023 && s.gate.writes.all fun w => w.port != p ||
    match w.jrec with
    | none => true
    | some (_, b, _) => a + 1 + n ≤ b || b + 1 + w.blocks ≤ a

/-- Blocks of a write of the engine that its tags reach; every block of another's (R334). -/
def tagBlocks (s : State) (w : GWrite) : Nat :=
  if w.who.isEngine then
    (engineTagLimit s - (((earlier s w).filter fun x => x.who.isEngine).map writeTags).sum) * 262144 / w.blk - w.admitted
  else w.blocks

/-- A unit of the journal and its record fit a port's window together. -/
def unitFits (s : State) (w : GWrite) : Bool := (1 + 2 * w.blocks) * w.blk ≤ (gatePort s w.port).windowKib * 1024

/-- Whether a staged write may enter its window now. A unit of the journal enters whole, with its record; where the
window can never take both, the record goes first through an empty window, and the unit's blocks follow it once it
is durable (DESIGN CHOICE, log entry 186). -/
def mayAdmit (s : State) (w : GWrite) : Bool :=
  w.admitted < w.blocks && 0 < tagBlocks s w && afterAll s w (fun x => x.blocks ≤ x.admitted) &&
  (earlier s w).all (fun x => !x.overlaps w || x.blocks ≤ x.admitted) &&
  (match w.journal, w.jrec with
    | false, _ => w.blk ≤ windowFree s w.port
    | true, none => ringRoom s w.port w.blocks &&
        (if unitFits s w then (1 + 2 * w.blocks) * w.blk ≤ windowFree s w.port else windowUsed s w.port == 0)
    | true, some (_, _, durable) => durable && w.blk ≤ windowFree s w.port)

def updWrite (s : State) (id : Nat) (f : GWrite → GWrite) : State :=
  { s with gate.writes := s.gate.writes.map fun w => if w.id == id then f w else w }

/-- A unit takes its sequence number and its place in the ring, and `n` of its blocks are admitted with its record. -/
def startRecord (s : State) (w : GWrite) (n : Nat) : State :=
  let port := gatePort s w.port
  let a := ringStart port.jhead w.blocks
  let s1 := updGatePort s w.port fun q => { q with jseq := q.jseq + 1, jhead := (a + 1 + w.blocks) % 1023 }
  updWrite s1 w.id fun w => { w with admitted := n, jrec := some (port.jseq + 1, a, false) }

/-- Admit up to `n` blocks of a port's first staged write in order of acceptance, where it may enter (R330). -/
def gateAdmit (s : State) (p n : Nat) : State :=
  if s.gate.stopped.isSome then s
  else match s.gate.writes.find? fun w => w.port == p && w.admitted < w.blocks with
    | none => s
    | some w =>
      if !mayAdmit s w then s
      else if w.journal && w.jrec.isNone then startRecord s w (if unitFits s w then w.blocks else 0)
      else
        let k := min (min n (min (w.blocks - w.admitted) (tagBlocks s w))) (windowFree s p / w.blk)
        updWrite s w.id fun w => { w with admitted := w.admitted + k }

/-- A unit's journal record becomes durable: the old content of its blocks (R343). -/
def recordDurable (s : State) (w : GWrite) : State :=
  match w.jrec with
  | none => s
  | some (seq, pos, _) =>
    let old := (List.range w.blocks).flatMap fun i =>
      blockUnder (earlier s w) s w.port w.blk (targetLba w.targets i)
    let s1 := updGatePort s w.port fun q => { q with
      disk := memPutBytes q.disk (journalBlock pos * 4096) (journalRecord w.targets seq old ++ old) }
    updWrite s1 w.id fun w => { w with jrec := some (seq, pos, true) }

/-- The journal record of the oldest unit that waits for it becomes durable. -/
def journalDurable (s : State) (p : Nat) : State :=
  match s.gate.writes.find? fun w => w.port == p && (w.jrec.any fun j => !j.2.2) with
  | none => s
  | some w => recordDurable s w

/-- Tell the recording engine that a record is durable. -/
def durableNote (s : State) (w : GWrite) : State :=
  match w.note with
  | .none => s
  | .record c n => updChan s c fun ch => { ch with clip := ch.clip.map fun k => { k with durable := k.durable + n } }

/-- The first n blocks of a write are durable on its drive; a write that is not journalled then leaves. -/
def makeDurable (s : State) (w : GWrite) (n : Nat) : State :=
  let s1 := updGatePort s w.port fun q => { q with
    disk := diskPut q.disk w w.written n, written := satAdd 64 q.written ((n - w.written) * w.blk) }
  if w.blocks ≤ n then
    let s2 := durableNote s1 w
    if w.journal then updWrite s2 w.id fun w => { w with written := n }
    else { s2 with gate.writes := s2.gate.writes.filter fun x => x.id != w.id }
  else updWrite s1 w.id fun w => { w with written := n }

/-- Whether a drive may make blocks of a write durable now (R332, R338 to R340, R343). -/
def mayComplete (s : State) (w : GWrite) : Bool :=
  w.written < w.admitted && (!w.journal || w.jrec.any (·.2.2)) && afterAll s w GWrite.durable &&
  (earlier s w).all fun x => !x.overlaps w || x.durable

/-- Write a port's journal header with the newest sequence number that may retire (R343). -/
def journalRetire (s : State) (p : Nat) : State :=
  let units := s.gate.writes.filter fun w => w.port == p && w.jrec.isSome
  let done := units.takeWhile GWrite.durable
  match (done.getLast?).bind (·.jrec) with
  | none => s
  | some (seq, _, _) =>
    let s1 := updGatePort s p fun q => { q with
      retiredSeq := seq
      disk := memPutBytes q.disk (256 * 4096) (journalHeader seq q.jhead q.headDrain q.left) }
    { s1 with gate.writes := s1.gate.writes.filter fun w => !(done.any fun d => d.id == w.id) }

def writeOf (s : State) (id : Nat) : Option GWrite := s.gate.writes.find? fun w => w.id == id

/-- What is admitted of a write becomes durable, its record first, where it may (R332, R339, R351). -/
def drainWrite (s : State) (id : Nat) : State :=
  match writeOf s id with
  | none => s
  | some w =>
    let s1 := if w.jrec.any (fun j => !j.2.2) then recordDurable s w else s
    match writeOf s1 id with
    | none => s1
    | some x => if mayComplete s1 x then makeDurable s1 x x.admitted else s1

/-- Everything the ports of a mask have admitted becomes durable and their units retire: the drain (R351). -/
def drainPorts (s : State) (mask : Nat) : State :=
  let ids := (s.gate.writes.filter fun w => mask.testBit w.port).map (·.id)
  ((List.range 4).filter fun p => mask.testBit p).foldl journalRetire (ids.foldl drainWrite s)

/-- Blocks a port has admitted that are not durable. -/
def undrained (s : State) (p : Nat) : Nat :=
  ((s.gate.writes.filter fun w => w.port == p).map fun w => w.admitted - w.written).sum

/-- The writes of a port with all that they must follow, in order of acceptance: those named by `after` (R339), and
on each port reached all that was accepted before. -/
def neededBy (s : State) (p : Nat) : List GWrite :=
  s.gate.writes.foldr (fun w acc =>
    if w.port == p || acc.any (fun x => x.port == w.port || x.after.contains w.id) then w :: acc else acc) []

/-- A write goes through admission, its journal record and its place on the drive. -/
def pushWrite (s : State) (id : Nat) : State :=
  match writeOf s id with
  | none => s
  | some w =>
    let s1 := if w.journal && w.jrec.isNone then
        startRecord (if ringRoom s w.port w.blocks then s else journalRetire s w.port) w w.blocks
      else updWrite s id fun w => { w with admitted := w.blocks }
    match writeOf s1 id with
    | none => s1
    | some w1 => makeDurable (if w1.jrec.any (fun j => !j.2.2) then recordDurable s1 w1 else s1) w1 w1.blocks

/-- A power-loss response has stopped admission with a write still staged that a port's accepted writes need (R351). -/
def portHeld (s : State) (p : Nat) : Bool :=
  s.gate.stopped.isSome && (neededBy s p).any fun w => w.admitted < w.blocks

/-- Every accepted write of a port becomes durable and retired, through admission and in order (R339, R345, R353); where
a power-loss response holds one of them in staging, only what is admitted does (R351). -/
def finishPort (s : State) (p : Nat) : State :=
  if portHeld s p then drainPorts s 15
  else journalRetire (((neededBy s p).map (·.id)).foldl pushWrite s) p

/-! ## Drives (R327, R328, R344) -/

/-- `EV_GATE_DRIVE`. -/
def driveEvent (s : State) (p what cause lost : Nat) : State :=
  notify s 0x0A01 p (leBytes 1 what ++ leBytes 1 cause ++ [0, 0] ++ leBytes 4 lost ++
    leBytes 8 (gatePort s p).blocks) p

/-- Units pass injector k, one after another, while it acts. -/
def injectUnits (k : Nat) : Nat → State → State
  | 0, s => s
  | n + 1, s => if injecting s k then injectUnits k n (injectUnit s k).2 else s

/-- A root port transmits TLPs for an exchange with its drive, past the port's injector. How many is a free value below
2^16; PCIe's own replay recovers each (R416, DESIGN CHOICE, log entry 190). -/
def rootSend (s : State) (p : Nat) : State :=
  if injecting s (10 + p) then injectUnits (10 + p) ((draw s).1 % 2 ^ 16) (draw s).2 else s

/-- A port comes up: link facts, journal rollback, then its clip namespace (R344). -/
def bringUp (s : State) (p window : Nat) (f : DriveFacts) : State :=
  let m := (gatePort s p).disk
  let h := memBytes m (256 * 4096) 4096
  let ok := f.lbaLog2 = 12 && fld h 0 4 == 0x4C434A48 && crcOk h
  let run := if ok then journalRun m 1023 (fld h 8 8 + 1) [] else []
  let seq := fld h 8 8 + run.length
  let drain := fld h 0x12 1
  let s1 := updGatePort s p fun q => { q with
    state := 1, gen := f.gen, width := f.width, lbaLog2 := f.lbaLog2, blocks := f.blocks, windowKib := window,
    rolledBack := run.length, drain := drain, headDrain := drain, left := fld h 0x14 4
    jhead := if ok then fld h 0x10 2 else 0
    jseq := if ok then seq else 0
    retiredSeq := if ok then seq else 0
    disk := if ok then memPutBytes (run.foldl putBack q.disk) (256 * 4096) (journalHeader seq (fld h 0x10 2) drain (fld h 0x14 4))
      else q.disk }
  let s2 := updGatePort s1 p fun q => { q with clipValid := f.lbaLog2 == 12 && superValid s1 p }
  let s3 := driveEvent (rootSend (rootLanes s2 p f.width true) p) p 1 0 0
  let s4 := if ok then notify s3 0x0A02 p (leBytes 4 run.length ++ leBytes 1 drain ++ [0, 0, 0] ++ leBytes 8 seq)
    (4 + p) else s3
  if (gatePort s4 p).clipValid then nsNotice s4 (p + 1) else s4

/-- Post `EV_GATE_SESSION` (R355). -/
def sessionEvent (s : State) (x : Session) (what code failed : Nat) : State :=
  notify s 0x0A03 (if x.server then x.index else x.nsid)
    (leBytes 1 what ++ leBytes 1 (boolNat x.server) ++ leBytes 2 x.partner ++ leBytes 1 x.remoteNs ++
      leBytes 1 code ++ leBytes 2 x.credits ++ leBytes 4 failed) 8

/-- Outstanding commands of a remote namespace. -/
def remoteCmds (s : State) (nsid : Nat) : List NvmeCmd :=
  s.gate.nvme.outstanding.filter fun c => match c.work with
    | .remote n => n == nsid
    | .flushAll _ ns => ns.contains nsid
    | _ => false

/-- A session ends on this device: lost (2) or closed (1). On the requester its commands in flight complete with
Transient Transport Error, its NSID becomes inactive and its context is free. On the server the requests that have not
started are dropped, accepted writes still become durable, and the context is free once the commands under way have
finished (R350). -/
def sessionEnd (s : State) (x : Session) (what : Nat) : State :=
  if x.server then
    let s1 := updSession s x.flow fun y => { y with
      ended := true
      cmds := y.cmds.filter fun c => match c.work with
        | .start _ => false
        | _ => true }
    nvmeSettle (sessionEvent (updFlow s1 x.flow fun f => { f with dead := true, state := 3, stored := [] }) x what 0 0)
  else
    let cmds := remoteCmds s x.nsid
    let s1 := cmds.foldl (fun s c => nvmeEnd s c 0 0x22 0) s
    let s2 := updNvme { s1 with gate.sessions := s1.gate.sessions.erase x } fun n => { n with
      shutRemotes := n.shutRemotes.erase x.nsid, shutUnsent := n.shutUnsent.erase x.nsid }
    let s3 := sessionEvent (freeFlow s2 x.flow) x what 0 cmds.length
    nvmeSettle (if x.active then nsNotice s3 x.nsid else s3)

/-- Commands of the host on a port's namespaces complete with Namespace Not Ready (R328). -/
def failCommands (s : State) (p : Nat) : State :=
  let onPort (nsid : Nat) : Bool := nsid ≤ 8 && 1 ≤ nsid && nsPort nsid == p
  let hit (c : NvmeCmd) : Bool := match c.work with
    | .write nsid _ => onPort nsid
    | .fua w => s.gate.writes.any fun x => x.id == w && x.port == p
    | .flush ws => s.gate.writes.any fun x => ws.contains x.id && x.port == p
    | .flushAll ws _ => s.gate.writes.any fun x => ws.contains x.id && x.port == p
    | _ => false
  (s.gate.nvme.outstanding.filter hit).foldl (fun s c => nvmeEnd s c 0 0x82 0) s

/-- The accepted writes of a port that are not durable are discarded: how many blocks, and the rest. -/
def discardWrites (s : State) (p : Nat) : Nat × State :=
  let gone := s.gate.writes.filter fun w => w.port == p
  ((gone.map fun w => w.blocks - w.written).sum,
    { s with gate.writes := s.gate.writes.filter fun w => w.port != p })

/-- Bytes of one port's block of `GATE_STATUS`. -/
def portBlock (s : State) (p : Nat) : List Byte :=
  let q := gatePort s p
  leBytes 1 q.state ++ leBytes 1 q.gen ++ leBytes 1 q.width ++ leBytes 1 q.lbaLog2 ++ leBytes 4 q.windowKib ++
    leBytes 4 (windowUsed s p) ++ leBytes 4 q.mediaErrors ++ leBytes 8 q.blocks ++ leBytes 8 q.retiredSeq ++
    leBytes 8 q.written ++ leBytes 8 q.read ++ leBytes 4 q.rolledBack ++ leBytes 1 q.drain ++
    leBytes 1 (boolNat q.clipValid) ++ zeros 10

/-- A controller reset (R345): fetching, completions and queues end; accepted writes stay, and the answers of commands in
flight on the sessions complete nothing. -/
def controllerReset (s : State) : State :=
  updNvme (orphanSent s fun _ => true) fun n => { n with
    enabled := false, state := 0, shst := 0, sqs := List.replicate 65 none, cqs := List.replicate 65 none,
    outstanding := [], ordered := [], barrierWrites := [], shutWaits := [], features := [], waitingDone := [],
    turn := (0, 0), shutRemotes := [], shutUnsent := [], cc := 0 }

end Sys2Proof.Machine
end

