-- ==== Sys2Proof/Machine/Busy.lean ====
section
/-! DEFINITION. What is running: the conditions that several chapters ask of one another. -/

namespace Sys2Proof.Machine

def anyRecording (s : State) : Bool := s.recs.chans.any fun ch => ch.state == 2
def anyAudioRuns (s : State) : Bool := s.aud.running.any id
/-- An audio unit runs or a recording channel records (R488). -/
def classSBusy (s : State) : Bool := anyRecording s || anyAudioRuns s

/-- The raster rate of the display while it is enabled (R439), as a fraction. -/
def dispRate (s : State) : Nat × Nat :=
  let c := s.disp.cfg
  if s.disp.enabled then (c.hActive * c.vActive * c.fpsNum, c.fpsDen) else (0, 1)

/-- Addresses of the rendition buffers that sinks hold (R240, R245): outputs, proxies, the viewfinder. -/
def sinkAddrs (s : State) : List Nat :=
  (s.out.outs.filterMap fun o => o.held.map (·.addr)) ++ (s.disp.held.map (·.addr)).toList ++
    s.codec.streams.flatMap fun t =>
      (t.frames.filter fun f => f.cfg.src == 1 && f.addr != 0).map fun f => f.addr - 0x100

/-- Layer 0 of the viewfinder names a rendition, or still holds a buffer of it (R444). -/
def viewfinderNames (s : State) (r : Nat) : Bool :=
  let names (l : List DispLayer) : Bool := (l.head?).any fun x => x.enable && x.rnd == r
  names s.disp.shadow || (s.disp.pending.any fun p => names p.1.layers) || (s.disp.enabled && names s.disp.latched.layers) ||
    s.disp.held.any fun b => b.rnd == r

/-- An output or the viewfinder takes a rendition. -/
def rndSunk (s : State) (r : Nat) : Bool :=
  (s.out.outs.any fun o => o.enabled && o.kind ≤ 1 && o.src == r) || viewfinderNames s r

/-- A rendition has a sink: an output, or a stream that codes it, as commanded or as in effect. -/
def rndAttached (s : State) (r : Nat) : Bool :=
  rndSunk s r ||
    s.codec.streams.any fun t => (t.cmd.any fun c => c.src == 1 && c.unit == r) || t.eff.any fun c => c.src == 1 && c.unit == r

/-- Whether a class S consumer of R489 and R498 is at work: 0 to 3 SDI, 4 to 11 senders, 12 display, 13 SYNC_OUT,
16 + s sensor s. -/
def consumerActive (s : State) (k : Nat) : Bool :=
  if k < 12 then (s.out.outs.getD k {}).enabled && (s.out.outs.getD k {}).kind ≤ 1
  else if k = 12 then s.disp.enabled
  else if k = 13 then s.time.syncOutStd != 0
  else if 16 ≤ k then (s.img.sensors.getD (k - 16) {}).streaming
  else false

end Sys2Proof.Machine
end

