-- ==== Sys2Proof/Machine/TimeOps.lean ====
section
/-! DEFINITION. The time base's operations: domains and their servo, the views and their bases, genlocked
cadence, sync input and timecode (chapter 20). -/

namespace Sys2Proof.Machine

/-! ## Domains (R475, R476, R482, R483) -/

def now (s : State) : Nat := s.time.c.toNat
def domOf (s : State) (d : Nat) : Domain := s.time.doms.getD d {}
def updDom (s : State) (d : Nat) (f : Domain → Domain) : State :=
  { s with time.doms := modAt s.time.doms d f }

/-- The limit of a servo rate about `xtal_corr`: 100 ppm (R476). -/
def rateLimit : Int := 219902326

/-- Set a domain's rate at the present count without a jump (R475). -/
def setRate (s : State) (d : Nat) (r : Int) : State :=
  let c := now s
  updDom s d fun x => { x with ofs := mod96 (domTime x c), anchor := c, rate := r, rates := (r :: x.rates).take 64 }

/-- `EV_TIME_DOMAIN` (R497, R498). -/
def domainEvent (s : State) (d : Nat) (old : DomState) (cause : Nat) : State :=
  let x := domOf s d
  notify s 0x1001 d (leBytes 1 old.code ++ leBytes 1 x.state.code ++ leBytes 1 cause ++ [0] ++
    leInt 4 (thetaNs x.theta) ++ leInt 4 x.rate) d

/-- `EV_TIME_STEP` (R497, R498): source 0 S, 1 L, 2 + d. -/
def stepEvent (s : State) (src : Nat) (amount : Int) : State :=
  notify s 0x1003 src (leBytes 12 (mod96 amount)) 3

/-! ## Genlocked cadence (R490) -/

def updCadence (s : State) (k : Nat) (f : Cadence → Cadence) : State :=
  { s with time.cadences := modAt s.time.cadences k f }

/-- `EV_TIME_REF`, class S (R497, R498). -/
def refEvent (s : State) (k phase cause : Nat) (lines : Int) : State :=
  setLeaf (postEventS s 0x1004 k (leBytes 1 phase ++ leBytes 1 cause ++ [0, 0] ++ leInt 4 lines)) 16 4

/-- A reference change puts every consumer at work into the hold (R490): cause 0 step, 1 format change, 2 base
change. -/
def referenceChange (s : State) (cause : Nat) : State :=
  (List.range 20).foldl (fun s k =>
    if consumerActive s k then
      refEvent (updCadence s k fun x => { x with phase := 1, cause := cause, linesLeft := 0 }) k 0 cause 0
    else s) s

/-- Lines in a frame of a raster. PRESUMED: the totals of its SMPTE standard, and of another raster its own rows (log
entry 220). -/
def rasterLines (h : Nat) : Nat := match h with | 720 => 750 | 1080 => 1125 | 2160 => 2250 | h => h

/-- Lines in a frame of a sync format: 1 bi-level 525, 2 bi-level 625, 3 tri-level 1,125, 4 tri-level 750. -/
def syncLines (fmt : Nat) : Nat :=
  match fmt with
  | 1 => 525 | 2 => 625 | 3 => 1125 | _ => 750

/-- A consumer's frames per second, as a ratio, its `phase_ns`, and the lines in a frame; a sensor's rate is its own. -/
def consumerRate (s : State) (k : Nat) : Nat × Nat × Int × Nat :=
  if k < 12 then
    let x := s.out.outs.getD k {}
    (x.fpsNum, x.fpsDen, x.phaseNs, rasterLines x.height)
  else if k = 12 then (s.disp.cfg.fpsNum, s.disp.cfg.fpsDen, s.disp.cfg.phaseNs, s.disp.cfg.vTotal)
  else if k = 13 then (s.time.syncOutFpsNum, s.time.syncOutFpsDen, s.time.syncOutPhase, syncLines s.time.syncOutStd)
  else (0, 1, 0, 0)

/-- S has a base whose time has alignment points (R489): the SMPTE epoch's, or the reference's frame starts, which a
sync-input domain counts its seconds from. -/
def baseAligned (s : State) : Bool :=
  s.time.viewS.base.any fun d =>
    match (s.time.doms.getD d {}).source with
    | .ptp | .flow | .sync => true
    | _ => false

/-- The alignment point of a consumer nearest to a time, in parts of a second, rounded down: a whole number of its frames
from the epoch, plus `phase_ns` (R424, R489). -/
def alignedPoint (s : State) (k : Nat) (t : Int) (parts : Nat) : Int :=
  let (num, den, phase, _) := consumerRate s k
  let n := roundDiv ((t * 1000000000 - phase * 2 ^ 48) * num) (2 ^ 48 * 1000000000 * den)
  ((n * den * 1000000000 + phase * num) * parts).fdiv (1000000000 * num)

/-- A consumer's frames start at the alignment points: it neither holds nor slews, and S's base has them. -/
def outAligned (s : State) (k : Nat) : Bool :=
  (s.time.cadences.getD k {}).phase == 0 && baseAligned s && (consumerRate s k).1 != 0

/-- A frame period of a consumer, rounded up, and one of its lines, in 2^-48 s. -/
def periodOf (s : State) (k : Nat) : Int := ceilDiv ((consumerRate s k).2.1 * 2 ^ 48) (consumerRate s k).1
def lineOf (s : State) (k : Nat) : Int := periodOf s k / (consumerRate s k).2.2.2

/-- Lines by which the frame now starting departs from a consumer's own length: one while it slews (R490). -/
def slewLines (s : State) (k : Nat) : Int :=
  let x := s.time.cadences.getD k {}
  if x.phase = 2 then x.linesLeft.sign else 0

/-- A consumer's next frame starts, due at about a time of S: at the alignment point; while it holds or slews, its old
period after the frame before, longer or shorter by the line that frame moved (R489, R490); with no alignment, then. -/
def cadenceBegin (s : State) (k : Nat) (t : Int) : State :=
  updCadence s k fun x => { x with
    linesLeft := x.linesLeft - slewLines s k
    start := some (
      if outAligned s k then alignedPoint s k t (2 ^ 48)
      else match x.phase, x.start with
        | 0, _ => t
        | _, none => t
        | _, some b => if (consumerRate s k).1 = 0 then t else b + periodOf s k + slewLines s k * lineOf s k) }

/-- The shorter way round a frame of some lines (R490). -/
def shorterWay (lines : Int) (total : Nat) : Int :=
  if total = 0 then lines else (lines + (total / 2 : Nat)) % total - (total / 2 : Nat)

/-! ## Views (R484 to R488) -/

def isLocked (s : State) (d : Nat) : Bool := (domOf s d).state == .locked

/-- A view that goes on from its present time on a new base, its correction slewing to 0. -/
def rebased (s : State) (v : View) (b : Option Nat) (ppb : Nat) : View :=
  let c := now s
  { base := b, delta0 := viewTime s v c - baseTime s b c, from0 := c, slewPpb := ppb, frozen := none }

/-- The S base changes from one base to another without a jump (R485). -/
def switchS (s : State) (b : Option Nat) : State :=
  let old := s.time.viewS.base
  let v := rebased s s.time.viewS b s.time.slewPpb
  let s1 := { s with time.viewS := v }
  let s2 := notify s1 0x1002 0 (leBytes 1 (baseCode old) ++ leBytes 1 (baseCode b) ++ [0, 0] ++
    leInt 8 (v.delta0 / 2 ^ 16)) 2
  let isSync (b : Option Nat) : Bool := b.any fun d => (domOf s d).source == .sync
  if isSync old != isSync b then referenceChange s2 2 else s2

/-- S steps from F onto a locked domain (R488). -/
def stepS (s : State) (d : Nat) : State :=
  let c := now s
  let amount := baseTime s (some d) c - viewTime s s.time.viewS c
  let s1 := { s with
    time.viewS := { base := some d, delta0 := 0, from0 := c, slewPpb := s.time.slewPpb, frozen := none }
    time.stepWait := false, time.stepTo := none }
  referenceChange (stepEvent s1 0 amount) 0

/-- S would step onto a domain: at once, or waiting while recording or audio runs (R488). -/
def askStepS (s : State) (d : Nat) (force : Bool) : State :=
  if classSBusy s && !force then { s with time.stepWait := true, time.stepTo := some d } else stepS s d

/-- PIPE ticks of the 10 s for which a primary must have been locked (R36, R484). -/
def revertTicks : Nat := 12288000000

/-- The base R484 chooses for S. -/
def chooseS (s : State) : Option Nat :=
  let cur := s.time.viewS.base
  let p := s.time.primary
  if cur.any (isLocked s) then
    (if s.time.revert && isLocked s p && (domOf s p).lockedAt + revertTicks ≤ now s then some p else cur)
  else if isLocked s p then some p
  else if s.time.secondary.any (isLocked s) then s.time.secondary
  else cur

/-- Apply R484, R485 and R488 to S. -/
def followS (s : State) (force : Bool) : State :=
  match chooseS s, s.time.viewS.base with
  | some d, none => askStepS s d force
  | none, none => s
  | b, cur =>
    if b != cur then switchS s b
    else if s.time.viewS.frozen.isSome && cur.any (isLocked s) then
      { s with time.viewS := rebased s s.time.viewS cur s.time.slewPpb }
    else s

/-- The slew of L: 100 ppm (R487). -/
def slewL : Nat := 100000

/-- What a view runs on, as an offset, an anchor and a rate. -/
def runOf (s : State) (v : View) : Option (Int × Nat × Int) :=
  match v.frozen, v.base with
  | some r, _ => some r
  | none, some d => some ((domOf s d).ofs, (domOf s d).anchor, (domOf s d).rate)
  | none, none => none

/-- Apply R487 and R488 to L: its base is the primary, or F while the primary is off. A primary that it takes over from
another domain goes on without a step; one that is yet to step, once it is locked. -/
def followL (s : State) : State :=
  let p := s.time.primary
  let v := s.time.viewL
  if (domOf s p).state = .off then
    (if v.base.isNone then s else { s with time.viewL := rebased s v none slewL })
  else if v.base = none then
    (if isLocked s p then
      let c := now s
      let amount := baseTime s (some p) c - viewTime s v c
      stepEvent { s with time.viewL := { base := some p, delta0 := 0, from0 := c, slewPpb := slewL } } 1 amount
     else s)
  else if v.base = some p && v.frozen.isNone then s
  else if isLocked s p || (v.base != some p && (domOf s p).state != .acquiring) then
    { s with time.viewL := rebased s v (some p) slewL }
  else if v.base = some p then s
  else { s with time.viewL := { v with base := some p, frozen := runOf s v } }

/-- A domain has changed state: both views follow. -/
def followViews (s : State) : State := followL (followS s false)

/-- Views whose base is a domain that restarts keep its present run (R487). -/
def freezeViews (s : State) (d : Nat) : State :=
  let x := domOf s d
  let fr (v : View) : View :=
    if v.base = some d && v.frozen.isNone && x.state != .off then
      { v with frozen := some ((x.ofs : Int), x.anchor, x.rate) } else v
  { s with time.viewS := fr s.time.viewS, time.viewL := fr s.time.viewL }

/-! ## The servo (R482, R483) -/

/-- The denominator of i in a domain: with Ts = tsNum / tsDen s and theta in 2^-48 s, i counts in parts of
128 tau_ms^2 tsDen (R483). -/
def iDen (d : Domain) (tsDen : Nat) : Nat := 128 * d.tauMs * d.tauMs * tsDen

/-- One servo update (R483). -/
def servo (s : State) (d : Nat) (theta : Int) (tsNum tsDen : Nat) : State :=
  let x := domOf s d
  let den := iDen x tsDen
  let lim := rateLimit * den
  let i := clampInt (x.iNum + 250000 * theta * tsNum) (-lim) lim
  let r := s.fuse.xtalCorr + roundDiv (i + 1000 * theta * x.tauMs * tsDen) den
  let r := clampInt r (s.fuse.xtalCorr - rateLimit) (s.fuse.xtalCorr + rateLimit)
  setRate (updDom s d fun x => { x with iNum := i }) d r

/-- The median of four values: the mean of the middle two. -/
def median4 (l : List Int) : Int :=
  let lo := l.foldl min (l.getD 0 0)
  let hi := l.foldl max (l.getD 0 0)
  (l.sum - lo - hi) / 2

/-- |theta| in ns is at most a bound. -/
def thetaWithin (theta : Int) (ns : Nat) : Bool := theta.natAbs * 1000000000 ≤ ns * 2 ^ 48

/-- Four measurements span at most 1 us. -/
def spreadOk (l : List Int) : Bool :=
  (l.foldl max (l.getD 0 0) - l.foldl min (l.getD 0 0)).natAbs * 1000000 ≤ 2 ^ 48

/-- The mean of a domain's last 64 rates (R482). -/
def meanRate (x : Domain) : Int :=
  if x.rates.isEmpty then x.rate else roundDiv x.rates.sum x.rates.length

/-- Leave acquiring: one step by minus the median, then settling (R482). -/
def leaveAcquiring (s : State) (d : Nat) (w : List Int) : State :=
  let m := median4 w
  stepEvent (updDom s d fun x => { x with
    ofs := mod96 ((x.ofs : Int) - m), state := .settling, iNum := 0, good := 0, bad := 0, window := [],
    steps := sat32 x.steps 1, syncT := x.syncT.map fun t => (t.1, t.2 - m) }) (2 + d) (-m)

/-- Count a measurement after the step: 8 beyond 1 ms fault the domain, 16 within `lock_ns` lock it (R482). -/
def judge (s : State) (d : Nat) (theta : Int) : State :=
  let x := domOf s d
  let bad := if thetaWithin theta 1000000 then 0 else x.bad + 1
  let good := if thetaWithin theta x.lockNs then x.good + 1 else 0
  let s1 := updDom s d fun x => { x with bad := bad, good := good }
  if 8 ≤ bad then
    let s2 := domainEvent (updDom (setRate s1 d (meanRate x)) d fun y => { y with
      state := .fault
      lockLosses := if x.state = .locked then sat32 y.lockLosses 1 else y.lockLosses }) d x.state 5
    followViews s2
  else if x.state = .settling && 16 ≤ good then
    followViews (domainEvent (updDom s1 d fun y => { y with state := .locked, lockedAt := now s }) d x.state 6)
  else s1

/-- A domain takes a measurement theta, in 2^-48 s, with its interval (R482, R483); none while a reset holds the
domains in holdover (R568). -/
def measure (s : State) (d : Nat) (theta : Int) (tsNum tsDen : Nat) : State :=
  if s.pwr.booting.isSome then s
  else
  let s0 := updDom s d fun x => { x with theta := theta, meas := sat32 x.meas 1 }
  let x := domOf s0 d
  match x.state with
  | .off => s
  | .fault => s0
  | .acquiring =>
    let w := (theta :: x.window).take 4
    if w.length = 4 && spreadOk w then leaveAcquiring s0 d w else updDom s0 d fun x => { x with window := w }
  | .holdover =>
    let s1 := updDom s0 d fun x => { x with
      state := .settling, good := 0, bad := 0, iNum := (x.rate - s.fuse.xtalCorr) * iDen x tsDen }
    judge (servo s1 d theta tsNum tsDen) d theta
  | _ => judge (servo s0 d theta tsNum tsDen) d theta

/-- A domain's source is lost (R482): settling or locked becomes holdover at the mean of its last rates. -/
def loseSource (s : State) (d cause : Nat) : State :=
  let x := domOf s d
  match x.state with
  | .settling | .locked =>
    let s1 := updDom (setRate s d (meanRate x)) d fun y => { y with
      state := .holdover
      lockLosses := if x.state = .locked then sat32 y.lockLosses 1 else y.lockLosses }
    domainEvent s1 d x.state cause
  | .acquiring => updDom s d fun y => { y with window := [] }
  | _ => s

/-- Sources lost on one PIPE clock: the views follow once every domain has left its state (R486). -/
def losesSources (s : State) (ds : List Nat) (cause : Nat) : State :=
  followViews (ds.foldl (fun s d => loseSource s d cause) s)
def sourceLost (s : State) (d cause : Nat) : State := losesSources s [d] cause

/-- Every flow context a domain holds is freed: its time flow, or its foreign masters' (R480, R481). -/
def freeDomainContexts (s : State) (d : Nat) : State :=
  let x := domOf s d
  let s1 := match x.flow with
    | some f => freeFlow s f
    | none => s
  let s2 := { s1 with ring.flows := s1.ring.flows.filter fun f => !(f.kind == 6 && f.token == d) }
  updDom s2 d fun y => { y with masters := [], flow := none }

/-! ## Stamps (R478) -/

/-- Picoseconds in 2^-48 s. -/
def psToTime (ps : Int) : Int := roundDiv (ps * 2 ^ 48) 1000000000000

/-! ## Sync input (R491) -/



/-- The frame rates of R425, as numerator over 1 or 1,001. -/
def rates1080 : List (Nat × Nat) :=
  [(24000, 1001), (24, 1), (25, 1), (30000, 1001), (30, 1), (48000, 1001), (48, 1), (50, 1), (60000, 1001), (60, 1)]

/-- Rates a sync standard allows (R491, R425): bi-level at its own, tri-level at those of the SDI table. -/
def syncRateOk (std num den : Nat) : Bool :=
  match std with
  | 1 => num == 60000 && den == 1001 || num == 30000 && den == 1001
  | 2 => num == 50 && den == 1 || num == 25 && den == 1
  | 3 => rates1080.contains (num, den)
  | 4 => [(50, 1), (60000, 1001), (60, 1)].contains (num, den)
  | _ => true

/-- Whether a line period in ps lies within 100 ppm of its nominal value. -/
def linePeriodOk (fmt num den ps : Nat) : Bool :=
  let scaled := ps * syncLines fmt * num
  let nominal := 1000000000000 * den
  0 < num && (scaled - nominal) * 10000 ≤ nominal && (nominal - scaled) * 10000 ≤ nominal

/-- `EV_TIME_SYNC`. -/
def syncEvent (s : State) (what : Nat) : State :=
  notify s 0x1005 0 (leBytes 1 what ++ leBytes 1 s.time.syncIn.format ++ [0, 0] ++
    leBytes 4 s.time.syncIn.periodPs) 5

/-- The domains whose source is the sync input. -/
def syncDomains (s : State) : List Nat := [0, 1].filter fun d => (domOf s d).source == .sync

/-! ## Timecode (R492, R493) -/

def bcd (v : Nat) : Nat := v / 10 % 10 * 16 + v % 10
def unbcd (v : Nat) : Nat := v / 16 % 16 * 10 + v % 16

/-- Nominal frames per second of an LTC rate, and its exact rate. -/
def ltcFps (rate : Nat) : Nat := match rate with | 1 => 24 | 2 => 25 | _ => 30
def ltcRate (rate : Nat) : Nat × Nat := if rate = 3 then (30000, 1001) else (ltcFps rate, 1)

/-- Frames since midnight of a BCD hh:mm:ss:ff value; drop-frame leaves out two frame numbers a minute but
every tenth. -/
def ltcFrames (rate v : Nat) : Nat :=
  let h := unbcd (v / 2 ^ 24 % 256)
  let m := unbcd (v / 2 ^ 16 % 256)
  let sec := unbcd (v / 2 ^ 8 % 256)
  let f := unbcd (v % 256)
  let n := ((h * 60 + m) * 60 + sec) * ltcFps rate + f
  let mins := h * 60 + m
  if rate = 3 then n - 2 * (mins - mins / 10) else n

/-- Frames in a day. -/
def ltcDay (rate : Nat) : Nat := if rate = 3 then 2589408 else 86400 * ltcFps rate

/-- The BCD value of a frame count. -/
def ltcValue (rate n : Nat) : Nat :=
  let n := n % ltcDay rate
  let n := if rate = 3 then
      let tens := n / 17982
      let r := n % 17982
      n + 18 * tens + (if r < 2 then 0 else 2 * ((r - 2) / 1798))
    else n
  let fps := ltcFps rate
  bcd (n / fps / 3600) * 2 ^ 24 + bcd (n / fps / 60 % 60) * 2 ^ 16 + bcd (n / fps % 60) * 2 ^ 8 + bcd (n % fps)

/-- The reader's value now: the last valid frame's, advanced by the frame periods passed since; the
generator's where the reader is not valid (R492). -/
def ltcReader (s : State) : Nat :=
  let l := s.time.ltc
  if l.rate = 0 then 0
  else if !l.readerValid then l.generator
  else
    let r := ltcRate l.rate
    ltcValue l.rate (ltcFrames l.rate l.reader + (now s - l.readerAt) * r.1 / (1228800000 * r.2))

/-- `EV_TIME_LTC`. -/
def ltcEvent (s : State) (what value : Nat) : State :=
  notify s 0x1006 0 (leBytes 1 what ++ [0, 0, 0] ++ leBytes 4 value) 6

/-- The frame count since midnight of a PTP time shifted by a local offset in seconds (R493). -/
def ltcFromTime (rate : Nat) (t offset : Int) : Nat :=
  let r := ltcRate rate
  let day := (t + offset * 2 ^ 48) % (86400 * 2 ^ 48)
  (day * r.1 / (2 ^ 48 * r.2)).toNat

/-! ## The counter (R473) -/

/-- A cold or RESET_N boot is in progress. -/
def fullBoot (s : State) : Bool := s.pwr.booting == some .cold || s.pwr.booting == some .resetN

/-- PIPE clocks are counted: the device is powered and past its cold or RESET_N boot, and no fault hold stands. -/
def counts (s : State) : Bool :=
  s.pwr.powered && s.br.hold.isNone && !fullBoot s

/-- One PIPE clock passes with no command (R473): the counter C advances. -/
def pipeTick (s : State) : State := if counts s then { s with time.c := s.time.c + 1 } else s

end Sys2Proof.Machine
end

