-- ==== Sys2Proof/Machine/RecOps.lean ====
section
/-! DEFINITION. The recording engine's operations: clip volumes, clips, records, checkpoints, closing, spilling,
pre-roll and recovery (R302 to R323). -/

namespace Sys2Proof.Machine

/-! ## The volume as it reads now (R311 to R314) -/

/-- One byte of a port's content (R332). -/
def gateByte (s : State) (p a : Nat) : Byte :=
  s.gate.writes.foldl (fun acc w =>
    if w.port = p then
      ((targetIndex w.targets (a / w.blk)).map fun i => w.data.getD (i * w.blk + a % w.blk) 0).getD acc
    else acc) (memGet (gatePort s p).disk a)

def volBytes (s : State) (v a n : Nat) : List Byte := (List.range n).map fun i => gateByte s v (a + i)
def volLE (s : State) (v a n : Nat) : Nat := leNat (volBytes s v a n)

def auBytes : Nat := 4194304
def dirAddr (entry : Nat) : Nat := 1280 * 4096 + 512 * entry
def bitmapAddr (au : Nat) : Nat := 1792 * 4096 + au / 8
def auCount (blocks : Nat) : Nat := min ((blocks - 3072) / 1024) 16777216

def auUsed (s : State) (v a : Nat) : Bool := (gateByte s v (bitmapAddr a)).toNat.testBit (a % 8)
def popByte (b : Byte) : Nat := ((List.range 8).filter fun i => b.toNat.testBit i).length
def usedUnits (s : State) (v : Nat) : Nat :=
  ((List.range (ceilDiv (volume s v).units 8)).map fun i => popByte (gateByte s v (bitmapAddr (8 * i)))).sum
def freeUnits (s : State) (v : Nat) : Nat := (volume s v).units - usedUnits s v

/-- The lowest `n` free allocation units, none where there are fewer. -/
def pickUnits (s : State) (v n : Nat) : Option (List Nat) :=
  let l := ((List.range (volume s v).units).filter fun a => !auUsed s v a).take n
  if l.length = n then some l else none

def entryState (s : State) (v e : Nat) : Nat := (gateByte s v (dirAddr e)).toNat
def freeEntries (s : State) (v : Nat) : Nat := ((List.range 4096).filter fun e => entryState s v e == 0).length
def freeEntry (s : State) (v : Nat) : Option Nat := (List.range 4096).find? fun e => entryState s v e == 0

/-- Runs of consecutive allocation units: first and count. -/
def extentsOf : List Nat → List (Nat × Nat)
  | [] => []
  | a :: l => match extentsOf l with
    | (b, n) :: r => if b = a + 1 then (a, n + 1) :: r else (a, 1) :: (b, n) :: r
    | [] => [(a, 1)]

/-- The LBA of a data offset of a clip (R311, R314). -/
def dataLba (aus : List Nat) (off : Nat) : Nat :=
  3072 + 1024 * aus.getD (off / auBytes) 0 + off % auBytes / 4096

/-- The targets of `n` blocks from a data offset, unit by unit. -/
def dataTargets (aus : List Nat) : Nat → Nat → Nat → List (Nat × Nat)
  | 0, _, _ => []
  | fuel + 1, off, n =>
    if n = 0 then []
    else
      let k := min n (1024 - off % auBytes / 4096)
      (dataLba aus off, k) :: dataTargets aus fuel (off + 4096 * k) (n - k)

def padBlock (b : List Byte) : List Byte := b ++ zeros (ceilDiv b.length 4096 * 4096 - b.length)

/-- The extent-list blocks of a clip, in order, for the LBAs they lie at (R314). -/
def extentBlocks : Nat → List (Nat × Nat) → List Nat → List (List Byte)
  | 0, _, _ => []
  | _, _, [] => []
  | k + 1, xs, _ :: rest =>
    let now := xs.take 255
    padBlock (leBytes 4 0x4C434558 ++ leBytes 2 now.length ++ [0, 0] ++ leBytes 8 (rest.headD 0) ++
      now.flatMap fun x => leBytes 8 (3072 + 1024 * x.1) ++ leBytes 4 (1024 * x.2) ++ [0, 0, 0, 0]) ::
      extentBlocks k (xs.drop 255) rest

/-! ## Writes of the engine (R318, R340) -/

/-- Give the Gate a write of the engine; it follows the volume's last Barrier. -/
def engineWrite (s : State) (v : Nat) (targets : List (Nat × Nat)) (data : List Byte) (journal : Bool)
    (shared : Option Nat) (note : RecNote) : Nat × State :=
  acceptWrite s { id := 0, who := .engine v, port := v, blk := 4096, targets := targets, data := data,
                  journal := journal, shared := shared, note := note,
                  after := (volume s v).barrier.filter fun i => s.gate.writes.any fun w => w.id == i }

/-- The Barrier rule inside a volume's domain: every later write follows those accepted so far. -/
def engineBarrier (s : State) (v : Nat) : State :=
  updVolume s v fun x => { x with
    barrier := (s.gate.writes.filter fun w => w.who == .engine v).map (·.id) }

/-- Write a part of one metadata block. -/
def patchBlock (s : State) (v lba off : Nat) (bs : List Byte) : State :=
  let b := gateBlock s v 4096 lba
  (engineWrite s v [(lba, 1)] (b.take off ++ bs ++ b.drop (off + bs.length)) true none .none).2

def writeEntry (s : State) (v e : Nat) (bs : List Byte) : State :=
  patchBlock s v (1280 + e / 8) (512 * (e % 8)) bs

/-- The bitmap block that holds unit `32768 × k`, with units of a list set or cleared. -/
def bitmapBlock (s : State) (v k : Nat) (aus : List Nat) (set : Bool) : List Byte :=
  (gateBlock s v 4096 (1792 + k)).mapIdx fun i b =>
    BitVec.ofNat 8 (((List.range 8).map fun j =>
      let a := 32768 * k + 8 * i + j
      if (if aus.contains a then set else b.toNat.testBit j) then 2 ^ j else 0).sum)

/-- Release allocation units in the bitmap, block by block. -/
def freeUnitsOf (s : State) (v : Nat) (aus : List Nat) : State :=
  (aus.map (· / 32768)).eraseDups.foldl (fun s k =>
    (engineWrite s v [(1792 + k, 1)] (bitmapBlock s v k aus false) true none .none).2) s

/-- Superblock bytes of a volume (R312). -/
def superBytes (x : Volume) (blocks vstate : Nat) : List Byte :=
  withCrc (leBytes 4 0x4C435646 ++ leBytes 2 1 ++ [0, 0] ++ leBytes 8 x.generation ++ leBytes 8 x.volId ++
    leBytes 8 blocks ++ leBytes 4 x.units ++ zeros 4 ++ leBytes 8 x.formatTime ++ leBytes 1 vstate ++ zeros 15 ++
    (x.label ++ zeros 16).take 16 ++ zeros 4012)

/-- Update the superblock: copy A, and copy B once A is durable. -/
def writeSuper (s : State) (v vstate : Nat) : State :=
  let s1 := updVolume s v fun x => { x with generation := x.generation + 1 }
  let b := superBytes (volume s1 v) (gatePort s1 v).blocks vstate
  let s2 := engineBarrier (engineWrite s1 v [(0, 1)] b true none .none).2 v
  engineBarrier (engineWrite s2 v [(1, 1)] b true none .none).2 v

/-! ## Clips -/

/-- Close reserve of one open clip, in allocation units (R322). -/
def clipReserve (k : Clip) : Nat := ceilDiv ((k.entries.length + 1) * 16) auBytes + 1
def openClips (s : State) (v : Nat) : List Clip :=
  s.recs.chans.filterMap fun c => c.clip.filter fun k => k.vol == v
def volReserve (s : State) (v : Nat) : Nat := ((openClips s v).map clipReserve).sum

/-- Allocation units a clip needs for `n` more bytes at its end, with room for a further extent-list block
where one may come due. -/
def unitsNeeded (k : Clip) (n : Nat) : Nat :=
  let need := ceilDiv (k.off + n) auBytes - k.aus.length
  if need = 0 then 0
  else if k.exts.length * 255 < (extentsOf k.aus).length + need then
    ceilDiv (k.off + 4096 + n) auBytes - k.aus.length
  else need

def updClip (s : State) (c : Nat) (f : Clip → Clip) : State :=
  updChan s c fun ch => { ch with clip := ch.clip.map f }

/-- The group of step 1 of R318 for units of a clip: its bitmap blocks and its extent-list blocks. -/
def writeGroup (s : State) (k : Clip) (new : List Nat) : State :=
  let ks := (new.map (· / 32768)).eraseDups
  let lbas := k.exts.map (dataLba k.aus)
  let blocks := extentBlocks (k.exts.length + 1) (extentsOf k.aus) lbas
  engineBarrier (engineWrite s k.vol
    (ks.map (fun i => (1792 + i, 1)) ++ lbas.map (fun a => (a, 1)))
    (ks.flatMap (fun i => bitmapBlock s k.vol i new true) ++ blocks.flatten) true none .none).2 k.vol

/-- Grow a clip for `n` more bytes; none where the volume has no unit left. -/
def clipGrow (s : State) (k : Clip) (n : Nat) : Option (Clip × State) :=
  let need := unitsNeeded k n
  if need = 0 then some (k, s)
  else (pickUnits s k.vol need).map fun new =>
    let k1 := { k with aus := k.aus ++ new }
    let k2 := if k1.exts.length * 255 < (extentsOf k1.aus).length then
        { k1 with exts := k1.exts ++ [k1.off], off := k1.off + 4096 } else k1
    (k2, writeGroup s k2 new)

/-- What follows with a clip grown, or where it cannot grow. -/
def grown {α : Type} (full : α) (f : Clip → State → α) : Option (Clip × State) → α
  | none => full
  | some (k, s) => f k s
def growThen {α : Type} (s : State) (k : Clip) (n : Nat) (full : α) (f : Clip → State → α) : α :=
  grown full f (clipGrow s k n)

/-- The sensor of a channel, 0xFF for none (R302). -/
def streamSensor (s : State) (t : Nat) : Nat :=
  match (s.codec.streams.getD t {}).cmd with
  | none => 0xFF
  | some c => if c.src = 0 then c.unit else ((s.img.rnds.getD c.unit {}).sensor).getD 0xFF

/-- The channel whose stream a channel records: a mirror's is its main's. -/
def leadOf (s : State) (c : Nat) : Nat := if (recChan s c).kind = 2 then (recChan s c).src else c
def chanSensor (s : State) (c : Nat) : Nat :=
  let ch := recChan s (leadOf s c)
  if ch.kind = 4 || ch.kind = 5 then ch.src else streamSensor s ch.src

def sensorCfg (s : State) (sn : Nat) : Option SensConfig := (s.img.sensors.getD sn {}).cfg

/-- Directory entry bytes of an open or closing clip (R313). -/
def entryBytes (s : State) (c : Nat) (k : Clip) (cstate entries dataBytes index : Nat) : List Byte :=
  let ch := recChan s c
  let sn := chanSensor s c
  let cfg := sensorCfg s sn
  let lead := recChan s (leadOf s c)
  let div := if lead.kind = 3 then
      ((s.codec.streams.getD lead.src {}).cmd.map fun x => (s.img.rnds.getD x.unit {}).div).getD 1 else 1
  let b := leBytes 1 cstate ++ leBytes 1 ch.kind ++ leBytes 1 c ++ leBytes 1 sn ++ leBytes 4 k.take ++
    leBytes 2 k.part ++ leBytes 2 k.cflags ++ leBytes 4 ((cfg.map (·.fpsNum)).getD 0) ++
    leBytes 2 ((cfg.map (·.fpsDen)).getD 0) ++ leBytes 2 div ++ leBytes 4 k.timecode ++
    leBytes 8 (if k.partnerVol < 4 then (volume s k.partnerVol).volId else 0) ++ leBytes 2 k.partnerEntry ++
    leBytes 1 ch.audioRate ++ [0] ++ leBytes 4 ch.audioMask ++ leBytes 8 k.t ++ leBytes 4 k.firstN ++
    leBytes 4 entries ++ leBytes 8 dataBytes ++ leBytes 8 (dataLba k.aus 0) ++ leBytes 8 k.lastCkpt ++
    leBytes 8 index ++ zeros 420
  b ++ leBytes 4 (crc32c b)

def allOnes64 : Nat := 2 ^ 64 - 1

/-- A record's bytes (R315). -/
def clipRecord (rkind mflags n seq fs take gen prev : Nat) (payload : List Byte) : List Byte :=
  let h := leBytes 4 0x4C435246 ++ leBytes 1 rkind ++ [0] ++ leBytes 2 mflags ++ leBytes 4 n ++ leBytes 4 seq ++
    leBytes 8 fs ++ leBytes 4 take ++ leBytes 4 payload.length ++ leBytes 2 gen ++ [0, 0] ++
    leBytes 4 (if payload.isEmpty then 0 else crc32c payload) ++ leBytes 8 prev ++ zeros 12
  padBlock (h ++ leBytes 4 (crc32c h) ++ payload)

def itemBytes (it : RecItem) : Nat := ceilDiv (64 + it.payload.length) 4096 * 4096

/-- Open a clip of a channel on a volume (R309, R318): its first unit, then its entry. -/
def openClip (s : State) (c v e part firstN : Nat) (flags pVol pEntry timecode : Nat)
    (partnerLost : Bool) : State :=
  let ch := recChan s c
  let units := (pickUnits s v 1).getD []
  let k : Clip := {
    vol := v, entry := e, part := part, take := ch.take, firstN := firstN, n := firstN, t := ch.t,
    timecode := timecode, cflags := flags, partnerVol := pVol, partnerEntry := pEntry, aus := units, off := 4096,
    entries := [], pending := 0, lastCkpt := allOnes64, ckptAt := now s, exts := [0], markers := 0, durable := 0,
    opened := false, partnerLost := partnerLost }
  let s1 := writeGroup s k units
  let s2 := engineBarrier (writeEntry s1 v e (entryBytes s1 c k 1 0 0 allOnes64)) v
  updChan s2 c fun ch => { ch with clip := some k }

/-- An index entry's 16 bytes (R317). -/
def indexBytes (e : IndexEntry) : List Byte := leBytes 8 e.off ++ leBytes 4 e.blocks ++ leBytes 2 e.mflags ++ [0, 0]

/-- A checkpoint in a clip `k` that has room for it, and the directory entry that claims its items (R317, R318). -/
def checkpointIn (s : State) (c : Nat) (k : Clip) : State :=
  let es := k.entries.drop (k.entries.length - k.pending)
  let b := clipRecord 0xFE 0 (k.n - k.pending) 0 0 k.take 0 k.lastCkpt (es.flatMap indexBytes)
  let s2 := engineBarrier
    (engineWrite (engineBarrier s k.vol) k.vol (dataTargets k.aus 2 k.off 1) b false none .none).2 k.vol
  let k1 := { k with pending := 0, lastCkpt := k.off, ckptAt := now s, off := k.off + 4096 }
  let s3 := updClip s2 c fun _ => k1
  writeEntry s3 k.vol k.entry (entryBytes s3 c k1 1 k1.entries.length k1.off allOnes64)

/-- `EV_REC_CLOSED`. -/
def closedEvent (s : State) (c : Nat) (k : Clip) (reason : Nat) : State :=
  notify s 0x0902 c (leBytes 4 k.take ++ leBytes 2 k.entry ++ leBytes 1 reason ++ leBytes 1 k.vol ++
    leBytes 4 k.entries.length ++ leBytes 4 k.markers) (8 + c)

/-- `EV_REC_VOL`. -/
def volEvent (s : State) (v what recovered : Nat) : State :=
  notify s 0x0903 v (leBytes 1 what ++ [0] ++ leBytes 2 recovered ++
    leBytes 4 (if (volume s v).mounted then freeUnits s v else 0) ++ leBytes 8 (volume s v).volId) (16 + v)

/-- A channel that records no longer. -/
def chanIdle (s : State) (c : Nat) : State :=
  updChan s c fun ch => { ch with state := 1, clip := none, u := none, waiting := [], held := none }

/-- The configured mirror of a channel. -/
def mirrorOf (s : State) (c : Nat) : Option Nat :=
  (List.range 8).find? fun m => (recChan s m).kind == 2 && (recChan s m).src == c

/-- End of the last record of a clip: its extent list where it has none. -/
def recordsEnd (k : Clip) : Nat :=
  match k.entries.getLast? with
  | some e => e.off + 4096 * e.blocks
  | none => 4096

/-- Flags of a record with no payload (R305); `EMERGENCY` stands on a frame that was delivered. -/
def isMarker (mflags : Nat) : Bool := mflags &&& 0x1B != 0
def markersIn (es : List IndexEntry) : Nat := (es.filter fun e => isMarker e.mflags).length

/-- The index entries that a closing clip keeps: a stop instant leaves out items at or after it (R310). -/
def keptEntries (s : State) (c : Nat) (k : Clip) : List IndexEntry :=
  match (recChan s c).u with
  | some u => k.entries.filter fun e => e.fs < u
  | none => k.entries

/-- A clip that closes with its flags and partner, cut to the entries it keeps. -/
def closingClip (keep : List IndexEntry) (k : Clip) (flags pVol pEntry : Nat) : Clip :=
  let k1 : Clip := { k with
    entries := keep, n := k.firstN + keep.length, markers := markersIn keep
    cflags := k.cflags ||| flags ||| (if k.partnerLost then 8 else 0)
    partnerVol := if pVol < 4 then pVol else k.partnerVol
    partnerEntry := if pVol < 4 then pEntry else k.partnerEntry }
  if keep.length != k.entries.length then { k1 with off := recordsEnd k1 } else k1

/-- The units that a clip's records reach. -/
def unitsReached (k : Clip) : Nat := max 1 (ceilDiv k.off auBytes)

/-- A clip without the units that lie wholly beyond its last record, and without the extent-list blocks that only
those needed: each list block was placed where the records then ended, so a kept unit never needs a dropped one. -/
def cutUnits (k : Clip) : Clip :=
  let aus := k.aus.take (unitsReached k)
  { k with aus := aus, exts := k.exts.take (max 1 (ceilDiv (extentsOf aus).length 255)) }

/-- Release the units of a clip beyond its last record: in the bitmap, and in its extent list (R310, R319). -/
def releaseBeyond (s : State) (k : Clip) : State :=
  let beyond := k.aus.drop (unitsReached k)
  if beyond.isEmpty then s
  else writeGroup (engineBarrier (freeUnitsOf (engineBarrier s k.vol) k.vol beyond) k.vol) (cutUnits k) []

/-- The final index and the directory entry of a clip with room for them; the channel has no clip afterwards. -/
def closeInto (s : State) (c reason : Nat) (keep : List IndexEntry) (idx : List Byte) (k : Clip) : State :=
  let s3 := (engineWrite (engineBarrier s k.vol) k.vol
    (dataTargets k.aus (k.aus.length + 1) k.off (idx.length / 4096)) idx false none .none).2
  let s4 := writeEntry (engineBarrier s3 k.vol) k.vol k.entry
    (entryBytes s3 c k 2 keep.length (recordsEnd k) k.off)
  closedEvent (updChan (engineBarrier s4 k.vol) c fun ch => { ch with clip := none }) c k reason

/-- Close a channel's clip (R310, R318 step 5): leave out items at or after a stop instant, release the units
beyond the last record, then the final index and the entry. -/
def closeClip (s : State) (c reason flags pVol pEntry : Nat) : State :=
  match (recChan s c).clip with
  | none => s
  | some k0 =>
    let keep := keptEntries s c k0
    let k1 := closingClip keep k0 flags pVol pEntry
    let s1 := releaseBeyond s k1
    let idx := padBlock (keep.flatMap indexBytes)
    growThen s1 (cutUnits k1) idx.length
      (updChan s1 c fun ch => { ch with clip := none }) fun k s2 => closeInto s2 c reason keep idx k

/-- The mirror of a channel that stops alone goes on with the items that waited for both (R306, R321). -/
def handOver (s : State) (c : Nat) : State :=
  let ch := recChan s c
  match (mirrorOf s c).filter fun m => (recChan s m).clip.isSome with
  | some m => updChan s m fun x => { x with held := ch.held, waiting := ch.waiting }
  | none => s

/-- A volume cannot give a channel a unit without entering the close reserve: spill, or close (R322). -/
def spillOrClose (s : State) (c : Nat) : State :=
  match (recChan s c).clip with
  | none => s
  | some k =>
    let ch := recChan s c
    let s0 := if (volume s k.vol).reserveEntered then s
      else volEvent (updVolume s k.vol fun x => { x with reserveEntered := true }) k.vol 3 0
    let e := freeEntry s0 ch.spill
    let ok := ch.kind != 2 && ch.spill < 4 && ch.spill != k.vol && (volume s0 ch.spill).mounted &&
      volReserve s0 ch.spill + 1 ≤ freeUnits s0 ch.spill && e.isSome
    if ok then
      let s1 := closeClip s0 c 2 4 ch.spill (e.getD 0)
      openClip s1 c ch.spill (e.getD 0) (k.part + 1) k.n 0 k.vol k.entry k.timecode k.partnerLost
    else chanIdle (closeClip (handOver s0 c) c (if ch.u.isSome then 0 else 1) 2 0xFF 0) c

/-- A clip cannot take `n` more bytes without entering its volume's close reserve (R322). -/
def entersReserve (s : State) (k : Clip) (n : Nat) : Bool :=
  let need := unitsNeeded k n
  need != 0 && freeUnits s k.vol < need + volReserve s k.vol

/-- One test of a channel's volume at an item boundary: its clip can take `n` bytes, or spills or closes. -/
def roomOnce (s : State) (c n : Nat) : State :=
  match (recChan s c).clip with
  | none => s
  | some k => if entersReserve s k n then spillOrClose s c else s

/-- Before an item: the channel's clip can take `n` bytes, spilled or closed where its volume is full. A
continuation is held to the same test, and has no further volume to spill to. -/
def makeRoom (s : State) (c n : Nat) : State := roomOnce (roomOnce s c n) c n

/-- Write a checkpoint and the directory entry that claims its items (R317, R318); where its unit would enter the
close reserve the clip spills or closes at this item boundary, and its final index claims them (R322). -/
def checkpoint (s : State) (c : Nat) : State :=
  match (recChan s c).clip with
  | none => s
  | some k0 =>
    if k0.pending = 0 then s
    else if entersReserve s k0 4096 then spillOrClose s c
    else growThen s k0 4096 s fun k s0 => checkpointIn s0 c k

/-- Write one item's record into a clip `k` of a channel that has room for it. -/
def writeItemIn (c : Nat) (it : RecItem) (shared : Option Nat) (k : Clip) (s1 : State) : Option Nat × State :=
  let kind := (recChan s1 (leadOf s1 c)).kind
  let b := clipRecord kind it.mflags k.n it.seq it.fs k.take it.gen 0 it.payload
  let w := engineWrite s1 k.vol (dataTargets k.aus (k.aus.length + 1) k.off (b.length / 4096)) b false shared
    (.record c b.length)
  let marker := isMarker it.mflags
  let k1 : Clip := { k with
    n := k.n + 1, off := k.off + b.length
    entries := k.entries ++ [⟨k.off, b.length / 4096, it.mflags, it.fs⟩]
    pending := k.pending + 1, markers := k.markers + boolNat marker, opened := true }
  let s2 := updChan w.2 c fun ch => { ch with
    clip := some k1, markers := if marker then sat32 ch.markers 1 else ch.markers }
  let s3 := if k.opened then s2
    else notify s2 0x0901 c (leBytes 4 k.take ++ leBytes 2 k.entry ++ leBytes 1 k.vol ++ leBytes 1 k.part ++
      leBytes 4 it.seq) c
  (some w.1, if k1.pending = 252 then checkpoint s3 c else s3)

/-- Write one item's record into a channel's clip: the Gate's number of the write, none without a clip. -/
def writeItem (s : State) (c : Nat) (it : RecItem) (shared : Option Nat) : Option Nat × State :=
  match (recChan s c).clip with
  | none => (none, s)
  | some k0 => growThen s k0 (itemBytes it) (none, s) (writeItemIn c it shared)

/-- Write an item to a channel and, with the same staged bytes, to its mirror (R306). -/
def writeBoth (s : State) (c : Nat) (it : RecItem) : State :=
  let s1 := makeRoom s c (itemBytes it)
  let s2 := match mirrorOf s1 c with
    | some m => makeRoom s1 m (itemBytes it)
    | none => s1
  let r := writeItem s2 c it none
  match mirrorOf s2 c with
  | some m => (writeItem r.2 m it r.1).2
  | none => r.2

/-- The marker that stands for an item the engine could not stage (R307). -/
def overrunOf (it : RecItem) : RecItem := { it with mflags := 0x10, payload := [] }
def isOverrun (it : RecItem) : Bool := it.payload.isEmpty && it.mflags.testBit 4

/-- An `OVERRUN` marker has been written to a channel and to its mirror, which it falls on together (R306). -/
def countOverrun (s : State) (c : Nat) : State :=
  let bump (s : State) (c : Nat) : State := updChan s c fun ch => { ch with overruns := sat32 ch.overruns 1 }
  let s1 := bump s c
  setLeaf (((mirrorOf s c).filter fun m => (recChan s m).clip.isSome).elim s1 (bump s1)) 9 20

/-- Stage an item, an `OVERRUN` marker in its place, or hold the marker (R307). -/
def stageItem (s : State) (c : Nat) (it : RecItem) : State :=
  if engineFits s (itemBytes it) then
    (if isOverrun it then countOverrun (writeBoth s c it) c else writeBoth s c it)
  else if engineFits s 4096 then countOverrun (writeBoth s c (overrunOf it)) c
  else updChan s c fun ch => { ch with held := some (overrunOf it) }

/-- The channel that stages for a position: the main while it has a clip, else its mirror (R321). -/
def stager (s : State) (c : Nat) : Option Nat :=
  if (recChan s c).clip.isSome then some c
  else (mirrorOf s c).filter fun m => (recChan s m).clip.isSome

/-- An item for a channel that records: staged, queued behind a held marker, or left out after the stop
instant (R307, R310). -/
def offerItem (s : State) (c : Nat) (it : RecItem) : State :=
  match stager s c with
  | none => s
  | some d =>
    let ch := recChan s d
    if it.fs < ch.t then s
    else if ch.u.any (· ≤ it.fs) then
      let close (s : State) (c : Nat) : State := updChan s c fun ch => if ch.state = 2 then { ch with state := 3 } else ch
      match mirrorOf s d with
      | some m => close (close s d) m
      | none => close s d
    else if ch.held.isSome then
      updChan s d fun ch => { ch with
        waiting := ch.waiting ++ [if 64 ≤ ch.waiting.length then overrunOf it else it] }
    else stageItem s d it

/-- Milliseconds in units of 2^-32 s. -/
def ms64 (ms : Nat) : Nat := ms * 2 ^ 32 / 1000

/-- Keep pre-roll within its span and its size, the oldest first to go (R308). -/
def trimPreroll (ms size : Nat) : List RecItem → List RecItem
  | [] => []
  | it :: l =>
    let last := ((it :: l).getLast?.map (·.fs)).getD 0
    if size < ((it :: l).map itemBytes).sum || it.fs + ms64 ms < last then trimPreroll ms size l else it :: l

/-- An item of a channel's source arrives (R304, R308): into its pre-roll, and to its clip. -/
def recArrive (s : State) (c : Nat) (it : RecItem) : State :=
  let s1 := updChan s c fun ch =>
    if ch.prerollMs = 0 then ch
    else { ch with preroll := trimPreroll ch.prerollMs (ch.prerollMib * 2 ^ 20) (ch.preroll ++ [it]) }
  offerItem s1 c it

/-- The held marker has been staged: the items behind it follow, until one is held again (R307). -/
def releaseHeld (s : State) (c : Nat) : State :=
  match (recChan s c).held with
  | none => s
  | some it =>
    if !engineFits s 4096 then s
    else
      let rest := (recChan s c).waiting
      let s1 := countOverrun (writeBoth (updChan s c fun ch => { ch with held := none, waiting := [] }) c it) c
      rest.foldl (fun s it => offerItem s c it) s1

/-- Channels that take a stream's items (R303). -/
def chanOfStream (s : State) (t : Nat) : Option Nat :=
  (List.range 8).find? fun c => ((recChan s c).kind == 1 || (recChan s c).kind == 3) && (recChan s c).src == t

/-- An item or marker of a codec stream. -/
def recStreamItem (s : State) (t : Nat) (it : RecItem) : State :=
  match chanOfStream s t with
  | some c => recArrive s c it
  | none => s

/-! ## Audio and metadata chunks (R316) -/

/-- A frame's FS at a sensor: its chunk begins. An audio chunk before it still gathers: a sample's strobe row comes after
its strobe (log entry 192), so the first sample of the new chunk ends the old one. -/
def recFrameStart (s : State) (sn : Nat) (it : RecItem) : State :=
  (List.range 8).foldl (fun s c =>
    let ch := recChan s c
    if ch.src = sn && (ch.kind = 4 || ch.kind = 5) then updChan s c fun ch => { ch with chunks := ch.chunks ++ [it] }
    else s) s

/-- A sample period of the audio channels a recording channel names, with its strobe time (R316): into the chunk of
its frame, the earlier chunks delivered. -/
def recAudioSample (s : State) (c t : Nat) (bytes : List Byte) (muted : Bool) : State :=
  let ch := recChan s c
  let put (it : RecItem) : RecItem := { it with
    payload := it.payload ++ bytes, mflags := if muted then it.mflags ||| 0x20 else it.mflags }
  let later := ch.chunks.filter fun it => it.fs ≤ t
  let n := later.length - 1
  -- a strobe before the first open chunk's FS lies in no frame of the channel
  if later.isEmpty then s else
  match ch.chunks.drop n with
  | [] => s
  | it :: l => (ch.chunks.take n).foldl (fun s old => recArrive s c old) (updChan s c fun ch => { ch with chunks := put it :: l })

/-- Deliver the oldest metadata chunk once its Slate item and the next FS are known. -/
def flushMeta (c : Nat) : Nat → State → State
  | 0, s => s
  | k + 1, s =>
    let ch := recChan s c
    match ch.chunks with
    | a :: b :: l =>
      if a.payload.isEmpty then s
      else
        let mine := ch.metaRecs.filter fun r => a.fs ≤ r.1 && r.1 < b.fs
        let s1 := updChan s c fun ch => { ch with
          chunks := b :: l, metaRecs := ch.metaRecs.filter fun r => b.fs ≤ r.1 }
        flushMeta c k (recArrive s1 c { a with payload := a.payload ++ mine.flatMap (·.2) })
    | _ => s

/-- A Slate item is posted: it heads its frame's metadata chunk. -/
def recSlate (s : State) (sn seq : Nat) (slate : List Byte) : State :=
  (List.range 8).foldl (fun s c =>
    if (recChan s c).kind = 5 && (recChan s c).src = sn then
      flushMeta c 64 (updChan s c fun ch => { ch with
        chunks := ch.chunks.map fun x => if x.seq == seq then { x with payload := slate } else x })
    else s) s

/-- After an FS, chunks whose Slate item came early. -/
def recMetaFlush (s : State) (sn : Nat) : State :=
  (List.range 8).foldl (fun s c =>
    if (recChan s c).kind = 5 && (recChan s c).src = sn then flushMeta c 64 s else s) s

/-- A lens or IMU record is posted: the engine takes its own copy. -/
def recMetaRecord (s : State) (sn ts : Nat) (bytes : List Byte) : State :=
  { s with recs.chans := s.recs.chans.map fun ch =>
      if ch.kind == 5 && ch.src == sn then { ch with metaRecs := ch.metaRecs ++ [(ts, bytes)] } else ch }

/-- `SENS_START`: the pre-roll of every channel of the sensor empties (R308). An open chunk stays open until the
next FS: no position is skipped (R304). -/
def recSensorStart (s : State) (sn : Nat) : State :=
  (List.range 8).foldl (fun s c =>
    if chanSensor s c = sn then updChan s c fun ch => { ch with preroll := [] } else s) s

/-! ## Failed drives (R321) -/

/-- Every channel that writes to a failed drive stops; a partner goes on alone. -/
def recDriveFailed (s : State) (v : Nat) : State :=
  let s1 := (List.range 8).foldl (fun s c =>
    match (recChan s c).clip with
    | none => s
    | some k =>
      if k.vol != v then s
      else
        let s1 := closedEvent (chanIdle (handOver s c) c) c k 3
        let partner := if (recChan s c).kind = 2 then some (recChan s c).src else mirrorOf s c
        match partner with
        | some m => updClip s1 m fun x => { x with partnerLost := true }
        | none => s1) s
  let was := (volume s1 v).mounted
  let s2 := updVolume s1 v fun x => { x with mounted := false, failed := true, barrier := [] }
  if was then volEvent s2 v 2 0 else s2

/-- A drive is declared failed (R328). -/
def driveFailed (s : State) (p cause : Nat) : State :=
  let s1 := failCommands s p
  let (lost, s2) := discardWrites s1 p
  let s3 := updGatePort s2 p fun q => { q with state := 2, clipValid := false, windowKib := 0 }
  let s4 := driveEvent s3 p 2 cause lost
  let s5 := if (gatePort s p).state = 3 then nsNotice s4 (p + 5)
    else if (gatePort s p).clipValid then nsNotice s4 (p + 1) else s4
  let s6 := (s5.gate.sessions.filter fun x => x.server && !x.ended && x.remoteNs == p + 1).foldl (fun s x => sessionEnd s x 2) s5
  nvmeSettle (recDriveFailed s6 p)

/-! ## Recovery (R319, R320) -/

/-- The allocation units that an extent list reaches from a block, and the blocks of the list. -/
def chainUnits (s : State) (v : Nat) : Nat → Nat → List Nat × List Nat
  | 0, _ => ([], [])
  | fuel + 1, lba =>
    let a := lba * 4096
    if lba < 3072 || volLE s v a 4 != 0x4C434558 then ([], [])
    else
      let n := volLE s v (a + 4) 2
      let us := (List.range n).flatMap fun i =>
        let first := volLE s v (a + 16 + 16 * i) 8
        (List.range (volLE s v (a + 24 + 16 * i) 4 / 1024)).map fun j => (first - 3072) / 1024 + j
      let next := volLE s v (a + 8) 8
      let r := if next = 0 then ([], []) else chainUnits s v fuel next
      (us ++ r.1, lba :: r.2)

/-- A chain holds fewer list blocks than its volume has units. -/
def listFuel (s : State) (v : Nat) : Nat := (volume s v).units + 1

/-- The data offset of an LBA in a clip's units. -/
def offsetOf (aus : List Nat) (lba : Nat) : Nat :=
  let u := (lba - 3072) / 1024
  (aus.takeWhile (· != u)).length * auBytes + (lba - 3072) % 1024 * 4096

/-- Bytes of clip data from a data offset. -/
def clipBytes (s : State) (v : Nat) (aus : List Nat) (off n : Nat) : List Byte :=
  (List.range n).map fun i => gateByte s v (dataLba aus (off + i) * 4096 + (off + i) % 4096)

/-- What a recovery has read: where it stands, where the last accepted record ends, the next n, the first n that
the next checkpoint covers, the entries. -/
structure Scan where
  off : Nat
  last : Nat
  n : Nat
  covered : Nat
  entries : List IndexEntry
deriving DecidableEq, Repr

/-- Read records in data order until one fails (R319). -/
def scanRecords (s : State) (v : Nat) (aus exts : List Nat) (take : Nat) : Nat → Scan → Scan
  | 0, r => r
  | fuel + 1, r =>
    if exts.contains r.off then scanRecords s v aus exts take fuel { r with off := r.off + 4096 }
    else if aus.length * auBytes ≤ r.off then r
    else
      let h := clipBytes s v aus r.off 64
      let len := fld h 0x1C 4
      let ok := fld h 0 4 == 0x4C435246 && crcOk h && fld h 0x18 4 == take &&
        r.off + 64 + len ≤ aus.length * auBytes
      if !ok then r
      else
        let p := clipBytes s v aus (r.off + 64) len
        let blocks := ceilDiv (64 + len) 4096
        if (if len = 0 then 0 else crc32c p) != fld h 0x24 4 then r
        else if fld h 4 1 = 0xFE then
          if fld h 8 4 != r.covered then r
          else scanRecords s v aus exts take fuel
            { r with off := r.off + 4096 * blocks, last := r.off + 4096 * blocks, covered := r.n }
        else if fld h 8 4 != r.n then r
        else scanRecords s v aus exts take fuel {
          off := r.off + 4096 * blocks, last := r.off + 4096 * blocks, n := r.n + 1, covered := r.covered
          entries := r.entries ++ [⟨r.off, blocks, fld h 6 2, fld h 0x10 8⟩] }

/-- The index entries of the checkpoints from one back to the first, oldest first. -/
def checkpointEntries (s : State) (v : Nat) (aus : List Nat) : Nat → Nat → List IndexEntry
  | 0, _ => []
  | fuel + 1, off =>
    if aus.length * auBytes ≤ off then []
    else
      let h := clipBytes s v aus off 64
      let p := clipBytes s v aus (off + 64) (fld h 0x1C 4)
      let mine := (List.range (p.length / 16)).map fun i =>
        (⟨fld p (16 * i) 8, fld p (16 * i + 8) 4, fld p (16 * i + 12) 2, 0⟩ : IndexEntry)
      checkpointEntries s v aus fuel (fld h 0x28 8) ++ mine

/-- The clip of a directory entry `d` as its checkpoints and the records after them show it (R319, R320). -/
def foundClip (s : State) (v e : Nat) (d : List Byte) : Clip :=
  let (aus, lists) := chainUnits s v (listFuel s v) (fld d 0x40 8)
  let exts := lists.map (offsetOf aus)
  let ck := fld d 0x48 8
  -- each record and each checkpoint takes a block at the least
  let fuel := aus.length * 1024 + 1
  let old := if ck = allOnes64 then [] else checkpointEntries s v aus fuel ck
  let first := fld d 0x30 4
  let from' := if ck = allOnes64 then 4096 else ck + 4096
  let r := scanRecords s v aus exts (fld d 4 4) fuel
    { off := from', last := from', n := first + old.length, covered := first + old.length, entries := old }
  { vol := v, entry := e, part := fld d 8 2, take := fld d 4 4, firstN := first, n := r.n, t := fld d 0x28 8,
    timecode := fld d 0x14 4, cflags := fld d 0x0A 2, partnerVol := 0xFF, partnerEntry := 0, aus := aus,
    off := r.last, entries := r.entries, pending := 0, lastCkpt := ck, ckptAt := 0, exts := exts, markers := 0,
    durable := 0, opened := true }

/-- The final index of a recovered clip with room for it, and its entry, recovered. -/
def recoverInto (s : State) (v e : Nat) (d idx : List Byte) (k : Clip) : State :=
  let s3 := engineBarrier (engineWrite s v (dataTargets k.aus (k.aus.length + 1) k.off (idx.length / 4096)) idx
    false none .none).2 v
  let b := [(3 : Byte)] ++ (d.drop 1).take 0x33 ++ leBytes 4 k.entries.length ++ leBytes 8 (recordsEnd k) ++
    (d.drop 0x40).take 16 ++ leBytes 8 k.off ++ zeros 420
  engineBarrier (writeEntry s3 v e (b ++ leBytes 4 (crc32c b))) v

/-- Recover the clip of a directory entry that a mount finds recording. -/
def recoverClip (s : State) (v e : Nat) : State :=
  let d := volBytes s v (dirAddr e) 512
  let k := foundClip s v e d
  let s1 := releaseBeyond s k
  let idx := padBlock (k.entries.flatMap indexBytes)
  growThen s1 (cutUnits k) idx.length s1 fun k s2 => recoverInto s2 v e d idx k

/-- Units that the bitmap marks and no extent of a non-free entry reaches (R320). -/
def strayUnits (s : State) (v : Nat) : List Nat :=
  let reached := (List.range 4096).flatMap fun e =>
    if entryState s v e = 0 then [] else (chainUnits s v (listFuel s v) (volLE s v (dirAddr e + 0x40) 8)).1
  (List.range (volume s v).units).filter fun a => auUsed s v a && !reached.contains a

end Sys2Proof.Machine
end

