-- ==== Sys2Proof/Machine/Schist.lean ====
section
/-! DEFINITION. The Schist bitstream (R253 to R276) and the choices the device's encoder makes within it (R279 to
R282, R287), as functions of samples and bytes. -/

namespace Sys2Proof.Machine

/-- Big-endian bytes and their value (R253). -/
def beBytes (n v : Nat) : List Byte := (leBytes n v).reverse
def beNat (l : List Byte) : Nat := leNat l.reverse

/-- The `n` low bits of a value, most significant first. -/
def bitsOf : Nat → Nat → List Bool
  | 0, _ => []
  | n + 1, v => v.testBit n :: bitsOf n v

def bitsVal (l : List Bool) : Nat := l.foldl (fun a b => 2 * a + boolNat b) 0

/-- Bits into bytes, the last byte padded with 0. -/
def packBytes : Nat → List Bool → List Byte
  | 0, _ => []
  | k + 1, l =>
    if l.isEmpty then []
    else BitVec.ofNat 8 (bitsVal (l.take 8 ++ List.replicate (8 - (l.take 8).length) false)) :: packBytes k (l.drop 8)

def unpackBytes (l : List Byte) : List Bool := l.flatMap fun b => bitsOf 8 b.toNat

/-- Zero bytes up to the next multiple of 16. -/
def padTo16 (n : Nat) : Nat := ceilDiv n 16 * 16
def pad16Bytes (l : List Byte) : List Byte := l ++ List.replicate (padTo16 l.length - l.length) 0

/-! ## Lifting (R264 to R266) -/

/-- The high coefficients of the forward 5/3 lifting: from x[2i], x[2i+1], x[2i+2] with symmetric ends. -/
def liftHigh (x : List Int) : List Int :=
  let n := x.length
  (List.range (n / 2)).map fun i =>
    let r := if 2 * i + 2 < n then x.getD (2 * i + 2) 0 else x.getD (n - 2) 0
    x.getD (2 * i + 1) 0 - (x.getD (2 * i) 0 + r) / 2

/-- The neighbours d[i - 1] + d[i] with symmetric ends. -/
def highPair (d : List Int) (i : Nat) : Int :=
  let a := if i = 0 then d.getD 0 0 else d.getD (i - 1) 0
  let b := if i < d.length then d.getD i 0 else d.getD (d.length - 1) 0
  a + b

def liftLow (x d : List Int) : List Int :=
  if x.length = 1 then x
  else (List.range ((x.length + 1) / 2)).map fun i => x.getD (2 * i) 0 + (highPair d i + 2) / 4

/-- The inverse: low and high halves to the sequence. -/
def unlift (s d : List Int) : List Int :=
  let n := s.length + d.length
  if n = 1 then s
  else
    let e := (List.range s.length).map fun i => s.getD i 0 - (highPair d i + 2) / 4
    (List.range n).map fun k =>
      if k % 2 = 0 then e.getD (k / 2) 0
      else
        let r := if k + 1 < n then e.getD (k / 2 + 1) 0 else e.getD ((n - 2) / 2) 0
        d.getD (k / 2) 0 + (e.getD (k / 2) 0 + r) / 2

/-- A plane as lines; the columns of a plane of a width. -/
abbrev Plane := List (List Int)
def columns (w : Nat) (p : Plane) : Plane := (List.range w).map fun x => p.map fun l => l.getD x 0

/-- One level of the transform: LL, HL, LH, HH (R264, R266). -/
def liftPlane (w h : Nat) (p : Plane) : List Plane :=
  let hi := p.map liftHigh
  let lo := p.map fun l => liftLow l (liftHigh l)
  let vert (wd : Nat) (q : Plane) : Plane × Plane :=
    let cs := columns wd q
    (columns ((h + 1) / 2) (cs.map fun c => liftLow c (liftHigh c)), columns (h / 2) (cs.map liftHigh))
  let a := vert ((w + 1) / 2) lo
  let b := vert (w / 2) hi
  [a.1, b.1, a.2, b.2]

/-- The inverse of one level, to a plane of w × h. -/
def unliftPlane (w h : Nat) (bands : List Plane) : Plane :=
  let g (k : Nat) : Plane := bands.getD k []
  let vert (wd : Nat) (l d : Plane) : Plane :=
    columns h ((columns wd l).zipWith unlift (columns wd d))
  (vert ((w + 1) / 2) (g 0) (g 2)).zipWith unlift (vert (w / 2) (g 1) (g 3))

/-- The seven subbands of a plane, in the order of R263. -/
def subbands (w h : Nat) (p : Plane) : List Plane :=
  let l1 := liftPlane w h p
  liftPlane ((w + 1) / 2) ((h + 1) / 2) (l1.getD 0 []) ++ l1.drop 1

/-- Widths and heights of the subbands. -/
def subbandSizes (w h : Nat) : List (Nat × Nat) :=
  let w1 := (w + 1) / 2
  let h1 := (h + 1) / 2
  [((w1 + 1) / 2, (h1 + 1) / 2), (w1 / 2, (h1 + 1) / 2), ((w1 + 1) / 2, h1 / 2), (w1 / 2, h1 / 2),
   (w / 2, h1), (w1, h / 2), (w / 2, h / 2)]

/-- The plane of seven subbands. -/
def fromSubbands (w h : Nat) (bs : List Plane) : Plane :=
  unliftPlane w h (unliftPlane ((w + 1) / 2) ((h + 1) / 2) (bs.take 4) :: bs.drop 4)

/-! ## Slabs (R257, R259, R260, R267) -/

/-- A slab's shape. -/
structure SlabShape where
  proxy : Bool
  split : Nat
  w : Nat
  h : Nat
deriving DecidableEq, Repr

def splitX (split : Nat) : Nat := 2 ^ (split % 4)
def splitY (split : Nat) : Nat := 2 ^ (split / 4 % 4)

/-- Widths and heights of a slab's component planes. -/
def planeSizes (g : SlabShape) : List (Nat × Nat) :=
  if g.proxy then [(g.w, g.h), (g.w / 2, g.h), (g.w / 2, g.h)]
  else List.replicate (splitX g.split * splitY g.split) (g.w / splitX g.split, g.h / splitY g.split)

/-- The planes of a slab from a function that gives component k at (x, y) of its plane. -/
def slabPlanes (g : SlabShape) (px : Nat → Nat → Nat → Nat) : List Plane :=
  (planeSizes g).mapIdx fun k sz =>
    (List.range sz.2).map fun y => (List.range sz.1).map fun x => (px k x y : Int)

/-- Where component k's (x, y) of a raw slab lies in the slab (R259). -/
def rawPosition (g : SlabShape) (k x y : Nat) : Nat × Nat :=
  (x * splitX g.split + k % splitX g.split, y * splitY g.split + k / splitX g.split)

/-- A quantiser set: seven steps, then `rbias` (R256). -/
abbrev QuantSet := List Nat
def quantise (q : Nat) (c : Int) : Int := if c < 0 then -((c.natAbs / q : Nat) : Int) else (c.natAbs / q : Nat)
def dequantise (q r : Nat) (v : Int) : Int :=
  if v = 0 then 0
  else
    let m : Int := (v.natAbs * q + q * r / 8 : Nat)
    if v < 0 then -m else m

/-- The coded values of a slab: one list for each non-empty subband, in order (R263). -/
def codedSubbands (g : SlabShape) (planes : List Plane) (sets : Nat → QuantSet) : List (List Int) :=
  ((planes.mapIdx fun k p =>
    let sz := (planeSizes g).getD k (0, 0)
    (subbands sz.1 sz.2 p).mapIdx fun b sb => sb.flatten.map (quantise ((sets k).getD b 1))).flatten).filter
      (!·.isEmpty)

/-! ## Tokens (R269, R279) -/

inductive Token where
  | zrun (z e : Nat)
  | val (m e : Nat) (neg : Bool)
  | echo (l e c f : Nat)
  | zend
deriving DecidableEq, Repr

def Token.symbol : Token → Nat
  | .zrun z _ => z
  | .val m _ _ => m + 15
  | .echo l _ _ _ => l + 36
  | .zend => 50

/-- The bits after a token's code word. -/
def Token.extra : Token → List Bool
  | .zrun z e => bitsOf z e
  | .val m e neg => bitsOf (m - 1) e ++ [neg]
  | .echo l e c f => bitsOf (l + 1) e ++ bitsOf 4 c ++ bitsOf c f
  | .zend => []

def valToken (v : Int) : Token :=
  let m := Nat.log2 v.natAbs + 1
  .val m (v.natAbs - 2 ^ (m - 1)) (v < 0)

def echoToken (len d : Nat) : Token :=
  let l := Nat.log2 len - 1
  .echo l (len - 2 ^ (l + 1)) (Nat.log2 d) (d - 2 ^ Nat.log2 d)

/-- Tokens of a run of zeros. -/
def zeroRun : Nat → Nat → List Token
  | 0, _ => []
  | k + 1, r =>
    if r = 0 then []
    else
      let n := min r 65535
      .zrun (Nat.log2 n) (n - 2 ^ Nat.log2 n) :: zeroRun k (r - n)

/-- How far the coefficients at p agree with those D before, up to a limit. -/
def matchLen (a : Array Int) (p d : Nat) : Nat → Nat → Nat
  | 0, n => n
  | k + 1, n => if a.getD (p + n) 0 = a.getD (p + n - d) 0 then matchLen a p d k (n + 1) else n

/-- The longest match at p of 3 or more: length and distance, the smallest distance of equal lengths. -/
def bestMatch (a : Array Int) (p lim : Nat) : Option (Nat × Nat) :=
  (List.range (min p 16384)).foldl (fun best i =>
    let n := matchLen a p (i + 1) lim 0
    if 3 ≤ n && (best.all fun b => b.1 < n) then some (n, i + 1) else best) none

def zerosFrom (a : Array Int) (p : Nat) : Nat → Nat
  | 0 => 0
  | k + 1 => if a.getD p 0 = 0 then zerosFrom a (p + 1) k + 1 else 0

/-- Tokens of a subband from p to `stop` (R279). -/
def tokenise (a : Array Int) (echoes : Bool) (stop : Nat) : Nat → Nat → List Token
  | 0, _ => []
  | k + 1, p =>
    if stop ≤ p then []
    else
      let r := zerosFrom a p (stop - p)
      if r = stop - p then [.zend]
      else if 0 < r then zeroRun (r + 1) r ++ tokenise a echoes stop k (p + r)
      else
        match if echoes then bestMatch a p (min 32767 (stop - p)) else none with
        | some m => echoToken m.1 m.2 :: tokenise a echoes stop k (p + m.1)
        | none => valToken (a.getD p 0) :: tokenise a echoes stop k (p + 1)

/-- Tokens of a slab's subbands. -/
def slabTokens (bands : List (List Int)) (echoes : Bool) : List Token :=
  let a := bands.flatten.toArray
  (bands.foldl (fun acc b =>
    (acc.1 ++ tokenise a echoes (acc.2 + b.length) (b.length + 1) acc.2, acc.2 + b.length)) ([], 0)).1

/-! ## Code tables (R272, R273, R281) -/

/-- Symbols coded with each length up to 15. -/
def lengthCount (lens : List Nat) (k : Nat) : Nat := if k = 0 then 0 else (lens.filter (· == k)).length
/-- first[k] of R272. -/
def firstCode (lens : List Nat) : Nat → Nat
  | 0 => 0
  | k + 1 => (firstCode lens k + lengthCount lens k) * 2

/-- The code word of a symbol. -/
def codeBits (lens : List Nat) (s : Nat) : List Bool :=
  let k := lens.getD s 0
  bitsOf k (firstCode lens k + ((lens.take s).filter (· == k)).length)

/-- The score of a symbol in static table k (R273). -/
def staticScore (k s : Nat) : Nat :=
  if s ≤ 15 then 2 * s + 1 + k
  else if s ≤ 35 then
    let m := s - 15
    2 * ((m : Int) - k - 1).natAbs + boolNat (m < k + 1)
  else if s ≤ 49 then 6 + 2 * (s - 36)
  else 2 + k

def rankLength (r : Nat) : Nat :=
  if r ≤ 1 then 2 else if r ≤ 3 then 3 else if r ≤ 7 then 5 else if r ≤ 15 then 7 else if r ≤ 43 then 9 else 10

/-- Code lengths of static table k. -/
def staticLengths (k : Nat) : List Nat :=
  (List.range 52).map fun s =>
    if s = 51 then 10
    else rankLength ((List.range 51).filter fun t =>
      staticScore k t < staticScore k s || (staticScore k t == staticScore k s && t < s)).length

/-- A package: weight, and the symbols in it. -/
abbrev Package := Nat × List Nat

/-- Merge leaves and packages in weight order, a leaf before a package of the same weight. -/
def mergePackages : Nat → List Package → List Package → List Package
  | 0, _, _ => []
  | _ + 1, [], ps => ps
  | _ + 1, ls, [] => ls
  | k + 1, l :: ls, p :: ps =>
    if l.1 ≤ p.1 then l :: mergePackages k ls (p :: ps) else p :: mergePackages k (l :: ls) ps

def pairUp : List Package → List Package
  | a :: b :: l => (a.1 + b.1, a.2 ++ b.2) :: pairUp l
  | _ => []

/-- Leaves in order of weight, a lower symbol first. -/
def insertLeaf (p : Package) : List Package → List Package
  | [] => [p]
  | q :: l => if p.1 < q.1 then p :: q :: l else q :: insertLeaf p l

def packageLevels (leaves : List Package) : Nat → List Package
  | 0 => leaves
  | k + 1 => mergePackages 200 leaves (pairUp (packageLevels leaves k))

/-- Lengths of the dynamic table of a slab's counts (R281). -/
def dynamicLengths (counts : List Nat) : List Nat :=
  let leaves := (List.range 51).foldl (fun l s => insertLeaf (counts.getD s 0 + 1, [s]) l) []
  let chosen := ((packageLevels leaves 14).take 100).flatMap (·.2)
  (List.range 52).map fun s => (chosen.filter (· == s)).length

/-- The cost of a table on counts. -/
def tableCost (counts lens : List Nat) : Nat := (counts.zipWith (· * ·) lens).sum

/-- The table of least cost: static 0 to 7, or 8 for the dynamic one where it is a candidate (R281, R282). -/
def bestTable (counts : List Nat) (dynamic : Bool) : Nat :=
  let best := (List.range 8).foldl (fun b k =>
    if tableCost counts (staticLengths k) < tableCost counts (staticLengths b) then k else b) 0
  if dynamic && tableCost counts (dynamicLengths counts) + 208 < tableCost counts (staticLengths best) then 8
  else best

/-- Symbol counts of tokens. -/
def tokenCounts (ts : List Token) : List Nat :=
  (List.range 52).map fun s => (ts.filter fun t => t.symbol == s).length

def tableLengths (table : Nat) (counts : List Nat) : List Nat :=
  if table = 8 then dynamicLengths counts else staticLengths table

/-- The bytes of a slab (R261, R262): `dyn` holds the counts of a dynamic table. -/
def slabBytes' (n table : Nat) (echoes : Bool) (qsel : Nat) (dyn : List Nat) (ts : List Token) : List Byte :=
  let lens := tableLengths table dyn
  let bits := ts.flatMap fun t => codeBits lens t.symbol ++ t.extra
  [0xB5] ++ beBytes 1 (table + 16 * boolNat echoes) ++ beBytes 1 qsel ++ [0] ++ beBytes 2 n ++ [0, 0] ++
    beBytes 4 bits.length ++
    (if table = 8 then (List.range 26).map fun i =>
      BitVec.ofNat 8 (16 * lens.getD (2 * i) 0 + lens.getD (2 * i + 1) 0) else []) ++
    packBytes (bits.length / 8 + 1) bits

/-! ## Frames (R255 to R258) -/

/-- The fields of a frame header. -/
structure FrameHdr where
  proxy : Bool
  split : Nat
  frameBytes : Nat
  width : Nat
  height : Nat
  slabW : Nat
  slabH : Nat
  seq : Nat
  time : Nat
  gen : Nat
  qsets : Nat
  lossless : Bool
  emergency : Bool
  source : Nat
deriving DecidableEq, Repr

def gridC (w sw : Nat) : Nat := ceilDiv w sw
def gridR (h sh : Nat) : Nat := ceilDiv h sh

/-- Slab n's origin and shape (R257). -/
def slabAt (proxy : Bool) (split w h sw sh n : Nat) : Nat × Nat × SlabShape :=
  let c := gridC w sw
  let x := n % c * sw
  let y := n / c * sh
  (x, y, { proxy := proxy, split := split, w := min sw (w - x), h := min sh (h - y) })

def headerBytes (f : FrameHdr) : List Byte :=
  beBytes 4 0x53434846 ++ [1] ++ beBytes 1 (boolNat f.proxy) ++ beBytes 1 (if f.proxy then 10 else 16) ++
    beBytes 1 f.split ++ beBytes 4 f.frameBytes ++ beBytes 2 f.width ++ beBytes 2 f.height ++
    beBytes 2 f.slabW ++ beBytes 2 f.slabH ++ beBytes 4 f.seq ++ beBytes 8 f.time ++ beBytes 2 f.gen ++
    beBytes 1 f.qsets ++ beBytes 1 (boolNat f.lossless + 2 * boolNat f.emergency) ++ beBytes 1 f.source ++ [0, 0, 0]

def setBytes (q : QuantSet) : List Byte :=
  ((List.range 7).flatMap fun b => beBytes 2 (q.getD b 1)) ++ beBytes 1 (q.getD 7 0) ++ [0]

def isLossless (sets : List QuantSet) : Bool := sets.all fun q => (q.take 7).all (· == 1)

/-- Bytes of the header, sets and padded index. -/
def headBytes (qsets slabs : Nat) : Nat := padTo16 (0x28 + 16 * qsets + 8 * slabs)

/-- Slab offsets from the padded lengths, the first after the head. -/
def slabOffsets (start : Nat) : List Nat → List (Nat × Nat)
  | [] => []
  | l :: ls => (start, l) :: slabOffsets (start + padTo16 l) ls

/-- The head block of a frame: header, sets, index, padding. -/
def headBlock (f : FrameHdr) (sets : List QuantSet) (lens : List Nat) : List Byte :=
  let idx := slabOffsets (headBytes f.qsets lens.length) lens
  pad16Bytes (headerBytes f ++ sets.flatMap setBytes ++ idx.flatMap fun e => beBytes 4 e.1 ++ beBytes 4 e.2)

/-! ## The decoder (R255 to R276) -/

/-- An error: code, scope of the record, position (R274, R275). -/
structure SErr where
  code : Nat
  scope : Nat
  pos : Nat
deriving DecidableEq, Repr

def illegalAt (scope pos : Nat) : SErr := ⟨0x0801, scope, pos⟩
def checkAt (ok : Bool) (scope pos : Nat) : Option SErr := if ok then none else some (illegalAt scope pos)

/-- The first error of a list of checks. -/
def firstErr (l : List (Option SErr)) : Option SErr := l.findSome? id

/-- A big-endian field of a frame read through a byte function. -/
def rdBe (rd : Nat → Byte) (off n : Nat) : Nat := beNat ((List.range n).map fun i => rd (off + i))

def readHeader (rd : Nat → Byte) : FrameHdr where
  proxy := rdBe rd 5 1 == 1
  split := rdBe rd 7 1
  frameBytes := rdBe rd 8 4
  width := rdBe rd 0x0C 2
  height := rdBe rd 0x0E 2
  slabW := rdBe rd 0x10 2
  slabH := rdBe rd 0x12 2
  seq := rdBe rd 0x14 4
  time := rdBe rd 0x18 8
  gen := rdBe rd 0x20 2
  qsets := rdBe rd 0x22 1
  lossless := (rdBe rd 0x23 1).testBit 0
  emergency := (rdBe rd 0x23 1).testBit 1
  source := rdBe rd 0x24 1

def slabSizeOk (sw sh : Nat) : Bool :=
  16 ≤ sw && sw ≤ 4096 && sw % 16 == 0 && 8 ≤ sh && sh ≤ 2048 && sh % 8 == 0

/-- The header checks of R255 and R257, in order. -/
def headerError (rd : Nat → Byte) : Option SErr :=
  let f := readHeader rd
  let b (o : Nat) : Nat := rdBe rd o 1
  let c (ok : Bool) (o : Nat) : Option SErr := checkAt ok 0 o
  firstErr [
    c (rdBe rd 0 4 == 0x53434846) 0, c (b 4 == 1) 4, c (b 5 ≤ 1) 5, c (b 6 == if f.proxy then 10 else 16) 6,
    c (if f.proxy then f.split == 0 else f.split < 16) 7, c (f.frameBytes % 16 == 0) 8,
    c (if f.proxy then 2 ≤ f.width && f.width ≤ 8192 && f.width % 2 == 0
       else 8 ≤ f.width && f.width ≤ 16384 && f.width % 8 == 0 && f.width % splitX f.split == 0) 0x0C,
    c (if f.proxy then 1 ≤ f.height && f.height ≤ 8192
       else 2 ≤ f.height && f.height ≤ 8192 && f.height % 2 == 0 && f.height % splitY f.split == 0) 0x0E,
    c (16 ≤ f.slabW && f.slabW ≤ 4096 && f.slabW % 16 == 0) 0x10,
    c (8 ≤ f.slabH && f.slabH ≤ 2048 && f.slabH % 8 == 0) 0x12,
    c (1 ≤ f.qsets && f.qsets ≤ 16) 0x22, c (b 0x23 < 4) 0x23, c (b 0x24 ≤ 3 || b 0x24 == 0xFF) 0x24,
    c (b 0x25 == 0) 0x25, c (b 0x26 == 0) 0x25, c (b 0x27 == 0) 0x25,
    c (gridC f.width f.slabW * gridR f.height f.slabH ≤ 16384) 0x12]

def readSet (rd : Nat → Byte) (j : Nat) : QuantSet :=
  ((List.range 7).map fun b => rdBe rd (0x28 + 16 * j + 2 * b) 2) ++ [rdBe rd (0x28 + 16 * j + 14) 1]

/-- The checks of the sets and of `lossless`. -/
def setsError (rd : Nat → Byte) : Option SErr :=
  let f := readHeader rd
  let sets := (List.range f.qsets).map (readSet rd)
  firstErr (((List.range f.qsets).flatMap fun j =>
    let q := readSet rd j
    ((List.range 7).map fun b => checkAt (q.getD b 0 != 0) 0 (0x28 + 16 * j + 2 * b)) ++
      [checkAt (q.getD 7 0 ≤ 7) 0 (0x28 + 16 * j + 14), checkAt (rd (0x28 + 16 * j + 15) == 0) 0 (0x28 + 16 * j + 15)])
    ++ [checkAt (f.lossless == isLossless sets) 0 0x23])

/-- Read a code word from a bit position: symbol and bits used, or an error (R272). -/
def readSymbol (lens : List Nat) (bits : Array Bool) (p : Nat) : Nat → Nat → Nat → Except SErr (Nat × Nat)
  | 0, _, _ => .error (illegalAt 3 p)
  | fuel + 1, k, v =>
    let stillPrefix := (List.range 52).any fun s =>
      let w := codeBits lens s
      k ≤ w.length && 0 < w.length && w.take k == bitsOf k v
    if !stillPrefix then .error (illegalAt 3 p)
    else
      match (List.range 52).find? fun s => lens.getD s 0 == k && 0 < k && codeBits lens s == bitsOf k v with
      | some s => .ok (s, k)
      | none =>
        match bits[p + k]? with
        | none => .error ⟨0x0803, 3, p⟩
        | some b => readSymbol lens bits p fuel (k + 1) (2 * v + boolNat b)

/-- Read a field of k bits. -/
def readField (bits : Array Bool) (p k : Nat) : Except SErr Nat :=
  if bits.size < p + k then .error ⟨0x0803, 3, p⟩
  else .ok (bitsVal ((List.range k).map fun i => bits.getD (p + i) false))

/-- Append an echo's copies. -/
def echoCopy (a : Array Int) (d : Nat) : Nat → Array Int
  | 0 => a
  | k + 1 => echoCopy (a.push (a.getD (a.size - d) 0)) d k

/-- Decode tokens until the coefficients reach `stop` (R270): the coefficients and the bit position. -/
def decodeTokens (lens : List Nat) (echoes : Bool) (bits : Array Bool) (stop : Nat) :
    Nat → Array Int → Nat → Except SErr (Array Int × Nat)
  | 0, a, p => .ok (a, p)
  | fuel + 1, a, p => do
    if stop ≤ a.size then .ok (a, p)
    else
      let (t, k) ← readSymbol lens bits p 16 0 0
      let q := p + k
      if t ≤ 15 then
        let e ← readField bits q t
        let run := 2 ^ t + e
        if stop < a.size + run then .error ⟨0x0803, 3, p⟩
        else decodeTokens lens echoes bits stop fuel (a ++ Array.replicate run 0) (q + t)
      else if t ≤ 35 then
        let m := t - 15
        let e ← readField bits q (m - 1)
        let sg ← readField bits (q + (m - 1)) 1
        let v : Int := (2 ^ (m - 1) + e : Nat)
        decodeTokens lens echoes bits stop fuel (a.push (if sg = 1 then -v else v)) (q + m)
      else if t ≤ 49 then
        let l := t - 36
        let e ← readField bits q (l + 1)
        let c ← readField bits (q + l + 1) 4
        let f ← readField bits (q + l + 5) c
        let len := 2 ^ (l + 1) + e
        let d := 2 ^ c + f
        if !echoes || c = 15 then .error (illegalAt 3 p)
        else if 16384 < d || a.size < d then .error ⟨0x0802, 3, p⟩
        else if stop < a.size + len then .error ⟨0x0803, 3, p⟩
        else decodeTokens lens echoes bits stop fuel (echoCopy a d len) (q + l + 5 + c)
      else if t = 50 then
        decodeTokens lens echoes bits stop fuel (a ++ Array.replicate (stop - a.size) 0) q
      else .error (illegalAt 3 p)

/-- Decode subbands of given sizes one after another. -/
def decodeBands (lens : List Nat) (echoes : Bool) (bits : Array Bool) :
    List Nat → Array Int → Nat → Except SErr (Array Int × Nat)
  | [], a, p => .ok (a, p)
  | n :: l, a, p => do
    let (a', p') ← decodeTokens lens echoes bits (a.size + n) (n + 1) a p
    decodeBands lens echoes bits l a' p'

/-- Cut a list into pieces of given lengths. -/
def cutList {α : Type} : List Nat → List α → List (List α)
  | [], _ => []
  | n :: ns, l => l.take n :: cutList ns (l.drop n)

/-- Lines of a plane from its values in raster order. -/
def toLines (w h : Nat) (l : List Int) : Plane := (List.range h).map fun y => (l.drop (w * y)).take w

/-- Reconstructed samples of a slab's planes from its coefficients (R267, R268). -/
def reconstruct (g : SlabShape) (sets : Nat → QuantSet) (coef : List Int) : List Plane :=
  let sizes := planeSizes g
  let per := sizes.map fun sz => (subbandSizes sz.1 sz.2).map fun b => b.1 * b.2
  let groups := cutList (per.map List.sum) coef
  let top : Int := if g.proxy then 1023 else 65535
  sizes.mapIdx fun k sz =>
    let q := sets k
    let bands := (cutList (per.getD k []) (groups.getD k [])).mapIdx fun b l =>
      let d := (subbandSizes sz.1 sz.2).getD b (0, 0)
      toLines d.1 d.2 (l.map (dequantise (q.getD b 1) (q.getD 7 0)))
    (fromSubbands sz.1 sz.2 bands).map fun l => l.map fun v => clampInt v 0 top

/-- The quantiser set of component k under `qsel`. -/
def setOf (sets : List QuantSet) (proxy : Bool) (qsel k : Nat) : QuantSet :=
  sets.getD (if proxy && k != 0 then qsel / 16 else qsel % 16) []

/-- Shift an error's token position by the header, in bits from `stag`. -/
def shiftErr (bits : Nat) (e : SErr) : SErr := if e.scope = 3 then { e with pos := e.pos + bits } else e

/-- Decode slab n of a frame: its planes, or its first error (R258, R261, R262, R270, R275). -/
def decodeSlab (rd : Nat → Byte) (n : Nat) : Except SErr (List Plane) :=
  let f := readHeader rd
  let slabs := gridC f.width f.slabW * gridR f.height f.slabH
  let sets := (List.range f.qsets).map (readSet rd)
  let e := 0x28 + 16 * f.qsets + 8 * n
  let off := rdBe rd e 4
  let len := rdBe rd (e + 4) 4
  let prev := if n = 0 then 0 else rdBe rd (e - 8) 4 + rdBe rd (e - 4) 4
  let g := (slabAt f.proxy f.split f.width f.height f.slabW f.slabH n).2.2
  let h (o k : Nat) : Nat := rdBe rd (off + o) k
  let table := h 1 1 % 16
  let hdr := if table = 8 then 38 else 12
  let lens := if table = 8 then
      (List.range 52).map fun s => let b := h (12 + s / 2) 1; if s % 2 = 0 then b / 16 else b % 16
    else staticLengths table
  let kraft := (lens.map fun l => if l = 0 then 0 else 2 ^ (15 - l)).sum
  let qs := h 2 1
  let pb := h 8 4
  let idx (ok : Bool) : Option SErr := checkAt ok 1 e
  let sh (ok : Bool) (byte : Nat) : Option SErr := checkAt ok 2 (8 * byte)
  match firstErr [
    idx (off % 16 == 0), idx (headBytes f.qsets slabs ≤ off), idx (off + len ≤ f.frameBytes),
    idx (12 ≤ len && (table != 8 || 38 ≤ len)), idx (prev ≤ off),
    sh (h 0 1 == 0xB5) 0, sh (table ≤ 8 && h 1 1 < 32) 1,
    sh (qs % 16 < f.qsets && (if f.proxy then qs / 16 < f.qsets else qs / 16 == 0)) 2, sh (h 3 1 == 0) 3,
    sh (h 4 2 == n) 4, sh (h 6 2 == 0) 6, sh (1 ≤ pb) 8,
    (if table = 8 then firstErr [
        checkAt (lens.getD 51 0 == 0) 2 (96 + 4 * 51),
        checkAt (lens.any (· != 0) && kraft ≤ 2 ^ 15) 2 96] else none),
    idx (len == hdr + ceilDiv pb 8)] with
  | some err => .error err
  | none =>
    let raw := unpackBytes ((List.range (ceilDiv pb 8)).map fun i => rd (off + hdr + i))
    let bits := (raw.take pb).toArray
    let sizes := (planeSizes g).flatMap fun sz =>
      ((subbandSizes sz.1 sz.2).map fun b => b.1 * b.2).filter (· != 0)
    match decodeBands lens (h 1 1 / 16 == 1) bits sizes #[] 0 with
    | .error err => .error (shiftErr (8 * hdr) err)
    | .ok (a, p) =>
      if p < pb then .error (illegalAt 4 (8 * hdr + p))
      else match (List.range (raw.length - pb)).find? fun i => raw.getD (pb + i) false with
        | some i => .error (illegalAt 4 (8 * hdr + pb + i))
        | none => .ok (reconstruct g (setOf sets f.proxy qs) a.toList)

end Sys2Proof.Machine
end

