-- ==== Sys2Proof/Machine/CodecOps.lean ====
section
/-! DEFINITION. The Schist pool's operations: lanes and their credit, slabs of streams and jobs, rate control, the
frame ceiling, emergency passes, delivery and loss (R277 to R297, R640). -/

namespace Sys2Proof.Machine

def codecStream (s : State) (t : Nat) : CodecStream := s.codec.streams.getD t {}
def updStream (s : State) (t : Nat) (f : CodecStream → CodecStream) : State :=
  { s with codec.streams := modAt s.codec.streams t f }

/-- A stream's history is cleared; a frame taken before adds nothing to the new one (R280). -/
def clearHistory (s : State) (t : Nat) : State :=
  updStream s t fun x => { x with history := [], epoch := x.epoch + 1 }

def lane (s : State) (p : Nat) : Lane := s.codec.lanes.getD p {}
def updLane (s : State) (p : Nat) (f : Lane → Lane) : State :=
  { s with codec.lanes := modAt s.codec.lanes p f }
def jobOf (s : State) (j : Nat) : Option Job := s.codec.jobs.getD j none
def updJob (s : State) (j : Nat) (f : Job → Job) : State :=
  { s with codec.jobs := modAt s.codec.jobs j (·.map f) }

/-! ## Lanes (R126, R277, R533) -/

/-- Credit in sixteenths of a PIPE clock, grown since it was last taken, up to a bound (R533). -/
def grownCredit (credit : Int) (at' rate cap : Nat) (c : Nat) : Int :=
  min (16 * cap : Nat) (credit + (rate * (c - at') : Nat))

def laneCredit (s : State) (p : Nat) : Int :=
  grownCredit (lane s p).credit (lane s p).creditAt s.therm.allow 122880 (now s)

/-- The physical lane of a logical one, none where it has none. -/
def lanePhys (s : State) (i : Nat) : Option Nat :=
  if i < lanesEnc s.fuse && !s.codec.lost.contains i then s.codec.logical[i]? else none

/-- Lanes in service. -/
def healthyLanes (s : State) : Nat := lanesEnc s.fuse - s.codec.lost.length

/-- A lane may start a slab: it is idle and its credit is above 0. -/
def laneFree (s : State) (p : Nat) : Bool := (lane s p).running.isNone && 0 < laneCredit s p

/-- Start work that takes some PIPE clocks on a lane. -/
def laneStart (s : State) (p : Nat) (w : LaneWork) (clocks : Nat) : State :=
  updLane s p fun l => { l with running := some w, credit := laneCredit s p - 16 * clocks, creditAt := now s }

def laneStop (s : State) (p : Nat) : State := updLane s p fun l => { l with running := none }

/-- Take every slab that a test accepts off the lanes and off the returned list. -/
def abandon (s : State) (p : LaneWork → Bool) : State :=
  { s with
    codec.lanes := s.codec.lanes.map fun l => if l.running.any p then { l with running := none } else l
    codec.returned := s.codec.returned.filter fun w => !p w }

/-! ## Slabs of a stream's frame (R257, R287, R288, R292) -/

def CodecCfg.proxy (c : CodecCfg) : Bool := c.src == 1

def streamSlabs (c : CodecCfg) (f : CodecFrame) : Nat := gridC f.width c.slabW * gridR f.height c.slabH
def streamSlab (c : CodecCfg) (f : CodecFrame) (n : Nat) : Nat × Nat × SlabShape :=
  slabAt c.proxy c.split f.width f.height c.slabW c.slabH n

/-- Samples of a slab: a proxy's pixel counts as two (R277). -/
def shapeSamples (g : SlabShape) : Nat := g.w * g.h * (if g.proxy then 2 else 1)

/-- A set of a stream's ladder (R287). -/
def ladderSet (c : CodecCfg) (j : Nat) : QuantSet :=
  ((List.range 7).map fun b =>
    min 65535 ((c.base.getD b 1 * [256, 304, 362, 431].getD (j % 4) 256 * 2 ^ (j / 4) + 128) / 256)) ++ [c.rbias]

/-- The set a slab of the next normal frame uses (R288). -/
def nextSet (c : CodecCfg) (samples : Nat) : Option SlabHistory → Nat
  | none => ceilDiv (c.qMin + c.qMax) 2
  | some h =>
    let b := 32 * samples / c.ratio
    if 9 * b < 8 * h.len then min (h.set + 1) c.qMax
    else if 4 * h.len < 3 * b then max (h.set - 1) c.qMin
    else h.set

def losslessSet : QuantSet := [1, 1, 1, 1, 1, 1, 1, 0]

/-- The quantiser sets a frame carries. -/
def frameSets (c : CodecCfg) (emergency : Bool) : List QuantSet :=
  if emergency then [ladderSet c 15]
  else if c.lossless then [losslessSet]
  else (List.range (c.qMax - c.qMin + 1)).map fun i => ladderSet c (c.qMin + i)

/-- `qsel` of a slab that uses ladder set j. -/
def slabQsel (c : CodecCfg) (emergency : Bool) (j : Nat) : Nat :=
  if emergency || c.lossless then 0
  else (j - c.qMin) + (if c.proxy then 16 * (min (j + c.chromaOff) c.qMax - c.qMin) else 0)

/-- Component k of a slab's position, from a line-addressed picture in DRAM (R234, R259); a sample that lies in a
poisoned burst reads as 0 (R594). -/
def pictureSample (s : State) (addr stride x0 y0 : Nat) (g : SlabShape) (k x y : Nat) : Nat :=
  if g.proxy then
    let px := if k = 0 then x0 + x else x0 + 2 * x
    let i := if k = 1 then 0 else if k = 2 then 2 else if px % 2 = 0 then 1 else 3
    let a := addr + (y0 + y) * stride + px / 2 * 5
    if poisonedRange s (a + i) 2 then 0 else memLE s.dram a 5 / 2 ^ (10 * i) % 1024
  else
    let q := rawPosition g k x y
    let a := addr + (y0 + q.2) * stride + 2 * (x0 + q.1)
    if poisonedRange s a 2 then 0 else memLE s.dram a 2

/-- A lane has met the poisoned bursts of a slab's picture (R594). -/
def slabPoison (s : State) (addr stride x0 y0 : Nat) (g : SlabShape) : State :=
  let px (n : Nat) : Nat := if g.proxy then n / 2 * 5 else 2 * n
  let hit := (List.range g.h).flatMap fun i => poisonIn s (addr + (y0 + i) * stride + px x0) (px g.w)
  hit.eraseDups.foldl poisonHandled s

/-- A slab as coded: its bytes, its symbol counts and its ladder set. -/
structure CodedSlab where
  bytes : List Byte
  counts : List Nat
  set : Nat
deriving DecidableEq, Repr

/-- The bytes a lane writes for a slab of a stream (R278 to R284, R287). -/
def codeStreamSlab (s : State) (c : CodecCfg) (f : CodecFrame) (n : Nat) (hist : Option SlabHistory)
    (emergency fallback : Bool) : CodedSlab :=
  let sl := streamSlab c f n
  let g := sl.2.2
  let j := nextSet c (shapeSamples g) hist
  let qsel := slabQsel c emergency j
  let planes := slabPlanes g (pictureSample s f.addr f.stride sl.1 sl.2.1 g)
  let echoes := c.echoes && !fallback
  let ts := slabTokens (codedSubbands g planes (setOf (frameSets c emergency) c.proxy qsel)) echoes
  let counts := (hist.map (·.counts)).getD []
  let table := if fallback || hist.isNone then 0 else bestTable counts true
  ⟨pad16Bytes (slabBytes' n table echoes qsel counts ts), tokenCounts ts, j⟩

/-- Whether the lines a slab covers have been written: tap lines by every stripe's band that owns them, or a
rendered buffer (R292). -/
def slabReady (s : State) (c : CodecCfg) (f : CodecFrame) (n : Nat) : Bool :=
  let sl := streamSlab c f n
  if c.proxy then
    ((s.img.rnds.getD c.unit {}).bufs.getD f.buf {}).seq == f.seq &&
      ((s.img.rnds.getD c.unit {}).bufs.getD f.buf {}).state == 1
  else match (s.img.sensors.getD c.unit {}).frames.find? fun x => x.seq == f.seq with
    | none => false
    | some x =>
      let owner (y : Nat) : Nat := if y < 36 then 0 else (y - 4) / 32
      (List.range (stripeCount x.cfg)).all fun k =>
        (List.range sl.2.2.h).all fun i => x.bandsDone.contains (k, owner (sl.2.1 + i))

/-! ## The end of a stream's frame (R289 to R293) -/

/-- Forget a frame of a stream, with its slabs in flight and the lanes' hold on it (R28, R291). -/
def dropCodecFrame (s : State) (t seq : Nat) : State :=
  let s1 := abandon s fun w => match w with
    | .stream t' q _ _ _ => t' == t && q == seq
    | _ => false
  let s2 := updStream s1 t fun x => { x with frames := x.frames.filter fun f => f.seq != seq }
  match (codecStream s t).frames.find? fun f => f.seq == seq with
  | some g => { s2 with img.sensors := modAt s2.img.sensors g.sensor fun sn => { sn with
      frames := sn.frames.map fun f => if f.seq == seq then { f with codecHold := f.codecHold.erase t } else f } }
  | none => s2

def insertItem (it : RecItem) : List RecItem → List RecItem
  | [] => [it]
  | x :: l => if it.seq < x.seq then it :: x :: l else x :: insertItem it l

/-- Hand the recording engine the items that no earlier frame of the stream holds back. -/
def flushOut (t : Nat) : Nat → State → State
  | 0, s => s
  | k + 1, s =>
    match (codecStream s t).out with
    | [] => s
    | it :: l =>
      if (codecStream s t).frames.any fun f => f.seq < it.seq then s
      else flushOut t k (recStreamItem (updStream s t fun x => { x with out := l }) t it)

/-- An item or marker of a stream, delivered in position order (R304). -/
def codecOut (s : State) (t : Nat) (it : RecItem) : State :=
  let s1 := updStream s t fun x => { x with out := insertItem it x.out }
  flushOut t ((codecStream s1 t).out.length) s1

/-- `EV_CODEC_FRAME`. -/
def codecFrameEvent (s : State) (t : Nat) (f : CodecFrame) (result bytes : Nat) : State :=
  notify s 0x0801 t (leBytes 4 f.seq ++ leBytes 1 result ++ [0] ++ leBytes 2 f.overSlab ++
    leBytes 4 (f.ceiling.getD 0xFFFFFFFF) ++ leBytes 4 bytes) t

/-- A frame is lost with a result (R290). -/
def codecLost (s : State) (t : Nat) (f : CodecFrame) (result : Nat) : State :=
  let s1 := updStream (dropCodecFrame s t f.seq) t fun x => { x with lost := sat32 x.lost 1 }
  let s2 := codecOut (codecFrameEvent s1 t f result 0) t
    { seq := f.seq, fs := time64 f.fs, gen := f.gen, mflags := 2 + 256 * result, payload := [] }
  streamFlowSend s2 t f.cfg.frameMax [] true

def viewSNow (s : State) : Int := viewTime s s.time.viewS (now s)

/-- All slabs of a frame are written: its bytes (R254, R255). -/
def streamFrameBytes (c : CodecCfg) (f : CodecFrame) : List Byte :=
  let n := streamSlabs c f
  let slabs := (List.range n).map fun i => ((f.done.find? fun d => d.1 == i).map (·.2)).getD []
  let sets := frameSets c f.emergency
  let body := slabs.flatten
  let len (b : List Byte) : Nat :=
    12 + (if fld b 1 1 % 16 = 8 then 26 else 0) + ceilDiv (beNat ((b.drop 8).take 4)) 8
  headBlock {
    proxy := c.proxy, split := c.split, frameBytes := headBytes sets.length n + body.length,
    width := f.width, height := f.height, slabW := c.slabW, slabH := c.slabH, seq := f.seq,
    time := time64 f.fs, gen := f.gen, qsets := sets.length, lossless := isLossless sets,
    emergency := f.emergency, source := f.sensor } sets (slabs.map len) ++ body

/-- A frame is delivered (R290). -/
def codecDeliver (s : State) (t : Nat) (c : CodecCfg) (f : CodecFrame) : State :=
  let bytes := streamFrameBytes c f
  let s1 := updStream (dropCodecFrame s t f.seq) t fun x => { x with
    framesCoded := sat32 x.framesCoded 1
    emergencies := if f.emergency then sat32 x.emergencies 1 else x.emergencies
    lastBytes := bytes.length
    margins := ((f.deadline - viewSNow s) :: x.margins).take 64 }
  let s2 := if f.emergency then codecFrameEvent s1 t f 0 bytes.length else s1
  let s3 := codecOut s2 t { seq := f.seq, fs := time64 f.fs, gen := f.gen,
                            mflags := if f.emergency then 4 else 0, payload := bytes }
  streamFlowSend s3 t c.frameMax bytes false

/-- A frame the scheduler dropped, or one a stream never took: its marker (R293, R137, R304). -/
def codecMarker (s : State) (t seq fs gen mflags : Nat) : State :=
  codecOut (dropCodecFrame s t seq) t { seq := seq, fs := fs, gen := gen, mflags := mflags, payload := [] }

/-- Change a frame of a stream. -/
def updFrame (s : State) (t seq : Nat) (g : CodecFrame → CodecFrame) : State :=
  updStream s t fun x => { x with frames := x.frames.map fun f => if f.seq == seq then g f else f }

/-- The normal pass fails, and the emergency pass begins (R289, R290). -/
def startEmergency (s : State) (t seq slab : Nat) : State :=
  let s1 := abandon s fun w => match w with
    | .stream t' q _ _ _ => t' == t && q == seq
    | _ => false
  updFrame s1 t seq fun f => { f with emergency := true, overSlab := slab, issued := [], done := [], total := 0 }

/-- A slab of a stream verifies (R283, R289). -/
def streamSlabDone (s : State) (t seq slab : Nat) (emergency fallback : Bool) : State :=
  match (codecStream s t).frames.find? fun f => f.seq == seq with
  | some f =>
    let c := f.cfg
    let current := f.epoch == (codecStream s t).epoch
    let live := if current then ((codecStream s t).history.find? fun h => h.1 == slab).map (·.2) else none
    let hist := if emergency then
        (match f.used.find? fun u => u.1 == slab with
          | some u => u.2
          | none => live)
      else live
    let r := codeStreamSlab s c f slab hist emergency fallback
    let sl := streamSlab c f slab
    let s := slabPoison s f.addr f.stride sl.1 sl.2.1 sl.2.2
    let s1 := if emergency || !current then s else updStream s t fun x => { x with
      history := x.history.filter (fun h => h.1 != slab) ++ [(slab, ⟨r.counts, r.set, r.bytes.length⟩)] }
    let head := headBytes (frameSets c emergency).length (streamSlabs c f)
    let total := (if f.done.isEmpty then head else f.total) + r.bytes.length
    let s2 := updFrame s1 t seq fun f => { f with
      done := f.done ++ [(slab, r.bytes)], total := total
      used := if emergency then f.used else f.used ++ [(slab, live)] }
    if f.ceiling.getD 0 < total then
      (if emergency then codecLost s2 t { f with overSlab := slab } 1 else startEmergency s2 t seq slab)
    else if f.done.length + 1 = streamSlabs c f then
      (match (codecStream s2 t).frames.find? fun f => f.seq == seq with
        | some f' => codecDeliver s2 t c f'
        | none => s2)
    else s2
  | none => s

/-! ## Memory jobs (R294 to R296, R640) -/

def jobShape (spec : JobSpec) (n : Nat) : Nat × Nat × SlabShape :=
  match spec with
  | .encode proxy split _ w h sw sh _ _ _ _ _ _ _ => slabAt proxy split w h sw sh n
  | .decode .. => (0, 0, { proxy := false, split := 0, w := 0, h := 0 })

/-- A byte of a coded frame as a lane reads it: 0 in a poisoned burst (R594). -/
def codedByte (s : State) (a : Nat) : Byte := if poisonedRange s a 1 then 0 else memGet s.dram a

/-- The header of a decode job's frame. -/
def jobHeader (s : State) (inAddr : Nat) : FrameHdr := readHeader fun o => codedByte s (inAddr + o)

/-- Slabs of a job: first and count. -/
def jobSlabs (s : State) (spec : JobSpec) : Nat × Nat :=
  match spec with
  | .encode _ _ _ w h sw sh _ _ _ _ _ _ _ => (0, gridC w sw * gridR h sh)
  | .decode _ inAddr _ _ first count _ _ _ =>
    let f := jobHeader s inAddr
    let n := gridC f.width f.slabW * gridR f.height f.slabH
    (first, if count = 0 then n - first else count)

/-- `EV_CODEC_JOB` (R301). -/
def jobEvent (s : State) (j : Nat) (decode : Bool) (result a b c d : Nat) : State :=
  notify s 0x0804 j (leBytes 1 (boolNat decode) ++ leBytes 1 result ++ leBytes 2 a ++ leBytes 4 b ++ leBytes 4 c ++
    leBytes 4 d) (16 + j)

/-- Input bytes that no later slab of an encode job reads (R294). -/
def jobInBytes (spec : JobSpec) (k : Nat) : Nat :=
  match spec with
  | .encode _ _ _ w h sw sh _ _ _ stride _ _ _ => min h (k / gridC w sw * sh) * stride
  | .decode .. => 0

/-- Free a job's context, its slabs in flight with it. -/
def jobFree (s : State) (j : Nat) : State :=
  let s1 := abandon s fun w => match w with
    | .job j' _ _ => j' == j
    | _ => false
  { s1 with codec.jobs := s1.codec.jobs.set j none }

/-- The final event of a job, which frees it. -/
def jobEnd (s : State) (j result : Nat) : State :=
  match jobOf s j with
  | none => s
  | some x =>
    match x.spec with
    | .encode .. =>
      let inb := jobInBytes x.spec x.slabsDone
      jobEvent (jobFree s j) j false result x.slabsDone x.outThis x.nextLen inb
    | .decode .. => jobEvent (jobFree s j) j true result x.slabsDone 0 x.failed x.firstError

/-- Lanes that run a job's slabs. -/
def jobRuns (s : State) (j : Nat) : Bool :=
  s.codec.lanes.any fun l => l.running.any fun w => match w with
    | .job j' _ _ => j' == j
    | _ => false

/-- An aborting job ends once no lane runs it (R295). -/
def jobSettle (s : State) (j : Nat) : State :=
  if (jobOf s j).any (·.aborting) && !jobRuns s j then jobEnd s j 2 else s

/-- Code a slab of an encode job (R282). -/
def codeJobSlab (s : State) (spec : JobSpec) (n : Nat) (fallback : Bool) : List Byte :=
  match spec with
  | .encode proxy _ policy _ _ _ _ echoes qsets inAddr stride _ _ sets =>
    let sl := jobShape spec n
    let g := sl.2.2
    let qsel := if proxy && qsets = 2 then 16 else 0
    let planes := slabPlanes g (pictureSample s inAddr stride sl.1 sl.2.1 g)
    let echoes := echoes && !fallback
    let ts := slabTokens (codedSubbands g planes (setOf sets proxy qsel)) echoes
    let counts := tokenCounts ts
    let table := if fallback || policy = 0 then 0 else bestTable counts (policy = 2)
    slabBytes' n table echoes qsel counts ts
  | .decode .. => []

/-- Write the head block of a finished encode job. -/
def writeHead (s : State) (x : Job) : State :=
  match x.spec with
  | .encode proxy split _ w h sw sh _ qsets _ _ headAddr seq sets =>
    let n := gridC w sw * gridR h sh
    dramWrite s headAddr (headBlock {
      proxy := proxy, split := split, frameBytes := headBytes qsets n + x.outTotal, width := w, height := h,
      slabW := sw, slabH := sh, seq := seq, time := 0, gen := 0, qsets := qsets, lossless := isLossless sets,
      emergency := false, source := 0xFF } sets x.lens)
  | .decode .. => s

/-- Write the coded slabs that follow those written, in number order; pause where one does not fit (R294). -/
def writeCoded (j : Nat) : Nat → State → State
  | 0, s => s
  | fuel + 1, s =>
    match jobOf s j with
    | none => s
    | some x =>
      match x.coded.find? fun c => c.1 == x.slabsDone with
      | none => s
      | some c =>
        let b := pad16Bytes c.2
        if x.outSize < x.outThis + b.length then
          let s1 := abandon s fun w => match w with
            | .job j' _ _ => j' == j
            | _ => false
          let s2 := updJob s1 j fun x => { x with
            state := 3, nextLen := b.length, coded := [], issued := List.range x.slabsDone }
          jobEvent s2 j false 1 x.slabsDone x.outThis b.length (jobInBytes x.spec x.slabsDone)
        else
          let s1 := updJob (dramWrite s (x.outAddr + x.outThis) b) j fun x => { x with
            slabsDone := x.slabsDone + 1, outThis := x.outThis + b.length, outTotal := x.outTotal + b.length
            lens := x.lens ++ [c.2.length], coded := x.coded.erase c, nextLen := 0 }
          if x.slabsDone + 1 = (jobSlabs s x.spec).2 && !x.aborting then
            (match jobOf s1 j with
              | some y => jobEnd (writeHead s1 y) j 0
              | none => s1)
          else writeCoded j fuel s1

/-- A slab of an encode job verifies. -/
def jobSlabDone (s : State) (j slab : Nat) (fallback : Bool) : State :=
  match jobOf s j with
  | none => s
  | some x =>
    let s0 := match x.spec with
      | .encode _ _ _ _ _ _ _ _ _ inAddr stride _ _ _ =>
        let sl := jobShape x.spec slab
        slabPoison s inAddr stride sl.1 sl.2.1 sl.2.2
      | .decode .. => s
    let s1 := updJob s0 j fun x => { x with coded := x.coded ++ [(slab, codeJobSlab s x.spec slab fallback)] }
    jobSettle (if x.aborting then s1 else writeCoded j (x.coded.length + 1) s1) j

/-- An error record of a decode job (R296), where there is room for one. -/
def errorRecord (s : State) (j slab : Nat) (e : SErr) : State :=
  match jobOf s j with
  | some x =>
    let s1 := match x.spec with
      | .decode _ _ _ _ _ _ errAddr errMax _ =>
        if x.errRecords < errMax then
          dramWrite s (errAddr + 16 * x.errRecords)
            (leBytes 2 slab ++ leBytes 2 e.code ++ leBytes 1 e.scope ++ [0, 0, 0] ++ leBytes 4 e.pos ++ [0, 0, 0, 0])
        else s
      | .encode .. => s
    updJob s1 j fun x => { x with
      errRecords := x.errRecords + 1, firstError := if x.firstError = 0 then e.code else x.firstError }
  | none => s

/-- Write the samples of a decoded slab in place (R296). -/
def writePlanes (s : State) (f : FrameHdr) (n outAddr stride : Nat) (planes : List Plane) : State :=
  let sl := slabAt f.proxy f.split f.width f.height f.slabW f.slabH n
  let g := sl.2.2
  let at' (k x y : Nat) : Nat := ((planes.getD k []).getD y []).getD x 0 |>.toNat
  (List.range g.h).foldl (fun s y =>
    let line := if g.proxy then
        (List.range (g.w / 2)).flatMap fun i =>
          leBytes 5 (packFields 10 [at' 1 i y, at' 0 (2 * i) y, at' 2 i y, at' 0 (2 * i + 1) y])
      else
        (List.range g.w).flatMap fun x =>
          leBytes 2 (at' (x % splitX g.split + splitX g.split * (y % splitY g.split)) (x / splitX g.split)
            (y / splitY g.split))
    let x0 := if g.proxy then sl.1 / 2 * 5 else 2 * sl.1
    dramWrite s (outAddr + (sl.2.1 + y) * stride + x0) line) s

/-- The checks a decode job makes before it decodes (R296): a result, with the error of a frame-level one. -/
def decodeChecks (s : State) (spec : JobSpec) : Option (Nat × Option SErr) :=
  match spec with
  | .encode .. => none
  | .decode inLen inAddr _ stride first count _ _ outSize =>
    let rd (o : Nat) : Byte := codedByte s (inAddr + o)
    match headerError rd with
    | some e => some (4, some e)
    | none =>
      let f := readHeader rd
      if inLen < f.frameBytes then some (3, none)
      else match setsError rd with
        | some e => some (4, some e)
        | none =>
          let line := if f.proxy then f.width / 2 * 5 else 2 * f.width
          let n := gridC f.width f.slabW * gridR f.height f.slabH
          if outSize < f.height * stride || stride < line then some (5, none)
          else if n ≤ first || n < first + count then some (4, none)
          else none

/-- A decode job fails its checks: one record for a frame-level error, then its end. -/
def decodeRefused (s : State) (j result : Nat) (e : Option SErr) : State :=
  match e with
  | none => jobEnd s j result
  | some e => jobEnd (updJob (errorRecord s j 0xFFFF e) j fun x => { x with failed := 0xFFFFFFFF }) j result

/-- A lane finishes decoding a slab (R296). -/
def decodeSlabDone (s : State) (j slab : Nat) : State :=
  match jobOf s j with
  | none => s
  | some x =>
    match x.spec with
    | .encode .. => s
    | .decode _ inAddr outAddr stride _ _ _ _ _ =>
      let rd (o : Nat) : Byte := codedByte s (inAddr + o)
      let entry := 0x28 + 16 * (readHeader rd).qsets + 8 * slab
      let s := ((poisonIn s (inAddr + rdBe rd entry 4) (rdBe rd (entry + 4) 4)).eraseDups).foldl poisonHandled s
      let s1 := match decodeSlab rd slab with
        | .ok planes => updJob (writePlanes s (readHeader rd) slab outAddr stride planes) j fun x => { x with
            slabsDone := x.slabsDone + 1 }
        | .error e => updJob (errorRecord s j slab e) j fun x => { x with failed := x.failed + 1 }
      let n := (jobSlabs s x.spec).2
      if x.aborting then jobSettle s1 j
      else if (jobOf s1 j).any fun y => y.slabsDone + y.failed = n then jobEnd s1 j 0
      else s1

/-! ## Issue (R277, R289, R292, R640) -/

/-- Clocks a slab of a stream or a job takes (R277). -/
def slabClocks (g : SlabShape) (passes : Nat) : Nat :=
  if passes = 2 then shapeSamples g + 256 else ceilDiv (shapeSamples g) 2 + 256

/-- The first ready slab of a frame that has not issued. -/
def nextStreamSlab (s : State) (c : CodecCfg) (f : CodecFrame) : Option Nat :=
  (List.range (streamSlabs c f)).find? fun n => !f.issued.contains n && slabReady s c f n

/-- Deadline, stream, sequence number and slab of the stream slab to issue next. -/
def bestStreamSlab (s : State) : Option (Int × Nat × Nat × Nat) :=
  let all := (List.range 8).flatMap fun t => (codecStream s t).frames.filterMap fun f =>
    (nextStreamSlab s f.cfg f).map fun n => (f.deadline, t, f.seq, n)
  all.foldl (fun best x => match best with
    | none => some x
    | some b => if x.1 < b.1 then some x else best) none

/-- Streams in effect whose source sensor streams, stream k among them (R289). -/
def activeStreams (s : State) (k : Nat) : Nat :=
  ((List.range 8).filter fun t => t == k || match (codecStream s t).eff with
    | none => false
    | some c =>
      let sn := if c.src = 0 then some c.unit else (s.img.rnds.getD c.unit {}).sensor
      sn.any fun x => (s.img.sensors.getD x {}).streaming).length

/-- Fix a frame's ceiling when its first slab issues (R289). -/
def fixCeiling (s : State) (t seq : Nat) (frameMax : Nat) : State :=
  let c := min frameMax (headroom s / activeStreams s t / 16 * 16)
  match (codecStream s t).frames.find? fun f => f.seq == seq with
  | some f =>
    if f.ceiling.isSome then s
    else updStream (updFrame s t seq fun f => { f with ceiling := some c }) t fun x => { x with lastCeiling := c }
  | none => s

/-- Issue a stream slab to a lane. -/
def issueStream (s : State) (p t seq n : Nat) (fallback : Bool) : State :=
  match (codecStream s t).frames.find? fun f => f.seq == seq with
  | some f =>
    let c := f.cfg
    let s1 := fixCeiling s t seq c.frameMax
    let s2 := updFrame s1 t seq fun f => { f with
      issued := if f.issued.contains n then f.issued else f.issued ++ [n], noLane := f.noLane.erase n }
    laneStart s2 p (.stream t seq n f.emergency fallback) (slabClocks (streamSlab c f n).2.2 1)
  | none => s

/-- The next slab a job may issue. -/
def nextJobSlab (s : State) (x : Job) : Option Nat :=
  if x.aborting || x.state = 3 then none
  else
    let r := jobSlabs s x.spec
    ((List.range r.2).map (r.1 + ·)).find? fun n => !x.issued.contains n

/-- Jobs in order of acceptance. -/
def jobsInOrder (s : State) : List (Nat × Job) :=
  ((List.range 16).filterMap fun j => (jobOf s j).map fun x => (j, x)).mergeSort fun a b => a.2.order ≤ b.2.order

/-- Clocks of a slab of a job. -/
def jobClocks (s : State) (spec : JobSpec) (n : Nat) : Nat :=
  match spec with
  | .encode _ _ policy _ _ _ _ _ _ _ _ _ _ _ => slabClocks (jobShape spec n).2.2 (if policy = 0 then 1 else 2)
  | .decode _ inAddr _ _ _ _ _ _ _ =>
    let f := jobHeader s inAddr
    slabClocks (slabAt f.proxy f.split f.width f.height f.slabW f.slabH n).2.2 1

/-- Give a lane the next slab of the oldest job that has one; a decode job is checked first. -/
def issueJob (s : State) (p : Nat) : State :=
  match (jobsInOrder s).find? fun e =>
      (e.2.state == 1 && !e.2.aborting) || (e.2.state == 2 && (nextJobSlab s e.2).isSome) with
  | none => s
  | some (j, x) =>
    let refused := if x.state = 1 then decodeChecks s x.spec else none
    match refused with
    | some r => decodeRefused s j r.1 r.2
    | none =>
      match nextJobSlab s x with
      | none => s
      | some n =>
        laneStart (updJob s j fun x => { x with state := 2, issued := x.issued ++ [n] }) p (.job j n false)
          (jobClocks s x.spec n)

/-- Issue one slab to a physical lane: a returned slab first, then the stream slab of the earliest deadline,
then a job's (R292, R297, R640). -/
def issueSlab (s : State) (p : Nat) : State :=
  if !laneFree s p then s
  else match s.codec.returned with
    | w :: rest =>
      let s1 := { s with codec.returned := rest }
      (match w with
        | .stream t seq n _ fb => issueStream s1 p t seq n fb
        | .job j n fb => match jobOf s1 j with
          | some x => laneStart s1 p (.job j n fb) (jobClocks s1 x.spec n)
          | none => s1)
    | [] =>
      match bestStreamSlab s with
      | some (_, t, seq, n) => issueStream s p t seq n false
      | none => issueJob s p

/-! ## Failed lanes (R284, R297) -/

/-- `EV_CODEC_VERIFY`. -/
def verifyEvent (s : State) (p : Nat) (w : LaneWork) (outcome err : Nat) : State :=
  let (a, b, c, d) := match w with
    | .stream t seq n _ _ => (0, t, n, seq)
    | .job j n _ => (1, j, n, 0)
  notify s 0x0802 p (leBytes 1 a ++ leBytes 1 b ++ leBytes 2 c ++ leBytes 4 d ++ leBytes 1 outcome ++
    leBytes 1 err) (8 + p)

/-- Ledger cause of a lane's failure (R595). -/
def laneLedgerCause (cause : Nat) : Nat := match cause with | 0 => 0 | 1 => 3 | 2 => 1 | _ => 2

/-- The logical lane a physical one serves, and the spare lane: the lowest-numbered healthy one that serves none
(R586). -/
def laneLogical (s : State) (p : Nat) : Option Nat :=
  (List.range (lanesEnc s.fuse)).find? fun i => lanePhys s i == some p
def schistSpare (s : State) : Option Nat :=
  (List.range (lanesEnc s.fuse + 1)).find? fun p => !(lane s p).failed && (laneLogical s p).isNone

/-- The slab a failed lane ran returns to the head of the order; with no lane for it the frame is marked. -/
def laneReturn (s : State) (p : Nat) (use : Bool) : State :=
  let s1 := match (lane s p).running with
    | none => s
    | some w =>
      let s1 := { s with codec.returned := w :: s.codec.returned }
      (match w with
        | .stream t seq n true _ => if use then s1 else updFrame s1 t seq fun f => { f with noLane := f.noLane ++ [n] }
        | _ => s1)
  updLane s1 p fun l => { l with failed := true, running := none }

/-- A failed lane's logical index goes to the spare, or is lost. -/
def laneIndexTo (s : State) (idx spare : Option Nat) : State :=
  match idx with
  | none => s
  | some i => match spare with
    | some x => { s with codec.logical := s.codec.logical.set i x }
    | none => { s with codec.lost := s.codec.lost ++ [i] }

/-- A job settles whose slab a failed lane ran. -/
def laneJobSettle (s : State) : Option LaneWork → State
  | some (.job j _ _) => jobSettle s j
  | _ => s

/-- The ledger's records of a failed lane and of the spare that takes its index, with `mid` between the failure and
them. -/
def laneRecords (mid : State → State) (s : State) (p cause : Nat) (spare : Option Nat) : State :=
  let s6 := mid (spareRecord s 2 0 (laneLedgerCause cause) p 0 0 0)
  match spare with
  | some x => spareRecord (countSubst s6 2) 2 1 (laneLedgerCause cause) x 0 0 0
  | none => s6

/-- A physical lane fails: its slab returns to the head of the order and the spare takes its index (R297). -/
def laneFailFor (mid : State → State) (s : State) (p cause : Nat) : State :=
  if (lane s p).failed || lanesEnc s.fuse < p then mid s
  else
    let idx := laneLogical s p
    let spare := if idx.isSome then schistSpare (updLane s p fun l => { l with failed := true }) else none
    let s3 := laneIndexTo (laneReturn s p spare.isSome) idx spare
    let s4 := notify s3 0x0803 p (leBytes 1 cause ++ leBytes 1 (spare.getD 0xFF)) 13
    let s7 := laneRecords mid (if spare.isSome then s4 else setLeaf s4 8 14) p cause spare
    laneJobSettle (if (schistSpare s7).isNone && (schistSpare s).isSome then setLeaf s7 21 7 else s7) (lane s p).running
def laneFail (s : State) (p cause : Nat) : State := laneFailFor id s p cause

/-- The clocks of a running slab coded again. -/
def workClocks (s : State) (w : LaneWork) : Nat :=
  match w with
  | .stream t seq n _ _ =>
    (match (codecStream s t).frames.find? fun f => f.seq == seq with
      | some f => slabClocks (streamSlab f.cfg f n).2.2 1
      | none => 0)
  | .job j n _ => ((jobOf s j).map fun x => jobClocks s x.spec n).getD 0

end Sys2Proof.Machine
end

