-- ==== Sys2Proof/Machine/Claim.lean ====
section
/-! DEFINITION. Live generations (R224), and the class 2 memory claim (R27). -/

namespace Sys2Proof.Machine

/-! ## Rates -/

/-- Sums of rates kept as fractions. -/
def fracAdd (a b : Nat × Nat) : Nat × Nat := (a.1 * b.2 + b.1 * a.2, a.2 * b.2)
def fracSum (l : List (Nat × Nat)) : Nat × Nat := l.foldl fracAdd (0, 1)
def fracLe (a b : Nat × Nat) : Bool := a.1 * b.2 ≤ b.1 * a.2
/-- What is left of a limit, in units of 10^6, rounded down. -/
def fracLeft (limit : Nat) (used : Nat × Nat) : Nat := (limit * used.2 - used.1) / (1000000 * used.2)

def sensorOf (s : State) (sn : Nat) : Sensor := s.img.sensors.getD sn {}
def rndOf (s : State) (r : Nat) : Rendition := s.img.rnds.getD r {}

/-- The sensor a stream setting draws from. -/
def streamSource (s : State) (src unit : Nat) : Option Nat :=
  if src = 0 then some unit else (rndOf s unit).sensor

/-- The sample rate of a stream (R285), as a fraction. -/
def streamRate (s : State) (src unit : Nat) : Option (Nat × Nat) :=
  (streamSource s src unit).bind fun sn => (sensorOf s sn).cfg.map fun c =>
    if src = 0 then (c.width * c.height * c.fpsNum, c.fpsDen)
    else (2 * (rndOf s unit).maxW * (rndOf s unit).maxH * c.fpsNum, c.fpsDen * (rndOf s unit).div)


/-- The developed rate of a configuration (R22). -/
def devRate (c : SensConfig) : Nat × Nat := (c.width * c.height * c.fpsNum, c.fpsDen)

/-- A rate multiplied by n / d. -/
def fracMul (r : Nat × Nat) (n d : Nat) : Nat × Nat := (r.1 * n, r.2 * d)

/-- A codec stream is attached: a recording channel (R303) or a stream flow (R414) names it. -/
def streamAttached (s : State) (t : Nat) : Bool :=
  (chanOfStream s t).isSome || s.ring.flows.any fun f => f.kind == 2 && !f.inbound && f.stream == t

/-! ## Live generations (R224) -/

/-- A sensor's frames that are in its ring or in an older ring of its own. -/
def ringFrames (x : Sensor) : List IngestFrame := x.frames.filter fun f => f.slot.isSome && !f.released

/-- Scene-linear frames that a rendition may still take (R244). -/
def eligible (s : State) (r : Nat) : List SlBuf :=
  match (rndOf s r).sensor with
  | none => []
  | some sn => (sensorOf s sn).slBufs.filter fun b =>
      b.state == 1 && b.seq % max 1 (rndOf s r).div == 0 && (b.params.place.getD r none).isSome &&
        ((rndOf s r).lastSeen.all fun q => q < b.seq)

/-- Parameter sets and banks of the generations that are live for a sensor on a rendition. -/
def liveOn (s : State) (r sn : Nat) : List (Params × List (Option Nat)) :=
  let x := sensorOf s sn
  let ring := (ringFrames x).map fun f => (f.params, f.banks)
  let latest := if x.cfg.isSome then [(x.active, x.banks)] else []
  let rnd := if r = 0 || (rndOf s r).sensor != some sn then []
    else (((rndOf s r).taken.map (·.src)).toList ++ eligible s r).map fun b => (b.params, b.banks)
  latest ++ ring ++ rnd

/-- Sensors of which a live generation holds a bank of an engine (R224). -/
def bankHolders (s : State) (r b : Nat) : List Nat :=
  (List.range 4).filter fun sn =>
    (r == 0 || (rndOf s r).sensor == some sn) && (liveOn s r sn).any fun g => g.2.getD r none == some b

/-! ## The claim (R27, R243) -/

def placeReads (p : Option Placement) : Nat := (p.map fun p => p.cropW * p.cropH).getD 0

/-- The read claim of a rendition in pixels per second (R243). -/
def readClaim (s : State) (r : Nat) : Nat × Nat :=
  match (rndOf s r).sensor with
  | none => (0, 1)
  | some sn =>
    let places := (sensorOf s sn).shadow.place.getD r none :: (liveOn s r sn).map fun g => g.1.place.getD r none
    let px := (places.map placeReads).foldl max 0
    ((sensorOf s sn).cfg.map fun c => (px * c.fpsNum, c.fpsDen * max 1 (rndOf s r).div)).getD (0, 1)

/-- A rendition has a placement in its sensor's shadow set. -/
def placed (s : State) (r : Nat) : Bool :=
  (rndOf s r).sensor.any fun sn => ((sensorOf s sn).shadow.place.getD r none).isSome

/-- The output rate of a rendition with its shadow placement. -/
def outRate (s : State) (r : Nat) : Nat × Nat :=
  match (rndOf s r).sensor with
  | none => (0, 1)
  | some sn => match (sensorOf s sn).shadow.place.getD r none, (sensorOf s sn).cfg with
    | some p, some c => (p.outW * p.outH * c.fpsNum, c.fpsDen * max 1 (rndOf s r).div)
    | _, _ => (0, 1)

/-- Planes of a tap point (R246). -/
def tapPlanes (c : SensConfig) (point : Nat) : Nat := if point = 1 then c.exposures else 1

/-- What a sensor claims. -/
def sensorClaim (x : Sensor) : Nat × Nat :=
  match x.cfg with
  | none => (0, 1)
  | some c =>
    let w := narrowestStripe c
    fracSum ([fracMul (devRate c) (2 * c.exposures * (2 * w + 24)) w, fracMul (devRate c) (4 * (w + 24)) w,
      (x.rnd0Cmd.map fun r => fracMul (devRate c) (layoutBytes2 r.layout) 2).getD (0, 1),
      (x.slCmd.map fun l => fracMul (devRate c) 8 (4 ^ l.scale)).getD (0, 1)] ++
      (List.range 4).map fun i => if (x.tapCmd.getD i none).isSome then fracMul (devRate c) (2 * tapPlanes c (i + 1)) 1
        else (0, 1))

/-- What an enabled codec stream claims: its reads and its staging. -/
def streamClaim (s : State) (t : Nat) : Nat × Nat :=
  match (codecStream s t).cmd with
  | none => (0, 1)
  | some c =>
    let r := (streamRate s c.src c.unit).getD (0, 1)
    let reads := if c.src = 0 then fracMul r 2 1 else fracMul r 5 4
    let staging := if c.lossless then fracMul r 16 10 else fracMul r 64 (max 1 c.ratio)
    fracAdd reads staging

/-- The class 2 claim in bytes per second. -/
def memClaim (s : State) : Nat × Nat :=
  fracSum ((List.range 4).map (fun sn => sensorClaim (sensorOf s sn)) ++ (List.range 8).map (streamClaim s) ++
    ((List.range 5).map fun k =>
      let r := k + 1
      if placed s r then fracAdd (fracMul (readClaim s r) 8 1) (fracMul (outRate s r) (layoutBytes2 (rndOf s r).layout) 2)
      else (0, 1)) ++
    [fracMul (dispRate s) 16 1])

def claimLimit (f : Fuse) : Nat := if f.pkgM then 115600000000 else 216700000000

/-- The check of R27: the claim as it will stand, against the limit; `without` is the state in which what the
command sets claims nothing. -/
def claimCheck (before without after : State) (off : Nat) : Option Rej :=
  let limit := claimLimit before.fuse
  rejIf (!fracLe (memClaim after) (limit, 1) && !fracLe (memClaim after) (memClaim before)) 0x0104 off
    (fracLeft limit (memClaim without))

end Sys2Proof.Machine
end

