-- ==== Sys2Proof/Machine/Codec.lean ====
section
/-! DEFINITION. The Schist commands and the events of its lanes (chapter 12). -/

namespace Sys2Proof.Machine

/-! ## Checks shared by cards -/

/-- A field that is not a multiple of a number is rejected. -/
def multipleOf (b : Body) (off len k : Nat) : Option Rej := eRange (fld b off len % k != 0) off

/-- An address field: a multiple of 256 whose region lies inside installed capacity, outside the remap
reserve (R294). -/
def addrField (b : Body) (off bytes : Nat) (s : State) : Option Rej :=
  eRange (fld b off 8 % 256 != 0 || !hostRangeOk s (fld b off 8) bytes) off

/-- The first non-zero byte of a range of a body, as the rejection of a field the mode requires to be 0. -/
def zeroFields (b : Body) (fields : List (Nat × Nat)) : List (Option Rej) := fields.map fun f => mustBe0 b f.1 f.2

/-- Width and height of a stream's source, where they are known. -/
def sourceSize (s : State) (src unit : Nat) : Option (Nat × Nat) :=
  if src = 0 then (sensorOf s unit).cfg.map fun c => (c.width, c.height)
  else if (rndOf s unit).sensor.isSome then some ((rndOf s unit).maxW, (rndOf s unit).maxH) else none

/-- Rates of the other enabled streams. -/
def otherRates (s : State) (t : Nat) : Nat × Nat :=
  fracSum ((List.range 8).filterMap fun k =>
    if k = t then none else (codecStream s k).cmd.bind fun c => streamRate s c.src c.unit)

def poolRate (s : State) : Nat := lanesEnc s.fuse * 2457600000

def streamCfg (b : Body) : CodecCfg where
  src := fld b 2 1
  unit := fld b 3 1
  point := fld b 4 1
  split := fld b 5 1
  echoes := fld b 6 1 = 1
  lossless := fld b 7 1 = 1
  slabW := fld b 8 2
  slabH := fld b 0x0A 2
  ratio := fld b 0x0C 2
  qMin := fld b 0x0E 1
  qMax := fld b 0x0F 1
  base := (List.range 7).map fun i => fld b (0x10 + 2 * i) 2
  rbias := fld b 0x1E 1
  chromaOff := fld b 0x1F 1
  frameMax := fld b 0x20 4

def slabWField (b : Body) (off : Nat) : Option Rej :=
  eRange (fld b off 2 < 16 || 4096 < fld b off 2 || fld b off 2 % 16 != 0) off
def slabHField (b : Body) (off : Nat) : Option Rej :=
  eRange (fld b off 2 < 8 || 2048 < fld b off 2 || fld b off 2 % 8 != 0) off

/-- Whether another enabled stream has the same tap point or rendition. -/
def sameSource (s : State) (t : Nat) (c : CodecCfg) : Bool :=
  (List.range 8).any fun k => k != t && (codecStream s k).cmd.any fun x =>
    x.src == c.src && x.unit == c.unit && (c.src == 1 || x.point == c.point)

def codecStreamFields (b : Body) (s : State) : List (Option Rej) :=
  let en := fld b 1 1 = 1
  let raw := fld b 2 1 = 0
  let c := streamCfg b
  let t := fld b 0 1
  [inRange b 0 1 0 7, inRange b 1 1 0 1] ++
  (if !en then [resv b 0x24 4] ++ zeroFields b ([(2, 1), (3, 1), (4, 1), (5, 1), (6, 1), (7, 1), (8, 2), (0x0A, 2),
      (0x0C, 2), (0x0E, 1), (0x0F, 1)] ++ (List.range 7).map (fun i => (0x10 + 2 * i, 2)) ++
      [(0x1E, 1), (0x1F, 1), (0x20, 4)])
  else
    [inRange b 2 1 0 1,
     if raw then inRange b 3 1 0 3 else inRange b 3 1 1 5,
     eVariant (!raw && renditionCount s.fuse ≤ c.unit) 3,
     inMode raw (inRange b 4 1 1 4), inMode raw (inRange b 5 1 0 15), inRange b 6 1 0 1, inRange b 7 1 0 1,
     slabWField b 8, slabHField b 0x0A, inMode (!c.lossless) (inRange b 0x0C 2 16 4096),
     inRange b 0x0E 1 0 14, inRange b 0x0F 1 0 14] ++
    (List.range 7).map (fun i => inRange b (0x10 + 2 * i) 2 1 4096) ++
    [inRange b 0x1E 1 0 7, inMode (!raw) (inRange b 0x1F 1 0 15),
     eRange (fld b 0x20 4 < 65536 || 0x7FFFFFF0 < fld b 0x20 4 || fld b 0x20 4 % 16 != 0) 0x20, resv b 0x24 4,
     -- step 7
     eComb (!raw && sameSource s t c) 3,
     (streamRate s c.src c.unit).bind fun r =>
       rejIf (!fracLe (fracAdd (otherRates s t) r) (poolRate s, 1)) 0x0804 3 (fracLeft (poolRate s) (otherRates s t)),
     inMode (!raw) (mustBe0 b 4 1),
     eComb (raw && c.point == 1 && ((sensorOf s c.unit).cfg.any fun x => x.exposures != 1)) 4,
     eComb (raw && sameSource s t c) 4,
     inMode (!raw) (mustBe0 b 5 1),
     (sourceSize s c.src c.unit).bind fun z =>
       eComb (raw && (z.1 % splitX c.split != 0 || z.2 % splitY c.split != 0)) 5,
     (sourceSize s c.src c.unit).bind fun z => eComb (16384 < gridC z.1 c.slabW * gridR z.2 c.slabH) 0x0A,
     inMode c.lossless (mustBe0 b 0x0C 2), eComb (c.qMax < c.qMin) 0x0F, inMode raw (mustBe0 b 0x1F 1),
     claimCheck s (updStream s t fun x => { x with cmd := none }) (updStream s t fun x => { x with cmd := some c })
       0x0C])

/-- The setting whose source a command checks: the one named when enabling, the present one when disabling. -/
def streamSubject (b : Body) (s : State) : Option (Option Nat) :=
  if fld b 1 1 = 1 then some (streamSource s (fld b 2 1) (fld b 3 1))
  else (codecStream s (fld b 0 1)).cmd.map fun c => streamSource s c.src c.unit

def codecStreamSeq (b : Body) (s : State) : List (Option Rej) :=
  let en := fld b 1 1 = 1
  let c := streamCfg b
  let raw := c.src = 0
  [eSeqAt (en && !raw && !((rndOf s c.unit).sensor.isSome && (rndOf s c.unit).dest == 5 &&
      (rndOf s c.unit).layout == 0)) 3,
   (streamSubject b s).bind fun k => eSeqAt (!(k.any fun sn => (sensorOf s sn).cfg.isSome)) 3,
   eSeqAt (en && raw && !(((sensorOf s c.unit).tapCmd.getD (c.point - 1) none).any fun x => x.format == 0)) 4]

def codecStreamState (b : Body) (s : State) : List (Option Rej) :=
  let en := fld b 1 1 = 1
  [eStateAt (!en && streamAttached s (fld b 0 1)) 1,
   (streamSubject b s).bind fun k => eStateAt (k.any fun sn => (sensorOf s sn).streaming) 3]

/-- CODEC_STREAM (R285, R286): the setting takes effect at the next `SENS_START`. -/
def codecStreamCard : Card where
  opcode := 0x0801
  len := fixedLen 0x28
  fields := codecStreamFields
  seq := codecStreamSeq
  state := codecStreamState
  effect _ b s :=
    let t := fld b 0 1
    (if fld b 1 1 = 1 then clearHistory (updStream s t fun x => { x with cmd := some (streamCfg b) }) t
      else updStream s t fun x => { x with cmd := none }, .now [])

def execCodecStream (n : Fin 40) (s : State) : Host.Outcome State Fault Refusal :=
  .next (mbxRun codecStreamCard n.val s)

/-! ## Memory jobs (R294 to R296) -/

def jobInUse (s : State) (j : Nat) : Bool := (jobOf s j).isSome

/-- A quantiser set of an encode command. -/
def quantField (b : Body) (off : Nat) : QuantSet :=
  (List.range 7).map (fun i => fld b (off + 2 * i) 2) ++ [fld b (off + 14) 1]
/-- The fields of quantiser set 1 of an encode command: seven steps, `rbias` and a reserved byte. -/
def quantOffsets : List (Nat × Nat) := (List.range 7).map (fun i => (0x48 + 2 * i, 2)) ++ [(0x56, 1), (0x57, 1)]
def quantChecks (b : Body) (off : Nat) : List (Option Rej) :=
  (List.range 7).map (fun i => inRange b (off + 2 * i) 2 1 65535) ++ [inRange b (off + 14) 1 0 7, resv b (off + 15) 1]

def encodeLine (b : Body) : Nat := if fld b 1 1 = 1 then fld b 4 2 / 2 * 5 else 2 * fld b 4 2
def encodeSlabs (b : Body) : Nat := gridC (fld b 4 2) (fld b 8 2) * gridR (fld b 6 2) (fld b 0x0A 2)

def jobEncodeFields (b : Body) (s : State) : List (Option Rej) :=
  let proxy := fld b 1 1 = 1
  let w := fld b 4 2
  let h := fld b 6 2
  [inRange b 0 1 0 15, inRange b 1 1 0 1, inMode (!proxy) (inRange b 2 1 0 15), inRange b 3 1 0 2,
   eRange (if proxy then w < 2 || 8192 < w || w % 2 != 0 else w < 8 || 16384 < w || w % 8 != 0) 4,
   eRange (if proxy then h < 1 || 8192 < h else h < 2 || 8192 < h || h % 2 != 0) 6,
   slabWField b 8, slabHField b 0x0A, inRange b 0x0C 1 0 1, inRange b 0x0D 1 1 2, resv b 0x0E 2,
   addrField b 0x10 (h * fld b 0x18 4) s, multipleOf b 0x18 4 256,
   eRange (fld b 0x1C 4 < 16 || fld b 0x1C 4 % 16 != 0) 0x1C, addrField b 0x20 (fld b 0x1C 4) s,
   addrField b 0x28 (headBytes (fld b 0x0D 1) (encodeSlabs b)) s, resv b 0x34 4] ++
  quantChecks b 0x38 ++ (if fld b 0x0D 1 = 2 then quantChecks b 0x48 else []) ++
  -- step 7
  [inMode proxy (mustBe0 b 2 1),
   eComb ((!proxy && (w % splitX (fld b 2 1) != 0 || h % splitY (fld b 2 1) != 0)) || 16384 < encodeSlabs b) 0x0A,
   eComb (!proxy && fld b 0x0D 1 == 2) 0x0D, eComb (fld b 0x18 4 < encodeLine b) 0x18] ++ (if fld b 0x0D 1 = 2 then [] else zeroFields b quantOffsets)

/-- Put a new job in its context. -/
def queueJob (s : State) (j : Nat) (spec : JobSpec) (out size : Nat) : State :=
  { s with
    codec.jobs := s.codec.jobs.set j (some { spec := spec, order := s.codec.jobOrder, outAddr := out, outSize := size })
    codec.jobOrder := s.codec.jobOrder + 1 }

/-- CODEC_JOB_ENCODE (R294). -/
def jobEncodeCard : Card where
  opcode := 0x0802
  len := fixedLen 0x58
  fields := jobEncodeFields
  state b s := [eStateAt (jobInUse s (fld b 0 1)) 0]
  effect _ b s :=
    let q := fld b 0x0D 1
    let sets := quantField b 0x38 :: if q = 2 then [quantField b 0x48] else []
    let spec : JobSpec := .encode (fld b 1 1 = 1) (fld b 2 1) (fld b 3 1) (fld b 4 2) (fld b 6 2) (fld b 8 2)
      (fld b 0x0A 2) (fld b 0x0C 1 = 1) q (fld b 0x10 8) (fld b 0x18 4) (fld b 0x28 8) (fld b 0x30 4) sets
    (queueJob s (fld b 0 1) spec (fld b 0x20 8) (fld b 0x1C 4),
      .now (leBytes 4 (headBytes q (encodeSlabs b)) ++ leBytes 2 (encodeSlabs b) ++ [0, 0]))

def execCodecJobEncode (n : Fin 40) (s : State) : Host.Outcome State Fault Refusal :=
  .next (mbxRun jobEncodeCard n.val s)

/-- CODEC_JOB_DECODE (R296). -/
def jobDecodeCard : Card where
  opcode := 0x0803
  len := fixedLen 0x30
  fields b s :=
    [inRange b 0 1 0 15, resv b 1 3, eRange (fld b 4 4 < 0x28) 4, addrField b 8 (fld b 4 4) s,
     addrField b 0x10 (fld b 0x2C 4) s, multipleOf b 0x18 4 256, inRange b 0x1C 2 0 16383,
     addrField b 0x20 (16 * fld b 0x28 2) s, inRange b 0x28 2 0 16384, resv b 0x2A 2]
  state b s := [eStateAt (jobInUse s (fld b 0 1)) 0]
  effect _ b s :=
    (queueJob s (fld b 0 1) (.decode (fld b 4 4) (fld b 8 8) (fld b 0x10 8) (fld b 0x18 4) (fld b 0x1C 2)
      (fld b 0x1E 2) (fld b 0x20 8) (fld b 0x28 2) (fld b 0x2C 4)) 0 0, .now [])

def execCodecJobDecode (n : Fin 40) (s : State) : Host.Outcome State Fault Refusal :=
  .next (mbxRun jobDecodeCard n.val s)

/-- CODEC_JOB_RESUME (R295). -/
def jobResumeCard : Card where
  opcode := 0x0804
  len := fixedLen 0x10
  fields b s :=
    [inRange b 0 1 0 15, resv b 1 3, eRange (fld b 4 4 < 16 || fld b 4 4 % 16 != 0) 4, addrField b 8 (fld b 4 4) s]
  state b s := [eStateAt (!((jobOf s (fld b 0 1)).any fun x => x.state == 3)) 0]
  effect _ b s :=
    (updJob s (fld b 0 1) fun x => { x with
      state := 2, outAddr := fld b 8 8, outSize := fld b 4 4, outThis := 0, nextLen := 0 }, .now [])

def execCodecJobResume (n : Fin 40) (s : State) : Host.Outcome State Fault Refusal :=
  .next (mbxRun jobResumeCard n.val s)

/-- CODEC_JOB_ABORT (R295). -/
def jobAbortCard : Card where
  opcode := 0x0805
  len := fixedLen 4
  fields b _ := [inRange b 0 1 0 15, resv b 1 3]
  state b s := [eStateAt (!jobInUse s (fld b 0 1)) 0]
  effect _ b s :=
    let j := fld b 0 1
    (jobSettle (updJob s j fun x => { x with aborting := true }) j, .now [])

def execCodecJobAbort (n : Fin 40) (s : State) : Host.Outcome State Fault Refusal :=
  .next (mbxRun jobAbortCard n.val s)

/-! ## Status (R298) -/

/-- Time in 2^-48 s as whole microseconds. -/
def timeUs (t : Int) : Int := (t * 1000000).fdiv (2 ^ 48)

/-- The least of a list of margins in microseconds, all ones where there is none (R298). -/
def leastUs (l : List Int) : Nat :=
  match l with
  | [] => 0xFFFFFFFF
  | m :: r => (clampInt (timeUs (r.foldl min m)) 0 0xFFFFFFFF).toNat

def streamBlock (x : CodecStream) : List Byte :=
  let coding := x.frames.any fun f => !f.issued.isEmpty
  leBytes 4 x.framesCoded ++ leBytes 4 x.emergencies ++ leBytes 4 x.lost ++ leBytes 4 x.fallbacks ++
    leBytes 4 (leastUs x.margins) ++ leBytes 4 x.lastCeiling ++ leBytes 4 x.lastBytes ++
    leBytes 1 (if x.cmd.isNone && x.eff.isNone then 0 else if coding then 2 else 1) ++ [0, 0, 0]

def jobBlock (x : Option Job) : List Byte :=
  match x with
  | none => zeros 8
  | some x => leBytes 1 x.state ++ leBytes 1 (match x.spec with | .encode .. => 0 | .decode .. => 1) ++
      leBytes 2 x.slabsDone ++ leBytes 4 x.outTotal

def laneMask (s : State) (f : Nat → Bool) : Nat := packBits ((List.range (lanesEnc s.fuse + 1)).map f)

def codecStatusBytes (s : State) : List Byte :=
  leBytes 1 (healthyLanes s) ++ [0] ++
    leBytes 2 (laneMask s fun p => (List.range 4).any fun i => lanePhys s i == some p) ++
    leBytes 2 (laneMask s fun p => (lane s p).failed) ++ [0, 0] ++
    s.codec.streams.flatMap streamBlock ++ s.codec.jobs.flatMap jobBlock

def codecStatusClear (s : State) : State :=
  { s with codec.streams := s.codec.streams.map fun x => { x with
      framesCoded := 0, emergencies := 0, lost := 0, fallbacks := 0 } }

/-- CODEC_STATUS (R298). -/
def codecStatusCard : Card where
  opcode := 0x0806
  len := fixedLen 4
  fields b _ := [inRange b 0 1 0 1, resv b 1 3]
  effect _ b s := (if fld b 0 1 = 1 then codecStatusClear s else s, .now (codecStatusBytes s))

def execCodecStatus (n : Fin 40) (s : State) : Host.Outcome State Fault Refusal :=
  .next (mbxRun codecStatusCard n.val s)

/-! ## Events of the lanes -/

/-- SLAB_ISSUE (R292, R640): a free logical lane takes the slab that is first in the order. -/
def execSlabIssue (lane : Fin 4) (s : State) : Host.Outcome State Fault Refusal :=
  match lanePhys s lane.val with
  | some p => .next (issueSlab s p)
  | none => .next s

/-- A slab on a lane verifies: written for its stream, or for its job. -/
def slabVerified (s : State) (p : Nat) (w : LaneWork) : State :=
  let s1 := laneStop s p
  match w with
  | .stream t seq n em fb => streamSlabDone s1 t seq n em fb
  | .job j n fb => jobSlabDone s1 j n fb

/-- The same slab, coded again as a fallback (R284). -/
def asFallback : LaneWork → LaneWork
  | .stream t seq n em _ => .stream t seq n em true
  | .job j n _ => .job j n true
def isFallback : LaneWork → Bool
  | .stream _ _ _ _ fb => fb
  | .job _ _ fb => fb

def countFallback (s : State) (w : LaneWork) : State :=
  match w with
  | .stream t _ _ _ _ => updStream s t fun x => { x with fallbacks := sat32 x.fallbacks 1 }
  | .job .. => s

/-- A slab of a decode job is decoded, not verified. -/
def isDecodeWork (s : State) (w : LaneWork) : Bool :=
  match w with
  | .stream .. => false
  | .job j _ _ => (jobOf s j).any fun x => match x.spec with
    | .decode .. => true
    | .encode .. => false

/-- SLAB_VERIFIED (R283, R284): the slab on a physical lane verifies, falls back, or fails the lane. -/
def execSlabVerified (p : Fin 5) (v : Verify) (flash : Bool) (s : State) : Host.Outcome State Fault Refusal :=
  match (lane s p.val).running with
  | none => .next s
  | some w =>
    if isDecodeWork s w then .next s
    else match v with
      | .ok => .next (slabVerified s p.val w)
      | .bad err =>
        if isFallback w then
          .next (laneFail (verifyEvent { s with spare.flashOk := flash } p.val w 1 err.toNat) p.val 1)
        else
          .next (laneStart (verifyEvent (countFallback s w) p.val w 0 err.toNat) p.val (asFallback w)
            (workClocks s w))

/-- CODEC_DEADLINE (R291): K_f of a stream's oldest frame comes with the frame not delivered. -/
def execCodecDeadline (t : Fin 8) (s : State) : Host.Outcome State Fault Refusal :=
  match (codecStream s t.val).frames with
  | [] => .next s
  | f :: _ => .next (codecLost s t.val f (if f.emergency && !f.noLane.isEmpty then 3 else 2))

/-- CODEC_LANE_FAULT (R297): an uncorrectable error in a lane's arrays. -/
def execCodecLaneFault (p : Fin 5) (flash : Bool) (s : State) : Host.Outcome State Fault Refusal :=
  .next (laneFail { s with spare.flashOk := flash } p.val 0)

/-- CODEC_LANE_NO_PROGRESS (R297): the slab on a lane has not advanced for 65,536 PIPE clocks. -/
def execCodecLaneNoProgress (p : Fin 5) (flash : Bool) (s : State) : Host.Outcome State Fault Refusal :=
  if (lane s p.val).running.isSome then .next (laneFail { s with spare.flashOk := flash } p.val 2) else .next s

/-- DECODE_SLAB_DONE (R296): a lane has decoded its slab of a decode job. -/
def execDecodeSlabDone (p : Fin 5) (s : State) : Host.Outcome State Fault Refusal :=
  match (lane s p.val).running with
  | some (.job j n fb) =>
    if isDecodeWork s (.job j n fb) then .next (decodeSlabDone (laneStop s p.val) j n) else .next s
  | _ => .next s

end Sys2Proof.Machine
end

