-- ==== Sys2Proof/Machine/Rec.lean ====
section
/-! DEFINITION. The recording commands and events (chapter 13). -/

namespace Sys2Proof.Machine

/-! ## REC_CHANNEL (R302, R303, R324) -/

def kindField (b : Body) : Nat := fld b 1 1

/-- Another channel names the same stream, or already mirrors the same main. -/
def sourceTaken (s : State) (c kind src : Nat) : Bool :=
  (List.range 8).any fun k => k != c &&
    (if kind = 2 then (recChan s k).kind == 2 && (recChan s k).src == src
     else (kind == 1 || kind == 3) && ((recChan s k).kind == 1 || (recChan s k).kind == 3) && (recChan s k).src == src)

def recChannelFields (b : Body) (s : State) : List (Option Rej) :=
  let kind := kindField b
  let mirror := kind = 2
  let pre := fld b 6 2 != 0
  [inRange b 0 1 0 7, inRange b 1 1 0 5] ++
  (if kind = 0 then
    [resv b 0x10 4] ++ zeroFields b [(2, 1), (3, 1), (4, 1), (5, 1), (6, 2), (8, 4), (0x0C, 4)]
  else
    [inRange b 2 1 0 (if 4 ≤ kind then 3 else 7), inRange b 3 1 0 3,
     if mirror then oneOf b 4 1 [0xFF] else oneOf b 4 1 [0, 1, 2, 3, 0xFF],
     inMode (kind = 4) (inRange b 5 1 1 2), inMode (!mirror) (inRange b 6 2 0 10000),
     inMode (kind = 4) (eRange (fld b 8 4 = 0) 8), inMode pre (inRange b 0x0C 4 1 4096), resv b 0x10 4,
     -- step 7
     eComb (sourceTaken s (fld b 0 1) kind (fld b 2 1)) 2,
     eComb (mirror && (recChan s (fld b 2 1)).kind == 1 && (recChan s (fld b 2 1)).vol == fld b 3 1) 3,
     eComb (fld b 4 1 == fld b 3 1) 4, inMode (kind != 4) (mustBe0 b 5 1),
     eComb (kind = 4 && fld b 5 1 == 2 && s.aud.fs == 1) 5, inMode mirror (mustBe0 b 6 2),
     inMode (kind != 4) (mustBe0 b 8 4), inMode (!pre) (mustBe0 b 0x0C 4)])

/-- The stream a raw or proxy channel names is enabled with the matching source. -/
def streamFits (s : State) (t kind : Nat) : Bool :=
  (codecStream s t).cmd.any fun c => c.src == (if kind = 1 then 0 else 1)

/-- REC_CHANNEL (R302). -/
def recChannelCard : Card where
  opcode := 0x0903
  len := fixedLen 0x14
  fields := recChannelFields
  seq b s :=
    let c := fld b 0 1
    let kind := kindField b
    [eSeqAt (kind == 0 && (recChan s c).kind == 1 && (mirrorOf s c).isSome) 1,
     eSeqAt ((kind == 1 || kind == 3) && !streamFits s (fld b 2 1) kind) 2,
     eSeqAt (kind == 2 && (recChan s (fld b 2 1)).kind != 1) 2]
  state b s := [eStateAt (2 ≤ (recChan s (fld b 0 1)).state) 0]
  res b s := [eNoCtx (fld b 0x0C 4 != 0 && !allocFits s [.preroll (fld b 0 1)] (fld b 0x0C 4 * 2 ^ 20)) (freeMib s)]
  effect _ b s :=
    let c := fld b 0 1
    let old := recChan s c
    let s1 := release s (.preroll c)
    let s2 := if fld b 0x0C 4 = 0 then s1 else (alloc s1 (.preroll c) (fld b 0x0C 4 * 2 ^ 20)).2
    let keep : RecChannel := { markers := old.markers, overruns := old.overruns }
    (updChan s2 c fun _ =>
      if kindField b = 0 then keep
      else { keep with
        kind := kindField b, src := fld b 2 1, vol := fld b 3 1, spill := fld b 4 1, audioRate := fld b 5 1,
        prerollMs := fld b 6 2, audioMask := fld b 8 4, prerollMib := fld b 0x0C 4, state := 1 }, .now [])

def execRecChannel (n : Fin 40) (s : State) : Host.Outcome State Fault Refusal :=
  .next (mbxRun recChannelCard n.val s)

/-! ## REC_START (R309) and REC_STOP (R310) -/

def maskChans (m : Nat) : List Nat := (List.range 8).filter fun c => m.testBit c

/-- A mirror named without its main, or a main without its configured mirror. -/
def splitPair (s : State) (m : Nat) : Bool :=
  (maskChans m).any fun c =>
    ((recChan s c).kind == 2 && !m.testBit (recChan s c).src) ||
    ((recChan s c).kind == 1 && (mirrorOf s c).any fun k => !m.testBit k)

/-- A class S instant more than 10 s in the past or more than 60 s ahead. -/
def instantBad (s : State) (t : Nat) : Bool := t + 10 * 2 ^ 32 < classS s || classS s + 60 * 2 ^ 32 < t

/-- Channels of a mask that open a clip on a volume. -/
def onVolume (s : State) (m v : Nat) : Nat := ((maskChans m).filter fun c => (recChan s c).vol == v).length

/-- The first volume a start finds too full: each clip needs its first unit and its close reserve (R322). -/
def fullVolume (s : State) (m : Nat) : Option Nat :=
  (List.range 4).find? fun v =>
    let k := onVolume s m v
    0 < k && freeUnits s v < 3 * k + volReserve s v

/-- The directory entry a channel of a mask takes: the free ones of its volume in order. -/
def startEntry (s : State) (m c : Nat) : Nat :=
  let v := (recChan s c).vol
  let before := ((maskChans m).filter fun k => k < c && (recChan s k).vol == v).length
  ((((List.range 4096).filter fun e => entryState s v e == 0).drop before).head?).getD 0xFFFF

/-- The start instant T. -/
def startInstant (b : Body) (s : State) : Nat :=
  match fld b 1 1 with
  | 0 => classS s
  | 1 => classS s - ms64 (fld b 2 2)
  | _ => fld b 8 8

/-- The start timecode: the command's, or the reader's at the commit taken to T by whole frame periods. -/
def startTimecode (s : State) (given t : Nat) : Nat :=
  let l := s.time.ltc
  if given != 0xFFFFFFFF then given
  else if l.rate = 0 then 0xFFFFFFFF
  else
    let r := ltcRate l.rate
    let d : Int := ((t : Int) - classS s) * r.1
    let k := if d < 0 then -((-d) / ((2 ^ 32 : Nat) * r.2 : Nat)) else d / ((2 ^ 32 : Nat) * r.2 : Nat)
    ltcValue l.rate ((((ltcFrames l.rate (ltcReader s) : Nat) : Int) + k) % ltcDay l.rate).toNat

/-- Open a channel's clip at a start. -/
def startChannel (s0 : State) (m t tc take : Nat) (s : State) (c : Nat) : State :=
  let ch := recChan s0 c
  let partner := if ch.kind = 2 then some ch.src else mirrorOf s0 c
  let pre := (recChan s0 (leadOf s0 c)).preroll
  let short := t < classS s0 && !(pre.any fun it => it.fs ≤ t)
  let s1 := updChan s c fun x => { x with take := take, t := t, u := none, state := 2 }
  openClip s1 c ch.vol (startEntry s0 m c) 0 0 (boolNat short)
    ((partner.map fun p => (recChan s0 p).vol).getD 0xFF) ((partner.map (startEntry s0 m)).getD 0xFFFF) tc false

/-- REC_START (R309). -/
def recStartCard : Card where
  opcode := 0x0901
  len := fixedLen 0x18
  fields b s :=
    let w := fld b 1 1
    [eRange (fld b 0 1 = 0) 0, inRange b 1 1 0 2, inMode (w = 1) (inRange b 2 2 1 10000),
     inMode (w = 2) (eRange (instantBad s (fld b 8 8)) 8), resv b 0x14 4,
     eComb (splitPair s (fld b 0 1)) 0, inMode (w != 1) (mustBe0 b 2 2), inMode (w != 2) (mustBe0 b 8 8)]
  seq b s :=
    [eSeqAt ((maskChans (fld b 0 1)).any fun c =>
      (recChan s c).state == 0 || !(volume s (recChan s c).vol).mounted) 0]
  state b s := [eStateAt ((maskChans (fld b 0 1)).any fun c => 2 ≤ (recChan s c).state) 0]
  res b s :=
    [eNoCtx ((List.range 4).any fun v => freeEntries s v < onVolume s (fld b 0 1) v) 4096,
     (fullVolume s (fld b 0 1)).bind fun v => rejIf true 0x0901 0xFFFF (freeUnits s v)]
  effect _ b s :=
    let m := fld b 0 1
    let t := startInstant b s
    let s1 := (maskChans m).foldl (startChannel s m t (startTimecode s (fld b 0x10 4) t) (fld b 4 4)) s
    let leads := (maskChans m).filter fun c => (recChan s c).kind != 2
    let s2 := leads.foldl (fun s c =>
      ((recChan s c).preroll.filter fun it => t ≤ it.fs).foldl (fun s it => offerItem s c it) s) s1
    (s2, .now ((List.range 8).flatMap fun c => leBytes 2 (if m.testBit c then startEntry s m c else 0xFFFF)))

def execRecStart (n : Fin 40) (s : State) : Host.Outcome State Fault Refusal :=
  .next (mbxRun recStartCard n.val s)

/-- Channels of a mask that record stop at the instant U (R310). -/
def stopChannels (s : State) (m u : Nat) : State :=
  ((maskChans m).filter fun c => (recChan s c).state == 2).foldl (fun s c => updChan s c fun ch => { ch with
    u := some u, state := if u ≤ classS s then 3 else 2
    waiting := ch.waiting.filter fun it => it.fs < u }) s

/-- One side of a mirrored pair that has stopped while the other, also named, records on: the pair is stopped
together (step 6 of the worked example of the chapter; DEDUCED, log entry 183). -/
def pairGoesOn (s : State) (m c : Nat) : Bool :=
  let other := if (recChan s c).kind = 2 then some (recChan s c).src else mirrorOf s c
  (recChan s c).state == 1 && other.any fun d => m.testBit d && (recChan s d).state == 2

/-- REC_STOP (R310). -/
def recStopCard : Card where
  opcode := 0x0902
  len := fixedLen 0x0C
  fields b s :=
    let w := fld b 1 1
    [oneOf b 1 1 [0, 2], resv b 2 2, inMode (w = 2) (eRange (instantBad s (fld b 4 8)) 4),
     eComb (splitPair s (fld b 0 1)) 0, inMode (w != 2) (mustBe0 b 4 8)]
  state b s := [eStateAt ((maskChans (fld b 0 1)).any fun c =>
    (recChan s c).state != 2 && !pairGoesOn s (fld b 0 1) c) 0]
  effect _ b s := (stopChannels s (fld b 0 1) (if fld b 1 1 = 0 then classS s else fld b 4 8), .now [])

def execRecStop (n : Fin 40) (s : State) : Host.Outcome State Fault Refusal :=
  .next (mbxRun recStopCard n.val s)

/-! ## Volume commands (R323, R337) -/

def drivePresent (s : State) (v : Nat) : Bool := (gatePort s v).state == 1

/-- Fence a clip namespace: the host's and the sessions' writes to it that are not accepted complete as protected, and
every accepted one retires (R337). -/
def fence (s : State) (v : Nat) : State :=
  let s0 := updNvme s fun n => { n with fenced := (v + 1) :: n.fenced.erase (v + 1) }
  let s1 := (s0.gate.nvme.outstanding.filter fun c => match c.work with
    | .write nsid _ => nsid == v + 1
    | _ => false).foldl (fun s c => nvmeEnd s c 0 0x20 0) s0
  let s2 := ((served s1).filter fun x => x.remoteNs == v + 1).foldl (fun s x =>
    (x.cmds.filter fun c => match c.work with
      | .start b => isWriteOp (requestOp b)
      | _ => false).foldl (fun s c => sessionDone s x c 0 0x20 []) s) s1
  nvmeSettle (finishPort s2 v)

/-- The fence of a volume command ends with it. -/
def unfence (s : State) (v : Nat) : State := updNvme s fun n => { n with fenced := n.fenced.erase (v + 1) }

/-- A command that needs a volume's accepted writes finished waits while a power-loss response holds one of them, or one
they follow, in staging (R337, R351, R353). -/
def gateWaits (c : Card) (s : State) (n : Nat) : Bool :=
  (cardChecks c n s).isNone && portHeld s (fld (slotBody s n) 0 1)

/-- REC_VOL_FORMAT (R311, R312, R323). -/
def formatVolume (s : State) (v : Nat) (label : List Byte) : State :=
  let s1 := unfence (fence s v) v
  let (id, s2) := draw s1
  let blocks := (gatePort s2 v).blocks
  let x : Volume := { volId := id % 2 ^ 64, generation := 1, units := auCount blocks, formatTime := classL s2,
                      label := label }
  let b := superBytes x blocks 0
  let was := (gatePort s2 v).clipValid
  let s3 := updGatePort (updVolume s2 v fun _ => x) v fun p => { p with
    clipValid := true, retiredSeq := 0, jhead := 0, jseq := 0, headDrain := 2, left := 0
    disk := memPutBytes (memPutBytes (memClear (memClear p.disk 0 (3072 * 4096))
        ((3072 + 1024 * auCount blocks) * 4096) (blocks * 4096)) 0 (b ++ b)) (256 * 4096)
      (journalHeader 0 0 2 0) }
  if was then s3 else nsNotice s3 (v + 1)

def volFormatCard : Card where
  opcode := 0x0904
  len := fixedLen 0x14
  fields b s :=
    let v := fld b 0 1
    [inRange b 0 1 0 3, resv b 1 3,
     rejIf (drivePresent s v && ((gatePort s v).lbaLog2 != 12 || (gatePort s v).blocks < 19456)) 0x0902 0 0]
  state b s := [eState (!drivePresent s (fld b 0 1)), eState (volume s (fld b 0 1)).mounted]
  effect _ b s :=
    let s1 := formatVolume s (fld b 0 1) ((b.drop 4).take 16)
    let x := volume s1 (fld b 0 1)
    (s1, .now (leBytes 8 x.volId ++ leBytes 4 x.units))

def execRecVolFormat (n : Fin 40) (s : State) : Host.Outcome State Fault Refusal :=
  .next (if gateWaits volFormatCard s n.val then s else mbxRun volFormatCard n.val s)

/-- The superblock copy a mount uses: the valid one of the higher generation. -/
def superCopy (s : State) (v : Nat) : List Byte :=
  let a := gateBlock s v 4096 0
  let b := gateBlock s v 4096 1
  if superOk a && (!superOk b || fld b 8 8 ≤ fld a 8 8) then a else b

/-- Mount a volume (R319, R320): the state, and the clips recovered. -/
def mountVolume (s : State) (v : Nat) : Nat × State :=
  let s1 := unfence (fence s v) v
  let b := superCopy s1 v
  let s2 := updVolume s1 v fun _ => {
    mounted := true, volId := fld b 0x10 8, generation := fld b 8 8, units := fld b 0x20 4,
    formatTime := fld b 0x28 8, label := (b.drop 0x40).take 16 }
  let open' := (List.range 4096).filter fun e => entryState s2 v e == 1
  let s3 := open'.foldl (fun s e => recoverClip s v e) s2
  let s4 := freeUnitsOf s3 v (strayUnits s3 v)
  (open'.length, tellSessions (nsNotice (volEvent (writeSuper s4 v 1) v 0 open'.length) (v + 1)) v)

def volMountCard : Card where
  opcode := 0x0905
  len := fixedLen 4
  fields b _ := [inRange b 0 1 0 3, resv b 1 3]
  state b s :=
    let v := fld b 0 1
    [eState (!drivePresent s v || (volume s v).mounted), rejIf (!superValid s v) 0x0903 0 0]
  effect _ b s :=
    let v := fld b 0 1
    let r := mountVolume s v
    (r.2, .now (leBytes 8 (volume r.2 v).volId ++ leBytes 4 (freeUnits r.2 v) ++ leBytes 2 r.1 ++
      leBytes 2 (freeEntries r.2 v)))

/-- REC_VOL_MOUNT (R320). -/
def execRecVolMount (n : Fin 40) (s : State) : Host.Outcome State Fault Refusal :=
  .next (if gateWaits volMountCard s n.val then s else mbxRun volMountCard n.val s)

/-- REC_VOL_UNMOUNT (R320). -/
def volUnmountCard : Card where
  opcode := 0x0906
  len := fixedLen 4
  fields b _ := [inRange b 0 1 0 3, resv b 1 3]
  seq b s := [eSeq (!(volume s (fld b 0 1)).mounted)]
  res b s := [eBusyAt (!(openClips s (fld b 0 1)).isEmpty) 0]
  effect _ b s :=
    let v := fld b 0 1
    let s1 := volEvent (writeSuper s v 0) v 1 0
    (tellSessions (nsNotice (updVolume s1 v fun x => { x with mounted := false, reserveEntered := false }) (v + 1)) v,
      .now [])

def execRecVolUnmount (n : Fin 40) (s : State) : Host.Outcome State Fault Refusal :=
  .next (mbxRun volUnmountCard n.val s)

/-- REC_CLIP_DELETE (R323): the units, then the entry. -/
def clipDeleteCard : Card where
  opcode := 0x0907
  len := fixedLen 4
  fields b _ := [inRange b 0 1 0 3, resv b 1 1, inRange b 2 2 0 4095]
  seq b s :=
    let v := fld b 0 1
    [eSeq (!(volume s v).mounted), eSeqAt (entryState s v (fld b 2 2) == 0) 2]
  state b s := [eStateAt (entryState s (fld b 0 1) (fld b 2 2) == 1) 2]
  effect _ b s :=
    let v := fld b 0 1
    let e := fld b 2 2
    let us := (chainUnits s v (listFuel s v) (volLE s v (dirAddr e + 0x40) 8)).1
    let s1 := engineBarrier (freeUnitsOf s v us) v
    (updVolume (writeEntry s1 v e (zeros 512)) v fun x => { x with reserveEntered := false },
      .now (leBytes 4 us.length))

def execRecClipDelete (n : Fin 40) (s : State) : Host.Outcome State Fault Refusal :=
  .next (mbxRun clipDeleteCard n.val s)

/-! ## REC_STATUS -/

/-- A span of class S time in milliseconds. -/
def spanMs (l : List RecItem) : Nat :=
  match l.head?, l.getLast? with
  | some a, some b => (b.fs - a.fs) * 1000 / 2 ^ 32
  | _, _ => 0

def chanBlock (s : State) (c : Nat) : List Byte :=
  let ch := recChan s c
  leBytes 1 ch.state ++ leBytes 1 ch.kind ++ leBytes 1 ((ch.clip.map (·.vol)).getD ch.vol) ++ [0] ++
    leBytes 4 ch.take ++ leBytes 4 ((ch.clip.map (·.entries.length)).getD 0) ++ leBytes 4 ch.markers ++
    leBytes 4 ch.overruns ++ leBytes 4 (spanMs ch.preroll) ++ leBytes 8 ((ch.clip.map (·.durable)).getD 0)

def volBlock (s : State) (v : Nat) : List Byte :=
  let x := volume s v
  let st := if x.failed then 3 else if !drivePresent s v then 0 else if x.mounted then 2 else 1
  if st != 2 then leBytes 1 st ++ zeros 31
  else leBytes 1 st ++ leBytes 1 (openClips s v).length ++ leBytes 2 (freeEntries s v) ++
    leBytes 4 (freeUnits s v) ++ leBytes 4 x.units ++ leBytes 4 (volReserve s v) ++ leBytes 8 x.volId ++ zeros 8

def recStatusBytes (s : State) : List Byte :=
  (List.range 8).flatMap (chanBlock s) ++ (List.range 4).flatMap (volBlock s)

def recStatusClear (s : State) : State :=
  { s with recs.chans := s.recs.chans.map fun c => { c with markers := 0, overruns := 0 } }

/-- REC_STATUS (R324). -/
def recStatusCard : Card where
  opcode := 0x0908
  len := fixedLen 4
  fields b _ := [inRange b 0 1 0 1, resv b 1 3]
  effect _ b s := (if fld b 0 1 = 1 then recStatusClear s else s, .now (recStatusBytes s))

def execRecStatus (n : Fin 40) (s : State) : Host.Outcome State Fault Refusal :=
  .next (mbxRun recStatusCard n.val s)

/-! ## Events of the engine -/

/-- HELD_MARKER_STAGED (R307): room has appeared for a channel's held marker. -/
def execHeldMarkerStaged (c : Fin 8) (s : State) : Host.Outcome State Fault Refusal := .next (releaseHeld s c.val)

/-- REC_CHECKPOINT (R317): 1 s has passed since a recording channel's last checkpoint. -/
def execRecCheckpoint (c : Fin 8) (s : State) : Host.Outcome State Fault Refusal := .next (checkpoint s c.val)

/-- Whether every item of a channel before its stop instant has been delivered and its record is durable. -/
def lastItemDurable (s : State) (c : Nat) : Bool :=
  let ch := recChan s c
  let lead := recChan s (leadOf s c)
  match ch.u with
  | none => false
  | some u =>
    ch.clip.isSome && (ch.state == 3 || u ≤ classS s) && ch.held.isNone && ch.waiting.isEmpty &&
    -- the main holds a pair's items for both
    lead.held.isNone && lead.waiting.isEmpty &&
    (s.gate.writes.all fun w => match w.note with
      | .record k _ => k != c || w.durable
      | .none => true) &&
    (lead.chunks.all fun it => u ≤ it.fs) &&
    (if lead.kind = 1 || lead.kind = 3 then
        (codecStream s lead.src).frames.all (fun f => u ≤ time64 f.fs) && (codecStream s lead.src).out.isEmpty
     else true)

/-- REC_CLIP_CLOSE (R310): a stopped channel's last item is durable; its clip closes. -/
def execRecClipClose (c : Fin 8) (s : State) : Host.Outcome State Fault Refusal :=
  if lastItemDurable s c.val then .next (chanIdle (closeClip s c.val 0 0 0xFF 0) c.val) else .next s

end Sys2Proof.Machine
end

