-- ==== Sys2Proof/Machine/Gate.lean ====
section
/-! DEFINITION. The Media Gate's commands, the events of its drives, and its NVMe controller (chapter 14). -/

namespace Sys2Proof.Machine

/-! ## Mailbox commands (R353) -/

def gateStatusBytes (s : State) : List Byte :=
  leBytes 8 (headroom s) ++ leBytes 8 (stagingFree s) ++ leBytes 2 (tagsUsed s) ++ leBytes 2 (engineTags s) ++
    leBytes 2 (creditsGranted s) ++ leBytes 2 (served s).length ++
    leBytes 2 (s.gate.sessions.filter fun x => !x.server && x.active).length ++ leBytes 1 s.gate.nvme.state ++ [0] ++
    leBytes 4 s.gate.nvme.abortsNot ++ (List.range 4).flatMap (portBlock s)

def gateStatusClear (s : State) : State :=
  let s1 := updNvme s fun n => { n with abortsNot := 0 }
  { s1 with gate.ports := s1.gate.ports.map fun p => { p with mediaErrors := 0, written := 0, read := 0 } }

/-- GATE_STATUS (R331). -/
def gateStatusCard : Card where
  opcode := 0x0A01
  len := fixedLen 4
  fields b _ := [inRange b 0 1 0 1, resv b 1 3]
  effect _ b s := (if fld b 0 1 = 1 then gateStatusClear s else s, .now (gateStatusBytes s))

def execGateStatus (n : Fin 40) (s : State) : Host.Outcome State Fault Refusal :=
  .next (mbxRun gateStatusCard n.val s)

/-- KiB of windows that the other ports leave. -/
def windowKibFree (s : State) (p : Nat) : Nat :=
  windowLimit s - ((List.range 4).map fun q => if q = p then 0 else (gatePort s q).windowKib).sum

/-- A port goes down (R353): its accepted writes durable and retired, its namespaces inactive. -/
def portDown (s : State) (p : Nat) : State :=
  let was := nsActive s (p + 1)
  let s1 := nvmeSettle (finishPort s p)
  let s2 := updGatePort s1 p fun q => { q with state := 0, clipValid := false, windowKib := 0, gen := 0, width := 0 }
  let s3 := driveEvent (rootLanes s2 p 0 false) p 0 0 0
  if was then nsNotice s3 (p + 1) else s3

/-- GATE_DRIVE (R327, R344, R353): `drive` is what trains on the port, none where nothing suitable does. -/
def gateDriveCard (drive : Option DriveFacts) : Card where
  opcode := 0x0A02
  len := fixedLen 8
  fields b s :=
    let up := fld b 1 1 = 1
    let k := fld b 4 4
    [inRange b 0 1 0 3, inRange b 1 1 0 1, resv b 2 2,
     inMode up (eRange (k < 256 || 4096 < k || k % 256 != 0) 4), inMode (!up) (mustBe0 b 4 4),
     rejIf (up && windowKibFree s (fld b 0 1) < k) 0x0104 4 (windowKibFree s (fld b 0 1))]
  seq b s := [eSeqAt (fld b 1 1 == 1 && !rpLanes s (fld b 0 1)) 0]
  state b s :=
    let st := (gatePort s (fld b 0 1)).state
    [eStateAt (if fld b 1 1 = 1 then st == 1 || st == 3 else st == 3 || (volume s (fld b 0 1)).mounted) 0]
  res b _ := [rejIf (fld b 1 1 == 1 && drive.isNone) 0x0A02 0 0]
  effect _ b s :=
    let p := fld b 0 1
    match fld b 1 1, drive with
    | 1, some f =>
      let s1 := bringUp (updVolume s p fun v => { v with failed := false }) p (fld b 4 4) f
      let q := gatePort s1 p
      (s1, .now (leBytes 1 q.gen ++ leBytes 1 q.width ++ leBytes 1 q.lbaLog2 ++ leBytes 1 (boolNat q.clipValid) ++
        leBytes 4 q.rolledBack ++ leBytes 8 q.blocks))
    | _, _ => (portDown s p, .now (zeros 16))

def execGateDrive (n : Fin 40) (drive : Option DriveFacts) (s : State) : Host.Outcome State Fault Refusal :=
  .next (if gateWaits (gateDriveCard drive) s n.val then s else mbxRun (gateDriveCard drive) n.val s)

/-- GATE_SERVICE (R336, R353). -/
def gateServiceCard : Card where
  opcode := 0x0A03
  len := fixedLen 4
  fields b _ := [inRange b 0 1 0 3, inRange b 1 1 0 1, resv b 2 2]
  seq b s := [eSeqAt (fld b 1 1 == 0 && (gatePort s (fld b 0 1)).state != 3) 0]
  state b s :=
    [eStateAt (fld b 1 1 == 1 && ((gatePort s (fld b 0 1)).state != 1 || (volume s (fld b 0 1)).mounted)) 0]
  effect _ b s :=
    let p := fld b 0 1
    let q := gatePort s p
    if fld b 1 1 = 1 then
      let s1 := updGatePort s p fun q => { q with state := 3 }
      (nsNotice (if q.clipValid then nsNotice s1 (p + 1) else s1) (p + 5), .now [])
    else
      let s1 := nsNotice (nvmeSettle (finishPort s p)) (p + 5)
      (bringUp s1 p q.windowKib ⟨q.gen, q.width, q.lbaLog2, q.blocks⟩, .now [])

def execGateService (n : Fin 40) (s : State) : Host.Outcome State Fault Refusal :=
  .next (if gateWaits gateServiceCard s n.val then s else mbxRun gateServiceCard n.val s)

/-- GATE_REMOTE (R347). -/
def gateRemoteCard : Card where
  opcode := 0x0A04
  len := fixedLen 8
  fields b s :=
    let on := fld b 0 1 = 1
    [inRange b 0 1 0 1, resv b 1 1, inMode on (inRange b 2 2 1 256), inMode on (inRange b 4 2 1 1024), resv b 6 2,
     inMode (!on) (mustBe0 b 2 2), eComb (on && fld b 2 2 < (served s).length) 2,
     inMode (!on) (mustBe0 b 4 2), eComb (on && fld b 4 2 < creditsGranted s) 4]
  effect _ b s :=
    ({ s with
      gate.serve := fld b 0 1 = 1
      gate.maxSessions := fld b 2 2
      gate.creditPool := fld b 4 2 }, .now [])

def execGateRemote (n : Fin 40) (s : State) : Host.Outcome State Fault Refusal :=
  .next (mbxRun gateRemoteCard n.val s)

/-! ## Drives and the journal -/

/-- GATE_ADMIT (R330). -/
def execGateAdmit (port : Fin 4) (blocks : Nat) (s : State) : Host.Outcome State Fault Refusal :=
  .next (gateAdmit s port.val blocks)

/-- JOURNAL_RECORD_DURABLE (R343). -/
def execJournalRecordDurable (port : Fin 4) (s : State) : Host.Outcome State Fault Refusal :=
  .next (journalDurable (rootSend s port.val) port.val)

/-- DRIVE_WRITE_COMPLETE (R329, R332): the drive has made `blocks` more blocks of a port's write durable. -/
def execDriveWriteComplete (port : Fin 4) (index blocks : Nat) (s : State) : Host.Outcome State Fault Refusal :=
  match (s.gate.writes.filter fun w => w.port == port.val)[index]? with
  | none => .next s
  | some w =>
    if mayComplete s w then .next (nvmeSettle (makeDurable (rootSend s w.port) w (min (w.written + blocks) w.admitted)))
    else .next s

/-- JOURNAL_RETIRE (R343). -/
def execJournalRetire (port : Fin 4) (s : State) : Host.Outcome State Fault Refusal :=
  .next (nvmeSettle (journalRetire s port.val))

def driveFaultCode : DriveFault → Nat
  | .linkLoss => 1 | .fatal => 2 | .timeout => 3 | .adminError => 4

/-- DRIVE_FAILED (R328): only a drive that is up can be declared failed. -/
def execDriveFailed (port : Fin 4) (cause : DriveFault) (s : State) : Host.Outcome State Fault Refusal :=
  if (gatePort s port.val).state = 1 || (gatePort s port.val).state = 3 then
    .next (driveFailed s port.val (driveFaultCode cause))
  else .next s

/-! ## The NVMe controller: registers (R333, R334, R345) -/

/-! Registers of BAR0 (R333, R335): no row reads them; the values are what a read of them gives. -/

/-- CAP: MQES 1,023, CQR, TO 20 and the NVM command set; every other field 0. PRESUMED: the places of its fields, and of
the registers, from the NVMe base specification (log entry 185). -/
def nvmeCap : Nat := 1023 + 2 ^ 16 + 20 * 2 ^ 24 + 2 ^ 37
def nvmeVs : Nat := 0x00020000
def nvmeCsts (n : Nvme) : Nat := boolNat (n.state == 1 || n.state == 3) + 2 * boolNat (n.state == 2) + 4 * n.shst

/-- The 4 bytes of BAR0 at an offset below the doorbells. -/
def nvmeReg (n : Nvme) (off : Nat) : Nat :=
  let entries (o : Option Nat) : Nat := (o.getD 1) - 1
  match off with
  | 0x00 => nvmeCap % 2 ^ 32
  | 0x04 => nvmeCap / 2 ^ 32
  | 0x08 => nvmeVs
  | 0x14 => n.cc
  | 0x1C => nvmeCsts n
  | 0x24 => entries ((n.sqs.getD 0 none).map (·.size)) + 2 ^ 16 * entries ((n.cqs.getD 0 none).map (·.size))
  | _ => 0

/-- NVME_DOORBELL (R333, R334): the tail of a submission queue, or the head of a completion queue, which makes room for
the completions that wait. -/
def execNvmeDoorbell (queue : NvmeQueue) (value : BitVec 16) (s : State) : Host.Outcome State Fault Refusal :=
  let v := value.toNat
  .next (match queue with
    | .completion k =>
      let s1 := updNvme s fun n => { n with
        cqs := modAt n.cqs k.val (·.map fun q => if v < q.size then { q with head := v } else q) }
      nvmeSettle (postWaiting k.val s1.gate.nvme.waitingDone.length s1)
    | .submission k => updNvme s fun n => { n with
        sqs := modAt n.sqs k.val (·.map fun q => if v < q.size then { q with tail := v } else q) })

/-- The controller becomes ready, where it is enabled and mailboxes are (R333). -/
def nvmeReady (s : State) : State :=
  if s.gate.nvme.enabled && s.gate.nvme.state = 0 && s.mbx.ready then updNvme s fun n => { n with state := 1 } else s

/-- CC with EN and the fields that R333 checks. -/
def ccWord (mps css iosqes iocqes : Nat) : Nat := 1 + 2 ^ 4 * css + 2 ^ 7 * mps + 2 ^ 16 * iosqes + 2 ^ 20 * iocqes

/-- NVME_CC_ENABLE (R333). An admin queue of one entry is outside the 2 to 256 of R333 and is treated like one above
them (DESIGN CHOICE, log entry 187). -/
def execNvmeCcEnable (mps css iosqes iocqes : Fin 16) (asqs acqs : BitVec 12) (s : State) :
    Host.Outcome State Fault Refusal :=
  if s.gate.nvme.enabled then .next s
  else if mps != 0 || css != 0 || iosqes != 6 || iocqes != 4 || 255 < asqs.toNat || 255 < acqs.toNat ||
      asqs.toNat = 0 || acqs.toNat = 0 then
    .next (setLeaf (updNvme s fun n => { n with enabled := true, state := 2, cc := ccWord mps css iosqes iocqes }) 10 10)
  else
    .next (nvmeReady (updNvme s fun n => { n with
      enabled := true
      cc := ccWord mps css iosqes iocqes
      sqs := n.sqs.set 0 (some { cq := 0, size := asqs.toNat + 1 })
      cqs := n.cqs.set 0 (some { size := acqs.toNat + 1, irq := true }) }))

/-- NVME_CONTROLLER_RESET (R345): CC.EN cleared, or a Function Level Reset. -/
def execNvmeControllerReset (s : State) : Host.Outcome State Fault Refusal := .next (controllerReset s)

/-- Send a command to the serving device of a session, under the session's next number (R349). -/
def sendRequest (s : State) (x : Session) (op fua sq cid lba n : Nat) (data : List Byte) : State :=
  let s1 := { s with gate.sessions := s.gate.sessions.map fun y =>
    if !y.server && y.flow == x.flow then
      { y with nextNum := (y.nextNum + 1) % noRequest, sent := y.sent ++ [{ num := y.nextNum, sq := sq, cid := cid }] }
    else y }
  flowQueueItem s1 x.flow (sessionRequest op fua x.nextNum lba n data) false

/-- Open sessions as the requester. -/
def requesting (s : State) : List Session := s.gate.sessions.filter fun x => !x.server && x.active && !x.closing

/-- A Flush to every remote namespace, and the NSIDs whose answer is awaited. -/
def flushRemotes (s : State) (sq cid : Nat) : List Nat × State :=
  ((requesting s).map (·.nsid), (requesting s).foldl (fun s x => sendRequest s x 0 0 sq cid 0 0 []) s)

/-- The flushes of a shutdown go out on the sessions that have credit for them (R345, R348); their queue number is none of
the host's. -/
def sendShutFlushes (s : State) : State :=
  s.gate.nvme.shutUnsent.foldl (fun s nsid =>
    match sessionOf s nsid with
    | some x =>
      if x.sent.length < x.credits then
        sendRequest (updNvme s fun n => { n with shutUnsent := n.shutUnsent.erase nsid }) x 0 0 0xFFFE 0 0 0 []
      else s
    | none => s) s

/-- NVME_SHUTDOWN (R345): a Flush of every namespace; only of a controller that is ready. -/
def execNvmeShutdown (s : State) : Host.Outcome State Fault Refusal :=
  if s.gate.nvme.state != 1 then .next s
  else
    let rs := (requesting s).map (·.nsid)
    .next (nvmeSettle (sendShutFlushes (updNvme s fun n => { n with
      state := 3, shst := 1, shutWaits := s.gate.writes.map (·.id), shutRemotes := rs, shutUnsent := rs })))

/-! ## Fetching (R333, R334, R339) -/

/-- A submission queue has an entry, and no Barrier holds it back. -/
def sqReady (s : State) (sq : Nat) : Bool :=
  (s.gate.nvme.sqs.getD sq none).any fun q => q.head != q.tail && !q.barrier

/-- Whether it is a queue's turn (R334): it goes on with its own up to 8 entries, or no other queue has any; or its turn
comes, every queue between the last one and it having none. -/
def itsTurn (s : State) (sq : Nat) : Bool :=
  let t := s.gate.nvme.turn
  if sq = t.1 then t.2 < 8 || (List.range 65).all fun q => q == sq || !sqReady s q
  else (List.range ((sq + 64 - t.1) % 65)).all fun i => !sqReady s ((t.1 + 1 + i) % 65)

/-- Whether the Gate may fetch the next entry of a submission queue: the host shares the tags that neither the engine
holds nor the sessions' credits may take (R334). -/
def mayFetch (s : State) (sq : Nat) : Bool :=
  s.gate.nvme.state == 1 && s.gate.stopped.isNone && engineTags s + hostTags s + creditsGranted s < 4096 &&
  sqReady s sq && itsTurn s sq

/-- A remote session takes no further command: it closes, or its credits are all in use (R348, R353). -/
def sessionFull (x : Session) : Bool := x.closing || x.credits ≤ x.sent.length
def remoteHeld (s : State) (nsid : Nat) : Bool :=
  if nsid = 0xFFFFFFFF then (requesting s).any sessionFull else (sessionOf s nsid).any sessionFull

/-- The state with the next entry of a queue fetched: its head past it, the entry counted in the queue's turn (R334). -/
def headMoved (s : State) (sq : Nat) : State :=
  updNvme s fun n => { n with
    turn := if n.turn.1 = sq && n.turn.2 < 8 then (sq, n.turn.2 + 1) else (sq, 1)
    sqs := modAt n.sqs sq (·.map fun q => { q with head := (q.head + 1) % q.size }) }

/-- Fetch the next entry of a queue, or pass its turn on where the entry is held back; an opcode outside the table of R335
is invalid, and so is a PSDT or FUSE other than 0 as a field (R333; the opcode first: DESIGN CHOICE, log entry 187). -/
def nvmeFetchIf (held : Bool) (s : State) (sq : Nat) (h : NvmeHead) (run : State → State) : State :=
  if !mayFetch s sq then s
  else if held && !h.unknown then updNvme s fun n => { n with turn := (sq, 8) }
  else if h.unknown then nvmeSettle (nvmeComplete (headMoved s sq) sq h.cid.toNat 0 1 0)
  else if h.fuse != 0 || h.psdt != 0 then nvmeSettle (nvmeComplete (headMoved s sq) sq h.cid.toNat 0 2 0)
  else run (headMoved s sq)
def nvmeFetch (s : State) (sq : Nat) (h : NvmeHead) (run : State → State) : State := nvmeFetchIf false s sq h run

/-- Complete the command just fetched. -/
def answer (s : State) (sq : Nat) (h : NvmeHead) (sct sc dw0 : Nat) : State :=
  nvmeSettle (nvmeComplete s sq h.cid.toNat sct sc dw0)
def answerOk (s : State) (sq : Nat) (h : NvmeHead) : State := answer s sq h 0 0 0
def answerField (s : State) (sq : Nat) (h : NvmeHead) : State := answer s sq h 0 2 0

/-- Fetch an I/O command; one in the admin queue is no command of the admin set, and completes with Invalid Command
Opcode (R335). A command for a remote namespace waits for its session's credit. -/
def ioFetch (held : Bool) (s : State) (sq : Nat) (h : NvmeHead) (run : State → State) : State :=
  nvmeFetchIf (held || remoteHeld s h.nsid.toNat) s sq h fun s => if sq = 0 then answer s 0 h 0 1 0 else run s

/-- Hold the command just fetched. -/
def keep (s : State) (sq : Nat) (h : NvmeHead) (w : NvmeWork) : State :=
  updNvme s fun n => { n with outstanding := n.outstanding ++ [{ sq := sq, cid := h.cid.toNat, work := w }] }

/-! ## Admin commands (R335) -/

/-- NVME_CREATE_IO_SQ: `size` is one less than the entries. -/
def execNvmeCreateIoSq (h : NvmeHead) (qid size cq : BitVec 16) (contiguous : Bool) (s : State) :
    Host.Outcome State Fault Refusal :=
  .next (nvmeFetch s 0 h fun s =>
    let q := qid.toNat
    if q = 0 || 64 < q || (s.gate.nvme.sqs.getD q none).isSome || size.toNat = 0 || 1023 < size.toNat || !contiguous ||
        cq.toNat = 0 || (s.gate.nvme.cqs.getD cq.toNat none).isNone then answerField s 0 h
    else answerOk (updNvme s fun n => { n with
      sqs := n.sqs.set q (some { cq := cq.toNat, size := size.toNat + 1 }) }) 0 h)

/-- NVME_CREATE_IO_CQ. -/
def execNvmeCreateIoCq (h : NvmeHead) (qid size vector : BitVec 16) (contiguous irq : Bool) (s : State) :
    Host.Outcome State Fault Refusal :=
  .next (nvmeFetch s 0 h fun s =>
    let q := qid.toNat
    if q = 0 || 64 < q || (s.gate.nvme.cqs.getD q none).isSome || size.toNat = 0 || 1023 < size.toNat || !contiguous ||
        64 < vector.toNat then answerField s 0 h
    else answerOk (updNvme s fun n => { n with
      cqs := n.cqs.set q (some { size := size.toNat + 1, vector := vector.toNat, irq := irq }) }) 0 h)

/-- NVME_DELETE_IO_SQ: commands of the queue that wait complete as aborted. -/
def execNvmeDeleteIoSq (h : NvmeHead) (qid : BitVec 16) (s : State) : Host.Outcome State Fault Refusal :=
  .next (nvmeFetch s 0 h fun s =>
    let q := qid.toNat
    if q = 0 || (s.gate.nvme.sqs.getD q none).isNone then answerField s 0 h
    else
      let s1 := (s.gate.nvme.outstanding.filter fun c => c.sq == q).foldl (fun s c => nvmeEnd s c 0 7 0) s
      answerOk (updNvme s1 fun n => { n with
        sqs := n.sqs.set q none
        ordered := n.ordered.filter fun e => e.1 != q
        barrierWrites := n.barrierWrites.filter fun e => e.1 != q }) 0 h)

/-- NVME_DELETE_IO_CQ: refused while a submission queue uses it. -/
def execNvmeDeleteIoCq (h : NvmeHead) (qid : BitVec 16) (s : State) : Host.Outcome State Fault Refusal :=
  .next (nvmeFetch s 0 h fun s =>
    let q := qid.toNat
    if q = 0 || (s.gate.nvme.cqs.getD q none).isNone || s.gate.nvme.sqs.any (fun o => o.any fun x => x.cq == q) then
      answerField s 0 h
    else answerOk (updNvme s fun n => { n with cqs := n.cqs.set q none }) 0 h)

/-- Bytes laid over others from an offset. -/
def overlay (base : List Byte) (off : Nat) (bs : List Byte) : List Byte :=
  base.take off ++ bs ++ base.drop (off + bs.length)

/-- Log pages the controller has (R335). -/
def logPages : List Nat := [1, 2, 3, 4, 5, 0xC0]

/-! The places of fields in the standard pages are PRESUMED, from the NVMe base specification (log entry 185). -/

/-- Page 0x01: the newest 64 completions with an error, newest first; an unused entry has error count 0. -/
def errorPage (n : Nvme) (free : List Byte) : List Byte :=
  let errs := n.done.filter fun d => d.sct != 0 || d.sc != 0
  let known := (List.range 64).map fun i =>
    match errs.reverse[i]? with
    | some d => leBytes 8 (errs.length - i) ++ leBytes 2 d.sq ++ leBytes 2 d.cid ++ leBytes 2 (2 * (256 * d.sct + d.sc))
    | none => zeros 8
  (known.mapIdx fun i b => (i, b)).foldl (fun acc e => overlay acc (64 * e.1) e.2) free

/-- What a drive reports: temperature, data units read and written, each a free value. -/
def driveReport (s : State) : (Nat × Nat × Nat) × State :=
  let a := draw s
  let b := draw a.2
  let c := draw b.2
  ((a.1 % 2 ^ 16, b.1 % 2 ^ 128, c.1 % 2 ^ 128), c.2)

/-- Page 0x02: the drives combined, the highest temperature and the summed data units. -/
def healthPage (s : State) (free : List Byte) : List Byte × State :=
  let ports := (List.range 4).filter fun p => (gatePort s p).state % 2 == 1
  let r := ports.foldl (fun (acc : (Nat × Nat × Nat) × State) _ =>
    let d := driveReport acc.2
    ((max acc.1.1 d.1.1, (acc.1.2.1 + d.1.2.1) % 2 ^ 128, (acc.1.2.2 + d.1.2.2) % 2 ^ 128), d.2)) ((0, 0, 0), s)
  (overlay (overlay (overlay free 1 (leBytes 2 r.1.1)) 32 (leBytes 16 r.1.2.1)) 48 (leBytes 16 r.1.2.2), r.2)

def adminOpcodes : List Nat := [0, 1, 2, 4, 5, 6, 8, 9, 0x0A, 0x0C]
def ioOpcodes : List Nat := [0, 1, 2, 8, 0x81, 0x82]

/-- Page 0x05: bit 0 says that a command is supported; an unsupported one's entry is 0. -/
def effectsPage (free : List Byte) : List Byte :=
  (List.range 512).flatMap fun i =>
    if (if i < 256 then adminOpcodes.contains i else ioOpcodes.contains (i - 256)) then
      (free.getD (4 * i) 0 ||| 1) :: (List.range 3).map fun j => free.getD (4 * i + 1 + j) 0
    else zeros 4

/-- NVME_GET_LOG_PAGE: bytes the manual does not lay out are free values. -/
def execNvmeGetLogPage (h : NvmeHead) (page : Byte) (dwords off : BitVec 16) (s : State) :
    Host.Outcome State Fault Refusal :=
  .next (nvmeFetch s 0 h fun s =>
    let p := page.toNat
    if !logPages.contains p || (p = 2 && h.nsid != 0xFFFFFFFF) then answerField s 0 h
    else
      let n := 4 * (dwords.toNat + 1)
      let (free, s1) := drawBytes s (n + off.toNat)
      let body := if p = 4 then overlay (zeros (max 4096 (n + off.toNat))) 0
            (s.gate.nvme.changed.flatMap (leBytes 4))
          else if p = 0xC0 then overlay free 0 ((List.range 4).flatMap (portBlock s))
          else if p = 1 then errorPage s.gate.nvme free
          else if p = 2 then (healthPage s1 free).1
          else if p = 3 then overlay free 0 [1]
          else effectsPage free
      let s2 := if p = 4 then updNvme s1 fun n => { n with changed := [] } else if p = 2 then (healthPage s1 free).2 else s1
      answerOk { s2 with host.readData := (body.drop off.toNat).take n } 0 h)

/-- Device ID of function 1 (R333). -/
def nvmeDeviceId (f : Fuse) : Nat := 0xF910 + 4 * f.tier.code + 2 * boolNat f.pkgM + boolNat f.ring

/-- Function 1, the NVMe controller (R333); the sizes of its payloads and its revision the manual does not give. -/
def pciNvme (f : Fuse) : PciFunction where
  vendorId := Config.vendorId
  deviceId := nvmeDeviceId f
  revisionId := none
  classCode := 0x010802
  bar0Bytes := 16 * 2 ^ 10
  bar2Bytes := none
  msixVectors := 65
  intx := false
  maxPayload := none
  maxReadRequest := none

/-- NVME_IDENTIFY: the values of R333 and R336 at their places in the NVMe structures; every byte the manual
gives no value is a free value. PRESUMED: the places, from the NVMe 2.0 base specification. -/
def execNvmeIdentify (h : NvmeHead) (cns : Byte) (s : State) : Host.Outcome State Fault Refusal :=
  .next (nvmeFetch s 0 h fun s =>
    let nsid := h.nsid.toNat
    let (free, s1) := drawBytes s 4096
    let give (b : List Byte) : State := answerOk { s1 with host.readData := b } 0 h
    if cns = 0 then
      if !nsActive s nsid then answer s 0 h 0 0x0B 0
      else
        let size := leBytes 8 (nsBlocks s nsid)
        let lbads := if nsBlk s nsid = 4096 then 12 else Nat.log2 (nsBlk s nsid)
        give (overlay (overlay (overlay (overlay (overlay free 0 (size ++ size)) 25 [0]) 26 [0]) 99
          [BitVec.ofNat 8 (boolNat (nsProtected s nsid))]) 128 ([0, 0] ++ leBytes 1 lbads ++ [0]))
    else if cns = 1 then
      let put (b : List Byte) (e : Nat × List Byte) : List Byte := overlay b e.1 e.2
      give ([(77, [6]), (80, leBytes 4 0x20000), (92, leBytes 4 256), (256, [0, 0, 3, 3, 3]), (262, [63]),
        (512, [0x66, 0x44]), (516, leBytes 4 24), (520, leBytes 2 8), (525, [1]), (536, leBytes 4 0)].foldl put free)
    else if cns = 2 then
      give ((((List.range 24).map (· + 1)).filter fun k => nsid < k && nsActive s k).flatMap (leBytes 4) ++ zeros 4096 |>.take 4096)
    else if cns = 3 then (if nsActive s nsid then give free else answer s 0 h 0 0x0B 0)
    else answerField s 0 h)

/-- The outstanding command that an Abort names. -/
def abortTarget (s : State) (sq cid : Nat) : Option NvmeCmd :=
  s.gate.nvme.outstanding.find? fun c => c.sq == sq && c.cid == cid

/-- NVME_ABORT (R346): a write that is not accepted is aborted; any other target goes on. The Abort's completion follows
the target's in every case. -/
def execNvmeAbort (h : NvmeHead) (sq target : BitVec 16) (s : State) : Host.Outcome State Fault Refusal :=
  .next (nvmeFetch s 0 h fun s =>
    let wait (s : State) (dw0 : Nat) : State := nvmeSettle (keep s 0 h (.abort sq.toNat target.toNat dw0))
    let spare := updNvme s fun n => { n with abortsNot := sat32 n.abortsNot 1 }
    match abortTarget s sq.toNat target.toNat with
    | some c => match c.work with
      | .write .. => wait (nvmeEnd s c 0 7 0) 0
      | _ => wait spare 1
    | none => wait spare 1)

/-- Features the controller has (R335). -/
def featureIds : List Nat := [1, 2, 4, 6, 7, 8, 9, 0x0B]

/-- NVME_SET_FEATURES. -/
def execNvmeSetFeatures (h : NvmeHead) (fid : Byte) (value : BitVec 32) (s : State) :
    Host.Outcome State Fault Refusal :=
  .next (nvmeFetch s 0 h fun s =>
    let f := fid.toNat
    let v := value.toNat
    if !featureIds.contains f || (f = 6 && v % 2 = 0) || (f = 2 && v % 32 != 0) then answerField s 0 h
    else if f = 7 then answer s 0 h 0 0 (min (v % 65536) 63 + min (v / 65536) 63 * 65536)
    else answerOk (updNvme s fun n => { n with features := memPutLE n.features (4 * f) 4 v }) 0 h)

/-- NVME_GET_FEATURES. -/
def execNvmeGetFeatures (h : NvmeHead) (fid : Byte) (s : State) : Host.Outcome State Fault Refusal :=
  .next (nvmeFetch s 0 h fun s =>
    let f := fid.toNat
    if !featureIds.contains f then answerField s 0 h
    else answer s 0 h 0 0 (if f = 6 then 1 else if f = 7 then 63 + 63 * 65536 else memLE s.gate.nvme.features (4 * f) 4))

/-- NVME_ASYNC_EVENT_REQUEST: it waits for a notice; more than AERL allows is an invalid field. -/
def execNvmeAsyncEventRequest (h : NvmeHead) (s : State) : Host.Outcome State Fault Refusal :=
  .next (nvmeFetch s 0 h fun s =>
    if s.gate.nvme.noticeHeld then answer (updNvme s fun n => { n with noticeHeld := false }) 0 h 0 0 0x040002
    else if 4 ≤ (s.gate.nvme.outstanding.filter fun c => c.work == .aer).length then answerField s 0 h
    else keep s 0 h .aer)

/-! ## I/O commands (R332, R338, R339, R341, R342) -/

/-- Forward a command just fetched to the serving device of its session; it is then beyond an Abort (R346, R349). -/
def forward (s : State) (sq : Nat) (h : NvmeHead) (op fua lba n : Nat) (data : List Byte) : State :=
  match sessionOf s h.nsid.toNat with
  | some x => sendRequest (keep s sq h (.remote h.nsid.toNat)) x op fua sq h.cid.toNat lba n data
  | none => answer s sq h 0 0x0B 0

/-- NVME_FLUSH (R341). -/
def execNvmeFlush (sq : Fin 65) (h : NvmeHead) (s : State) : Host.Outcome State Fault Refusal :=
  .next (ioFetch false s sq.val h fun s =>
    let nsid := h.nsid.toNat
    let all := h.nsid = 0xFFFFFFFF
    if !all && !nsActive s nsid then answer s sq.val h 0 0x0B 0
    else if !all && 8 < nsid then forward s sq.val h 0 0 0 0 []
    else
      let ws := (s.gate.writes.filter fun w => all || w.port == nsPort nsid).map (·.id)
      if all && !(requesting s).isEmpty then
        let r := flushRemotes s sq.val h.cid.toNat
        nvmeSettle (keep r.2 sq.val h (.flushAll ws r.1))
      else nvmeSettle (keep s sq.val h (.flush ws)))

/-- Whether every Write Ordered of a domain fetched before a Write Ordered has been accepted (R338). -/
def orderOpen (s : State) (sq cid nsid : Nat) : Bool :=
  (s.gate.nvme.outstanding.takeWhile fun c => !(c.sq == sq && c.cid == cid)).all fun c =>
    !(c.sq == sq && c.work == .write nsid true)

/-- Accept a host's write (R329): staged, ordered, and completed unless it waits for FUA. -/
def hostAccept (s : State) (sq : Nat) (h : NvmeHead) (lba : Nat) (data : List Byte) (ordered fua : Bool) : State :=
  let nsid := h.nsid.toNat
  let blk := nsBlk s nsid
  let n := s.gate.nvme
  let prior := if ordered then
      ((n.ordered.filter fun e => e.1 == sq && e.2.1 == nsid).map fun e => e.2.2) else []
  let bars := (n.barrierWrites.filter fun e => e.1 == sq).map (·.2)
  let r := acceptWrite s { id := 0, who := .host sq h.cid.toNat nsid, port := nsPort nsid, blk := blk,
                           targets := [(lba, data.length / blk)], data := data, journal := nsid ≤ 4,
                           after := (prior ++ bars).filter fun i => s.gate.writes.any fun w => w.id == i }
  let s1 := updNvme r.2 fun n => { n with
    ordered := if ordered then n.ordered.filter (fun e => !(e.1 == sq && e.2.1 == nsid)) ++ [(sq, nsid, r.1)]
      else n.ordered }
  let s2 := noteSuper s1 nsid lba
  if fua then keep s2 sq h (.fua r.1) else answerOk s2 sq h

/-- A write in its turn whose data has all come goes on: accepted here where it has space, or forwarded to the
serving device; none where it has to wait. -/
def writeGoes (s : State) (sq : Nat) (h : NvmeHead) (lba n : Nat) (fua ordered : Bool) (data : List Byte) :
    Option State :=
  let nsid := h.nsid.toNat
  if data.length != n * nsBlk s nsid then none
  else if 8 < nsid then some (forward s sq h (if ordered then 0x81 else 1) (boolNat fua) lba n data)
  else if hostFits s data.length then some (hostAccept s sq h lba data ordered fua)
  else none

/-- A write of any kind: fetched while there is space at all (R331), and accepted once all its data has come, its order
allows and its space is free; the row of a command already fetched brings its data. -/
def nvmeWrite (s : State) (sq : Nat) (h : NvmeHead) (lba n : Nat) (fua ordered : Bool) (data : List Byte) : State :=
  let nsid := h.nsid.toNat
  let waiting : NvmeCmd := { sq := sq, cid := h.cid.toNat, work := .write nsid ordered }
  let inTurn (s : State) : Bool := !ordered || orderOpen s sq h.cid.toNat nsid
  if s.gate.nvme.outstanding.contains waiting then
    if s.gate.stopped.isSome || !inTurn s then s
    else (writeGoes (updNvme s fun k => { k with outstanding := k.outstanding.erase waiting }) sq h lba n fua ordered
      data).getD s
  else ioFetch (!hostFits s 1) s sq h fun s =>
    match rangeStatus s nsid lba n true with
    | some (sct, sc) => answer s sq h sct sc 0
    | none =>
      let wait := keep s sq h (.write nsid ordered)
      if inTurn s then (writeGoes s sq h lba n fua ordered data).getD wait else wait

/-- NVME_WRITE (R342): `blocks` is one less than the number of blocks; `data` is short while its transfer goes
on. -/
def execNvmeWrite (sq : Fin 65) (h : NvmeHead) (lba : BitVec 64) (blocks : BitVec 16) (fua : Bool)
    (data : List Byte) (s : State) : Host.Outcome State Fault Refusal :=
  .next (nvmeWrite s sq.val h lba.toNat (blocks.toNat + 1) fua false data)

/-- NVME_WRITE_ORDERED (R338). -/
def execNvmeWriteOrdered (sq : Fin 65) (h : NvmeHead) (lba : BitVec 64) (blocks : BitVec 16) (fua : Bool)
    (data : List Byte) (s : State) : Host.Outcome State Fault Refusal :=
  .next (nvmeWrite s sq.val h lba.toNat (blocks.toNat + 1) fua true data)

/-- NVME_WRITE_ZEROES: at most 64 blocks (R335). -/
def execNvmeWriteZeroes (sq : Fin 65) (h : NvmeHead) (lba : BitVec 64) (blocks : BitVec 16) (fua : Bool)
    (s : State) : Host.Outcome State Fault Refusal :=
  let n := blocks.toNat + 1
  if 64 < n then .next (ioFetch false s sq.val h fun s => answerField s sq.val h)
  else .next (nvmeWrite s sq.val h lba.toNat n fua false (zeros (n * nsBlk s h.nsid.toNat)))

/-- NVME_READ (R332): `failed` is a drive-side read that fails. -/
def execNvmeRead (sq : Fin 65) (h : NvmeHead) (lba : BitVec 64) (blocks : BitVec 16) (failed : Bool)
    (s : State) : Host.Outcome State Fault Refusal :=
  let nsid := h.nsid.toNat
  let n := blocks.toNat + 1
  .next (ioFetch false s sq.val h fun s =>
    match rangeStatus s nsid lba.toNat n false with
    | some (sct, sc) => answer s sq.val h sct sc 0
    | none =>
      if 8 < nsid then forward s sq.val h 2 (boolNat false) lba.toNat n []
      else
        let p := nsPort nsid
        if failed then answer (updGatePort s p fun q => { q with mediaErrors := sat32 q.mediaErrors 1 }) sq.val h 2 0x81 0
        else
          let data := gateRead s p (nsBlk s nsid) lba.toNat n
          let s1 := updGatePort (rootSend s p) p fun q => { q with read := satAdd 64 q.read data.length }
          answerOk { s1 with host.readData := data } sq.val h)

/-- NVME_BARRIER (R335, R339): `clean` says that it has no data pointer and CDW10 to CDW15 all 0. -/
def execNvmeBarrier (sq : Fin 65) (h : NvmeHead) (clean : Bool) (s : State) : Host.Outcome State Fault Refusal :=
  .next (nvmeFetch s sq.val h fun s =>
    if sq = 0 then answer s sq.val h 0 1 0
    else if h.nsid != 0xFFFFFFFF then answer s sq.val h 0 0x0B 0
    else if !clean then answerField s sq.val h
    else
      let s1 := keep s sq.val h .barrier
      nvmeSettle (updNvme s1 fun n => { n with
        sqs := modAt n.sqs sq.val (·.map fun q => { q with barrier := true }) }))

end Sys2Proof.Machine
end

