-- ==== Sys2Proof/Machine/MemCtl.lean ====
section
/-! DEFINITION. The memory controller's commands and events (chapter 21). -/

namespace Sys2Proof.Machine

/-! ## Commands (R513, R519, R520) -/

/-- The refresh divisor of a band (R509). -/
def bandDivisor (band : Nat) : Nat := 2 ^ band

/-- The narrower of a channel's eyes, in a byte. -/
def narrowest (l : List Nat) : Nat := l.foldl min 255

/-- The channel block of `MEM_STATUS`. -/
def channelBlock (f : Fuse) (c : DramChannel) : List Byte :=
  let r0 := c.ranks.getD 0 {}
  let r1 := c.ranks.getD 1 {}
  let two := ranksOf f = 2
  let band := if two then max r0.band r1.band else r0.band
  let owed := if two then r0.owed + r1.owed else r0.owed
  leBytes 1 r0.band ++ leBytes 1 (if two then r1.band else 0xFF) ++ leBytes 1 (bandDivisor band) ++
    leInt 1 owed ++ leBytes 4 c.paybacks ++ leBytes 4 c.drains ++ leBytes 2 c.wqPeak ++ [0, 0] ++
    leBytes 4 c.corrections ++ leBytes 4 c.retries ++ leBytes 4 c.poisoned ++
    leBytes 2 c.remap.length ++ leBytes 2 (256 - c.remap.length) ++ leBytes 2 c.awaitPpr ++
    leBytes 1 (narrowest (c.lanes.map (·.readEye))) ++ leBytes 1 (narrowest (c.lanes.map (·.writeEye))) ++
    leBytes 4 c.fabricHolds ++ leBytes 4 c.lastScrub

def memStatusBytes (s : State) (ch : Nat) : List Byte :=
  leBytes 1 s.pwr.dramGib ++ leBytes 1 (ranksOf s.fuse) ++ leBytes 1 (densityCode s.fuse) ++ [0] ++
    leBytes 1 (s.host.bar2Base / 2 ^ 30) ++ leBytes 1 (s.mem.keep + 0x80) ++ [0, 0] ++
    leBytes 4 s.host.bar2Blocked ++ [0, 0, 0, 0] ++ channelBlock s.fuse (s.mem.channels.getD ch {})

/-- The counters `MEM_STATUS` marks C. -/
def memStatusClear (s : State) (ch : Nat) : State :=
  let s1 := updChannel s ch fun c => { c with
    paybacks := 0, drains := 0, wqPeak := 0, corrections := 0, retries := 0, poisoned := 0, fabricHolds := 0 }
  { s1 with host.bar2Blocked := 0 }

/-- MEM_STATUS (R520). -/
def memStatusCard : Card where
  opcode := 0x1101
  len := fixedLen 4
  fields b s := [inRange b 0 1 0 15, eVariant (dramChannels s.fuse ≤ fld b 0 1) 0, inRange b 1 1 0 1, resv b 2 2]
  effect _ b s :=
    (if fld b 1 1 = 1 then memStatusClear s (fld b 0 1) else s, .now (memStatusBytes s (fld b 0 1)))

def execMemStatus (n : Fin 40) (s : State) : Host.Outcome State Fault Refusal :=
  .next (mbxRun memStatusCard n.val s)

/-- MEM_APERTURE (R44, R519). -/
def memApertureCard : Card where
  opcode := 0x1102
  len := fixedLen 4
  fields b s := [inRange b 0 1 0 63, resv b 1 3, eComb (s.fuse.bondedGib ≤ fld b 0 1) 0]
  effect _ b s := ({ s with host.bar2Base := fld b 0 1 * 2 ^ 30 }, .now [])

def execMemAperture (n : Fin 40) (s : State) : Host.Outcome State Fault Refusal :=
  .next (mbxRun memApertureCard n.val s)

/-- MEM_KEEP (R513). -/
def memKeepCard : Card where
  opcode := 0x1103
  len := fixedLen 4
  fields b _ := [inRange b 0 1 0 0x7F, resv b 1 3]
  effect _ b s :=
    let k := keptBytes s (fld b 0 1)
    ({ s with mem.keep := fld b 0 1 }, .now (leBytes 8 k.1 ++ leBytes 8 k.2))

def execMemKeep (n : Fin 40) (s : State) : Host.Outcome State Fault Refusal :=
  .next (mbxRun memKeepCard n.val s)

/-! ## Temperature and refresh (R509 to R511) -/

def rankOf (s : State) (ch rank : Nat) : Rank := ((s.mem.channels.getD ch {}).ranks.getD rank {})

def updRank (s : State) (ch rank : Nat) (f : Rank → Rank) : State :=
  updChannel s ch fun c => { c with ranks := modAt c.ranks rank f }

/-- The channel and rank exist on this part. -/
def rankExists (s : State) (ch rank : Nat) : Bool := ch < dramChannels s.fuse && rank < ranksOf s.fuse

/-- A rank's change of band, with its event (R509, R521, R522). -/
def bandChange (s : State) (ch rank old new code : Nat) : State :=
  notify (updRank s ch rank fun r => { r with band := new, lowerRun := 0 }) 0x1102 ch
    (leBytes 1 rank ++ leBytes 1 old ++ leBytes 1 new ++ leBytes 1 code) 1

/-- Start the payback of a rank that leaves band 0 with refreshes owed (R511). -/
def startPayback (s : State) (ch rank new : Nat) : State :=
  let c := s.mem.channels.getD ch {}
  updRank s ch rank fun r => { r with payback := some (r.owed.toNat, new, c.draining), owed := 0 }

/-- MR4_READ (R509, R511): a reading places the rank in `band`; a higher band is taken at once, a lower one
after 4 readings in a row that report it. -/
def execMr4Read (ch : Fin 16) (rank : Fin 2) (code : Byte) (band : Fin 3) (s : State) :
    Host.Outcome State Fault Refusal :=
  let r := rankOf s ch.val rank.val
  if !rankExists s ch.val rank.val then .next s
  else if r.band < band.val then
    let s1 := bandChange s ch.val rank.val r.band band.val code.toNat
    .next (if r.band = 0 && 0 < r.owed then startPayback s1 ch.val rank.val band.val else s1)
  else if band.val < r.band then
    let run := if r.lowerBand = band.val && 0 < r.lowerRun then r.lowerRun + 1 else 1
    if 4 ≤ run then .next (bandChange s ch.val rank.val r.band band.val code.toNat)
    else .next (updRank s ch.val rank.val fun r => { r with lowerBand := band.val, lowerRun := run })
  else .next (updRank s ch.val rank.val fun r => { r with lowerRun := 0 })

/-- What a rank owes once `n` refreshes have been issued of the `owed` due (R510): only in band 0 does it leave some postponed,
up to 8, while requests wait, and only there and idle is it given more than it owes, up to 8 in advance. -/
def owedAfter (band : Nat) (waiting : Bool) (owed n : Int) : Int :=
  let most := if band = 0 && waiting then 8 else 0
  let least := if band = 0 && !waiting then -8 else min owed 0
  if owed - n < least then least else if max most least < owed - n then max most least else owed - n

/-- REFRESH_DUE (R510): one refresh falls due and the controller issues `issued`, as far as the rule lets it. -/
def execRefreshDue (ch : Fin 16) (rank : Fin 2) (waiting : Bool) (issued : Fin 18) (s : State) :
    Host.Outcome State Fault Refusal :=
  let r := rankOf s ch.val rank.val
  if !rankExists s ch.val rank.val || r.payback.isSome then .next s
  else .next (updRank s ch.val rank.val fun r => { r with owed := owedAfter r.band waiting (r.owed + 1) issued.val })

/-- How long a payback of `owed` refreshes and the one then due lasts, in ns (R511): tRFCab is 280 ns on dies of 16 Gb and 380
on those of 32 Gb. UNVERIFIED (log entry 225): the spec gives none for 8 Gb, where `ns` is what was measured, within the bound. -/
def paybackNs (f : Fuse) (owed ns : Nat) : Nat :=
  match densityCode f with
  | 0 => min ns 7812
  | 1 => (owed + 1) * 280
  | _ => (owed + 1) * 380

/-- PAYBACK_END (R511): the payback of a rank completes. -/
def execPaybackEnd (ch : Fin 16) (rank : Fin 2) (ns : BitVec 32) (s : State) :
    Host.Outcome State Fault Refusal :=
  match (rankOf s ch.val rank.val).payback with
  | none => .next s
  | some (owed, new, drain) =>
    let s1 := updRank s ch.val rank.val fun r => { r with payback := none }
    let s2 := updChannel s1 ch.val fun c => { c with paybacks := sat32 c.paybacks 1 }
    .next (notify s2 0x1101 ch.val (leBytes 1 rank.val ++ leBytes 1 owed ++ leBytes 1 new ++
      leBytes 1 (boolNat drain) ++ leBytes 4 (paybackNs s.fuse owed ns.toNat) ++ leBytes 4 7812) 0)

/-! ## Write queue and training (R505, R507) -/

/-- Every rank of a channel is in payback, so that a drain issues no write (R512). -/
def drainStalled (f : Fuse) (c : DramChannel) : Bool := (c.ranks.take (ranksOf f)).all fun r => r.payback.isSome

/-- WRITE_DRAIN (R507, R512, R514): a channel reports its queues: at 192 writes a drain starts, at 64 it ends, but not
while a payback keeps its writes back; a write that finds the queue full is held at the fabric. -/
def execWriteDrain (ch : Fin 16) (r : ChannelReport) (s : State) : Host.Outcome State Fault Refusal :=
  if dramChannels s.fuse ≤ ch.val then .next s
  else .next (updChannel s ch.val fun c =>
    let level := r.level.val
    { c with
      wqLevel := level
      rqLevel := r.reads.val
      wqPeak := max c.wqPeak level
      drains := if !c.draining && 192 ≤ level then sat32 c.drains 1 else c.drains
      draining := if 192 ≤ level then true else if level ≤ 64 && !drainStalled s.fuse c then false else c.draining
      fabricHolds := sat32 c.fabricHolds r.held.toNat
      corrections := sat32 c.corrections r.corrected.toNat
      retries := sat32 c.retries r.retried.toNat })

/-- At most one step toward a drift (R505). -/
def oneStep (d : Int) : Int := clampInt d (-1) 1

/-- DQ_OSC_READ (R505): in Run a rank's oscillator, against its value at training, corrects each byte lane of the channel by
at most one step. -/
def execDqOscRead (ch : Fin 16) (rank : Fin 2) (osc : DqReading) (s : State) : Host.Outcome State Fault Refusal :=
  if s.pwr.state != .run || !rankExists s ch.val rank.val then .next s
  else .next (updChannel s ch.val fun c => { c with
    lanes := c.lanes.mapIdx fun l x => { x with steps := x.steps + oneStep (oscDrift c rank.val l x osc) } })

/-! ## Repair and remap (R515 to R518) -/

/-- `EV_MEM_REMAP` (R521, R522). -/
def remapEvent (s : State) (ch : Nat) (r : DramRow) (full : Bool) : State :=
  let c := s.mem.channels.getD ch {}
  notify s 0x1104 ch (leBytes 1 r.rank ++
    leBytes 1 (boolNat full + 2 * boolNat r.poisoned + 4 * boolNat (!r.poisoned)) ++
    leBytes 2 (256 - c.remap.length) ++ leBytes 4 r.row ++ leBytes 4 r.bank ++ leBytes 4 r.corrections)
    (if full then 3 else 4)

/-- Two entries name one row. -/
def sameRow (a b : DramRow) : Bool := a.rank == b.rank && a.bank == b.bank && a.row == b.row

/-- Queue a row for retirement, unless it is remapped or queued; a full table leaves it in service (R518). -/
def queueRow (s : State) (ch : Nat) (r : DramRow) : State :=
  let c := s.mem.channels.getD ch {}
  if c.remap.any (sameRow r) || c.retire.any (sameRow r) then s
  else if 256 ≤ c.remap.length then remapEvent s ch r true
  else updChannel s ch fun c => { c with retire := c.retire ++ [r] }

/-- SCRUB_REPORT (R516): a die reports its worst row and that row's corrections. -/
def execScrubReport (ch : Fin 16) (rank : Fin 2) (bank row : Nat) (corrections : BitVec 32) (s : State) :
    Host.Outcome State Fault Refusal :=
  if !rankExists s ch.val rank.val then .next s
  else
    let s1 := updChannel s ch.val fun c => { c with lastScrub := corrections.toNat }
    .next (if 4 ≤ corrections.toNat then
      queueRow s1 ch.val ⟨rank.val, bank, row, corrections.toNat, false, 0⟩ else s1)

/-- Every channel's table is full: the pool is exhausted (R599). -/
def rowsCheck (s : State) : State :=
  if (s.mem.channels.take (dramChannels s.fuse)).all fun c => 256 ≤ c.remap.length then setLeaf s 21 7 else s

/-- ROW_REMAP_DONE (R516, R596): the oldest queued row of a channel has been copied and its entry made. -/
def execRowRemapDone (ch : Fin 16) (flash : Bool) (s : State) : Host.Outcome State Fault Refusal :=
  match (s.mem.channels.getD ch.val {}).retire with
  | [] => .next s
  | r :: rest =>
    if 256 ≤ (s.mem.channels.getD ch.val {}).remap.length then
      .next (remapEvent (updChannel s ch.val fun c => { c with retire := rest }) ch.val r true)
    else
      let s1 := updChannel { s with spare.flashOk := flash } ch.val fun c => { c with
        retire := rest, remap := c.remap ++ [{ r with into := freeReserveRow c.remap }], awaitPpr := c.awaitPpr + 1 }
      let s2 := remapEvent (countSubst (rowsCheck s1) 7) ch.val r false
      .next (spareRecord s2 7 0 (if r.poisoned then 0 else 2) ch.val (r.rank * 4096 + r.bank % 4096) r.row
        r.corrections)

end Sys2Proof.Machine
end

