-- ==== Sys2Proof/Machine/ImgOps.lean ====
section
/-! DEFINITION. Frames, rings and their end; link packets; generations, banks and latches; the overload check
(chapters 05, 06 and 09). -/

namespace Sys2Proof.Machine

/-! ## Access -/

def updSensor (s : State) (sn : Nat) (f : Sensor → Sensor) : State :=
  { s with img.sensors := modAt s.img.sensors sn f }
def updRnd (s : State) (r : Nat) (f : Rendition → Rendition) : State :=
  { s with img.rnds := modAt s.img.rnds r f }
def ingestOf (s : State) (sn seq : Nat) : Option IngestFrame :=
  (sensorOf s sn).frames.find? fun f => f.seq == seq
def updIngest (s : State) (sn seq : Nat) (g : IngestFrame → IngestFrame) : State :=
  updSensor s sn fun x => { x with frames := x.frames.map fun f => if f.seq == seq then g f else f }
/-- The open frame of a sensor. -/
def openIngest (s : State) (sn : Nat) : Option IngestFrame := (sensorOf s sn).frames.find? fun f => !f.closed

/-- Count in a check counter: kind, column (R113). -/
def countCheck (s : State) (sn kind col n : Nat) : State :=
  updSensor s sn fun x => { x with counters := modAt x.counters (4 * kind + col) (sat32 · n) }

/-- Set a bit of a frame's marks. -/
def orBit (m bit : Nat) : Nat := m ||| 2 ^ bit
def markFrame (s : State) (sn seq bit : Nat) : State :=
  updIngest s sn seq fun f => { f with marks := orBit f.marks bit }

/-- Streams in effect that code a sensor's frames: of a tap, and of renditions bound to it. -/
def effOf (s : State) (t : Nat) : Option CodecCfg := (codecStream s t).eff
def tapStreams (s : State) (sn : Nat) : List Nat :=
  (List.range 8).filter fun t => (effOf s t).any fun c => c.src == 0 && c.unit == sn
def proxyStreams (s : State) (sn : Nat) : List Nat :=
  (List.range 8).filter fun t => (effOf s t).any fun c => c.src == 1 && (rndOf s c.unit).sensor == some sn
/-- The stream in effect that codes a rendition. -/
def streamOfRnd (s : State) (r : Nat) : Option Nat :=
  (List.range 8).find? fun t => (effOf s t).any fun c => c.src == 1 && c.unit == r

/-! ## Regions of DRAM that are still used (R105, R203, R227, R240, R247) -/

/-- Addresses of the regions that frames, renderings and sinks hold. -/
def heldAddrs (s : State) : List Nat :=
  (s.img.sensors.flatMap fun x => x.afterRing.filterMap fun e =>
    if (ringFrames x).any fun f => f.cfg.base == e.1 then some e.2 else none) ++
  (s.img.sensors.flatMap fun x => (ringFrames x).flatMap fun f =>
    f.cfg.base :: (f.taps.filterMap fun t => t.map (·.base)) ++ (f.rnd0.map (·.base)).toList ++
      (f.sl.map (·.base)).toList ++ (f.statsCfg.map (·.base)).toList) ++
  ((List.range 6).flatMap fun r => match (rndOf s r).taken with
    | some t => [t.sl.base, (rndOf s r).base]
    | none => []) ++
  sinkAddrs s

/-- Regions of the tables of a parameter set. -/
def copiesOf (p : Params) : List Nat :=
  let bases (l : List (Option Copy)) : List Nat := l.filterMap fun c => c.map (·.base)
  bases (p.lin ++ [p.black.table] ++ p.colour.flatMap (fun c => [c.shaper, c.lattice, c.grid, c.tfTable]) ++
    p.place.map fun q => q.bind (·.kernel))

/-- Regions named by a shadow set, a pending set or a live generation. -/
def namedCopies (s : State) : List Nat :=
  (List.range 4).flatMap fun sn =>
    copiesOf (sensorOf s sn).shadow ++
    (match (sensorOf s sn).pendingSet with
      | some p => copiesOf p.params
      | none => []) ++
    (List.range 6).flatMap fun r => (liveOn s r sn).flatMap fun g => copiesOf g.1

/-- Free the table copies that nothing names and the released objects that nothing holds. -/
def sweep (s : State) : State :=
  let named := namedCopies s
  let held := heldAddrs s
  { s with mem.regions := s.mem.regions.filter fun r => match r.obj with
      | .copy => named.contains r.base
      | .dying => held.any fun a => r.base ≤ a && a < r.base + r.size
      | _ => true }

/-- Release an object's region once nothing holds it. -/
def retire (s : State) (obj : DramObj) : State :=
  sweep { s with mem.regions := s.mem.regions.map fun r => if r.obj == obj then { r with obj := .dying } else r }

/-- The state of memory after an object is released at once, for the check of an allocation that replaces it. -/
def canReplace (s : State) (obj : DramObj) (size : Nat) : Option Rej :=
  eNoCtx (size != 0 && (allocBase (retire s obj) size).isNone) (freeMib (retire s obj))

/-- Replace an object by a new region of `size` bytes, none for 0. -/
def realloc (s : State) (obj : DramObj) (size : Nat) : Nat × State :=
  if size = 0 then (0, retire s obj) else alloc (retire s obj) obj size

/-! ## Slate items (R115, R116) -/

/-- Missing lines of exposure e. -/
def missingLines (f : IngestFrame) (e : Nat) : Nat :=
  ((List.range f.cfg.height).filter fun y => !lineGot f e y).length
/-- The highest received line of exposure e, plus 1; 0 for none. -/
def gotEnd (f : IngestFrame) (e : Nat) : Nat :=
  match (List.range f.cfg.height).reverse.find? fun y => lineGot f e y with
  | some y => y + 1
  | none => 0
def exposuresOf (f : IngestFrame) : List Nat := List.range f.cfg.exposures
def totalMissing (f : IngestFrame) : Nat := ((exposuresOf f).map (missingLines f)).sum

/-- The latest record of a queue. -/
def lastRecord (s : State) (qi : Nat) : List Byte :=
  match (s.queues.getD qi {}).recs.getLast? with
  | some r => recordBytes r
  | none => []

/-- Post a frame's item. -/
def postSlate (s : State) (sn : Nat) (f : IngestFrame) : State :=
  let q := 4 + 3 * sn + 2
  let s1 := postFifo s sn 2 0x0360 (time64 f.fs) (leBytes 4 f.seq ++ leBytes 4 f.num ++ leBytes 4 f.marks ++
    leBytes 2 (min (totalMissing f) 0xFFFF) ++ leBytes 2 (min f.extra 0xFFFF)) true
  let s2 := postFifo s1 sn 2 0x0361 f.closeTime (leBytes 2 (min f.crcFails 0xFFFF) ++
    leBytes 2 (min f.hdrDiscards 0xFFFF) ++ leBytes 2 f.gen ++
    leBytes 2 (packBits ((exposuresOf f).map fun e => gotEnd f e != 0)) ++
    leBytes 4 (if f.slot.isSome then f.embBytes else 0)) false
  let s3 := updIngest s2 sn f.seq fun f => { f with posted := true }
  recSlate s3 sn f.seq (lastRecord s1 q ++ lastRecord s2 q)

/-- Post the items that are final, in `ingest_seq` order; frames that are done leave the model's list. -/
def postItems (sn : Nat) : Nat → State → State
  | 0, s => s
  | k + 1, s =>
    match (sensorOf s sn).frames.find? fun f => !f.posted with
    | some f => if f.itemReady then postItems sn k (postSlate s sn f) else s
    | none => s

def flushItems (s : State) (sn : Nat) : State :=
  let s1 := postItems sn (sensorOf s sn).frames.length s
  updSensor s1 sn fun x => { x with frames := x.frames.filter fun f => !(f.posted && (f.released || f.slot.isNone)) }

def itemFinal (s : State) (sn seq : Nat) : State :=
  flushItems (updIngest s sn seq fun f => { f with itemReady := true }) sn

/-! ## Buffers (R198, R237, R247) -/

/-- `seq_end` of a buffer not consistent, then `seq_begin` and `state` 0 (R199, R237); the reserved bytes of its header,
as offset and length, and of its trailer read 0 (R198, R237, R247). -/
def beginBuffer (s : State) (buf trailer seq : Nat) (reserved : List (Nat × Nat)) : State :=
  let s1 := dramWrite (dramWrite s trailer ([255, 255, 255, 255] ++ zeros 252)) buf (leBytes 4 seq ++ [0])
  reserved.foldl (fun s r => dramWrite s (buf + r.1) (zeros r.2)) s1
def slReserved : List (Nat × Nat) := [(0x26, 218)]
def rndReserved : List (Nat × Nat) := [(0x22, 2), (0x28, 216)]
def tapReserved : List (Nat × Nat) := [(0x0A, 2), (0x22, 2), (0x28, 216)]

/-- The final header, then `seq_end` (R200). -/
def endBuffer (s : State) (buf trailer seq : Nat) (header : List Byte) : State :=
  dramWrite (dramWrite s buf ((header ++ zeros 256).take 256)) trailer (leBytes 4 seq ++ zeros 252)

/-- A dropped frame's buffer: `state` 2, then `seq_end`; the rest of it is undefined. -/
def dropBuffer (s : State) (buf trailer seq : Nat) : State :=
  dramWrite (dramWrite s (buf + 4) [2]) trailer (leBytes 4 seq)

def slStride (c : SensConfig) (scale : Nat) : Nat := ceilDiv (8 * c.width / 2 ^ scale) 256 * 256
def slBytes (c : SensConfig) (scale : Nat) : Nat :=
  ceilDiv (0x200 + c.height / 2 ^ scale * slStride c scale) 65536 * 65536
def slBufAddr (c : SensConfig) (l : SlCfg) (n : Nat) : Nat := l.base + n * slBytes c l.scale
def slTrailer (c : SensConfig) (l : SlCfg) (n : Nat) : Nat :=
  slBufAddr c l n + 0x100 + c.height / 2 ^ l.scale * slStride c l.scale

def rnd0BufAddr (c : SensConfig) (l : Rnd0Cfg) (n : Nat) : Nat :=
  l.base + n * layoutBufBytes l.layout c.width c.height
def rnd0Trailer (c : SensConfig) (l : Rnd0Cfg) (n : Nat) : Nat :=
  rnd0BufAddr c l n + 0x100 + c.height * layoutStride l.layout c.width

def tapStride (c : SensConfig) : Nat := ceilDiv (2 * c.width) 256 * 256
def tapBytes (c : SensConfig) (point : Nat) : Nat :=
  ceilDiv (0x200 + tapPlanes c point * c.height * tapStride c) 65536 * 65536
def tapBuf (c : SensConfig) (t : Tap) (point slot : Nat) : Nat := t.base + slot * tapBytes c point
def tapTrailer (c : SensConfig) (t : Tap) (point slot : Nat) : Nat :=
  tapBuf c t point slot + 0x100 + tapPlanes c point * c.height * tapStride c

/-! ## Sensor events -/

/-- `EV_SENS_STOPPED` and `EV_SENS_POWER` set one leaf. DESIGN CHOICE (log entry 209): a sensor that has received no frame
gives 0xFFFF_FFFF as its last `ingest_seq`, the value R118 gives for `EV_SENS_LINK` alone. -/
def stoppedEvent (s : State) (sn : Nat) : State :=
  setLeaf (postEvent s 0x0304 sn (leBytes 4 ((sensorOf s sn).seq + 2 ^ 32 - 1))) 3 (16 + sn)
def sensPowerEvent (s : State) (sn on result : Nat) : State :=
  setLeaf (postEvent s 0x0302 sn (leBytes 1 on ++ leBytes 1 result)) 3 (16 + sn)

/-- `EV_SENS_XFER` of a deferred transfer. -/
def xferEvent (s : State) (x : BusXfer) (result written : Nat) : State :=
  setLeaf (postEvent s 0x0303 x.bus (leBytes 2 x.ticket ++ leBytes 1 result ++ [0] ++ leBytes 2 written)) 3
    (20 + x.bus)

/-- Deferred transfers that have not started are cancelled (R121). -/
def cancelDeferred (s : State) (sn : Nat) : State :=
  (sensorOf s sn).deferred.foldl (fun s x => xferEvent s x 5 0) (updSensor s sn fun x => { x with deferred := [] })

/-- `EV_FE_CAL_DONE`, which frees the accumulator (R176). -/
def captureEnd (s : State) (sn result classed clamped : Nat) : State :=
  match (sensorOf s sn).capture with
  | none => s
  | some c =>
    let s1 := release (updSensor s sn fun x => { x with capture := none }) (.accum sn)
    notify s1 0x0502 sn (leBytes 1 c.kind ++ leBytes 1 result ++ leBytes 2 c.counted ++ leBytes 2 c.skipped ++
      leBytes 1 c.handle ++ [0] ++ leBytes 4 classed ++ leBytes 4 clamped) (4 + sn)

/-- A sensor leaves streaming: what waits for its frames ends (R121, R176). -/
def leaveStreaming (s : State) (sn : Nat) : State :=
  let s0 := { s with time.cadences := s.time.cadences.set (16 + sn) {} }
  let s1 := cancelDeferred (updSensor s0 sn fun x => { x with streaming := false, stopping := false }) sn
  let s2 := if ((sensorOf s1 sn).capture.any fun c => !c.finalPass) then captureEnd s1 sn 2 0 0 else s1
  stoppedEvent s2 sn

/-! ## Dropped frames (R111, R137, R170, R200, R238, R641) -/

/-- Bands of a frame on engines. -/
def bandsRunning (s : State) (sn seq : Nat) : Nat :=
  (s.img.sched.engines.filter fun e => e.running.any fun b => b.sensor == sn && b.seq == seq).length

/-- The outputs of a dropped frame take their final state once no band of it runs. -/
def dropOutputs (s : State) (sn seq : Nat) : State :=
  match ingestOf s sn seq with
  | none => s
  | some f =>
    if f.drop.isNone || f.dropFinished || 0 < bandsRunning s sn seq then s
    else
      let slot := f.slot.getD 0
      let s1 := updIngest s sn seq fun f => { f with dropFinished := true }
      let s2 := match f.sl, f.slBuf with
        | some l, some n =>
          let s2 := updSensor (dropBuffer s1 (slBufAddr f.cfg l n) (slTrailer f.cfg l n) seq) sn fun x => { x with
            slBufs := modAt x.slBufs n fun b => if b.seq = seq then { b with state := 2 } else b }
          notify s2 0x0601 sn (leBytes 4 seq ++ leBytes 1 n ++ [2] ++ leBytes 2 f.gen ++ leBytes 4 f.slFallback ++
            leBytes 4 f.slClamps) sn
        | _, _ => s1
      let s3 := match f.rnd0, f.rnd0Buf with
        | some l, some n => dropBuffer s2 (rnd0BufAddr f.cfg l n) (rnd0Trailer f.cfg l n) seq
        | _, _ => s2
      let points := (List.range 4).filter fun i => (f.taps.getD i none).isSome
      let s4 := points.foldl (fun s i => match f.taps.getD i none with
        | some t => dropBuffer s (tapBuf f.cfg t (i + 1) slot) (tapTrailer f.cfg t (i + 1) slot) seq
        | none => s) s3
      let s5 := if points.isEmpty then s4
        else setLeaf (postEvent s4 0x0710 sn (leBytes 4 seq ++ leBytes 1 slot ++
          leBytes 1 (points.map (2 ^ ·)).sum ++ [1, 0] ++ leBytes 2 f.gen ++ [0, 0] ++ leBytes 4 f.tapClamps.sum)) 7
          (12 + sn)
      if f.statsCfg.isSome then
        notify s5 0x0501 sn (leBytes 4 seq ++ [0xFF] ++ leBytes 1 (boolNat (f.first || f.marks.testBit 11) + 2) ++
          leBytes 2 f.gen ++ leBytes 4 f.stats.saturated ++ leBytes 4 f.stats.dynamics) sn
      else s5

/-- The markers a dropped frame leaves in the streams that would have coded it, and in no other (R137, R293,
R304). -/
def dropMarkers (s : State) (sn : Nat) (f : IngestFrame) : State :=
  (List.range 8).foldl (fun s t =>
    if (codecStream s t).frames.any fun g => g.sensor == sn && g.seq == f.seq then
      codecMarker s t f.seq (time64 f.fs) f.gen 1
    else s) s

/-- A frame is dropped: its unissued bands are withdrawn, nothing takes it, and its item is final if it has
closed (R111, R137). -/
def dropFrame (s : State) (sn seq cause : Nat) : State :=
  match ingestOf s sn seq with
  | none => s
  | some f =>
    let s1 := updIngest s sn seq fun f => { f with drop := some cause }
    let s2 := { s1 with
      img.sched.returned := s1.img.sched.returned.filter fun b => !(b.sensor == sn && b.seq == seq) }
    let s3 := dropOutputs (dropMarkers s2 sn f) sn seq
    if f.closed then itemFinal s3 sn seq else s3

/-! ## Closing (R109, R111, R112) -/

/-- The marks a close adds (R111). A plane that received no line lacks every line above the highest it received: it
counts toward `SHORT` and not toward `LINE_MISSING`, which R111 leaves open (DESIGN CHOICE, log 178). -/
def closeMarks (f : IngestFrame) : Nat :=
  let es := exposuresOf f
  let short := es.any fun e => gotEnd f e < f.cfg.height
  let gaps := es.any fun e => f.cfg.height - gotEnd f e < missingLines f e
  let drop := es.any fun e => f.cfg.height * f.cfg.shortLimit / 1000 < missingLines f e
  boolNat short + 4 * boolNat gaps + 256 * boolNat drop

/-- Leaves and counters of a close (R113, R117). -/
def closeCounts (s : State) (sn : Nat) (f : IngestFrame) : State :=
  let m := f.marks
  let has (l : List Nat) : Bool := l.any m.testBit
  let s1 := if has [3, 4, 5, 7] then setLeaf s 3 (4 * sn) else s
  let s2 := if has [0, 1] then setLeaf s1 3 (4 * sn + 1) else s1
  let s3 := if has [8] then setLeaf s2 3 (4 * sn + 2) else s2
  let s4 := if has [0] then countCheck s3 sn 11 3 1 else s3
  let s5 := if has [1] then countCheck s4 sn 12 3 1 else s4
  if has [8] && !has [10] then countCheck s5 sn 13 3 1 else s5

/-- The open frame of a sensor closes, with further marks. -/
def closeFrame (s : State) (sn extra : Nat) : State :=
  match openIngest s sn with
  | none => s
  | some f =>
    let m := f.marks ||| extra ||| closeMarks f
    let m := if f.first || m.testBit 0 || m.testBit 2 then orBit m 11 else m
    let f1 := { f with closed := true, closeTime := classS s, marks := m }
    let s1 := closeCounts (updIngest s sn f.seq fun _ => f1) sn f1
    let s2 := if f.drop.isSome then itemFinal s1 sn f.seq
      else if m.testBit 8 then dropFrame s1 sn f.seq 0
      else s1
    if (sensorOf s2 sn).stopping then leaveStreaming s2 sn else s2

/-! ## Colour banks (R223 to R226) -/

/-- Colour engine instances a sensor's commit resolves. -/
def rndsOfSensor (s : State) (sn : Nat) : List Nat :=
  0 :: ((List.range 6).drop 1).filter fun r => (rndOf s r).sensor == some sn
def bankOf (s : State) (r b : Nat) : Bank := (s.img.banks.getD r []).getD b {}
def setBank (s : State) (r b : Nat) (img : ColImage) : State :=
  { s with img.banks := modAt s.img.banks r fun l => modAt l b fun _ => { image := some img } }

/-- A bank that no live generation holds and no waiting set names. -/
def bankFree (s : State) (r b : Nat) : Bool :=
  (bankHolders s r b).isEmpty &&
    !((List.range 4).any fun sn => (sensorOf s sn).pendingSet.any fun p => p.banks.getD r none == some b)

/-- Sensors with an image of an engine still to be written: that of the active set, where `SENS_CONFIG` found no bank,
or that of the pending set. -/
def lacksActive (s : State) (r sn : Nat) : Bool :=
  (sensorOf s sn).cfg.isSome && ((sensorOf s sn).banks.getD r none).isNone
def lacksPending (s : State) (r sn : Nat) : Bool :=
  (sensorOf s sn).pendingSet.any fun p => (p.banks.getD r none).isNone
def bankWaiters (s : State) (r : Nat) : List Nat :=
  (List.range 4).filter fun sn => (rndsOfSensor s sn).contains r && (lacksActive s r sn || lacksPending s r sn)

/-- The place of a waiting sensor's image in the order of the commits. -/
def waitOrder (s : State) (r sn : Nat) : Nat :=
  if lacksActive s r sn then (sensorOf s sn).order else ((sensorOf s sn).pendingSet.map (·.order)).getD 0

/-- The bank an image goes to at a commit, with the write it needs (R225); none where neither is free, or a free one
is being written for an earlier commit, other than `me`'s. -/
def resolveBank (s : State) (r : Nat) (img : ColImage) (me : Option Nat) : Option Nat × State :=
  let free := [0, 1].filter (bankFree s r)
  let waits := ((bankWaiters s r).filter fun sn => some sn != me).length
  match [0, 1].find? fun b => (bankOf s r b).image == some img && !(free.take waits).contains b with
  | some b => (some b, s)
  | none => match (free.drop waits).head? with
    | some b => (some b, setBank s r b img)
    | none => (none, s)

/-- Resolve the images of a parameter set (R225). -/
def resolveBanks (s : State) (rs : List Nat) (p : Params) (me : Option Nat) : List (Option Nat) × State :=
  rs.foldl (fun acc r =>
    let x := resolveBank acc.2 r (colImage (p.colour.getD r {})) me
    (acc.1.set r x.1, x.2)) (List.replicate 6 none, s)

/-- The sensor whose image of an engine is to be written next: that of the oldest commit. -/
def bankWaiter (s : State) (r : Nat) : Option Nat :=
  (bankWaiters s r).foldl (fun best sn => match best with
    | none => some sn
    | some b => if waitOrder s r sn < waitOrder s r b then some sn else some b) none

/-! ## Column term (R155, R156) -/

/-- The term a tracking run starts from. -/
def runStart (c : SensConfig) (b : Black) : List Nat :=
  match b.table with
  | some t => t.vals
  | none => List.replicate c.width 0

/-! ## Latch (R130, R132, R226) -/

/-- A pending set meets an accepted FS that opens frame `seq`. -/
def latch (s : State) (sn seq : Nat) (c : SensConfig) : State :=
  match (sensorOf s sn).pendingSet with
  | none => s
  | some p =>
    match (rndsOfSensor s sn).find? fun r => (p.banks.getD r none).isNone with
    | none =>
      let track := p.newRun && p.params.black.colMode == 2
      let s1 := updSensor s sn fun x => { x with
        gen := (x.gen + 1) % 65536, active := p.params, banks := p.banks, pendingSet := none
        run := if track then x.run + 1 else x.run
        colTerm := if track then runStart c p.params.black else x.colTerm }
      notify (sweep s1) 0x0403 sn (leBytes 4 seq ++ leBytes 2 (sensorOf s1 sn).gen ++ leBytes 2 (min p.deferrals 0xFFFF))
        (8 + sn)
    | some r =>
      let post := p.bankWaits + 1 == 16 && !p.waitPosted
      let s1 := updSensor s sn fun x => { x with
        latchDeferred := sat32 x.latchDeferred 1
        pendingSet := some { p with
          deferrals := p.deferrals + 1, bankWaits := p.bankWaits + 1, waitPosted := p.waitPosted || post } }
      let mask (b : Nat) : Nat := ((bankHolders s r b).map (2 ^ ·)).sum
      if post then
        notify s1 0x0610 sn (leBytes 1 r ++ [0] ++ leBytes 2 ((sensorOf s sn).gen + 1) ++ leBytes 1 (mask 0) ++
          leBytes 1 (mask 1)) (8 + sn)
      else s1

/-! ## Scheduler (R126, R134, R136, R138, R533) -/

def healthyEngines (s : State) : Nat := stripeActive s.fuse - s.img.sched.lost.length
/-- Capacity in sixteenths of an engine. -/
def capacity16 (s : State) : Nat := healthyEngines s * s.therm.allow

/-- A rendition engine's credit now, in sixteenths of a PIPE clock: what it has grown to since it was last settled, held
to the bound while no rendering draws on it (R533). -/
def rndCredit (s : State) (x : Rendition) : Int :=
  if x.taken.isSome then x.credit + (s.therm.allow * (now s - x.creditAt) : Nat)
  else grownCredit x.credit x.creditAt s.therm.allow 122880 (now s)
def settleRnds (s : State) : State :=
  { s with img.rnds := s.img.rnds.map fun x => { x with credit := rndCredit s x, creditAt := now s } }

/-- The scheduler's credit now, in sixteenths of a PIPE clock. -/
def schedCredit (s : State) : Int :=
  grownCredit s.img.sched.credit s.img.sched.creditAt (capacity16 s) (healthyEngines s * 122880) (now s)

/-- Bring the credit up to the present before the rate or the cap changes. -/
def settleCredit (s : State) : State :=
  { s with
    img.sched.credit := schedCredit s
    img.sched.creditAt := now s }

/-- PIPE clocks as a time. -/
def clocksTime (k : Int) : Int := k * 2 ^ 31 / 9375

/-- Pending frames: in a slot, not dropped, not complete, with a band left. -/
def pendingFrames (s : State) : List (Nat × IngestFrame) :=
  (List.range 4).flatMap fun sn =>
    ((ringFrames (sensorOf s sn)).filter fun f => f.drop.isNone && !f.complete).map fun f => (sn, f)

/-- Order of R134 among frames: deadline, higher class, lower sensor, lower sequence number. -/
def frameBefore (a b : Nat × IngestFrame) : Bool :=
  a.2.deadline < b.2.deadline || (a.2.deadline == b.2.deadline &&
    (b.2.cls < a.2.cls || (a.2.cls == b.2.cls &&
      (a.1 < b.1 || (a.1 == b.1 && a.2.seq ≤ b.2.seq)))))

def totalBands (c : SensConfig) : Nat := stripeCount c * bandRows c

/-- Clocks of the bands of a frame that are not complete; a running band counts what is left of it. -/
def remainingWork (s : State) (sn : Nat) (f : IngestFrame) : Nat :=
  ((List.range (stripeCount f.cfg)).flatMap fun k => (List.range (bandRows f.cfg)).map fun b =>
    if f.bandsDone.contains (k, b) then 0
    else
      let t := bandTime f.cfg (stripeWidth f.cfg k) (bandLines f.cfg b)
      match s.img.sched.engines.find? fun e => e.running.any fun x =>
          x.sensor == sn && x.seq == f.seq && x.stripe == k && x.row == b with
      | some e => t - (now s - (e.running.map (·.start)).getD 0)
      | none => t).sum

/-- `EV_SCHED_DROP` with its leaf, and the drop itself (R137). -/
def schedDrop (s : State) (sn : Nat) (f : IngestFrame) (reason late : Nat) : State :=
  let s1 := markFrame (updSensor s sn fun x => { x with framesDropped := sat32 x.framesDropped 1 }) sn f.seq 9
  let s2 := notify s1 0x0401 sn (leBytes 4 f.seq ++ leBytes 1 reason ++ leBytes 1 f.cls ++
    leBytes 2 (min f.bandsDone.length 0xFFFF) ++ leBytes 4 late ++ leBytes 2 (capacity16 s)) sn
  dropFrame s2 sn f.seq 1

/-- Prefer victim b over a: lower class, later deadline, higher sensor, later frame. -/
def worseVictim (a b : Nat × IngestFrame) : Bool :=
  b.2.cls < a.2.cls || (b.2.cls == a.2.cls && (a.2.deadline < b.2.deadline ||
    (b.2.deadline == a.2.deadline && (a.1 < b.1 || (a.1 == b.1 && a.2.seq < b.2.seq)))))

/-- The first frame that fails the check, with the frames at or before it and the lateness in µs. -/
def firstLate (s : State) : Nat → List (Nat × IngestFrame) → List (Nat × IngestFrame) →
    Option (List (Nat × IngestFrame) × Nat)
  | _, _, [] => none
  | work, before, f :: l =>
    let w := work + remainingWork s f.1 f.2
    let cap := capacity16 s
    let slack := f.2.deadline - viewSNow s
    let late := if cap = 0 then decide (0 < w) else decide (slack * 9375 * cap < w * 16 * 2 ^ 31)
    let us : Nat := if cap = 0 then 0xFFFFFFFF
      else min ((w * 16 * 2 ^ 31 - slack * 9375 * cap) * 1000000 / (9375 * cap * 2 ^ 48 : Nat)).toNat 0xFFFFFFFF
    if late then some (before ++ [f], us) else firstLate s w (before ++ [f]) l

/-- The overload check (R136), until every pending frame passes. -/
def overloadLoop : Nat → State → State
  | 0, s => s
  | k + 1, s =>
    match firstLate s 0 [] ((pendingFrames s).mergeSort frameBefore) with
    | none => s
    | some ([], _) => s
    | some (a :: l, us) =>
      let v := l.foldl (fun v x => if worseVictim v x then x else v) a
      overloadLoop k (schedDrop s v.1 v.2 0 us)

def overloadCheck (s : State) : State := overloadLoop (pendingFrames s).length s

/-- The slack threshold of a configuration in PIPE clocks (R138). -/
def fullBandTime (c : SensConfig) : Nat := bandTime c (widestStripe c) 32
def slackThreshold (c : SensConfig) : Nat := max (2 * fullBandTime c) 10752
/-- A time in ns, rounded down and held within 0 and 32 bits, a rounding R138 leaves open (DESIGN CHOICE, log 179). -/
def timeNs (t : Int) : Nat := min (t * 1000000000 / 2 ^ 48).toNat 0xFFFFFFFF

/-! ## Bands (R108, R125, R134) -/

/-- Every line that a band reads has been received, or the frame has closed (R108). -/
def bandReady (f : IngestFrame) (b : Nat) : Bool :=
  f.closed || (32 * b + 40 ≤ f.cfg.height && (exposuresOf f).all fun e =>
    (List.range 40).all fun i => lineGot f e (32 * b + i))

def bandIssued (s : State) (x : Band) : Bool :=
  s.img.sched.engines.any fun e => e.running.any fun y =>
    y.sensor == x.sensor && y.seq == x.seq && y.stripe == x.stripe && y.row == x.row

/-- Ready bands of a frame that are neither complete nor running, in order of band and stripe. -/
def readyBands (s : State) (sn : Nat) (f : IngestFrame) : List Band :=
  (List.range (bandRows f.cfg)).flatMap fun b => (List.range (stripeCount f.cfg)).filterMap fun k =>
    let x : Band := { sensor := sn, seq := f.seq, stripe := k, row := b }
    if bandReady f b && !f.bandsDone.contains (k, b) && !bandIssued s x then some x else none

/-- The band to issue next: a returned band first (R140), then the order of R134. -/
def nextBand (s : State) : Option Band :=
  match s.img.sched.returned with
  | b :: _ => some b
  | [] => (((pendingFrames s).mergeSort frameBefore).flatMap fun f => readyBands s f.1 f.2).head?

/-- Issue a band to a physical engine (R134, R533). -/
def issueBand (s : State) (p : Nat) (b : Band) : State :=
  match ingestOf s b.sensor b.seq with
  | none => s
  | some f =>
    let s1 := settleCredit s
    { s1 with
      img.sched.credit := s1.img.sched.credit -
        16 * bandTime f.cfg (stripeWidth f.cfg b.stripe) (bandLines f.cfg b.row)
      img.sched.returned := s1.img.sched.returned.filter fun x =>
        !(x.sensor == b.sensor && x.seq == b.seq && x.stripe == b.stripe && x.row == b.row)
      img.sched.engines := modAt s1.img.sched.engines p fun e => { e with running := some { b with start := now s } } }

end Sys2Proof.Machine
end

