-- ==== Sys2Proof/Machine/BandOps.lean ====
section
/-! DEFINITION. What a band writes and counts, and what its frame's last band completes (chapters 06 to 10).
A band's output takes effect at its completion, in one update (R170). -/

namespace Sys2Proof.Machine

/-! ## Poisoned input (R594) -/

/-- DRAM as an engine reads it for a frame: samples of a poisoned burst read `pedestal`, map entries
0x4000_0000. -/
def engineView (s : State) (f : IngestFrame) : Mem :=
  match f.slot with
  | none => s.dram
  | some slot =>
    let d1 := (poisonIn s (wordAddr f.cfg slot 0 0 0) (bitmapOffset f.cfg)).foldl (fun d p =>
      memPutBytes d p ((List.replicate 16 (leBytes 2 f.cfg.pedestal)).flatten)) s.dram
    match f.params.defect.map.bind fun h => s.img.maps.getD h none with
    | some m => (poisonIn s m.base (mapBytes m.width m.height)).foldl (fun d p =>
        memPutBytes d p ((List.replicate 8 (leBytes 4 0x40000000)).flatten)) d1
    | none => d1

/-- A photosite of which a plane's sample lies in a poisoned burst. -/
def sitePoisoned (s : State) (f : IngestFrame) (x y : Nat) : Bool :=
  match f.slot with
  | none => false
  | some slot => !s.mem.poison.isEmpty && (exposuresOf f).any fun e =>
      s.mem.poison.contains (burstOf (wordAddr f.cfg slot e y x))

/-- Poisoned bursts that a band reads: its lines of every plane with both aprons, and their map entries. -/
def bandPoison (s : State) (f : IngestFrame) (b : Band) : List Nat :=
  match f.slot with
  | none => []
  | some slot =>
    let x0 := stripeStart f.cfg b.stripe - 24
    let x1 := min f.cfg.width (stripeStart f.cfg (b.stripe + 1) + 24)
    let ys := (List.range 40).filterMap fun i => if 32 * b.row + i < f.cfg.height then some (32 * b.row + i) else none
    let planes := ys.flatMap fun y => (exposuresOf f).flatMap fun e =>
      poisonIn s (wordAddr f.cfg slot e y x0) (2 * (x1 - x0))
    let map := match f.params.defect.map.bind fun h => s.img.maps.getD h none with
      | some m => ys.flatMap fun y => poisonIn s (m.base + y * mapStride m.width + 4 * x0) (4 * (x1 - x0))
      | none => []
    (planes ++ map).eraseDups

/-- Nodes of a deep lattice that a poisoned burst holds. -/
def badNode (s : State) (c : Colour) : Nat → Bool :=
  match c.latticeN == 129, c.lattice with
  | true, some l => fun n => s.mem.poison.contains (burstOf (l.base + Config.latticeOffset n))
  | _, _ => fun _ => false

/-! ## One photosite -/

/-- What the front end finds at a photosite. -/
structure Site where
  m : Nat
  saturated : Bool
  excluded : Nat
  v4 : Nat
  v5 : Nat
  repair : Repair
  /-- on a line missing in a configured plane, or poisoned -/
  missing : Bool
  /-- left out of statistics (R166) -/
  left : Bool
deriving DecidableEq, Repr

def siteOf (s : State) (d : Mem) (f : IngestFrame) (x y : Nat) : Site :=
  let b := f.params.black
  let m := stage2 d f x y
  let r := stage5 d s.img.maps f x y
  let missing := ((exposuresOf f).any fun e => !lineGot f e y) || sitePoisoned s f x y
  { m := m.1, saturated := m.2.1, excluded := m.2.2, v4 := r.1, v5 := r.2.1, repair := r.2.2, missing := missing
    left := missing || (mapEntry d s.img.maps f x y).testBit 0 ||
      (b.rowFirst ≤ x && x < b.rowFirst + b.rowCount) ||
      (b.colMode == 2 && b.obFirst ≤ y && y < b.obFirst + b.obCount) }

/-- `pflags` of a photosite, but for the conversion clamp (R197). -/
def siteFlags (t : Site) (fallback : Nat) : Nat :=
  packBits [t.saturated, t.repair == .fixed, t.repair == .dynamic, t.repair == .unrepaired, t.missing,
    t.excluded != 0, fallback != 0]

/-! ## Statistics (R166 to R170) -/

/-- The bin of a value (R167). -/
def histBin (e0 m : Nat) : Nat :=
  let e := m / 65536 % 128
  if F24.val m ≤ 0 || e < e0 then 0 else min ((e - e0) * 16 + m % 65536 / 4096) 1023

def addBin (h : List (Nat × Nat)) (b : Nat) : List (Nat × Nat) :=
  if h.any fun e => e.1 == b then h.map fun e => if e.1 == b then (b, sat32 e.2 1) else e else h ++ [(b, 1)]

def addZone (z : List (Nat × Zone)) (n : Nat) (g : Zone → Zone) : List (Nat × Zone) :=
  if z.any fun e => e.1 == n then z.map fun e => if e.1 == n then (n, g e.2) else e else z ++ [(n, g {})]

/-- A value as a zone sum takes it: clamped to [0, 2^31), in units of 2^-24 (R169). -/
def zoneUnits (m : Nat) : Nat := min ((F24.val m).toNat / 2 ^ 54) (2 ^ 55 - 1)

/-- The zone of a photosite. -/
def zoneOf (c : SensConfig) (x y : Nat) : Nat := 64 * (32 * y / c.height) + 64 * x / c.width

/-- A photosite's part in a frame's statistics. -/
def addSite (f : IngestFrame) (x y : Nat) (t : Site) (z : Stats) : Stats :=
  let role := roleOf f.params.mosaic (colourIndex f.params.mosaic x y)
  let e0 := (f.statsCfg.map (·.e0)).getD 31
  let z1 := { z with
    motion := sat32 z.motion t.excluded
    statics := sat32 z.statics (boolNat (t.repair == .fixed))
    dynamics := sat32 z.dynamics (boolNat (t.repair == .dynamic))
    unrepaired := sat32 z.unrepaired (boolNat (t.repair == .unrepaired)) }
  if t.left then z1
  else { z1 with
    saturated := sat32 z1.saturated (boolNat t.saturated)
    hist := if role < 3 then addBin z1.hist (1024 * role + histBin e0 t.m) else z1.hist
    zones := addZone z1.zones (zoneOf f.cfg x y) fun q => { q with
      counts := modAt q.counts role (· + 1), sums := modAt q.sums role (· + zoneUnits t.m)
      sat := sat32 q.sat (boolNat t.saturated), used := sat32 q.used 1 } }

/-- The luma sample of the block at an even position (R168). -/
def addLuma (f : IngestFrame) (site : Nat → Nat → Site) (x y : Nat) (z : Stats) : Stats :=
  let ps := [(x, y), (x + 1, y), (x, y + 1), (x + 1, y + 1)]
  match f.statsCfg with
  | none => z
  | some c =>
    if ps.any fun p => (site p.1 p.2).left then z
    else
      let l := F24.sum (ps.map fun p =>
        F24.mul (c.weights.getD (roleOf f.params.mosaic (colourIndex f.params.mosaic p.1 p.2)) 0) (site p.1 p.2).m)
      { z with hist := addBin z.hist (3072 + histBin c.e0 l) }

/-- Every luma block of a frame's band lies inside it, so a band adds whole blocks. -/
def bandXs (c : SensConfig) (k : Nat) : List Nat := (List.range (stripeWidth c k)).map (stripeStart c k + ·)
def bandYs (c : SensConfig) (b : Nat) : List Nat :=
  (List.range (ownedEnd c b - ownedFirst b)).map (ownedFirst b + ·)

/-- The statistics a band adds (R166, R170). -/
def bandStats (d : Mem) (f : IngestFrame) (site : Nat → Nat → Site) (b : Band) (z0 : Stats) : Stats :=
  (bandYs f.cfg b.row).foldl (fun z y =>
    let z1 := if b.stripe = 0 then { z with
        lines := z.lines + boolNat ((exposuresOf f).all fun e => lineGot f e y)
        rowClamped := sat32 z.rowClamped (boolNat (rowTerm d f y).2) } else z
    (bandXs f.cfg b.stripe).foldl (fun z x =>
      let z1 := addSite f x y (site x y) z
      if x % 2 = 0 && y % 2 = 0 then addLuma f site x y z1 else z1) z1) z0

/-! ## Taps (R246) -/

/-- A tap sample, and whether it was clamped. -/
def tapSample (t : Tap) (v : Nat) : Nat × Bool :=
  if t.format = 1 then toHalf v
  else
    let r := roundEvenInt (F24.val (F24.mul v t.gain)) (2 ^ 78) + t.offset
    ((clampInt r 0 65535).toNat, r < 0 || 65535 < r)

/-- The sample of a point's plane at a photosite. -/
def tapAt (d : Mem) (f : IngestFrame) (site : Nat → Nat → Site) (t : Tap) (point plane x y : Nat) : Nat × Bool :=
  let missing := if point = 1 then !lineGot f plane y else (exposuresOf f).all fun e => !lineGot f e y
  if missing then (if t.format = 0 then f.cfg.pedestal else 0, false)
  else
    let q := site x y
    tapSample t (if point = 1 then linearise f plane (wordAt d f plane y x)
      else if point = 2 then q.m else if point = 3 then q.v4 else q.v5)

/-- A band's part of a tap: the DRAM after it, and the samples clamped. -/
def bandTap (d : Mem) (f : IngestFrame) (site : Nat → Nat → Site) (b : Band) (slot i : Nat) (acc : Mem × Nat) :
    Mem × Nat :=
  match f.taps.getD i none with
  | none => acc
  | some t =>
    (List.range (tapPlanes f.cfg (i + 1))).foldl (fun acc e => (bandYs f.cfg b.row).foldl (fun acc y =>
      let l := (bandXs f.cfg b.stripe).map fun x => tapAt d f site t (i + 1) e x y
      let a := tapBuf f.cfg t (i + 1) slot + 0x100 + e * f.cfg.height * tapStride f.cfg + y * tapStride f.cfg +
        2 * stripeStart f.cfg b.stripe
      (memPutBytes acc.1 a (l.flatMap fun v => leBytes 2 v.1), acc.2 + (l.filter (·.2)).length)) acc) acc

/-! ## Scene-linear frame and RND0 (R195, R197, R235, R238) -/

/-- A pixel of the scene-linear frame: its word, its flags, and the values clamped. -/
def slPixel (c : Dm) (site : Nat → Nat → Site) (scale X Y : Nat) : Nat × Nat × Nat :=
  let n := 2 ^ scale
  let ps := (List.range n).flatMap fun j => (List.range n).map fun i => (n * X + i, n * Y + j)
  let rgb := ps.map fun (p : Nat × Nat) => c.rgb ((p.1 : Int), (p.2 : Int))
  let mean (k : Nat) : Nat × Bool := toHalf (F24.shr (F24.sum (rgb.map fun v => v.1.getD k 0)) (2 * scale))
  let h := [mean 0, mean 1, mean 2]
  let clamps := (h.filter (·.2)).length
  let flags := (ps.zip rgb).foldl (fun a p => a ||| siteFlags (site p.1.1 p.1.2) p.2.2) 0 ||| 128 * boolNat (clamps != 0)
  (packFields 16 (h.map (·.1) ++ [flags]), flags, clamps)

/-- A band's part of the scene-linear frame: DRAM, clamps and flags. -/
def bandSl (c : Dm) (site : Nat → Nat → Site) (b : Band) (acc : Mem × Nat × Nat) : Mem × Nat × Nat :=
  match c.f.sl, c.f.slBuf with
  | some l, some n =>
    let k := 2 ^ l.scale
    ((bandYs c.f.cfg b.row).filter (· % k == 0)).foldl (fun acc y =>
      let ps := ((bandXs c.f.cfg b.stripe).filter (· % k == 0)).map fun x => slPixel c site l.scale (x / k) (y / k)
      let a := slBufAddr c.f.cfg l n + 0x100 + y / k * slStride c.f.cfg l.scale + 8 * (stripeStart c.f.cfg b.stripe / k)
      (memPutBytes acc.1 a (ps.flatMap fun p => leBytes 8 p.1), acc.2.1 + (ps.map (·.2.2)).sum,
        ps.foldl (fun a p => a ||| p.2.1) acc.2.2)) acc
  | _, _ => acc

/-- The codes of a pixel; free values where its generation names no bank, because every bank was held when `SENS_CONFIG`
made it (R223, R226). -/
def bankedCodes (banks : List (Option Nat)) (r seq x y : Nat) (codes : List Nat) : List Nat :=
  if (banks.getD r none).isSome then codes else codes.mapIdx fun k _ => Config.unbankedCode seq x y k

/-- RND0's codes at a pixel, and what it counts. -/
def rnd0Pixel (s : State) (c : Dm) (site : Nat → Nat → Site) (x y : Nat) : List Nat × ColCounters :=
  let col := c.f.params.colour.getD 0 {}
  let p := colourPixel col (badNode s col) (c.rgb ((x : Int), (y : Int))).1 (site x y).saturated x y c.f.cfg.width
    c.f.cfg.height
  (bankedCodes c.f.banks 0 c.f.seq x y p.1, p.2)

/-- Poisoned bursts of a deep lattice that the fills of a band's coloured pixels meet (R216, R235, R594). -/
def latticePoison (s : State) (c : Dm) (site : Nat → Nat → Site) (b : Band) : List Nat :=
  let col := c.f.params.colour.getD 0 {}
  match col.latticeN == 129, col.lattice with
  | true, some l =>
    if (poisonIn s l.base 17173512).isEmpty then [] else
    let x0 := stripeStart c.f.cfg b.stripe - boolNat (b.stripe != 0)
    let bursts (x y : Nat) : List Nat :=
      (latticeNodes col (colourLinear col (c.rgb ((x : Int), (y : Int))).1 (site x y).saturated)).map fun n =>
        burstOf (l.base + Config.latticeOffset n)
    ((bandYs c.f.cfg b.row).flatMap fun y => (List.range (colouredColumns c.f.cfg b.stripe)).flatMap fun i =>
      (bursts (x0 + i) y).filter s.mem.poison.contains).eraseDups
  | _, _ => []

/-- A band's part of the RND0 buffer. -/
def bandRnd0 (s : State) (c : Dm) (site : Nat → Nat → Site) (b : Band) (d : Mem) : Mem :=
  match c.f.rnd0, c.f.rnd0Buf with
  | some l, some n =>
    let w := c.f.cfg.width
    let g0 := stripeStart c.f.cfg b.stripe / groupCols l.layout
    let gn := stripeWidth c.f.cfg b.stripe / groupCols l.layout
    (bandYs c.f.cfg b.row).foldl (fun d y =>
      let line := rnd0BufAddr c.f.cfg l n + 0x100 + y * layoutStride l.layout w
      memPutBytes d (line + g0 * groupBytes l.layout) ((List.range gn).flatMap fun i =>
        layoutGroup l.layout w (fun x => (rnd0Pixel s c site x y).1) (g0 + i))) d
  | _, _ => d

/-- The colour counters a band adds: its owned pixels (R228). -/
def bandColour (s : State) (c : Dm) (site : Nat → Nat → Site) (b : Band) (z : ColCounters) : ColCounters :=
  (bandYs c.f.cfg b.row).foldl (fun z y => (bandXs c.f.cfg b.stripe).foldl (fun z x =>
    z.plus (rnd0Pixel s c site x y).2) z) z

/-- Flags and demosaic fallbacks of a band's owned sites. -/
def bandFlags (c : Dm) (site : Nat → Nat → Site) (b : Band) : Nat × Nat :=
  (bandYs c.f.cfg b.row).foldl (fun acc (y : Nat) => (bandXs c.f.cfg b.stripe).foldl (fun acc (x : Nat) =>
    let fb := (c.rgb ((x : Int), (y : Int))).2
    (acc.1 ||| siteFlags (site x y) fb, acc.2 + fb)) acc) (0, 0)

/-- A band's output (R131, R149): into the frame's outputs and totals. Only a deep lattice misses its cache, at most 4
fills a pixel and 160 clocks a fill (R216). DESIGN CHOICE (log entry 205): a band whose output is discarded counts no
pixel in `COL_STATUS`. -/
def bandOutput (s : State) (f : IngestFrame) (b : Band) (misses stall : Nat) : State :=
  match f.slot with
  | none => s
  | some slot =>
    let deep := (f.params.colour.getD 0 {}).latticeN == 129
    let misses := if deep then min misses (4 * (colouredColumns f.cfg b.stripe * (bandYs f.cfg b.row).length)) else 0
    let stall := min stall (160 * misses)
    let d := engineView s f
    let c : Dm := { d := d, maps := s.img.maps, f := f }
    let site := siteOf s d f
    let fl := bandFlags c site b
    let taps := (List.range 4).foldl (fun acc i =>
      let r := bandTap d f site b slot i (acc.1, 0)
      (r.1, acc.2 ++ [r.2])) (s.dram, [])
    let sl := bandSl c site b (taps.1, f.slClamps, f.slFlags)
    let s1 := updIngest { s with dram := bandRnd0 s c site b sl.1 } b.sensor f.seq fun g => { g with
      bandsDone := g.bandsDone ++ [(b.stripe, b.row)]
      stats := bandStats d f site b g.stats
      tapClamps := g.tapClamps.zipWith (fun a b => sat32 a b) taps.2
      slClamps := sat32 sl.2.1 0, slFlags := sl.2.2, slFallback := sat32 g.slFallback fl.2
      rnd0Flags := g.rnd0Flags ||| fl.1 }
    let cnt := bandColour s c site b (sensorOf s b.sensor).colCnt
    let s2 := updSensor s1 b.sensor fun x => { x with
      colCnt := { cnt with misses := sat32 cnt.misses misses, stall := satAdd 64 cnt.stall stall } }
    (bandPoison s f b ++ latticePoison s c site b).foldl poisonHandled s2

/-! ## A frame's last band (R156, R165, R170 to R173, R200, R237, R641) -/

/-- 82,176 bytes a statistics buffer takes (R171). -/
def statsBytes : Nat := 82176

/-- A zone record. -/
def zoneRecord (z : Zone) : List Byte :=
  ((List.range 4).flatMap fun r =>
    leBytes 4 (let n := z.counts.getD r 0
      if n = 0 then 0 else F24.round ((z.sums.getD r 0 : Nat) * 2 ^ 54) n)) ++
    leBytes 4 z.sat ++ leBytes 4 z.used ++ zeros 8

def statsFlags (f : IngestFrame) : Nat :=
  boolNat (f.marks.testBit 11) + 2 * boolNat (f.marks.testBit 0 || f.marks.testBit 2)

/-- A statistics buffer's bytes (R171). -/
def statsBuffer (f : IngestFrame) (c : StatsCfg) : List Byte :=
  let z := f.stats
  let head := leBytes 4 f.seq ++ leBytes 4 (statsFlags f) ++ leBytes 2 f.gen ++ leBytes 2 z.lines ++
    leBytes 4 f.num ++ leBytes 8 (time64 f.fs) ++ leBytes 4 z.saturated ++ leBytes 4 z.motion ++ leBytes 4 z.statics ++
    leBytes 4 z.dynamics ++ leBytes 4 z.unrepaired ++ leBytes 4 z.rowClamped ++ leBytes 1 c.e0 ++ zeros 15
  let hist := (List.range 4096).flatMap fun b => leBytes 4 (((z.hist.find? fun e => e.1 == b).map (·.2)).getD 0)
  let zones := (List.range 2048).flatMap fun n => zoneRecord (((z.zones.find? fun e => e.1 == n).map (·.2)).getD {})
  head ++ hist ++ zones ++ leBytes 4 f.seq ++ zeros 188

/-- The statistics of a completed frame (R170). -/
def completeStats (s : State) (sn : Nat) (f : IngestFrame) : State :=
  match f.statsCfg with
  | none => s
  | some c =>
    let n := (sensorOf s sn).statsNext
    let s1 := dramWrite s (c.base + statsBytes * n) (statsBuffer f c)
    let s2 := updSensor s1 sn fun x => { x with statsNext := (n + 1) % max 1 c.depth }
    notify s2 0x0501 sn (leBytes 4 f.seq ++ leBytes 1 n ++ leBytes 1 (boolNat (f.marks.testBit 11)) ++
      leBytes 2 f.gen ++ leBytes 4 f.stats.saturated ++ leBytes 4 f.stats.dynamics) sn

/-- A storm of dynamic replacements (R165). -/
def completeStorm (s : State) (sn : Nat) (f : IngestFrame) : State :=
  let lim := f.params.defect.storm
  if lim != 0 && lim < f.stats.dynamics then
    notify s 0x0503 sn (leBytes 4 f.seq ++ leBytes 4 f.stats.dynamics ++ leBytes 4 lim) (8 + sn)
  else s

/-- The header of a finished scene-linear buffer (R198). -/
def slHeader (f : IngestFrame) (l : SlCfg) : List Byte :=
  leBytes 4 f.seq ++ [1] ++ leBytes 1 (2 ^ l.scale) ++ leBytes 2 f.gen ++ leBytes 2 (f.cfg.width / 2 ^ l.scale) ++
    leBytes 2 (f.cfg.height / 2 ^ l.scale) ++ leBytes 4 (slStride f.cfg l.scale) ++ leBytes 8 (time64 f.fs) ++
    leBytes 4 f.num ++ leBytes 4 f.slFallback ++ leBytes 4 f.slClamps ++ leBytes 2 f.slFlags

/-- The scene-linear buffer of a completed frame (R200). -/
def completeSl (s : State) (sn : Nat) (f : IngestFrame) : State :=
  match f.sl, f.slBuf with
  | some l, some n =>
    let s1 := endBuffer s (slBufAddr f.cfg l n) (slTrailer f.cfg l n) f.seq (slHeader f l)
    let s2 := updSensor s1 sn fun x => { x with
      slBufs := modAt x.slBufs n fun b => if b.seq = f.seq then { b with state := 1 } else b }
    notify s2 0x0601 sn (leBytes 4 f.seq ++ leBytes 1 n ++ [1] ++ leBytes 2 f.gen ++ leBytes 4 f.slFallback ++
      leBytes 4 f.slClamps) sn
  | _, _ => s

/-- The header of a rendition buffer (R237). -/
def rndHeader (seq layout gen w h fs num : Nat) (c : Colour) (sensor flags clamps : Nat) : List Byte :=
  leBytes 4 seq ++ [1] ++ leBytes 1 layout ++ leBytes 2 gen ++ leBytes 2 w ++ leBytes 2 h ++
    leBytes 4 (layoutStride layout w) ++ leBytes 8 fs ++ leBytes 4 num ++ leBytes 1 c.format ++ leBytes 1 c.tf ++
    leBytes 1 c.ycc ++ leBytes 1 sensor ++ leBytes 2 flags ++ [0, 0] ++ leBytes 4 clamps

/-- RND0 of a completed frame (R238, R252). -/
def completeRnd0 (s : State) (sn : Nat) (f : IngestFrame) : State :=
  match f.rnd0, f.rnd0Buf with
  | some l, some n =>
    let h := rndHeader f.seq l.layout f.gen f.cfg.width f.cfg.height (time64 f.fs) f.num (f.params.colour.getD 0 {}) sn
      f.rnd0Flags 0
    let s1 := endBuffer s (rnd0BufAddr f.cfg l n) (rnd0Trailer f.cfg l n) f.seq h
    let s2 := { s1 with img.rnd0Done := sat32 s1.img.rnd0Done 1 }
    notify s2 0x0701 0 (leBytes 4 f.seq ++ leBytes 1 sn ++ leBytes 1 n ++ leBytes 2 f.gen ++ leBytes 2 f.rnd0Flags) 0
  | _, _ => s

/-- The header of a tap buffer (R247). -/
def tapHeader (f : IngestFrame) (t : Tap) (point clamps : Nat) : List Byte :=
  leBytes 4 f.seq ++ [1] ++ leBytes 1 point ++ leBytes 1 t.format ++ leBytes 1 (tapPlanes f.cfg point) ++
    leBytes 2 f.gen ++ [0, 0] ++ leBytes 4 (tapStride f.cfg) ++ leBytes 8 (time64 f.fs) ++ leBytes 4 f.num ++
    leBytes 4 t.gain ++ leBytes 2 t.offset ++ [0, 0] ++ leBytes 4 clamps

/-- The taps of a completed frame (R641). -/
def completeTaps (s : State) (sn : Nat) (f : IngestFrame) : State :=
  let slot := f.slot.getD 0
  let points := (List.range 4).filter fun i => (f.taps.getD i none).isSome
  if points.isEmpty then s
  else
    let s1 := points.foldl (fun s i => match f.taps.getD i none with
      | some t => endBuffer s (tapBuf f.cfg t (i + 1) slot) (tapTrailer f.cfg t (i + 1) slot) f.seq
          (tapHeader f t (i + 1) (f.tapClamps.getD i 0))
      | none => s) s
    setLeaf (postEvent s1 0x0710 sn (leBytes 4 f.seq ++ leBytes 1 slot ++ leBytes 1 (points.map (2 ^ ·)).sum ++ [0, 0] ++
      leBytes 2 f.gen ++ [0, 0] ++ leBytes 4 (min f.tapClamps.sum 0xFFFFFFFF))) 7 (12 + sn)

/-- The tracking column term after a completed frame (R156). -/
def trackColumn (s : State) (sn : Nat) (f : IngestFrame) : State :=
  let b := f.params.black
  let x := sensorOf s sn
  let rows := (List.range b.obCount).map (b.obFirst + ·) |>.filter fun y => lineGot f 0 y
  if b.colMode != 2 || f.run != x.run || rows.isEmpty then s
  else
    let d := engineView s f
    let inv := F24.recip (F24.ofInt (rows.length : Nat))
    let next (i old : Nat) : Nat :=
      let mean := F24.mul (F24.sum (rows.map fun y => F24.sub (stage2 d f i y).1 (rowTerm d f y).1)) inv
      F24.add old (F24.shr (F24.sub mean old) b.alpha)
    updSensor s sn fun x => { x with colTerm := x.colTerm.mapIdx next }

/-- A stage-3 value as the accumulator of a capture takes it: units of 2^-32 (R173). -/
def captureUnits (b : Nat) : Int := clampInt (F24.val b / 2 ^ 46) (-(2 ^ 63)) (2 ^ 63 - 1)

/-- A completed frame adds to its sensor's capture (R173). -/
def countCapture (s : State) (sn : Nat) (f : IngestFrame) : State :=
  match (sensorOf s sn).capture with
  | none => s
  | some c =>
    if c.finalPass || f.seq < c.fromSeq then s
    else if [0, 1, 2, 3, 4, 5, 6].any f.marks.testBit then
      updSensor s sn fun x => { x with capture := some { c with skipped := c.skipped + 1 } }
    else
      let d := engineView s f
      let w := f.cfg.width
      let acc := c.acc.mapIdx fun i a => a + captureUnits (stage3 d f (i % w) (i / w))
      updSensor s sn fun x => { x with
        capture := some { c with counted := c.counted + 1, acc := acc, finalPass := c.counted + 1 == c.frames } }

/-- The margin of a completed frame (R138). A frame of a cleared sensor still counts, which R639 leaves open (DESIGN
CHOICE, log 180). -/
def completeMargin (s : State) (sn : Nat) (f : IngestFrame) : State :=
  let margin := f.deadline - viewSNow s
  let s1 := updSensor s sn fun x => { x with
    framesDone := sat32 x.framesDone 1
    margins := if x.cfg == some f.cfg then (margin :: x.margins).take 64 else x.margins }
  let thr := clocksTime (slackThreshold f.cfg)
  if margin < thr then
    notify s1 0x0402 sn (leBytes 4 f.seq ++ leBytes 4 (timeNs margin) ++ leBytes 4 (timeNs thr)) (4 + sn)
  else s1

/-- A scene-linear frame of a rendition that will never render it: its stream keeps its position with a marker. -/
def skipMarker (s : State) (r seq : Nat) : State :=
  match streamOfRnd s r with
  | none => s
  | some t => match (codecStream s t).frames.find? fun f => f.seq == seq with
    | some f => codecMarker s t seq (time64 f.fs) f.gen 8
    | none => s

/-- Renditions that can never take a completed frame: no scene-linear frame, or no placement. -/
def skipUnplaced (s : State) (sn : Nat) (f : IngestFrame) : State :=
  ((rndsOfSensor s sn).drop 1).foldl (fun s r =>
    if f.slBuf.isNone || (f.params.place.getD r none).isNone then skipMarker s r f.seq else s) s

/-- The last band of a frame completes (R170). -/
def completeFrame (s : State) (sn seq : Nat) : State :=
  match ingestOf s sn seq with
  | none => s
  | some f =>
    if f.closed && f.drop.isNone && !f.complete && f.bandsDone.length == totalBands f.cfg then
      let s0 := updIngest s sn seq fun g => { g with complete := true, completeAt := viewSNow s }
      skipUnplaced (countCapture (trackColumn (completeTaps (completeRnd0 (completeSl (completeStorm (completeStats
        (completeMargin s0 sn f) sn f) sn f) sn f) sn f) sn f) sn f) sn f) sn f
    else s

/-- A physical engine's band ends (R137, R170). DESIGN CHOICE (log entry 205): a band of a dropped frame or of a failed engine,
whose output is discarded, adds nothing to `COL_STATUS`. -/
def bandEnd (s : State) (p misses stall : Nat) : State :=
  match (s.img.sched.engines.getD p {}).running with
  | none => s
  | some b =>
    let s1 := { s with img.sched.engines := modAt s.img.sched.engines p fun e => { e with running := none } }
    match ingestOf s1 b.sensor b.seq with
    | none => overloadCheck s1
    | some f =>
      if f.drop.isSome then overloadCheck (dropOutputs s1 b.sensor b.seq)
      else overloadCheck (completeFrame (bandOutput s1 f b misses stall) b.sensor b.seq)

end Sys2Proof.Machine
end

