-- ==== Sys2Proof/Machine/SensOps.lean ====
section
/-! DEFINITION. Sensor configuration, power and streaming, and what link packets and control buses do
(chapter 05). -/

namespace Sys2Proof.Machine

/-! ## Sensor power (R102, R103, R553, R557, R561) -/

def sensPolicy (s : State) (sn : Nat) : SensPolicy := s.br.policy.sens.getD sn {}
def spwrOn (s : State) (sn : Nat) : Bool := s.br.spwrOn.getD sn false
def spwrSeq (s : State) (sn : Nat) : SpwrSeq := s.br.spwrSeq.getD sn .idle
/-- Power on, with no request of the sensor in progress (R101). -/
def sensorPowered (s : State) (sn : Nat) : Bool := spwrOn s sn && (sensorOf s sn).powerReq.isNone

/-- SPWR_EN of a sensor, with its sequence; a release is noted with its clock. -/
def setSpwr (s : State) (sn : Nat) (on : Bool) (q : SpwrSeq) : State :=
  { s with
    br.spwrOffAt := if spwrOn s sn && !on then s.br.spwrOffAt.set sn (some ((s.time.c.toNat : Int), false)) else s.br.spwrOffAt
    br.spwrOn := s.br.spwrOn.set sn on
    br.spwrSeq := s.br.spwrSeq.set sn q }

/-- SPWR_EN of a sensor was released on this clock, by a fall of its power good or otherwise (R562). -/
def releasedNow (s : State) (sn : Nat) (fault : Bool) : Bool :=
  s.br.spwrOffAt.getD sn none == some ((s.time.c.toNat : Int), fault)

/-- A power request ends with a result. -/
def powerDone (s : State) (sn : Nat) (on : Bool) (result : Nat) : State :=
  sensPowerEvent (updSensor { s with br.held := s.br.held.filter fun r => r.1 != sn } sn fun x =>
    { x with powerReq := none }) sn (boolNat on) result

/-- Bedrock asserts SPWR_EN and waits for power good or for settling (R553). -/
def assertPower (s : State) (sn : Nat) : State :=
  { setSpwr s sn true (if (sensPolicy s sn).pgUse then .waitPg else .settle) with
    br.lastPowerOn := some (s.time.c.toNat : Int) }

/-- The last power-on that Bedrock started is less than `stagger_ms` ago. -/
def mustStagger (s : State) : Bool :=
  s.br.lastPowerOn.any fun c => decide ((s.time.c.toNat : Int) - c < s.br.policy.staggerMs * 1228800)

/-- Bedrock begins a sensor's sequence (R553); a power-off on the clock of a supply fault gets result 1 (R562). -/
def beginPower (s : State) (sn : Nat) (on : Bool) : State :=
  if s.br.ploss then powerDone s sn on 2
  else if !on then (if releasedNow s sn true then powerDone s sn on 1 else setSpwr s sn false .offWait)
  else if mustStagger s then setSpwr s sn false .stagger
  else assertPower s sn

/-- An accepted request: it waits while Bedrock restarts from a lockstep fault (R561). -/
def requestPower (s : State) (sn : Nat) (on : Bool) : State :=
  let s1 := updSensor s sn fun x => { x with powerReq := some on }
  if s.br.lsRestart then { s1 with br.held := s1.br.held ++ [(sn, on)] } else beginPower s1 sn on

/-- Bedrock removes a sensor's power: its frame closes as a link loss and it leaves streaming (R103). -/
def removePower (s : State) (sn : Nat) : State :=
  let s1 := setSpwr s sn false .idle
  let s2 := if (sensorOf s1 sn).streaming then
      let s2 := closeFrame s1 sn (2 ^ 0 + 2 ^ 6)
      if (sensorOf s2 sn).streaming then leaveStreaming s2 sn else s2
    else s1
  sensPowerEvent s2 sn 0 1

/-! ## SENS_CONFIG (R89, R90, R99, R100, R637) -/

def configOf (b : Body) : SensConfig where
  iface := fld b 1 1
  exposures := fld b 2 1
  bits := fld b 3 1
  width := fld b 4 2
  height := fld b 6 2
  fpsNum := fld b 8 4
  fpsDen := fld b 0x0C 2
  depth := fld b 0x0E 1
  shortLimit := fld b 0x0F 1
  pedestal := fld b 0x10 2
  first := fld b 0x12 1
  links := fld b 0x13 1
  lanesPer := fld b 0x14 1
  rate := fld b 0x16 2
  vcdt := (List.range 3).map fun e => (fld b (0x18 + 2 * e) 1, fld b (0x19 + 2 * e) 1)
  lineTimeout := fld b 0x1E 2
  base := 0

/-- SENSOR lanes of a configuration; none on CSI-2. -/
def configLanes (c : SensConfig) : List Nat :=
  if c.iface = 0 then (List.range (c.links * c.lanesPer)).map (c.first + ·) else []

/-- Whether two configurations share a lane or a port (R89). -/
def sameInterface (a b : SensConfig) : Bool :=
  if a.iface = 0 then b.iface == 0 && (configLanes a).any (configLanes b).contains
  else b.iface != 0 && a.first == b.first

/-- Bit/s that a configuration needs, and 20 times what its interface has, as fractions (R99). -/
def linkNeed (c : SensConfig) : Nat × Nat :=
  let line := if c.iface = 0 then ceilDiv (c.width * c.bits) 32 * 4 + 20 else ceilDiv (c.width * c.bits) 8 + 6
  (c.exposures * c.height * c.fpsNum * line * 8, c.fpsDen)
def linkHave (c : SensConfig) : Nat × Nat :=
  let rate := c.rate * 10000000
  if c.iface = 2 then (c.lanesPer * rate * 16 * 95, 700) else (c.links * c.lanesPer * rate * 95, 100)

/-- The scene-linear write rate of a sensor (R196). -/
def slRate (x : Sensor) : Nat × Nat :=
  match x.cfg, x.slCmd with
  | some c, some l => fracMul (devRate c) 1 (4 ^ l.scale)
  | _, _ => (0, 1)

/-- FMC9841 and FMC9840: tier A in the M package. -/
def tierAm (f : Fuse) : Bool := f.tier == .a && f.pkgM

/-- The admission checks of R22, R23 and R196 at `fps_num`. -/
def admission (s : State) (sn : Nat) (c : SensConfig) : Option Rej :=
  let dev := devRate c
  let ing := fracMul dev c.exposures 1
  let others := ((List.range 4).filter (· != sn)).filterMap fun k => (sensorOf s k).cfg
  let devAll := fracSum (dev :: others.map devRate)
  let ingAll := fracSum (ing :: others.map fun o => fracMul (devRate o) o.exposures 1)
  let writes := fracSum (((List.range 4).filter (· != sn)).map fun k => slRate (sensorOf s k))
  let top : Fuse := { tier := .a, pkgM := false }
  let fits (f : Fuse) (d i : Nat × Nat) : Bool := fracLe d (devLimit f, 1) && fracLe i (ingestLimit f, 1)
  if !fits top dev ing then eComb true 8
  else if !fits s.fuse dev ing then eVariant true 8
  else eComb (!fits s.fuse devAll ingAll || (tierAm s.fuse && !fracLe (fracAdd devAll writes) (5900000000, 1))) 8

/-- The table defaults a configuration sets in a shadow set (R178, R203, R230). -/
def defaultShadow (old : Params) : Params :=
  let p : Params := {}
  { p with colour := p.colour.take 1 ++ old.colour.drop 1, place := old.place }

/-- R178: the cases in which the shadow items return to their defaults. -/
def resetsShadow (old : Option SensConfig) (c : SensConfig) : Bool :=
  match old with
  | none => true
  | some o => o.width != c.width || o.height != c.height || o.exposures != c.exposures || o.bits != c.bits ||
      o.pedestal != c.pedestal

/-- Codec streams whose source is a sensor, as commanded (R286). -/
def streamsOfSensor (s : State) (sn : Nat) : List Nat :=
  (List.range 8).filter fun t => (codecStream s t).cmd.any fun c => streamSource s c.src c.unit == some sn

/-- What a configuration or its removal disables (R203, R250, R286): the scene-linear frame, the RND0 write, the
taps, the streams that are not attached, and the placements of the sensor's renditions. -/
def disableOutputs (s : State) (sn : Nat) : State :=
  let s1 := ((streamsOfSensor s sn).filter fun t => !streamAttached s t).foldl (fun s t => updStream s t fun x => { x with cmd := none }) s
  let s2 := updSensor s1 sn fun x => { x with
    slCmd := none, rnd0Cmd := none, tapCmd := [none, none, none, none]
    shadow := { x.shadow with place := List.replicate 6 none } }
  retire ((List.range 4).foldl (fun s i => retire s (.tap sn (i + 1))) (retire s2 (.rnd0 sn))) (.slFrame sn)

/-- The customary budget of a configuration (R144), also the largest legal one. -/
def maxBudgetUs (c : SensConfig) : Nat := (c.depth - 1) * 1000000 * c.fpsDen / c.fpsNum

/-- The once-per-generation events start afresh with a sensor's generations (R236, R243). -/
def resetOnce (s : State) (sn : Nat) : State :=
  updSensor { s with img.rnds := s.img.rnds.map fun r =>
      if r.sensor == some sn then { r with formatGen := none, cropGen := none } else r } sn fun x => { x with
    rnd0SkipGen := none }

/-- Bind a configuration, but for its ring (R100, R133, R144, R178, R639). A CSI-2 port counts as locked until an
event says otherwise, which R112 leaves open (DESIGN CHOICE, log 176). -/
def bindConfig (s : State) (sn : Nat) (c : SensConfig) : State :=
  -- a loop on one of its lanes stops (R375)
  let s0 := ((groupLanes c).filter fun a => (laneOf s a).st == 5).foldl (fun s a => setLane s a 1 0) s
  let s1 := resetOnce (disableOutputs s0 sn) sn
  let x := sensorOf s1 sn
  let shadow := if resetsShadow x.cfg c then defaultShadow x.shadow else x.shadow
  let track := shadow.black.colMode == 2
  let s2 := updSensor s1 sn fun x => { x with
    cfg := some c, linkUp := sensorLanesLocked s c, linkLost := false, lastNum := none
    freeSlots := List.range c.depth
    cls := 1, budgetUs := maxBudgetUs c, gen := 0, shadow := shadow, active := shadow
    banks := List.replicate 6 none, order := s1.img.sched.commits, pendingSet := none, margins := []
    run := if track then x.run + 1 else x.run
    colTerm := if track then runStart c shadow.black else x.colTerm
    afterRing := x.afterRing.filter fun e => (ringFrames x).any fun f => f.cfg.base == e.1
    blackSince := false, slBufs := [], slEff := none, rnd0Eff := none, tapEff := [none, none, none, none] }
  let r := resolveBanks s2 (rndsOfSensor s2 sn) shadow (some sn)
  updSensor { r.2 with img.sched.commits := r.2.img.sched.commits + 1 } sn fun x => { x with banks := r.1 }

/-- Bytes of the column-term versions a sensor may hold (R156). -/
def columnBytes (c : SensConfig) : Nat := (c.depth + 1) * c.width * 4

/-- A sensor whose tracking run starts has a region for its column-term versions (R156, R163). -/
def columnRegion (s : State) (sn : Nat) : State :=
  match (sensorOf s sn).cfg with
  | some c =>
    if (sensorOf s sn).shadow.black.colMode == 2 && (regionOf s (.column sn)).isNone then
      (alloc s (.column sn) (columnBytes c)).2
    else s
  | none => s

/-- The regions of objects of a sensor stand until its last frame now in the ring has left it (R156, R178, R203). -/
def outlive (s : State) (sn : Nat) (objs : List DramObj) : State :=
  let rings := ((ringFrames (sensorOf s sn)).map (·.cfg.base)).eraseDups
  let regions := objs.filterMap (regionOf s)
  updSensor s sn fun x => { x with afterRing := x.afterRing ++ rings.flatMap fun a => regions.map fun r => (a, r.base) }

/-- `SENS_CONFIG`'s state change: the new ring never takes the old ring's memory (R100). -/
def applyConfig (s : State) (sn : Nat) (c : SensConfig) : State :=
  let s0 := outlive s sn [.column sn]
  let s1 := { s0 with
    mem.regions := s0.mem.regions.map fun r => if r.obj == .ring sn then { r with obj := .dying } else r }
  let a := alloc s1 (.ring sn) (slotBytes c * c.depth)
  sweep (columnRegion (retire (bindConfig a.2 sn { c with base := a.1 }) (.column sn)) sn)

/-- An unbound rendition: its counters stand until a command names them (R6). -/
def unboundRnd (x : Rendition) : Rendition :=
  { framesDone := x.framesDone, lateSkips := x.lateSkips, sinkFull := x.sinkFull, formatSkips := x.formatSkips
    geomSkips := x.geomSkips, clamps := x.clamps, since := x.since, colCnt := x.colCnt
    credit := x.credit, creditAt := x.creditAt }

/-- A rendition is unbound; the stream that was in effect for it has no source any more (R105). -/
def dropBinding (s : State) (r : Nat) : State :=
  let codes (c : CodecCfg) : Bool := c.src == 1 && c.unit == r
  let s1 := { s with codec.streams := s.codec.streams.map fun t => { t with eff := t.eff.filter fun c => !codes c } }
  retire (updRnd s1 r unboundRnd) (.rendition r)

/-- A sensor's configuration is removed with what depends on it (R104, R105, R178, R203, R639). The colour items of a
rendition that keeps its binding stand, as R105 takes its placement alone (DEDUCED, log entry 247). -/
def clearSensor (s : State) (sn : Nat) : State :=
  let s1 := disableOutputs (outlive s sn [.slFrame sn, .statsRing sn, .column sn]) sn
  let s2 := (List.range 6).foldl (fun s r =>
    if r = 0 || (rndOf s r).sensor != some sn || rndSunk s r then s else dropBinding s r) (resetOnce s1 sn)
  let colour := (sensorOf s2 sn).shadow.colour.mapIdx fun r c =>
    if r != 0 && (rndOf s2 r).sensor == some sn then c else ({} : Colour)
  let s3 := updSensor s2 sn fun x => { x with
    cfg := none, linkUp := false, linkLost := false, freeSlots := [], cls := 1, budgetUs := 0, gen := 0, shadow := { colour := colour }, active := {}
    banks := List.replicate 6 none, pendingSet := none, framesDone := 0, framesDropped := 0, latchDeferred := 0
    superseded := 0, margins := [], colTerm := [], blackSince := false, statsCmd := none, statsEff := none
    slEff := none, slBufs := [], rnd0Eff := none, tapEff := [none, none, none, none], rnd0Fill := [] }
  retire (retire (retire s3 (.ring sn)) (.statsRing sn)) (.column sn)

/-- Streaming begins (R104, R113, R170, R201, R247, R280, R286): the commanded outputs take effect. -/
def startSensor (s : State) (sn : Nat) : State :=
  let s1 := updSensor s sn fun x => { x with
    streaming := true, stopping := false, firstFrame := true, lastNum := none, zeroNums := true, linkLost := false
    statsEff := x.statsCmd, statsNext := if x.statsEff == x.statsCmd then x.statsNext else 0
    slEff := x.slCmd
    slBufs := if x.slEff == x.slCmd then x.slBufs
      else List.replicate ((x.slCmd.map (·.depth)).getD 0) { fill := 0, seq := 0 }
    rnd0Eff := x.rnd0Cmd
    rnd0Fill := if x.rnd0Eff == x.rnd0Cmd then x.rnd0Fill else List.replicate ((x.rnd0Cmd.map (·.depth)).getD 0) 0
    tapEff := x.tapCmd }
  let ofSensor (c : Option CodecCfg) : Bool := c.any fun c => streamSource s1 c.src c.unit == some sn
  let s2 := (List.range 8).foldl (fun s t =>
    if ofSensor (codecStream s t).cmd || ofSensor (codecStream s t).eff then
      clearHistory (updStream s t fun x => { x with eff := x.cmd }) t
    else s) s1
  recSensorStart (sweep s2) sn

/-! ## Link packets (R91 to R97) -/

/-- A packet as deframed: what it is, the exposures it names, and what it carries. -/
structure Pkt where
  /-- 0 frame start, 1 frame end, 2 line, 3 embedded data, 4 unknown, 5 header failed, 6 ignored -/
  kind : Nat
  exps : List Nat := []
  /-- line number; none where lines are numbered in arrival order -/
  line : Option Nat := none
  /-- sensor frame number; none where the packet names none -/
  num : Option Nat := none
  samples : List Nat := []
  bytes : List Byte := []
  crcBad : Bool := false
  corrected : Bool := false
deriving DecidableEq, Repr

/-- The n-bit samples of a line payload (R92). -/
def unpackSamples (n count : Nat) (payload : List Byte) : List Nat :=
  let v := leNat payload
  (List.range count).map fun i => v / 2 ^ (n * i) % 2 ^ n

/-- A Flimocia packet (R91 to R93). -/
def parseLink (c : SensConfig) (b : List Byte) : Pkt :=
  if crc32c (b.take 12) != fld b 0x0C 4 then { kind := 5 }
  else
    let ptype := fld b 0 1
    let e := fld b 1 1 % 4
    let n := 10 + 2 * (fld b 1 1 / 4 % 4)
    let count := fld b 8 2
    if ptype < 1 || 4 < ptype || c.exposures ≤ e || n != c.bits then { kind := 4 }
    else
      let len := if ptype = 3 then ceilDiv (count * n) 32 * 4 else if ptype = 4 then ceilDiv count 4 * 4 else 0
      let payload := (b.drop 16).take len
      let bad := crc32c payload != fld b (16 + len) 4
      { kind := ptype - 1, exps := [e], line := some (fld b 2 2), num := some (fld b 4 4), crcBad := bad
        samples := if ptype = 3 then unpackSamples n count payload else []
        bytes := if ptype = 4 then payload.take count else [] }

/-- A CSI-2 packet (R95 to R97). A Frame Start or Frame End on a virtual channel bound to no exposure opens and closes
nothing: it is counted as unknown, which R95 leaves open (DESIGN CHOICE, log 177). -/
def parseCsi (c : SensConfig) (hdr : HeaderState) (vc dt data : Nat) (payload : List (BitVec 16)) (crcOk : Bool) :
    Pkt :=
  let corr := hdr == .corrected
  let onVc := (List.range c.exposures).filter fun e => (c.vcdt.getD e (0, 0)).1 == vc
  if hdr = .bad then { kind := 5 }
  else if dt = 0 || dt = 1 then
    (if onVc.isEmpty then { kind := 4, corrected := corr } else { kind := dt, exps := onVc, num := some data, corrected := corr })
  else if [2, 3, 0x10, 0x11].contains dt then { kind := 6, corrected := corr }
  else if dt = 0x12 then
    { kind := 3, exps := onVc.take 1, bytes := payload.map fun w => w.setWidth 8, crcBad := !crcOk, corrected := corr }
  else match (List.range c.exposures).find? fun e => c.vcdt.getD e (0, 0) == (vc, dt) with
    | some e => { kind := 2, exps := [e], samples := payload.map (·.toNat), crcBad := !crcOk, corrected := corr }
    | none => { kind := 4, corrected := corr }

def parsePacket (c : SensConfig) : Packet → Pkt
  | .link b => parseLink c b
  | .csi hdr vc dt data payload crcOk => parseCsi c hdr vc.val dt.toNat data.toNat payload crcOk

/-- The exposure a packet's checks are counted under. -/
def pktCol (p : Pkt) : Nat := p.exps.headD 3

/-- Mark the open frame. -/
def markOpen (s : State) (sn bit : Nat) : State :=
  match openIngest s sn with
  | some f => markFrame s sn f.seq bit
  | none => s
def updOpen (s : State) (sn : Nat) (g : IngestFrame → IngestFrame) : State :=
  match openIngest s sn with
  | some f => updIngest s sn f.seq g
  | none => s

/-- A payload check code fails (R93): kind 2, in a column, and the open frame is marked. -/
def crcFailure (s : State) (sn col : Nat) : State :=
  updOpen (countCheck s sn 2 col 1) sn fun f => { f with crcFails := f.crcFails + 1, marks := orBit f.marks 4 }

/-- The frame a packet belongs to: the open one, if the packet's number is its own (R109). -/
def pktFrame (s : State) (sn : Nat) (p : Pkt) (byNum : Bool) : Option IngestFrame :=
  match openIngest s sn with
  | none => none
  | some f => if byNum && p.num.any (· != f.num) then none else some f

/-! ## Lines and embedded data (R98, R106, R110) -/

/-- Write a line's words and its bitmap bit. -/
def landLine (s : State) (f : IngestFrame) (e y : Nat) (words : List Nat) : State :=
  match f.slot with
  | none => s
  | some slot =>
    let s1 := dramWrite s (wordAddr f.cfg slot e y 0) (words.flatMap (leBytes 2))
    let i := e * f.cfg.height + y
    let a := f.cfg.base + slot * slotBytes f.cfg + bitmapOffset f.cfg + i / 8
    dramWrite s1 a [memGet s1.dram a ||| BitVec.ofNat 8 (2 ^ (i % 8))]

/-- A line packet of the open frame (R110). -/
def lineArrives (s : State) (sn : Nat) (f : IngestFrame) (p : Pkt) : State :=
  let e := pktCol p
  let y := p.line.getD (f.nextLine.getD e 0)
  let s0 := updIngest s sn f.seq fun g => { g with nextLine := modAt g.nextLine e (· + 1) }
  let s1 := if p.crcBad then crcFailure s0 sn e else s0
  if f.cfg.height ≤ y then
    countCheck (updIngest s1 sn f.seq fun g => { g with extra := g.extra + 1, marks := orBit g.marks 1 }) sn 6 e 1
  else if lineGot f e y then countCheck s1 sn 5 e 1
  else
    let w := f.cfg.width
    let n := p.samples.length
    let words := (p.samples.map (· * 2 ^ (16 - f.cfg.bits)) ++ List.replicate (w - n) f.cfg.pedestal).take w
    let s2 := updIngest (landLine s1 f e y words) sn f.seq fun g => { g with got := modAt g.got e (orBit · y) }
    if n = w then s2 else countCheck (markFrame s2 sn f.seq 3) sn (if n < w then 3 else 4) e 1

/-- Embedded data of the open frame (R95, R106, R113). -/
def embeddedArrives (s : State) (sn : Nat) (f : IngestFrame) (p : Pkt) : State :=
  let s1 := if p.crcBad then crcFailure s sn (pktCol p) else s
  let room := 16384 - f.embBytes
  let take := p.bytes.take room
  let s2 := match f.slot with
    | some slot => dramWrite s1 (f.cfg.base + slot * slotBytes f.cfg + embOffset f.cfg + f.embBytes) take
    | none => s1
  let s3 := updIngest s2 sn f.seq fun g => { g with embBytes := g.embBytes + take.length }
  if p.bytes.length ≤ room then s3
  else countCheck (markFrame s3 sn f.seq 12) sn 10 (pktCol p) (p.bytes.length - room)

/-! ## Frame start (R107, R113, R130, R199, R238) -/

/-- Whether a frame number breaks the sequence (R113); `zeros`: a CSI-2 sensor has sent 0 throughout. -/
def numberBreaks (c : SensConfig) (zeros : Bool) (last : Option Nat) (num : Nat) : Bool :=
  match last with
  | none => false
  | some l =>
    if c.iface = 0 then num != (l + 1) % 2 ^ 32
    else !(zeros && num == 0) && num != (if l = 65535 then 1 else l + 1)

/-- The index of the least recently filled of a list of fill orders that a test accepts. -/
def leastFilled (fills : List Nat) (ok : Nat → Bool) : Option Nat :=
  (List.range fills.length).foldl (fun best i =>
    if !ok i then best
    else match best with
      | none => some i
      | some j => if fills.getD i 0 < fills.getD j 0 then some i else some j) none

/-- `EV_RND_SKIP` with the frames skipped for the reason since the last (R252). -/
def rndSkipEvent (s : State) (r seq sn reason gen count : Nat) : State :=
  notify s 0x0702 r (leBytes 4 seq ++ leBytes 1 sn ++ leBytes 1 reason ++ leBytes 2 gen ++ leBytes 4 count) (6 + r)

/-- Count a frame that a rendition skips; the event goes out where `post` says so (R236, R241, R244, R245). -/
def rndSkip (s : State) (r seq sn reason gen : Nat) (post : Bool) : State :=
  let n := sat32 ((rndOf s r).since.getD reason 0) 1
  let s1 := updRnd s r fun x => { x with
    since := x.since.set reason (if post then 0 else n)
    lateSkips := if reason = 0 then sat32 x.lateSkips 1 else x.lateSkips
    sinkFull := if reason = 1 then sat32 x.sinkFull 1 else x.sinkFull
    formatSkips := if reason = 2 then sat32 x.formatSkips 1 else x.formatSkips
    geomSkips := if reason = 3 then sat32 x.geomSkips 1 else x.geomSkips }
  if post then rndSkipEvent s1 r seq sn reason gen n else s1

/-- Renditions that lose an eligible frame because its buffer is refilled (R244). -/
def refillSkips (s : State) (sn n : Nat) : State :=
  match (sensorOf s sn).slBufs[n]? with
  | none => s
  | some b => ((rndsOfSensor s sn).drop 1).foldl (fun s r =>
      if (eligible s r).any fun e => e.seq == b.seq then
        skipMarker (rndSkip s r b.seq sn 0 b.gen true) r b.seq
      else s) s

/-- A rendition holds a scene-linear buffer. -/
def slHeld (s : State) (sn : Nat) (l : SlCfg) (n : Nat) : Bool :=
  s.img.rnds.any fun r => r.taken.any fun t => t.sensor == sn && t.sl.base == l.base && t.slBuf == n

/-- Give a new frame its scene-linear buffer (R199). -/
def assignSl (s : State) (sn seq : Nat) : State :=
  match ingestOf s sn seq, (sensorOf s sn).slEff with
  | some f, some l =>
    let bufs := (sensorOf s sn).slBufs
    (match leastFilled (bufs.map (·.fill)) fun n => !slHeld s sn l n with
      | none => setLeaf (postEvent s 0x0601 sn (leBytes 4 seq ++ [0xFF, 4] ++ leBytes 2 f.gen)) 6 (4 + sn)
      | some n =>
        let s1 := refillSkips s sn n
        let k := s1.img.fills + 1
        let s2 := beginBuffer { s1 with img.fills := k } (slBufAddr f.cfg l n) (slTrailer f.cfg l n) seq slReserved
        updIngest (updSensor s2 sn fun x => { x with
          slBufs := x.slBufs.set n { fill := k, seq := seq, state := 0, gen := f.gen, num := f.num, fs := f.fs,
                                     params := f.params, banks := f.banks } }) sn seq fun g => { g with
          sl := some l, slBuf := some n })
  | _, _ => s

/-- Give a new frame its RND0 buffer, or skip it for its format (R236, R238). DESIGN CHOICE (log entry 215): the frames
skipped since the last such event (R252) are counted for each sensor. -/
def assignRnd0 (s : State) (sn seq : Nat) : State :=
  match ingestOf s sn seq, (sensorOf s sn).rnd0Eff with
  | some f, some l =>
    let x := sensorOf s sn
    if layoutAccepts l.layout (f.params.colour.getD 0 {}).format then
      match leastFilled x.rnd0Fill fun _ => true with
      | none => s
      | some n =>
        let k := s.img.fills + 1
        let s1 := beginBuffer { s with img.fills := k } (rnd0BufAddr f.cfg l n) (rnd0Trailer f.cfg l n) seq
          rndReserved
        updIngest (updSensor s1 sn fun x => { x with rnd0Fill := x.rnd0Fill.set n k }) sn seq fun g => { g with
          rnd0 := some l, rnd0Buf := some n }
    else
      let post := x.rnd0SkipGen != some f.gen
      let s1 := updSensor s sn fun x => { x with
        rnd0SkipGen := some f.gen, rnd0SkipCount := if post then 0 else sat32 x.rnd0SkipCount 1 }
      if post then rndSkipEvent s1 0 seq sn 2 f.gen (sat32 x.rnd0SkipCount 1) else s1
  | _, _ => s

/-- Begin the tap buffers of a new frame's slot (R247). -/
def assignTaps (s : State) (sn seq : Nat) : State :=
  match ingestOf s sn seq with
  | none => s
  | some f => (List.range 4).foldl (fun s i => match f.taps.getD i none, f.slot with
      | some t, some slot => beginBuffer s (tapBuf f.cfg t (i + 1) slot) (tapTrailer f.cfg t (i + 1) slot) seq
          tapReserved
      | _, _ => s) s

/-- The codec deadline of a frame (R291). -/
def codecDeadline (c : SensConfig) (fs : Int) : Int :=
  fs + c.depth * c.fpsDen * 2 ^ 48 / c.fpsNum - 500 * 2 ^ 48 / 1000000

/-- Streams take up a new frame: a tap stream with a hold on its slot, a proxy stream where it may be eligible. -/
def beginStreams (s : State) (sn seq : Nat) : State :=
  match ingestOf s sn seq with
  | none => s
  | some f =>
    let due := codecDeadline f.cfg f.fs
    let base (t : Nat) (c : CodecCfg) : CodecFrame := {
      cfg := c, epoch := (codecStream s t).epoch, sensor := sn, seq := seq, num := f.num, fs := f.fs, gen := f.gen
      width := f.cfg.width, height := f.cfg.height, addr := 0, stride := tapStride f.cfg, deadline := due }
    let s1 := (tapStreams s sn).foldl (fun s t => match effOf s t with
      | none => s
      | some c => match f.taps.getD (c.point - 1) none with
        | none => s
        | some tp =>
          let a := tapBuf f.cfg tp c.point (f.slot.getD 0) + 0x100
          updIngest (updStream s t fun x => { x with frames := x.frames ++ [{ base t c with addr := a }] }) sn seq
            fun g => { g with codecHold := g.codecHold ++ [t] }) s
    (proxyStreams s sn).foldl (fun s t => match effOf s t with
      | none => s
      | some c =>
        let r := rndOf s c.unit
        if seq % max 1 r.div != 0 then s
        else updStream s t fun x => { x with frames := x.frames ++ [{ base t c with width := r.maxW, height := r.maxH }] }) s1

/-- Markers of a frame with no slot (R107): streams never take it. -/
def noSlotMarkers (s : State) (sn seq fs gen : Nat) : State :=
  (tapStreams s sn ++ (proxyStreams s sn).filter fun t => (effOf s t).any fun c =>
    seq % max 1 (rndOf s c.unit).div == 0).foldl (fun s t => codecMarker s t seq fs gen 1) s

/-! ## Control buses (R119 to R122) -/

def busOf (s : State) (b : Nat) : List BusJob := s.img.buses.getD b []
def enqueueBus (s : State) (b : Nat) (j : BusJob) : State :=
  { s with img.buses := modAt s.img.buses b (· ++ [j]) }

/-- A poll of a FIFO still waits behind another transfer, on whichever bus it was queued (R122). -/
def pollQueued (s : State) (sn k : Nat) : Bool :=
  s.img.buses.any fun l => (l.drop 1).any fun j => match j with
    | .poll s' k' _ => s' == sn && k' == k
    | _ => false

/-- Start a poll, or skip it (R122). -/
def triggerPoll (s : State) (sn k trigger : Nat) : State :=
  match (sensorOf s sn).polls.getD k none with
  | none => s
  | some p =>
    if p.trigger != trigger then s
    else if pollQueued s sn k then countCheck s sn 15 3 1
    else enqueueBus s p.x.bus (.poll sn k p.x)

/-- Deferred transfers and polls that an accepted FS starts (R121, R122). -/
def fsTransfers (s : State) (sn : Nat) : State :=
  let s1 := (sensorOf s sn).deferred.foldl (fun s x => enqueueBus s x.bus (.deferred sn x))
    (updSensor s sn fun x => { x with deferred := [] })
  triggerPoll (triggerPoll s1 sn 0 1) sn 1 1

/-- An accepted FS counts toward a capture's limit (R176). -/
def captureAccepted (s : State) (sn : Nat) : State :=
  match (sensorOf s sn).capture with
  | none => s
  | some c =>
    if c.finalPass then s
    else
      let s1 := updSensor s sn fun x => { x with capture := some { c with accepted := c.accepted + 1 } }
      if 4 * c.frames + 16 ≤ c.accepted + 1 then captureEnd s1 sn 3 0 0 else s1

/-- An accepted FS: the next frame opens (R107, R109, R113, R115, R130, R134). -/
def acceptFs (s : State) (sn num : Nat) (c : SensConfig) : State :=
  let s1 := closeFrame s sn 0
  let seq := (sensorOf s1 sn).seq
  let s2 := latch s1 sn seq c
  let x := sensorOf s2 sn
  let allZero := x.zeroNums && num == 0
  let breaks := numberBreaks c allZero x.lastNum num
  let fs := viewSNow s2
  let slot := x.freeSlots.head?
  let marks := (if breaks then 2 ^ 7 else 0) + (if slot.isNone then 2 ^ 10 else 0)
  let f : IngestFrame := {
    seq := seq, num := num, cfg := c, slot := slot, gen := x.gen, params := x.active, banks := x.banks, run := x.run
    col := x.colTerm, fs := fs, deadline := fs + x.budgetUs * 2 ^ 48 / 1000000, cls := x.cls, marks := marks
    drop := if slot.isNone then some 2 else none, first := x.firstFrame
    statsCfg := x.statsEff
    taps := if slot.isSome then x.tapEff else [none, none, none, none] }
  let s3 := updSensor s2 sn fun x => { x with
    seq := seq + 1, lastNum := some num, zeroNums := allZero, firstFrame := false, freeSlots := x.freeSlots.drop 1
    frames := x.frames ++ [f] }
  let s4 := if breaks then countCheck s3 sn 9 3 1 else s3
  let s5 := match slot with
    | none => dropOutputs (noSlotMarkers (setLeaf (countCheck s4 sn 13 3 1) 3 (4 * sn + 2)) sn seq (time64 fs) x.gen)
        sn seq
    | some n =>
      let a := c.base + n * slotBytes c + bitmapOffset c
      beginStreams (assignTaps (assignRnd0 (assignSl
        (dramWrite s4 a (zeros (bitmapBytes c))) sn seq) sn seq) sn seq) sn seq
  let it : RecItem := { seq := seq, fs := time64 fs, gen := x.gen, mflags := 0, payload := [] }
  overloadCheck (recMetaFlush (recFrameStart (captureAccepted (fsTransfers s5 sn) sn) sn it) sn)

end Sys2Proof.Machine
end

