-- ==== Sys2Proof/Machine/Sens.lean ====
section
/-! DEFINITION. The sensor commands and the events of links, frames and control buses (chapter 05). -/

namespace Sys2Proof.Machine

def sensorField (b : Body) (off : Nat) : Option Rej := inRange b off 1 0 3
def configured (s : State) (sn : Nat) : Bool := (sensorOf s sn).cfg.isSome
def streaming (s : State) (sn : Nat) : Bool := (sensorOf s sn).streaming

/-! ## SENS_CONFIG (R100, R637) -/

def csiLanes (iface : Nat) : List Nat := if iface = 1 then [1, 2, 4] else [1, 2, 3]

/-- The virtual channel and data type of exposure e at step 6 (R100, R635). -/
def vcdtField (b : Body) (c : SensConfig) (e : Nat) : List (Option Rej) :=
  if c.iface != 0 && e < c.exposures then
    [inRange b (0x18 + 2 * e) 1 0 15, eRange (fld b (0x19 + 2 * e) 1 != 0x2B + (c.bits - 10) / 2) (0x19 + 2 * e)]
  else []

/-- The same at step 7: 0 where the mode requires it. -/
def vcdtZero (b : Body) (c : SensConfig) (e : Nat) : List (Option Rej) :=
  if c.iface != 0 && e < c.exposures then [] else [mustBe0 b (0x18 + 2 * e) 1, mustBe0 b (0x19 + 2 * e) 1]

/-- Two configured exposures with one virtual channel and data type. -/
def vcdtTwice (c : SensConfig) (e : Nat) : Option Rej :=
  eComb (c.iface != 0 && e < c.exposures && (c.vcdt.take e).contains (c.vcdt.getD e (0, 0))) (0x18 + 2 * e)

def sensConfigFields (b : Body) (s : State) : List (Option Rej) :=
  let c := configOf b
  let sn := fld b 0 1
  let link := c.iface = 0
  let after := bindConfig s sn c
  [sensorField b 0, inRange b 1 1 0 2, inRange b 2 1 1 3, oneOf b 3 1 [10, 12, 14, 16],
   inRange b 4 2 64 16384, multipleOf b 4 2 8, inRange b 6 2 32 8192, multipleOf b 6 2 2,
   inRange b 8 4 1 2000000, eRange (c.fpsDen != 0 && 2000 * c.fpsDen < c.fpsNum) 8, inRange b 0x0C 2 1 1001,
   inRange b 0x0E 1 2 8, inRange b 0x0F 1 0 100, if link then inRange b 0x12 1 0 15 else inRange b 0x12 1 0 3,
   eVariant (!(configLanes c).all fun k => 16 ≤ k || sensorLaneBonded s k) 0x12,
   if link then inRange b 0x13 1 1 4 else inRange b 0x13 1 1 1,
   if link then inRange b 0x14 1 1 4 else oneOf b 0x14 1 (csiLanes c.iface), resv b 0x15 1,
   if link then inRange b 0x16 2 600 2400 else inRange b 0x16 2 8 450] ++
  (List.range 3).flatMap (vcdtField b c) ++ [inRange b 0x1E 2 2 64, resv b 0x20 4] ++
  -- step 7, in the order of R637
  (List.range 3).flatMap (vcdtZero b c) ++
  [eComb (link && 16 < c.first + c.links * c.lanesPer) 0x14,
   rejIf (((List.range 4).filter (· != sn)).any fun k => (sensorOf s k).cfg.any (sameInterface c)) 0x0301 0x12 0] ++
  (List.range 3).map (vcdtTwice c) ++
  [admission s sn c, eComb (!fracLe (linkNeed c) (linkHave c)) 0x16, eComb (!sensorPllOk s sn c) 0x16,
   claimCheck s (updSensor (disableOutputs s sn) sn fun x => { x with cfg := none }) after 8]

/-- SENS_CONFIG (R100). -/
def sensConfigCard : Card where
  opcode := 0x0301
  len := fixedLen 0x24
  fields := sensConfigFields
  seq b s := [eSeqAt (!(configLanes (configOf b)).all (sensorLane s)) 0x12]
  state b s := [eState (streaming s (fld b 0 1)),
    eStateAt ((streamsOfSensor s (fld b 0 1)).any (streamAttached s)) 0]
  res b s := [eNoCtx (allocBase s (slotBytes (configOf b) * (configOf b).depth)).isNone (freeMib s)]
  effect _ b s :=
    let sn := fld b 0 1
    let s1 := applyConfig s sn (configOf b)
    match (sensorOf s1 sn).cfg with
    | some c => (s1, .now (leBytes 8 c.base ++ leBytes 4 (slotBytes c) ++ leBytes 4 (lineStride c)))
    | none => (s1, .now [])

def execSensConfig (n : Fin 40) (s : State) : Host.Outcome State Fault Refusal :=
  .next (mbxRun sensConfigCard n.val s)

/-! ## Power and streaming (R101 to R105) -/

/-- SENS_POWER (R102). -/
def sensPowerCard : Card where
  opcode := 0x0302
  len := fixedLen 4
  fields b s := [sensorField b 0, rejIf (!(sensPolicy s (fld b 0 1)).grant) 0x0109 0 0, inRange b 1 1 0 1, resv b 2 2]
  state b s :=
    let sn := fld b 0 1
    let busy := (sensorOf s sn).powerReq.isSome
    if fld b 1 1 = 1 then [eState (spwrOn s sn || busy)] else [eState (streaming s sn || busy)]
  effect _ b s := (requestPower s (fld b 0 1) (fld b 1 1 = 1), .now [])

def execSensPower (n : Fin 40) (s : State) : Host.Outcome State Fault Refusal :=
  .next (mbxRun sensPowerCard n.val s)

/-- SENS_START (R104). -/
def sensStartCard : Card where
  opcode := 0x0303
  len := fixedLen 4
  fields b _ := [sensorField b 0, resv b 1 3]
  seq b s := [eSeq (!configured s (fld b 0 1))]
  state b s := [eState (!sensorPowered s (fld b 0 1) || streaming s (fld b 0 1))]
  effect _ b s := (startSensor s (fld b 0 1), .now [])

def execSensStart (n : Fin 40) (s : State) : Host.Outcome State Fault Refusal :=
  .next (mbxRun sensStartCard n.val s)

/-- A sensor stops: an open frame closes first (R104, R121). -/
def stopSensor (s : State) (sn : Nat) : State :=
  let s1 := cancelDeferred s sn
  if (openIngest s1 sn).isSome then updSensor s1 sn fun x => { x with stopping := true } else leaveStreaming s1 sn

/-- SENS_STOP (R104). -/
def sensStopCard : Card where
  opcode := 0x0304
  len := fixedLen 4
  fields b _ := [sensorField b 0, resv b 1 3]
  state b s := [eState (!streaming s (fld b 0 1))]
  effect _ b s := (stopSensor s (fld b 0 1), .now [])

def execSensStop (n : Fin 40) (s : State) : Host.Outcome State Fault Refusal :=
  .next (mbxRun sensStopCard n.val s)

/-- SENS_CLEAR (R104, R105). -/
def sensClearCard : Card where
  opcode := 0x0305
  len := fixedLen 4
  fields b _ := [sensorField b 0, resv b 1 3]
  seq b s := [eSeq (!configured s (fld b 0 1))]
  state b s := [eState (streaming s (fld b 0 1)), eStateAt ((streamsOfSensor s (fld b 0 1)).any (streamAttached s)) 0]
  effect _ b s := (clearSensor s (fld b 0 1), .now [])

def execSensClear (n : Fin 40) (s : State) : Host.Outcome State Fault Refusal :=
  .next (mbxRun sensClearCard n.val s)

/-! ## Control buses (R119 to R122) -/

/-- Speed and target of a transfer, at their offsets (R119, R120). R119 has the host write broadcast CCCs to address
0x7E, which the range of R120 leaves out: the model takes it beside that range (DESIGN CHOICE, log 181). -/
def busFields (b : Body) (bus speed target : Nat) : List (Option Rej) :=
  let i2c := fld b bus 1 < 4
  [if i2c then inRange b speed 1 0 3 else inRange b speed 1 5 255,
   if i2c then eRange ((fld b target 1 < 0x08 || 0x77 < fld b target 1) && fld b target 1 != 0x7E) target
   else inRange b target 1 0 15]

/-- SENS_BUS_XFER (R120). -/
def sensBusXferCard : Card where
  opcode := 0x0306
  len plen b := if plen < 6 then some 8 else if plen = 8 + fld b 4 2 then none else some (8 + fld b 4 2)
  fields b _ := [inRange b 0 1 0 5] ++ busFields b 0 1 2 ++ [inRange b 3 1 0 7, inRange b 4 2 0 256, inRange b 6 2 0 256,
    eComb (fld b 4 2 + fld b 6 2 == 0 || (fld b 3 1 % 2 == 1 && fld b 6 2 != 0)) 6]
  state b s := [eState (fld b 3 1 % 2 == 1 && !streaming s (fld b 3 1 / 2))]
  res b s := [eNoCtx (fld b 3 1 % 2 == 1 && 16 ≤ (sensorOf s (fld b 3 1 / 2)).deferred.length) 16]
  effect n b s :=
    let t := s.img.ticket
    let x : BusXfer := { ticket := t, bus := fld b 0 1, speed := fld b 1 1, target := fld b 2 1
                         wr := (b.drop 8).take (fld b 4 2), rdLen := fld b 6 2 }
    if fld b 3 1 % 2 = 1 then
      (updSensor { s with img.ticket := (t + 1) % 65536 } (fld b 3 1 / 2) fun y => { y with deferred := y.deferred ++ [x] },
        .now (leBytes 2 t))
    else (enqueueBus s x.bus (.host n x), .later)

def execSensBusXfer (n : Fin 40) (s : State) : Host.Outcome State Fault Refusal :=
  .next (mbxRun sensBusXferCard n.val s)

/-- SENS_COUNTERS (R114). -/
def sensCountersCard : Card where
  opcode := 0x0307
  len := fixedLen 4
  fields b _ := [sensorField b 0, inRange b 1 1 0 1, resv b 2 2]
  effect _ b s :=
    let sn := fld b 0 1
    (if fld b 1 1 = 1 then updSensor s sn fun x => { x with counters := List.replicate 64 0 } else s,
      .now ((sensorOf s sn).counters.flatMap (leBytes 4)))

def execSensCounters (n : Fin 40) (s : State) : Host.Outcome State Fault Refusal :=
  .next (mbxRun sensCountersCard n.val s)

/-- SENS_META_POLL (R122). -/
def sensMetaPollCard : Card where
  opcode := 0x0308
  len := fixedLen 0x14
  fields b _ :=
    let periodic := fld b 5 1 = 2
    [sensorField b 0, inRange b 1 1 0 1, inRange b 2 1 0 5, (busFields b 2 4 3).getD 1 none,
     (busFields b 2 4 3).getD 0 none, inRange b 5 1 0 2, inMode periodic (inRange b 6 2 100 65535),
     inRange b 8 1 0 8, inRange b 9 1 1 48, resv b 0x0A 2, inMode (!periodic) (mustBe0 b 6 2)]
  effect _ b s :=
    let x : BusXfer := { ticket := 0, bus := fld b 2 1, speed := fld b 4 1, target := fld b 3 1
                         wr := (b.drop 0x0C).take (fld b 8 1), rdLen := fld b 9 1 }
    let p : Option MetaPoll := if fld b 5 1 = 0 then none else some ⟨fld b 5 1, fld b 6 2, x⟩
    (updSensor s (fld b 0 1) fun y => { y with polls := y.polls.set (fld b 1 1) p }, .now [])

def execSensMetaPoll (n : Fin 40) (s : State) : Host.Outcome State Fault Refusal :=
  .next (mbxRun sensMetaPollCard n.val s)

/-- Drop the transfer at the head of a bus: the next one runs. -/
def busNext (s : State) (b : Nat) : State := { s with img.buses := modAt s.img.buses b (·.drop 1) }

/-- The host's or a deferred transfer at the head of a bus ends (R119 to R121). -/
def busXferEnd (s : State) (bus result written : Nat) (data : List Byte) : State :=
  match busOf s bus with
  | .host n x :: _ =>
    let d := drawBytes (busNext s bus) (x.rdLen - data.length)
    mbxOk d.2 n (leBytes 1 result ++ [0] ++ leBytes 2 (min written x.wr.length) ++ (data ++ d.1).take x.rdLen)
  | .deferred _ x :: _ => xferEvent (busNext s bus) x result (min written x.wr.length)
  | _ => s

/-- BUS_XFER_DONE (R119 to R121). -/
def execBusXferDone (bus : Fin 6) (result : Fin 5) (written : Nat) (data : List Byte) (s : State) :
    Host.Outcome State Fault Refusal :=
  .next (busXferEnd s bus.val result.val written data)

/-- META_POLL_TRIGGER: a periodic poll falls due (R122). -/
def execMetaPollTrigger (sensor : Fin 4) (fifo : Fin 2) (s : State) : Host.Outcome State Fault Refusal :=
  .next (triggerPoll s sensor.val fifo.val 2)

/-- Post a poll's records, chained by `cont`. -/
def postPoll (s : State) (sn k code ts : Nat) : List (List Byte) → State
  | [] => s
  | c :: l =>
    let s1 := postFifo s sn k code ts c !l.isEmpty
    postPoll (recMetaRecord s1 sn ts (lastRecord s1 (4 + 3 * sn + k))) sn k code ts l

/-- The poll at the head of a bus ends (R122). -/
def pollEnd (s : State) (bus result : Nat) (data : List Byte) : State :=
  match busOf s bus with
  | .poll sn k x :: _ =>
    let s1 := busNext s bus
    if result = 0 then
      let d := drawBytes s1 (x.rdLen - data.length)
      postPoll d.2 sn k (0x0370 + k) (classS d.2) (chunk 16 x.rdLen ((data ++ d.1).take x.rdLen))
    else postPoll s1 sn k 0x0372 (classS s1) [leBytes 1 result]
  | _ => s

/-- META_POLL_DONE (R122). -/
def execMetaPollDone (bus : Fin 6) (result : Fin 5) (data : List Byte) (s : State) : Host.Outcome State Fault Refusal :=
  .next (pollEnd s bus.val result.val data)

/-! ## Packets (R91 to R113) -/

/-- A packet is discarded as an orphan (R109); the failed check code of a frame start or end still counts (R91). -/
def packetOrphan (s : State) (sn : Nat) (k : Pkt) : State :=
  let s1 := countCheck s sn 7 (pktCol k) 1
  if k.kind ≤ 1 && k.crcBad then countCheck s1 sn 2 3 1 else s1

/-- A packet of one kind at a sensor: discarded uncounted while the sensor does not stream or its link group has not
come up; a bad or unknown header is counted (R92, R93, R95, R96, R113). What other links deliver after the group lost
lock are orphans (R112). -/
def packetRow (want sn : Nat) (p : Packet) (act : State → SensConfig → Pkt → State) (s : State) : State :=
  let x := sensorOf s sn
  match x.cfg with
  | none => s
  | some c =>
    if !x.streaming || !(x.linkUp || x.linkLost) then s
    else
      let k := parsePacket c p
      let fix (s : State) : State := if k.corrected then markOpen (countCheck s sn 0 3 1) sn 5 else s
      if k.kind = 5 then
        updOpen (countCheck s sn 1 3 1) sn fun f => { f with hdrDiscards := f.hdrDiscards + 1, marks := orBit f.marks 5 }
      else if k.kind = 4 then fix (countCheck s sn 8 3 1)
      else if k.kind = 6 then fix s
      else if !x.linkUp then (if k.kind = want then fix (packetOrphan s sn k) else s)
      else if k.kind = want then (if want = 0 then fix (act s c k) else act (fix s) c k)
      else s

/-- A frame start (R91, R97, R107, R109): that of exposure 0 opens a frame unless the sensor stops; that of
another exposure joins the open frame. None is accepted once the ordered stop has begun (R494). -/
def frameStart (sn : Nat) (s : State) (c : SensConfig) (k : Pkt) : State :=
  let num := k.num.getD 0
  if c.iface = 0 || k.exps.contains 0 then
    if (sensorOf s sn).stopping || s.clk.stopping then packetOrphan s sn k
    else
      let s1 := cadenceBegin (acceptFs s sn num c) (16 + sn) (viewTime s s.time.viewS s.time.c.toNat)
      if k.crcBad then crcFailure s1 sn 3 else s1
  else match openIngest s sn with
    | none => countCheck s sn 7 (pktCol k) 1
    | some f =>
      if num != 0 && num != f.num then countCheck (markFrame s sn f.seq 7) sn 9 3 1 else s

/-- FRAME_START (R107). -/
def execFrameStart (sensor : Fin 4) (p : Packet) (s : State) : Host.Outcome State Fault Refusal :=
  .next (packetRow 0 sensor.val p (frameStart sensor.val) s)

/-- A frame end (R91, R109): the frame closes once every exposure has ended. -/
def frameEnd (sn : Nat) (s : State) (c : SensConfig) (k : Pkt) : State :=
  match pktFrame s sn k (c.iface == 0) with
  | none => packetOrphan s sn k
  | some f =>
    let s1 := if k.crcBad then crcFailure s sn 3 else s
    if c.iface = 0 then closeFrame s1 sn 0
    else
      let ended := f.ended.mapIdx fun e v => v || k.exps.contains e
      let s2 := updIngest s1 sn f.seq fun g => { g with ended := ended }
      if (exposuresOf f).all fun e => ended.getD e false then closeFrame s2 sn 0 else s2

/-- FRAME_END (R109). -/
def execFrameEnd (sensor : Fin 4) (p : Packet) (s : State) : Host.Outcome State Fault Refusal :=
  .next (packetRow 1 sensor.val p (frameEnd sensor.val) s)

/-- A line or embedded packet of the open frame, or an orphan (R109). -/
def ownPacket (sn : Nat) (act : State → IngestFrame → Pkt → State) (s : State) (c : SensConfig) (k : Pkt) : State :=
  match pktFrame s sn k (c.iface == 0) with
  | none => countCheck s sn 7 (pktCol k) 1
  | some f => if f.ended.getD (pktCol k) false then countCheck s sn 7 (pktCol k) 1 else act s f k

/-- LINE_PACKET (R110). -/
def execLinePacket (sensor : Fin 4) (p : Packet) (s : State) : Host.Outcome State Fault Refusal :=
  .next (packetRow 2 sensor.val p (ownPacket sensor.val fun s f k => lineArrives s sensor.val f k) s)

/-- EMBEDDED_PACKET (R95). -/
def execEmbeddedPacket (sensor : Fin 4) (p : Packet) (s : State) : Host.Outcome State Fault Refusal :=
  .next (packetRow 3 sensor.val p (ownPacket sensor.val fun s f k => embeddedArrives s sensor.val f k) s)

/-- LINE_TIMEOUT: the open frame had no packet for `line_timeout` line periods (R109). -/
def execLineTimeout (sensor : Fin 4) (s : State) : Host.Outcome State Fault Refusal :=
  .next (closeFrame s sensor.val 0)

/-- FRAME_PERIOD_TIMEOUT: two frame periods have passed since the open frame's FS (R109). -/
def execFramePeriodTimeout (sensor : Fin 4) (s : State) : Host.Outcome State Fault Refusal :=
  .next (closeFrame s sensor.val 0)

/-- `EV_SENS_LINK` (R118). -/
def linkEvent (s : State) (sn up link lanes seq : Nat) : State :=
  setLeaf (postEvent s 0x0301 sn (leBytes 1 up ++ leBytes 1 link ++ leBytes 2 lanes ++ leBytes 4 seq)) 3 (4 * sn + 3)

/-- The link group of a sensor loses lock: its open frame closes at once (R112). -/
def linkDown (s : State) (sn link lanes : Nat) : State :=
  let x := sensorOf s sn
  if x.cfg.isNone then s
  else if !x.linkUp then updSensor s sn fun x => { x with unlocked := x.unlocked ||| lanes }
  else
    let seq := ((openIngest s sn).map (·.seq)).getD 0xFFFFFFFF
    let s1 := updSensor (countCheck s sn 14 3 1) sn fun x => { x with linkUp := false, linkLost := true, unlocked := lanes }
    linkEvent (closeFrame s1 sn (2 ^ 0 + 2 ^ 6)) sn 0 link lanes seq

/-- LINK_LOCK_LOSS (R112). -/
def execLinkLockLoss (sensor link : Fin 4) (lanes : BitVec 16) (s : State) : Host.Outcome State Fault Refusal :=
  .next (linkDown s sensor.val link.val lanes.toNat)

/-- The link group of a sensor is up again (R112). -/
def linkCame (s : State) (sn link : Nat) : State :=
  linkEvent (updSensor s sn fun x => { x with linkUp := true, linkLost := false, unlocked := 0 }) sn 1 link 0 0xFFFFFFFF

/-- SENSOR_LINK_UP (R112). -/
def execSensorLinkUp (sensor link : Fin 4) (s : State) : Host.Outcome State Fault Refusal :=
  let x := sensorOf s sensor.val
  if x.cfg.isNone || x.linkUp then .next s else .next (linkCame s sensor.val link.val)

/-! ## Release (R28, R116) -/

/-- Whether firmware may release a frame's slot (R28). -/
def mayRelease (s : State) (sn : Nat) (f : IngestFrame) : Bool :=
  f.closed && !f.released && f.codecHold.isEmpty &&
    (if f.drop.isSome then bandsRunning s sn f.seq == 0 else f.complete)

/-- A frame leaves its slot. -/
def releaseSlot (s : State) (sn : Nat) (f : IngestFrame) : State :=
  let s1 := updSensor s sn fun x => { x with
    freeSlots := match x.cfg, f.slot with
      | some c, some n => if c.base == f.cfg.base then x.freeSlots ++ [n] else x.freeSlots
      | _, _ => x.freeSlots }
  sweep (flushItems (updIngest s1 sn f.seq fun g => { g with released := true, itemReady := true }) sn)

/-- SLOT_RELEASE (R28). -/
def execSlotRelease (sensor : Fin 4) (slot : Fin 8) (s : State) : Host.Outcome State Fault Refusal :=
  match (sensorOf s sensor.val).frames.find? fun f => f.slot == some slot.val && mayRelease s sensor.val f with
  | some f => .next (releaseSlot s sensor.val f)
  | none => .next s

end Sys2Proof.Machine
end

