-- ==== Sys2Proof/Machine/LaneRows.lean ====
section
/-! DEFINITION. The lane commands and the events of lanes and links (chapter 15). -/

namespace Sys2Proof.Machine

/-- Whether the boot flash takes what the row writes to the ledger. -/
def withFlash (s : State) (ok : Bool) : State := { s with spare.flashOk := ok }

/-- A lane address that no FMC9 part has, or that this one does not bond (R356). -/
def laneField (b : Body) (off : Nat) (s : State) : List (Option Rej) :=
  [eRange (lanePlace (fld b off 1)).isNone off, eVariant (!laneBonded s.fuse (fld b off 1)) off]

/-! ## LANE_CONFIG (R357 to R362) -/

def persOf (b : Body) (i : Nat) : Nat := fld b (8 + i) 1
def rateOf (b : Body) (i : Nat) : Nat := fld b (0x0C + i) 1
def pllOf (b : Body) (i : Nat) : Nat := fld b (0x10 + i) 1
def quadAsked (b : Body) : Quad := { refA := fld b 1 1, fa := fld b 2 1, srcB := fld b 3 1, fb := fld b 4 1 }

/-- The lowest position whose personality differs from that of position 0, in a quad with a PCIe lane. -/
def pcieMixed (b : Body) : Option Nat :=
  if (List.range 4).any fun i => persOf b i == 4 || persOf b i == 5 then
    (List.range 4).find? fun i => persOf b i != persOf b 0
  else none

/-- A lane's rate is known from its code. -/
def codeRate (b : Body) (i : Nat) : Option Nat :=
  if [0, 3, 7].contains (persOf b i) then none else some (laneRate (persOf b i) (rateOf b i))

/-- A lower position on the same PLL at a rate it cannot share. -/
def pllConflict (b : Body) (i : Nat) : Bool :=
  (List.range i).any fun j => persOf b j != 0 && persOf b i != 0 && pllOf b j == pllOf b i &&
    match codeRate b j, codeRate b i with
    | some x, some y => !ratesShare x y
    | _, _ => false

/-- A lane whose settings the command changes, or that runs on a PLL whose setting it changes. -/
def laneChanged (b : Body) (s : State) (i : Nat) : Bool :=
  let q := fld b 0 1
  let x := laneOf s (4 * q + i)
  let old := quadOf s q
  let new := quadAsked b
  x.pers != persOf b i || x.rate != rateOf b i || x.pll != pllOf b i ||
    (x.pers != 0 && (if x.pll = 0 then old.refA != new.refA || old.fa != new.fa
      else old.srcB != new.srcB || old.fb != new.fb))

/-- A lane's state under a personality it has just been given. -/
def configState (pers : Nat) : Nat := if pers = 3 || pers = 4 then 2 else 1

def configLane (b : Body) (s : State) (i : Nat) : State :=
  let a := 4 * fld b 0 1 + i
  if !laneChanged b s i then s
  else
    let s1 := updSerial s a fun x =>
      presetTaps { x with pers := persOf b i, rate := rateOf b i, pll := pllOf b i }
    if (laneOf s1 a).st = 6 then s1 else setLane s1 a (configState (persOf b i)) 0

def laneConfigCard (khzA khzB : Nat) : Card where
  opcode := 0x0B01
  len := fixedLen 0x14
  fields b s :=
    let f := s.fuse
    let q := fld b 0 1
    let peri := 3 < fld b 3 1
    [inRange b 0 1 0 11, eVariant (!laneBonded f (4 * q)) 0, oneOf b 1 1 [0, 1, 2, 3, 0xFF],
     inMode (fld b 1 1 != 0xFF) (inRange b 2 1 0 1), oneOf b 3 1 [0, 1, 2, 3, 4, 0xFF], inMode (!peri) (inRange b 4 1 0 1),
     resv b 5 3] ++
    ((List.range 4).flatMap fun i => [inRange b (8 + i) 1 0 7,
      eVariant (!f.ring && (persOf b i == 1 || persOf b i == 2)) (8 + i)]) ++
    ((List.range 4).map fun i => inMode (persOf b i != 0) (inRange b (0x10 + i) 1 0 1)) ++
    [inMode (fld b 1 1 == 0xFF) (mustBe0 b 2 1), inMode peri (mustBe0 b 4 1)] ++
    ((List.range 4).flatMap fun i => [eComb (!laneAllows f (4 * q + i) (persOf b i)) (8 + i),
      eComb (pcieMixed b == some i) (8 + i)]) ++
    ((List.range 4).map fun i => eComb (!rateListed (persOf b i) (rateOf b i)) (0x0C + i)) ++
    ((List.range 4).map fun i => eComb ((persOf b i == 0 && pllOf b i != 0) ||
      !pllFits (quadAsked b) (persOf b i) (rateOf b i) (pllOf b i) || pllConflict b i) (0x10 + i))
  state b s :=
    let q := quadAsked b
    [eStateAt ((List.range 4).any fun i => laneChanged b s i && laneInUse s (4 * fld b 0 1 + i)) 0,
     rejIf (q.refA != 0xFF && !refQualifies q.fa khzA) 0x0B01 1 khzA,
     rejIf (q.srcB < 4 && !refQualifies q.fb khzB) 0x0B01 3 khzB]
  effect _ b s :=
    let s1 := (List.range 4).foldl (configLane b) s
    (epTrain { s1 with lane.quads := s1.lane.quads.set (fld b 0 1) (quadAsked b) }, .now [])

/-- LANE_CONFIG, with the frequencies measured on the REFQ inputs it names for PLL A and PLL B. -/
def execLaneConfig (n : Fin 40) (khzA khzB : Nat) (s : State) : Host.Outcome State Fault Refusal :=
  .next (mbxRun (laneConfigCard khzA khzB) n.val s)

/-! ## LANE_STATUS -/

def laneStatusCard (taps : List Int) (eyeW eyeH : Nat) : Card where
  opcode := 0x0B02
  len := fixedLen 4
  fields b s := laneField b 0 s ++ [inRange b 1 1 0 1, resv b 2 2]
  effect _ b s :=
    let a := fld b 0 1
    let s0 := updSerial s a fun x => if x.st = 3 then
        { x with taps := if x.eq = 1 then (List.range 12).map fun i => tapRange i (taps.getD i 0) else x.taps
                 eyeW := eyeW % 2 ^ 16, eyeH := eyeH % 2 ^ 16 }
      else x
    let x := laneOf s0 a
    let s1 := if fld b 1 1 = 0 then s0
      else updSerial s0 a fun x => { x with
        lockLosses := 0, markerFails := 0, stuffErrors := 0, codeErrors := 0, idleIns := 0, idleDel := 0, loopErrors := 0 }
    (s1, .now (leBytes 1 x.st ++ leBytes 1 x.pers ++ leBytes 1 x.rate ++ leBytes 1 x.pll ++ leBytes 1 x.eq ++
      leBytes 1 ((lanePort s a).getD 0xFF) ++ leBytes 1 ((lanePos s a).getD 0xFF) ++ [0] ++
      ((List.range 12).flatMap fun i => leInt 1 (x.taps.getD i 0)) ++ leBytes 2 x.eyeW ++ leBytes 2 x.eyeH ++
      leBytes 4 x.lockLosses ++ leBytes 4 x.markerFails ++ leBytes 4 x.stuffErrors ++ leBytes 4 x.codeErrors ++
      leBytes 4 x.idleIns ++ leBytes 4 x.idleDel ++ leBytes 4 x.loopErrors ++ zeros 12))

/-- LANE_STATUS, with the taps and the eye as the lane has them now. -/
def execLaneStatus (n : Fin 40) (taps : List Int) (eyeW eyeH : Nat) (s : State) : Host.Outcome State Fault Refusal :=
  .next (mbxRun (laneStatusCard taps eyeW eyeH) n.val s)

/-! ## LANE_LINK (R377, R382, R386, R389) -/

def linkLanes (b : Body) : List Nat := (List.range (fld b 3 1)).map (fld b 2 1 + ·)

/-- The first other port that has one of the named lanes. -/
def laneBusy (b : Body) (s : State) : Option Rej :=
  ((linkLanes b).findSome? fun a => (lanePort s a).filter (· != fld b 0 1)).bind fun p => rejIf true 0x0B02 2 p

/-- Bind lanes to a port: they train, and the spare rests in the shallow state. -/
def bindLink (s : State) (q : Nat) (l : LaneLink) : State :=
  let s1 := { s with lane.links := s.lane.links.set q (some l) }
  let s2 := l.lanes.foldl (fun s a => if (laneOf s a).st = 6 then s else setLane s a 2 0) s1
  let k := pairOf (l.lanes.headD 0)
  if l.spare && spareFree s2 k then setLane s2 (pairSpare s2 k).lane 7 0 else s2

/-- Unbind a port: its lanes return to the deep state, but for one that has become its pair's spare; a spare in use
returns to the pool. -/
def unbindLink (s : State) (q : Nat) : State :=
  match linkOf s q with
  | none => s
  | some l =>
    let s0 := if l.up then linkEventOf (updLink s q fun l => { l with up := false }) q 1 0xFF else s
    let s1 := { s0 with lane.links := s0.lane.links.set q none }
    let k := pairOf (l.lanes.headD 0)
    let s2 := (members l).foldl (fun s a => if laneRetired s a then s else setLane s a 1 0) s1
    let s3 := match l.spareLane with
      | some a =>
        let own := (pairSpare s2 k).lane == a
        let s3 := { s2 with lane.pairs := modAt s2.lane.pairs k fun x => if own then { x with user := none } else x }
        setLane s3 a (idleState s3 a) 0
      | none => if l.spare && spareFree s2 k then setLane s2 (pairSpare s2 k).lane (idleState s2 (pairSpare s2 k).lane) 0 else s2
    updPort s3 q fun p => { p with state := 0, lanesUp := false }

def laneLinkCard : Card where
  opcode := 0x0B03
  len := fixedLen 8
  fields b s :=
    let bind := fld b 1 1 = 1
    let lanes := linkLanes b
    let first := laneOf s (fld b 2 1)
    [inRange b 0 1 0 7, eVariant (!s.fuse.ring) 0, inRange b 1 1 0 1, inMode bind (eRange (lanePlace (fld b 2 1)).isNone 2),
     inMode bind (eVariant (!laneBonded s.fuse (fld b 2 1)) 2), inMode bind (inRange b 3 1 1 4),
     inMode bind (inRange b 4 1 0 1), resv b 5 3] ++
    (if bind then
      [eComb (64 ≤ fld b 2 1 || fld b 2 1 % 4 != 0) 2, laneBusy b s,
       eComb (lanes.any fun a => (laneOf s a).pers != first.pers || (laneOf s a).rate != first.rate) 3,
       eComb (fld b 4 1 == 1 && first.pers == 2) 4]
     else zeroFields b [(2, 1), (3, 1), (4, 1)])
  seq b s :=
    if fld b 1 1 = 1 then [eSeqAt (!(linkLanes b).all fun a => [1, 2].contains (laneOf s a).pers) 2]
    else [eSeqAt (linkOf s (fld b 0 1)).isNone 0]
  state b s :=
    if fld b 1 1 = 1 then [eStateAt (linkOf s (fld b 0 1)).isSome 0]
    else [eStateAt (s.ring.configured && (portRole s (fld b 0 1)).isSome) 0]
  effect _ b s :=
    let q := fld b 0 1
    (if fld b 1 1 = 1 then bindLink s q { lanes := linkLanes b, spare := fld b 4 1 == 1 } else unbindLink s q, .now [])

def execLaneLink (n : Fin 40) (s : State) : Host.Outcome State Fault Refusal :=
  .next (mbxRun laneLinkCard n.val s)

/-! ## LANE_POWER (R376, R383) -/

/-- A lane kind that R376 gives power states: a SENSOR lane with no streaming sensor, an unlinked CAUSEWAY lane,
or a spare at rest. -/
def lanePowerOk (s : State) (a state : Nat) : Bool :=
  let x := laneOf s a
  if 64 ≤ a || (List.range 6).any (fun k => (pairSpare s k).lane == a) then x.st == 7 || x.st == 1
  else if x.pers = 3 then state != 2 || !((laneSensor s a).any fun sn => (sensorOf s sn).streaming)
  else x.pers == 1

/-- A port whose link has low-power states. -/
def portPowerOk (s : State) (q : Nat) : Bool :=
  (linkOf s q).any fun l => l.formed && (laneOf s (l.lanes.headD 0)).pers == 1

/-- The sensor whose link group holds a lane, with the link and the lane's number among the SENSOR lanes (R118). -/
def laneGroup (s : State) (a : Nat) : Option (Nat × Nat × Nat) :=
  (laneSensor s a).bind fun sn => (sensorOf s sn).cfg.map fun c =>
    (sn, (a - 4 - c.first) / max 1 c.lanesPer, a - 4)

/-- The host asks for a lane's state. -/
def lanePower (s : State) (a state : Nat) : State :=
  let x := laneOf s a
  if x.pers = 3 then
    (if state = 2 then
      (match laneGroup s a with
        | some g => linkDown (setLane s a 1 0) g.1 g.2.1 (2 ^ g.2.2)
        | none => setLane s a 1 0)
    else if x.st = 1 then setLane s a 2 0 else s)
  else if x.st = 7 || 64 ≤ a then setLane s a (if state = 2 then 1 else 7) 0
  else s

def lanePowerCard : Card where
  opcode := 0x0B04
  len := fixedLen 4
  fields b s :=
    let lane := fld b 0 1 = 0
    let x := laneOf s (fld b 1 1)
    [inRange b 0 1 0 1] ++ (if lane then laneField b 1 s else [inRange b 1 1 0 7, eVariant (!s.fuse.ring) 1]) ++
    [inRange b 2 1 0 2, resv b 3 1, inMode lane (eComb ([2, 4, 5, 6, 7].contains x.pers ||
      (lanePort s (fld b 1 1)).isSome) 0), inMode lane (eComb (x.pers == 3 && fld b 2 1 == 1) 2)]
  state b s := [eStateAt (!(if fld b 0 1 = 0 then lanePowerOk s (fld b 1 1) (fld b 2 1) else portPowerOk s (fld b 1 1))) 2]
  effect _ b s :=
    (if fld b 0 1 = 0 then lanePower s (fld b 1 1) (fld b 2 1) else portPower s (fld b 1 1) (fld b 2 1), .now [])

def execLanePower (n : Fin 40) (s : State) : Host.Outcome State Fault Refusal :=
  .next (mbxRun lanePowerCard n.val s)

/-! ## LANE_LOOP (R375, R380, R383) -/



/-- A retired lane that passes becomes its pair's spare in place of the one in use or retired, and leaves its link. -/
def returnSpare (s : State) (a : Nat) : State :=
  let k := pairOf a
  let s1 := laneLedger s 2 8 a 0
  if spareFree s1 k || spareLanes s.fuse ≤ k then setLane s1 a 1 0
  else
    let s2 := match lanePort s1 a with
      | some q => updLink s1 q fun l => { l with returned := l.returned ++ [a] }
      | none => s1
    let s3 := { s2 with lane.pairs := modAt s2.lane.pairs k fun _ => { lane := a } }
    setLane s3 a (idleState s3 a) 0

/-- A loop ends: result 0 pass, 1 errors, 2 no lock, 3 stopped. -/
def endLoop (s : State) (a result bits errs : Nat) : State :=
  match (laneOf s a).loop with
  | none => s
  | some l =>
    let back := l.returnSpare && result = 0
    let s1 := updSerial s a fun x => { x with loop := none, loopErrors := sat32 x.loopErrors errs }
    let s2 := if back then returnSpare s1 a else setLane s1 a (if l.retired then 6 else idleState s1 a) 0
    loopEvent s2 a l result back bits errs

/-- The loop that `LANE_LOOP` asks for, on a lane in its present state. -/
def loopAsked (b : Body) (x : SerialLane) : LaneLoop :=
  { loop := fld b 1 1, pattern := fld b 2 1, returnSpare := fld b 3 1 == 1, seconds := fld b 4 2
    retired := x.st = 6 || x.loop.any (·.retired) }

def laneLoopCard (bits errs : Nat) : Card where
  opcode := 0x0B05
  len := fixedLen 8
  fields b s :=
    let a := fld b 0 1
    let x := laneOf s a
    let start := fld b 4 2 != 0
    laneField b 0 s ++
    [inMode start (inRange b 1 1 1 3), inMode start (inRange b 2 1 0 3), inMode start (inRange b 3 1 0 1),
     inRange b 4 2 0 3600, resv b 6 2] ++
    (if start then
      [eComb (fld b 1 1 == 3 && x.pers != 1 && x.pers != 2) 1, eComb (fld b 2 1 == 3 && x.pers != 1 && x.pers != 3) 2,
       eComb (fld b 3 1 == 1 && fld b 1 1 != 1) 3]
     else zeroFields b [(1, 1), (2, 1), (3, 1)])
  seq b s := [eSeqAt (fld b 4 2 != 0 && fld b 3 1 == 1 && !laneRetired s (fld b 0 1)) 3]
  state b s :=
    if fld b 4 2 != 0 then [eStateAt (laneInUse s (fld b 0 1)) 0]
    else [eStateAt (laneOf s (fld b 0 1)).loop.isNone 4]
  effect _ b s :=
    let a := fld b 0 1
    (if fld b 4 2 = 0 then endLoop s a 3 bits errs
     else setLane (updSerial s a fun x => { x with loop := some (loopAsked b x) }) a 5 0, .now [])

/-- LANE_LOOP; a stopped loop reports what its checker has counted. -/
def execLaneLoop (n : Fin 40) (bits : BitVec 64) (errs : BitVec 32) (s : State) : Host.Outcome State Fault Refusal :=
  .next (mbxRun (laneLoopCard bits.toNat errs.toNat) n.val s)

/-- LANE_LOOP_END: a loop ends at its time (R383). -/
def execLaneLoopEnd (lane : Fin 70) (locked : Bool) (bits : BitVec 64) (errs : BitVec 32) (flash : Bool) (s : State) :
    Host.Outcome State Fault Refusal :=
  .next (endLoop (withFlash s flash) lane.val (if !locked then 2 else if errs = 0 then 0 else 1) bits.toNat errs.toNat)

/-! ## LANE_EQ (R373) -/

def laneEqCard : Card where
  opcode := 0x0B06
  len := fixedLen 4
  fields b s := laneField b 0 s ++ [inRange b 1 1 0 2, resv b 2 2]
  state b s :=
    let x := laneOf s (fld b 0 1)
    [eStateAt (x.st != 3 || !([1, 2, 3].contains x.pers)) 0]
  effect _ b s :=
    (updSerial (if fld b 1 1 = 1 then adapted s (fld b 0 1) else s) (fld b 0 1) fun x =>
      if fld b 1 1 = 1 then { x with eq := 3 }
      else if fld b 1 1 = 0 then { x with eq := 1 }
      else { presetTaps x with eq := 1 }, .now [])

def execLaneEq (n : Fin 40) (s : State) : Host.Outcome State Fault Refusal :=
  .next (mbxRun laneEqCard n.val s)

/-! ## Lock (R112, R368 to R372, R378, R379) -/

/-- A lane that has lost lock trains again, and what it carries suffers (R381). -/
def laneLost (s : State) (a cause : Nat) : State :=
  let x := laneOf s a
  if x.st != 3 && x.st != 4 then s
  else
    let s1 := countLoss s a
    match lanePort s a with
    | some q =>
      (match linkOf s q with
        | none => s1
        | some l =>
          if x.pers = 2 then loseOld s [a] cause
          else if l.spareLane == some a then afterLoss (loseSpare s1 q a 4 cause) q (l.sparePos.getD 0xFF)
          else match l.lanes.findIdx? (· == a) with
            | some pos => if l.formed then losePosition s1 q pos 4 cause else setLane s1 a 2 cause
            | none => s1)
    | none =>
      let s2 := setLane s1 a (if x.pers ≤ 1 then 1 else 2) cause
      if x.pers = 3 then
        match laneGroup s a with
        | some g => linkDown s2 g.1 g.2.1 (2 ^ g.2.2)
        | none => s2
      else if x.pers = 4 || x.pers = 5 then pcieRetrain s2 a
      else if x.pers = 6 then
        match (List.range 2).find? fun e => ethLane s.fuse e == a with
        | some e => ethLink s2 e false
        | none => s2
      else s2

/-- A lane gains block lock. -/
def laneLocked (s : State) (a : Nat) : State :=
  let s1 := setLane s a 3 0
  match lanePort s a with
  | some q => formLink s1 q
  | none => match (laneOf s a).pers == 3, laneGroup s a with
    | true, some g =>
      if (sensorOf s1 g.1).linkUp || !((sensorOf s1 g.1).cfg.any (sensorLanesLocked s1)) then s1
      else linkCame s1 g.1 g.2.1
    | _, _ => if (laneOf s a).pers = 4 then epTrain s1 else s1

/-- A lane of a link or of a sensor's link group, whose lanes are aligned (R370). -/
def alignedLane (s : State) (a : Nat) : Bool := (lanePort s a).isSome || ((laneOf s a).pers == 3 && (laneSensor s a).isSome)

/-- LANE_BLOCK_LOCK (R368, R371): a lane in training locks, unless it is skewed by more than 40 ns (R370). -/
def execLaneBlockLock (lane : Fin 70) (skewNs : Nat) (flash : Bool) (s : State) : Host.Outcome State Fault Refusal :=
  let a := lane.val
  if (laneOf s a).st != 2 then .next s
  else if 40 < skewNs && alignedLane s a then .next (laneEvent s a 2 2 6)
  else .next (laneLocked (withFlash s flash) a)

/-- LANE_LOCK_LOSS (R368): clock recovery unlocks, or four markers fail. -/
def execLaneLockLoss (lane : Fin 70) (markers flash : Bool) (s : State) : Host.Outcome State Fault Refusal :=
  .next (laneLost (withFlash s flash) lane.val (if markers then 2 else 1))

/-- REFQ_LOST (R358): every lane on a PLL that the input feeds loses lock. -/
def execRefqLost (refq : Fin 4) (flash : Bool) (s : State) : Host.Outcome State Fault Refusal :=
  let fed := (laneAddrs s.fuse).filter fun a => laneFedBy s a refq.val
  let isOld (a : Nat) : Bool := (laneOf s a).pers == 2 && (laneOf s a).st == 3 && (lanePort s a).isSome
  if fed.isEmpty then .next s
  else .next ((fed.filter fun a => !isOld a).foldl (fun s a => laneLost s a 4)
    (loseOld (setLeaf (withFlash s flash) 11 11) (fed.filter isOld) 4))

/-- SPARE_LOCK_TIMEOUT (R379): the spare of a pair did not lock within 40 µs and is retired. -/
def execSpareLockTimeout (pair : Fin 6) (flash : Bool) (s : State) : Host.Outcome State Fault Refusal :=
  let x := pairSpare s pair.val
  match x.user with
  | none => .next s
  | some q =>
    if (laneOf s x.lane).st != 2 then .next s
    else
      .next (loseSpare (countLoss (withFlash s flash) x.lane) q x.lane 4 5)

/-- The partner's masks arrive (R378): positions it has dropped are retired, the spare that had joined among them. -/
def partnerMasks (s : State) (q ok active : Nat) : State :=
  match linkOf s q with
  | none => s
  | some l =>
    let dropped := (List.range l.lanes.length).filter fun i => l.formed && !l.lost.contains i &&
      ((l.partnerOk.testBit i && !ok.testBit i) || (l.partnerActive.testBit i && !active.testBit i))
    let s1 := updLink s q fun l => { l with partnerOk := ok, partnerActive := active }
    let gone := l.joined && ((l.partnerOk.testBit 4 && !ok.testBit 4) || (l.partnerActive.testBit 4 && !active.testBit 4))
    let s2 := match gone, l.spareLane with
      | true, some a => afterLoss (loseSpare s1 q a 5 3) q (l.sparePos.getD 0xFF)
      | _, _ => s1
    dropped.foldl (fun s i => losePosition s q i 5 3) s2

/-- The partner's low-power request meets this end's (R376). -/
def partnerPower (s : State) (q : Nat) (lp deep : Bool) : State :=
  match linkOf s q with
  | none => s
  | some l =>
    if l.lp = 0 then
      (if lp && asksPower s l && l.up then enterLowPower s q (max l.lpAsk (if deep then 2 else 1)) else s)
    else if !lp then leaveLowPower s q else s

/-- The lanes that share a lane's elastic buffer: those of its Causeway link that receive, with the spare in use, or
those of its sensor's link (R369). -/
def elasticLanes (s : State) (a : Nat) : List Nat :=
  match (lanePort s a).bind (linkOf s) with
  | some l => (members l ++ l.spareLane.toList).filter fun x => [3, 4].contains (laneOf s x).st
  | none => match laneGroup s a with
    | some (sn, link, _) =>
      ((sensorOf s sn).cfg.map fun c => (List.range c.lanesPer).map (4 + c.first + link * c.lanesPer + ·)).getD []
    | none => []

/-- Elastic buffers: an idle word inserted (1) or deleted (2) on every lane of the link (R369). -/
def elastic (s : State) (a idle : Nat) : State :=
  (elasticLanes s a).foldl (fun s a => updSerial s a fun x => { x with
      idleIns := if idle = 1 then sat32 x.idleIns 1 else x.idleIns
      idleDel := if idle = 2 then sat32 x.idleDel 1 else x.idleDel }) s

/-- MILESTONE_MARKER (R365 to R369, R376, R378, R379): a marker on a native lane, the elastic buffer's move at it,
the stuff errors of its block, and, where the partner asks for low power, whether for the deep state. -/
def execMilestoneMarker (lane : Fin 70) (marker : List Byte) (idle : Fin 3) (stuffErrors : Nat) (deep flash : Bool)
    (s : State) : Host.Outcome State Fault Refusal :=
  let a := lane.val
  let x := laneOf s a
  if !([1, 3].contains x.pers) || x.st = 6 || x.st = 5 then .next s
  else
    let s1 := updSerial (withFlash s flash) a fun x => { x with stuffErrors := sat32 x.stuffErrors stuffErrors }
    if !markerGood marker then .next (updSerial s1 a fun x => { x with markerFails := sat32 x.markerFails 1 })
    else match lanePort s1 a with
      | none => .next (elastic s1 a idle.val)
      | some q =>
        let s2 := partnerMasks (elastic s1 a idle.val) q (fld marker 6 1 % 32) (fld marker 5 1 % 32)
        let s3 := joinSpare (formLink s2 q) q
        .next (partnerPower s3 q ((fld marker 2 1).testBit 3) deep)

/-- ALIGNMENT_COLUMN (R371, R372): the invalid code groups of a stretch of 1,024 columns on an 8b/10b lane; 16 of
them lose its lock. -/
def execAlignmentColumn (lane : Fin 70) (invalid : Nat) (s : State) : Host.Outcome State Fault Refusal :=
  let a := lane.val
  if (laneOf s a).pers != 2 || (laneOf s a).st != 3 then .next s
  else
    let s1 := updSerial s a fun x => { x with codeErrors := sat32 x.codeErrors invalid }
    .next (if 16 ≤ invalid then laneLost s1 a 2 else s1)

/-- LANE_WEAR_RETIRE (R591, R592): the spare at rest starts to train for the position of a worn lane. -/
def execLaneWearRetire (lane : Fin 70) (s : State) : Host.Outcome State Fault Refusal :=
  let a := lane.val
  match lanePort s a with
  | none => .next s
  | some q => match linkOf s q with
    | none => .next s
    | some l => match l.lanes.findIdx? (· == a) with
      | none => .next s
      | some pos =>
        if l.spare && l.formed && l.spareLane.isNone && l.sparePos.isNone && (laneOf s a).st == 3 &&
            spareFree s (pairOf a) && (laneOf s (pairSpare s (pairOf a)).lane).st == 7 then
          .next (takeSpare (updLink s q fun l => { l with worn := some pos }) q pos)
        else .next s

end Sys2Proof.Machine
end

