-- ==== Sys2Proof/Machine/Time.lean ====
section
/-! DEFINITION. The time base's commands and events (chapter 20). -/

namespace Sys2Proof.Machine

/-! ## Commands (R495, R496) -/

/-- The source a code names (R480). -/
def sourceOf (k : Nat) : DomSource :=
  match k with
  | 1 => .ptp | 2 => .flow | 3 => .sync | 4 => .free | _ => .none

/-- A domain restarts with its settings changed by `set`, its earlier source freed; views run on. -/
def restartDomain (s : State) (d : Nat) (set : Domain → Domain) (flow : Option Nat) : State :=
  let old := domOf s d
  let s1 := { freezeViews (freeDomainContexts s d) d with time.reopen := s.time.reopen.set d false }
  let c := now s
  let s2 := updDom s1 d fun x =>
    let y := set x
    { y with
      state := match y.source with
        | .none => .off
        | .free => .locked
        | _ => .acquiring
      ofs := mod96 (freeTime s.fuse c), anchor := c, rate := s.fuse.xtalCorr, rates := [], window := []
      good := 0, bad := 0, iNum := 0, theta := 0, path := 0, pathNs := 0, syncT := none, lockedAt := c, flow := flow }
  followViews (domainEvent s2 d old.state 0)

/-- `TIME_DOMAIN` takes effect. -/
def domainApply (s : State) (b : Body) (flow : Option Nat) : State :=
  restartDomain s (fld b 0 1) (fun x => { x with
    source := sourceOf (fld b 1 1), port := fld b 2 1, ptpDomain := fld b 3 1, logSync := sfld b 4 1
    logAnnounce := sfld b 5 1, receiptTimeout := fld b 6 1, stageAddr := fld b 8 2, tauMs := fld b 0x0C 4
    lockNs := fld b 0x10 4 }) flow

/-- TIME_DOMAIN (R480, R481, R482, R495): a time flow is opened first, and the command answers with it. -/
def timeDomainCard : Card where
  opcode := 0x1001
  len := fixedLen 0x14
  fields b s :=
    let ptp := fld b 1 1 == 1
    let other := domOf s (1 - fld b 0 1)
    [inRange b 0 1 0 1, inRange b 1 1 0 4, eVariant (fld b 1 1 == 2 && !s.fuse.ring) 1,
     inMode ptp (inRange b 2 1 0 1), inMode ptp (inRange b 3 1 0 127), inMode ptp (sRange b 4 1 (-7) (-1)),
     inMode ptp (sRange b 5 1 (-3) 1), inMode ptp (inRange b 6 1 2 10), resv b 7 1,
     inMode (fld b 1 1 == 2) (inRange b 8 2 0 4095), resv b 0x0A 2, inRange b 0x0C 4 100 60000,
     inRange b 0x10 4 10 1000000,
     offMode ptp (mustBe0 b 2 1), offMode ptp (mustBe0 b 3 1),
     eComb (ptp && other.source == .ptp && other.port == fld b 2 1 && other.ptpDomain == fld b 3 1) 3,
     offMode ptp (mustBe0 b 4 1), offMode ptp (mustBe0 b 5 1), offMode ptp (mustBe0 b 6 1),
     offMode (fld b 1 1 == 2) (mustBe0 b 8 2)]
  seq b s := [eSeqAt (fld b 1 1 == 1 && !ethPortUp s (fld b 2 1)) 2]
  res b s :=
    -- the old source holds its contexts while a time flow opens (R405)
    [eNoCtx ((fld b 1 1 == 1 && !pinnedFree (freeDomainContexts s (fld b 0 1))) || (fld b 1 1 == 2 && !pinnedFree s)) 1024,
     rejIf (fld b 1 1 == 2 && (!inBudget s || (routeTo s (fld b 8 2)).isNone)) 0x1001 8 8]
  effect n b s :=
    if fld b 1 1 = 2 then
      let r := startOpen s { num := 0, kind := 3, state := 1, partner := fld b 8 2, slot := some n }
      (launchOpen r.2 r.1, .later)
    else (domainApply s b none, .now [])

def execTimeDomain (n : Fin 40) (s : State) : Host.Outcome State Fault Refusal :=
  .next (mbxRun timeDomainCard n.val s)

/-- TIME_SELECT (R484 to R488). -/
def timeSelectCard : Card where
  opcode := 0x1002
  len := fixedLen 8
  fields b _ := [inRange b 0 1 0 1, oneOf b 1 1 [0, 1, 0xFF], inRange b 2 1 0 1, inRange b 3 1 0 1,
    inRange b 4 4 100 100000, eComb (fld b 1 1 == fld b 0 1) 1]
  seq b s := [eSeqAt ((domOf s (fld b 0 1)).state == .off) 0]
  effect _ b s :=
    let force := fld b 3 1 == 1
    let s1 := { s with
      time.primary := fld b 0 1
      time.secondary := if fld b 1 1 = 0xFF then none else some (fld b 1 1)
      time.revert := fld b 2 1 == 1
      time.slewPpb := fld b 4 4 }
    let s2 := followS s1 force
    let s3 := match s2.time.stepWait && force, s2.time.stepTo with
      | true, some d => if isLocked s2 d then stepS s2 d else s2
      | _, _ => s2
    let s4 := followL s3
    (s4, .now (leBytes 1 (baseCode s4.time.viewS.base) ++ [0, 0, 0]))

def execTimeSelect (n : Fin 40) (s : State) : Host.Outcome State Fault Refusal :=
  .next (mbxRun timeSelectCard n.val s)

/-- TIME_PORT (R478, R479, R496). -/
def timePortCard : Card where
  opcode := 0x1003
  len := fixedLen 0x10
  fields b _ := [inRange b 0 1 0 11, resv b 1 3, sRange b 4 4 (-100000) 100000, sRange b 8 4 (-100000) 100000,
    inMode (fld b 0 1 < 2) (sRange b 0x0C 4 (-100000) 100000), eComb (2 ≤ fld b 0 1 && fld b 0x0C 4 != 0) 0x0C]
  effect _ b s := ({ s with
    time.rxAdj := s.time.rxAdj.set (fld b 0 1) (sfld b 4 4)
    time.txAdj := s.time.txAdj.set (fld b 0 1) (sfld b 8 4)
    time.asym := s.time.asym.set (fld b 0 1) (sfld b 0x0C 4) }, .now [])

def execTimePort (n : Fin 40) (s : State) : Host.Outcome State Fault Refusal :=
  .next (mbxRun timePortCard n.val s)

/-- The sync input's frames have stopped, or it is off (R491): a qualified format is lost, and its domains their source. -/
def loseSync (s : State) : State :=
  let s1 := { s with time.syncIn := { s.time.syncIn with format := 0, frames := 0, candidate := 0 } }
  if s.time.syncIn.format = 0 then s1 else losesSources (syncEvent s1 0) (syncDomains s1) 4

/-- TIME_SYNC (R491, R496). -/
def timeSyncCard : Card where
  opcode := 0x1004
  len := fixedLen 0x10
  fields b _ := [inRange b 0 1 0 1, inRange b 1 1 0 4, resv b 2 2, oneOf b 8 2 [1, 1001], resv b 0x0A 2,
    eComb (!syncRateOk (fld b 1 1) (fld b 4 4) (fld b 8 2)) 4]
  effect _ b s :=
    let s1 := if fld b 0 1 = 0 then loseSync s else s
    let s2 := { s1 with
      time.syncIn := { s1.time.syncIn with enable := fld b 0 1 == 1 }
      time.syncOutStd := fld b 1 1
      time.syncOutFpsNum := fld b 4 4
      time.syncOutFpsDen := fld b 8 2
      time.syncOutPhase := sfld b 0x0C 4 }
    -- SYNC_OUT starts at the next alignment point
    let t := viewTime s2 s2.time.viewS (now s2) + periodOf s2 13 / 2
    (updCadence s2 13 fun _ => if fld b 1 1 = 0 then {} else
      { start := some (if baseAligned s2 && (consumerRate s2 13).1 != 0 then alignedPoint s2 13 t (2 ^ 48) else t) }, .now [])

def execTimeSync (n : Fin 40) (s : State) : Host.Outcome State Fault Refusal :=
  .next (mbxRun timeSyncCard n.val s)

/-- A BCD hh:mm:ss:ff value that exists at a rate. -/
def bcdOk (rate v : Nat) : Bool :=
  let d (k : Nat) := v / 16 ^ k % 16
  (List.range 8).all (fun k => d k ≤ 9) && unbcd (v / 2 ^ 24 % 256) < 24 && unbcd (v / 2 ^ 16 % 256) < 60 &&
    unbcd (v / 2 ^ 8 % 256) < 60 && unbcd (v % 256) < ltcFps rate

/-- TIME_LTC (R492, R493, R496). -/
def timeLtcCard : Card where
  opcode := 0x1005
  len := fixedLen 8
  fields b s := [inRange b 0 1 0 4, inRange b 1 1 0 3, inRange b 2 1 1 255, inRange b 3 1 0 1,
    inMode (fld b 1 1 == 0) (eRange (!bcdOk (fld b 0 1) (fld b 4 4)) 4),
    eComb (fld b 1 1 == 1 && (domOf s s.time.primary).source != .ptp) 1,
    offMode (fld b 1 1 == 0) (mustBe0 b 4 4)]
  effect _ b s := ({ s with
    time.ltc := { s.time.ltc with
      rate := fld b 0 1, genSrc := fld b 1 1, freewheel := fld b 2 1, outEnable := fld b 3 1 == 1,
      preset := fld b 4 4, readerValid := false, jammed := false, srcPending := true
      sent := if fld b 0 1 = 0 then none else s.time.ltc.sent } }, .now [])

def execTimeLtc (n : Fin 40) (s : State) : Host.Outcome State Fault Refusal :=
  .next (mbxRun timeLtcCard n.val s)

/-- TIME_SERVE (R481, R496). -/
def timeServeCard : Card where
  opcode := 0x1007
  len := fixedLen 4
  fields b _ := [inRange b 0 1 0 1, resv b 1 1, inMode (fld b 0 1 == 1) (inRange b 2 2 1 1024),
    offMode (fld b 0 1 == 1) (mustBe0 b 2 2)]
  effect _ b s := ({ s with time.serve := fld b 0 1 == 1, time.maxClients := fld b 2 2 }, .now [])

def execTimeServe (n : Fin 40) (s : State) : Host.Outcome State Fault Refusal :=
  .next (mbxRun timeServeCard n.val s)

def DomSource.code : DomSource → Nat
  | .none => 0 | .ptp => 1 | .flow => 2 | .sync => 3 | .free => 4

/-- A domain's block of `TIME_STATUS`. -/
def domainStatus (d : Domain) : List Byte :=
  leBytes 1 d.state.code ++ leBytes 1 d.source.code ++ leBytes 1 d.masters.length ++ [0] ++ leInt 4 d.rate ++
    leInt 4 (thetaNs d.theta) ++ leInt 4 d.pathNs ++ leBytes 4 d.lockLosses ++ leBytes 4 d.ignored ++
    leBytes 4 d.steps ++ [0, 0, 0, 0]

/-- TIME_STATUS (R496). -/
def timeStatusCard : Card where
  opcode := 0x1006
  len := fixedLen 4
  fields b _ := [inRange b 0 1 0 1, resv b 1 3]
  effect _ b s :=
    let resp := leBytes 4 (tbState s) ++ leInt 4 s.fuse.xtalCorr ++ domainStatus (domOf s 0) ++
      domainStatus (domOf s 1) ++ leBytes 1 s.time.syncIn.format ++ leBytes 1 (boolNat s.time.ltc.readerValid) ++
      [0, 0] ++ leBytes 4 (ltcReader s)
    (if fld b 0 1 = 1 then
      { s with time.doms := s.time.doms.map fun d => { d with lockLosses := 0, ignored := 0 } } else s, .now resp)

def execTimeStatus (n : Fin 40) (s : State) : Host.Outcome State Fault Refusal :=
  .next (mbxRun timeStatusCard n.val s)

/-! ## PTP (R478 to R480) -/

/-- Ts of a PTP domain: 2 ^ log_sync s. -/
def ptpInterval (d : Domain) : Nat := 2 ^ (-d.logSync).toNat

/-- PTP_SYNC (R479): the Sync of the best master, with its origin t1 (2^-48 s, corrections in) and its raw
ingress stamp. -/
def execPtpSync (d : Fin 2) (sender : Nat) (t1 : Int) (stamp : Nat) (s : State) :
    Host.Outcome State Fault Refusal :=
  let x := domOf s d.val
  if x.source != .ptp || (x.masters.head?.map (·.port)) != some sender then .next s
  else
    let (v, s1) := stampRx s x.port stamp
    let t2 := domTimeAt x v
    let theta := (t2 - t1) - x.path - psToTime (s.time.asym.getD x.port 0)
    let s2 := updDom s1 d.val fun y => { y with syncT := some (t1, t2) }
    .next (measure s2 d.val theta 1 (ptpInterval x))

/-- PTP_DELAY_RESP (R479): the raw egress stamp of the Delay_Req and the master's t4. -/
def execPtpDelayResp (d : Fin 2) (stamp : Nat) (t4 : Int) (s : State) : Host.Outcome State Fault Refusal :=
  let x := domOf s d.val
  if x.source != .ptp then .next s
  else
    let (v, s1) := stampTx s x.port stamp
    let t3 := domTimeAt x v
    .next (match x.syncT with
      | none => s1
      | some (t1, t2) =>
        let path := ((t2 - t1) + (t4 - t3)).fdiv 2
        updDom s1 d.val fun y => { y with path := path, pathNs := thetaNs path })

/-- Lexicographic order on data sets: the better master has the lower value. -/
def datasetLt : List Nat → List Nat → Bool
  | a :: as, b :: bs => a < b || (a == b && datasetLt as bs)
  | [], _ :: _ => true
  | _, [] => false

/-- Insert a foreign master, best first. -/
def insertMaster (m : ForeignMaster) : List ForeignMaster → List ForeignMaster
  | [] => [m]
  | x :: l => if datasetLt m.dataset x.dataset then m :: x :: l else x :: insertMaster m l

/-- PTP_ANNOUNCE (R480): at most four foreign masters, each with a pinned context. -/
def execPtpAnnounce (d : Fin 2) (sender : Nat) (dataset : List Nat) (s : State) :
    Host.Outcome State Fault Refusal :=
  let x := domOf s d.val
  let known := x.masters.any fun m => m.port == sender
  let put (s : State) : State := updDom s d.val fun y => { y with
    masters := insertMaster ⟨sender, dataset⟩ (y.masters.filter fun m => m.port != sender) }
  if x.source != .ptp then .next s
  else if known then .next (put s)
  else if 4 ≤ x.masters.length || !pinnedFree s then
    .next (updDom s d.val fun y => { y with ignored := sat32 y.ignored 1 })
  else
    let f : Flow := { num := 0, kind := 6, state := 2, partner := sender, token := d.val }
    .next (put (allocFlow s f).2)

/-- ANNOUNCE_TIMEOUT (R480): the masters are forgotten and the source is lost. -/
def execAnnounceTimeout (d : Fin 2) (s : State) : Host.Outcome State Fault Refusal :=
  if (domOf s d.val).source = .ptp then .next (sourceLost (freeDomainContexts s d.val) d.val 1) else .next s

/-- SYNC_TIMEOUT (R480). -/
def execSyncTimeout (d : Fin 2) (s : State) : Host.Outcome State Fault Refusal :=
  if (domOf s d.val).source = .ptp then .next (sourceLost s d.val 2) else .next s

/-! ## Time flows (R481) -/

/-- TIME_FRAME_SEND (R481): a time frame to every client. -/
def execTimeFrameSend (s : State) : Host.Outcome State Fault Refusal :=
  let origin := mod96 (viewTime s s.time.viewS (now s))
  let payload := leBytes 12 origin ++ List.replicate 8 0 ++ leBytes 1 (baseCode s.time.viewS.base) ++
    leBytes 2 s.time.flowSeq ++ List.replicate 9 0
  let clients := s.ring.flows.filter fun f => f.kind == 3 && f.inbound && f.state == 2
  let s1 := clients.foldl (fun s f => sendFrame s {
    dst := f.partner, ftype := 4, src := s.ring.stageAddr, dflow := f.remote, dgen := f.dgen,
    payload := payload }) s
  .next (if clients.isEmpty then s1 else { s1 with time.flowSeq := (s.time.flowSeq + 1) % 2 ^ 16 })

/-- The domain whose time flow is a context. -/
def domainOfFlow (s : State) (num : Nat) : Option Nat :=
  [0, 1].find? fun d => (domOf s d).source == .flow && (domOf s d).flow == some num

/-- TIME_FRAME (R407, R481): a time frame arrived on a port, with its payload and raw ingress stamp; a stale one is
discarded and counted. -/
def execTimeFrame (src : BitVec 12) (flow : FlowRef) (port : Fin 8) (payload : List Byte) (stamp : Nat) (s : State) :
    Host.Outcome State Fault Refusal :=
  let s := takeInbox s {
    dst := s.ring.stageAddr, ftype := 4, src := src.toNat, dflow := flow.num.toNat, dgen := flow.gen.toNat
    payload := payload }
  .next (match flowFor s flow.num.toNat flow.gen.toNat with
    | none => countStale s flow.num.toNat
    | some f => match domainOfFlow s f.num with
      | none => s
      | some d =>
        let r := stampRx s (2 + port.val) stamp
        let theta := signed 96 (mod96 (domTimeAt (domOf s d) r.1 - fld payload 0 12 - psToTime (sfld payload 12 8)))
        measure r.2 d theta 1 128)

/-- The domain whose time flow is a context loses its source (R411, R481). -/
def timeFlowLost (s : State) (flow : Nat) : State :=
  [0, 1].foldl (fun s d => if (domOf s d).flow = some flow then
    sourceLost (updDom s d fun x => { x with flow := none }) d 3 else s) s

/-- TIME_FLOW_TIMEOUT (R481). -/
def execTimeFlowTimeout (d : Fin 2) (s : State) : Host.Outcome State Fault Refusal :=
  if (domOf s d.val).source = .flow then .next (sourceLost s d.val 3) else .next s

/-! ## Selecting (R484, R488, R490) -/

/-- REVERT_TIMER (R484): the primary has been locked for 10 s. -/
def execRevertTimer (s : State) : Host.Outcome State Fault Refusal :=
  .next (if s.time.viewS.base.isSome then followS s false else s)

/-- VIEW_STEP (R488): the wait of a step of S is released. -/
def execViewStep (s : State) : Host.Outcome State Fault Refusal :=
  match s.time.stepWait, s.time.stepTo with
  | true, some d =>
    if classSBusy s then .next s
    else if isLocked s d && s.time.viewS.base.isNone then .next (stepS s d)
    else .next { s with time.stepWait := false, time.stepTo := none }
  | _, _ => .next s

/-- REF_HOLD_END (R490): 8 frames of a consumer have qualified the new reference; `lines` are to move, the shorter way. -/
def execRefHoldEnd (k : Fin 20) (lines : Int) (s : State) : Host.Outcome State Fault Refusal :=
  let x := s.time.cadences.getD k.val {}
  let n := shorterWay lines (consumerRate s k.val).2.2.2
  if x.phase = 1 then .next (refEvent (updCadence s k.val fun y => { y with phase := 2, linesLeft := n }) k.val 1 x.cause n)
  else .next s

/-- CADENCE_ALIGNED (R490): every line is moved; the frames of SYNC_OUT have no row, so its lines are not counted. -/
def execCadenceAligned (k : Fin 20) (s : State) : Host.Outcome State Fault Refusal :=
  let x := s.time.cadences.getD k.val {}
  if x.phase = 2 && (x.linesLeft = 0 || k.val = 13) then
    .next (refEvent (updCadence s k.val fun y => { y with phase := 0, linesLeft := 0 }) k.val 2 x.cause 0)
  else .next s

/-! ## Sync input (R491) -/

/-- The time of the sync input's frame now begun, counted from its first qualified frame. -/
def syncTime (x : SyncIn) : Int := (x.since * x.fpsDen * 2 ^ 48 : Nat) / (x.fpsNum : Int)

/-- A domain on the sync input measures theta at a frame start. -/
def syncMeasure (s : State) (stamp : Int) : State :=
  let x := s.time.syncIn
  (syncDomains s).foldl (fun s d =>
    measure s d (signed 96 (mod96 (domTimeAt (domOf s d) stamp - syncTime x))) x.fpsDen x.fpsNum) s

/-- The sync input leaves the format it had: its domains lose their source and the consumers their reference. -/
def syncInLeft (s : State) : State :=
  referenceChange (losesSources (syncEvent { s with time.syncIn := { s.time.syncIn with format := 0 } } 2) (syncDomains s) 4) 1

/-- Frames of the sync input that have passed with the one now begun: more than one where a pulse was missing. -/
def syncFrames (s : State) : Nat :=
  let x := s.time.syncIn
  max 1 (roundDiv ((now s - x.last) * x.fpsNum : Nat) (1228800000 * x.fpsDen)).toNat

/-- One more frame of the format held begins: its domains measure. -/
def syncHeld (v : Int) (s : State) : State :=
  let x := s.time.syncIn
  syncMeasure { s with time.syncIn := { x with since := x.since + syncFrames s, last := now s } } v

/-- A frame of the sync input, with its candidate recorded: one more of the format held, or the eighth of a new one. -/
def syncInCounted (v : Int) (held : Bool) (s : State) : State :=
  let y := s.time.syncIn
  if held then syncHeld v s
  else if 8 ≤ y.frames then
    syncMeasure (syncEvent { s with time.syncIn := { y with format := y.candidate, last := now s, since := 0 } } 1) v
  else s

/-- SYNC_IN_FRAME (R491): the separator sees a frame of a format with a line period; one out of tolerance breaks the
run of frames that qualifies a format, and is a frame of the format held. -/
def execSyncInFrame (fmt : Fin 5) (num den periodPs stamp : Nat) (s : State) :
    Host.Outcome State Fault Refusal :=
  let x := s.time.syncIn
  if !x.enable || fmt.val = 0 || num = 0 || den = 0 || !syncRateOk fmt.val num den then .next s
  else
    let r := stampRx s 10 stamp
    let same := x.candidate == fmt.val && x.fpsNum == num && x.fpsDen == den
    if !linePeriodOk fmt.val num den periodPs then
      let s1 := { r.2 with time.syncIn := { x with frames := 0, periodPs := periodPs } }
      .next (if x.format = fmt.val && same then syncHeld r.1 s1 else s1)
    else
      let s2 := if x.format != 0 && !same then syncInLeft r.2 else r.2
      let y := s2.time.syncIn
      .next (syncInCounted r.1 (y.format = fmt.val && same) { s2 with time.syncIn := { y with
        candidate := fmt.val, frames := if same then x.frames + 1 else 1, periodPs := periodPs, fpsNum := num, fpsDen := den } })

/-- SYNC_IN_LOST (R491): two frame pulses are missing. -/
def execSyncInLost (s : State) : Host.Outcome State Fault Refusal := .next (loseSync s)

/-! ## Timecode (R492, R493) -/

/-- LTC_FRAME (R492): a valid frame with its BCD value and raw stamp; a jam takes it for the generator. -/
def execLtcFrame (value : BitVec 32) (stamp : Nat) (s : State) : Host.Outcome State Fault Refusal :=
  let l := s.time.ltc
  if l.rate = 0 then .next s
  else
    let (_, s1) := stampRx s 11 stamp
    let v := value.toNat
    let jam := l.genSrc = 3 || (l.genSrc = 2 && !l.jammed)
    let s2 := { s1 with time.ltc := { l with
      readerValid := true, reader := v, readerAt := now s
      generator := if jam then v else l.generator
      jammed := l.jammed || jam } }
    let s3 := if l.readerValid then s2 else ltcEvent s2 0 v
    .next (if jam && !l.jammed then ltcEvent s3 3 v else s3)

/-- LTC_FREEWHEEL (R492): no valid frame for `freewheel` frame periods. -/
def execLtcFreewheel (s : State) : Host.Outcome State Fault Refusal :=
  let l := s.time.ltc
  if l.rate != 0 && l.readerValid then
    .next (ltcEvent { s with time.ltc := { l with readerValid := false } } 1 l.generator)
  else .next s

/-- LTC_GENERATOR_FRAME (R493): the generator's next frame, with the local offset in seconds that the
ST 2059-2 metadata gives. -/
def execLtcGeneratorFrame (offset : Int) (s : State) : Host.Outcome State Fault Refusal :=
  let l := s.time.ltc
  if l.rate = 0 then .next s
  else
    let v :=
      if l.srcPending && l.genSrc = 0 then l.preset
      else if l.genSrc = 1 then
        ltcValue l.rate (ltcFromTime l.rate (domTime (domOf s s.time.primary) (now s)) offset)
      else ltcValue l.rate (ltcFrames l.rate l.generator + 1)
    let s1 := { s with time.ltc := { l with
      generator := v, srcPending := false, sent := if l.outEnable then some v else none } }
    .next (if l.srcPending then ltcEvent s1 2 v else s1)

end Sys2Proof.Machine
end

