-- ==== Sys2Proof/Machine/FlowRows.lean ====
section
/-! DEFINITION. Flows: how they open, carry data, close and are lost, with their commands, and the remote storage
sessions that travel on them (R347 to R350, R405 to R415). -/

namespace Sys2Proof.Machine

/-! ## Frames of the inbox -/

/-- A flow control frame as it arrived here (R408). -/
def controlFrame (s : State) (op : Nat) (c : Control) : Frame :=
  { dst := s.ring.stageAddr, ftype := 2, src := c.src.toNat, dflow := c.dflow.toNat, dgen := c.dgen.toNat,
    payload := (leBytes 1 op ++ leBytes 1 c.kind.toNat ++ leBytes 1 c.code.toNat ++ leBytes 1 c.sgen.toNat ++
      leBytes 2 c.sflow.toNat ++ leBytes 2 c.token.toNat ++ leBytes 4 c.lat.toNat ++ leBytes 4 c.maxItem.toNat ++
      c.extra ++ zeros 16).take 32 }

/-- The bound that `FLOW_OPEN` and `FLOW_STATUS` report: own `root_lat`, the partner's, and 500 ns (R404). -/
def pathBound (s : State) (f : Flow) : Nat := s.ring.rootLat.getD 0 + f.latNs + 500

/-! ## The end of a flow (R412) -/

/-- The session that a storage flow carries. -/
def sessionOfFlow (s : State) (num : Nat) : Option Session := s.gate.sessions.find? fun x => x.flow == num

/-- A flow ends: closed (1) or lost (2, with its cause): its unacknowledged items are reported lost, its context
is freed, and what it carried ends with it (R350, R412, R420, R481). -/
def flowEnd (s : State) (f : Flow) (what cause : Nat) : State :=
  let s0 := if what = 2 && f.kind != 4 then f.items.foldl (fun s i => notify s 0x0C12 f.num (leBytes 4 i.no ++ [2]) 12) s else s
  let s1 := flowStateEvent s0 f.num what f.kind f.partner f.remote cause f.rxBase
  if f.kind = 3 then freeFlow (timeFlowLost s1 f.num) f.num
  else if f.kind = 4 then
    match sessionOfFlow s1 f.num with
    -- only the requester closes a session: a close that comes from the server is a loss to it (R350, R353)
    | some x => sessionEnd s1 x (if what = 2 || (!x.server && !x.closing) then 2 else 1)
    | none => freeFlow s1 f.num
  else freeFlow s1 f.num

/-- The closing end sends CLOSE once what it accepted is acknowledged (R412). -/
def sendClose (s : State) (f : Flow) : State :=
  sendControl (updFlow s f.num fun f => { f with closeSent := true }) f.partner f.remote f.dgen
    (controlPayload s 5 f.kind 0 f.gen f.num f.token 0 [])
def closeWhenDone (s : State) (num : Nat) : State :=
  match flowOf s num with
  | some f => if f.state = 3 && !f.closeSent && f.unacked = 0 && f.segments.isEmpty then sendClose s f else s
  | none => s

/-- The session closes once its commands in flight have completed (R353). -/
def sessionSettle (s : State) (nsid : Nat) : State :=
  match sessionOf s nsid with
  | some x =>
    if x.closing && x.sent.isEmpty && !s.gate.nvme.shutUnsent.contains nsid then
      closeWhenDone (updFlow s x.flow fun f => { f with state := 3 }) x.flow
    else s
  | none => s

/-! ## Opening (R408, R409) -/

/-- Contexts of every kind are in use (R410). -/
def flowsFull (s : State) : Bool := flowLimit ≤ s.ring.flows.length

/-- An open has failed: the command that asked is rejected at step 9, and the context is free (R408, R409). -/
def openFail (s : State) (f : Flow) (code : Nat) : State :=
  let s0 := match sessionOfFlow s f.num with
    | some x => sessionEvent s x 3 code 0
    | none => s
  let s1 := freeFlow { s0 with gate.sessions := s0.gate.sessions.filter fun x => x.flow != f.num } f.num
  match f.slot with
  | none => if f.kind = 3 then timeFlowLost s1 f.num else s1
  | some n => mbxReject s1 n
      (if f.kind = 3 then ⟨0x1001, 8, code⟩ else if f.kind = 4 then ⟨0x0A01, 2, code⟩ else ⟨0x0C01, 0, code⟩)

/-- The opener's flow is open: CONFIRM goes out and the command that asked completes, each kind in its way. -/
def openDone (s : State) (f : Flow) (c : Control) : State :=
  let s1 := updFlow s f.num fun f => { f with
    state := 2, remote := c.sflow.toNat, dgen := c.sgen.toNat, latNs := c.lat.toNat, slot := none }
  let s2 := sendControl s1 f.partner c.sflow.toNat c.sgen.toNat (controlPayload s1 3 f.kind 0 f.gen f.num f.token 0 [])
  let f2 := (flowOf s2 f.num).getD f
  match f.slot with
  | none => s2
  | some n =>
    if f.kind = 3 then mbxOk (domainApply s2 (slotBody s2 n) (some f.num)) n []
    else if f.kind = 4 then
      let nsze := fld c.extra 0 8
      match sessionOfFlow s2 f.num with
      | none => mbxOk s2 n (leBytes 8 nsze)
      | some x =>
        let y := { x with active := true, nsze := nsze, writeProtected := fld c.extra 8 1 = 1 }
        let s3 := { s2 with gate.sessions := s2.gate.sessions.map fun z => if z == x then y else z }
        mbxOk (nsNotice (sessionEvent s3 y 0 0 0) y.nsid) n (leBytes 8 nsze)
    else mbxOk s2 n (leBytes 2 f.num ++ leBytes 2 c.sflow.toNat ++ leBytes 4 (pathBound s2 f2) ++ leBytes 8 f.rxBase)

/-- Inbound contexts of a kind. -/
def inboundCount (s : State) (kind : Nat) : Nat := (s.ring.flows.filter fun f => f.inbound && f.kind == kind).length

def listenOf (s : State) (kind : Nat) : Listen := if kind = 1 then s.ring.listen1 else s.ring.listen2

/-- Credits and namespace that a storage OPEN asks for, in `max_item`: credits in [15:0], namespace in [23:16]
(the model's layout, DESIGN CHOICE). -/
def storageMaxItem (credits ns : Nat) : Nat := credits + ns * 2 ^ 16
def askedCredits (m : Nat) : Nat := m % 2 ^ 16
def askedNs (m : Nat) : Nat := m / 2 ^ 16 % 256

/-- DRAM that an inbound flow takes: its receive ring, and for messages its own send buffer (R413, R415). -/
def inboundSizes (s : State) (kind maxItem : Nat) : Nat × Nat :=
  let l := listenOf s kind
  if kind = 1 then (l.slotBytes * l.depth, 4 * maxItem) else if kind = 2 then (l.slotBytes * l.depth, 0) else (0, 0)

/-- Two allocations one after the other fit. -/
def allocFits2 (s : State) (a b : Nat) : Bool :=
  (a = 0 || (allocBase s a).isSome) &&
    (b = 0 || (allocBase (if a = 0 then s else (alloc s .copy a).2) b).isSome)

/-- The first refusal code that applies to an arriving OPEN (R347, R404, R409, R481). -/
def refusal (s : State) (kind maxItem : Nat) : Option Nat :=
  let l := listenOf s kind
  let sizes := inboundSizes s kind maxItem
  let listed := kind = 1 || kind = 2
  let notAccepted := if listed then !l.accept
    else if kind = 3 then !s.time.serve || s.time.maxClients ≤ inboundCount s 3
    else if kind = 4 then !s.gate.serve else true
  if notAccepted then some 1
  else if flowsFull s || (kind = 3 && !pinnedFree s) then some 2
  else if listed && l.slotBytes < 0x100 + maxItem then some 3
  else if kind = 4 && (askedCredits maxItem = 0 || 256 < askedCredits maxItem ||
      s.gate.creditPool < creditsGranted s + askedCredits maxItem) then some 3
  else if kind = 4 && !(1 ≤ askedNs maxItem && askedNs maxItem ≤ 4 && nsActive s (askedNs maxItem)) then some 4
  else if listed && l.maxFlows ≤ inboundCount s kind then some 5
  else if kind = 4 && s.gate.maxSessions ≤ (served s).length then some 5
  else if !allocFits2 s sizes.1 sizes.2 then some 6
  else if !inBudget s then some 7
  else none

/-- Answer an OPEN with NACK, with its event and leaf (R410, R419, R420). -/
def sendNack (s : State) (c : Control) (code : Nat) : State :=
  sendControl s c.src.toNat c.sflow.toNat c.sgen.toNat (controlPayload s 4 c.kind.toNat code 0 0 c.token.toNat 0 [])
def sendAccept (s : State) (f : Flow) : State :=
  let nsze := match sessionOfFlow s f.num with
    | some x => leBytes 8 (nsBlocks s x.nsid) ++ leBytes 1 (boolNat (nsProtected s x.nsid))
    | none => []
  sendControl s f.partner f.remote f.dgen (controlPayload s 2 f.kind 0 f.gen f.num f.token f.maxItem nsze)
def refuseOpen (s : State) (c : Control) (code : Nat) : State :=
  let s1 := updRing s fun r => { r with
    opensRefused := sat32 r.opensRefused 1
    nacks := ((c.src.toNat, c.token.toNat, code) :: r.nacks).take 64 }
  let s2 := setLeaf s1 12 14
  let s3 := flowStateEvent s2 0xFFFF 3 c.kind.toNat c.src.toNat c.sflow.toNat code 0
  -- a refused session has no index: 0xFFFF, as for a refused OPEN (DESIGN CHOICE, log entry 184)
  let m := c.maxItem.toNat
  sendNack (if c.kind.toNat = 4 then sessionEvent s3 {
      server := true, nsid := askedNs m, flow := 0xFFFF, partner := c.src.toNat, remoteNs := askedNs m
      credits := askedCredits m, index := 0xFFFF } 3 code 0
    else s3) c code

/-- The lowest index no served session has. -/
def freeSession (s : State) : Nat :=
  ((List.range ((served s).length + 1)).find? fun i => !(served s).any fun x => x.index == i).getD 0

/-- Accept an OPEN: a context, its rings, its session, and ACCEPT (R408, R413). -/
def acceptOpen (s : State) (c : Control) : State :=
  let kind := c.kind.toNat
  let l := listenOf s kind
  let sizes := inboundSizes s kind c.maxItem.toNat
  let r := allocFlow s {
    num := 0, kind := kind, state := 1, inbound := true, partner := c.src.toNat,
    remote := c.sflow.toNat, dgen := c.sgen.toNat, token := c.token.toNat, maxItem := c.maxItem.toNat,
    latNs := c.lat.toNat, rxSlotBytes := if kind ≤ 2 then l.slotBytes else 0, rxDepth := if kind ≤ 2 then l.depth else 0 }
  let a := if sizes.1 = 0 then (0, r.2) else alloc r.2 (.recvRing r.1) sizes.1
  let s1 := if sizes.2 = 0 then a.2 else (alloc a.2 (.sendBuf r.1) sizes.2).2
  let s2 := updFlow s1 r.1 fun f => { f with rxBase := a.1 }
  let s3 := if kind = 4 then { s2 with gate.sessions := s2.gate.sessions ++ [{
      server := true, nsid := askedNs c.maxItem.toNat, flow := r.1, partner := c.src.toNat,
      remoteNs := askedNs c.maxItem.toNat, credits := askedCredits c.maxItem.toNat, index := freeSession s }] } else s2
  match flowOf s3 r.1 with
  | some f => sendAccept s3 f
  | none => s3

/-- OPEN (R408 to R410). -/
def execOpenFrame (c : Control) (s : State) : Host.Outcome State Fault Refusal :=
  let s := takeInbox s (controlFrame s 1 c)
  let again := s.ring.flows.find? fun f => f.inbound && f.partner == c.src.toNat && f.token == c.token.toNat &&
    f.remote == c.sflow.toNat && f.dgen == c.sgen.toNat
  let old := s.ring.nacks.find? fun e => e.1 == c.src.toNat && e.2.1 == c.token.toNat
  .next (match again, old with
    | some f, _ => sendAccept s f
    | none, some e => sendNack s c e.2.2
    | none, none => match refusal s c.kind.toNat c.maxItem.toNat with
      | some code => refuseOpen s c code
      | none => acceptOpen s c)

/-- ACCEPT (R408): CONFIRM, or CLOSE where the opener has given up. -/
def execAcceptFrame (c : Control) (s : State) : Host.Outcome State Fault Refusal :=
  let s := takeInbox s (controlFrame s 2 c)
  .next (match flowFor s c.dflow.toNat c.dgen.toNat with
    | some f =>
      if f.inbound || f.token != c.token.toNat then countStale s c.dflow.toNat
      else if f.state = 1 then openDone s f c
      else sendControl s f.partner f.remote f.dgen (controlPayload s 3 f.kind 0 f.gen f.num f.token 0 [])
    | none => sendControl s c.src.toNat c.sflow.toNat c.sgen.toNat
        (controlPayload s 5 c.kind.toNat 0 c.dgen.toNat c.dflow.toNat c.token.toNat 0 []))

/-- CONFIRM (R408): the flow is open at the partner. -/
def execConfirmFrame (c : Control) (s : State) : Host.Outcome State Fault Refusal :=
  let s := takeInbox s (controlFrame s 3 c)
  .next (match flowFor s c.dflow.toNat c.dgen.toNat with
    | some f =>
      if !f.inbound || f.state != 1 then s
      else
        let s1 := flowStateEvent (updFlow s f.num fun f => { f with state := 2 }) f.num 0 f.kind f.partner f.remote 0 f.rxBase
        match sessionOfFlow s1 f.num with
        | none => s1
        | some x => sessionEvent { s1 with
            gate.sessions := s1.gate.sessions.map fun z => if z == x then { x with active := true } else z } x 0 0 0
    | none => countStale s c.dflow.toNat)

/-- NACK (R409). -/
def execNackFrame (c : Control) (s : State) : Host.Outcome State Fault Refusal :=
  let s := takeInbox s (controlFrame s 4 c)
  .next (match flowFor s c.dflow.toNat c.dgen.toNat with
    | some f => if f.inbound || f.state != 1 || f.token != c.token.toNat then s else openFail s f c.code.toNat
    | none => countStale s c.dflow.toNat)

/-- Mark the items whose frames are missing as lost and go on at the oldest frame held (R411). -/
def skipItems (num : Nat) : Nat → Nat → State → State
  | 0, _, s => s
  | fuel + 1, upTo, s =>
    match flowOf s num with
    | none => s
    | some f =>
      if seqBefore f.rxItem upTo then
        skipItems num fuel upTo (slotComplete (updFlow s num fun f => { f with curData := [] }) num f.rxItem true)
      else s
def fillGap (s : State) (num : Nat) : State :=
  match flowOf s num with
  | none => s
  | some f =>
    let dist (n : Nat) : Nat := (n + 2 ^ 32 - f.rxNext) % 2 ^ 32
    match f.rxHeld.foldl (fun (m : Option (Nat × List Byte)) h =>
        if m.all fun x => dist h.1 < dist x.1 then some h else m) none with
    | none => s
    | some h =>
      let item := fld h.2 0 4
      let upTo := if fld h.2 4 2 = 0 then item else (item + 1) % 2 ^ 32
      let s1 := skipItems num ((upTo + 2 ^ 32 - f.rxItem) % 2 ^ 32) upTo s
      let s2 := updFlow s1 num fun f => { f with
        gapLost := sat32 f.gapLost (dist h.1), rxNext := h.1, rxHeld := f.rxHeld.erase h, curItem := none }
      deliverFrames num 17 s2 h.2

/-- Deliver all that a stream flow holds, gap by gap (R412). -/
def fillGaps (num : Nat) : Nat → State → State
  | 0, s => s
  | k + 1, s => if (flowOf s num).all fun f => f.rxHeld.isEmpty then s else fillGaps num k (fillGap s num)

/-- CLOSE (R412): the partner delivers what it holds, frees its context and answers CLOSED. -/
def execCloseFrame (c : Control) (s : State) : Host.Outcome State Fault Refusal :=
  let s := takeInbox s (controlFrame s 5 c)
  .next (match flowFor s c.dflow.toNat c.dgen.toNat with
    | some f =>
      let s1 := if f.kind = 2 then fillGaps f.num f.rxHeld.length s else s
      let s2 := sendControl s1 f.partner c.sflow.toNat c.sgen.toNat (controlPayload s1 6 f.kind 0 f.gen f.num f.token 0 [])
      if f.inbound && f.state = 1 then
        freeFlow { s2 with gate.sessions := s2.gate.sessions.filter fun x => x.flow != f.num } f.num
      else flowEnd s2 f 1 0
    | none => countStale s c.dflow.toNat)

/-- CLOSED (R412). -/
def execClosedFrame (c : Control) (s : State) : Host.Outcome State Fault Refusal :=
  let s := takeInbox s (controlFrame s 6 c)
  .next (match flowFor s c.dflow.toNat c.dgen.toNat with
    | some f => if f.state = 3 && f.closeSent then flowEnd s f 1 0 else s
    | none => countStale s c.dflow.toNat)

/-- OPEN_RESEND (R408, R409): every 2 ms, 8 tries in all, then code 9. -/
def execOpenResend (flow : BitVec 16) (s : State) : Host.Outcome State Fault Refusal :=
  .next (match flowOf s flow.toNat with
    | some f => if f.inbound || f.state != 1 then s else if 8 ≤ f.tries then openFail s f 9 else sendOpen s f []
    | none => s)

/-- CONFIRM_TIMEOUT (R408): freed with no event. -/
def execConfirmTimeout (flow : BitVec 16) (s : State) : Host.Outcome State Fault Refusal :=
  .next (match flowOf s flow.toNat with
    | some f =>
      if f.inbound && f.state = 1 then
        freeFlow { s with gate.sessions := s.gate.sessions.filter fun x => x.flow != f.num } f.num
      else s
    | none => s)

/-- CLOSE_TIMEOUT (R412): 10 ms after `FLOW_CLOSE` CLOSE goes out whatever is unacknowledged; 10 ms after CLOSE the
context is free. -/
def execCloseTimeout (flow : BitVec 16) (s : State) : Host.Outcome State Fault Refusal :=
  .next (match liveFlow s flow.toNat with
    | some f => if f.state != 3 then s else if f.closeSent then flowEnd s f 1 0 else sendClose s f
    | none => s)

/-! ## Flow data (R411) -/

/-- An answer of the serving device (R349): the namespace's NSATTR with its notice where it changes, and the command of
the host that it completes; one that waits for more sessions goes on waiting. The answered command gives back its credit,
and completes nothing where the host's has ended (R345, R348). -/
def takeAnswer (s : State) (x : Session) (b : List Byte) : State :=
  let p := fld b 6 1 = 1
  let num := fld b 0 4
  let s0 := { s with gate.sessions := s.gate.sessions.map fun y =>
    if y.flow == x.flow then { y with writeProtected := p, sent := y.sent.filter fun e => e.num != num } else y }
  let s1 := if x.writeProtected == p then s0 else nsNotice s0 x.nsid
  match x.sent.find? fun e => e.num == num with
  | none => s1
  | some e =>
    if !e.live then s1
    else if e.sq = 0xFFFE then updNvme s1 fun n => { n with shutRemotes := n.shutRemotes.erase x.nsid }
    else match (remoteCmds s1 x.nsid).find? fun c => c.sq == e.sq && c.cid == e.cid with
      | none => s1
      | some c => match c.work with
        | .flushAll ws ns =>
          if fld b 5 1 = 0 then updNvme s1 fun n => { n with
            outstanding := n.outstanding.map fun d =>
              if d == c then { c with work := .flushAll ws (ns.erase x.nsid) } else d }
          else nvmeEnd s1 c (fld b 4 1) (fld b 5 1) 0
        | _ => nvmeEnd (if b.length ≤ 8 then s1 else { s1 with host.readData := b.drop 8 }) c (fld b 4 1) (fld b 5 1) 0

/-- The Gate takes the whole items of a storage flow: a server's become commands of the session as they have room (R348),
a requester takes each as an answer, and sends what waited for its credit. -/
def takeStored (s : State) (num : Nat) : State :=
  match flowOf s num, sessionOfFlow s num with
  | some f, some x =>
    if x.server then nvmeSettle s
    else
      let s1 := updFlow s num fun f => { f with stored := [] }
      sessionSettle (nvmeSettle (sendShutFlushes (f.stored.foldl (fun s b =>
        match sessionOfFlow s num with
        | some y => takeAnswer s y b
        | none => s) s1))) x.nsid
  | _, _ => s

/-- FLOW_DATA_FRAME (R406, R407, R411, R413): `miss` when the context was not in the cache. -/
def execFlowDataFrame (src : BitVec 12) (dflow : BitVec 16) (dgen : Byte) (fseqno : BitVec 32) (payload : List Byte)
    (miss : Bool) (s : State) : Host.Outcome State Fault Refusal :=
  let s := takeInbox s {
    dst := s.ring.stageAddr, ftype := 0, src := src.toNat, dflow := dflow.toNat,
    dgen := dgen.toNat, fseqno := fseqno.toNat, payload := payload }
  .next (match flowFor s dflow.toNat dgen.toNat with
    | none => countStale s dflow.toNat
    | some f =>
      let n := fseqno.toNat
      let s := if miss && mayMiss s f then updRing s fun r => { r with cacheMisses := sat32 r.cacheMisses 1 } else s
      if n = f.rxNext then
        let s1 := deliverFrames f.num 17 s payload
        if f.kind = 4 then takeStored s1 f.num else s1
      else if seqBefore n f.rxNext || f.rxHeld.any fun h => h.1 == n then
        updFlow s f.num fun f => { f with duplicates := sat32 f.duplicates 1 }
      else if 16 ≤ f.rxHeld.length then s
      else updFlow s f.num fun f => { f with
        rxHeld := f.rxHeld ++ [(n, payload)], reorderHolds := sat32 f.reorderHolds 1 })

/-- An ack covers frames up to a number: its items are sent (R411, R414). -/
def takeFlowAck (s : State) (f : Flow) (last : Nat) : State :=
  let first := (f.txSeq + 2 ^ 32 - f.unacked) % 2 ^ 32
  let n := (last + 1 + 2 ^ 32 - first) % 2 ^ 32
  if f.unacked < n then s
  else
    let sent := f.items.filter fun i => i.last.any fun x => (x + 2 ^ 32 - first) % 2 ^ 32 < n
    let s1 := updFlow s f.num fun g => { g with
      unacked := f.unacked - n
      items := f.items.filter fun i => !sent.contains i
      sentItems := sat32 g.sentItems sent.length }
    let s2 := if f.kind = 4 then s1 else sent.foldl (fun s i => notify s 0x0C12 f.num (leBytes 4 i.no ++ leBytes 1 (boolNat i.lost)) 12) s1
    closeWhenDone (pumpFlow f.num 257 s2) f.num

/-- FLOW_ACK_FRAME (R411). -/
def execFlowAckFrame (src : BitVec 12) (dflow : BitVec 16) (dgen : Byte) (last : BitVec 32) (s : State) :
    Host.Outcome State Fault Refusal :=
  let s := takeInbox s {
    dst := s.ring.stageAddr, ftype := 1, src := src.toNat, dflow := dflow.toNat,
    dgen := dgen.toNat, payload := leBytes 4 last.toNat }
  .next (match flowFor s dflow.toNat dgen.toNat with
    | none => countStale s dflow.toNat
    | some f => takeFlowAck s f last.toNat)

/-- FLOW_ACK_TIMER (R411). -/
def execFlowAckTimer (flow : BitVec 16) (s : State) : Host.Outcome State Fault Refusal :=
  .next (match liveFlow s flow.toNat with
    | some f => if 2 ≤ f.state && f.kind ≤ 4 then sendFlowAck s f.num else s
    | none => s)

/-- REORDER_TIMEOUT (R411): a stream marks items lost and goes on; a message or storage flow is lost. -/
def execReorderTimeout (flow : BitVec 16) (s : State) : Host.Outcome State Fault Refusal :=
  .next (match liveFlow s flow.toNat with
    | some f => if f.rxHeld.isEmpty then s else if f.kind = 2 then fillGap s f.num else flowEnd s f 2 1
    | none => s)

/-- FLOW_SILENCE (R411, R412): the flow is lost; cause 3 where no way leads to the partner. -/
def execFlowSilence (flow : BitVec 16) (s : State) : Host.Outcome State Fault Refusal :=
  .next (match liveFlow s flow.toNat with
    | some f =>
      if f.state < 2 || 4 < f.kind then s
      else flowEnd s f 2 (if (routeTo s f.partner).isNone then 3 else 2)
    | none => s)

/-! ## Commands (R410, R412 to R415) -/

def codecEnabled (s : State) (t : Nat) : Option CodecCfg := (s.codec.streams.getD t {}).cmd

/-- Send buffer and receive ring of an opener's flow. -/
def openerSizes (s : State) (b : Body) : Nat × Nat :=
  if fld b 2 1 = 1 then (4 * fld b 4 4, s.ring.listen1.slotBytes * s.ring.listen1.depth)
  else (2 * ((codecEnabled s (fld b 3 1)).map (·.frameMax)).getD 0, 0)

/-- FLOW_OPEN (R408, R410, R413, R414). -/
def flowOpenCard : Card where
  opcode := 0x0C10
  len := fixedLen 0x0C
  fields b s :=
    let msg := fld b 2 1 == 1
    [inRange b 0 2 0 4095, inRange b 2 1 1 2, offMode msg (inRange b 3 1 0 7),
     inMode msg (eRange (fld b 4 4 < 16 || 65536 < fld b 4 4 || fld b 4 4 % 16 != 0) 4), resv b 8 4,
     eComb (isOwnAddress s (fld b 0 2)) 0, inMode msg (mustBe0 b 3 1),
     eComb (!msg && s.ring.flows.any fun f => f.kind == 2 && !f.inbound && f.stream == fld b 3 1) 3,
     offMode msg (mustBe0 b 4 4)]
  seq b s :=
    [eSeqAt (!s.ring.configured) 0, eSeqAt (fld b 2 1 == 1 && s.ring.listen1.depth == 0) 2,
     eSeqAt (fld b 2 1 == 2 && (codecEnabled s (fld b 3 1)).isNone) 3]
  res b s :=
    let sizes := openerSizes s b
    [eNoCtx (flowsFull s) 65536, eNoCtx (!allocFits2 s sizes.1 sizes.2) (freeMib s),
     rejIf (!inBudget s || (routeTo s (fld b 0 2)).isNone) 0x0C01 0 8]
  effect n b s :=
    let sizes := openerSizes s b
    let kind := fld b 2 1
    let r := startOpen s {
      num := 0, kind := kind, state := 1, partner := fld b 0 2, slot := some n,
      stream := fld b 3 1, maxItem := if kind = 1 then fld b 4 4 else sizes.1 / 2,
      rxSlotBytes := if kind = 1 then s.ring.listen1.slotBytes else 0,
      rxDepth := if kind = 1 then s.ring.listen1.depth else 0 }
    let s1 := if sizes.1 = 0 then r.2 else (alloc r.2 (.sendBuf r.1) sizes.1).2
    let a := if sizes.2 = 0 then (0, s1) else alloc s1 (.recvRing r.1) sizes.2
    (launchOpen (updFlow a.2 r.1 fun f => { f with rxBase := a.1 }) r.1, .later)

def execFlowOpen (n : Fin 40) (s : State) : Host.Outcome State Fault Refusal := .next (mbxRun flowOpenCard n.val s)

/-- An open flow. -/
def openFlowOf (s : State) (num : Nat) : Option Flow := (flowOf s num).filter fun f => f.state == 2 && f.kind ≤ 4

/-- FLOW_CLOSE (R412). -/
def flowCloseCard : Card where
  opcode := 0x0C11
  len := fixedLen 4
  fields b s := [resv b 2 2, eComb ((openFlowOf s (fld b 0 2)).any fun f => 3 ≤ f.kind) 0]
  seq b s := [eSeqAt (openFlowOf s (fld b 0 2)).isNone 0]
  effect _ b s :=
    (closeWhenDone (updFlow s (fld b 0 2) fun f => { f with state := 3 }) (fld b 0 2), .now [])

def execFlowClose (n : Fin 40) (s : State) : Host.Outcome State Fault Refusal := .next (mbxRun flowCloseCard n.val s)

/-- FLOW_LISTEN. -/
def flowListenCard : Card where
  opcode := 0x0C12
  len := fixedLen 0x0C
  fields b _ :=
    let on := fld b 1 1 == 1
    [inRange b 0 1 1 2, inRange b 1 1 0 1, inMode on (inRange b 2 2 1 4096),
     inMode on (eRange (fld b 4 4 < 512 || 0x7FFFFF00 < fld b 4 4 || fld b 4 4 % 256 != 0) 4),
     inMode on (inRange b 8 1 2 64), resv b 9 3,
     offMode on (mustBe0 b 2 2), offMode on (mustBe0 b 4 4), offMode on (mustBe0 b 8 1)]
  effect _ b s :=
    let l : Listen := { accept := fld b 1 1 == 1, maxFlows := fld b 2 2, slotBytes := fld b 4 4, depth := fld b 8 1 }
    (updRing s fun r => if fld b 0 1 = 1 then { r with listen1 := l } else { r with listen2 := l }, .now [])

def execFlowListen (n : Fin 40) (s : State) : Host.Outcome State Fault Refusal := .next (mbxRun flowListenCard n.val s)

/-- FLOW_SEND (R415): the item is copied before the response. -/
def flowSendCard : Card where
  opcode := 0x0C13
  len := fixedLen 0x10
  fields b s :=
    [resv b 2 2, eRange (fld b 4 4 == 0) 4, eRange (fld b 8 8 % 256 != 0 || !hostRangeOk s (fld b 8 8) (fld b 4 4)) 8,
     eComb ((openFlowOf s (fld b 0 2)).any fun f => f.kind == 1 && f.maxItem < fld b 4 4) 4]
  seq b s := [eSeqAt (!(openFlowOf s (fld b 0 2)).any fun f => f.kind == 1) 0]
  res b s := [eBusyAt ((openFlowOf s (fld b 0 2)).any fun f => 4 * f.maxItem < sendBufBytes f + fld b 4 4) 0]
  effect _ b s :=
    let no := ((flowOf s (fld b 0 2)).map (·.nextItem)).getD 0
    (flowQueueItem s (fld b 0 2) (dramRead s (fld b 8 8) (fld b 4 4)) false, .now (leBytes 4 no))

def execFlowSend (n : Fin 40) (s : State) : Host.Outcome State Fault Refusal := .next (mbxRun flowSendCard n.val s)

/-- FLOW_STATUS (R415); the kind of a context that is no ring flow is a free value. -/
def flowStatusCard : Card where
  opcode := 0x0C14
  len := fixedLen 4
  fields b _ := [inRange b 2 1 0 1, resv b 3 1]
  effect _ b s :=
    match flowOf s (fld b 0 2) with
    | none => (s, .now (zeros 0x30))
    | some f =>
      let k := if f.kind ≤ 4 then (f.kind, s) else draw s
      let resp := leBytes 1 k.1 ++ leBytes 1 f.state ++ leBytes 2 f.partner ++ leBytes 2 f.remote ++ leBytes 1 f.dgen ++
        [0] ++ leBytes 4 (pathBound s f) ++ leBytes 4 f.sentItems ++ leBytes 4 f.rcvdItems ++ leBytes 4 f.gapLost ++
        leBytes 4 f.duplicates ++ leBytes 4 f.stale ++ leBytes 4 f.overwrites ++ leBytes 4 f.txOverruns ++
        leBytes 4 f.reorderHolds
      (if fld b 2 1 = 1 then updFlow k.2 f.num fun f => { f with
          sentItems := 0, rcvdItems := 0, gapLost := 0, duplicates := 0, stale := 0, overwrites := 0, txOverruns := 0,
          reorderHolds := 0 } else k.2, .now (resp ++ zeros 4))

def execFlowStatus (n : Fin 40) (s : State) : Host.Outcome State Fault Refusal := .next (mbxRun flowStatusCard n.val s)

/-! ## Remote sessions (R347 to R353) -/

/-- GATE_SESSION_OPEN (R348). -/
def gateSessionOpenCard : Card where
  opcode := 0x0A05
  len := fixedLen 8
  fields b s :=
    [inRange b 0 1 9 24, inRange b 1 1 1 4, inRange b 2 2 0 4095, inRange b 4 2 1 256, resv b 6 2,
     eComb (isOwnAddress s (fld b 2 2)) 2]
  state b s := [eStateAt (sessionOf s (fld b 0 1)).isSome 0]
  res b s :=
    [eNoCtx (flowsFull s) 65536, rejIf (!inBudget s || (routeTo s (fld b 2 2)).isNone) 0x0A01 2 8]
  effect n b s :=
    let r := startOpen s {
      num := 0, kind := 4, state := 1, partner := fld b 2 2, slot := some n,
      maxItem := storageMaxItem (fld b 4 2) (fld b 1 1) }
    let x : Session := {
      server := false, nsid := fld b 0 1, flow := r.1, partner := fld b 2 2, remoteNs := fld b 1 1,
      credits := fld b 4 2 }
    (launchOpen { r.2 with gate.sessions := r.2.gate.sessions ++ [x] } r.1, .later)

def execGateSessionOpen (n : Fin 40) (s : State) : Host.Outcome State Fault Refusal :=
  .next (mbxRun gateSessionOpenCard n.val s)

/-- GATE_SESSION_CLOSE (R353). -/
def gateSessionCloseCard : Card where
  opcode := 0x0A06
  len := fixedLen 4
  fields b _ := [inRange b 0 1 9 24, resv b 1 3]
  seq b s := [eSeqAt (!(sessionOf s (fld b 0 1)).any fun x => x.active && !x.closing) 0]
  effect _ b s :=
    let nsid := fld b 0 1
    (sessionSettle { s with gate.sessions := s.gate.sessions.map fun x =>
      if !x.server && x.nsid == nsid then { x with closing := true } else x } nsid, .now [])

def execGateSessionClose (n : Fin 40) (s : State) : Host.Outcome State Fault Refusal :=
  .next (mbxRun gateSessionCloseCard n.val s)

/-! ## Time flows opened again (R568, R575) -/

/-- A domain's time flow is opened again from its kept settings, where a way leads to its server. -/
def reopenTime (s : State) (d : Nat) : State :=
  let x := domOf s d
  if x.source != .flow || x.flow.isSome || !inBudget s || (routeTo s x.stageAddr).isNone || !pinnedFree s then s
  else
    let r := startOpen s { num := 0, kind := 3, state := 1, partner := x.stageAddr }
    launchOpen (updDom { r.2 with time.reopen := r.2.time.reopen.set d false } d fun y => { y with flow := some r.1 }) r.1

/-- The time flows that wait to be opened again are opened as soon as a way leads to their servers. -/
def tryReopen (s : State) : State :=
  [0, 1].foldl (fun s d => if s.time.reopen.getD d false then reopenTime s d else s) s

/-- A domain's time flow is to be opened again. -/
def askReopen (s : State) (d : Nat) : State :=
  tryReopen { s with time.reopen := s.time.reopen.set d ((domOf s d).source == .flow) }

end Sys2Proof.Machine
end

