-- ==== Sys2Proof/Machine/RingRows.lean ====
section
/-! DEFINITION. The Causeway ring's commands and link events, beacons and the stage budget, and Flint (R386 to R404,
R416 to R420). -/

namespace Sys2Proof.Machine

/-! ## Budget (R402 to R404) -/

/-- The active lanes of a port's link. -/
def activeLanes (s : State) (q : Nat) : Nat :=
  ((linkOf s q).map fun l => (activePositions (txActive s l) (l.sparePos.getD 4)).length).getD 0

/-- The time of one flit on a port's link, in ps (R402): 512 bits over the payload rate of R364, or of 8b/10b coding. -/
def flitPs (s : State) (q : Nat) : Nat :=
  let lanes := match linkOf s q with
    | some l => if (ringPort s q).version = 0 then l.lanes.length else activeLanes s q
    | none => 0
  let x := laneOf s (((linkOf s q).map fun l => l.lanes.headD 0).getD 0)
  let rate := laneRate x.pers x.rate * lanes
  if (ringPort s q).version = 0 then ceilDiv (51200000000 * 10) (rate * 8) else ceilDiv (51200000000 * 4160) (rate * 4032)

/-- The bound of a forwarding within a ring, or of a junction's move between rings, in ps; 400 ns more onto an 8b/10b
link (R396, R402). -/
def hopBound (s : State) (q : Nat) (junction : Bool) : Nat :=
  (if junction then 400000 else 180000) + 2 * flitPs s q + (if (ringPort s q).version = 0 then 400000 else 0)

/-- `EV_RING_BUDGET`. -/
def budgetEvent (s : State) : State :=
  notify s 0x0C03 0 (leBytes 4 (s.ring.rootLat.getD 0xFFFFFFFF) ++ leBytes 4 s.ring.budgetNs ++
    leBytes 1 (boolNat s.ring.within)) 9

/-- The device is judged against the budget; a change is told (R404). -/
def judgeBudget (s : State) : State :=
  let now := s.ring.rootLat.any fun l => 2 * l + 500 ≤ s.ring.budgetNs
  if now = s.ring.within then s else budgetEvent (updRing s fun r => { r with within := now })

/-- Send a ring management frame out of a port that is up. -/
def sendManagement (s : State) (q : Nat) (f : Frame) : State :=
  if (ringPort s q).state = 2 then queueFrame s q f else s

/-- Forward one that came in on a port to the other port of its ring, with its `ttl` less 1 (R397). -/
def passManagement (s : State) (q : Nat) (f : Frame) : State :=
  match otherPort s q with
  | none => s
  | some o => if f.ttl ≤ 1 then countDropped s q else sendManagement s o { f with ttl := f.ttl - 1 }

/-- What a beacon carries (R403). -/
def beaconBytes (s : State) (acc : Nat) : List Byte := leBytes 4 acc ++ leBytes 4 s.ring.budgetNs ++ leBytes 2 s.ring.beaconNo

/-- Send a beacon out of a port that is up (R403). -/
def sendBeacon (s : State) (q ring acc : Nat) : State :=
  sendManagement s q { dst := stageAddress ring 0, ftype := 3, src := s.ring.stageAddr, payload := beaconBytes s acc }

/-- The ring management frame in the inbox with some payload, else one from an origin. -/
def managementFrame (s : State) (origin : Nat) (bytes : List Byte) : Frame :=
  (s.ring.inbox.find? fun f => f.ftype == 3 && f.payload == bytes).getD
    { dst := origin, ftype := 3, src := origin, payload := bytes }

/-- Nanoseconds that cover a time in ps. -/
def upNs (ps : Nat) : Nat := ceilDiv ps 1000

/-- A junction starts a beacon both ways around each child ring, from its `root_lat` and junction bound. -/
def childBeacons (s : State) : State :=
  [1, 2, 3].foldl (fun s k => match ringSlot s k with
    | none => s
    | some r => [r.portCw, r.portCcw].foldl (fun s q =>
        sendBeacon s q r.ring (s.ring.rootLat.getD 0 + upNs (hopBound s q true))) s) s

/-- The device is the stage root (R387). -/
def isRoot (s : State) : Bool := s.ring.configured && s.ring.stageAddr == 0

/-- BEACON_SEND (R403). -/
def execBeaconSend (s : State) : Host.Outcome State Fault Refusal :=
  .next (match ringSlot s 0 with
    | none => s
    | some r =>
      if !isRoot s then s
      else
        let s1 := updRing s fun x => { x with beaconNo := (x.beaconNo + 1) % 2 ^ 16 }
        childBeacons ([r.portCw, r.portCcw].foldl (fun s q => sendBeacon s q r.ring 0) s1))

/-- BEACON (R403, R404): a beacon arrived on a port. -/
def execBeaconFrame (port : Fin 8) (accNs budgetNs : BitVec 32) (number : BitVec 16) (s : State) :
    Host.Outcome State Fault Refusal :=
  let bytes := leBytes 4 accNs.toNat ++ leBytes 4 budgetNs.toNat ++ leBytes 2 number.toNat
  let f := managementFrame s (((ringSlot s 0).map fun r => stageAddress r.ring 0).getD 0) bytes
  let s := updRing s fun r => { r with
    inbox := r.inbox.eraseP fun f => f.ftype == 3 && f.payload == bytes }
  .next (match portRole s port.val, ringSlot s 0 with
    | some (0, _), some r =>
      if isRoot s then s
      else
        let here := accNs.toNat * 1000 + (ringPort s port.val).wirePs
        let own := portToward r 0 == some port.val
        let s1 := updRing s fun x => { x with
          budgetNs := budgetNs.toNat, beaconNo := number.toNat, lastBeacon := s.time.c.toNat, stale := false
          rootLat := if own then some (upNs here) else x.rootLat }
        let s2 := judgeBudget s1
        let s3 := match otherPort s2 port.val with
          | some q => passManagement s2 port.val { f with payload := beaconBytes s2 (upNs (here + hopBound s2 q false)) }
          | none => s2
        tryReopen (if own then childBeacons s3 else s3)
    | _, _ => s)

/-- BEACON_STALE (R404). -/
def execBeaconStale (s : State) : Host.Outcome State Fault Refusal :=
  .next (if s.ring.configured && s.ring.rootLat.isSome && !isRoot s then updRing s fun r => { r with stale := true } else s)

/-- WIRE_DELAY_MEASURE (R402): at link-up, in the handshake, and again every 100 ms. -/
def execWireDelayMeasure (port : Fin 8) (ps : BitVec 32) (s : State) : Host.Outcome State Fault Refusal :=
  .next (if [1, 2].contains (ringPort s port.val).state then updPort s port.val fun p => { p with wirePs := ps.toNat } else s)

/-! ## Break and heal notices (R400) -/

/-- A notice that came in on a port: recorded, and passed on around the ring until it is back at its sender. -/
def takeNotice (s : State) (q : Nat) (origin : Nat) (p : Nat) (heal : Bool) : State :=
  match portRole s q with
  | none => s
  | some (k, _) => match ringSlot s k with
    | none => s
    | some r =>
      let bytes := (List.range 32).map (Config.noticeByte r.ring p (boolNat heal))
      let f := managementFrame s origin bytes
      let s1 := updRing s fun x => { x with inbox := x.inbox.eraseP fun f => f.ftype == 3 && f.payload == bytes }
      if r.size ≤ p || origin = stageAddress r.ring r.pos then s1
      else
        passManagement (recordBreak s1 k heal p) q f

/-- BREAK_NOTICE (R400). -/
def execBreakNotice (port : Fin 8) (origin : BitVec 12) (p : Fin 64) (s : State) : Host.Outcome State Fault Refusal :=
  .next (takeNotice s port.val origin.toNat p.val false)

/-- HEAL_NOTICE (R400). -/
def execHealNotice (port : Fin 8) (origin : BitVec 12) (p : Fin 64) (s : State) : Host.Outcome State Fault Refusal :=
  .next (tryReopen (takeNotice s port.val origin.toNat p.val true))

/-! ## The link (R391 to R395) -/

/-- FLIT_RECEIVED (R391, R392). -/
def execFlitReceived (port : Fin 8) (flit : List Byte) (s : State) : Host.Outcome State Fault Refusal :=
  .next (if (ringPort s port.val).lanesUp then tryReopen (receiveFlit s port.val flit) else s)

/-- FLIT_TRANSMIT (R393); the eighth replay in a row that ends without progress fails the link (R395). -/
def execFlitTransmit (port : Fin 8) (s : State) : Host.Outcome State Fault Refusal :=
  let s1 := if (ringPort s port.val).lanesUp then transmit s port.val else s
  .next (if 8 ≤ (ringPort s1 port.val).consecutive then linkFail s1 port.val 2 else s1)

/-- REPLAY_TIMEOUT (R393). -/
def execReplayTimeout (port : Fin 8) (s : State) : Host.Outcome State Fault Refusal :=
  .next (if (ringPort s port.val).state = 2 && !(ringPort s port.val).held.isEmpty then startReplay s port.val else s)

/-- LINK_SILENCE_TIMEOUT (R395). -/
def execLinkSilenceTimeout (port : Fin 8) (s : State) : Host.Outcome State Fault Refusal :=
  .next (if (ringPort s port.val).state = 2 then linkFail s port.val 3 else s)

/-! ## Commands (R388, R389, R418) -/

/-- Offset of child slot k of `RING_CONFIG`, and of its route entry r. -/
def childOff (k : Nat) : Nat := 8 + 4 * (k - 1)
def routeOff (r : Nat) : Nat := 0x18 + 2 * r

/-- The rings a `RING_CONFIG` names: slot, ring and size; an unused child slot has none. -/
def ringsNamed (b : Body) : List (Nat × Nat × Nat) :=
  (0, fld b 0 1, fld b 2 1) :: ([1, 2, 3].filter fun k => fld b (childOff k) 1 != 0xFF).map fun k =>
    (k, fld b (childOff k) 1, fld b (childOff k + 1) 1)
/-- Offsets of the ports it names, ascending. -/
def portOffs (b : Body) : List Nat :=
  [4, 5] ++ ([1, 2, 3].filter fun k => fld b (childOff k) 1 != 0xFF).flatMap fun k => [childOff k + 2, childOff k + 3]

/-- A port named before under a lower offset. -/
def portTwice (b : Body) (off : Nat) : Bool :=
  (portOffs b).any fun o => o < off && fld b o 1 == fld b off 1

/-- Route table entry r: whether it is valid and disagrees with the configuration. -/
def badEntry (b : Body) (r : Nat) : Bool :=
  let e := fld b (routeOff r) 2
  e.testBit 15 &&
    ((ringsNamed b).any (fun x => x.2.1 == r) ||
     match (ringsNamed b).find? fun x => x.1 == e / 64 % 4 with
     | none => true
     | some x => (x.1 != 0 && fld b 3 1 == 0) || x.2.2 ≤ e % 64)

/-- Checks of one child slot: its fields' ranges, then its agreement with the rest. -/
def childRanges (b : Body) (k : Nat) : List (Option Rej) :=
  let o := childOff k
  let used := fld b o 1 != 0xFF
  [eRange (used && 64 ≤ fld b o 1) o, inMode used (inRange b (o + 1) 1 2 64), inMode used (inRange b (o + 2) 1 0 7),
   inMode used (inRange b (o + 3) 1 0 7)]
def childAgrees (b : Body) (k : Nat) : List (Option Rej) :=
  let o := childOff k
  let used := fld b o 1 != 0xFF
  [eComb (used && (fld b 3 1 == 0 || (ringsNamed b).any fun x => x.1 < k && x.2.1 == fld b o 1)) o,
   offMode used (mustBe0 b (o + 1) 1),
   if used then eComb (portTwice b (o + 2)) (o + 2) else mustBe0 b (o + 2) 1,
   if used then eComb (portTwice b (o + 3)) (o + 3) else mustBe0 b (o + 3) 1]

/-- The slots of a configuration. -/
def configSlots (b : Body) : List (Option RingSlot) :=
  some { ring := fld b 0 1, pos := fld b 1 1, size := fld b 2 1, portCw := fld b 4 1, portCcw := fld b 5 1 } ::
    [1, 2, 3].map fun k =>
      if fld b (childOff k) 1 = 0xFF then none
      else some { ring := fld b (childOff k) 1, pos := 0, size := fld b (childOff k + 1) 1,
                  portCw := fld b (childOff k + 2) 1, portCcw := fld b (childOff k + 3) 1 }

/-- RING_CONFIG (R386 to R389). -/
def ringConfigCard : Card where
  opcode := 0x0C01
  len := fixedLen 0x98
  fields b _ :=
    let root := fld b 0 1 == 0 && fld b 1 1 == 0
    [inRange b 0 1 0 63, inRange b 2 1 2 64, inRange b 3 1 0 1, inRange b 4 1 0 7, inRange b 5 1 0 7, resv b 6 2] ++
    ([1, 2, 3].flatMap (childRanges b)) ++
    [eRange (root && fld b 0x14 4 != 0 && (fld b 0x14 4 < 10 || 10000 < fld b 0x14 4)) 0x14] ++
    ((List.range 64).map fun r => eRange (fld b (routeOff r) 2 / 256 % 128 != 0) (routeOff r)) ++
    [eComb (fld b 2 1 ≤ fld b 1 1) 1, eComb (portTwice b 5) 5] ++
    ([1, 2, 3].flatMap (childAgrees b)) ++
    [eComb (root != (fld b 0x14 4 != 0)) 0x14] ++
    ((List.range 64).map fun r => eComb (badEntry b r) (routeOff r))
  seq b s := (portOffs b).map fun o => eSeqAt (linkOf s (fld b o 1)).isNone o
  state _ s := [eStateAt (s.ring.flows.any fun f => f.kind ≤ 4 && f.state ≤ 2) 0]
  effect _ b s :=
    let named := (portOffs b).map fun o => fld b o 1
    let root := fld b 0 1 == 0 && fld b 1 1 == 0
    let ports := s.ring.ports.mapIdx fun q p =>
      let p' := { portHandshake p with express := [], bulk := [] }
      if named.contains q then p' else { p' with state := 0 }
    let entries := (List.range 64).map fun r =>
      let e := fld b (routeOff r) 2
      if e.testBit 15 then some (e % 64, e / 64 % 4) else none
    let s1 := updRing s fun r => { r with
      stageAddr := stageAddress (fld b 0 1) (fld b 1 1), configured := true, junction := fld b 3 1 == 1
      slots := configSlots b, budgetUs := fld b 0x14 4, route := entries, ports := ports
      budgetNs := fld b 0x14 4 * 1000, rootLat := if root then some 0 else none, stale := false }
    (judgeBudget s1, .now [])

def execRingConfig (n : Fin 40) (s : State) : Host.Outcome State Fault Refusal := .next (mbxRun ringConfigCard n.val s)

/-- A port's block of `RING_STATUS`. -/
def ringPortBlock (s : State) (q : Nat) : List Byte :=
  let p := ringPort s q
  let role := portRole s q
  leBytes 1 p.state ++ leBytes 1 ((role.map (·.1)).getD 0xFF) ++ leBytes 1 ((role.map (·.2)).getD 0) ++
    leBytes 1 p.version ++ leBytes 4 p.wirePs ++ leBytes 4 p.replays ++ leBytes 4 p.fcrcErrors ++ leBytes 4 p.wrapped ++
    leBytes 4 p.dropped ++ leBytes 4 p.aborts ++ zeros 4

def ringStatusBytes (s : State) : List Byte :=
  let r := s.ring
  leBytes 2 r.stageAddr ++ leBytes 1 (if !r.configured then 0 else if r.junction then 2 else 1) ++
    leBytes 1 (boolNat (!r.within) + 2 * boolNat r.stale) ++ leBytes 4 (r.rootLat.getD 0xFFFFFFFF) ++
    leBytes 4 r.flows.length ++ leBytes 2 (min 4096 r.flows.length) ++ leBytes 2 (pinnedCount s) ++
    leBytes 4 r.cacheMisses ++ leBytes 4 r.opensRefused ++
    (r.slots.flatMap fun o => leBytes 8 ((o.map fun x => x.breaks.toNat).getD 0)) ++ zeros 8 ++
    (List.range 8).flatMap (ringPortBlock s)

/-- RING_STATUS (R418). -/
def ringStatusCard : Card where
  opcode := 0x0C02
  len := fixedLen 4
  fields b _ := [inRange b 0 1 0 1, resv b 1 3]
  effect _ b s :=
    (if fld b 0 1 = 1 then updRing s fun r => { r with
        cacheMisses := 0, opensRefused := 0
        ports := r.ports.map fun p => { p with
          replays := 0, fcrcErrors := 0, wrapped := 0, dropped := 0, aborts := 0 } } else s,
     .now (ringStatusBytes s))

def execRingStatus (n : Fin 40) (s : State) : Host.Outcome State Fault Refusal := .next (mbxRun ringStatusCard n.val s)

/-! ## Flint (R416, R417) -/

/-- The number of a target's injector. -/
def injectorOf (target index : Nat) : Nat := if target = 0 then index else if target = 1 then 8 + index else 10 + index

/-- FLINT_SET (R416, R417). -/
def flintSetCard : Card where
  opcode := 0x1610
  len := fixedLen 0x14
  fields b s :=
    let target := fld b 0 1
    let mode := fld b 2 1
    [inRange b 0 1 0 2, eVariant (target == 0 && !s.fuse.ring) 0, inRange b 2 1 0 3,
     rejIf (1 ≤ mode && !flintAllowed s) 0x0109 2 0, inMode (mode != 0) (inRange b 3 1 0 30),
     inMode (mode == 2) (inRange b 5 1 0 60), resv b 6 2,
     eComb ([7, 1, 3].getD target 0 < fld b 1 1) 1,
     inMode (mode == 0) (mustBe0 b 3 1),
     if mode = 0 then mustBe0 b 4 1 else eComb (fld b 4 1 == 0) 4,
     offMode (mode == 2) (mustBe0 b 5 1),
     if mode = 2 then eComb (fld b 8 4 == 0) 8 else mustBe0 b 8 4,
     if mode = 0 then mustBe0 b 0x0C 4 else eComb (fld b 0x0C 4 == 0) 0x0C]
  state b s := [eStateAt (1 ≤ fld b 2 1 && !s.br.testEn) 2]
  effect _ b s :=
    let mode := fld b 2 1
    (updRing s fun r => { r with
      injectors := modAt r.injectors (injectorOf (fld b 0 1) (fld b 1 1)) fun i => { i with
        mode := mode, n := fld b 3 1, burst := fld b 4 1, offset := fld b 5 1, pattern := fld b 8 4
        count := fld b 0x10 4, lfsr := fld b 0x0C 4 % 2 ^ 31, armed := mode != 0, left := 0, done := 0 } }, .now [])

def execFlintSet (n : Fin 40) (s : State) : Host.Outcome State Fault Refusal := .next (mbxRun flintSetCard n.val s)

/-- FLINT_STATUS (R417). -/
def flintStatusCard : Card where
  opcode := 0x1611
  len := fixedLen 4
  fields b _ := [inRange b 0 1 0 1, resv b 1 3]
  effect _ b s :=
    let resp := leBytes 1 (boolNat s.br.flintGate) ++ leBytes 1 (boolNat s.br.testEn) ++ zeros 14 ++
      s.ring.injectors.flatMap fun i =>
        leBytes 1 i.mode ++ leBytes 1 i.n ++ leBytes 1 i.burst ++ leBytes 1 (boolNat i.armed) ++
          leBytes 4 i.injections ++ leBytes 4 i.units ++ zeros 4
    (if fld b 0 1 = 1 then updRing s fun r => { r with
        injectors := r.injectors.map fun i => { i with injections := 0, units := 0 } } else s, .now resp)

def execFlintStatus (n : Fin 40) (s : State) : Host.Outcome State Fault Refusal := .next (mbxRun flintStatusCard n.val s)

end Sys2Proof.Machine
end

