-- ==== Sys2Proof/Machine/Sched.lean ====
section
/-! DEFINITION. The stripe scheduler's commands and events (chapter 06). -/

namespace Sys2Proof.Machine

/-- SCHED_SENSOR (R143). -/
def schedSensorCard : Card where
  opcode := 0x0401
  len := fixedLen 8
  fields b s :=
    [sensorField b 0, inRange b 1 1 0 3, resv b 2 2, inRange b 4 4 100 2000000,
     (sensorOf s (fld b 0 1)).cfg.bind fun c => rejIf (maxBudgetUs c < fld b 4 4) 0x0104 4 (maxBudgetUs c)]
  seq b s := [eSeq (!configured s (fld b 0 1))]
  effect _ b s := (updSensor s (fld b 0 1) fun x => { x with cls := fld b 1 1, budgetUs := fld b 4 4 }, .now [])

def execSchedSensor (n : Fin 40) (s : State) : Host.Outcome State Fault Refusal :=
  .next (mbxRun schedSensorCard n.val s)

/-- The pending set of a commit (R129, R132, R156, R225): it takes over the deferrals of the set it replaces. -/
def commitSensor (s : State) (sn : Nat) : State :=
  let old := (sensorOf s sn).pendingSet
  let s1 := updSensor s sn fun x => { x with pendingSet := none }
  let r := resolveBanks s1 (rndsOfSensor s1 sn) (sensorOf s sn).shadow none
  let k := s.img.sched.commits
  let kept := old.bind fun p => if p.deferrals = 0 then none else some p.order
  let s2 := updSensor r.2 sn fun x => { x with
    pendingSet := some {
      params := x.shadow, banks := r.1, deferrals := (old.map (·.deferrals)).getD 0, newRun := x.blackSince, order := kept.getD k }
    blackSince := false
    superseded := if old.isSome then sat32 x.superseded 1 else x.superseded }
  sweep { s2 with img.sched.commits := k + 1 }

/-- SCHED_COMMIT (R129). -/
def schedCommitCard : Card where
  opcode := 0x0402
  len := fixedLen 4
  fields b _ := [sensorField b 0, resv b 1 3]
  seq b s := [eSeq (!configured s (fld b 0 1))]
  effect _ b s :=
    let x := sensorOf s (fld b 0 1)
    (commitSensor s (fld b 0 1), .now (leBytes 2 ((x.gen + 1) % 65536) ++ leBytes 2 (boolNat x.pendingSet.isSome)))

def execSchedCommit (n : Fin 40) (s : State) : Host.Outcome State Fault Refusal :=
  .next (mbxRun schedCommitCard n.val s)

/-- A sensor's block of `SCHED_STATUS` (R143, R639). -/
def schedBlock (x : Sensor) : List Byte :=
  match x.cfg with
  | none => zeros 8 ++ leBytes 4 0xFFFFFFFF ++ zeros 20
  | some c =>
    let slack := match x.margins with
      | [] => 0xFFFFFFFF
      | m :: l => timeNs (l.foldl min m)
    leBytes 4 x.framesDone ++ leBytes 4 x.framesDropped ++ leBytes 4 slack ++ leBytes 4 (fullBandTime c) ++
      leBytes 4 x.budgetUs ++ leBytes 2 x.gen ++ leBytes 1 x.cls ++ leBytes 1 (boolNat x.pendingSet.isSome) ++
      leBytes 4 x.latchDeferred ++ leBytes 4 x.superseded

/-- Physical engines that a logical engine is mapped to. -/
def enginesInService (s : State) : Nat :=
  (((List.range (stripeActive s.fuse)).filter fun i => !s.img.sched.lost.contains i).map fun i =>
    2 ^ s.img.sched.logical.getD i 0).sum
def enginesFailed (s : State) : Nat := packBits (s.img.sched.engines.map (·.failed))

/-- SCHED_STATUS (R143). -/
def schedStatusCard : Card where
  opcode := 0x0403
  len := fixedLen 4
  fields b _ := [inRange b 0 1 0 1, resv b 1 3]
  effect _ b s :=
    let clr (x : Sensor) : Sensor := { x with
      framesDone := 0, framesDropped := 0, latchDeferred := 0, superseded := 0, margins := [] }
    let s1 := if fld b 0 1 = 1 then { s with
        img.sensors := s.img.sensors.map clr
        img.sched.reruns := 0 } else s
    (s1, .now (leBytes 1 (healthyEngines s) ++ leBytes 1 s.therm.allow ++ leBytes 2 (enginesInService s) ++
      leBytes 2 (enginesFailed s) ++ [0, 0] ++ s.img.sensors.flatMap schedBlock ++ leBytes 4 s.img.sched.reruns ++
      zeros 4))

def execSchedStatus (n : Fin 40) (s : State) : Host.Outcome State Fault Refusal :=
  .next (mbxRun schedStatusCard n.val s)

/-- The physical engine of a logical engine that can take a band. -/
def freeEngine (s : State) (i : Nat) : Option Nat :=
  let p := s.img.sched.logical.getD i 0
  let e := s.img.sched.engines.getD p {}
  if i < stripeActive s.fuse && !s.img.sched.lost.contains i && !e.failed && e.running.isNone then some p else none

/-- BAND_ISSUE: the next ready band goes to a free engine while the credit is above 0 (R134, R533). -/
def execBandIssue (engine : Fin 8) (s : State) : Host.Outcome State Fault Refusal :=
  match freeEngine s engine.val, nextBand s with
  | some p, some b => if 0 < schedCredit s then .next (issueBand s p b) else .next s
  | _, _ => .next s

/-- BAND_COMPLETE: a physical engine's band ends, with the deep-lattice cache misses it had and the clocks they
stalled it (R170, R216). -/
def execBandComplete (engine : Fin 9) (misses stall : Nat) (s : State) : Host.Outcome State Fault Refusal :=
  .next (bandEnd s engine.val misses stall)

/-- DEADLINE_DROP: a frame of a sensor with a band incomplete after its deadline (R136). -/
def execDeadlineDrop (sensor : Fin 4) (s : State) : Host.Outcome State Fault Refusal :=
  match (pendingFrames s).find? fun f => f.1 == sensor.val && decide (f.2.deadline < viewSNow s) with
  | some f => .next (overloadCheck (schedDrop s f.1 f.2 1 0))
  | none => .next s

/-- `EV_SCHED_RERUN`, with its leaf. -/
def rerunEvent (s : State) (p : Nat) (b : Band) (cause taker : Nat) : State :=
  notify s 0x0404 p (leBytes 1 b.sensor ++ leBytes 1 b.stripe ++ leBytes 2 b.row ++ leBytes 4 b.seq ++
    leBytes 1 cause ++ leBytes 1 taker) 13

/-- The band a failed engine ran returns to the head of the order; that of a dropped frame only ends. -/
def returnBand (s : State) (b : Band) : Bool × State :=
  if (ingestOf s b.sensor b.seq).any fun f => f.drop.isNone then
    (true, { s with
      img.sched.returned := b :: s.img.sched.returned
      img.sched.reruns := sat32 s.img.sched.reruns 1 })
  else (false, dropOutputs s b.sensor b.seq)

/-- The logical engine a physical one serves. -/
def engineLogical (s : State) (p : Nat) : Option Nat :=
  (List.range (stripeActive s.fuse)).find? fun i =>
    !s.img.sched.lost.contains i && s.img.sched.logical.getD i 0 == p

/-- The spare engine: the lowest-numbered healthy one that serves no logical index (R586). -/
def spareEngine (s : State) : Option Nat :=
  (List.range (stripeActive s.fuse + 1)).find? fun p =>
    !(s.img.sched.engines.getD p {}).failed && (engineLogical s p).isNone

/-- A physical stripe engine fails: cause 0 uncorrectable, 1 no progress, 2 wear (R139, R140, R142); what brought the
failure about is recorded after the engine's own entry (R600, worked example). -/
def engineFailFor (mid : State → State) (s : State) (p cause : Nat) : State :=
  let n := stripeActive s.fuse
  if (s.img.sched.engines.getD p {}).failed || n < p then mid s
  else
    let s0 := settleCredit s
    let was := (s0.img.sched.engines.getD p {}).running
    let s1 := { s0 with
      img.sched.engines := modAt s0.img.sched.engines p fun _ => { failed := true, running := none } }
    let r := match was with
      | some b => returnBand s1 b
      | none => (false, s1)
    let idx := engineLogical s0 p
    let spare := spareEngine s1
    let use := idx.isSome && spare.isSome
    let n := spare.getD 0
    let s2 := match idx with
      | none => r.2
      | some i =>
        if use then { r.2 with img.sched.logical := r.2.img.sched.logical.set i n }
        else { r.2 with img.sched.lost := r.2.img.sched.lost ++ [i] }
    let s3 := mid (spareRecord s2 1 0 cause p 0 0 0)
    let s4 := if use then spareRecord (countSubst s3 1) 1 1 cause n 0 0 0
      else if idx.isSome then setLeaf s3 4 12 else s3
    let s4 := if (spareEngine s4).isNone && (spareEngine s0).isSome then setLeaf s4 21 7 else s4
    let s5 := match r.1, was with
      | true, some b =>
        let s5 := rerunEvent s4 p b cause (if use then n else 0xFF)
        if use then issueBand s5 n b else s5
      | _, _ => s4
    overloadCheck s5
def engineFail (s : State) (p cause : Nat) : State := engineFailFor id s p cause

/-- ENGINE_FAULT: an uncorrectable error (R139). -/
def execEngineFault (engine : Fin 9) (flash : Bool) (s : State) : Host.Outcome State Fault Refusal :=
  .next (engineFail { s with spare.flashOk := flash } engine.val 0)

/-- ENGINE_NO_PROGRESS: a band that does not advance for 4,096 clocks (R139). -/
def execEngineNoProgress (engine : Fin 9) (flash : Bool) (s : State) : Host.Outcome State Fault Refusal :=
  if (s.img.sched.engines.getD engine.val {}).running.isSome then
    .next (engineFail { s with spare.flashOk := flash } engine.val 1)
  else .next s

end Sys2Proof.Machine
end

