-- ==== Sys2Proof/Machine/FrontEnd.lean ====
section
/-! DEFINITION. The front end's commands and calibration capture (chapter 07). -/

namespace Sys2Proof.Machine

def updShadow (s : State) (sn : Nat) (f : Params → Params) : State :=
  updSensor s sn fun x => { x with shadow := f x.shadow }

/-- An F24 parameter word within bounds (R148). -/
def f24Field (b : Body) (off lo hi : Nat) : Option Rej := eRange (!F24.inBounds (fld b off 4) lo hi) off

/-- Whether a word is an F24 code at all. -/
def f24Word (b : Body) (off : Nat) : Option Rej := eRange (2 ^ 24 ≤ fld b off 4) off

/-- A word that an engine reads as +0 (R182). -/
def f24Zero (b : Body) (off : Nat) : Bool := fld b off 4 < 2 ^ 24 && F24.val (fld b off 4) == 0

/-- 2^k as an F24 code, and the bounds used by the cards. -/
def f24Max : Nat := 0x7FFFFF
/-- The least positive F24 value. -/
def f24Tiny : Nat := 1

/-- Little-endian words of a table in DRAM. -/
def tableWords (s : State) (addr count size : Nat) : List Nat :=
  (List.range count).map fun i => memLE s.dram (addr + size * i) size

/-- The first word of a table that a test refuses, as a rejection that names its index. -/
def badWord (l : List Nat) (bad : Nat → Bool) (code off : Nat) : Option Rej :=
  ((List.range l.length).find? fun i => bad (l.getD i 0)).bind fun i => rejIf true code off i

/-- Copy a table into DRAM of its own (R163, R227, R636). -/
def makeCopy (s : State) (size : Nat) (vals : List Nat) : Copy × State :=
  let a := alloc s .copy size
  (⟨a.1, vals⟩, a.2)
def copyFits (s : State) (size : Nat) : Option Rej := eNoCtx (allocBase s size).isNone (freeMib s)

/-! ## FE_LIN_LOAD (R151) -/

def linWords (b : Body) (s : State) : List Nat := tableWords s (fld b 4 8) 4096 4
/-- The first index at which a table falls. -/
def firstFall (l : List Nat) : Option Nat :=
  (List.range l.length).find? fun i => i != 0 && F24.lt (l.getD i 0) (l.getD (i - 1) 0)

def feLinLoadCard : Card where
  opcode := 0x0501
  len := fixedLen 0x0C
  fields b s :=
    [sensorField b 0, inRange b 1 1 0 2, resv b 2 2, addrField b 4 16384 s,
     badWord (linWords b s) (2 ^ 24 ≤ ·) 0x0103 4,
     (sensorOf s (fld b 0 1)).cfg.bind fun c => eComb (c.exposures ≤ fld b 1 1) 1,
     (firstFall (linWords b s)).bind fun i => rejIf true 0x0501 4 i]
  seq b s := [eSeq (!configured s (fld b 0 1))]
  res _ s := [copyFits s 16384]
  effect _ b s :=
    let r := makeCopy s 16384 (linWords b s)
    (sweep (updShadow r.2 (fld b 0 1) fun p => { p with lin := p.lin.set (fld b 1 1) (some r.1) }), .now [])

def execFeLinLoad (n : Fin 40) (s : State) : Host.Outcome State Fault Refusal :=
  .next (mbxRun feLinLoadCard n.val s)

/-! ## FE_MERGE (R152) -/

/-- The field checks of an exposure's merge terms at step 6; a term of an exposure that is not configured may be
0, and is only held to be a word. Exposure 0 is configured whatever the configuration (R635). -/
def mergeFields (b : Body) (configuredE : Option Nat) (e : Nat) : List (Option Rej) :=
  let o := 8 + 16 * e
  let zeroOk := configuredE.isNone && e != 0
  let skip := configuredE.any fun n => n ≤ e
  let chk (off lo hi : Nat) : Option Rej :=
    if skip then f24Word b off else if zeroOk && f24Zero b off then none else f24Field b off lo hi
  [if e = 0 then chk o F24.one F24.one else chk o 0xFFFFFF (F24.pow2 16), chk (o + 4) f24Tiny f24Max,
   chk (o + 8) f24Tiny f24Max, chk (o + 12) 0 f24Max]

def mergeCombs (b : Body) (n e : Nat) : List (Option Rej) :=
  let o := 8 + 16 * e
  if n ≤ e then [0, 4, 8, 12].map fun i => eComb (!f24Zero b (o + i)) (o + i)
  else [eComb (e != 0 && F24.lt (fld b o 4) (fld b (o - 16) 4)) o]

def feMergeCard : Card where
  opcode := 0x0502
  len := fixedLen 0x38
  fields b s :=
    let n := (sensorOf s (fld b 0 1)).cfg.map (·.exposures)
    [sensorField b 0, resv b 1 3, if f24Zero b 4 then none else f24Field b 4 (F24.pow2 (-1)) (F24.pow2 6)] ++
      (List.range 3).flatMap (mergeFields b n) ++
      (match n with
        | some n => (List.range 3).flatMap (mergeCombs b n)
        | none => [])
  seq b s := [eSeq (!configured s (fld b 0 1))]
  effect _ b s :=
    let m (e : Nat) : ExpMerge :=
      { k := fld b (8 + 16 * e) 4, sat := fld b (12 + 16 * e) 4, nRead := fld b (16 + 16 * e) 4
        nShot := fld b (20 + 16 * e) 4 }
    (updShadow s (fld b 0 1) fun p => { p with guard := fld b 4 4, merge := [m 0, m 1, m 2] }, .now [])

def execFeMerge (n : Fin 40) (s : State) : Host.Outcome State Fault Refusal :=
  .next (mbxRun feMergeCard n.val s)

/-! ## FE_BLACK (R157) -/

def colTableSize (s : State) (sn : Nat) : Nat := ((sensorOf s sn).cfg.map (·.width)).getD 0
def colTable (b : Body) (s : State) : List Nat := tableWords s (fld b 0x10 8) (colTableSize s (fld b 0 1)) 4

/-- DRAM for the table's copy, and for a tracking term's versions where the sensor has no region for them (R163,
R636). -/
def blackFits (b : Body) (s : State) : List (Option Rej) :=
  let sn := fld b 0 1
  let table := fld b 0x10 8 != 0
  let s1 := if table then (alloc s .copy (4 * colTableSize s sn)).2 else s
  let more := fld b 1 1 == 2 && (regionOf s (.column sn)).isNone
  [if table then copyFits s (4 * colTableSize s sn) else none,
   (sensorOf s sn).cfg.bind fun c => eNoCtx (more && (allocBase s1 (columnBytes c)).isNone) (freeMib s1)]

def feBlackCard : Card where
  opcode := 0x0503
  len := fixedLen 0x18
  fields b s :=
    let mode := fld b 1 1
    let cfg := (sensorOf s (fld b 0 1)).cfg
    let table := fld b 0x10 8 != 0 && mode != 0
    [sensorField b 0, inRange b 1 1 0 2, inRange b 2 1 0 32, inMode (mode == 2) (inRange b 3 1 0 8),
     inMode (mode == 2) (inRange b 8 1 0 16), resv b 9 3,
     f24Field b 0x0C 0 f24Max, inMode table (addrField b 0x10 (4 * colTableSize s (fld b 0 1)) s),
     inMode table (badWord (colTable b s) (2 ^ 24 ≤ ·) 0x0103 0x10),
     eComb (mode != 2 && fld b 3 1 != 0) 3, cfg.bind fun c => eComb (c.width < fld b 4 2 + fld b 2 1) 4,
     eComb ((mode == 2) == (fld b 8 1 == 0)) 8,
     cfg.bind fun c => eComb (mode == 2 && c.height < fld b 6 2 + fld b 8 1) 8,
     eComb ((mode == 1 && fld b 0x10 8 == 0) || (mode == 0 && fld b 0x10 8 != 0)) 0x10]
  seq b s := [eSeq (!configured s (fld b 0 1))]
  res b s := blackFits b s
  effect _ b s :=
    let sn := fld b 0 1
    let r := if fld b 0x10 8 = 0 then (none, s)
      else
        let c := makeCopy s (4 * colTableSize s sn) (colTable b s)
        (some c.1, c.2)
    let blk : Black := { colMode := fld b 1 1, rowCount := fld b 2 1, alpha := fld b 3 1, rowFirst := fld b 4 2
                         obFirst := fld b 6 2, obCount := fld b 8 1, rowLimit := fld b 0x0C 4, table := r.1 }
    (sweep (columnRegion (updSensor (updShadow r.2 sn fun p => { p with black := blk }) sn fun x => { x with
      blackSince := true }) sn), .now [])

def execFeBlack (n : Fin 40) (s : State) : Host.Outcome State Fault Refusal :=
  .next (mbxRun feBlackCard n.val s)

/-! ## Photosite maps (R158 to R162) -/

def mapOf (s : State) (h : Nat) : Option PhotoMap := s.img.maps.getD h none

/-- A map is named by a shadow set, a pending set or a live generation. -/
def mapNamed (s : State) (h : Nat) : Bool :=
  let names (p : Params) : Bool := p.defect.map == some h
  (List.range 4).any fun sn =>
    names (sensorOf s sn).shadow || (sensorOf s sn).pendingSet.any (fun p => names p.params) ||
      (List.range 6).any fun r => (liveOn s r sn).any fun g => names g.1

/-- A map is the target of a capture. -/
def mapCaptured (s : State) (h : Nat) : Bool := s.img.sensors.any fun x => x.capture.any fun c => c.handle == h

/-- Write an entry of a map. -/
def putEntry (s : State) (m : PhotoMap) (x y e : Nat) : State :=
  dramWrite s (m.base + y * mapStride m.width + 4 * x) (leBytes 4 e)

/-- FE_MAP_ALLOC (R159). DESIGN CHOICE (log entry 210): it gives the lowest free handle. -/
def feMapAllocCard : Card where
  opcode := 0x0504
  len := fixedLen 8
  fields b _ := [inRange b 0 2 64 16384, multipleOf b 0 2 8, inRange b 2 2 32 8192, multipleOf b 2 2 2, resv b 4 4]
  res b s := [eNoCtx (s.img.maps.all (·.isSome)) 16,
    eNoCtx (allocBase s (mapBytes (fld b 0 2) (fld b 2 2))).isNone (freeMib s)]
  effect _ b s :=
    let w := fld b 0 2
    let h := fld b 2 2
    let k := ((List.range 16).find? fun i => (mapOf s i).isNone).getD 0
    let a := alloc s (.map k) (mapBytes w h)
    let row := (List.replicate w (leBytes 4 0x40000000)).flatten
    let s1 := (List.range h).foldl (fun s y => dramWrite s (a.1 + y * mapStride w) row) a.2
    ({ s1 with img.maps := s1.img.maps.set k (some ⟨w, h, a.1⟩) },
      .now (leBytes 1 k ++ [0, 0, 0] ++ leBytes 4 (mapStride w) ++ leBytes 8 a.1 ++ leBytes 8 (mapBytes w h)))

def execFeMapAlloc (n : Fin 40) (s : State) : Host.Outcome State Fault Refusal :=
  .next (mbxRun feMapAllocCard n.val s)

def feMapFreeCard : Card where
  opcode := 0x0505
  len := fixedLen 4
  fields b _ := [inRange b 0 1 0 15, resv b 1 3]
  seq b s := [eSeqAt (mapOf s (fld b 0 1)).isNone 0]
  state b s := [eStateAt (mapNamed s (fld b 0 1)) 0]
  res b s := [eBusyAt (mapCaptured s (fld b 0 1)) 0]
  effect _ b s :=
    (release { s with img.maps := s.img.maps.set (fld b 0 1) none } (.map (fld b 0 1)), .now [])

def execFeMapFree (n : Fin 40) (s : State) : Host.Outcome State Fault Refusal :=
  .next (mbxRun feMapFreeCard n.val s)

/-- The offset unit's range: 2^-30 to 1.0. -/
def unitField (b : Body) (off : Nat) : Option Rej := f24Field b off (F24.pow2 (-30)) F24.one

/-- A map's size is the sensor's. -/
def mapFits (s : State) (sn h : Nat) : Bool :=
  match (sensorOf s sn).cfg, mapOf s h with
  | some c, some m => c.width == m.width && c.height == m.height
  | _, _ => true

def feMapSelectCard : Card where
  opcode := 0x0506
  len := fixedLen 0x0C
  fields b s :=
    [sensorField b 0, eRange (15 < fld b 1 1 && fld b 1 1 != 0xFF) 1, resv b 2 2, unitField b 4,
     eRange ((List.range 16).any fun c => fld b 8 4 / 4 ^ c % 4 == 3) 8,
     eComb (!mapFits s (fld b 0 1) (fld b 1 1)) 1]
  seq b s := [eSeq (!configured s (fld b 0 1)), eSeqAt (fld b 1 1 != 0xFF && (mapOf s (fld b 1 1)).isNone) 1]
  res b s := [eBusyAt (mapCaptured s (fld b 1 1)) 1]
  effect _ b s :=
    let h := if fld b 1 1 = 0xFF then none else some (fld b 1 1)
    (updShadow s (fld b 0 1) fun p => { p with
      defect := { p.defect with map := h, offsetUnit := fld b 4 4, classAction := fld b 8 4 } }, .now [])

def execFeMapSelect (n : Fin 40) (s : State) : Host.Outcome State Fault Refusal :=
  .next (mbxRun feMapSelectCard n.val s)

/-- FE_DEFECT (R165). -/
def feDefectCard : Card where
  opcode := 0x0507
  len := fixedLen 0x10
  fields b _ := [sensorField b 0, inRange b 1 1 0 2, resv b 2 2, f24Field b 4 0 f24Max, f24Field b 8 0 (F24.pow2 4),
    inRange b 0x0C 4 0 (2 ^ 27)]
  seq b s := [eSeq (!configured s (fld b 0 1))]
  effect _ b s := (updShadow s (fld b 0 1) fun p => { p with
    defect := { p.defect with mode := fld b 1 1, tAbs := fld b 4 4, tRel := fld b 8 4, storm := fld b 0x0C 4 } }, .now [])

def execFeDefect (n : Fin 40) (s : State) : Host.Outcome State Fault Refusal :=
  .next (mbxRun feDefectCard n.val s)

/-! ## FE_STATS_CONFIG (R170 to R172) -/

def feStatsConfigCard : Card where
  opcode := 0x0508
  len := fixedLen 0x14
  fields b _ := [sensorField b 0, eRange (fld b 1 1 == 1 || 16 < fld b 1 1) 1, inRange b 2 1 0 64, resv b 3 1] ++
    (List.range 4).map fun i => f24Field b (4 + 4 * i) 0 F24.one
  seq b s := [eSeq (!configured s (fld b 0 1))]
  state b s := [eState (streaming s (fld b 0 1))]
  res b s := [canReplace s (.statsRing (fld b 0 1)) (statsBytes * fld b 1 1)]
  effect _ b s :=
    let sn := fld b 0 1
    let d := fld b 1 1
    let r := realloc s (.statsRing sn) (statsBytes * d)
    let c : StatsCfg := { depth := d, e0 := fld b 2 1, weights := (List.range 4).map fun i => fld b (4 + 4 * i) 4
                          base := r.1 }
    (updSensor r.2 sn fun x => { x with statsCmd := if d = 0 then none else some c },
      .now (leBytes 8 r.1 ++ leBytes 4 statsBytes ++ zeros 4))

def execFeStatsConfig (n : Fin 40) (s : State) : Host.Outcome State Fault Refusal :=
  .next (mbxRun feStatsConfigCard n.val s)

/-! ## Calibration capture (R173 to R176) -/

def captureSize (s : State) (sn : Nat) : Nat := ((sensorOf s sn).cfg.map fun c => c.width * c.height).getD 0

/-- FE_CAL_CAPTURE (R173, R176). DESIGN CHOICE (log entry 211): a capture in its final pass answers `E_BUSY` as one that still
accumulates. -/
def feCalCaptureCard : Card where
  opcode := 0x0509
  len := fixedLen 0x18
  fields b s :=
    let dark := fld b 1 1 = 0
    [sensorField b 0, inRange b 1 1 0 1, inRange b 2 2 1 256, inRange b 4 1 0 15, resv b 5 3,
     if dark then f24Field b 8 f24Tiny f24Max else f24Word b 8,
     if dark then f24Word b 0x0C else f24Field b 0x0C 0 f24Max,
     inMode (!dark) (inRange b 0x10 2 0 4095), inMode (!dark) (inRange b 0x12 2 0 4095), unitField b 0x14,
     eComb (!mapFits s (fld b 0 1) (fld b 4 1)) 4, eComb (!dark && !f24Zero b 8) 8, eComb (dark && !f24Zero b 0x0C) 0x0C,
     inMode dark (mustBe0 b 0x10 2), inMode dark (mustBe0 b 0x12 2), eComb (!dark && fld b 0x12 2 < fld b 0x10 2) 0x12]
  seq b s := [eSeq (!configured s (fld b 0 1)), eSeqAt (mapOf s (fld b 4 1)).isNone 4]
  state b s := [eState (!streaming s (fld b 0 1)), eStateAt (mapNamed s (fld b 4 1)) 4]
  res b s :=
    let busy := (sensorOf s (fld b 0 1)).capture.isSome
    [eNoCtx (!busy && (allocBase s (8 * captureSize s (fld b 0 1))).isNone) (freeMib s), eBusy busy]
  effect _ b s :=
    let sn := fld b 0 1
    let a := alloc s (.accum sn) (8 * captureSize s sn)
    let c : Capture := { kind := fld b 1 1, frames := fld b 2 2, handle := fld b 4 1, hot := fld b 8 4
                         target := fld b 0x0C 4, gainLo := fld b 0x10 2, gainHi := fld b 0x12 2
                         offsetUnit := fld b 0x14 4, fromSeq := (sensorOf s sn).seq
                         acc := List.replicate (captureSize s sn) 0 }
    (updSensor a.2 sn fun x => { x with capture := some c }, .now [])

def execFeCalCapture (n : Fin 40) (s : State) : Host.Outcome State Fault Refusal :=
  .next (mbxRun feCalCaptureCard n.val s)

def feCalAbortCard : Card where
  opcode := 0x050A
  len := fixedLen 4
  fields b _ := [sensorField b 0, resv b 1 3]
  state b s := [eState (sensorOf s (fld b 0 1)).capture.isNone]
  res b s := [eBusy ((sensorOf s (fld b 0 1)).capture.any (·.finalPass))]
  effect _ b s := (captureEnd s (fld b 0 1) 1 0 0, .now [])

def execFeCalAbort (n : Fin 40) (s : State) : Host.Outcome State Fault Refusal :=
  .next (mbxRun feCalAbortCard n.val s)

/-- The mean of a photosite's counted values (R173). -/
def captureMean (c : Capture) (i : Nat) : Nat := F24.round (c.acc.getD i 0 * 2 ^ 46) c.frames

/-- An entry with other fields replaced: gain, offset, class, no_stats. -/
def entryGain (e g : Nat) : Nat := e % 2 ^ 20 + g * 2 ^ 20
def entryOffset (e : Nat) (o : Int) : Nat := e / 2 ^ 20 * 2 ^ 20 + unsigned 12 o * 256 + e % 256
def entryClassed (e cls : Nat) : Nat := (e / 256 * 256 + cls * 16 + e % 16) ||| 1

/-- A dark entry: its new value, whether it was classed and whether its offset was clamped (R174). -/
def darkEntry (c : Capture) (e mean : Nat) : Nat × Bool × Bool :=
  let o := roundEvenInt (-(F24.val mean)) (F24.val c.offsetUnit).toNat
  let k := clampInt o (-2048) 2047
  let hot := F24.lt c.hot mean
  let e1 := entryOffset e k
  (if hot then entryClassed e1 2 else e1, hot, k != o)

/-- The offset an entry already has. -/
def entryOff (c : Capture) (e : Nat) : Nat := F24.mul (F24.ofInt (signed 12 (e / 256))) c.offsetUnit

/-- A flat entry (R175). -/
def flatEntry (c : Capture) (e mean target : Nat) : Nat × Bool × Bool :=
  let o := entryOff c e
  let dead := (entryClassed (entryGain e 0x400) 1, true, false)
  if F24.val mean ≤ 0 then dead
  else
    let g := roundEvenInt (1024 * (F24.val target - F24.val o)) (F24.val mean).toNat
    if g < c.gainLo || (c.gainHi : Int) < g then dead else (entryGain e g.toNat, false, false)

/-- The target of a filter colour (R175): given, or the mean of mean + o over its photosites of class action 0. DESIGN CHOICE
(log entry 213): the class actions and the filter pattern are those of the sensor's active set at the end of the final
pass. -/
def flatTarget (s : State) (sn : Nat) (c : Capture) (m : PhotoMap) (role : Nat) : Nat :=
  if F24.val c.target != 0 then c.target
  else
    let p := (sensorOf s sn).active
    let vals := (List.range (m.width * m.height)).filterMap fun i =>
      let x := i % m.width
      let y := i / m.width
      let e := memLE s.dram (m.base + y * mapStride m.width + 4 * x) 4
      if roleOf p.mosaic (colourIndex p.mosaic x y) == role && p.defect.classAction / 4 ^ (e / 16 % 16) % 4 == 0 then
        some (F24.val (F24.add (captureMean c i) (entryOff c e))) else none
    if vals.isEmpty then 0 else F24.round vals.sum vals.length

/-- The map, entry by entry in row order, as a final pass writes it, with the entries classed and clamped so far; an entry
with `lock` set is left unchanged (R173 to R175). -/
def finalPass (s : State) (sn : Nat) (c : Capture) (m : PhotoMap) : State × Nat × Nat :=
  let p := (sensorOf s sn).active
  let targets := if c.kind = 1 then (List.range 4).map (flatTarget s sn c m) else []
  (List.range (m.width * m.height)).foldl (fun (acc : State × Nat × Nat) i =>
    let x := i % m.width
    let y := i / m.width
    let e := memLE acc.1.dram (m.base + y * mapStride m.width + 4 * x) 4
    if e.testBit 2 then acc
    else
      let mean := captureMean c i
      let v := if c.kind = 0 then darkEntry c e mean
        else flatEntry c e mean (targets.getD (roleOf p.mosaic (colourIndex p.mosaic x y)) 0)
      (putEntry acc.1 m x y v.1, acc.2.1 + boolNat v.2.1, acc.2.2 + boolNat v.2.2)) (s, 0, 0)

/-- CAL_FINAL_PASS_DONE: the final pass has written the map (R173 to R176). -/
def execCalFinalPassDone (sensor : Fin 4) (s : State) : Host.Outcome State Fault Refusal :=
  match (sensorOf s sensor.val).capture with
  | none => .next s
  | some c => match mapOf s c.handle with
    | none => .next s
    | some m =>
      if !c.finalPass then .next s
      else
        let r := finalPass s sensor.val c m
        .next (captureEnd r.1 sensor.val 0 r.2.1 r.2.2)

end Sys2Proof.Machine
end

