-- ==== Sys2Proof/Machine/RndOps.lean ====
section
/-! DEFINITION. What a rendition engine does: binding, choice of frames, resizing (R240 to R245). -/

namespace Sys2Proof.Machine

/-! ## Binding (R230, R240) -/

/-- A parameter set with a rendition's items at their defaults. -/
def unplacedParams (r : Nat) (p : Params) : Params :=
  { p with
    colour := p.colour.set r {}
    place := p.place.set r none }

/-- A newly bound rendition has default colours and no placement in any set of its sensor. -/
def resetRnd (s : State) (sn r : Nat) : State :=
  let g := unplacedParams r
  let s1 := updSensor s sn fun x => { x with
    shadow := g x.shadow, active := g x.active, banks := x.banks.set r none
    pendingSet := x.pendingSet.map fun p => { p with params := g p.params, banks := p.banks.set r none }
    frames := x.frames.map fun f => { f with params := g f.params, banks := f.banks.set r none }
    slBufs := x.slBufs.map fun b => { b with params := g b.params, banks := b.banks.set r none } }
  let a := resolveBank s1 r (colImage {}) (some sn)
  updSensor a.2 sn fun x => { x with
    banks := x.banks.set r a.1
    pendingSet := x.pendingSet.map fun p => { p with banks := p.banks.set r a.1 } }

def rndBufBytes (x : Rendition) : Nat := layoutBufBytes x.layout x.maxW x.maxH
def rndBufAddr (x : Rendition) (n : Nat) : Nat := x.base + n * rndBufBytes x

/-- Replace a rendition's binding; its old buffers go once no sink holds them. A rendering under way ends with
the binding. -/
def bindRnd (s : State) (r : Nat) (sensor : Option Nat) (x : Rendition) : State :=
  match sensor with
  | none => retire (updRnd s r unboundRnd) (.rendition r)
  | some sn =>
    let a := realloc (updRnd s r unboundRnd) (.rendition r) (rndBufBytes x * x.depth)
    let s1 := updRnd a.2 r fun y => { y with
      sensor := some sn, dest := x.dest, layout := x.layout, div := x.div, depth := x.depth, maxW := x.maxW, maxH := x.maxH
      base := a.1, bufs := List.replicate x.depth {} }
    resetRnd s1 sn r

/-! ## Choice (R241, R244, R245) -/

def newestOf (l : List SlBuf) : Option SlBuf :=
  l.foldl (fun best b => match best with
    | none => some b
    | some a => if a.seq < b.seq then some b else some a) none

/-- Frames passed over in favour of a newer one, each counted with its event. -/
def passOver (s : State) (r sn : Nat) (l : List SlBuf) : State :=
  (l.mergeSort fun a b => a.seq ≤ b.seq).foldl (fun s b => skipMarker (rndSkip s r b.seq sn 0 b.gen true) r b.seq) s

/-- A frame the rendition will not render, for a reason. -/
def refuse (s : State) (r sn : Nat) (b : SlBuf) (reason : Nat) (post : Bool) : State :=
  skipMarker (rndSkip s r b.seq sn reason b.gen post) r b.seq

/-- The crop lies inside the scene-linear frame. -/
def cropFits (c : SensConfig) (scale : Nat) (p : Placement) : Bool :=
  p.cropX + p.cropW ≤ c.width / 2 ^ scale && p.cropY + p.cropH ≤ c.height / 2 ^ scale

/-- The stream that codes a rendition learns where its frame will lie. -/
def proxyPlaced (s : State) (r : Nat) (x : Rendition) (b : SlBuf) (p : Placement) (n : Nat) : State :=
  match streamOfRnd s r with
  | none => s
  | some t => updFrame s t b.seq fun f => { f with
      width := p.outW, height := p.outH, addr := rndBufAddr x n + 0x100, stride := layoutStride x.layout p.outW
      buf := n }

/-- A free rendition engine takes a frame, or refuses it. -/
def takeFrame (s : State) (r sn : Nat) (b : SlBuf) (l : SlCfg) (c : SensConfig) (p : Placement) : State :=
  let x := rndOf s r
  let format := (b.params.colour.getD r {}).format
  let free (n : Nat) : Bool := !(sinkAddrs s).contains (rndBufAddr x n)
  if !cropFits c l.scale p then
    updRnd (refuse s r sn b 3 (x.cropGen != some b.gen)) r fun y => { y with cropGen := some b.gen }
  else if !layoutAccepts x.layout format then
    updRnd (refuse s r sn b 2 (x.formatGen != some b.gen)) r fun y => { y with formatGen := some b.gen }
  else match leastFilled (x.bufs.map (·.fill)) free with
    | none => updRnd (refuse s r sn b 1 (!x.fullPosted)) r fun y => { y with fullPosted := true }
    | some n =>
      let k := s.img.fills + 1
      let a := rndBufAddr x n
      let s1 := beginBuffer { s with img.fills := k } a (a + 0x100 + p.outH * layoutStride x.layout p.outW) b.seq
        rndReserved
      let s2 := updRnd s1 r fun y => { y with
        credit := rndCredit s y, creditAt := now s
        bufs := y.bufs.set n { fill := k, seq := b.seq, state := 0, gen := b.gen, width := p.outW, height := p.outH
                               fs := b.fs, format := format }
        taken := some { sensor := sn, slBuf := (((sensorOf s sn).slBufs.findIdx? fun q => q.seq == b.seq).getD 0)
                        src := b, sl := l, cfg := c, buf := n } }
      proxyPlaced s2 r x b p n

/-- RENDITION_TAKE's effect. -/
def renditionTake (s : State) (r : Nat) : State :=
  match (rndOf s r).sensor, newestOf (eligible s r) with
  | some sn, some b =>
    if (rndOf s r).taken.isSome then s
    else match (sensorOf s sn).slEff, (sensorOf s sn).cfg, b.params.place.getD r none with
      | some l, some c, some p =>
        let s1 := passOver s r sn ((eligible s r).filter fun q => q.seq < b.seq)
        updRnd (takeFrame s1 r sn b l c p) r fun x => { x with lastSeen := some b.seq }
      | _, _, _ => s
  | _, _ => s

/-! ## Resizing (R241, R242) -/

/-- Source position of an output column or row, in 1/64 pixel. -/
def srcPos (X crop out : Nat) : Int := (((2 * X + 1) * crop : Nat) - (out : Int)) * 64 / (2 * out : Nat)

/-- A coefficient of the default kernel before a tap absorbs the remainder of its phase. -/
def lanczos (ph j : Nat) : Int :=
  let n : Int := 64 * ((j : Int) - 3) - ph
  if n = 0 then 16384
  else
    let num := fxSin (fxPi * n / 64) * fxSin (fxPi * n / 256) * 268435456
    roundEvenInt num ((fxPi * fxPi * n * n).toNat)

/-- The eight coefficients of a phase of the default kernel. -/
def defaultPhase (ph : Nat) : List Int :=
  if ph = 0 then [0, 0, 0, 16384, 0, 0, 0, 0]
  else
    let l := (List.range 8).map (lanczos ph)
    modAt l (if ph < 32 then 3 else 4) (· + (16384 - l.sum))

/-- A phase of a kernel. -/
def kernelPhase (k : Option Copy) (ph : Nat) : List Int :=
  match k with
  | none => defaultPhase ph
  | some t => (List.range 8).map fun j => signed 16 (t.vals.getD (8 * ph + j) 0)

/-- A pixel of the scene-linear frame: its three values and flags; one in a poisoned burst reads 0 (R594). -/
def slRead (s : State) (t : Taken) (x y : Nat) : List Nat × Nat :=
  let a := slBufAddr t.cfg t.sl t.slBuf + 0x100 + y * slStride t.cfg t.sl.scale + 8 * x
  if !s.mem.poison.isEmpty && s.mem.poison.contains (burstOf a) then ([0, 0, 0], 16)
  else ([memLE s.dram a 2, memLE s.dram (a + 2) 2, memLE s.dram (a + 4) 2], memLE s.dram (a + 6) 2)

/-- The taps of an output column or row: frame position and coefficient. -/
def tapsOf (k : Option Copy) (X crop0 crop out size : Nat) : List (Nat × Int) :=
  let pos := srcPos X crop out
  (kernelPhase k (pos % 64).toNat).mapIdx fun j c => (mirror size ((crop0 : Int) + pos / 64 - 3 + (j : Nat)), c)

/-- A resized pixel: binary16 values with their clamps, and flags: those of the source pixels in a row or a column of a
non-zero coefficient. -/
def resizePixel (s : State) (t : Taken) (p : Placement) (X Y : Nat) : List Nat × Nat × Nat :=
  let w := t.cfg.width / 2 ^ t.sl.scale
  let h := t.cfg.height / 2 ^ t.sl.scale
  let xs := tapsOf p.kernel X p.cropX p.cropW p.outW w
  let ys := tapsOf p.kernel Y p.cropY p.cropH p.outH h
  let coef (c : Int) : Nat := F24.round (c * 2 ^ 64) 1
  let rows := ys.map fun y => (y.2, xs.map fun x => (x.2, slRead s t x.1 y.1))
  let chan (ch : Nat) : Nat × Bool :=
    toHalf (F24.sum (rows.map fun (r : Int × List (Int × List Nat × Nat)) =>
      F24.mul (coef r.1) (F24.sum (r.2.map fun c => F24.mul (coef c.1) (halfToF24 (c.2.1.getD ch 0))))))
  let v := (List.range 3).map chan
  let clamps := (v.filter (·.2)).length
  let flags := rows.foldl (fun a r => r.2.foldl (fun a c => if r.1 = 0 && c.1 = 0 then a else a ||| c.2.2) a) 0
  (v.map (·.1), flags ||| 128 * boolNat (clamps != 0), clamps)

/-- A rendered pixel: its codes, what it counts, its flags and clamps. -/
def rndPixel (s : State) (r : Nat) (t : Taken) (p : Placement) (X Y : Nat) : List Nat × ColCounters × Nat × Nat :=
  let z := resizePixel s t p X Y
  let c := colourPixel (t.src.params.colour.getD r {}) (fun _ => false) (z.1.map halfToF24) (z.2.1.testBit 0) X Y
    p.outW p.outH
  (bankedCodes t.src.banks r t.src.seq X Y c.1, c.2, z.2.1, z.2.2)

/-- Poisoned bursts of the part of the scene-linear frame that a placement's taps reach. -/
def rndPoison (s : State) (t : Taken) (p : Placement) : List Nat :=
  let w := t.cfg.width / 2 ^ t.sl.scale
  let h := t.cfg.height / 2 ^ t.sl.scale
  let x0 := p.cropX - 4
  let x1 := min w (p.cropX + p.cropW + 4)
  ((List.range (min h (p.cropY + p.cropH + 4) - (p.cropY - 4))).flatMap fun i =>
    poisonIn s (slBufAddr t.cfg t.sl t.slBuf + 0x100 + (p.cropY - 4 + i) * slStride t.cfg t.sl.scale + 8 * x0)
      (8 * (x1 - x0))).eraseDups

/-- PIPE clocks of an output line of a placement: the rendering's bound of R245, shared among its lines (DESIGN CHOICE,
log 46). -/
def lineClocks (p : Placement) : Nat := ceilDiv (max (p.outW * p.outH) (ceilDiv (p.cropW * p.cropH) 2)) (max 1 p.outH)

/-- The engine's credit allowed its last line to start (R38, R533). -/
def linesStarted (s : State) (r : Nat) (p : Placement) : Bool :=
  0 < rndCredit s (rndOf s r) - 16 * ((p.outH - 1) * lineClocks p)

/-- The last output line of a rendering is written (R245). -/
def renderDone (s : State) (r : Nat) (t : Taken) (p : Placement) : State :=
  let x := rndOf s r
  let a := rndBufAddr x t.buf
  let stride := layoutStride x.layout p.outW
  let px := rndPixel s r t p
  let dram := (List.range p.outH).foldl (fun d Y => memPutBytes d (a + 0x100 + Y * stride)
    ((List.range (layoutGroups x.layout p.outW)).flatMap fun i =>
      layoutGroup x.layout p.outW (fun X => (px X Y).1) i)) s.dram
  let sums := (List.range p.outH).foldl (fun acc Y => (List.range p.outW).foldl
    (fun (acc : ColCounters × Nat × Nat) X =>
      let q := (px X Y).2
      (acc.1.plus q.1, acc.2.1 ||| q.2.1, acc.2.2 + q.2.2)) acc) (({} : ColCounters), 0, 0)
  let clamps := min sums.2.2 0xFFFFFFFF
  let col := t.src.params.colour.getD r {}
  let bad := rndPoison s t p
  let s1 := endBuffer { s with dram := dram } a (a + 0x100 + p.outH * stride) t.src.seq
    (rndHeader t.src.seq x.layout t.src.gen p.outW p.outH (time64 t.src.fs) t.src.num col t.sensor sums.2.1 clamps)
  let s2 := updRnd s1 r fun y => { y with
    bufs := modAt y.bufs t.buf fun b => { b with state := 1 }
    credit := min (16 * 122880) (rndCredit s y - 16 * (p.outH * lineClocks p)), creditAt := now s
    taken := none, framesDone := sat32 y.framesDone 1, clamps := sat32 y.clamps clamps, fullPosted := false
    colCnt := y.colCnt.plus sums.1 }
  let s3 := notify s2 0x0701 r (leBytes 4 t.src.seq ++ leBytes 1 t.sensor ++ leBytes 1 t.buf ++ leBytes 2 t.src.gen ++
    leBytes 2 sums.2.1 ++ [0, 0] ++ leBytes 4 clamps) r
  sweep (bad.foldl poisonHandled s3)

/-- RENDITION_FRAME_DONE's effect: a rendering whose lines its allowance holds back goes on. -/
def renditionFrameDone (s : State) (r : Nat) : State :=
  match (rndOf s r).taken with
  | none => s
  | some t => match t.src.params.place.getD r none with
    | none => s
    | some p => if linesStarted s r p then renderDone s r t p else s

end Sys2Proof.Machine
end

