-- ==== Sys2Proof/Machine/Rnd.lean ====
section
/-! DEFINITION. The rendition and raw-tap commands, and the events of rendition engines (chapter 10). -/

namespace Sys2Proof.Machine

/-! ## RND0_OUTPUT (R238, R239) -/

/-- RND0 write rate of a sensor in bytes per second. -/
def rnd0Rate (x : Sensor) : Nat × Nat :=
  match x.cfg, x.rnd0Cmd with
  | some c, some r => fracMul (devRate c) (layoutBytes2 r.layout) 2
  | _, _ => (0, 1)

def rnd0Limit (f : Fuse) : Nat := devLimit f * 5 / 2

def rnd0RateCheck (s : State) (sn layout : Nat) : Option Rej :=
  (sensorOf s sn).cfg.bind fun c =>
    let others := fracSum (((List.range 4).filter (· != sn)).map fun k => rnd0Rate (sensorOf s k))
    rejIf (!fracLe (fracAdd (fracMul (devRate c) (layoutBytes2 layout) 2) others) (rnd0Limit s.fuse, 1)) 0x0701 2
      (fracLeft (rnd0Limit s.fuse) others)

def rnd0Asked (b : Body) : Option Rnd0Cfg :=
  if fld b 1 1 = 0 then none else some { layout := fld b 2 1, depth := fld b 3 1, base := 0 }
def rnd0AskedBytes (b : Body) (s : State) : Nat :=
  match rnd0Asked b, (sensorOf s (fld b 0 1)).cfg with
  | some l, some c => layoutBufBytes l.layout c.width c.height * l.depth
  | _, _ => 0
def setRnd0 (s : State) (sn : Nat) (l : Option Rnd0Cfg) : State := updSensor s sn fun x => { x with rnd0Cmd := l }

/-- The answer of a command that gives out buffers. -/
def bufferResponse (base stride bytes : Nat) : Answer := .now (leBytes 8 base ++ leBytes 4 stride ++ leBytes 4 bytes)

def rnd0OutputCard : Card where
  opcode := 0x0701
  len := fixedLen 4
  fields b s :=
    let sn := fld b 0 1
    let on := fld b 1 1 = 1
    [sensorField b 0, inRange b 1 1 0 1, inMode on (inRange b 2 1 0 2),
     inMode (on && fld b 3 1 != 0) (inRange b 3 1 2 8), eComb (!on && fld b 3 1 != 0) 3, inMode (!on) (mustBe0 b 2 1),
     inMode on (rnd0RateCheck s sn (fld b 2 1)), eComb (on && fld b 3 1 == 0) 3,
     claimCheck s (setRnd0 s sn none) (setRnd0 s sn (rnd0Asked b)) 2]
  seq b s := [eSeq (!configured s (fld b 0 1))]
  state b s := [eState (streaming s (fld b 0 1))]
  res b s := [canReplace s (.rnd0 (fld b 0 1)) (rnd0AskedBytes b s)]
  effect _ b s :=
    let sn := fld b 0 1
    let r := realloc s (.rnd0 sn) (rnd0AskedBytes b s)
    match rnd0Asked b, (sensorOf s sn).cfg with
    | some l, some c =>
      (setRnd0 r.2 sn (some { l with base := r.1 }),
        bufferResponse r.1 (layoutStride l.layout c.width) (layoutBufBytes l.layout c.width c.height))
    | _, _ => (setRnd0 r.2 sn none, .now (zeros 16))

def execRnd0Output (n : Fin 40) (s : State) : Host.Outcome State Fault Refusal :=
  .next (mbxRun rnd0OutputCard n.val s)

/-! ## RND_BIND (R240) -/

def destLayouts (dest : Nat) : List Nat := if dest = 1 then [0, 1, 2] else if dest = 5 then [0] else [0, 1]

def bindAsked (b : Body) : Rendition :=
  { dest := fld b 2 1, layout := fld b 3 1, div := fld b 4 1, depth := fld b 5 1, maxW := fld b 8 2, maxH := fld b 0x0A 2 }

def rndBindCard : Card where
  opcode := 0x0702
  len := fixedLen 0x0C
  fields b s :=
    let on := fld b 1 1 != 0xFF
    [inRange b 0 1 1 5, eVariant (renditionCount s.fuse ≤ fld b 0 1) 0, eRange (3 < fld b 1 1 && on) 1,
     inMode on (inRange b 2 1 1 5), inMode on (inRange b 3 1 0 2), inMode on (inRange b 4 1 1 16),
     inMode on (inRange b 5 1 2 8), resv b 6 2, inMode on (inRange b 8 2 64 8192), inMode on (inRange b 0x0A 2 32 8192)] ++
    (if on then
      [eComb (!(destLayouts (fld b 2 1)).contains (fld b 3 1)) 3, eComb (fld b 3 1 < 2 && fld b 8 2 % 2 == 1) 8]
     else zeroFields b [(2, 1), (3, 1), (4, 1), (5, 1), (8, 2), (0x0A, 2)])
  seq b s :=
    if fld b 1 1 = 0xFF then [eSeq (rndOf s (fld b 0 1)).sensor.isNone] else [eSeq (!configured s (fld b 1 1))]
  state b s :=
    let r := fld b 0 1
    let present := (rndOf s r).sensor.any fun sn => streaming s sn
    if fld b 1 1 = 0xFF then [eState present, eState (rndAttached s r)]
    else [eState (streaming s (fld b 1 1)), eState present]
  res b s :=
    [if fld b 1 1 = 0xFF then none
     else canReplace s (.rendition (fld b 0 1)) (rndBufBytes (bindAsked b) * fld b 5 1)]
  effect _ b s :=
    let r := fld b 0 1
    if fld b 1 1 = 0xFF then (bindRnd s r none {}, .now (zeros 16))
    else
      let s1 := bindRnd s r (some (fld b 1 1)) (bindAsked b)
      let x := rndOf s1 r
      (s1, bufferResponse x.base (layoutStride x.layout x.maxW) (rndBufBytes x))

def execRndBind (n : Fin 40) (s : State) : Host.Outcome State Fault Refusal :=
  .next (mbxRun rndBindCard n.val s)

/-! ## RND_GEOMETRY (R241 to R243) -/

def placeAsked (b : Body) (kernel : Option Copy) : Placement where
  cropX := fld b 4 2
  cropY := fld b 6 2
  cropW := fld b 8 2
  cropH := fld b 0x0A 2
  outW := fld b 0x0C 2
  outH := fld b 0x0E 2
  kernel := kernel

def setPlace (s : State) (r : Nat) (p : Option Placement) : State :=
  match (rndOf s r).sensor with
  | some sn => updShadow s sn fun q => { q with place := q.place.set r p }
  | none => s

def kernelWords (b : Body) (s : State) : List Nat := tableWords s (fld b 0x10 8) 512 2

/-- A phase whose coefficients do not add up to 16,384. -/
def badKernel (b : Body) (s : State) : Option Rej :=
  let k := kernelWords b s
  ((List.range 64).find? fun ph => ((List.range 8).map fun j => signed 16 (k.getD (8 * ph + j) 0)).sum != 16384).bind
    fun ph => rejIf true 0x0103 0x10 ph

/-- Sizes of a placement on one axis. -/
def axisBad (x : Rendition) (out max crop : Nat) (even : Bool) : Bool :=
  max < out || (even && x.layout < 2 && out % 2 == 1) || 2 * out < crop || 8 * crop < out

/-- The crop lies inside the scene-linear frame, while that is enabled. -/
def cropBad (b : Body) (s : State) (sn : Nat) : Bool :=
  match (sensorOf s sn).cfg, (sensorOf s sn).slCmd with
  | some c, some l => !cropFits c l.scale (placeAsked b none)
  | _, _ => false

/-- The limits of R243, with the smallest rate that remains under them. -/
def placeRates (b : Body) (s : State) (r sn : Nat) : Option Rej :=
  (sensorOf s sn).cfg.bind fun c =>
    let div := c.fpsDen * max 1 (rndOf s r).div
    let after := setPlace s r (some (placeAsked b none))
    let own := readClaim after r
    let out := (fld b 0x0C 2 * fld b 0x0E 2 * c.fpsNum, div)
    let others := fracSum (((List.range 6).filter fun k => k != 0 && k != r).map (readClaim s))
    let all := if s.fuse.pkgM then 1228800000 else 2457600000
    if !fracLe out (1228800000, 1) then rejIf true 0x0701 0x0C (fracLeft 1228800000 (0, 1))
    else if !fracLe own (2457600000, 1) || !fracLe (fracAdd own others) (all, 1) then
      rejIf true 0x0701 0x0C (min (fracLeft 2457600000 (0, 1)) (fracLeft all others))
    else none

/-- RND_GEOMETRY (R243). DESIGN CHOICE (log entry 214): an odd `out_h` is accepted for layouts 0 and 1, as R234 and the field
ask nothing even of rows. -/
def rndGeometryCard : Card where
  opcode := 0x0703
  len := fixedLen 0x18
  fields b s :=
    let r := fld b 0 1
    let x := rndOf s r
    let bound := x.sensor.isSome
    let host := fld b 0x10 8 != 0
    [inRange b 0 1 1 5, eVariant (renditionCount s.fuse ≤ r) 0, resv b 1 3, inRange b 4 2 0 16383, inRange b 6 2 0 8191,
     inRange b 8 2 8 16384, inRange b 0x0A 2 8 8192, inRange b 0x0C 2 64 65535, inRange b 0x0E 2 32 65535,
     inMode host (addrField b 0x10 1024 s), inMode host (badKernel b s),
     inMode bound (eComb (x.sensor.any (cropBad b s)) 8),
     inMode bound (eComb (axisBad x (fld b 0x0C 2) x.maxW (fld b 8 2) true) 0x0C),
     x.sensor.bind (placeRates b s r),
     inMode bound (eComb (axisBad x (fld b 0x0E 2) x.maxH (fld b 0x0A 2) false) 0x0E),
     inMode bound (claimCheck s (setPlace s r none) (setPlace s r (some (placeAsked b none))) 0x0C)]
  seq b s := [eSeq (!((rndOf s (fld b 0 1)).sensor.any fun sn => configured s sn))]
  res b s := [if fld b 0x10 8 = 0 then none else copyFits s 1024]
  effect _ b s :=
    let k := if fld b 0x10 8 = 0 then (none, s)
      else
        let c := makeCopy s 1024 (kernelWords b s)
        (some c.1, c.2)
    (sweep (setPlace k.2 (fld b 0 1) (some (placeAsked b k.1))), .now [])

def execRndGeometry (n : Fin 40) (s : State) : Host.Outcome State Fault Refusal :=
  .next (mbxRun rndGeometryCard n.val s)

/-! ## RND_STATUS -/

/-- The block of a rendition. -/
def rndBlock (s : State) (r : Nat) : List Byte :=
  let x := rndOf s r
  if r = 0 then
    leBytes 4 s.img.rnd0Done ++ zeros 24 ++ [0xFF, 0, 0, 0]
  else if renditionCount s.fuse ≤ r then zeros 32
  else
    let claim := readClaim s r
    leBytes 4 x.framesDone ++ leBytes 4 x.lateSkips ++ leBytes 4 x.sinkFull ++ leBytes 4 x.formatSkips ++
      leBytes 4 x.geomSkips ++ leBytes 4 x.clamps ++ leBytes 4 (claim.1 / (1000000 * claim.2)) ++
      leBytes 1 (x.sensor.getD 0xFF) ++ leBytes 1 x.dest ++ zeros 2

def clearRnd (x : Rendition) : Rendition :=
  { x with framesDone := 0, lateSkips := 0, sinkFull := 0, formatSkips := 0, geomSkips := 0, clamps := 0 }

def rndStatusCard : Card where
  opcode := 0x0704
  len := fixedLen 4
  fields b _ := [inRange b 0 1 0 1, resv b 1 3]
  effect _ b s :=
    let s1 := if fld b 0 1 = 0 then s
      else { s with
        img.rnds := s.img.rnds.map clearRnd
        img.rnd0Done := 0 }
    (s1, .now ((List.range 6).flatMap (rndBlock s)))

def execRndStatus (n : Fin 40) (s : State) : Host.Outcome State Fault Refusal :=
  .next (mbxRun rndStatusCard n.val s)

/-! ## TAP_CONFIG (R246 to R248) -/

def tapOf (x : Sensor) (point : Nat) : Option Tap := x.tapCmd.getD (point - 1) none

/-- Sample rates of every enabled tap but one (R248). -/
def otherTaps (s : State) (sn point : Nat) : Nat × Nat :=
  fracSum ((List.range 4).flatMap fun k => (List.range 4).filterMap fun i =>
    if k = sn && i + 1 = point then none
    else match (sensorOf s k).cfg, tapOf (sensorOf s k) (i + 1) with
      | some c, some _ => some (fracMul (devRate c) (tapPlanes c (i + 1)) 1)
      | _, _ => none)

def tapRateCheck (s : State) (sn point : Nat) : Option Rej :=
  (sensorOf s sn).cfg.bind fun c =>
    let others := otherTaps s sn point
    rejIf (!fracLe (fracAdd (fracMul (devRate c) (tapPlanes c point) 1) others) (devLimit s.fuse, 1)) 0x0702 1
      (fracLeft (devLimit s.fuse) others)

def tapAsked (b : Body) : Option Tap :=
  if fld b 2 1 = 0 then none else some { format := fld b 3 1, gain := fld b 4 4, offset := fld b 8 2, base := 0 }
def setTap (s : State) (sn point : Nat) (t : Option Tap) : State :=
  updSensor s sn fun x => { x with tapCmd := x.tapCmd.set (point - 1) t }
def tapAskedBytes (b : Body) (s : State) : Nat :=
  match tapAsked b, (sensorOf s (fld b 0 1)).cfg with
  | some _, some c => tapBytes c (fld b 1 1) * c.depth
  | _, _ => 0

def tapConfigCard : Card where
  opcode := 0x0710
  len := fixedLen 0x0C
  fields b s :=
    let sn := fld b 0 1
    let point := fld b 1 1
    let on := fld b 2 1 = 1
    let coded := on && fld b 3 1 == 0
    [sensorField b 0, inRange b 1 1 1 4, inRange b 2 1 0 1, inMode on (inRange b 3 1 0 1),
     if coded then f24Field b 4 (F24.pow2 (-8)) (F24.pow2 24) else f24Word b 4, resv b 0x0A 2, inMode on (tapRateCheck s sn point),
     inMode (!on) (mustBe0 b 3 1), eComb (!coded && !f24Zero b 4) 4, inMode (!coded) (mustBe0 b 8 2),
     claimCheck s (setTap s sn point none) (setTap s sn point (tapAsked b)) 1]
  seq b s := [eSeq (!configured s (fld b 0 1))]
  state b s := [eState (streaming s (fld b 0 1))]
  res b s := [canReplace s (.tap (fld b 0 1) (fld b 1 1)) (tapAskedBytes b s)]
  effect _ b s :=
    let sn := fld b 0 1
    let p := fld b 1 1
    let r := realloc s (.tap sn p) (tapAskedBytes b s)
    match tapAsked b, (sensorOf s sn).cfg with
    | some t, some c => (setTap r.2 sn p (some { t with base := r.1 }), bufferResponse r.1 (tapStride c) (tapBytes c p))
    | _, _ => (setTap r.2 sn p none, .now (zeros 16))

def execTapConfig (n : Fin 40) (s : State) : Host.Outcome State Fault Refusal :=
  .next (mbxRun tapConfigCard n.val s)

/-! ## Events of the rendition engines -/

/-- RENDITION_TAKE (R244). -/
def execRenditionTake (r : Fin 6) (s : State) : Host.Outcome State Fault Refusal :=
  .next (if r.val = 0 then s else renditionTake s r.val)

/-- RENDITION_FRAME_DONE (R245). -/
def execRenditionFrameDone (r : Fin 6) (s : State) : Host.Outcome State Fault Refusal :=
  .next (renditionFrameDone s r.val)

end Sys2Proof.Machine
end

