-- ==== Sys2Proof/Machine/Outputs.lean ====
section
/-! DEFINITION. SDI outputs, ST 2110 senders and the ETH ports (chapter 17). -/

namespace Sys2Proof.Machine

def outOf (s : State) (i : Nat) : Output := s.out.outs.getD i {}
def updOut (s : State) (i : Nat) (f : Output → Output) : State := { s with out.outs := modAt s.out.outs i f }

/-- `EV_OUT_STATE` (R434, R435). -/
def outEvent (s : State) (i cause : Nat) : State :=
  let x := outOf s i
  notify s 0x0D01 i (leBytes 1 x.st ++ leBytes 1 cause ++ leBytes 2 x.lastGen ++ leBytes 4 x.lastSeq ++
    leBytes 4 x.repeats ++ leBytes 4 x.skips) i

/-- An output takes a state, with its event where that changes it. -/
def outState (s : State) (i st cause : Nat) : State :=
  if (outOf s i).st = st then s else outEvent (updOut s i fun x => { x with st := st }) i cause

/-! ## Formats and rates (R425, R428, R429, R431) -/

def ratesLow : List (Nat × Nat) := [(24000, 1001), (24, 1), (25, 1), (30000, 1001), (30, 1)]
def ratesHigh : List (Nat × Nat) := [(48000, 1001), (48, 1), (50, 1), (60000, 1001), (60, 1)]
def rates2110 : List (Nat × Nat) := ratesLow ++ ratesHigh ++ [(100, 1), (120000, 1001), (120, 1)]

def isHd (w h : Nat) : Bool := h == 1080 && (w == 1920 || w == 2048)
def isUhd (w h : Nat) : Bool := h == 2160 && (w == 3840 || w == 4096)

/-- A row of R425. -/
def sdiFormat (std w h num den psf layout : Nat) : Bool :=
  let low := ratesLow.contains (num, den)
  let high := ratesHigh.contains (num, den)
  match std with
  | 0 => layout == 0 && ((isHd w h && low) ||
      (w == 1280 && h == 720 && psf == 0 && [(50, 1), (60000, 1001), (60, 1)].contains (num, den)))
  | 1 => psf == 0 && isHd w h && ((layout == 0 && high) || (layout == 1 && low))
  | 2 => psf == 0 && layout == 0 && isUhd w h && low
  | _ => psf == 0 && isUhd w h && ((layout == 0 && high) || (layout == 1 && low))

/-- Bytes and packets of a video line (R429). -/
def lineBytes (layout w : Nat) : Nat := w / 2 * (if layout = 0 then 5 else 9)
def linePackets (layout w : Nat) : Nat := ceilDiv (lineBytes layout w) 1200

/-- Payload bytes of each packet of a line: whole pgroups, spread evenly, the earlier packets taking any extra one. -/
def packetBytes (layout w : Nat) : List Nat :=
  let n := linePackets layout w
  (List.range n).map fun k => (w / 2 / n + (if k < w / 2 % n then 1 else 0)) * (if layout = 0 then 5 else 9)

def bitsSet (v : Nat) : Nat := ((List.range 32).filter v.testBit).length

/-- Packets in 1,001 seconds and their payload bytes, of a sender's settings; the layout is its rendition's, the rate
of an ANC sender its video sender's. -/
def senderLoad (s : State) (x : Output) : Nat × Nat :=
  let perFrames (y : Output) : Nat := y.fpsNum * 1001 / y.fpsDen
  match x.kind with
  | 1 =>
    let layout := (rndOf s x.src).layout
    (perFrames x * (x.height * linePackets layout x.width), perFrames x * (x.height * lineBytes layout x.width))
  | 2 =>
    let n := if x.timing = 0 then 1000 else 8000
    (n * 1001, 48000 * 1001 * 3 * bitsSet x.audioMask)
  | _ =>
    let f := perFrames (outOf s (4 + x.src))
    (f, f * Config.ancPayload)

/-- Bits in 1,001 seconds that a sender puts on a port (R431). -/
def senderBits (s : State) (x : Output) (e : Nat) : Nat :=
  let load := senderLoad s x
  (load.2 + load.1 * (if (ethOf s e).vlan % 4096 = 0 then 86 else 90)) * 8

/-- Bits in 1,001 seconds of the enabled senders on a port but one, and what the port takes. -/
def portBitsBut (s : State) (e : Nat) (but : Option Nat) : Nat :=
  ((List.range 8).map fun k =>
    let x := outOf s (4 + k)
    if x.enabled && x.paths.testBit e && but != some k then senderBits s x e else 0).sum
def portBits (s : State) (e : Nat) : Nat := portBitsBut s e none
def portLimit (s : State) (e : Nat) : Nat := (if (laneOf s (ethLane s.fuse e)).rate = 0 then 9600 else 24000) * 1000000 * 1001

/-- Mbit/s that the other senders leave on a port, rounded down. -/
def portLeft (s : State) (e sender : Nat) : Nat := (portLimit s e - portBitsBut s e (some sender)) / (1001 * 1000000)

/-! ## Sending (R416, R429, R430) -/

/-- The timecode of ATC: the reader's, none while it is off (R426, R492). -/
def atcValue (s : State) : Option Nat := if s.time.ltc.rate = 0 then none else some (ltcReader s)

/-- Row, first pixel and bytes of the m-th packet of a video frame: ST 2110-20's sample row data header (R429; the units
of its fields: PRESUMED, log entry 221). -/
def packetRow2110 (layout w m : Nat) : Nat × Nat × Nat :=
  let l := packetBytes layout w
  let k := m % l.length
  (m / l.length, 2 * ((l.take k).sum / (if layout = 0 then 5 else 9)), l.getD k 0)

/-- The m-th packet of a sender's frame, or its audio or ANC packet, as it goes out on a port; `seq` numbers the first. -/
def senderPacket (s : State) (i e seq m : Nat) : OutPacket :=
  let x := outOf s i
  let p := ethOf s e
  let row := if x.kind = 1 then some (packetRow2110 (rndOf s x.src).layout x.width m) else none
  { sender := i - 4, mac := p.mac, vlan := p.vlan, ip := p.ip, dest := (x.dests.drop (16 * e)).take 16, dscp := x.dscp,
    ptype := x.ptype, ssrc := x.ssrc, seq := (seq + m) % 2 ^ 32, rtp := (x.frame.map (·.rtp)).getD 0, row := row
    payload := match row with
      | some r => r.2.2
      | none => if x.kind = 2 then ((x.frame.map (·.audio)).getD []).flatten.length * 3 else Config.ancPayload }

/-- A packet leaves a port. -/
def ethLeaves (s : State) (e : Nat) (x : OutPacket) : State :=
  updEth s e fun p => { p with packets := satAdd 64 p.packets 1, sent := some x }

/-- A packet passes a port's injector (R416): dropped, changed, or held back until as many more as a burst have passed. -/
def ethStep (s : State) (e : Nat) (x : OutPacket) : State :=
  let i := injectorAt s (8 + e)
  let r := if injecting s (8 + e) then injectUnit s (8 + e) else (false, s)
  let s1 := updEth r.2 e fun p => { p with heldBack := p.heldBack.map fun h => (h.1 - 1, h.2) }
  let s2 := match r.1, i.mode with
    | true, 1 => s1
    | true, 2 => ethLeaves s1 e { x with hurt := some (i.offset, i.pattern) }
    | true, 3 => updEth s1 e fun p => { p with heldBack := p.heldBack ++ [(i.burst, x)] }
    | _, _ => ethLeaves s1 e x
  let due := (ethOf s2 e).heldBack.filter (·.1 == 0)
  due.foldl (fun s h => ethLeaves s e h.2) (updEth s2 e fun p => { p with heldBack := p.heldBack.filter (·.1 != 0) })

/-- An ETH port transmits the last k of n packets. -/
def ethSend (e : Nat) (pkt : Nat → OutPacket) (n : Nat) : Nat → State → State
  | 0, s => s
  | k + 1, s =>
    if !injecting s (8 + e) && (ethOf s e).heldBack.isEmpty then
      updEth s e fun p => { p with packets := satAdd 64 p.packets (k + 1), sent := some (pkt (n - 1)) }
    else ethSend e pkt n k (ethStep s e (pkt (n - (k + 1))))

/-- A sender sends packets identically on each of its paths whose link is up, each to its own destination and with its
sequence number. -/
def senderSend (s : State) (i k : Nat) : State :=
  let seq := (outOf s i).seq
  let s1 := updOut s i fun y => { y with seq := (y.seq + k) % 2 ^ 32 }
  ((pathsOf (outOf s i)).filter fun e => (ethOf s e).link).foldl
    (fun t e => ethSend e (senderPacket s i e seq) k k t) s1

/-- An output's lane is locked, or one of a sender's paths is up (R381, R430). -/
def onLine (s : State) (i : Nat) : Bool :=
  if i < 4 then (laneOf s (sdiLane s.fuse i)).st == 3 else (pathsOf (outOf s i)).any fun e => (ethOf s e).link

/-- A frame of a video sender, and the packet of each ANC sender that follows it (R428, R429). -/
def videoFrame (s : State) (i : Nat) : State :=
  let x := outOf s i
  let s1 := senderSend s i (x.height * linePackets (rndOf s x.src).layout x.width)
  (List.range 8).foldl (fun s j =>
    let y := outOf s (4 + j)
    if y.enabled && y.kind == 3 && 4 + y.src == i then
      senderSend (updOut s (4 + j) fun y => { y with frame := some {
        rtp := (x.frame.map (·.rtp)).getD 0, timecode := atcValue s, onLine := onLine s (4 + j) } }) (4 + j) 1
    else s) s1

/-- The channels that an output's mask names. -/
def maskedOf (x : Output) (vals : List Int) : List Int := ((List.range 32).filter x.audioMask.testBit).map fun c => vals.getD c 0

/-- A 48 kHz audio strobe at the SDI outputs and the audio senders (R426, R428): `vals` holds a sample of each device
channel and whether it is muted, which SDI carries as zero; it is the k-th since the epoch. A sender's packet goes out every
48 or every 6 samples, with the RTP timestamp of its first (R424). -/
def audioPackets (s : State) (vals : List (Int × Bool)) (k : Nat) : State :=
  let sdi := vals.map fun v => if v.2 then 0 else v.1
  (List.range 12).foldl (fun s i =>
    let x := outOf s i
    let all := x.embed ++ [maskedOf x (if i < 4 then sdi else vals.map (·.1))]
    let size := if x.timing = 0 then 48 else 6
    if !x.enabled || x.audioMask = 0 || (4 ≤ i && x.kind != 2) then s
    else if i < 4 || all.length < size then updOut s i fun y => { y with embed := all }
    else senderSend (updOut s i fun y => { y with
      embed := [], frame := some { rtp := (k + 2 ^ 32 - (size - 1)) % 2 ^ 32, audio := all, onLine := onLine s i } }) i 1)
    { s with out.recent := (sdi :: s.out.recent).take 2048 }

/-! ## Selection (R422, R423) -/

/-- Complete buffers of a rendition whose frame is old enough for an output frame. -/
def outCandidates (s : State) (x : Output) (ref : Int) : List (Nat × RndBuf) :=
  ((List.range (rndOf s x.src).bufs.length).map fun n => (n, (rndOf s x.src).bufs.getD n {})).filter fun p =>
    p.2.state == 1 && p.2.fs ≤ ref - (x.delayUs : Int) * 2 ^ 48 / 1000000

/-- Buffers that fail only the size condition: each counted once, told once a generation. -/
def sizeMismatches (s : State) (i : Nat) (l : List (Nat × RndBuf)) : State :=
  let x := outOf s i
  let bad := (l.filter fun p => (p.2.width != x.width || p.2.height != x.height) && x.sizeFill < p.2.fill).map (·.2)
  (bad.mergeSort fun a b => a.fill ≤ b.fill).foldl (fun s b =>
    let s1 := updOut s i fun y => { y with sizeSkips := satAdd 16 y.sizeSkips 1, sizeFill := b.fill }
    if (outOf s1 i).sizeGen = some b.gen then s1
    else outEvent (updOut s1 i fun y => { y with sizeGen := some b.gen }) i 2) s

/-- The newest of some buffers. -/
def newestBuf (l : List (Nat × RndBuf)) : Option (Nat × RndBuf) :=
  l.foldl (fun best p => match best with
    | none => some p
    | some q => if q.2.fill < p.2.fill then some p else some q) none

/-- S at 2 µs from now, where the frame is due whose selection point is now (R422). -/
def outDue (s : State) : Int := viewTime s s.time.viewS s.time.c.toNat + 2 * 2 ^ 48 / 1000000

/-- T_o of the frame whose selection point is now, in parts of a second, rounded down (R424, R489, R490): its alignment
point, or the start that its cadence has. -/
def outStart (s : State) (i parts : Nat) : Int :=
  if outAligned s i then alignedPoint s i (outDue s) parts
  else ((((s.time.cadences.getD i {}).start).getD (outDue s)) * parts).fdiv (2 ^ 48)

/-- One selection point of an output (R422, R423). -/
def outSelect (s : State) (i : Nat) : State :=
  let x := outOf s i
  let ref := outStart s i (2 ^ 48)
  let l := outCandidates s x ref
  let s1 := sizeMismatches s i l
  let fit := l.filter fun p => p.2.width == x.width && p.2.height == x.height
  match newestBuf (fit.filter fun p => x.lastFill < p.2.fill) with
  | some (n, b) =>
    let passed := (fit.filter fun p => x.lastFill < p.2.fill && p.2.fill < b.fill).length
    let s2 := updOut s1 i fun y => { y with
      held := some { buf := n, addr := rndBufAddr (rndOf s y.src) n, fill := b.fill, seq := b.seq, gen := b.gen, format := b.format }
      lastFill := b.fill, run := 0, lastSeq := b.seq, lastGen := b.gen, lastFormat := some b.format
      lastTf := some (memLE s.dram (rndBufAddr (rndOf s y.src) n + 0x1D) 1)
      lastYcc := some (memLE s.dram (rndBufAddr (rndOf s y.src) n + 0x1E) 1)
      skips := satAdd 16 y.skips passed }
    outState s2 i 1 (if x.st = 0 then 0 else 3)
  | none =>
    if x.held.isNone then outState s1 i 2 0
    else if x.hold = 255 || x.run < x.hold then
      updOut s1 i fun y => { y with run := y.run + 1, repeats := satAdd 16 y.repeats 1 }
    else outState s1 i 2 1

/-- Black in a layout: Y′CbCr, or R′G′B′ by the format of the last frame sent (R423). -/
def blackOf (layout : Nat) (format : Option Nat) : List Nat :=
  if layout = 0 then [64, 512, 512] else List.replicate 3 (if format = some 2 then 0 else 256)

/-- Audio samples of an output's n-th frame: the exact ratio of 48 kHz to the frame rate, each sum rounded (R426). -/
def embedCount (x : Output) (n : Nat) : Nat :=
  let upTo (k : Nat) : Int := roundDiv ((k * 48000 * x.fpsDen : Nat) : Int) x.fpsNum
  (upTo (n + 1) - upTo n).toNat

/-- The n samples that a frame embeds (R426): the oldest gathered. The first frame since an enable takes the newest that
the channels have delivered; where they have not delivered so many, zeros come before them (DESIGN CHOICE, log entry 191). -/
def embedded (s : State) (x : Output) (n : Nat) : List (List Int) :=
  let l := if x.frames = 0 then ((s.out.recent.take n).map (maskedOf x)).reverse else x.embed.take n
  List.replicate (n - l.length) (maskedOf x []) ++ l

/-- What the frame carries that starts after the selection (R423, R424, R426). With no buffer sent yet, or a `tf` that
R426 does not name, the identifier's transfer or colorimetry is a free value; so is the sample count of an adjusted frame
(log entry 191). -/
def outFrame (s : State) (i : Nat) (adjusted : Bool) : State :=
  let x := outOf s i
  let layout := (rndOf s x.src).layout
  let named := x.lastTf.any fun t => 1 ≤ t && t ≤ 3
  let a := if named then (x.lastTf.getD 1 - 1, s) else draw s
  let c := if layout = 1 then (x.colorimetry, a.2) else if x.lastYcc.isSome then (x.lastYcc.getD 0, a.2) else draw a.2
  let n := if adjusted then ((draw c.2).1 % 2048, (draw c.2).2) else (embedCount x x.frames, c.2)
  let audio := i < 4 && x.audioMask != 0
  updOut n.2 i fun y => { y with
    frames := y.frames + 1
    embed := if audio then (if y.frames = 0 then [] else y.embed.drop n.1) else y.embed
    frame := some {
      rtp := (outStart s i 90000 % 2 ^ 32).toNat
      black := if x.st = 2 || x.held.isNone then some (blackOf layout x.lastFormat) else none
      transfer := a.1, colorimetry := c.1
      timecode := if i < 4 && x.anc.testBit 0 then atcValue s else none
      audio := if audio then embedded s y n.1 else []
      line := if x.kind = 1 then packetBytes layout x.width else []
      onLine := onLine s i } }

/-- The last frame of a disabled output has completed: the held buffer is released, and the lane of an SDI output goes to
electrical idle. -/
def outEnd (s : State) (i : Nat) : State :=
  if !(outOf s i).ending then s
  else
    let s1 := updOut s i fun y => { y with ending := false, held := none, frame := none }
    if i < 4 then setLane s1 (sdiLane s.fuse i) 1 0 else s1

/-- OUTPUT_SELECT (R422 to R424, R426): the selection point of an output's next frame, and where it is disabled the end of
its last. `adjusted` when the frame's embedded audio departs from R426's sequence while
the output holds or slews. -/
def execOutputSelect (i : Fin 12) (adjusted : Bool) (s : State) : Host.Outcome State Fault Refusal :=
  let x := outOf s i.val
  if !x.enabled then .next (outEnd s i.val)
  else if 4 ≤ i.val && x.kind != 1 then .next s
  else
    let off := (s.time.cadences.getD i.val {}).phase != 0
    let departs := adjusted && off && i.val < 4 && x.audioMask != 0
    let s1 := outFrame (outSelect (cadenceBegin s i.val (outDue s)) i.val) i.val departs
    let s2 := if departs then updOut s1 i.val fun y => { y with audioAdjust := satAdd 16 y.audioAdjust 1 } else s1
    .next (if i.val < 4 then s2 else videoFrame s2 i.val)

/-! ## Commands (R425 to R433) -/

/-- The first non-zero byte of fields that a disabled output leaves 0, as a rejection at its field. -/
def allZero (b : Body) (fields : List (Nat × Nat)) : List (Option Rej) := fields.map fun f => mustBe0 b f.1 f.2

/-- A rendition feeds another output. -/
def rndFeedsOther (s : State) (r i : Nat) : Bool :=
  (List.range 12).any fun k => k != i && (outOf s k).enabled && (outOf s k).kind ≤ 1 && (outOf s k).src == r

/-- R427 for an SDI output: one `fps_den` per quad, and in the M package no SENSOR lane 12 or 13 beside it. -/
def sdiQuadOk (s : State) (out den : Nat) : Bool :=
  let q := sdiLane s.fuse out / 4
  ((List.range 4).all fun k => k == out || !(outOf s k).enabled || sdiLane s.fuse k / 4 != q || (outOf s k).fpsDen == den) &&
    !(s.fuse.pkgM && 2 ≤ out && (List.range 4).any fun sn =>
      ((sensorOf s sn).cfg.map groupLanes).any fun l => l.contains 16 || l.contains 17)

/-- An output or sender disabled: its context is freed, and a picture's frame in progress still to complete. -/
def outDisable (s : State) (i : Nat) : State :=
  let x := outOf s i
  let s1 := match x.flow with
    | some f => freeFlow s f
    | none => s
  outState (updCadence (updOut s1 i fun y => { y with
    enabled := false, ending := y.ending || (y.enabled && y.kind ≤ 1), flow := none, run := 0, embed := [] }) i fun _ => {}) i 0 0

/-- OUT_SDI (R421 to R427). -/
def outSdiCard : Card where
  opcode := 0x0D01
  len := fixedLen 0x20
  fields b s :=
    let on := fld b 1 1 == 1
    let r := fld b 2 1
    let x := rndOf s r
    let known := x.sensor.isSome
    [inRange b 0 1 0 3, inRange b 1 1 0 1] ++
    (if on then
      [inRange b 2 1 1 5, eVariant (renditionCount s.fuse ≤ r) 2, inRange b 3 1 0 3, oneOf b 0x0C 2 [1, 1001],
       inRange b 0x0E 1 0 1, inRange b 0x10 4 0 1000000,
       eRange (fld b 0x0C 2 * 1000000000 ≤ (sfld b 0x14 4).natAbs * fld b 8 4) 0x14,
       eRange (2 ≤ fld b 0x1C 1) 0x1C, offMode (known && x.layout != 1) (inRange b 0x1D 1 0 1), resv b 0x1E 2,
       eComb (rndFeedsOther s r (fld b 0 1)) 2,
       rejIf (known && !sdiFormat (fld b 3 1) (fld b 4 2) (fld b 6 2) (fld b 8 4) (fld b 0x0C 2) (fld b 0x0E 1) x.layout)
         0x0D01 3 0,
       eComb (known && (x.maxW < fld b 4 2 || x.maxH < fld b 6 2)) 4, eComb (!sdiQuadOk s (fld b 0 1) (fld b 0x0C 2)) 0x0C,
       eComb (16 < bitsSet (fld b 0x18 4)) 0x18, eComb (known && fld b 0x1D 1 != 0 && x.layout != 1) 0x1D]
     else
      resv b 0x1E 2 :: allZero b [(2, 1), (3, 1), (4, 2), (6, 2), (8, 4), (0x0C, 2), (0x0E, 1), (0x0F, 1), (0x10, 4), (0x14, 4),
        (0x18, 4), (0x1C, 1), (0x1D, 1)])
  seq b s :=
    let on := fld b 1 1 == 1
    [eSeqAt ((laneOf s (sdiLane s.fuse (fld b 0 1))).pers != 7) 0,
     eSeqAt (on && !((rndOf s (fld b 2 1)).sensor.isSome && (rndOf s (fld b 2 1)).dest == 2)) 2]
  state b s := [eStateAt (fld b 1 1 == 1 && (outOf s (fld b 0 1)).enabled) 1]
  effect _ b s :=
    let i := fld b 0 1
    if fld b 1 1 = 0 then (outDisable s i, .now [])
    else
      let s1 := updOut s i fun x => { x with
        enabled := true, ending := false, kind := 0, src := fld b 2 1, std := fld b 3 1, width := fld b 4 2, height := fld b 6 2
        fpsNum := fld b 8 4, fpsDen := fld b 0x0C 2, psf := fld b 0x0E 1, hold := fld b 0x0F 1, delayUs := fld b 0x10 4
        phaseNs := sfld b 0x14 4, audioMask := fld b 0x18 4, anc := fld b 0x1C 1, colorimetry := fld b 0x1D 1
        held := none, run := 0, lastFill := 0, sizeFill := 0, sizeGen := none, lastFormat := none
        lastTf := none, lastYcc := none, embed := [], frames := 0, frame := none }
      (setLane s1 (sdiLane s.fuse i) 2 0, .now [])

def execOutSdi (n : Fin 40) (s : State) : Host.Outcome State Fault Refusal := .next (mbxRun outSdiCard n.val s)

/-- A sender's settings as a command gives them. -/
def senderOf (b : Body) : Output := {
  enabled := true, kind := fld b 2 1, src := fld b 3 1, paths := fld b 4 1, ptype := fld b 5 1, dscp := fld b 6 1
  timing := fld b 7 1, width := fld b 8 2, height := fld b 0x0A 2, fpsNum := fld b 0x0C 4, fpsDen := max 1 (fld b 0x10 2)
  hold := fld b 0x12 1, delayUs := fld b 0x14 4, phaseNs := sfld b 0x18 4, audioMask := fld b 0x1C 4, ssrc := fld b 0x20 4
  dests := (b.drop 0x24).take 32 }

/-- The path blocks: reserved bytes at step 6, bytes of a path not named at step 7. -/
def pathRanges (b : Body) (e : Nat) : Option Rej := resv b (0x24 + 0x10 * e + 6) 2
def pathZero (b : Body) (e : Nat) : List (Option Rej) :=
  if (fld b 4 1).testBit e then [] else
    let o := 0x24 + 0x10 * e
    allZero b [(o, 6), (o + 8, 4), (o + 12, 2), (o + 14, 2)]

/-- The load on the named ports fits beside the other senders' (R431). -/
def senderFits (s : State) (x : Output) (sender : Nat) : Bool :=
  (pathsOf x).all fun e => portBitsBut s e (some sender) + senderBits s x e ≤ portLimit s e

/-- OUT_2110 (R428 to R432). -/
def out2110Card : Card where
  opcode := 0x0D02
  len := fixedLen 0x44
  fields b s :=
    let on := fld b 1 1 == 1
    let kind := fld b 2 1
    let video := kind == 1
    let x := senderOf b
    let r := rndOf s x.src
    let known := !video || r.sensor.isSome
    let videoOnly (o l : Nat) : Option Rej := offMode video (mustBe0 b o l)
    [inRange b 0 1 0 7, inRange b 1 1 0 1] ++
    (if on then
      [inRange b 2 1 1 3, inMode video (inRange b 3 1 1 5), inMode video (eVariant (renditionCount s.fuse ≤ x.src) 3),
       inMode (kind == 3) (inRange b 3 1 0 7), inRange b 4 1 1 3, inRange b 5 1 96 127, inRange b 6 1 0 63,
       inMode (kind != 3) (inRange b 7 1 0 1), inMode video (oneOf b 0x10 2 [1, 1001]), resv b 0x13 1,
       inMode video (inRange b 0x14 4 0 1000000),
       inMode video (eRange (fld b 0x10 2 * 1000000000 ≤ x.phaseNs.natAbs * x.fpsNum) 0x18),
       inMode (kind == 2) (eRange (x.audioMask == 0 || (if x.timing = 0 then 8 else 16) < bitsSet x.audioMask) 0x1C),
       pathRanges b 0, pathRanges b 1,
       inMode (kind == 2) (mustBe0 b 3 1), eComb (video && rndFeedsOther s x.src (4 + fld b 0 1)) 3,
       rejIf (known && !senderFits s x (fld b 0 1)) 0x0D02 4 (((pathsOf x).map fun e => portLeft s e (fld b 0 1)).foldl min 24000),
       inMode (kind == 3) (mustBe0 b 7 1), videoOnly 8 2,
       rejIf (video && known && (1 < r.layout || r.maxW < x.width || r.maxH < x.height || x.width == 0 || x.height == 0 ||
         x.width % 2 != 0 || !rates2110.contains (x.fpsNum, fld b 0x10 2))) 0x0D01 8 0,
       videoOnly 0x0A 2, videoOnly 0x0C 4, videoOnly 0x10 2, videoOnly 0x12 1, videoOnly 0x14 4, videoOnly 0x18 4,
       inMode (kind != 2) (mustBe0 b 0x1C 4)] ++ pathZero b 0 ++ pathZero b 1
     else
      [resv b 0x13 1, pathRanges b 0, pathRanges b 1] ++ allZero b ([(2, 1), (3, 1), (4, 1), (5, 1), (6, 1), (7, 1), (8, 2), (0x0A, 2), (0x0C, 4), (0x10, 2), (0x12, 1),
        (0x14, 4), (0x18, 4), (0x1C, 4), (0x20, 4)] ++
        [0, 1].flatMap fun e => [(0x24 + 16 * e, 6), (0x2C + 16 * e, 4), (0x30 + 16 * e, 2), (0x32 + 16 * e, 2)]))
  seq b s :=
    let on := fld b 1 1 == 1
    let x := senderOf b
    [eSeqAt (on && (pathsOf x).any fun e => !(ethOf s e).up) 4,
     eSeqAt (on && x.kind == 1 && !((rndOf s x.src).sensor.isSome && (rndOf s x.src).dest == 3)) 3,
     eSeqAt (on && x.kind == 3 && !((outOf s (4 + x.src)).enabled && (outOf s (4 + x.src)).kind == 1)) 3]
  state b s := [eStateAt (fld b 1 1 == 1 && (outOf s (4 + fld b 0 1)).enabled) 1]
  res b s :=
    let on := fld b 1 1 == 1
    [eNoCtx (on && flowsFull s) 65536, eNoCtx (on && !pinnedFree s) 1024]
  effect _ b s :=
    let i := 4 + fld b 0 1
    if fld b 1 1 = 0 then (outDisable s i, .now [])
    else
      let d := draw s
      let r := allocFlow d.2 { num := 0, kind := 5, state := 2, token := fld b 0 1 }
      let s1 := updOut r.2 i fun y => { senderOf b with
        seq := d.1 % 2 ^ 32
        repeats := y.repeats, skips := y.skips, sizeSkips := y.sizeSkips, audioAdjust := y.audioAdjust
        lastSeq := y.lastSeq, lastGen := y.lastGen, flow := some r.1 }
      (if fld b 2 1 = 1 then s1 else outState s1 i 1 0, .now [])

def execOut2110 (n : Fin 40) (s : State) : Host.Outcome State Fault Refusal := .next (mbxRun out2110Card n.val s)

/-- OUT_ETH_PORT (R433). -/
def outEthPortCard : Card where
  opcode := 0x0D03
  len := fixedLen 0x10
  fields b s :=
    let l := laneOf s (ethLane s.fuse (fld b 0 1))
    [inRange b 0 1 0 1, inRange b 1 1 0 1, inRange b 2 1 0 2, resv b 3 1, eRange ((fld b 0x0A 2).testBit 12) 0x0A,
     eComb (l.pers == 6 && ((fld b 2 1 == 1 && l.rate != 0) || (fld b 2 1 == 2 && l.rate != 1))) 2]
  seq b s := [eSeqAt ((laneOf s (ethLane s.fuse (fld b 0 1))).pers != 6) 0]
  state b s :=
    let e := fld b 0 1
    [eStateAt (fld b 1 1 == 1 && (ethOf s e).up) 1,
     eStateAt (fld b 1 1 == 0 && (s.out.outs.drop 4).any fun x => x.enabled && x.paths.testBit e) 1]
  effect _ b s :=
    let e := fld b 0 1
    let up := fld b 1 1 == 1
    let s0 := if up then s else ethLink s e false
    let s1 := updEth s0 e fun p => { p with
      up := up, fec := fld b 2 1, mac := (b.drop 4).take 6, vlan := fld b 0x0A 2, ip := (b.drop 0x0C).take 4 }
    (setLane s1 (ethLane s.fuse e) (if up then 2 else 1) 0, .now [])

def execOutEthPort (n : Fin 40) (s : State) : Host.Outcome State Fault Refusal := .next (mbxRun outEthPortCard n.val s)

/-- OUT_STATUS (R433). -/
def outStatusCard : Card where
  opcode := 0x0D04
  len := fixedLen 4
  fields b _ := [inRange b 0 1 0 1, resv b 1 3]
  effect _ b s :=
    let blocks := s.out.outs.flatMap fun x =>
      leBytes 1 x.st ++ zeros 3 ++ leBytes 4 x.lastSeq ++ leBytes 2 x.repeats ++ leBytes 2 x.skips ++ leBytes 2 x.sizeSkips ++
        leBytes 2 x.audioAdjust
    let ports := [0, 1].flatMap fun e =>
      leBytes 1 (boolNat (ethOf s e).link) ++ leBytes 1 (ethOf s e).fec ++ zeros 2 ++
        leBytes 4 (ceilDiv (portBits s e) (1001 * 1000000)) ++ leBytes 8 (ethOf s e).packets
    (if fld b 0 1 = 1 then { s with
        out.outs := s.out.outs.map fun x => { x with repeats := 0, skips := 0, sizeSkips := 0, audioAdjust := 0 }
        out.eth := s.out.eth.map fun p => { p with packets := 0 } } else s, .now (blocks ++ ports))

def execOutStatus (n : Fin 40) (s : State) : Host.Outcome State Fault Refusal := .next (mbxRun outStatusCard n.val s)

/-- ETH_PORT_DOWN (R381, R430). -/
def execEthPortDown (e : Fin 2) (s : State) : Host.Outcome State Fault Refusal := .next (ethLink s e.val false)

/-- ETH_PORT_UP (R430). -/
def execEthPortUp (e : Fin 2) (s : State) : Host.Outcome State Fault Refusal :=
  .next (if (ethOf s e.val).up then ethLink s e.val true else s)

end Sys2Proof.Machine
end

