-- ==== Sys2Proof/Machine/Display.lean ====
section
/-! DEFINITION. The viewfinder: timing, frame store, composition, commits, read-back and panel commands (chapter
18). -/

namespace Sys2Proof.Machine

def updDisp (s : State) (f : Display → Display) : State := { s with disp := f s.disp }
def layerOf (d : DispSet) (l : Nat) : DispLayer := d.layers.getD l {}

/-! ## Pixels (R440, R442, R443, R445) -/

/-- Alpha blending of a component (R442). -/
def blend (a s d : Nat) : Nat := (a * (s * 4 + s / 64) + (255 - a) * d + 127) / 255

/-- An ARGB pixel over [R, G, B] (R442, R445). -/
def overlayPixel (argb : Nat) (under : List Nat) : List Nat :=
  let a := argb / 2 ^ 24 % 256
  [blend a (argb / 2 ^ 16 % 256) (under.getD 0 0), blend a (argb / 2 ^ 8 % 256) (under.getD 1 0),
   blend a (argb % 256) (under.getD 2 0)]

/-- The coefficients cy, crv, cgu, cgv and cbu of a `ycc` (R443). -/
def yccCoeffs (ycc : Nat) : Int × Int × Int × Int × Int :=
  if ycc = 0 then (76533, 117835, 14017, 35028, 138846) else (76533, 110337, 12313, 42752, 140776)

/-- Y'CbCr codes to R'G'B' (R443). -/
def yccPixel (ycc y cb cr : Nat) : List Nat :=
  let (cy, crv, cgu, cgv, cbu) := yccCoeffs ycc
  let y : Int := (y : Int) - 64
  let u : Int := (cb : Int) - 512
  let v : Int := (cr : Int) - 512
  let c (x : Int) : Nat := (clampInt ((x + 32768) / 65536) 0 1023).toNat
  [c (cy * y + crv * v), c (cy * y - cgu * u - cgv * v), c (cy * y + cbu * u)]

/-- The pixel of layer 0 at column x of a line of `w` pixels, from the line's bytes (R234, R443). -/
def videoPixel (b : L0Buf) (bytes : List Byte) (x : Nat) : List Nat :=
  if b.layout = 1 then
    let g := fld bytes (x / 2 * 9) 9 / 2 ^ (36 * (x % 2))
    let c (v : Nat) : Nat :=
      if b.format = 2 then (v * 16372 + 32768) / 65536
      else (clampInt ((((v : Int) - 256) * 19133 + 32768) / 65536) 0 1023).toNat
    [c (g % 4096), c (g / 2 ^ 12 % 4096), c (g / 2 ^ 24 % 4096)]
  else
    let grp (i : Nat) : Nat := fld bytes (i * 5) 5
    let i := x / 2
    let cb (i : Nat) : Nat := grp i % 1024
    let cr (i : Nat) : Nat := grp i / 2 ^ 20 % 1024
    let y := if x % 2 = 0 then grp i / 2 ^ 10 % 1024 else grp i / 2 ^ 30 % 1024
    let last := b.width ≤ x + 1
    let mid (f : Nat → Nat) : Nat := if x % 2 = 0 || last then f i else (f i + f (i + 1) + 1) / 2
    yccPixel b.ycc y (mid cb) (mid cr)

/-- A pixel's payload bytes on the link for a line (R437, R440). -/
def linePayload (pixfmt : Nat) (px : List Nat) : List Byte :=
  if pixfmt = 0 then px.flatMap fun p =>
    [p % 1024, p / 2 ^ 10 % 1024, p / 2 ^ 20 % 1024].map fun c => BitVec.ofNat 8 (min ((c + 2) / 4) 255)
  else leBytes (px.length * 30 / 8) (packFields 30 px)

/-- CRC-32 of R451, one byte on. -/
def crc32Step (c : Nat) (b : Byte) : Nat := crcByte 0xEDB88320 c b

/-! ## Composition (R441 to R447) -/

/-- A line of a store, black where it holds none. -/
def lineIn (s : State) (l : List (Nat × List Nat)) (y : Nat) : List Nat :=
  match l.find? fun e => e.1 == y with
  | some e => e.2
  | none => List.replicate s.disp.cfg.hActive 0
def storeLine (s : State) (y : Nat) : List Nat := lineIn s s.disp.store y

/-- The composed CRC of the frame in the store, over its lines as they were composed (R451). -/
def storeCrc (s : State) : Nat :=
  ((List.range s.disp.cfg.vActive).foldl (fun c y =>
    (linePayload s.disp.cfg.pixfmt (lineIn s s.disp.composed y)).foldl crc32Step c) 0xFFFFFFFF) ^^^ 0xFFFFFFFF

/-- The number of the next frame; it saturates, as a counter does (R6; DESIGN CHOICE, log entry 219). -/
def nextFrame (s : State) : Nat := sat32 s.disp.dframe 1

/-- Frame under composition: the one after blanking starts. -/
def composing (s : State) : Nat :=
  if s.disp.line.any fun l => s.disp.cfg.vActive ≤ l then nextFrame s else s.disp.dframe

/-- Pixels of layer 0 that fall on a line. -/
def videoWidth (s : State) (b : L0Buf) : Nat := min b.width (s.disp.cfg.hActive - (layerOf s.disp.latched 0).x)

/-- Whether a layer covers a line and is not switched off there. -/
def covers (s : State) (l y : Nat) : Bool :=
  let x := layerOf s.disp.latched l
  x.enable && x.y ≤ y && ((s.disp.off.getD l none).all fun k => y < k) &&
    (if l = 0 then s.disp.held.any fun b => y < x.y + b.height else y < x.y + x.h)

/-- Bytes of a layer's line, and where it lies. -/
def layerLine (s : State) (l y : Nat) : Nat × Nat :=
  let x := layerOf s.disp.latched l
  if l = 0 then
    match s.disp.held with
    | none => (0, 0)
    | some b => (layoutLine b.layout (ceilDiv (min b.width (videoWidth s b + 1)) 2 * 2),
        b.addr + 0x100 + (y - x.y) * layoutStride b.layout b.width)
  else (if l = 3 then ceilDiv x.w 4 else 4 * x.w, x.addr + 0x100 + (y - x.y) * x.stride)

/-- Fetch bursts of a layer's line (R445). -/
def burstsOf (s : State) (l y : Nat) : Nat := ceilDiv (layerLine s l y).1 4096
def burstsIn (s : State) (l y : Nat) : List (Nat × Nat × Nat × List Byte) :=
  s.disp.fetched.filter fun f => f.1 == l && f.2.1 == y
def arrived (s : State) (l y : Nat) : Bool := (burstsIn s l y).length == burstsOf s l y

/-- A layer line's bytes, in order. -/
def layerBytes (s : State) (l y : Nat) : List Byte :=
  ((burstsIn s l y).mergeSort fun a b => a.2.2.1 ≤ b.2.2.1).flatMap fun f => f.2.2.2

/-- One layer composed onto a pixel. -/
def layerPixel (s : State) (l : Nat) (bytes : List Byte) (x : Nat) (under : List Nat) : List Nat :=
  let c := layerOf s.disp.latched l
  if x < c.x then under
  else
    let i := x - c.x
    if l = 0 then
      match s.disp.held with
      | some b => if i < b.width then videoPixel b bytes i else under
      | none => under
    else if c.w ≤ i then under
    else if l = 3 then overlayPixel (c.palette.getD (fld bytes (i / 4) 1 / 4 ^ (i % 4) % 4) 0) under
    else overlayPixel (fld bytes (4 * i) 4) under

/-- Compose a line from the layers that cover it and write it into the store. -/
def composeLine (s : State) (y : Nat) : State :=
  let ls := ((List.range 4).filter fun l => covers s l y).map fun l => (l, layerBytes s l y)
  let px := (List.range s.disp.cfg.hActive).map fun x =>
    packFields 10 (ls.foldl (fun p l => layerPixel s l.1 l.2 x p) [0, 0, 0])
  updDisp s fun d => { d with
    store := (y, px) :: d.store.filter fun e => e.1 != y
    composed := (y, px) :: d.composed.filter fun e => e.1 != y
    written := d.written ++ [y]
    fetched := d.fetched.filter fun f => f.2.1 != y }

/-- Compose every open line whose data has arrived. -/
def composeReady (s : State) : State :=
  (List.range s.disp.opened).foldl (fun s y =>
    if s.disp.written.contains y || !((List.range 4).all fun l => !covers s l y || arrived s l y) then s
    else composeLine s y) s

/-- A layer goes off from a line on. One that is off already from a later line is not switched off again: it stays out
of this line too, with no second event and no count (R447; DEDUCED, log entry 222). -/
def layerOff (s : State) (l y : Nat) (tell : State → State) : State :=
  let s1 := updDisp s fun d => { d with off := d.off.set l (some y) }
  if (s.disp.off.getD l none).isSome then s1 else tell s1

/-- Scan-out runs: the display is enabled, or finishes the frame it was disabled in. -/
def scanning (s : State) : Bool := s.disp.enabled || s.disp.finishing

/-- LAYER_BURST (R445, R447): a burst of a layer's line has returned. -/
def execLayerBurst (layer : Fin 4) (line : Fin 1600) (burst : Fin 3) (s : State) : Host.Outcome State Fault Refusal :=
  let l := layer.val
  let y := line.val
  let x := layerOf s.disp.latched l
  let at_ := layerLine s l y
  let word := memLE s.dram x.addr 4
  if !scanning s || s.disp.opened ≤ y || s.disp.written.contains y || !covers s l y || burstsOf s l y ≤ burst.val ||
      (burstsIn s l y).any fun f => f.2.2.1 == burst.val then .next s
  else if l != 0 && word != x.gen then
    .next (composeReady (layerOff s l y fun s1 =>
      notify (updDisp s1 fun d => { d with stales := modAt d.stales (l - 1) (sat32 · 1) }) 0x0E05 l
        (leBytes 4 (composing s) ++ leBytes 1 l ++ [0] ++ leBytes 2 y ++ leBytes 4 x.gen ++ leBytes 4 word) 4))
  else
    let bytes := dramRead s (at_.2 + 4096 * burst.val) (min 4096 (at_.1 - 4096 * burst.val))
    .next (composeReady (updDisp s fun d => { d with fetched := d.fetched ++ [(l, y, burst.val, bytes)] }))

/-- COMPOSE_DEADLINE (R441, R446): the line is written without late layers; how late each fetch was, in ns. -/
def execComposeDeadline (line : Fin 1600) (late : List (BitVec 32)) (s : State) : Host.Outcome State Fault Refusal :=
  let y := line.val
  if !scanning s || s.disp.opened ≤ y || s.disp.written.contains y then .next s
  else
    let s1 := (List.range 4).foldl (fun s l =>
      if !covers s l y || arrived s l y then s
      else layerOff s l y fun s1 =>
        notify (updDisp s1 fun d => { d with underruns := modAt d.underruns l (sat32 · 1) }) 0x0E04 l
          (leBytes 4 (composing s) ++ leBytes 1 l ++ [0] ++ leBytes 2 y ++ leBytes 4 (late.getD l 0).toNat) 3) s
    .next (composeReady s1)

/-! ## Lines and blanking (R441, R444, R448) -/

/-- What the ports send in a line (R436, R437): blanking ends with the sync lines and the back porch. -/
def dsiLine (s : State) (k : Nat) : DsiLine :=
  let c := s.disp.cfg
  { vss := k + c.vSync + c.vBack == c.vTotal
    pixels := if k < c.vActive then some (if c.pixfmt = 0 then 0x3E else 0x0D, linePayload c.pixfmt (storeLine s k)) else none }

/-- A line starts: `EV_DISP_LINE` at the latched `line_match`. -/
def lineStart (s : State) (k : Nat) : State :=
  let s1 := updDisp s fun d => { d with line := some k, lineAt := s.time.c.toNat, sent := some (dsiLine s k) }
  if s1.disp.latched.lineMatch = k then notify s1 0x0E02 0 (leBytes 4 s1.disp.dframe ++ leBytes 2 k) 1 else s1

/-- Scan-out has ended: the lanes rest at LP-11, and layer 0 holds no buffer. -/
def scanStop (s : State) : State :=
  updDisp s fun d => { d with finishing := false, line := none, held := none, fetched := [], sent := none }

/-- Lines of the frame in scan-out: `v_total`, one more or one less while the display slews (R490). The line is added or
left out at the end of blanking (PRESUMED, log entry 220). -/
def dispTotal (s : State) : Nat := ((s.disp.cfg.vTotal : Int) + slewLines s 12).toNat

/-- DISPLAY_LINE (R436, R441): the next line that is not the start of blanking; a disabled display stops after its last. -/
def execDisplayLine (s : State) : Host.Outcome State Fault Refusal :=
  let c := s.disp.cfg
  let last := s.disp.line.all fun l => dispTotal s ≤ l + 1
  if !scanning s then .next s
  else if s.disp.finishing && last then .next (scanStop s)
  else
    let next := match last, s.disp.line with
      | false, some l => (l + 1, s.disp.dframe)
      | true, some _ => (0, nextFrame s)
      | _, none => (0, s.disp.dframe)
    if next.1 = c.vActive then .next s
    else
      let s0 := if next.1 = 0 then cadenceBegin s 12 (viewTime s s.time.viewS s.time.c.toNat) else s
      let s1 := lineStart (updDisp s0 fun d => { d with dframe := next.2 }) next.1
      .next (if next.1 < c.vActive then
        composeReady (updDisp s1 fun d => { d with opened := max d.opened (min c.vActive (next.1 + 65)) }) else s1)

/-- Layer 0 chooses its frame (R444). -/
def chooseVideo (s : State) : State :=
  let x := layerOf s.disp.latched 0
  if !x.enable then updDisp s fun d => { d with held := none }
  else
    let r := rndOf s x.rnd
    let l := ((List.range r.bufs.length).map fun n => (n, r.bufs.getD n {})).filter fun p => p.2.state == 1
    match newestBuf l with
    | none => s
    | some (n, b) =>
      let a := rndBufAddr r n
      updDisp s fun d => { d with held := some {
        rnd := x.rnd, addr := a, fill := b.fill, seq := b.seq, width := b.width, height := b.height
        layout := memLE s.dram (a + 5) 1, format := memLE s.dram (a + 0x1C) 1, ycc := memLE s.dram (a + 0x1E) 1 } }

/-- Send every DCS command that waits, and answer it (R452). -/
def dcsSend (s : State) : State :=
  s.disp.dcs.foldl (fun s w => mbxOk (updDisp s fun d => { d with dcsSent := some w.cmd }) w.slot w.resp)
    (updDisp s fun d => { d with dcs := [] })

def heldSeq (s : State) : Nat := (s.disp.held.map (·.seq)).getD 0xFFFFFFFF

/-- The pending state latches where it is due at a frame (R448). -/
def latchCommit (d : Display) (n : Nat) : Display :=
  match d.pending with
  | some p => if p.2 = n then { d with latched := p.1, pending := none } else d
  | none => d

/-- DISPLAY_VBLANK (R444, R448, R451): the start of blanking. -/
def execDisplayVblank (s : State) : Host.Outcome State Fault Refusal :=
  let c := s.disp.cfg
  if !scanning s || !(s.disp.line.any fun l => l + 1 == c.vActive) then .next s
  else
    let n := s.disp.dframe
    let latch := s.disp.pending.any fun p => p.2 == n
    let s1 := updDisp s fun d => latchCommit { d with
      frameNo := n, frameCrc := storeCrc s, frameOff := packBits (d.off.map (·.isSome)) } n
    let s2 := if s.disp.finishing then updDisp s1 fun d => { d with held := none } else chooseVideo s1
    let s3 := lineStart (updDisp s2 fun d => { d with
      opened := if s.disp.finishing then 0 else min 64 c.vActive, written := [], fetched := [], off := [none, none, none, none] }) c.vActive
    let s4 := notify s3 0x0E01 0 (leBytes 4 n ++ leBytes 1 (boolNat latch) ++ [0, 0, 0] ++ leBytes 4 (heldSeq s3)) 0
    .next (dcsSend (composeReady (if latch then setLeaf s4 14 7 else s4)))

/-- DISPLAY_FRAME_CRC (R451): what the read-back monitors computed. -/
def execDisplayFrameCrc (crc0 crc1 : BitVec 32) (s : State) : Host.Outcome State Fault Refusal :=
  let d := s.disp
  if !scanning s || !(d.line.any fun l => d.cfg.vActive ≤ l) then .next s
  else
    let on (p : Nat) : Bool := d.cfg.ports.testBit p
    let ok (p : Nat) : Bool := (if p = 0 then crc0 else crc1).toNat == d.frameCrc
    let bad := [0, 1].filter fun p => on p && !ok p
    let s1 := notify s 0x0E03 0 (leBytes 4 d.frameNo ++ leBytes 4 d.frameCrc ++
      leBytes 1 (packBits [on 0 && ok 0, on 1 && ok 1, on 0, on 1]) ++ leBytes 1 d.frameOff) 2
    let s2 := updDisp s1 fun d => { d with mismatches := bad.foldl (fun m p => modAt m p (sat32 · 1)) d.mismatches }
    .next (if bad.isEmpty then s2 else setLeaf s2 14 6)

/-! ## Commands (R438, R439, R452, R453) -/

/-- Bits of an active line on the link, and the least `lane_rate` that carries it (R438). -/
def lineBits (c : DispCfg) : Nat := if c.pixfmt = 0 then c.hActive * 24 + 160 else c.hActive * 30 + 160
def leastLaneRate (c : DispCfg) : Nat :=
  ceilDiv (lineBits c * c.fpsNum * c.vTotal * 100) (85 * c.lanes * c.fpsDen * 10000000)

def dispCfgOf (b : Body) : DispCfg := {
  ports := fld b 1 1, lanes := fld b 2 1, pixfmt := fld b 3 1, laneRate := fld b 4 2, clkMode := fld b 6 1
  hActive := fld b 8 2, vActive := fld b 0x0A 2, hTotal := fld b 0x0C 2, vTotal := fld b 0x0E 2, hSync := fld b 0x10 2
  hBack := fld b 0x12 2, vSync := fld b 0x14 1, vBack := fld b 0x15 1, fpsDen := fld b 0x16 2, fpsNum := fld b 0x18 4
  phaseNs := sfld b 0x1C 4 }

/-- The display enabled or disabled with settings. A commit made while it was disabled is latched, and without one the
shadow (R448; DESIGN CHOICE where both speak, log entry 218). -/
def dispApply (s : State) (b : Body) : State :=
  if fld b 0 1 = 0 then
    let s1 := updDisp { s with time.cadences := s.time.cadences.set 12 {} } fun d => { d with
      enabled := false, pending := none, finishing := d.line.isSome }
    dcsSend (if s.disp.line.isSome then s1 else scanStop s1)
  else updDisp s fun d => { d with
    enabled := true, finishing := false, sent := none, configured := true, cfg := dispCfgOf b, store := [], composed := [], dframe := 0, line := none
    latched := (d.pending.map (·.1)).getD { layers := d.shadow, lineMatch := 0xFFFF }
    pending := none, opened := fld b 0x0A 2, written := List.range (fld b 0x0A 2), fetched := []
    off := [none, none, none, none], held := none }

/-- Bytes of the frame store that its banks still give (R441, R590). -/
def storeBytes (s : State) : Nat := 2 ^ 24 - 16384 * (s.spare.overdrawn.filter fun b => b.array == 7).length

/-- DISP_CONFIG (R436 to R439, R453, R590). -/
def dispConfigCard : Card where
  opcode := 0x0E01
  len := fixedLen 0x20
  fields b s :=
    let c := dispCfgOf b
    [inRange b 0 1 0 1] ++
    (if fld b 0 1 = 1 then
      [inRange b 1 1 1 3, oneOf b 2 1 [1, 2, 4], inRange b 3 1 0 1, inRange b 4 2 8 450, inRange b 6 1 0 1, resv b 7 1,
       eRange (c.hActive < 320 || 2560 < c.hActive || c.hActive % 8 != 0) 8, inRange b 0x0A 2 240 1600,
       inRange b 0x0C 2 (c.hActive + 32) 8191, inRange b 0x0E 2 (c.vActive + 8) 4095, eRange (c.hSync == 0) 0x10,
       eRange (c.vSync == 0) 0x14, oneOf b 0x16 2 [1, 1001],
       eRange (if c.fpsDen = 1 then c.fpsNum < 24 || 120 < c.fpsNum else c.fpsNum < 24000 || 120000 < c.fpsNum) 0x18,
       eRange (c.fpsDen * 1000000000 ≤ c.phaseNs.natAbs * c.fpsNum) 0x1C,
       rejIf (c.laneRate < leastLaneRate c) 0x0E01 4 (leastLaneRate c),
       eComb (storeBytes s < 4 * c.hActive * c.vActive) 8,
       eComb (c.hTotal < c.hActive + 8 + c.hSync + c.hBack) 0x12, eComb (c.vTotal < c.vActive + 1 + c.vSync + c.vBack) 0x15,
       eComb (245760000 * c.fpsDen < c.hActive * c.vActive * c.fpsNum) 0x18,
       claimCheck s (updDisp s fun d => { d with enabled := false }) (dispApply s b) 0x18]
     else resv b 7 1 :: allZero b [(1, 1), (2, 1), (3, 1), (4, 2), (6, 1), (8, 2), (0x0A, 2), (0x0C, 2), (0x0E, 2), (0x10, 2),
       (0x12, 2), (0x14, 1), (0x15, 1), (0x16, 2), (0x18, 4), (0x1C, 4)])
  state b s := [eStateAt ((fld b 0 1 == 1) == s.disp.enabled) 0]
  effect _ b s := (dispApply s b, .now [])

def execDispConfig (n : Fin 40) (s : State) : Host.Outcome State Fault Refusal := .next (mbxRun dispConfigCard n.val s)

/-- Bytes of a line of layers 1 to 3 (R445). -/
def overlayLine (l w : Nat) : Nat := if l = 3 then ceilDiv w 4 else 4 * w

def dispLayerOf (b : Body) : DispLayer := {
  enable := fld b 1 1 == 1, x := fld b 4 2, y := fld b 6 2, w := fld b 8 2, h := fld b 0x0A 2, stride := fld b 0x0C 4
  addr := fld b 0x10 8, gen := fld b 0x18 4, rnd := fld b 0x1C 1
  palette := [fld b 0x20 4, fld b 0x24 4, fld b 0x28 4, fld b 0x2C 4] }

/-- DISP_LAYER (R442 to R445, R453). -/
def dispLayerCard : Card where
  opcode := 0x0E02
  len := fixedLen 0x30
  fields b s :=
    let l := fld b 0 1
    let c := s.disp.cfg
    let known := s.disp.configured
    let hMax := if known then c.hActive else 2560
    let vMax := if known then c.vActive else 1600
    let x := dispLayerOf b
    let upper := l != 0
    [inRange b 0 1 0 3, inRange b 1 1 0 1, resv b 2 2] ++
    (if x.enable then
      [inRange b 4 2 0 (hMax - 1), inRange b 6 2 0 (vMax - 1), inMode upper (inRange b 8 2 8 hMax),
       inMode upper (inRange b 0x0A 2 1 vMax), inMode upper (eRange (x.stride % 256 != 0) 0x0C),
       inMode upper (eRange (x.addr % 256 != 0 || !hostRangeOk s x.addr (0x100 + x.h * x.stride)) 0x10),
       offMode upper (inRange b 0x1C 1 1 5), offMode upper (eVariant (renditionCount s.fuse ≤ x.rnd) 0x1C), resv b 0x1D 3,
       offMode upper (mustBe0 b 8 2), inMode upper (eComb (known && c.hActive < x.x + x.w) 8),
       offMode upper (mustBe0 b 0x0A 2), inMode upper (eComb (known && c.vActive < x.y + x.h) 0x0A),
       offMode upper (mustBe0 b 0x0C 4), inMode upper (eComb (x.stride < overlayLine l x.w) 0x0C),
       offMode upper (mustBe0 b 0x10 8), offMode upper (mustBe0 b 0x18 4), inMode upper (mustBe0 b 0x1C 1),
       offMode upper (eComb (rndFeedsOther s x.rnd 12) 0x1C)] ++
      (if l = 3 then [] else allZero b [(0x20, 4), (0x24, 4), (0x28, 4), (0x2C, 4)])
     else resv b 0x1D 3 :: allZero b [(4, 2), (6, 2), (8, 2), (0x0A, 2), (0x0C, 4), (0x10, 8), (0x18, 4), (0x1C, 1), (0x20, 4),
       (0x24, 4), (0x28, 4), (0x2C, 4)])
  seq b s :=
    let x := dispLayerOf b
    [eSeqAt (!s.disp.configured) 0,
     eSeqAt (x.enable && fld b 0 1 == 0 && !((rndOf s x.rnd).sensor.isSome && (rndOf s x.rnd).dest == 4)) 0x1C]
  effect _ b s :=
    (updDisp s fun d => { d with shadow := d.shadow.set (fld b 0 1) (dispLayerOf b) }, .now [])

def execDispLayer (n : Fin 40) (s : State) : Host.Outcome State Fault Refusal := .next (mbxRun dispLayerCard n.val s)

/-- DISP_COMMIT (R448, R449). -/
def dispCommitCard : Card where
  opcode := 0x0E03
  len := fixedLen 4
  fields b s :=
    let vMax := if s.disp.configured then s.disp.cfg.vTotal else 4095
    [eRange (fld b 0 2 != 0xFFFF && vMax ≤ fld b 0 2) 0, resv b 2 2]
  seq _ s := [eSeqAt (!s.disp.configured) 0]
  effect _ b s :=
    let d := s.disp
    let line := d.line.getD 0
    let late := d.enabled && d.cfg.vActive ≤ line + 2 && d.line.isSome
    let target := if !d.enabled then 0xFFFFFFFF else if late then nextFrame s else d.dframe
    let replaced := d.pending.isSome
    let s1 := updDisp s fun d => { d with
      pending := some ({ layers := d.shadow, lineMatch := fld b 0 2 }, target)
      superseded := if replaced then sat32 d.superseded 1 else d.superseded
      lateCommits := if late then sat32 d.lateCommits 1 else d.lateCommits }
    let s2 := if late then notify s1 0x0E06 0 (leBytes 4 d.dframe ++ leBytes 4 target ++ leBytes 2 line) 5 else s1
    (s2, .now (leBytes 4 target ++ leBytes 1 (boolNat late) ++ leBytes 1 (boolNat replaced) ++ [0, 0]))

def execDispCommit (n : Fin 40) (s : State) : Host.Outcome State Fault Refusal := .next (mbxRun dispCommitCard n.val s)

/-- Time of a DCS command and its margin in tenths of a microsecond: t_cmd + 10 us (R452). -/
def dcsTenths (b : Body) : Nat :=
  8 * (fld b 4 2 + 6) + 100 + (if fld b 1 1 = 2 then 400 + 8 * (fld b 3 1 + 6) else 0)

/-- A number of lines lasts at least some tenths of a microsecond, less PIPE clocks already gone. -/
def linesLast (c : DispCfg) (lines gone tenths : Nat) : Bool :=
  tenths * 768000 * c.fpsNum * c.vTotal + gone * 6250 * c.fpsNum * c.vTotal ≤ lines * c.fpsDen * 7680000000000

/-- A port's block of the response. -/
def dcsBlock (sent : Bool) (r : DcsResult) : List Byte :=
  if !sent then [4] ++ zeros 23
  else leBytes 1 r.code.val ++ leBytes 1 r.data.length ++ leBytes 2 r.report.toNat ++ zeros 4 ++ (r.data ++ zeros 16).take 16

/-- The DSI command that a `DISP_DCS` sends (R452). -/
def dsiCommand (b : Body) : DsiCommand :=
  let k := fld b 1 1
  let w := fld b 4 2
  { ports := fld b 0 1, dtype := if k = 0 then (if w = 1 then 0x05 else 0x15) else if k = 1 then 0x39 else 0x06,
    vc := fld b 2 1, data := (b.drop 8).take w }

/-- DISP_DCS (R452): what the panels answer on ports 0 and 1. -/
def dispDcsCard (r0 r1 : DcsResult) : Card where
  opcode := 0x0E04
  len plen b := if plen < 6 then some 9 else if plen = 8 + fld b 4 2 then none else some (8 + fld b 4 2)
  fields b s :=
    let k := fld b 1 1
    let w := fld b 4 2
    let c := s.disp.cfg
    [inRange b 0 1 1 3, inRange b 1 1 0 2, inRange b 2 1 0 3, resv b 6 2,
     eComb (s.disp.enabled && fld b 0 1 &&& c.ports != fld b 0 1) 0,
     eComb (if k = 2 then fld b 3 1 < 1 || 16 < fld b 3 1 else fld b 3 1 != 0) 3,
     eComb (w < 1 || (if k = 0 then 2 else if k = 1 then 64 else 1) < w) 4,
     rejIf (s.disp.enabled && !linesLast c (c.vTotal - c.vActive) 0 (dcsTenths b)) 0x0104 4
       ((c.vTotal - c.vActive) * c.fpsDen * 1000000 / (c.fpsNum * c.vTotal))]
  effect n b s :=
    let d := s.disp
    let cut (r : DcsResult) : DcsResult := { r with data := if fld b 1 1 = 2 then r.data.take (fld b 3 1) else [] }
    let resp := dcsBlock ((fld b 0 1).testBit 0) (cut r0) ++ dcsBlock ((fld b 0 1).testBit 1) (cut r1)
    let nowOk := match d.line with
      | some l => d.cfg.vActive ≤ l && linesLast d.cfg (dispTotal s - l) (s.time.c.toNat - d.lineAt) (dcsTenths b)
      | none => false
    if !d.enabled || nowOk then (updDisp s fun d => { d with dcsSent := some (dsiCommand b) }, .now resp)
    else (updDisp s fun d => { d with dcs := d.dcs ++ [⟨n, resp, dsiCommand b⟩] }, .later)

def execDispDcs (n : Fin 40) (r0 r1 : DcsResult) (s : State) : Host.Outcome State Fault Refusal :=
  .next (mbxRun (dispDcsCard r0 r1) n.val s)

/-- DISP_STATUS (R453). -/
def dispStatusCard : Card where
  opcode := 0x0E05
  len := fixedLen 4
  fields b _ := [inRange b 0 1 0 1, resv b 1 3]
  effect _ b s :=
    let d := s.disp
    let words (l : List Nat) : List Byte := l.flatMap (leBytes 4)
    let resp := leBytes 1 (boolNat d.enabled) ++ leBytes 1 (boolNat d.pending.isSome) ++ leBytes 2 (d.line.getD 0) ++
      leBytes 4 d.dframe ++ leBytes 4 d.superseded ++ leBytes 4 d.lateCommits ++ words d.underruns ++ words d.stales ++
      words d.mismatches ++ leBytes 4 d.frameCrc ++ leBytes 4 (heldSeq s) ++ zeros 4
    (if fld b 0 1 = 1 then updDisp s fun d => { d with
        superseded := 0, lateCommits := 0, underruns := [0, 0, 0, 0], stales := [0, 0, 0], mismatches := [0, 0] } else s,
     .now resp)

def execDispStatus (n : Fin 40) (s : State) : Host.Outcome State Fault Refusal := .next (mbxRun dispStatusCard n.val s)

end Sys2Proof.Machine
end

