-- ==== Sys2Proof/Machine/AudOps.lean ====
section
/-! DEFINITION. The audio unit's operations: filters, channels, ports, masks and slips (R456 to R469). -/

namespace Sys2Proof.Machine

def updAud (s : State) (f : Audio → Audio) : State := { s with aud := f s.aud }
def audPort (s : State) (k : Nat) : AudPort := s.aud.ports.getD k {}
def updAudPort (s : State) (k : Nat) (f : AudPort → AudPort) : State :=
  updAud s fun a => { a with ports := modAt a.ports k f }
def audChan (s : State) (c : Nat) : AudChan := s.aud.chans.getD c {}
def updAudChan (s : State) (c : Nat) (f : AudChan → AudChan) : State :=
  updAud s fun a => { a with chans := modAt a.chans c f }

/-- The unit of a channel (R456). -/
def unitOf (c : Nat) : Nat := if c < 4 then 0 else if c < 8 then 1 else 2 + (c - 8) / 8
def unitRuns (s : State) (u : Nat) : Bool := s.aud.running.getD u false

/-- Samples per second, and the time of strobe j, of 64 bits (R457, R474). -/
def audFs (s : State) : Nat := 48000 * s.aud.fs
def strobeTime (s : State) (j : Nat) : Nat := j * 2 ^ 32 / audFs s
/-- The first strobe at or after a time, and its time. -/
def strobeAfter (s : State) (t : Nat) : Nat := strobeTime s (ceilDiv (t * audFs s) (2 ^ 32))

/-! ## Filters (R458, R459, R465) -/

def sat24 (x : Int) : Int := clampInt x (-(2 ^ 23)) (2 ^ 23 - 1)

/-- Half-band coefficients by distance from the centre (R458). -/
def halfBandCoeff (k : Nat) : Int :=
  match k with
  | 0 => 131072 | 1 => 82125 | 3 => -24097 | 5 => 11134 | 7 => -5289 | 9 => 2305 | 11 => -846 | 13 => 224 | 15 => -20
  | _ => 0

/-- The half-band filter over 31 samples, its centre the 16th. -/
def halfBand (l : List Int) : Int :=
  sat24 (((List.range 31).foldl (fun (acc : Int) (i : Nat) => acc + halfBandCoeff ((i : Int) - 15).natAbs * l.getD i 0) 0 + 2 ^ 17) / 2 ^ 18)

/-- One PDM bit through five integrators. -/
def integrate : List Int → Int → List Int
  | [], _ => []
  | a :: l, x => (a + x) :: integrate l (a + x)

/-- One decimated value through five combs: the states after it, and the output. -/
def combStep : List Int → Int → List Int × Int
  | [], x => ([], x)
  | a :: l, x => let r := combStep l (x - a); (x :: r.1, r.2)

/-- Log2 of D^5 (R459). -/
def cicShift (d : Nat) : Nat := if d = 16 then 20 else if d = 32 then 25 else 30

/-- The CIC output scaled to 24 bits. -/
def cicScale (d : Nat) (c : Int) : Int :=
  let sh := cicShift d
  if sh ≤ 23 then sat24 (c * 2 ^ (23 - sh)) else sat24 ((c + 2 ^ (sh - 24)) / 2 ^ (sh - 23))

/-- Bits of one strobe interval through a microphone's chain; every D bits give a sample at 2 fs. -/
def micBits (d : Nat) : Nat → Mic → List Bool → Mic
  | _, m, [] => m
  | n, m, b :: l =>
    let integ := integrate m.integ (if b then 1 else -1)
    if n + 1 < d then micBits d (n + 1) { m with integ := integ } l
    else
      let r := combStep m.comb (integ.getLastD 0)
      micBits d 0 { integ := integ, comb := r.1, past := (cicScale d r.2 :: m.past).take 31 } l

/-- Gain (R465). -/
def applyGain (x : Int) (g : Nat) : Int := sat24 ((x * g + 2 ^ 19) / 2 ^ 20)

/-! ## Ports (R460 to R464) -/

def slotsOf (fmt : Nat) : Nat := if fmt = 2 then 8 else 2

/-- A channel's slot is live: its port on and without fault, the slot in the mask of the frame. -/
def slotLive (p : AudPort) (mask slot : Nat) : Bool := p.dir != 0 && p.fault.isNone && mask.testBit slot

/-- A slip of a port: dropped or repeated frame, told at most once per 100 ms (R462). -/
def slip (s : State) (k : Nat) (drop : Bool) : State :=
  let s1 := updAudPort s k fun p => { p with
    slips := sat32 p.slips 1
    drops := if drop then sat32 p.drops 1 else p.drops
    repeats := if drop then p.repeats else sat32 p.repeats 1 }
  let c := s.time.c.toNat
  if (audPort s k).slipAt.any fun t => c - t < 122880000 then s1
  else
    let p := audPort s1 k
    let s2 := updAudPort s1 k fun p => { p with drops := 0, repeats := 0, slipAt := some c }
    notify s2 0x0F03 k (leBytes 4 p.drops ++ leBytes 4 p.repeats) (3 + k)

/-- Write a frame into the elastic buffer; a full one loses its oldest. -/
def bufWrite (s : State) (k : Nat) (f : SlotFrame) : State :=
  let p := audPort s k
  let full := 4 ≤ p.buf.length
  let s1 := updAudPort s k fun p =>
    let buf := (if full then p.buf.drop 1 else p.buf) ++ [f]
    { p with buf := buf, filling := p.filling && buf.length < 2 }
  if full then slip s1 k true else s1

/-- Read a frame; an empty buffer repeats the last; nothing is read while it fills. -/
def bufRead (s : State) (k : Nat) : SlotFrame × State :=
  let p := audPort s k
  if p.filling || p.fault.isSome then ({ mask := p.mask }, s)
  else match p.buf with
    | f :: l => (f, updAudPort s k fun p => { p with buf := l, lastFrame := f })
    | [] => (p.lastFrame, slip s k false)

/-- `EV_AUD_APPLIED` (R472). -/
def appliedEvent (s : State) (source cause replaced t : Nat) : State :=
  notify s 0x0F02 source (leBytes 1 cause ++ leBytes 1 replaced ++ [0, 0] ++ leBytes 8 t) 6

/-- A waiting mask takes effect. -/
def maskApply (s : State) (k t : Nat) : State :=
  match (audPort s k).wait with
  | none => s
  | some w => appliedEvent (updAudPort s k fun p => { p with mask := w.mask, route := w.route, wait := none })
      (0x100 + k) (boolNat w.timedOut) w.replaced t

/-- A frame starts on a port whose clock is good: a committed mask takes effect unless it is too close (R467). -/
def maskFrame (s : State) (k t : Nat) (soon : Bool) : State :=
  match (audPort s k).wait with
  | none => s
  | some w =>
    if !w.waits.isEmpty || (audPort s k).fault.isSome || soon then s
    else if 0 < w.skip then updAudPort s k fun p => { p with wait := some { w with skip := w.skip - 1 } }
    else maskApply s k t

/-- Channels that crossed zero at this strobe satisfy the waiting masks (R467): one whose last crossing came with the
last slot of a frame is less than 2 BCLK periods before the next of a master; a slave's next frame says it itself. -/
def maskCrossings (s : State) (crossed : List Nat) : State :=
  [0, 1, 2].foldl (fun s k =>
    match (audPort s k).wait with
    | none => s
    | some w =>
      if w.waits.isEmpty || (audPort s k).fault.isSome then s
      else
        let hit := w.waits.filter crossed.contains
        let left := w.waits.filter fun c => !hit.contains c
        let lastSlot := hit.contains (8 + 8 * k + slotsOf (audPort s k).fmt - 1)
        updAudPort s k fun p => { p with wait := some { w with
          waits := left, skip := boolNat (left.isEmpty && lastSlot && (audPort s k).master) } }) s

/-! ## Channels (R465, R466) -/

/-- A waiting change of gain and mute takes effect. -/
def gainApply (s : State) (c cause t : Nat) : State :=
  match (audChan s c).wait with
  | none => s
  | some w => appliedEvent (updAudChan s c fun x => { x with gain := w.gain, mute := w.mute, wait := none }) c cause
      w.replaced t

/-- A channel muted by a fault is heard again. -/
def faultUnmute (s : State) (c cause t : Nat) : State :=
  if (audChan s c).unmute then
    appliedEvent (updAudChan s c fun x => { x with faultMute := false, unmute := false }) c cause 0 t
  else s

/-- A channel has an input: a slave receive port has none while its buffer fills or its clock is at fault. -/
def chanFed (s : State) (c : Nat) : Bool :=
  let p := audPort s ((c - 8) / 8)
  c < 8 || p.dir != 1 || p.master || (!p.filling && p.fault.isNone)

/-- One sample of a channel: crossing, changes, and what it delivers. A crossing needs an input, and one to compare it with
(R464, R466). -/
def chanSample (s : State) (c : Nat) (x : Int) (live : Bool) (t : Nat) : Bool × State :=
  let prev := (audChan s c).prev
  let cross := chanFed s c && (x == 0 || (x < 0) != (prev < 0))
  let s1 := if cross && unitRuns s (unitOf c) then faultUnmute (gainApply s c 0 t) c 0 t else s
  let ch := audChan s1 c
  let muted := !live || ch.mute || ch.faultMute || !unitRuns s (unitOf c)
  let out := if muted then 0 else applyGain x ch.gain
  (cross, updAudChan s1 c fun y => { y with
    prev := if chanFed s c then x else y.prev, out := out, outMuted := muted, past := ((out, muted) :: y.past).take 31 })

/-! ## Starting and stopping (R468, R469) -/

def unitBits (m : Nat) : List Nat := (List.range 5).filter m.testBit

/-- The named units stop; what waited on them applies at once. -/
def audStop (s : State) (m t : Nat) : State :=
  (unitBits m).foldl (fun s u =>
    let s1 := updAud s fun a => { a with running := a.running.set u false }
    let s2 := ((List.range 32).filter fun c => unitOf c == u).foldl (fun s c =>
      updAudChan (gainApply s c 1 t) c fun x => { x with faultMute := false, unmute := false }) s1
    if u < 2 then s2
    else updAudPort (maskApply s2 (u - 2) t) (u - 2) fun p => { p with
      fault := none, buf := [], filling := false, sent := List.replicate 8 0 }) s

/-- Stops whose commit lies before a strobe (R469). -/
def audStops (s : State) (t : Nat) : State :=
  (s.aud.stops.filter fun x => x.at_ < t).foldl (fun s x => audStop s x.units t)
    (updAud s fun a => { a with stops := a.stops.filter fun x => t ≤ x.at_ })

/-- Starts whose strobe has come. -/
def audStarts (s : State) (t : Nat) : State :=
  let due := s.aud.starts.filter fun x => x.at_ ≤ t
  due.foldl (fun s x =>
    notify (updAud s fun a => { a with running := a.running.mapIdx fun u r => r || x.units.testBit u }) 0x0F04 0
      (leBytes 1 x.units ++ zeros 7 ++ leBytes 8 x.at_) 7)
    (updAud s fun a => { a with starts := a.starts.filter fun x => t < x.at_ })

/-! ## Consumers (R305, R316, R458) -/

/-- A channel's 48 kHz copy at a unit rate of 96 kHz, as of 15 samples ago, and whether that sample was muted. -/
def copySample (x : AudChan) : Int × Bool := (halfBand (x.past.map (·.1)), (x.past.getD 15 (0, true)).2)

/-- A sample period of the named channels. -/
def samplePeriod (s : State) (mask : Nat) (copy : Bool) : List Byte × Bool :=
  let l := ((List.range 32).filter mask.testBit).map fun c =>
    let x := audChan s c
    if copy then copySample x else (x.out, x.outMuted)
  (l.flatMap fun v => leInt 3 v.1, l.any (·.2))

/-- A sample of every device channel at 48 kHz, and whether it is muted, which SDI embedding makes zeros (R426). -/
def channelValues (s : State) (copy : Bool) : List (Int × Bool) :=
  (List.range 32).map fun c => if copy then copySample (audChan s c) else ((audChan s c).out, (audChan s c).outMuted)

/-- The samples of strobe j go to the recording channels, the SDI outputs and the ST 2110-30 senders. -/
def audConsumers (s : State) (j : Nat) : State :=
  let copy := s.aud.fs = 2
  let due := !copy || j % 2 = 1
  let s1 := (List.range 8).foldl (fun s c =>
    let ch := recChan s c
    if ch.kind != 4 || (ch.audioRate = 1 && !due) then s
    else
      let late := copy && ch.audioRate = 1
      let p := samplePeriod s ch.audioMask late
      recAudioSample s c (strobeTime s (if late then j - 15 else j)) p.1 p.2) s
  if due then audioPackets s1 (channelValues s1 copy) (if copy then (j - 15) / 2 else j) else s1

end Sys2Proof.Machine
end

