-- ==== Sys2Proof/Machine/Audio.lean ====
section
/-! DEFINITION. The audio unit's commands and events (R456 to R472). -/

namespace Sys2Proof.Machine

/-! ## Strobes and frames -/

/-- The microphones' bits since the last strobe (R459). -/
def micStrobe (s : State) (bits : List (List Bool)) : State :=
  updAud s fun a => { a with
    mics := a.mics.mapIdx fun m x =>
      let r := a.pdm.getD (m / 4) 0
      if r = 0 then x else micBits (32 * r / a.fs) 0 x (bits.getD m []) }

/-- What each port takes in at a strobe: a master receive port's frame, or one frame of the elastic buffer. -/
def portInputs (s : State) (rx : List (List (BitVec 24))) : List SlotFrame × State :=
  [0, 1, 2].foldl (fun acc k =>
    let s := acc.2
    let p := audPort s k
    if p.dir != 1 || !unitRuns s (2 + k) then (acc.1 ++ [{ mask := p.mask }], s)
    else if p.master then (acc.1 ++ [{ mask := p.mask, slots := (rx.getD k []).map fun v => v.toInt }], s)
    else let r := bufRead s k; (acc.1 ++ [r.1], r.2)) ([], s)

/-- Channels filled from outside, then the channels of transmit ports from their sources (R457, R465). -/
def channelInputs (s : State) (frames : List SlotFrame) (t : Nat) : List Nat × State :=
  let first := (List.range 32).filter fun c => c < 8 || (audPort s ((c - 8) / 8)).dir != 2
  let second := (List.range 32).filter fun c => !first.contains c
  let one (acc : List Nat × State) (c : Nat) : List Nat × State :=
    let s := acc.2
    let k := (c - 8) / 8
    let slot := (c - 8) % 8
    let x : Int :=
      if c < 8 then halfBand ((s.aud.mics.getD c {}).past)
      else if (audPort s k).dir = 2 then (audChan s ((audPort s k).route.getD slot 0xFF)).out
      else (frames.getD k {}).slots.getD slot 0
    let live := if c < 8 then s.aud.pdm.getD (c / 4) 0 != 0 else slotLive (audPort s k) (frames.getD k {}).mask slot
    let r := chanSample s c x live t
    (if r.1 then acc.1 ++ [c] else acc.1, r.2)
  (first ++ second).foldl one ([], s)

/-- The slots that a transmit port drives: those of its mask. -/
def drivenSlots (p : AudPort) (l : List Int) : List Int := l.mapIdx fun i v => if p.mask.testBit i then v else 0

/-- Frames that transmit ports send or queue at a strobe; a queued one is masked where it goes out (R467). -/
def portOutputs (s : State) : State :=
  [0, 1, 2].foldl (fun s k =>
    let p := audPort s k
    if p.dir != 2 || !unitRuns s (2 + k) then s
    else
      let f := (List.range 8).map fun i => (audChan s (8 + 8 * k + i)).out
      if p.master then updAudPort s k fun p => { p with sent := drivenSlots p f }
      else if p.fault.isSome then s else bufWrite s k { mask := p.mask, slots := f }) s

/-- AUDIO_STROBE (R457): strobe j, the microphones' bits since the last, and the frames of master receive ports. -/
def execAudioStrobe (j : Nat) (pdm : List (List Bool)) (rx : List (List (BitVec 24))) (s : State) :
    Host.Outcome State Fault Refusal :=
  let t := strobeTime s j
  let s1 := audStops s t
  let s2 := if s.pwr.state = .run then audStarts s1 t else s1
  let s3 := [0, 1, 2].foldl (fun s k =>
    if (audPort s k).master && unitRuns s (2 + k) then maskFrame s k t false else s) s2
  let f := portInputs (micStrobe s3 pdm) rx
  let r := channelInputs f.2 f.1 t
  .next (audConsumers (portOutputs (maskCrossings r.2 r.1)) j)

/-- The next frame of a master port starts less than 2 BCLK periods from now (R467). -/
def nearFrame (s : State) (p : AudPort) : Bool :=
  let bclk := audFs s * 32 * slotsOf p.fmt
  (strobeAfter s (classS s) - classS s) * bclk < 2 * 2 ^ 32

/-- AUDIO_FRAME (R462, R468): a far-end frame of a slave port, at its start edge; `soon` when it starts less than 2 BCLK
periods after a mask's commit; a mask applies from the first strobe not before it (R472). A unit that has yet to start takes the frames from half a sample before S0. -/
def execAudioFrame (port : Fin 3) (slots : List (BitVec 24)) (soon : Bool) (s : State) :
    Host.Outcome State Fault Refusal :=
  let k := port.val
  let p := audPort s k
  let starting := s.aud.starts.any fun x => x.units.testBit (2 + k) && x.at_ ≤ classS s + 2 ^ 31 / audFs s
  if p.master || p.dir = 0 || p.fault.isSome || !(unitRuns s (2 + k) || starting) then .next s
  else
    let s1 := maskFrame s k (strobeAfter s (classS s)) soon
    if p.dir = 1 then .next (bufWrite s1 k { mask := (audPort s1 k).mask, slots := slots.map fun v => v.toInt })
    else
      let r := bufRead s1 k
      .next (updAudPort r.2 k fun p => { p with sent := drivenSlots p r.1.slots })

/-- AUDIO_CHANGE_TIMEOUT (R466): 32 ms after acceptance; 0 to 31 a channel, 32 + k the mask of port k. -/
def execAudioChangeTimeout (item : Fin 35) (s : State) : Host.Outcome State Fault Refusal :=
  let t := strobeAfter s (classS s)
  if item.val < 32 then .next (faultUnmute (gainApply s item.val 1 t) item.val 1 t)
  else
    .next (updAudPort s (item.val - 32) fun p =>
      if p.fault.isSome then p else { p with wait := p.wait.map fun w =>
        if w.waits.isEmpty then w
        else { w with waits := [], skip := boolNat (p.master && nearFrame s p), timedOut := true } })

/-- The eight channels of a port. -/
def portChans (k : Nat) : List Nat := (List.range 8).map (8 + 8 * k + ·)

/-- AUDIO_CLOCK_FAULT (R463, R464). -/
def execAudioClockFault (port : Fin 3) (fault : Fin 3) (periodPs : BitVec 32) (s : State) :
    Host.Outcome State Fault Refusal :=
  let k := port.val
  let p := audPort s k
  if p.master || p.dir = 0 || p.fault.isSome || !unitRuns s (2 + k) then .next s
  else
    let s1 := updAudPort s k fun p => { p with
      fault := some fault.val, buf := [], filling := false, sent := List.replicate 8 0, faults := sat32 p.faults 1 }
    let s2 := (portChans k).foldl (fun s c => updAudChan s c fun x => { x with faultMute := true, unmute := false }) s1
    .next (notify s2 0x0F01 k ([0] ++ leBytes 1 fault.val ++ [0, 0] ++ leBytes 4 periodPs.toNat) k)

/-- AUDIO_CLOCK_QUALIFIED (R464). -/
def execAudioClockQualified (port : Fin 3) (periodPs : BitVec 32) (s : State) : Host.Outcome State Fault Refusal :=
  let k := port.val
  if (audPort s k).fault.isNone then .next s
  else
    let s1 := updAudPort s k fun p => { p with fault := none, buf := [], filling := true }
    let s2 := (portChans k).foldl (fun s c => updAudChan s c fun x => { x with unmute := x.faultMute }) s1
    .next (notify s2 0x0F01 k ([1, 0, 0, 0] ++ leBytes 4 periodPs.toNat) k)

/-! ## Commands (R470) -/

/-- AUD_CONFIG. -/
def audConfigCard : Card where
  opcode := 0x0F01
  len := fixedLen 4
  fields b s := [inRange b 0 1 1 2, inRange b 1 1 0 2, inRange b 2 1 0 2, inRange b 3 1 0 2,
    eComb (fld b 0 1 == 1 && s.recs.chans.any fun ch => ch.kind == 4 && ch.audioRate == 2) 0]
  state _ s := [eStateAt (s.aud.running.any id) 0]
  effect _ b s :=
    (updAud s fun a => { a with fs := fld b 0 1, pdm := [fld b 1 1, fld b 2 1], mclk := fld b 3 1 }, .now [])

def execAudConfig (n : Fin 40) (s : State) : Host.Outcome State Fault Refusal := .next (mbxRun audConfigCard n.val s)

/-- A route names a channel that has no source: of a transmit port, of a port that is off, or of a PDM clock that is
off. `self` is the port being set as transmit. -/
def badRoute (s : State) (self c : Nat) : Bool :=
  if c < 8 then s.aud.pdm.getD (c / 4) 0 == 0
  else (c - 8) / 8 == self || (audPort s ((c - 8) / 8)).dir != 1

/-- Checks of eight routes at an offset: ranges, then agreement. -/
def routeRanges (b : Body) (off mask dir : Nat) : List (Option Rej) :=
  (List.range 8).map fun i =>
    let v := fld b (off + i) 1
    if dir = 2 && mask.testBit i then inRange b (off + i) 1 0 31 else eRange (v != 0xFF) (off + i)
def routeAgrees (b : Body) (s : State) (off mask k : Nat) : List (Option Rej) :=
  (List.range 8).map fun i => eComb (mask.testBit i && badRoute s k (fld b (off + i) 1)) (off + i)
def routesOf (b : Body) (off : Nat) : List Nat := (List.range 8).map fun i => fld b (off + i) 1

/-- AUD_PORT (R460 to R462). -/
def audPortCard : Card where
  opcode := 0x0F02
  len := fixedLen 0x10
  fields b s :=
    let dir := fld b 1 1
    let mask := fld b 5 1
    [inRange b 0 1 0 2, inRange b 1 1 0 2] ++
    (if dir = 0 then
      resv b 6 2 :: allZero b [(2, 1), (3, 1), (4, 1), (5, 1)] ++
        ((List.range 8).map fun i => eComb (fld b (8 + i) 1 != 0xFF) (8 + i))
     else
      [inRange b 2 1 0 1, inRange b 3 1 0 2, inRange b 4 1 0 1, resv b 6 2] ++ routeRanges b 8 mask dir ++
      [eComb (fld b 3 1 != 2 && 4 ≤ mask) 5] ++ (if dir = 2 then routeAgrees b s 8 mask (fld b 0 1) else []))
  state b s := [eStateAt (unitRuns s (2 + fld b 0 1)) 0]
  effect _ b s :=
    let k := fld b 0 1
    let dir := fld b 1 1
    let s1 := if (audPort s k).dir = dir then s
      else (portChans k).foldl (fun s c => updAudChan s c fun x => { x with gain := 0x100000, mute := false }) s
    (updAudPort s1 k fun p => { p with
      dir := dir, master := fld b 2 1 == 1, fmt := fld b 3 1, bclkInv := fld b 4 1 == 1, mask := fld b 5 1
      route := routesOf b 8, wait := none }, .now [])

def execAudPort (n : Fin 40) (s : State) : Host.Outcome State Fault Refusal := .next (mbxRun audPortCard n.val s)

/-- Count a replaced change of a unit. -/
def countReplaced (s : State) (u : Nat) : State := updAud s fun a => { a with replaced := modAt a.replaced u (sat32 · 1) }

/-- AUD_CHANNEL (R466). -/
def audChannelCard : Card where
  opcode := 0x0F03
  len := fixedLen 8
  fields b _ := [inRange b 0 1 0 31, inRange b 1 1 0 1, resv b 2 2, eRange (0x1000000 ≤ fld b 4 4) 4]
  effect _ b s :=
    let c := fld b 0 1
    let mute := fld b 1 1 == 1
    if !unitRuns s (unitOf c) then
      (updAudChan s c fun x => { x with gain := fld b 4 4, mute := mute, wait := none }, .now [0, 0, 0, 0])
    else
      let old := (audChan s c).wait
      let s1 := updAudChan s c fun x => { x with
        wait := some { gain := fld b 4 4, mute := mute, replaced := (old.map fun w => satAdd 8 w.replaced 1).getD 0 } }
      (if old.isSome then countReplaced s1 (unitOf c) else s1, .now [1, BitVec.ofNat 8 (boolNat old.isSome), 0, 0])

def execAudChannel (n : Fin 40) (s : State) : Host.Outcome State Fault Refusal := .next (mbxRun audChannelCard n.val s)

/-- AUD_SLOTS (R467). -/
def audSlotsCard : Card where
  opcode := 0x0F04
  len := fixedLen 0x0C
  fields b s :=
    let p := audPort s (fld b 0 1)
    let mask := fld b 1 1
    [inRange b 0 1 0 2, resv b 2 2] ++
    (if p.dir = 0 then (List.range 8).map fun i => eRange (32 ≤ fld b (4 + i) 1 && fld b (4 + i) 1 != 0xFF) (4 + i)
     else routeRanges b 4 mask p.dir ++ [eComb (p.fmt != 2 && 4 ≤ mask) 1] ++
      (if p.dir = 2 then routeAgrees b s 4 mask (fld b 0 1) else []))
  seq b s := [eSeqAt ((audPort s (fld b 0 1)).dir == 0) 0]
  effect _ b s :=
    let k := fld b 0 1
    let p := audPort s k
    let mask := fld b 1 1
    let route := routesOf b 4
    if !unitRuns s (2 + k) then
      (updAudPort s k fun p => { p with mask := mask, route := route, wait := none }, .now [0, 0, 0, 0])
    else
      let gone := (List.range 8).filter fun i => p.mask.testBit i && !mask.testBit i
      let added := (List.range 8).filter fun i => mask.testBit i && !p.mask.testBit i
      let waits := gone.map (8 + 8 * k + ·) ++ (if p.dir = 2 then added.map fun i => route.getD i 0xFF else [])
      let wait : SlotsWait := {
        mask := mask, route := route, waits := waits, replaced := (p.wait.map fun w => satAdd 8 w.replaced 1).getD 0
        skip := boolNat (waits.isEmpty && p.master && nearFrame s p) }
      let s1 := updAudPort s k fun x => { x with wait := some wait }
      (if p.wait.isSome then countReplaced s1 (2 + k) else s1, .now [BitVec.ofNat 8 (boolNat p.wait.isSome), 0, 0, 0])

def execAudSlots (n : Fin 40) (s : State) : Host.Outcome State Fault Refusal := .next (mbxRun audSlotsCard n.val s)

/-- AUD_START (R468). -/
def audStartCard : Card where
  opcode := 0x0F05
  len := fixedLen 0x10
  fields b s :=
    let later := fld b 1 1 == 1
    [inRange b 0 1 1 0x1F, inRange b 1 1 0 1, resv b 2 6,
     inMode later (eRange (fld b 8 8 < classS s || classS s + 60 * 2 ^ 32 < fld b 8 8) 8),
     offMode later (mustBe0 b 8 8)]
  seq b s := [eSeqAt ((unitBits (fld b 0 1)).any fun u =>
    if u < 2 then s.aud.pdm.getD u 0 == 0 else (audPort s (u - 2)).dir == 0) 0]
  state b s := [eStateAt ((unitBits (fld b 0 1)).any (unitRuns s)) 0]
  effect _ b s :=
    let s0 := strobeAfter s (if fld b 1 1 = 1 then fld b 8 8 else classS s)
    let s1 := updAud s fun a => { a with
      starts := a.starts ++ [⟨fld b 0 1, s0⟩]
      ports := a.ports.mapIdx fun k p =>
        if (fld b 0 1).testBit (2 + k) && !p.master then { p with buf := [], filling := true } else p }
    (s1, .now (leBytes 8 s0))

def execAudStart (n : Fin 40) (s : State) : Host.Outcome State Fault Refusal := .next (mbxRun audStartCard n.val s)

/-- AUD_STOP (R469). -/
def audStopCard : Card where
  opcode := 0x0F06
  len := fixedLen 4
  fields b _ := [inRange b 0 1 1 0x1F, resv b 1 3]
  state b s := [eStateAt (!(unitBits (fld b 0 1)).all (unitRuns s)) 0]
  effect _ b s := (updAud s fun a => { a with stops := a.stops ++ [⟨fld b 0 1, classS s⟩] }, .now [])

def execAudStop (n : Fin 40) (s : State) : Host.Outcome State Fault Refusal := .next (mbxRun audStopCard n.val s)

/-- AUD_STATUS. -/
def audStatusCard : Card where
  opcode := 0x0F07
  len := fixedLen 4
  fields b _ := [inRange b 0 1 0 1, resv b 1 3]
  effect _ b s :=
    let units := (List.range 5).flatMap fun u =>
      let p : AudPort := if u < 2 then {} else audPort s (u - 2)
      let st := if !unitRuns s u then 0 else if p.fault.isSome then 2 else 1
      leBytes 1 st ++ leBytes 1 (boolNat p.wait.isSome) ++ [0, 0] ++ leBytes 4 p.faults ++ leBytes 4 p.slips ++
        leBytes 4 (s.aud.replaced.getD u 0)
    let gains := s.aud.chans.flatMap fun x => leBytes 4 (x.gain + 2 ^ 31 * boolNat x.wait.isSome)
    (if fld b 0 1 = 1 then updAud s fun a => { a with
        replaced := List.replicate 5 0, ports := a.ports.map fun p => { p with faults := 0, slips := 0 } } else s,
     .now (units ++ gains))

def execAudStatus (n : Fin 40) (s : State) : Host.Outcome State Fault Refusal := .next (mbxRun audStatusCard n.val s)

end Sys2Proof.Machine
end

