-- ==== Sys2Proof/Machine/Crypto.lean ====
section
/-! DEFINITION. The check codes of signed images (R548, R549, R577): SHA-384 and ECDSA over P-384 with SHA-384. The
manual names both and gives neither's construction. PRESUMED: FIPS 180-4 and FIPS 186-4, see the log. -/

namespace Sys2Proof.Machine

/-! ## SHA-384 -/

abbrev Word64 := BitVec 64

/-- The first `k` primes from `n` upward, within a bound of trials. -/
def primesFrom : Nat → Nat → List Nat → List Nat
  | 0, _, acc => acc.reverse
  | k + 1, n, acc => primesFrom k (n + 1) (if acc.any fun p => n % p == 0 then acc else n :: acc)

/-- The first 80 primes, the last of them 409. -/
def shaPrimes : List Nat := primesFrom 408 2 []

/-- The greatest x below 2^bits with x^e at most n, by bisection. -/
def rootSearch (e n : Nat) : Nat → Nat → Nat
  | 0, x => x
  | b + 1, x => rootSearch e n b (if (x + 2 ^ b) ^ e ≤ n then x + 2 ^ b else x)

/-- The first 64 bits of the fraction of the e-th root of a prime. -/
def rootFraction (e p : Nat) : Word64 := BitVec.ofNat 64 (rootSearch e (p * 2 ^ (64 * e)) 70 0)

/-- Round constants and initial hash value. -/
def shaK : List Word64 := shaPrimes.map (rootFraction 3)
def shaInit : List Word64 := ((shaPrimes.drop 8).take 8).map (rootFraction 2)

def bigSigma0 (x : Word64) : Word64 := x.rotateRight 28 ^^^ x.rotateRight 34 ^^^ x.rotateRight 39
def bigSigma1 (x : Word64) : Word64 := x.rotateRight 14 ^^^ x.rotateRight 18 ^^^ x.rotateRight 41
def smallSigma0 (x : Word64) : Word64 := x.rotateRight 1 ^^^ x.rotateRight 8 ^^^ x >>> 7
def smallSigma1 (x : Word64) : Word64 := x.rotateRight 19 ^^^ x.rotateRight 61 ^^^ x >>> 6


/-- Extend the message schedule, newest word first. -/
def shaSchedule : Nat → List Word64 → List Word64
  | 0, w => w
  | k + 1, w =>
    shaSchedule k ((smallSigma1 (w.getD 1 0) + w.getD 6 0 + smallSigma0 (w.getD 14 0) + w.getD 15 0) :: w)

/-- One round on the working variables a to h. -/
def shaRound (v : List Word64) (kw : Word64 × Word64) : List Word64 :=
  let g (i : Nat) := v.getD i 0
  let t1 := g 7 + bigSigma1 (g 4) + ((g 4 &&& g 5) ^^^ (~~~(g 4) &&& g 6)) + kw.1 + kw.2
  let t2 := bigSigma0 (g 0) + ((g 0 &&& g 1) ^^^ (g 0 &&& g 2) ^^^ (g 1 &&& g 2))
  [t1 + t2, g 0, g 1, g 2, g 3 + t1, g 4, g 5, g 6]

/-- One block of 128 bytes. -/
def shaBlock (k h : List Word64) (b : List Byte) : List Word64 :=
  let w := ((List.range 16).map fun i => BitVec.ofNat 64 (beNat ((b.drop (8 * i)).take 8)))
  let ws := (shaSchedule 64 w.reverse).reverse
  List.zipWith (· + ·) h ((k.zip ws).foldl shaRound h)

def shaBlocks (k : List Word64) : Nat → List Word64 → List Byte → List Word64
  | 0, h, _ => h
  | n + 1, h, b => shaBlocks k n (shaBlock k h (b.take 128)) (b.drop 128)

/-- The SHA-384 digest, 48 bytes. -/
def sha384 (m : List Byte) : List Byte :=
  let pad := (239 - m.length % 128) % 128
  let b := m ++ [0x80] ++ List.replicate pad 0 ++ beBytes 16 (8 * m.length)
  ((shaBlocks shaK (b.length / 128) shaInit b).flatMap fun w => beBytes 8 w.toNat).take 48

/-! ## ECDSA over P-384 -/

def p384 : Nat := 2 ^ 384 - 2 ^ 128 - 2 ^ 96 + 2 ^ 32 - 1
def p384Order : Nat := 0xffffffffffffffffffffffffffffffffffffffffffffffffc7634d81f4372ddf581a0db248b0a77aecec196accc52973
def p384B : Nat := 0xb3312fa7e23ee7e4988e056be3f82d19181d9c6efe8141120314088f5013875ac656398d8a2ed19d2a85c8edd3ec2aef
def p384G : Nat × Nat :=
  (0xaa87ca22be8b05378eb1c71ef320ad746e1d3b628ba79b9859f741e082542a385502f25dbf55296c3a545e3872760ab7,
   0x3617de4a96262c6f5d9e98bf9292dc29f8f41dbd289a147ce9da3113b5f0b8c00a60b1ce1d7e819d7a431d7c90ea0e5f)

/-- a to the power of an exponent of `bits` bits, modulo m. -/
def modPow (m a e : Nat) : Nat → Nat
  | 0 => 1 % m
  | k + 1 =>
    let r := modPow m a e k
    let r2 := r * r % m
    if e.testBit (383 - k) then r2 * a % m else r2

/-- The inverse modulo a prime of 384 bits. -/
def modInv (m a : Nat) : Nat := modPow m (a % m) (m - 2) 384

/-- A point in Jacobian form: x / z² and y / z³; z = 0 is the point at infinity. -/
abbrev EcPoint := Nat × Nat × Nat

/-- a − b modulo the field's prime, for b below it. -/
def subMod (a b : Nat) : Nat := (a + p384 - b) % p384

/-- Twice a point. -/
def ecDouble (q : EcPoint) : EcPoint :=
  let (x, y, z) := q
  let y2 := y * y % p384
  let s := 4 * x * y2 % p384
  let z2 := z * z % p384
  let m := 3 * subMod x z2 * (x + z2) % p384
  let x3 := subMod (m * m) (2 * s % p384)
  (x3, subMod (m * subMod s x3) (8 * y2 * y2 % p384), 2 * y * z % p384)

/-- The sum of two points. -/
def ecAdd (a b : EcPoint) : EcPoint :=
  let (x1, y1, z1) := a
  let (x2, y2, z2) := b
  if z1 = 0 then b
  else if z2 = 0 then a
  else
    let u1 := x1 * z2 * z2 % p384
    let u2 := x2 * z1 * z1 % p384
    let s1 := y1 * z2 * z2 * z2 % p384
    let s2 := y2 * z1 * z1 * z1 % p384
    if u1 = u2 then (if s1 = s2 then ecDouble a else (1, 1, 0))
    else
      let h := subMod u2 u1
      let r := subMod s2 s1
      let h2 := h * h % p384
      let h3 := h2 * h % p384
      let v := u1 * h2 % p384
      let x3 := subMod (r * r) ((h3 + 2 * v) % p384)
      (x3, subMod (r * subMod v x3) (s1 * h3 % p384), h * z1 * z2 % p384)

/-- The multiple of a point by the top `k` of a scalar's 384 bits. -/
def ecMul (e : Nat) (q : EcPoint) : Nat → EcPoint
  | 0 => (1, 1, 0)
  | k + 1 =>
    let r := ecDouble (ecMul e q k)
    if e.testBit (383 - k) then ecAdd r q else r

/-- Whether a signature, r then s, of a message verifies under a public key, x then y. -/
def ecdsaOk (key msg sig : List Byte) : Bool :=
  let x := beNat (key.take 48)
  let y := beNat (key.drop 48)
  let r := beNat (sig.take 48)
  let t := beNat (sig.drop 48)
  let onCurve := x < p384 && y < p384 && y * y % p384 == (x * x * x + (p384 - 3) * x + p384B) % p384
  if !onCurve || r = 0 || t = 0 || p384Order ≤ r || p384Order ≤ t then false
  else
    let w := modInv p384Order t
    let u1 := beNat (sha384 msg) * w % p384Order
    let u2 := r * w % p384Order
    let q := ecAdd (ecMul u1 (p384G.1, p384G.2, 1) 384) (ecMul u2 (x, y, 1) 384)
    let iz := modInv p384 q.2.2
    q.2.2 != 0 && q.1 * iz * iz % p384 % p384Order == r

end Sys2Proof.Machine
end

