-- ==== Sys2Proof/Machine/ThermOps.lean ====
section
/-! DEFINITION. The thermal manager's and Touchstone's operations (chapter 22): derived temperatures, sensor states
and spares, steps of the allowance, the fan, and calibration passes. Temperatures are in 1/16 °C. -/

namespace Sys2Proof.Machine

/-! ## Sensors and derived values (R523 to R526) -/

def TempState.code : TempState → Nat
  | .normal => 0 | .suspect => 1 | .failed => 2 | .rest => 3 | .service => 4 | .spareFailed => 5

def tempSensor (s : State) (i : Nat) : TempSensor := s.therm.sensors.getD i {}
def updTemp (s : State) (i : Nat) (f : TempSensor → TempSensor) : State :=
  { s with therm.sensors := modAt s.therm.sensors i f }

/-- The cluster of a sensor, and the spare of a cluster (R523). -/
def tempCluster (i : Nat) : Nat := if i < 24 then i / 6 else i - 24
def tempSpare (i : Nat) : Nat := 24 + tempCluster i

/-- A neighbour is valid while normal or in service (R524). -/
def tempValid (s : State) (i : Nat) : Bool :=
  (tempSensor s i).state == .normal || (tempSensor s i).state == .service

/-- The valid neighbours of a sensor: its fused list, with its cluster's spare for a primary (R524). -/
def validNbrs (s : State) (i : Nat) : List Nat :=
  let own := s.fuse.tempNbrs.getD i []
  (if 24 ≤ i || own.contains (tempSpare i) then own else own ++ [tempSpare i]).filter (tempValid s)

/-- The sensors that P is formed from: the valid neighbours; for a spare, the valid primaries of its cluster (R525, R530). -/
def checkNbrs (s : State) (i : Nat) : List Nat :=
  if i < 24 then validNbrs s i else ((List.range 6).map (tempCluster i * 6 + ·)).filter (tempValid s)

def tempOffset (s : State) (i : Nat) : Int := s.fuse.tempOffset.getD i 0
def readingsOf (s : State) (l : List Nat) : List Int := l.map fun k => (tempSensor s k).reading

/-- The greatest of a list of temperatures. -/
def maxTemp : List Int → Option Int
  | [] => none
  | t :: l => some (l.foldl max t)

/-- Q (R525), none without a valid neighbour. -/
def tempQ (s : State) (i : Nat) : Option Int := (maxTemp (readingsOf s (validNbrs s i))).map (· + tempOffset s i)

/-- P (R525), the mean rounded down to 1/16 °C. -/
def tempP (s : State) (i : Nat) : Option Int :=
  match readingsOf s (checkNbrs s i) with
  | [] => none
  | l => some (l.sum.fdiv l.length + tempOffset s i)

/-- Whether a reading differs from the unrounded P by more than 8.0 °C; none where P cannot be formed. -/
def awayFromP (s : State) (i : Nat) (reading : Int) : Option Bool :=
  match readingsOf s (checkNbrs s i) with
  | [] => none
  | l => some (decide (128 * l.length < ((reading - tempOffset s i) * l.length - l.sum).natAbs))

/-- The effective temperature of a sensor (R525). -/
def tempEff (s : State) (i : Nat) : Option Int :=
  match (tempSensor s i).state with
  | .normal | .service => some (tempSensor s i).reading
  | .suspect | .failed => tempQ s i
  | .rest | .spareFailed => none

/-- Tmax with the first sensor that has it (R525). -/
def tmaxOf (s : State) : Option (Int × Nat) :=
  (List.range 28).foldl (fun best i =>
    match tempEff s i, best with
    | none, _ => best
    | some t, none => some (t, i)
    | some t, some b => if b.1 < t then some (t, i) else best) none

/-- A sensor enters control (R526). -/
def entersControl (x : TempSensor) : Bool := x.state != .rest && x.state != .spareFailed

/-! ## The allowance (R531 to R535) -/

/-- The VDD_CORE current limit in mA (R532). -/
def coreLimit (s : State) : Nat := s.therm.ceilingNow * s.therm.allow / 16

/-- Bring the lanes' credits up to the present (R533). -/
def settleLanes (s : State) : State :=
  (List.range (lanesEnc s.fuse + 1)).foldl (fun s p => updLane s p fun l => { l with
    credit := grownCredit l.credit l.creditAt s.therm.allow 122880 (now s), creditAt := now s }) s

/-- The allowance takes a value: the credits are settled at the old rate, and the scheduler judges its capacity
anew (R136, R533). -/
def setAllow (s : State) (a : Nat) : State :=
  let s1 := settleRnds (settleLanes (settleCredit s))
  overloadCheck { s1 with therm.allow := a }

/-- `EV_THERM_STEP` from an old allowance to the one in force. -/
def thermStepEvent (s : State) (old cause : Nat) : State :=
  notify s 0x1201 0 (leBytes 1 old ++ leBytes 1 s.therm.allow ++ leBytes 1 cause ++ leBytes 1 s.therm.hottest ++
    leInt 2 s.therm.tmax ++ [0, 0] ++ leBytes 4 s.therm.measuredMa ++ leBytes 4 (coreLimit s)) 0

/-- Whether the condition of R531 stands. -/
def floorCondition (s : State) : Bool :=
  (List.range 24).any fun i =>
    (tempSensor s i).state == .failed && (validNbrs s i).isEmpty &&
      (tempSensor s (tempSpare i)).state != .rest && (tempSensor s (tempSpare i)).state != .service

/-- After any change of a sensor's state: the condition of R531 falls to the floor at once, or ends. -/
def floorCheck (s : State) : State :=
  let c := floorCondition s
  let s1 := { s with therm.floor := c }
  if c && 4 < s.therm.allow then thermStepEvent (setLeaf (setAllow s1 4) 18 3) s.therm.allow 3 else s1

/-! ## Sensor states (R526 to R530, R535) -/

/-- `EV_THERM_SENSOR`; P is a free value where no neighbour gives one. -/
def sensorEvent (s : State) (i : Nat) (old new : TempState) (cause spare : Nat) (reading : Int)
    (p q : Option Int) : State :=
  let d := match p with
    | some p => (unsigned 16 p, s)
    | none => (Config.freeNat s.draws % 2 ^ 16, { s with draws := s.draws + 1 })
  notify d.2 0x1203 i (leBytes 1 old.code ++ leBytes 1 new.code ++ leBytes 1 cause ++ leBytes 1 spare ++
    leInt 2 reading ++ leBytes 2 d.1 ++ leBytes 2 (match q with
      | some q => unsigned 16 q
      | none => 0x8000)) 2

/-- No spare sensor is left at rest. -/
def tempPoolEmpty (s : State) : Bool := !((List.range 4).any fun c => (tempSensor s (24 + c)).state == .rest)

/-- Restart a sensor's rate-check history (R527). -/
def restartHistory (x : TempSensor) : TempSensor := { x with hist := [], rising := false, rises := 0 }

/-- Record a sensor's retirement, and its spare's service where it has one (R530, R595, R599); `was` says that no
spare was left before. -/
def recordTemp (was : Bool) (s : State) (i : Nat) (spare : Option Nat) : State :=
  let s1 := spareRecord s 6 0 6 i 0 0 0
  let s2 := match spare with
    | some k => spareRecord (countSubst s1 6) 6 1 6 k 0 0 0
    | none => s1
  if tempPoolEmpty s2 && !was then setLeaf s2 21 7 else s2

/-- No primary of a sensor's cluster is left: none is normal or suspect. -/
def clusterGone (s : State) (i : Nat) : Bool :=
  (List.range 6).all fun k => (tempSensor s (tempCluster i * 6 + k)).state == .failed

/-- A spare comes into service; or, with no primary of its cluster left to stand for, one at rest or in service is spare failed
(R526, R530). DEDUCED (log entry 196): no primary is left once all six have failed; the event's cause is a free value. -/
def spareFollows (s : State) (k : Nat) : State :=
  let y := tempSensor s k
  if clusterGone s k then
    if y.state = .rest || y.state = .service then
      let d := draw s
      sensorEvent (updTemp d.2 k fun y => { y with state := .spareFailed }) k y.state .spareFailed (d.1 % 256) 0xFF y.reading
        (tempP s k) (tempQ s k)
    else s
  else if y.state = .rest then
    sensorEvent (updTemp s k fun y => { y with state := .service }) k .rest .service 5 0xFF y.reading (tempP s k) (tempQ s k)
  else s

/-- A sensor fails a check (R526, R527, R530, R531, R535): a primary fails and its cluster's spare comes in if it is at
rest; a spare becomes spare failed. The hold starts, and the floor is judged. -/
def tempFail (s : State) (i cause : Nat) : State :=
  let x := tempSensor s i
  let p := tempP s i
  let q := tempQ s i
  let k := tempSpare i
  let new : TempState := if i < 24 then .failed else .spareFailed
  let s1 := updTemp s i fun x => { x with state := new, apart := 0, near := 0, rises := 0 }
  let s2 := { s1 with therm.holdMs := 500 }
  let use := i < 24 && (tempSensor s k).state == .rest && !clusterGone s2 k
  let s3 := sensorEvent s2 i x.state new cause (if use then k else 0xFF) x.reading p q
  let s4 := if i < 24 then spareFollows s3 k else s3
  floorCheck (recordTemp (tempPoolEmpty s) s4 i (if use then some k else none))

/-- A primary becomes suspect (R527, R528). -/
def tempSuspect (s : State) (i : Nat) : State :=
  let x := tempSensor s i
  floorCheck (sensorEvent (updTemp s i fun x => { x with state := .suspect, again := false }) i .normal .suspect 0 0xFF
    x.reading (tempP s i) (tempQ s i))

/-- A reading more than 4.0 °C above the least of the last 10 ms, with 8 ms of conversions held (R527). -/
def implausible (x : TempSensor) (reading : Int) : Bool :=
  decide (8 ≤ x.hist.length) && (x.hist.take 10).any fun t => decide (64 < reading - t)

/-- What a conversion leaves in a checked sensor, before any change of its state. -/
def takeReading (s : State) (i : Nat) (reading : Int) : TempSensor :=
  let x := tempSensor s i
  let away := awayFromP s i reading
  let rise := implausible x reading
  { x with
    reading := reading
    converted := true
    hist := (reading :: x.hist).take 101
    apart := if away == some true then x.apart + 1 else if away == some false then 0 else x.apart
    near := if away == some false then x.near + 1 else 0
    rising := rise
    again := x.again || (x.state == .suspect && rise && !x.rising) }

/-- The checks of a conversion in states 0, 1, 3 and 4: rail, disagreement, then implausible rise (R527). -/
def convert (s : State) (i : Nat) (reading : Int) : State :=
  let x := takeReading s i reading
  let was := tempSensor s i
  let s1 := updTemp s i fun _ => x
  if reading ≤ -1024 || 3200 ≤ reading then tempFail s1 i 3
  else if 10 ≤ x.apart then tempFail s1 i 1
  else if x.rising then
    match was.state with
    | .normal => tempSuspect s1 i
    | .service | .rest => tempFail s1 i 0
    | _ => s1
  else s1

/-- A self-test conversion (R527): below 75 % or above 125 % of the delta the sensor is stuck; else the previous
reading stands for that 1 ms. -/
def selfTest (s : State) (i : Nat) (value : Int) : State :=
  let x := tempSensor s i
  let d := s.fuse.tempDelta.getD i 0
  let rise := (value - x.reading) * 4
  if !x.converted then s
  else if rise < 3 * d || 5 * d < rise then tempFail s i 2
  else convert s i x.reading

/-! ## Sustained rise (R529) -/

/-- Whether a sensor's rise exceeds its threshold at an evaluation. -/
def riseExceeds (x : TempSensor) : Bool :=
  let r0 := x.hist.getD 0 0
  if 101 ≤ x.hist.length then decide (8 < r0 - x.hist.getD 100 0)
  else
    let span := x.hist.length - 1
    decide (8 ≤ span) && decide (8 * (span : Int) < (r0 - x.hist.getD span 0) * 100)

/-- A checked sensor at an evaluation. -/
def riseStep (x : TempSensor) : TempSensor :=
  if x.state == .failed || x.state == .spareFailed then x
  else { x with rises := if riseExceeds x then min (x.rises + 1) 3 else 0 }

/-! ## The control period (R532 to R537) -/

/-- The duty of FAN_PWM in 1/255 (R537). -/
def fanCurve (t : Thermal) : Nat :=
  if t.tmax ≤ t.fanLo then t.fanMin
  else if t.fanHi ≤ t.tmax then 255
  else t.fanMin + ((255 - t.fanMin) * (t.tmax - t.fanLo).toNat) / (t.fanHi - t.fanLo).toNat

/-- The duty on the pin (R537, R558, R611): released, it reads as full duty; in Hibernate it shows the fan floor; else the curve
above it. -/
def fanPin (s : State) : Nat :=
  match pinPhase s with
  | .u | .a | .r => 255
  | .hibernate => s.br.policy.fanFloor
  | .w | .run | .standby => max s.therm.fanDuty s.br.policy.fanFloor

/-- Sample Tmax; a free value where no sensor has an effective temperature. -/
def sampleTmax (s : State) : State :=
  match tmaxOf s with
  | some (t, i) => { s with
    therm.tmax := t
    therm.hottest := i }
  | none => { s with
    therm.tmax := signed 16 (Config.freeNat s.draws)
    therm.hottest := Config.freeNat (s.draws + 1) % 28
    draws := s.draws + 2 }

/-- `warn` and its event (R536). -/
def warnCheck (s : State) : State :=
  let t := s.therm
  let post (s : State) (on : Bool) : State :=
    notify { s with therm.warn := on } 0x1202 t.hottest (leBytes 1 (boolNat on) ++ [0] ++ leInt 2 t.tmax) 1
  if !t.warn && 1520 ≤ t.tmax then post s true
  else if t.warn && t.tmax < 1488 then post s false
  else s

/-- Why a step down is due, if it is (R532). -/
def stepCause (s : State) : Option Nat :=
  let t := s.therm
  if 1680 ≤ t.tmax then some 0
  else if t.riseSignal && 10 ≤ t.sincePre then some 1
  else if coreLimit s < t.measuredMa then some 2
  else none

/-- A step down by 1, or its notice at the floor, once per entry (R532). -/
def stepDown (s : State) (cause : Nat) : State :=
  let pre (s : State) : State := if cause = 1 then { s with therm.sincePre := 0 } else s
  if s.therm.allow ≤ 4 then
    let s1 := if s.therm.stuckFloor then s else thermStepEvent s s.therm.allow cause
    pre { s1 with therm.stuckFloor := true }
  else
    let s1 := setAllow s (s.therm.allow - 1)
    pre (thermStepEvent { s1 with
      therm.sinceDown := 0
      therm.stepsDown := sat32 s1.therm.stepsDown 1
      therm.stuckFloor := false } s.therm.allow cause)

/-- A sustained rise stands on a sensor that enters control. -/
def riseStands (s : State) : Bool := s.therm.sensors.any fun x => 3 ≤ x.rises && entersControl x

/-- The conditions of a step up (R534). -/
def mayRaise (s : State) : Bool :=
  let t := s.therm
  t.allow < 16 && 20 ≤ t.cool && 20 ≤ t.sinceDown && 10 ≤ t.sinceUp && !t.riseSignal && !riseStands s &&
    t.holdMs == 0 && !t.floor

def stepUp (s : State) : State :=
  let s1 := setAllow s (s.therm.allow + 1)
  thermStepEvent { s1 with
    therm.sinceUp := 0
    therm.stepsUp := sat32 s1.therm.stepsUp 1 } s.therm.allow 4

/-- One control period with the measured current (R532 to R537). -/
def controlPeriod (s : State) (ma : Nat) : State :=
  let s1 := sampleTmax { s with
    therm.measuredMa := ma
    therm.ceilingNow := s.therm.ceilingMa
    therm.sinceDown := min 20 (s.therm.sinceDown + 1)
    therm.sinceUp := min 20 (s.therm.sinceUp + 1)
    therm.sincePre := min 20 (s.therm.sincePre + 1) }
  let s2 := { s1 with therm.cool := if s1.therm.tmax < 1600 then min 20 (s1.therm.cool + 1) else 0 }
  let s3 := match stepCause s2 with
    | some c => stepDown s2 c
    | none =>
      let s3 := { s2 with therm.stuckFloor := false }
      if mayRaise s3 then stepUp s3 else s3
  let s4 := warnCheck s3
  { s4 with
    therm.fanDuty := fanCurve s4.therm
    therm.riseSignal := false
    therm.holdMs := s4.therm.holdMs - 10 }

/-! ## Touchstone (R538 to R540) -/

/-- Targets of a class on this part, and the bits of a target's code (R538). -/
def calTargets (f : Fuse) (c : Nat) : Nat :=
  match c with
  | 0 => serialLanes f + spareLanes f
  | 1 => 6
  | 2 => 2 * dramChannels f
  | 3 => 2
  | 4 => 16
  | 5 => 28
  | _ => 0
def calBits (c target : Nat) : Nat :=
  match c with
  | 0 => 6 | 1 => 5 | 2 => 6 | 3 => 4
  | 4 => if target % 2 = 0 then 10 else 8
  | _ => 8

def calClass (s : State) (c : Nat) : CalClass := s.therm.classes.getD c {}
def updClass (s : State) (c : Nat) (f : CalClass → CalClass) : State :=
  { s with therm.classes := modAt s.therm.classes c f }
def updTarget (s : State) (c t : Nat) (f : CalTarget → CalTarget) : State :=
  updClass s c fun x => { x with targets := modAt x.targets t f }

/-- A pass of a class starts; one under way goes on (R538, R542). -/
def startPass (s : State) (c : Nat) : State :=
  if (calClass s c).running || s.therm.rcalFault then s
  else updClass s c fun x => { x with
    running := true, startedAt := s.time.c.toNat, corrections := 0, disagreements := 0, measured := 0, largest := 0
    targets := x.targets.map fun t => { t with done := false } }

/-- PIPE clocks as whole ms. -/
def clocksMs (k : Nat) : Nat := k / 1228800

/-- A pass ends once every target has been measured, with its correction applied, or has starved. -/
def passCheck (s : State) (c : Nat) : State :=
  let x := calClass s c
  if x.running && (x.targets.take (calTargets s.fuse c)).all (·.done) then
    notify (updClass s c fun x => { x with
      running := false, passes := sat32 x.passes 1, lastLargest := x.largest }) 0x1206 c
      (leBytes 2 x.measured ++ leBytes 2 x.corrections ++ leBytes 2 x.disagreements ++ leBytes 1 x.largest ++ [0] ++
        leBytes 4 (clocksMs (s.time.c.toNat - x.startedAt))) 6
  else s

/-- An interval passes without a gap for a target; the fourth starves it (R538). -/
def starveStep (s : State) (c : Nat) : State :=
  (List.range (calTargets s.fuse c)).foldl (fun s t =>
    let x := (calClass s c).targets.getD t {}
    if x.done then s
    else
      let s1 := updTarget s c t fun y => { y with waits := y.waits + 1, done := y.done || 4 ≤ y.waits + 1 }
      if x.waits + 1 = 4 then
        setLeaf (updClass (updTarget s1 c t fun y => { y with next := none }) c fun y => { y with
          starved := sat32 y.starved 1 }) 18 7
      else s1) s

/-- The first pair of codes that agree among at most four tries (R539). -/
def agreeing (agree : Nat) (tries : List (Nat × Nat)) : Option (Nat × Nat) :=
  (tries.take 4).find? fun p => (p.1 - p.2) + (p.2 - p.1) ≤ agree

/-- The code two agreeing measurements give: their mean, a half taken to the side of the code in force (R539). -/
def agreedCode (inForce : Nat) (p : Nat × Nat) : Nat :=
  let v := (p.1 + p.2) / 2
  if (p.1 + p.2) % 2 = 1 && v < inForce then v + 1 else v

end Sys2Proof.Machine
end

