-- ==== Sys2Proof/Machine/ResetOps.lean ====
section
/-! DEFINITION. The resets of chapter 24: what a soft or watchdog reset does to running work, what a reset of
everything but Bedrock leaves, how boot builds its pools from the ledger, and the policy of chapter 23. -/

namespace Sys2Proof.Machine

/-! ## Bedrock's stops and gate (R545, R560, R562) -/

/-- SYS_FAULT_N is driven low: before step 3 of boot, in a fault hold, after a failed boot, and from a thermal trip
(R545, R559, R581, R611, R612). -/
def sysFaultLow (s : State) : Bool :=
  !s.pwr.powered || s.br.hold.isSome || s.pwr.failed || s.br.trip ||
    (s.pwr.booting == some .cold && s.pwr.phase < 3)

/-- The rank of a stop's cause (R562). -/
def stopRank (cause : Nat) : Nat :=
  match cause with
  | 4 => 6 | 5 => 5 | 3 => 4 | 2 => 3 | 6 => 2 | 1 => 1 | _ => 0

/-- A Bedrock stop records its cause; while a hold stands, the higher-ranking cause stays (R562). -/
def setStop (s : State) (cause : Nat) : State :=
  if s.br.hold.isSome && stopRank cause < stopRank s.br.lastStop then s else { s with br.lastStop := cause }

/-- The Flint gate closes: every injector disarms, and both are reported (R417, R560). -/
def closeFlint (s : State) : State :=
  if s.br.flintGate then flintDisarm (bedrockLeaf { s with br.flintGate := false } 9 0xFF false 0 0) else s

/-- The Flint gate opens where its conditions hold. -/
def openFlint (s : State) : State :=
  if s.br.testEn && flintAllowed s && !s.br.flintGate then bedrockLeaf { s with br.flintGate := true } 9 0xFF true 0 0
  else s

/-! ## Work at a soft or watchdog reset (R568) -/

/-- Owned commands are discarded (R68, R69), and mailboxes are not ready. -/
def discardCommands (s : State) : State :=
  { s with
    mbx := { s.mbx with
      slots := [], db := Vector.replicate 40 0, arrival := [], started := [], heldSlots := [], done := 0
      ready := false, activating := false, discarded := sat32 s.mbx.discarded s.mbx.arrival.length }
    pwr.activateSlot := none
    pwr.dropped := s.mbx.arrival.length }

/-- A buffer that a discarded frame was filling is never completed. -/
def endFilling (state : Nat) : Nat := if state = 0 then 2 else state

/-- A sensor stops at once: its open frame is dropped, its ring emptied, its configuration kept (R568). A capture's final pass goes on,
its accumulator kept (R163, R176). -/
def resetSensor (s : State) (sn : Nat) : State :=
  let s1 := if (openIngest s sn).any fun f => f.drop.isNone then countCheck (setLeaf s 3 (4 * sn + 2)) sn 13 3 1 else s
  let s2 := if (sensorOf s1 sn).streaming then leaveStreaming s1 sn else cancelDeferred s1 sn
  updSensor s2 sn fun x => { x with
    stopping := false, frames := []
    freeSlots := List.range ((x.cfg.map (·.depth)).getD 0)
    slBufs := x.slBufs.map fun b => { b with state := endFilling b.state } }

/-- Engines, renditions, streams and memory jobs: frames not complete are discarded, with no events (R568). -/
def resetPixels (s : State) : State :=
  let s1 := settleRnds (settleLanes (settleCredit s))
  sweep { s1 with
    img.buses := List.replicate 6 []
    img.sched.engines := s1.img.sched.engines.map fun e => { e with running := none }
    img.sched.returned := []
    img.rnds := s1.img.rnds.map fun r => { r with
      taken := none, bufs := r.bufs.map fun b => { b with state := endFilling b.state } }
    codec.streams := s1.codec.streams.map fun t => { t with frames := [], out := [], history := [], eff := none }
    codec.jobs := List.replicate 16 none
    codec.lanes := s1.codec.lanes.map fun l => { l with running := none }
    codec.returned := [] }

/-- Recording stops with its clips open and its volumes unmounted (R568). -/
def resetRecording (s : State) : State :=
  (List.range 8).foldl (fun s c => release s (.preroll c)) { s with recs := {} }

/-- A domain with a source goes into holdover (R568). -/
def resetDomain (s : State) (d : Nat) : State :=
  match (domOf s d).source with
  | .ptp => loseSource s d 2
  | .flow => loseSource s d 3
  | .sync => loseSource s d 4
  | _ => s

/-- Every domain that has a source loses it on one PIPE clock (R486, R568). -/
def resetDomains (s : State) : State := followViews ((List.range 2).foldl resetDomain s)

/-- Flows of kinds 1 to 4 are lost, the partner told; PTP peers are forgotten (R568, R575). The loss's cause code is a
free value. -/
def resetFlows (s : State) : State :=
  let d := draw s
  let told := d.2.ring.flows.filter fun f => f.kind ≤ 4
  let s1 := told.foldl (fun s f => flowEnd (if f.state = 2 then sendClose s f else s) f 2 (d.1 % 256)) d.2
  let s2 := { s1 with ring.flows := s1.ring.flows.filter fun f => f.kind != 6 }
  updDom (updDom s2 0 fun x => { x with masters := [] }) 1 fun x => { x with masters := [] }

/-- Outputs, senders, display and audio stop as on disable, their settings kept (R568). -/
def resetOutputs (s : State) : State :=
  let s1 := (List.range 12).foldl (fun s i => outEnd (if (outOf s i).enabled then outDisable s i else s) i) s
  let s2 := updDisp s1 fun d => { d with
    enabled := false, finishing := false, sent := none, pending := none, held := none, line := none, fetched := []
    store := [], composed := [], dcs := [] }
  let s3 := audStop s2 31 (classS s2)
  updAud s3 fun a => { a with starts := [], stops := [] }

/-- What a soft reset finds of the ledger: after a failed write, what the flash holds (R596). -/
def flashOnly (f : Fuse) (x : Spares) : Spares := if x.ledgerFault then readLedger f x else x

/-! ## What Hibernate does not keep (R513, R574) -/

/-- DRAM objects that belong to a sensor: its ring and outputs, the renditions bound to it, and the maps and the table
and lattice copies that its sets name (R574). -/
def ownsRegion (s : State) (sn : Nat) (r : Region) : Bool :=
  let x := sensorOf s sn
  match r.obj with
  | .ring k | .statsRing k | .accum k | .column k | .slFrame k | .rnd0 k => k == sn
  | .tap k _ => k == sn
  | .rendition k => (rndOf s k).sensor == some sn
  | .copy =>
    (copiesOf x.shadow ++ copiesOf x.active ++ (match x.pendingSet with
      | some p => copiesOf p.params
      | none => [])).contains r.base
  | .map h =>
    x.shadow.defect.map == some h || x.active.defect.map == some h ||
      x.pendingSet.any fun p => p.params.defect.map == some h
  | _ => false

/-- Sensors that Hibernate clears: configured, with an object not wholly in kept segments (R574). -/
def hibSensors (s : State) : List Nat :=
  (List.range 4).filter fun sn => (sensorOf s sn).cfg.isSome &&
    s.mem.regions.any fun r => ownsRegion s sn r && !keptRange s r.base r.size

/-- Map handles that Hibernate frees. -/
def hibMaps (s : State) : List Nat :=
  (List.range 16).filter fun h => s.mem.regions.any fun r => r.obj == .map h && !keptRange s r.base r.size

/-- DRAM keeps only what lies in kept segments (R513). -/
def keepDram (s : State) : State :=
  { s with
    dram := memKeep s.dram fun a => keptRange s a 1
    mem.poison := s.mem.poison.filter fun a => keptRange s a 1 }

/-- Sensors and maps that lie outside the kept segments are cleared, and DRAM there is lost (R574, R575). -/
def dropUnkept (s : State) : State :=
  let s1 := (hibSensors s).foldl clearSensor s
  keepDram ((hibMaps s).foldl (fun s h => release { s with img.maps := s.img.maps.set h none } (.map h)) s1)

/-- The start of a soft or watchdog reset, or of the one that reverts an activation (R566 to R568, R582). One out of Hibernate loses what Hibernate does not keep. -/
def softReset (kind : ResetKind) (s : State) : State :=
  let s0 := if s.pwr.state = .hibernate then
      s.pwr.savedLanes.foldl (fun s a => setLane s a 2 0) { dropUnkept s with pwr.savedPorts := [], pwr.savedLanes := [] }
    else s
  let s1 := closeFlint (discardCommands s0)
  let s2 := resetRecording (resetPixels ((List.range 4).foldl resetSensor s1))
  let s3 := controllerReset ((List.range 4).foldl finishPort s2)
  let s4 := resetOutputs (resetFlows (resetDomains s3))
  { s4 with
    ring.injectors := List.replicate 14 {}
    spare := flashOnly s4.fuse s4.spare
    pwr := { s4.pwr with
      booting := some kind, phase := 7, failed := false, cause := 0, state := .run, move := none, wakePending := none
      staging := none } }

/-- Whether a boot in progress may go past step 3 (R579, R581, and the pins' rules of chapter 26). -/
def mayBoot (s : State) (k : ResetKind) : Bool :=
  s.pwr.powered && !s.pwr.failed && s.br.hold.isNone &&
    (!(k == .cold || k == .resetN) || (s.pwr.phase == 3 && !s.pwr.resetNLow && (!s.br.plossLow || s.br.ploss)))

/-- Bedrock performs a watchdog reset (R556, R562). In a cold or RESET_N boot that has gone past step 3 it starts the boot's last
steps again, and the boot is a watchdog reset's when it ends. -/
def watchdogReset (s : State) : State :=
  if s.pwr.failed || s.br.hold.isSome then s
  else if s.br.ploss then { s with br.wdDeferred := true }
  else
    let s1 := setStop { s with br.wdResets := sat32 s.br.wdResets 1 } 1
    match s.pwr.booting with
    | some .cold => if mayBoot s .cold then { s1 with pwr.wdInBoot := true } else s
    | some .resetN => if mayBoot s .resetN then { s1 with pwr.wdInBoot := true } else s
    | _ => softReset .watchdog s1

/-! ## Pools from the ledger (R586, R597) -/

/-- The event of the latest entry of a resource that has no bank. -/
def latestEvent (l : List LedgerEntry) (cls index : Nat) : Option Nat :=
  ((l.reverse.find? fun e => e.cls == cls && e.index == index)).map (·.event)
def retiredUnit (l : List LedgerEntry) (cls p : Nat) : Bool := latestEvent l cls p == some 0

/-- Physical units of logical indexes 0 to n − 1 of a pool with one spare, unit n, and the indexes without one. -/
def mapUnits (n : Nat) (bad : Nat → Bool) : List Nat × List Nat :=
  let out := (List.range n).filter bad
  let take := if bad n then none else out.head?
  ((List.range n).map fun i => if take = some i then n else i, out.filter fun i => take != some i)

/-- Spare banks of each unit of an array (R587). -/
def arrayBanks (array : Nat) : Nat := [16, 20, 208, 32, 24, 48, 1024, 1024, 4, 32, 8, 2, 2, 16, 256].getD array 0
def arraySpares (array : Nat) : Nat := max 1 (ceilDiv (arrayBanks array) 64)

/-- Spare banks of a unit that are left. -/
def sparesLeft (retired : List BankId) (array unit : Nat) : Nat :=
  arraySpares array - (retired.filter fun b => b.array == array && b.unit == unit).length

/-- Retire a bank to a spare of its unit, or without one (R588, R590). -/
def retireBank (x : Spares) (b : BankId) : Spares :=
  if 0 < sparesLeft x.retired b.array b.unit then { x with retired := x.retired ++ [b] }
  else { x with overdrawn := x.overdrawn ++ [b] }

/-- The temperature sensors as the ledger gives them: a spare is in service for a retired sensor of its cluster (R597). -/
def ledgerSensors (l : List LedgerEntry) : List TempSensor :=
  (List.range 28).map fun i =>
    if i < 24 then { state := if retiredUnit l 6 i then .failed else .normal }
    else { state := match latestEvent l 6 i with
      | some 0 => .spareFailed
      | some 1 => if (List.range 6).any fun k => retiredUnit l 6 (6 * (i - 24) + k) then .service else .rest
      | _ => .rest }

/-- The remap entries of a channel as the ledger gives them (R516, R595). -/
def ledgerRows (l : List LedgerEntry) (ch : Nat) : List DramRow :=
  ((ledgerOpen l).filter fun e => e.cls == 7 && e.index == ch).map fun e =>
    { rank := e.bank / 4096, bank := e.bank % 4096, row := e.detail, corrections := e.count, poisoned := e.cause == 0 }

/-- Build every pool from the ledger that the flash holds (R597). -/
def buildPools (s : State) : State :=
  let x := readLedger s.fuse s.spare
  let l := x.ledger
  let e := mapUnits (stripeActive s.fuse) (retiredUnit l 1)
  let c := mapUnits (lanesEnc s.fuse) (retiredUnit l 2)
  let k := mapUnits 4 (retiredUnit l 3)
  let banks := (l.filter fun e => e.cls == 4 && e.event == 0).map fun e => ⟨e.index / 256, e.index % 256, e.bank⟩
  { s with
    spare := banks.foldl retireBank { x with
      retired := [], overdrawn := [], coreMap := k.1
      coreFailed := (List.range 5).map fun p => retiredUnit l 3 p }
    img.sched.logical := e.1
    img.sched.lost := e.2
    img.sched.engines := (List.range 9).map fun p => { failed := retiredUnit l 1 p }
    codec.logical := c.1
    codec.lost := c.2
    codec.lanes := (List.range 5).map fun p => { failed := retiredUnit l 2 p }
    therm.sensors := ledgerSensors l
    mem.channels := s.mem.channels.mapIdx fun i ch =>
      let rows := remapRows (ledgerRows l i)
      { ch with remap := rows, awaitPpr := rows.length } }

/-! ## A reset of everything but Bedrock (R566, R575) -/

/-- A count carried over a reset of C to 0, so that differences from it still hold. -/
def carryCount (s : State) (c : Option Int) : Option Int := c.map (· - (s.time.c.toNat : Int))

/-- What the flash and the fuses keep of `Power` (R575, R576). -/
def flashPower (p : Power) : Power :=
  { powered := p.powered, resetNLow := p.resetNLow, record := p.record, active := p.active, recGen := p.recGen, slots := p.slots,
    stagedSlot := p.stagedSlot, booting := some .resetN, phase := 3 }

/-- Banks an array that no unit owns runs without from a cold power-on on: those its ledger retired with no spare bank
left (R590). -/
def coldGone (x : Spares) (f : Fuse) : List BankId :=
  (x.overdrawn.filter fun b => [4, 8, 9, 10, 11, 12, 14].contains b.array || b.array == 2 && stripeActive f < b.unit).eraseDups

/-- Event queues, metadata FIFOs and replay buffers without the banks that are gone (R590). -/
def withoutBanks (s : State) : State :=
  let lost (array unit : Nat) (half : Nat → Bool) : Nat :=
    (s.spare.gone.filter fun b => b.array == array && b.unit == unit && half b.bank).length
  { s with
    queues := s.queues.mapIdx fun i q => { q with
      missing := if i < 4 then lost 10 0 (· / 2 == i) else lost 11 (i - 4) fun _ => true }
    ring.ports := s.ring.ports.mapIdx fun i p => { p with lostBanks := lost 8 i fun _ => true } }

/-- Everything but Bedrock goes to its cold value, and boot starts again at step 3, or waits in a fault hold. A
power-loss response that runs goes on, with nothing left to drain. -/
def fullReset (hold : Option FaultHold) (s : State) : State :=
  let goes := s.br.ploss && hold.isNone
  withoutBanks <| buildPools { ({} : State) with
    pending := s.pending
    fuse := s.fuse
    draws := s.draws
    mbx.staged := s.pwr.stagedSlot.isSome
    br := { s.br with
      spwrOn := [false, false, false, false], spwrSeq := [.idle, .idle, .idle, .idle], held := []
      ploss := goes, trip := goes && s.br.trip, drained := goes, pointPassed := goes && s.br.pointPassed
      flintGate := false, spwrOffAt := [none, none, none, none], lsAt := carryCount s s.br.lsAt, lsInBoot := false, lastPowerOn := carryCount s s.br.lastPowerOn
      wdDeferred := false, hold := hold
      notices := if s.br.flintGate then s.br.notices ++ [⟨9, 0xFF, false, 0, 0, classL s⟩] else s.br.notices }
    clk := { s.clk with stopping := false, lostInBoot := false, holdoverAt := carryCount s s.clk.holdoverAt }
    pwr := flashPower s.pwr
    spare := { halves := s.spare.halves, half := s.spare.half, gone := s.spare.gone }
    gate.ports := s.gate.ports.map fun p => { disk := p.disk }
    gate.stopped := if goes then some 0 else none
    pins.board := s.pins.board }

/-- Cold power-on: only the flash, the fuses and the drives keep anything (R575). -/
def coldReset (s : State) : State :=
  let f := fullReset none s
  withoutBanks { f with
    spare.gone := coldGone f.spare s.fuse
    br := { flashPolicy := s.br.flashPolicy }
    clk := {}
    gate.stopped := none
    pwr := { f.pwr with booting := some .cold, phase := 0 } }

/-! ## The policy (R547 to R549) -/

/-- A sensor's 16 bytes of a policy block. -/
def sensPolicyOf (b : List Byte) (k : Nat) : SensPolicy :=
  let o := 0x20 + 16 * k
  { grant := fld b o 1 == 1, pgUse := fld b (o + 1) 1 == 1, pgTimeoutMs := fld b (o + 2) 2,
    settleMs := fld b (o + 4) 2, offMs := fld b (o + 6) 2 }

/-- Whether every field of a policy block holds a legal value (R548). -/
def policyLegal (f : Fuse) (b : List Byte) : Bool :=
  b.length == 0x140 && fld b 0 4 == 0x50425242 && fld b 4 2 == 1 && fld b 6 2 == 0 && f.polMinCounter ≤ fld b 8 4 &&
  (fld b 0x0C 8 == f.dieId || fld b 0x0C 8 == 0) && 20000 ≤ fld b 0x14 4 && fld b 0x14 4 ≤ 70000 &&
  fld b 0x19 1 ≤ 1 && 10 ≤ fld b 0x1A 2 && fld b 0x1A 2 ≤ 1000 && 100 ≤ fld b 0x1C 2 && fld b 0x1C 2 ≤ 5000 &&
  2 * fld b 0x1A 2 ≤ fld b 0x1C 2 && fld b 0x1E 1 ≤ 10 && fld b 0x1F 1 == 0 &&
  ((List.range 4).all fun k =>
    let o := 0x20 + 16 * k
    fld b o 1 ≤ 1 && fld b (o + 1) 1 ≤ 1 && 1 ≤ fld b (o + 2) 2 && fld b (o + 2) 2 ≤ 100 && fld b (o + 4) 2 ≤ 100 &&
      fld b (o + 6) 2 ≤ 50 && fld b (o + 8) 8 == 0) &&
  fld b 0x60 32 == 0

/-- A valid policy block: legal, its key the fused one, its signature good (R549). -/
def policyValid (f : Fuse) (b : List Byte) : Bool :=
  policyLegal f b && sha384 ((b.drop 0x80).take 96) == f.polKeyHash &&
    ecdsaOk ((b.drop 0x80).take 96) (b.take 0xE0) ((b.drop 0xE0).take 96)

def policyOf (b : List Byte) : Policy :=
  { polCounter := fld b 8 4, dieBind := fld b 0x0C 8, coreLimitMa := fld b 0x14 4, fanFloor := fld b 0x18 1,
    flintPermit := fld b 0x19 1 == 1, wdCoreMs := fld b 0x1A 2, wdMs := fld b 0x1C 2, staggerMs := fld b 0x1E 1,
    sens := (List.range 4).map (sensPolicyOf b), pubkey := (b.drop 0x80).take 96 }

/-- Bedrock reads its policy at cold power-on: the flash's block, or the fallback with its leaf (R547, R549). -/
def readPolicy (s : State) : State :=
  if policyValid s.fuse s.br.flashPolicy then
    { s with
      br.policy := policyOf s.br.flashPolicy
      br.fallback := false }
  else bedrockLeaf { s with
    br.policy := {}
    br.fallback := true } 8 0xFF true 0 0

end Sys2Proof.Machine
end

