-- ==== Sys2Proof/Machine/SpareOps.lean ====
section
/-! DEFINITION. Spare pools: cores, SRAM banks and what a bank's loss does, self-tests and the pools' figures
(chapter 25). -/

namespace Sys2Proof.Machine

/-! ## Flagstone cores (R62, R555, R586) -/

def coreFailed (s : State) (p : Nat) : Bool := s.spare.coreFailed.getD p false

/-- Logical cores whose physical core has failed; the logical core a physical one serves; the spare core. -/
def coresLost (s : State) : List Nat := (List.range 4).filter fun i => coreFailed s (s.spare.coreMap.getD i i)
def coreLogical (s : State) (p : Nat) : Option Nat := (List.range 4).find? fun i => s.spare.coreMap.getD i i == p
def spareCore (s : State) : Option Nat := (List.range 5).find? fun p => !coreFailed s p && (coreLogical s p).isNone

/-- A logical core moves to a physical one. -/
def mapCore (s : State) (i p cause : Nat) : State :=
  spareRecord (countSubst { s with spare.coreMap := s.spare.coreMap.set i p } 3) 3 1 cause p 0 0 0

/-- A core is declared failed: the core leaf, the ledger, and the spare in its place (R555). Commands that ran on it
complete as R62 says, which the host cannot tell from a command that ran once. -/
def coreFailFor (mid : State → State) (s : State) (p cause : Nat) : State :=
  if coreFailed s p then mid s
  else
    let had := (spareCore s).isSome
    let s1 := bedrockLeaf { s with spare.coreFailed := s.spare.coreFailed.set p true } 7 p true 0 0
    let s2 := mid (spareRecord s1 3 0 cause p 0 0 0)
    let s3 := match coreLogical s2 p, spareCore s2 with
      | some i, some q => mapCore s2 i q cause
      | _, _ => s2
    if had && (spareCore s3).isNone then setLeaf s3 21 7 else s3

/-! ## SRAM arrays (R587, R588, R590) -/

/-- Units of an array on this part. -/
def arrayUnits (f : Fuse) (array : Nat) : Nat :=
  match array with
  | 0 | 1 | 3 => stripeActive f + 1
  | 2 => stripeActive f + renditionCount f
  | 4 => renditionCount f - 1
  | 5 => lanesEnc f + 1
  | 8 => if f.ring then 8 else 0
  | 11 => 12
  | 13 => 5
  | _ => if array < 15 then 1 else 0

def bankExists (f : Fuse) (b : BankId) : Bool := b.unit < arrayUnits f b.array && b.bank < arrayBanks b.array

/-- Spare banks left in all arrays. -/
def sparesLeftAll (s : State) : Nat :=
  ((List.range 15).map fun a =>
    ((List.range (arrayUnits s.fuse a)).map fun u => sparesLeft s.spare.retired a u).sum).sum

/-- A bank is retired: ledger and event, and a substitution where its unit had a spare bank (R588, R590). -/
def bankRecord (b : BankId) (cause count : Nat) (s : State) : State :=
  let spared := 0 < sparesLeft s.spare.retired b.array b.unit
  let had := 0 < sparesLeftAll s
  let s1 := { s with spare := retireBank s.spare b }
  let s2 := spareRecord (if spared then countSubst s1 4 else s1) 4 0 cause (256 * b.array + b.unit) b.bank 0 count
  if had && sparesLeftAll s2 = 0 then setLeaf s2 21 7 else s2

/-! ## What a failed bank held (R588) -/

/-- Mark with `gap` the records that follow a lost one (R588). -/
def gapAfter : Bool → List EvRecord → List EvRecord
  | _, [] => []
  | prev, r :: l => (if prev && !r.erased then { r with gap := true } else r) :: gapAfter r.erased l

/-- The records of a queue in one of its two banks are lost: `EQ_LOST` counts them, and the next surviving one carries
`gap` (R85, R588). DEDUCED: every position stands, so `rec_seq` and the order of the four positions hold, and
`rd` passes over the positions that hold no record any more (log entry 138). -/
def Queue.loseBank (q : Queue) (half : Nat) : Queue :=
  let here (i : Nat) : Bool := 0 < q.missing || (q.rel + BitVec.ofNat 32 i).toNat % 1024 / 512 == half
  let gone (i : Nat) : Bool := here i && !(q.recs.getD i {}).erased
  let idx := (List.range q.recs.length).filter gone
  if idx.isEmpty then q
  else
    let recs := gapAfter false (q.recs.mapIdx fun i r => if gone i then { r with erased := true } else r)
    Queue.skipLost { q with
      recs := recs
      gapNext := (recs.getLast?.map (·.erased)).getD false
      lost := sat32 q.lost idx.length
      lostLeaf := true }

def loseRecords (s : State) (qi half : Nat) : State := attnEdge s (updQueue s qi (·.loseBank half))

/-- Pixels of a display line that a failed bank held are sent as those of the line before; line 0 has none before it,
and its pixels are free values (R588). A span is a line, its first pixel and their number. -/
def lostSpan (s : State) (span : Nat × Nat × Nat) : State :=
  let (y, x, n) := span
  let d := draw s
  let before := storeLine s (y - 1)
  let px := (storeLine s y).mapIdx fun i p =>
    if x ≤ i && i < x + n then (if y = 0 then Config.freeNat (s.draws + i) % 2 ^ 30 else before.getD i 0) else p
  if s.disp.cfg.vActive ≤ y then s
  else updDisp d.2 fun dd => { dd with store := (y, px) :: dd.store.filter fun e => e.1 != y }

/-- The flits of one VC, cut into frames, each flit with a mark. -/
def flitRuns : List (HeldFlit × Bool) → List (List (HeldFlit × Bool))
  | [] => []
  | h :: l => match flitRuns l with
    | [] => [[h]]
    | r :: rs => if r.head?.any (·.1.sof) then [h] :: r :: rs else (h :: r) :: rs

/-- The replay buffer without the frames that have a flit in a failed bank (R588); a frame still arriving goes with its
flits. DESIGN CHOICE: flit n stands at position n mod 1,024 of the buffer, 256 to a bank (log entry 228). -/
def loseFlits (bank : Nat) (p : RingPort) : RingPort :=
  let runs (vc : Nat) (cur : List HeldFlit) : List (List (HeldFlit × Bool)) := flitRuns
    (((p.held.filter (·.vc == vc)).map fun h => (h, h.seq % 1024 / 256 == bank)) ++ cur.map fun h => (h, false))
  let keep (l : List (List (HeldFlit × Bool))) : List HeldFlit :=
    ((l.filter fun r => !r.any (·.2)).flatten).map (·.1)
  let opened (l : List (List (HeldFlit × Bool))) (o : Option (Frame × Nat)) : Option (Frame × Nat) :=
    if l.getLast?.any fun r => r.any (·.2) && !r.getLast?.any (·.1.eof) then none else o
  let r0 := runs 0 p.cur0
  let r1 := runs 1 p.cur1
  { p with
    held := keep r0 ++ keep r1, cur0 := [], cur1 := []
    open0 := opened r0 p.open0, open1 := opened r1 p.open1 }

/-- A replay bank fails: the link fails with cause 2, and the frames whose flits survive take the other way (R395, R401,
R588). -/
def loseReplay (s : State) (u bank : Nat) : State :=
  linkFail (if (ringPort s u).state = 2 then updPort s u (loseFlits bank) else s) u 2

/-- A fault retirement with a spare bank in the bank's place: the bank's content is recovered (R588, R589); what an event
queue held is lost before the retirement's own record comes. -/
def bankRecover (s : State) (b : BankId) (spans : List (Nat × Nat × Nat)) : State :=
  let rec1 := bankRecord b 0 0
  let test (c : Nat) (s : State) : State := { s with spare.testing := s.spare.testing ++ [(c, b.unit, false)] }
  match b.array with
  | 0 | 1 | 3 =>
    if (s.img.sched.engines.getD b.unit {}).failed || b.array = 3 then rec1 s
    else test 1 (engineFailFor rec1 s b.unit 0)
  | 5 => if (lane s b.unit).failed then rec1 s else test 2 (laneFailFor rec1 s b.unit 0)
  | 7 => spans.foldl lostSpan (rec1 s)
  | 8 => loseReplay (rec1 s) b.unit b.bank
  | 10 => rec1 (loseRecords s (b.bank / 2) (b.bank % 2))
  | 11 => rec1 (loseRecords s (4 + b.unit) b.bank)
  | 12 | 14 => watchdogReset (rec1 s)
  | 13 => coreFailFor rec1 s b.unit 0
  | _ => rec1 s

/-! ## Arrays without a spare bank (R590, R591) -/

/-- Windows that no longer fit shrink by 256 KiB at a time, from the highest port that has one. -/
def shrinkWindows : Nat → State → State
  | 0, s => s
  | k + 1, s =>
    if ((List.range 4).map fun p => (gatePort s p).windowKib).sum ≤ windowLimit s then s
    else match ((List.range 4).reverse).find? fun p => 0 < (gatePort s p).windowKib with
      | some p => shrinkWindows k (updGatePort s p fun q => { q with windowKib := q.windowKib - 256 })
      | none => s

/-- A retirement with no spare bank left (R590, R591); pixels of the display frame store that a fault took are sent as
those of the line before (R588). -/
def bankOverdraw (s : State) (b : BankId) (cause count : Nat) (spans : List (Nat × Nat × Nat)) : State :=
  let note := bankRecord b cause count
  let engine := (b.array ≤ 1 || b.array = 3 || b.array = 2) && b.unit ≤ stripeActive s.fuse
  if engine then engineFailFor note s b.unit 2
  else match b.array with
    | 5 => laneFailFor note s b.unit 3
    | 6 => shrinkWindows 64 (note s)
    | 7 => spans.foldl lostSpan (note s)
    | 13 => coreFailFor note s b.unit 2
    | _ => watchdogReset (note s)

/-- The bank has already left an array that lives on without it: at once for arrays 6 and 7, else from the next cold
power-on (R590). -/
def bankGone (s : State) (b : BankId) : Bool :=
  s.spare.gone.contains b || (b.array == 6 || b.array == 7) && s.spare.overdrawn.contains b

/-! ## Self-tests (R589, SPARE_RETURN) -/

/-- A unit passes: it is healthy again, and takes a lost logical index if there is one. -/
def unitReturned (s : State) (cls p cause : Nat) : State :=
  match cls with
  | 1 =>
    let s0 := settleCredit s
    let s1 := spareRecord { s0 with
      img.sched.engines := modAt s0.img.sched.engines p fun e => { e with failed := false } } 1 2 cause p 0 0 0
    overloadCheck (match s1.img.sched.lost with
      | [] => s1
      | i :: rest => spareRecord (countSubst { s1 with
          img.sched.logical := s1.img.sched.logical.set i p
          img.sched.lost := rest } 1) 1 1 cause p 0 0 0)
  | 2 =>
    let s1 := spareRecord (updLane s p fun l => { l with failed := false }) 2 2 cause p 0 0 0
    (match s1.codec.lost with
      | [] => s1
      | i :: rest => spareRecord (countSubst { s1 with
          codec.logical := s1.codec.logical.set i p
          codec.lost := rest } 2) 2 1 cause p 0 0 0)
  | 3 =>
    let s1 := spareRecord { s with spare.coreFailed := s.spare.coreFailed.set p false } 3 2 cause p 0 0 0
    (match coresLost s1 with
      | [] => s1
      | i :: _ => if (coreLogical s1 p).isSome then s1 else mapCore s1 i p cause)
  | _ =>
    let k := tempSpare p
    let s1 := if p < 24 then
        updTemp (updTemp s p fun x => { restartHistory x with state := .normal, apart := 0, near := 0 }) k fun y =>
          if y.state = .service then { y with state := .rest } else y
      else updTemp s p fun x => { restartHistory x with state := .rest, apart := 0, near := 0 }
    floorCheck (spareRecord s1 6 2 cause p 0 0 0)

/-- A unit of a class that a self-test may return has failed. -/
def unitFailed (s : State) (cls p : Nat) : Bool :=
  match cls with
  | 1 => (s.img.sched.engines.getD p {}).failed
  | 2 => (lane s p).failed
  | 3 => coreFailed s p
  | 6 => (tempSensor s p).state == .failed || (tempSensor s p).state == .spareFailed
  | _ => false

/-- Physical units of a class on this part. -/
def unitCount (f : Fuse) (cls : Nat) : Nat :=
  match cls with
  | 1 => stripeActive f + 1
  | 2 => lanesEnc f + 1
  | 3 => 5
  | 6 => 28
  | _ => 0

/-! ## The pools' figures (SPARE_STATUS) -/

/-- Spares available, units failed and spares in all of pool k. -/
def poolFigures (s : State) (k : Nat) : Nat × Nat × Nat :=
  let count (n : Nat) (p : Nat → Bool) : Nat := ((List.range n).filter p).length
  match k with
  | 0 => (count (stripeActive s.fuse + 1) fun p => !unitFailed s 1 p && (engineLogical s p).isNone,
      count (stripeActive s.fuse + 1) (unitFailed s 1), 1)
  | 1 => (count (lanesEnc s.fuse + 1) fun p => !unitFailed s 2 p && (laneLogical s p).isNone,
      count (lanesEnc s.fuse + 1) (unitFailed s 2), 1)
  | 2 => (count 5 fun p => !coreFailed s p && (coreLogical s p).isNone, count 5 (coreFailed s), 1)
  | 3 => (sparesLeftAll s, s.spare.retired.length + s.spare.overdrawn.length,
      sparesLeftAll { s with spare.retired := [] })
  | 4 => (count (spareLanes s.fuse) (spareFree s), ((laneAddrs s.fuse).filter fun a => (laneOf s a).st == 6).length,
      spareLanes s.fuse)
  | 5 => (count 4 fun c => (tempSensor s (24 + c)).state == .rest, count 28 (unitFailed s 6), 4)
  | _ =>
    let n := dramChannels s.fuse
    let used := ((s.mem.channels.take n).map fun c => c.remap.length).sum
    (256 * n - used, used, 256 * n)

/-- A count in a byte; one that does not fit is a free value. -/
def byteCount (s : State) (n : Nat) : Byte × State :=
  if n < 256 then (BitVec.ofNat 8 n, s) else (BitVec.ofNat 8 (draw s).1, (draw s).2)

/-- A pool's 8 bytes of `SPARE_STATUS`. -/
def poolBytes (acc : List Byte × State) (k : Nat) : List Byte × State :=
  let s := acc.2
  let (free, failed, all) := poolFigures s k
  let a := byteCount s free
  let b := byteCount a.2 failed
  (acc.1 ++ [a.1, b.1] ++ leBytes 1 (if free = 0 then 2 else if free < all then 1 else 0) ++ [0] ++
    leBytes 4 (s.spare.substitutions.getD k 0), b.2)

end Sys2Proof.Machine
end

