-- ==== Sys2Proof/Machine/Therm.lean ====
section
/-! DEFINITION. The thermal and calibration commands and events (chapter 22). -/

namespace Sys2Proof.Machine

/-! ## Commands (R541, R542) -/

/-- THERM_CONFIG (R541, R546). -/
def thermConfigCard : Card where
  opcode := 0x1201
  len := fixedLen 0x0C
  fields b s := [inRange b 0 4 20000 70000, rejIf (s.br.policy.coreLimitMa < fld b 0 4) 0x0109 0 0,
    inRange b 4 2 0 1600, resv b 9 3, eComb (fld b 6 2 ≤ fld b 4 2 || 1680 < fld b 6 2) 6]
  effect _ b s := ({ s with
    therm.ceilingMa := fld b 0 4
    therm.fanLo := fld b 4 2
    therm.fanHi := fld b 6 2
    therm.fanMin := fld b 8 1 }, .now [])

def execThermConfig (n : Fin 40) (s : State) : Host.Outcome State Fault Refusal :=
  .next (mbxRun thermConfigCard n.val s)

/-- One sensor of `THERM_STATUS`. -/
def tempBlock (s : State) (i : Nat) : List Byte :=
  let x := tempSensor s i
  leInt 2 x.reading ++ leBytes 2 (match tempEff s i with
      | some t => unsigned 16 t
      | none => 0x8000) ++
    leBytes 1 x.state.code ++ leBytes 1 (tempCluster i) ++
    leBytes 1 (boolNat (x.hist.length < 8) + 2 * boolNat (3 ≤ x.rises)) ++ [0]

/-- The response of `THERM_STATUS`. -/
def thermStatusBytes (s : State) : List Byte :=
  let t := s.therm
  leBytes 1 t.allow ++
    leBytes 1 (boolNat t.warn + 2 * boolNat t.floor + 4 * boolNat (t.holdMs != 0) + 8 * boolNat (riseStands s)) ++
    leInt 2 t.tmax ++ leBytes 1 t.hottest ++ leBytes 1 t.fanDuty ++ [0, 0] ++
    leBytes 4 t.ceilingMa ++ leBytes 4 (coreLimit s) ++ leBytes 4 t.measuredMa ++ leBytes 4 t.stepsDown ++
    leBytes 4 t.stepsUp ++ leBytes 4 t.holdMs ++ (List.range 28).flatMap (tempBlock s)

/-- THERM_STATUS (R541). -/
def thermStatusCard : Card where
  opcode := 0x1202
  len := fixedLen 4
  fields b _ := [inRange b 0 1 0 1, resv b 1 3]
  effect _ b s :=
    (if fld b 0 1 = 1 then { s with
      therm.stepsDown := 0
      therm.stepsUp := 0 } else s, .now (thermStatusBytes s))

def execThermStatus (n : Fin 40) (s : State) : Host.Outcome State Fault Refusal :=
  .next (mbxRun thermStatusCard n.val s)

/-- The settings of a class as `CAL_CONFIG` commands them, in force from its next interval. -/
def configClass (b : Body) (x : CalClass) (c : Nat) : CalClass :=
  { x with nextEnabled := (fld b 1 1).testBit c, nextInterval := fld b (4 + 2 * c) 2 }

/-- CAL_CONFIG (R542). -/
def calConfigCard : Card where
  opcode := 0x1203
  len := fixedLen 0x10
  fields b _ := [inRange b 0 1 1 8, inRange b 1 1 0 0x3F, resv b 2 2] ++
    (List.range 6).map fun c => inRange b (4 + 2 * c) 2 100 60000
  effect _ b s := ({ s with
    therm.nextAgree := fld b 0 1
    therm.classes := s.therm.classes.mapIdx fun c x => configClass b x c }, .now [])

def execCalConfig (n : Fin 40) (s : State) : Host.Outcome State Fault Refusal :=
  .next (mbxRun calConfigCard n.val s)

/-- CAL_RUN (R541, R542). -/
def calRunCard : Card where
  opcode := 0x1204
  len := fixedLen 4
  fields b s := [inRange b 0 1 1 0x3F, resv b 1 3,
    eComb ((List.range 6).any fun c => (fld b 0 1).testBit c && !(calClass s c).nextEnabled) 0]
  state _ s := [eStateAt s.therm.rcalFault 0]
  effect _ b s :=
    (((List.range 6).filter (fld b 0 1).testBit).foldl startPass s, .now [])

def execCalRun (n : Fin 40) (s : State) : Host.Outcome State Fault Refusal :=
  .next (mbxRun calRunCard n.val s)

/-- One class of `CAL_STATUS`. -/
def calBlock (s : State) (c : Nat) : List Byte :=
  let x := calClass s c
  leBytes 2 (calTargets s.fuse c) ++ leBytes 1 x.lastLargest ++ [0] ++ leBytes 4 x.passes ++ leBytes 4 x.applied ++
    leBytes 4 x.disagreed

def calStatusBytes (s : State) : List Byte :=
  leBytes 1 (boolNat s.therm.rcalFault) ++ [0, 0, 0] ++ leBytes 4 s.therm.rcal ++ List.replicate 8 0 ++
    (List.range 6).flatMap (calBlock s) ++ (List.range 6).flatMap fun c => leBytes 4 (calClass s c).starved

/-- CAL_STATUS (R542). -/
def calStatusCard : Card where
  opcode := 0x1205
  len := fixedLen 4
  fields b _ := [inRange b 0 1 0 1, resv b 1 3]
  effect _ b s :=
    (if fld b 0 1 = 1 then
      { s with therm.classes := s.therm.classes.map fun x => { x with
        passes := 0, applied := 0, disagreed := 0, starved := 0 } }
     else s, .now (calStatusBytes s))

def execCalStatus (n : Fin 40) (s : State) : Host.Outcome State Fault Refusal :=
  .next (mbxRun calStatusCard n.val s)

/-! ## Sensor events (R527 to R529) -/

/-- SENSOR_CONVERSION (R527): a sensor converts, with doubled bias in the self-test. A withdrawn sensor is sampled
but not checked. -/
def execSensorConversion (sensor : Fin 28) (reading : BitVec 16) (bias flash : Bool) (s : State) :
    Host.Outcome State Fault Refusal :=
  let i := sensor.val
  let v := reading.toInt
  let s0 := { s with spare.flashOk := flash }
  match (tempSensor s i).state with
  | .failed | .spareFailed =>
    .next (if bias then s else updTemp s i fun x => { x with reading := v, converted := true })
  | _ => .next (if bias then selfTest s0 i v else convert s0 i v)

/-- SUSPECT_TIMEOUT (R528): 100 ms after a primary became suspect. -/
def execSuspectTimeout (sensor : Fin 24) (flash : Bool) (s : State) : Host.Outcome State Fault Refusal :=
  let i := sensor.val
  let x := tempSensor s i
  if x.state != .suspect then .next s
  else if 10 ≤ x.near && !x.again then
    let s1 := updTemp s i fun x => restartHistory { x with state := .normal, again := false }
    .next (floorCheck (sensorEvent s1 i .suspect .normal 4 0xFF x.reading (tempP s1 i) (tempQ s1 i)))
  else .next (tempFail { s with spare.flashOk := flash } i (if x.again then 0 else 1))

/-- RISE_EVALUATION (R529): the sustained-rise check of every sensor. -/
def execRiseEvaluation (s : State) : Host.Outcome State Fault Refusal :=
  let s1 := { s with therm.sensors := s.therm.sensors.map riseStep }
  .next { s1 with therm.riseSignal := s1.therm.riseSignal || riseStands s1 }

/-- CONTROL_PERIOD (R532): 10 ms pass; `ma` is the 1 ms mean of the summed current monitors. -/
def execControlPeriod (ma : BitVec 32) (s : State) : Host.Outcome State Fault Refusal :=
  .next (controlPeriod s ma.toNat)

/-! ## Touchstone's events (R538 to R540) -/

/-- CAL_INTERVAL (R538, R542): an interval of a class ends: settings take effect, a target that had no gap waits
on or starves, and a pass starts; a class that is disabled now keeps its codes. -/
def execCalInterval (cls : Fin 6) (s : State) : Host.Outcome State Fault Refusal :=
  let c := cls.val
  let s1 := if (calClass s c).running then passCheck (starveStep s c) c else s
  let s2 := updClass { s1 with therm.agree := s1.therm.nextAgree } c fun x =>
    if x.nextEnabled then { x with enabled := true, interval := x.nextInterval }
    else { x with
      enabled := false, interval := x.nextInterval, running := false
      targets := x.targets.map fun t => { t with next := none } }
  .next (if (calClass s2 c).enabled then startPass s2 c else s2)

/-- CAL_MEASURE (R539): a target is measured in its gaps, each try a pair of codes. -/
def execCalMeasure (cls : Fin 6) (target : Fin 54) (tries : List (BitVec 10 × BitVec 10)) (s : State) :
    Host.Outcome State Fault Refusal :=
  let c := cls.val
  let t := target.val
  let x := (calClass s c).targets.getD t {}
  let m := 2 ^ calBits c t
  let codes := tries.map fun p => (p.1.toNat % m, p.2.toNat % m)
  if !(calClass s c).running || x.done || x.next.isSome || calTargets s.fuse c ≤ t then .next s
  else
    let s1 := updClass s c fun y => { y with measured := y.measured + 1 }
    match agreeing s.therm.agree codes, codes.take 4 with
    | some p, _ =>
      let v := agreedCode x.code p
      if v = x.code then .next (passCheck (updTarget s1 c t fun y => { y with waits := 0, done := true }) c)
      else .next (updTarget s1 c t fun y => { y with waits := 0, next := some v })
    | none, [_, _, _, (a, b)] =>
      let s2 := updTarget (updClass s1 c fun y => { y with
        disagreements := y.disagreements + 1, disagreed := sat32 y.disagreed 1 }) c t fun y => { y with
          waits := 0, done := true }
      let s3 := notify s2 0x1204 c (leBytes 2 t ++ leBytes 2 a ++ leBytes 2 b ++ leBytes 2 x.code) 4
      .next (passCheck s3 c)
    | none, _ => .next s

/-- A target's gap may be at hand as far as state tells (R374, R538): a serial lane's; of a CSI-2 port, which carries no
open frame; of a DSI-2 port, which is not in a line with picture. -/
def calGap (s : State) (c t : Nat) : Bool :=
  match c with
  | 0 => laneGap s (if t < 48 then t else t + 16)
  | 1 =>
    if t < 4 then !((List.range 4).any fun sn =>
      ((sensorOf s sn).cfg.any fun k => k.iface != 0 && k.first == t) && (openIngest s sn).isSome)
    else !scanning s || s.disp.line.all fun l => s.disp.cfg.vActive ≤ l
  | _ => true

/-- CAL_GAP_APPLY (R538): a correction replaces the code in force at the start of its gap. -/
def execCalGapApply (cls : Fin 6) (target : Fin 54) (s : State) : Host.Outcome State Fault Refusal :=
  let c := cls.val
  let t := target.val
  let x := (calClass s c).targets.getD t {}
  match x.next with
  | none => .next s
  | some v =>
    if !calGap s c t then .next s else
    let d := (v - x.code) + (x.code - v)
    let s1 := updTarget s c t fun y => { y with code := v, next := none, waits := 0, done := true }
    let s2 := updClass s1 c fun y => { y with
      applied := sat32 y.applied 1, corrections := y.corrections + 1, largest := max y.largest (min d 255) }
    let s3 := if c = 5 then updTemp s2 t restartHistory else s2
    .next (passCheck s3 c)

/-- `EV_CAL_RCAL`. -/
def rcalEvent (s : State) (restored : Bool) : State :=
  notify s 0x1205 0 (leBytes 1 (boolNat restored) ++ [0, 0, 0] ++ leBytes 4 s.therm.rcal) 5

/-- RCAL_CHECK (R540): RCAL measured in 0.1 Ω, within ±2 % of 2.000 kΩ or a fault, cleared by two passes. -/
def execRcalCheck (value : BitVec 32) (s : State) : Host.Outcome State Fault Refusal :=
  let good := 19600 ≤ value.toNat && value.toNat ≤ 20400
  let s1 := { s with therm.rcal := value.toNat }
  if s.therm.rcalFault then
    if !good then .next { s1 with therm.rcalGood := 0 }
    else if 1 ≤ s.therm.rcalGood then
      .next (rcalEvent { s1 with
        therm.rcalGood := 0
        therm.rcalFault := false } true)
    else .next { s1 with therm.rcalGood := 1 }
  else if good then .next s1
  else
    .next (rcalEvent { s1 with
      therm.rcalFault := true
      therm.rcalGood := 0
      therm.classes := s.therm.classes.map fun x => { x with
        running := false, targets := x.targets.map fun t => { t with next := none } } } false)

end Sys2Proof.Machine
end

