-- ==== Sys2Proof/Machine/BootOps.lean ====
section
/-! DEFINITION. What boot does at its steps, the supply windows, and the power-loss response (chapters 23, 24). -/

namespace Sys2Proof.Machine

/-! ## Supplies (R551) -/

def railNominal (k : Nat) : Nat := [750, 800, 500, 900, 1200, 1800, 800, 1800].getD k 0
def railLow (k : Nat) : Nat := railNominal k * 94 / 100
def railHigh (k : Nat) : Nat := railNominal k * 106 / 100
/-- A reading against its window. -/
def railReading (k mv : Nat) : Rail := { mv := mv, low := mv < railLow k, high := railHigh k < mv }
def railOk (s : State) (k : Nat) : Bool :=
  let r := s.br.rails.getD k {}
  !r.low && !r.high
/-- Rails 0 to 5 are in their windows. -/
def suppliesOk (s : State) : Bool := (List.range 6).all (railOk s)
def setRail (s : State) (k mv : Nat) : State := { s with br.rails := s.br.rails.set k (railReading k mv) }

/-- The supply monitors are armed: step 3 of boot is behind (R579). -/
def monitorsArmed (s : State) : Bool := s.pwr.powered && (s.pwr.booting != some .cold || 3 ≤ s.pwr.phase)

/-- Boot is held at step 3 by PLOSS_N, with no response (R609). -/
def heldAtStart (s : State) : Bool := fullBoot s && s.pwr.phase == 3 && s.br.plossLow && !s.br.ploss

/-! ## References (R32) -/

/-- The root PLL locks to an input. -/
def lockRoot (s : State) (alt : Bool) : State :=
  { s with clk := { s.clk with refSel := alt, rootLock := true, holdover := false, holdoverAt := none, lostInBoot := false } }

def refOk (s : State) (alt : Bool) : Bool := if alt then s.clk.altOk else s.clk.refclkOk

/-- Step 3 of a cold boot: with a reference and the supplies good, Bedrock reads fuses and policy and arms the supply monitors
(R547, R579, R607). DEDUCED (log entry 227): a rail that was high during its ramp then starts the over-voltage hold (R609). -/
def tryStart (s : State) : State :=
  if s.pwr.powered && s.pwr.booting = some .cold && s.pwr.phase = 2 && suppliesOk s then
    let s1 := readPolicy { s with pwr.phase := 3 }
    if s1.br.rampHigh then fullReset (some .overVoltage) (setStop { s1 with br.rampHigh := false } 4) else s1
  else s

/-! ## Steps 4 to 8 (R361, R503, R517, R540, R579) -/

/-- Step 4: Touchstone calibrates every target once, or takes the fused codes where RCAL is faulty (R540). -/
def bootCalibrate (s : State) (rcal : Nat) (codes : List (List (BitVec 10))) : State :=
  let good := 19600 ≤ rcal && rcal ≤ 20400
  { s with
    therm.rcal := rcal
    therm.rcalFault := !good
    therm.rcalReport := !good
    therm.classes := s.therm.classes.mapIdx fun c x => { x with
      targets := x.targets.mapIdx fun t y => { y with
        code := (if good then ((codes.getD c []).getD t 0).toNat else (s.fuse.calDefault.getD c []).getD t 0) % 2 ^ calBits c t } } }

/-- Why training stops, if it does: the first channel with a rank whose mode registers report what R499 does not allow or what
differs from the others (cause 2), or else the first byte lane with an eye under 16/64 UI (cause 3) (R504). -/
def trainFault (f : Fuse) (r : BootReport) : Option (Nat × Nat × Nat) :=
  let ok (c : Nat) : Bool :=
    capacityOk f && r.modes.getD c [] == List.replicate (ranksOf f) (fittedModes f)
  let narrow (c l : Nat) : Bool :=
    let x := trainedLane ((r.channels.getD c ⟨[], []⟩).sweeps.getD l ⟨[], []⟩)
    x.readEye < 16 || x.writeEye < 16
  match (List.range (dramChannels f)).find? fun c => !ok c with
  | some c => some (2, c, 0)
  | none => ((List.range (2 * dramChannels f)).find? fun k => narrow (k / 2) (k % 2)).map fun k => (3, k / 2, k % 2)

/-- The order of boot's checks: by step, then mode registers, CA training and levelling, eyes (R503). -/
def stopOrder (phase cause : Nat) : Nat := 4 * phase + (match cause with
  | 3 => 2
  | 4 => 1
  | _ => 0)

/-- Where boot stops, if it does (R504, R581): step, cause, channel, byte lane. -/
def bootStop (s : State) (full : Bool) (r : BootReport) : Option (Nat × Nat × Nat × Nat) :=
  let told := r.fail.map fun f => (f.phase.val, f.cause.val, f.channel.val, f.byteLane.val)
  let found := if full then (trainFault s.fuse r).map fun x => (5, x) else none
  match told, found with
  | some a, some b => if stopOrder b.1 b.2.1 < stopOrder a.1 a.2.1 then some b else some a
  | some a, none => some a
  | none, b => b

/-- Step 5: every bonded channel trained, and `dram_gib` (R503). -/
def bootTrain (s : State) (channels : List ChannelTraining) : State :=
  { s with
    pwr.dramGib := s.fuse.bondedGib
    pwr.dramStarted := true
    mem.channels := s.mem.channels.mapIdx fun i c =>
      if i < dramChannels s.fuse then trainChannel (channels.getD i ⟨[], []⟩) c else c }

/-- Step 6: post-package repair of the first four remapped rows whose bank group has a free repair resource; one that
succeeds frees its entry (R517, R579). -/
def bootRepair (s : State) (ppr : List RowRepair) : State :=
  let rows := (List.range 16).flatMap fun ch => (s.mem.channels.getD ch {}).remap.map fun r => (ch, r)
  ((((rows.zip ppr).filter (·.2.resource)).take 4).filter (·.2.reads)).foldl (fun s x =>
    let ch := x.1.1
    let r := x.1.2
    let s1 := updChannel s ch fun c => { c with remap := c.remap.erase r, awaitPpr := c.awaitPpr - 1 }
    spareRecord s1 7 3 (if r.poisoned then 0 else 2) ch (r.rank * 4096 + r.bank % 4096) r.row r.corrections) s

/-- Step 6: quad 0 takes PCIE-EP on PLL A from REFQ[0], and trains at the highest generation that both partners
support and the widest of the widths (R43, R361); `gen` and `width` are the partner's. -/
def bootQuad (s : State) (refq : Bool) (gen width : Nat) : State :=
  if !refq then s
  else
    let width := if gen = 0 then 0 else (pcieWidths.find? (· ≤ width)).getD 0
    { s with
      host := { s.host with epGen := if width = 0 then 0 else min gen 5, epWidth := width, epPartner := gen }
      lane.quads := modAt s.lane.quads 0 fun q => { q with refA := 0, fa := 0 }
      lane.lanes := s.lane.lanes.mapIdx fun a x =>
        if a < 4 then { presetTaps { x with pers := 4, rate := 5, pll := 0 } with st := if a < width then 3 else 2 } else x }

/-- Steps 4 to 6 of a cold or RESET_N boot, with the policy's ceiling (R541); the sensors that the ledger keeps failed may
hold the allowance at its floor (R531). -/
def bootFull (s : State) (r : BootReport) : State :=
  let s1 := { s with
    spare.flashOk := r.flash
    therm.ceilingMa := min s.br.policy.coreLimitMa 70000
    therm.ceilingNow := min s.br.policy.coreLimitMa 70000 }
  let s2 := bootTrain (bootCalibrate s1 r.rcal.toNat r.codes) r.channels
  floorCheck (bootQuad (bootRepair s2 r.ppr) r.refq r.epGen.val r.epWidth.val)

/-- A boot record up to its reserved bytes: magic, version 1, generation, active slot, then where the policy block, the ledger
and the two slots lie (R576). -/
def recordHead (gen active : Nat) : List Byte :=
  leBytes 4 0x44435242 ++ leBytes 2 1 ++ [0, 0] ++ leBytes 8 gen ++ leBytes 1 active ++ [0, 0, 0] ++ leBytes 4 0x2000 ++
    leBytes 4 0x10000 ++ leBytes 4 0x100000 ++ leBytes 4 0x900000

/-- A copy of the boot record is valid when its magic, version and check code hold (R312, R576). -/
def recordValid (c : List Byte × Nat) : Bool :=
  fld c.1 0 4 == 0x44435242 && fld c.1 4 2 == 1 && c.2 == sectorCrc c.1

/-- The copy in use: valid, of the higher generation (R312, R576). -/
def chosenRecord (p : Power) : Option (List Byte × Nat) :=
  let a := p.record.getD 0 ([], 0)
  let b := p.record.getD 1 ([], 0)
  if recordValid a && (!recordValid b || fld b.1 8 8 ≤ fld a.1 8 8) then some a else if recordValid b then some b else none

/-- What boot takes from the boot record; the other copy is rewritten from the one in use (R312, R576). -/
def readRecord (p : Power) : Power :=
  match chosenRecord p with
  | some c => { p with record := [c, c], recGen := fld c.1 8 8, active := fld c.1 0x10 1 }
  | none => p

/-- A new boot record, copy A and then copy B (R312, R582). -/
def writeRecord (p : Power) (active : Nat) : Power :=
  let h := recordHead (p.recGen + 1) active
  { p with record := [(h, sectorCrc h), (h, sectorCrc h)], recGen := p.recGen + 1, active := active }

/-- The slot that boots: the active one if it is valid, else the other (R579); none without a valid boot record (R576). -/
def bootSlotOf (p : Power) : Option Nat :=
  (chosenRecord p).bind fun c =>
    let a := fld c.1 0x10 1
    [a, 1 - a].find? fun n => (p.slots.getD n {}).valid

/-- CAP_FW of an image (R18). -/
def capFwOf (x : FwSlot) : Reg32 := BitVec.ofNat 32 (x.patch + 2 ^ 8 * x.minor + 2 ^ 16 * x.level)

/-- An image's firmware runs. -/
def runImage (s : State) (slot : Nat) (lacks : List Nat) : State :=
  let x := s.pwr.slots.getD slot {}
  { s with pwr := { s.pwr with capFw := capFwOf x, fwBuild := x.build, bootSlot := slot, fwLacks := lacks } }

/-- Bedrock releases a sensor's SPWR_EN, with its leaf (R563, R611). -/
def releaseSpwr (s : State) (sn : Nat) : State :=
  if spwrOn s sn then bedrockLeaf (setSpwr s sn false .idle) 4 sn false 0 0 else setSpwr s sn false .idle

/-- Boot stops in the hold of R581: SYS_FAULT_N low, every SPWR_EN released (R611). -/
def bootFail (s : State) (phase cause channel byteLane : Nat) : State :=
  let s1 := { s with
    br.held := []
    pwr := { s.pwr with
      failed := true, phase := phase, cause := cause, channel := channel, byteLane := byteLane
      dramStarted := s.pwr.dramStarted || 5 ≤ phase
      bootSlot := (bootSlotOf s.pwr).getD (1 - s.pwr.active) } }
  (List.range 4).foldl releaseSpwr s1

def ResetKind.code : ResetKind → Nat
  | .cold => 0 | .resetN => 1 | .soft => 2 | .watchdog => 3 | .reverted => 4

/-- A cold or RESET_N boot, which runs steps 3 to 8. -/
def ResetKind.full (k : ResetKind) : Bool := k == .cold || k == .resetN

/-- Notices that waited for mailboxes (R564). -/
def flushNotices (s : State) : State := s.br.notices.foldl postNotice { s with br.notices := [] }

/-- C stands still in a boot that runs steps 3 to 8: instants that Bedrock keeps move back by its length, and those of the
boot itself by a part of it, a free value (R34, R553, R561). -/
def passBoot (s : State) (ms : Nat) : State :=
  let d := draw s
  let back (inside : Bool) (c : Option Int) : Option Int :=
    c.map fun k => k - ((if inside then d.1 % (ms * 1228800 + 1) else ms * 1228800 : Nat) : Int)
  { d.2 with
    clk.holdoverAt := back s.clk.lostInBoot s.clk.holdoverAt
    clk.lostInBoot := false
    br.lsAt := back s.br.lsInBoot s.br.lsAt
    br.lsInBoot := false
    br.lastPowerOn := back false s.br.lastPowerOn }

/-- Step 8: CAP_FW set, mailboxes ready, `EV_PWR_RESET` posted, and what waited for it (R540, R564, R568, R579).
DEDUCED: R575 gives `epoch` its cold value after a cold or RESET_N boot, so the rise of `ready` that ends one leaves it
0, against the words of MBX_STATE that it increments each time (log entry 174). -/
def bootDone (s : State) (k : ResetKind) (slot : Nat) (lacks : List Nat) (ms : Nat) : State :=
  let s1 := runImage s slot lacks
  let s2 := { s1 with
    pwr := { s1.pwr with booting := none, phase := 8, dropped := 0, wdInBoot := false }
    mbx.ready := true
    mbx.staged := s1.pwr.stagedSlot.isSome
    mbx.epoch := if k.full && !s.pwr.wdInBoot then s1.mbx.epoch else s1.mbx.epoch + 1 }
  let s3 := if k.full then passBoot s2 ms else [0, 1].foldl askReopen s2
  let s4 := notify s3 0x1401 0 (leBytes 1 (if s.pwr.wdInBoot then 3 else k.code) ++ leBytes 1 slot ++ leBytes 1 s.br.lastStop ++ [0] ++
    leBytes 4 s.pwr.dropped ++ leBytes 4 ms) 0
  let s5 := flushNotices s4
  let s6 := if s5.therm.rcalReport then rcalEvent { s5 with therm.rcalReport := false } false else s5
  openFlint (nvmeReady s6)

/-! ## The power-loss response (R557 to R559, R562) -/

/-- Bedrock removes a sensor's power, with its leaf (R103, R554, R557). -/
def removeNoted (s : State) (sn : Nat) : State := bedrockLeaf (removePower s sn) 4 sn false 0 0

/-- At the start of a response a pending request is answered with result 2, its sequence abandoned; other powered
sensors lose their power. -/
def plossSensor (s : State) (sn : Nat) : State :=
  match (sensorOf s sn).powerReq with
  | some on => powerDone (setSpwr s sn false .idle) sn on 2
  | none => if spwrOn s sn then removeNoted s sn else s

/-- The power-loss response starts, or goes on from a further fall; a trip brings its reset point forward. `unit` and
`mv` tell the rail that caused it. -/
def plossStart (s : State) (trip : Bool) (unit mv : Nat) : State :=
  if s.br.ploss then
    { s with
      br.pointPassed := if trip then s.br.pointPassed else false
      br.trip := s.br.trip || trip }
  else
    let s1 := { s with
      br := { s.br with
        ploss := true, trip := trip, drained := false, pointPassed := false, held := []
        plossCount := sat32 s.br.plossCount 1 }
      gate.stopped := some s.time.c.toNat
      gate.drained := 0
      gate.drainUs := 0 }
    (List.range 4).foldl plossSensor (bedrockLeaf s1 2 unit true mv s1.br.plossCount)

/-- The reset at the end of a response: held as after a trip or a power loss (R558, R559). -/
def plossReset (s : State) : State :=
  if s.br.trip then fullReset (some .trip) (setStop s 3) else fullReset (some .ploss) (setStop s 2)

/-- A port's drive has a journal header; one attached for service, while units of its clip volume still retire. -/
def hasJournal (s : State) (p : Nat) : Bool :=
  ((gatePort s p).state == 1 ||
    ((gatePort s p).state == 3 && s.gate.writes.any fun w => w.port == p && w.jrec.isSome)) && leNat (memBytes (gatePort s p).disk (256 * 4096) 4) == 0x4C434A48

/-- A port's journal header records whether its drain finished, and the admitted blocks that it left (R342, R351). -/
def recordDrain (s : State) (p drain : Nat) : State :=
  if hasJournal s p then
    let left := undrained s p
    updGatePort s p fun q => { q with
      headDrain := drain, left := left
      disk := memPutBytes q.disk (256 * 4096) (journalHeader q.retiredSeq q.jhead drain left) }
  else s

/-- The ports of a mask that have drained: a write that must follow another port's holds its own port back (R339). -/
def drainedOf (s : State) (mask : Nat) : Nat :=
  (((List.range 4).filter fun p => mask.testBit p && undrained s p == 0).map (2 ^ ·)).sum

/-- The drain of every port ends: those of the mask in time, with every admitted write durable. -/
def plossDrain (s : State) (mask us : Nat) : State :=
  let s1 := drainPorts s mask
  let done := drainedOf s1 mask
  let s2 := (List.range 4).foldl (fun s p => recordDrain s p (boolNat (!done.testBit p))) s1
  { s2 with
    br.drained := true
    gate.drained := done
    gate.drainUs := us }

end Sys2Proof.Machine
end

