-- ==== Sys2Proof/Machine/Bedrock.lean ====
section
/-! DEFINITION. Bedrock's query commands and its events (chapter 23). -/

namespace Sys2Proof.Machine

/-! ## Queries (R565) -/

/-- BR_STATUS (R550, R565). -/
def brStatusCard : Card where
  opcode := 0x1301
  len := fixedLen 4
  fields b _ := [inRange b 0 1 0 1, resv b 1 3]
  effect _ _ s := (s, .now (([0, 4, 0x10, 0x14, 0x18, 0x1C] ++ (List.range 8).map (0x20 + 4 * ·)).flatMap fun off =>
    leBytes 4 (bedrockRead s off)))

def execBrStatus (n : Fin 40) (s : State) : Host.Outcome State Fault Refusal := .next (mbxRun brStatusCard n.val s)

/-- A sensor's 16 bytes of a policy. -/
def sensPolicyBytes (p : SensPolicy) : List Byte :=
  leBytes 1 (boolNat p.grant) ++ leBytes 1 (boolNat p.pgUse) ++ leBytes 2 p.pgTimeoutMs ++ leBytes 2 p.settleMs ++
    leBytes 2 p.offMs ++ List.replicate 8 0

/-- What the fallback policy holds for a sensor beyond the grant it lacks: the fuses give one legal value of each field for good,
which the spec leaves free (R548, R549). -/
def fallbackSens (k : Nat) : SensPolicy :=
  { grant := false, pgUse := Config.fallbackField (4 * k) % 2 == 1
    pgTimeoutMs := 1 + Config.fallbackField (4 * k + 1) % 100, settleMs := Config.fallbackField (4 * k + 2) % 101
    offMs := Config.fallbackField (4 * k + 3) % 51 }

/-- Bytes 0x000 to 0x0DF of the policy in force (R548, R565). What the fallback policy does not give is a free value, the same
at each read (R547); its `die_bind` is one of the two that are legal. -/
def policyBytes (s : State) : List Byte :=
  let p := s.br.policy
  let fb := s.br.fallback
  leBytes 4 0x50425242 ++ leBytes 2 1 ++ [0, 0] ++ leBytes 4 p.polCounter ++
    leBytes 8 (if fb then (if Config.fallbackField 16 % 2 = 1 then s.fuse.dieId else 0) else p.dieBind) ++
    leBytes 4 p.coreLimitMa ++ leBytes 1 p.fanFloor ++ leBytes 1 (boolNat p.flintPermit) ++ leBytes 2 p.wdCoreMs ++
    leBytes 2 p.wdMs ++ leBytes 1 p.staggerMs ++ [0] ++
    ((List.range 4).flatMap fun k => sensPolicyBytes (if fb then fallbackSens k else p.sens.getD k {})) ++
    List.replicate 32 0 ++
    (if fb then (List.range 96).map fun k => BitVec.ofNat 8 (Config.fallbackField (17 + k)) else p.pubkey)

/-- BR_POLICY (R565). -/
def brPolicyCard : Card where
  opcode := 0x1302
  len := fixedLen 0
  effect _ _ s := (s, .now (policyBytes s))

def execBrPolicy (n : Fin 40) (s : State) : Host.Outcome State Fault Refusal := .next (mbxRun brPolicyCard n.val s)

/-! ## Power loss and trip (R351, R557 to R559) -/

/-- PLOSS_N_FALL (R557, R562): PLOSS_N has been low for 0.5 µs. At step 3 of a cold boot or in a fault hold only the
level is noted. -/
def execPlossNFall (s : State) : Host.Outcome State Fault Refusal :=
  let s1 := { s with br.plossLow := true }
  if !s.pwr.powered then .next s
  else if s.br.hold.isSome || !monitorsArmed s || heldAtStart s then .next s1
  else .next (plossStart s1 false 0xFF 0)

/-- PLOSS_DRAIN_DONE (R351, R559): the drain ends after `us`, with the ports of the mask drained in time; a trip resets
at once. -/
def execPlossDrainDone (ports : BitVec 4) (us : BitVec 32) (s : State) : Host.Outcome State Fault Refusal :=
  if !s.br.ploss || s.br.drained then .next s
  else
    let s1 := plossDrain s ports.toNat us.toNat
    .next (if s.br.trip then plossReset s1 else s1)

/-- PLOSS_RESET_POINT (R558, R559): the reset point, with the level of PLOSS_N. -/
def execPlossResetPoint (low : Bool) (s : State) : Host.Outcome State Fault Refusal :=
  if !s.br.ploss || s.br.pointPassed then .next s
  else
    let s1 := { s with br.plossLow := low }
    if s.br.trip || low || !(List.range 6).all (fun k => !(s.br.rails.getD k {}).low) then .next (plossReset s1)
    else .next { s1 with br.pointPassed := true }

/-- PLOSS_RESPONSE_END (R558, R562): PLOSS_N has been high for 10 ms and the drain has finished: the gate opens, and a
deferred watchdog reset follows. -/
def execPlossResponseEnd (s : State) : Host.Outcome State Fault Refusal :=
  if !s.br.ploss || s.br.trip || !s.br.drained || !s.br.pointPassed then .next s
  else
    let s1 := { s with
      br := { s.br with ploss := false, plossLow := false, drained := false, pointPassed := false, wdDeferred := false }
      gate.stopped := none }
    let s2 := nvmeSettle (notify s1 0x0A04 0 (leBytes 4 s.gate.drainUs ++ leBytes 1 s.gate.drained) 9)
    let s3 := bedrockLeaf s2 3 0xFF true 0 s.br.plossCount
    .next (if s.br.wdDeferred then watchdogReset s3 else s3)

/-- PLOSS_RESET_EXIT (R558): PLOSS_N and every rail have been good for 10 ms: a device held by the power-loss reset
leaves it, and a boot held at step 3 goes on. -/
def execPlossResetExit (s : State) : Host.Outcome State Fault Refusal :=
  if !s.pwr.powered || s.br.ploss || !suppliesOk s then .next s
  else
    let s1 := { s with br.plossLow := false }
    .next (if s.br.hold = some .ploss then fullReset none s1 else s1)

/-- THERMAL_TRIP (R559, R562): Tmax has been at 115.0 °C or more on two conversions. In a hold the response that began stays, and
only the cause is recorded. -/
def execThermalTrip (s : State) : Host.Outcome State Fault Refusal :=
  if !monitorsArmed s then .next s
  else if s.br.hold.isSome then .next (setStop s 3)
  else
    let s1 := plossStart s true 0xFF 0
    .next (if s1.br.drained then plossReset s1 else s1)

/-! ## Lockstep, heartbeats, watchdog (R555, R556, R561) -/

/-- LOCKSTEP_FAULT (R561): both cores restart; a second fault within 1 s holds the device until cold power-on. -/
def execLockstepFault (s : State) : Host.Outcome State Fault Refusal :=
  let again := s.br.lsAt.any fun c => decide ((s.time.c.toNat : Int) - c < 1228800000)
  if !s.pwr.powered || s.br.hold = some .lockstep then .next s
  else if again then .next (fullReset (some .lockstep) (setStop { s with br.lsRestart := false } 5))
  else .next { s with br := { s.br with lsRestart := true, lsAt := some (s.time.c.toNat : Int), lsInBoot := fullBoot s } }

/-- A sequence starts again after a restart; a supply already on stays on (R561). -/
def restartSeq (s : State) (sn : Nat) : State :=
  match (sensorOf s sn).powerReq with
  | none => s
  | some on =>
    if spwrSeq s sn == .idle then s
    else if on && spwrOn s sn then assertPower s sn
    else beginPower s sn on

/-- LOCKSTEP_RESTART_DONE (R561): the restart ends; sequences start again, and requests that waited are served. -/
def execLockstepRestartDone (s : State) : Host.Outcome State Fault Refusal :=
  if !s.br.lsRestart then .next s
  else
    let s1 := { s with br := { s.br with lsRestart := false, held := [], lockstep := sat32 s.br.lockstep 1 } }
    let s2 := bedrockLeaf s1 6 0xFF true 0 s1.br.lockstep
    let s3 := (List.range 4).foldl restartSeq s2
    .next (s.br.held.foldl (fun s r => beginPower s r.1 r.2) s3)

/-- CORE_HEARTBEAT_MISS (R555): an active core has missed two windows. -/
def execCoreHeartbeatMiss (core : Fin 5) (flash : Bool) (s : State) : Host.Outcome State Fault Refusal :=
  if !s.pwr.powered || s.br.hold.isSome || s.br.lsRestart || (coreLogical s core.val).isNone then .next s
  else .next (coreFailFor id { s with spare.flashOk := flash } core.val 1)

/-- WATCHDOG_RESET (R556, R562): no core has written a heartbeat for `wd_ms`. -/
def execWatchdogReset (s : State) : Host.Outcome State Fault Refusal :=
  if !s.pwr.powered || s.br.lsRestart then .next s else .next (watchdogReset s)

/-! ## Flint's gate (R560) -/

/-- TEST_EN_FALL (R417, R560). -/
def execTestEnFall (s : State) : Host.Outcome State Fault Refusal :=
  let s1 := { s with br.testEn := false }
  .next (if s.br.flintGate then closeFlint s1 else if s.br.testEn then flintDisarm s1 else s1)

/-- FLINT_GATE_OPEN (R560): TEST_EN has been high for 1 ms. During a reset the gate stays closed. -/
def execFlintGateOpen (s : State) : Host.Outcome State Fault Refusal :=
  let s1 := { s with br.testEn := true }
  .next (if s.pwr.booting.isSome || s.br.hold.isSome then s1 else openFlint s1)

/-! ## Sensor power (R553, R554, R562) -/

/-- Bedrock runs a sensor's sequence: it is not restarting, and the sequence stands at a given place. -/
def seqAt (s : State) (sn : Nat) (q : SpwrSeq) : Bool := !s.br.lsRestart && spwrSeq s sn == q

/-- SPWR_PG_FALL (R554, R562): power good of a powered sensor has been low for 2 µs; a pending request ends with
result 1, and so does a power-off of the same clock. -/
def execSpwrPgFall (sensor : Fin 4) (s : State) : Host.Outcome State Fault Refusal :=
  let sn := sensor.val
  let off := spwrSeq s sn == .offWait && releasedNow s sn false
  if !(sensPolicy s sn).pgUse || !(spwrOn s sn || off) || spwrSeq s sn == .waitPg then .next s
  else
    let s1 := removeNoted s sn
    let s2 := { s1 with br.spwrOffAt := s1.br.spwrOffAt.set sn (some ((s.time.c.toNat : Int), true)) }
    match (sensorOf s2 sn).powerReq with
    | some on => .next (powerDone s2 sn on 1)
    | none => .next s2

/-- SPWR_PG_RISE (R553): power good comes in time. -/
def execSpwrPgRise (sensor : Fin 4) (s : State) : Host.Outcome State Fault Refusal :=
  .next (if seqAt s sensor.val .waitPg then setSpwr s sensor.val true .settle else s)

/-- SPWR_PG_TIMEOUT (R553): it does not. -/
def execSpwrPgTimeout (sensor : Fin 4) (s : State) : Host.Outcome State Fault Refusal :=
  .next (if seqAt s sensor.val .waitPg then powerDone (setSpwr s sensor.val false .idle) sensor.val true 1 else s)

/-- SENSOR_POWER_SETTLED (R553): the last wait of a sequence ends. -/
def execSensorPowerSettled (sensor : Fin 4) (s : State) : Host.Outcome State Fault Refusal :=
  let sn := sensor.val
  .next (if seqAt s sn .settle then powerDone (setSpwr s sn true .idle) sn true 0
    else if seqAt s sn .offWait then powerDone (setSpwr s sn false .idle) sn false 0
    else s)

/-- STAGGER_WAIT_END (R553): the stagger wait of a power-on ends. -/
def execStaggerWaitEnd (sensor : Fin 4) (s : State) : Host.Outcome State Fault Refusal :=
  .next (if seqAt s sensor.val .stagger then assertPower s sensor.val else s)

end Sys2Proof.Machine
end

