-- ==== Sys2Proof/Machine/Boot.lean ====
section
/-! DEFINITION. Cold power-on, boot, RESET_N, the soft reset command, and the supplies and references that boot waits
for (chapters 02, 23, 24). -/

namespace Sys2Proof.Machine

/-- COLD_POWER_ON (R32, R566, R579): the always-on rails enter their windows, with the references, RESET_N, PLOSS_N and
the rails as they stand. -/
def execColdPowerOn (refclk alt resetLow plossLow : Bool) (mv : List (BitVec 16)) (s : State) :
    Host.Outcome State Fault Refusal :=
  let rails := (List.range 8).map fun k => railReading k (mv.getD k 0).toNat
  let ok (k : Nat) : Bool := (rails.getD k {}).low == false && (rails.getD k {}).high == false
  if s.pwr.powered || !ok 6 || !ok 7 then .next s
  else
    let s1 := coldReset s
    let s2 := { s1 with
      pwr := { s1.pwr with powered := true, resetNLow := resetLow }
      br := { s1.br with rails := rails, plossLow := plossLow, rampHigh := (rails.take 6).any (·.high) }
      clk := { s1.clk with refclkOk := refclk, altOk := alt } }
    .next (if refclk || alt then tryStart { lockRoot s2 (!refclk) with pwr.phase := 2 } else s2)

/-- BOOT_READY (R566, R568, R579, R581): steps 4 to 8, or steps 7 and 8, run to their end, with what they measured. -/
def execBootReady (r : BootReport) (s : State) : Host.Outcome State Fault Refusal :=
  match s.pwr.booting with
  | none => .next s
  | some k =>
    if !mayBoot s k then .next s
    else match bootStop s k.full r with
      | some f => .next (bootFail s f.1 f.2.1 f.2.2.1 f.2.2.2)
      | none => match bootSlotOf s.pwr with
        | none => .next (bootFail s 7 1 0 0)
        | some slot =>
          let s1 := if k.full then bootFull { s with pwr := readRecord s.pwr } r else { s with pwr := readRecord s.pwr }
          .next (bootDone s1 k slot r.lacks r.ms.toNat)

/-- RESET_N (R552, R559, R566, R567): RESET_N has been low for 1 µs. `held` says that the condition of the fault hold in
force has been met. -/
def execResetN (held : Bool) (s : State) : Host.Outcome State Fault Refusal :=
  let s1 := { s with pwr.resetNLow := true }
  if s.pwr.resetNLow then .next s
  else if !s.pwr.powered then .next s1
  else match s.br.hold with
    | some .overVoltage => .next (if held && (List.range 8).all (railOk s) then fullReset none s1 else s1)
    | some .trip => .next (if held then fullReset none s1 else s1)
    | some _ => .next s1
    | none => .next (if s.pwr.booting = some .cold && s.pwr.phase < 3 then s1 else fullReset none s1)

/-- RESET_N_RISE (R566): RESET_N is high again; boot goes on from step 3. -/
def execResetNRise (s : State) : Host.Outcome State Fault Refusal := .next { s with pwr.resetNLow := false }

/-- SYS_RESET (R68, R567, R568): its checks are those of any card; once accepted it is discarded. -/
def sysResetCard : Card where
  opcode := 0x0102
  len := fixedLen 4
  fields b _ := [eRange (fld b 0 4 != 0x53595352) 0]
  effect _ _ s := (s, .later)

def execSysReset (n : Fin 40) (s : State) : Host.Outcome State Fault Refusal :=
  if mbxTurn s 0x0102 n.val then
    match cardChecks sysResetCard n.val s with
    | some r => .next (mbxReject s n.val r)
    | none => .next (softReset .soft s)
  else .next s

/-! ## Supplies (R551, R552) -/

/-- RAIL_UNDERVOLTAGE (R551): a rail has been below its window for 2 µs. -/
def execRailUndervoltage (k : Fin 8) (mv : BitVec 16) (s : State) : Host.Outcome State Fault Refusal :=
  if !s.pwr.powered || railLow k.val ≤ mv.toNat then .next s
  else if 6 ≤ k.val then
    let s1 := coldReset s
    .next { s1 with pwr.powered := false }
  else
    let was := (s.br.rails.getD k.val {}).low
    let s1 := setRail s k.val mv.toNat
    if !monitorsArmed s || was then .next s1
    else
      let s2 := bedrockLeaf s1 0 k.val true mv.toNat 0
      .next (if s2.br.hold.isSome || heldAtStart s then s2 else plossStart s2 false k.val mv.toNat)

/-- RAIL_OVERVOLTAGE (R552, R562): a rail has been above its window for 2 µs: everything but Bedrock is held in reset
at once, with no drain. -/
def execRailOvervoltage (k : Fin 8) (mv : BitVec 16) (s : State) : Host.Outcome State Fault Refusal :=
  if !s.pwr.powered || mv.toNat ≤ railHigh k.val then .next s
  else
    let was := (s.br.rails.getD k.val {}).high
    let s1 := setRail s k.val mv.toNat
    if !monitorsArmed s then .next (if k.val < 6 then { s1 with br.rampHigh := true } else s1)
    else if was then .next s1
    else
      let hold : FaultHold := if s.br.hold = some .lockstep then .lockstep else .overVoltage
      .next (fullReset (some hold) (setStop (bedrockLeaf s1 0 k.val true mv.toNat 0) 4))

/-- RAIL_IN_WINDOW (R551, R563): a rail is back in its window; a boot held for it goes on. -/
def execRailInWindow (k : Fin 8) (mv : BitVec 16) (s : State) : Host.Outcome State Fault Refusal :=
  let r := railReading k.val mv.toNat
  if !s.pwr.powered || r.low || r.high then .next s
  else
    let s1 := setRail s k.val mv.toNat
    let s2 := if monitorsArmed s && !railOk s k.val then bedrockLeaf s1 0 k.val false mv.toNat 0 else s1
    .next (tryStart s2)

/-! ## The root clock (R32, R33, R494) -/

/-- REFCLK_LOST (R33): an input is lost; if it is the one in use, the root PLL goes into holdover, and starts to relock
where the other input is qualified. -/
def execRefclkLost (alt : Bool) (s : State) : Host.Outcome State Fault Refusal :=
  let s1 := { s with clk := if alt then { s.clk with altOk := false } else { s.clk with refclkOk := false } }
  if s.clk.rootLock && s.clk.refSel = alt then
    .next { s1 with clk := { s1.clk with
      rootLock := false, holdover := true, holdoverAt := some (s.time.c.toNat : Int), lostSel := alt, lostInBoot := fullBoot s
      refSel := if refOk s1 (!alt) then !alt else alt } }
  else if s.clk.holdover && s.clk.refSel = alt && refOk s1 (!alt) then .next { s1 with clk.refSel := !alt }
  else .next s1

/-- REFCLK_FAILOVER_DONE (R33): the PLL has locked to a qualified input again; a lock to the other one is counted. -/
def execRefclkFailoverDone (s : State) : Host.Outcome State Fault Refusal :=
  if !s.clk.holdover || s.clk.stopping || !refOk s s.clk.refSel then .next s
  else
    let s1 := lockRoot s s.clk.refSel
    if s.clk.refSel = s.clk.lostSel then .next s1
    else
      let s2 := { s1 with clk.failovers := sat32 s1.clk.failovers 1 }
      .next (bedrockLeaf s2 1 0xFF true 0 s2.clk.failovers)

/-- REFCLK_QUALIFIED (R32, R33, R494): an input qualifies; a device that waits for one leaves reset. -/
def execRefclkQualified (alt : Bool) (s : State) : Host.Outcome State Fault Refusal :=
  if !s.pwr.powered then .next s
  else
    let s1 := { s with clk := if alt then { s.clk with altOk := true } else { s.clk with refclkOk := true } }
    if s.pwr.booting = some .cold && s.pwr.phase < 2 then .next (tryStart { lockRoot s1 alt with pwr.phase := 2 })
    else if s.br.hold = some .refStop then .next (fullReset none (lockRoot s1 alt))
    else if s.clk.holdover && !refOk s s.clk.refSel then .next { s1 with clk.refSel := alt }
    else .next s1

/-- Step 2 of the ordered stop: the event, no further FS, and every recording channel stops (R310, R494). -/
def refStopBegin (s : State) : State :=
  let mask := packBits (s.recs.chans.map (·.state == 2))
  let ms := clocksMs ((s.time.c.toNat : Int) - s.clk.holdoverAt.getD s.time.c.toNat).toNat
  let s1 := { s with clk.stopping := true }
  let s2 := notify s1 0x1007 0 (leBytes 4 ms ++ leBytes 1 mask) 7
  stopChannels s2 mask (classS s2)

/-- Steps 3 to 5: clips closed, drives durable and down, then reset until an input qualifies (R494); the cause recorded is the
highest of those that occurred (R562). -/
def refStopEnd (s : State) : State :=
  let s1 := (List.range 8).foldl (fun s c =>
    if 2 ≤ (recChan s c).state then chanIdle (closeClip s c 0 0 0xFF 0) c else s) s
  let s2 := setStop ((List.range 4).foldl finishPort s1) (if s.br.ploss then (if s.br.trip then 3 else 2) else 6)
  let alt := s.clk.altOk && !s.clk.refclkOk
  if s.clk.refclkOk || s.clk.altOk then fullReset none (lockRoot s2 alt) else fullReset (some .refStop) s2

/-- REFCLK_STOP (R494, R562): holdover has lasted 100 ms with no reference: the ordered stop begins, and with `final` ends. A
power-loss response that began first stays. -/
def execRefclkStop (final : Bool) (s : State) : Host.Outcome State Fault Refusal :=
  if s.clk.stopping then .next (if final then refStopEnd s else s)
  else if !s.clk.holdover || s.clk.refclkOk || s.clk.altOk || s.br.hold.isSome || s.br.ploss then .next s
  else
    let s1 := refStopBegin s
    .next (if final then refStopEnd s1 else s1)

end Sys2Proof.Machine
end

