-- ==== Sys2Proof/Machine/Colour.lean ====
section
/-! DEFINITION. The colour commands and the writing of banks (chapter 09). -/

namespace Sys2Proof.Machine

/-! ## What every colour command checks (R228, R229) -/

/-- The sensor whose shadow set a command writes. -/
def colSensor (b : Body) (s : State) : Option Nat :=
  if fld b 0 1 = 0 then some (fld b 1 1) else (rndOf s (fld b 0 1)).sensor

/-- The checks of `rnd` and `sensor` around a card's own of steps 6 and 7. -/
def colFields (b : Body) (s : State) (six seven : List (Option Rej)) : List (Option Rej) :=
  [inRange b 0 1 0 5, eVariant (renditionCount s.fuse ≤ fld b 0 1) 0, eRange (3 < fld b 1 1 && fld b 1 1 != 0xFF) 1] ++
    six ++ [eComb ((fld b 0 1 == 0) == (fld b 1 1 == 0xFF)) 1] ++ seven

def colReady (b : Body) (s : State) : Option Rej :=
  eSeq (!((colSensor b s).any fun sn => configured s sn))

/-- The colour parameters in the shadow set change. -/
def colUpd (b : Body) (s : State) (f : Colour → Colour) : State :=
  match colSensor b s with
  | some sn => sweep (updShadow s sn fun p => { p with colour := modAt p.colour (fld b 0 1) f })
  | none => s

/-- An F24 word between −2^k and 2^k. -/
def coeffField (b : Body) (k : Int) (off : Nat) : Option Rej :=
  f24Field b off (F24.neg (F24.pow2 k)) (F24.pow2 k)

def bodyWords (b : Body) (off count : Nat) : List Nat := (List.range count).map fun i => fld b (off + 4 * i) 4

/-! ## COL_TRANSFORM (R209 to R211) -/

def transformLen (plen : Nat) (_ : Body) : Option Nat :=
  if [0x34, 0x58, 0xAC, 0x148].contains plen then none else some 0x34

/-- Words of one matrix. -/
def matrixWords (b : Body) : Nat := if fld b 2 1 = 0 then 9 else 39

def colTransformCard : Card where
  opcode := 0x0610
  len := transformLen
  fields b s :=
    let two := fld b 3 1 = 2
    let aOff := 0x10
    colFields b s
      ([inRange b 2 1 0 1, inRange b 3 1 1 2, f24Field b 4 (F24.ofInt 20) (F24.ofInt 1000), f24Word b 8,
        if two && !f24Zero b 0x0C then f24Field b 0x0C (F24.ofInt 20) (F24.ofInt 1000) else f24Word b 0x0C] ++
        (List.range ((b.length - aOff) / 4)).map fun i => coeffField b 6 (aOff + 4 * i))
      [eComb (b.length != aOff + 4 * matrixWords b * fld b 3 1) 3,
       if two then eComb (!F24.inBounds (fld b 8 4) (F24.ofInt 20) (F24.ofInt 1000) || F24.le (fld b 8 4) (fld b 4 4)) 8
       else eComb (!f24Zero b 8) 8,
       eComb (two == f24Zero b 0x0C) 0x0C]
  seq b s := [colReady b s]
  effect _ b s :=
    let w := matrixWords b
    (colUpd b s fun c => { c with
      form := fld b 2 1, illums := fld b 3 1, miredA := fld b 4 4, miredB := fld b 8 4, mired := fld b 0x0C 4
      matA := bodyWords b 0x10 w, matB := if fld b 3 1 = 2 then bodyWords b (0x10 + 4 * w) w else [] }, .now [])

def execColTransform (n : Fin 40) (s : State) : Host.Outcome State Fault Refusal :=
  .next (mbxRun colTransformCard n.val s)

/-! ## COL_GAINS (R212) -/

def colGainsCard : Card where
  opcode := 0x0611
  len := fixedLen 0x14
  fields b s := colFields b s
    ([inRange b 2 1 0 1, resv b 3 1, f24Field b 4 (F24.pow2 (-16)) (F24.pow2 16)] ++
      (List.range 3).map fun i => f24Field b (8 + 4 * i) (F24.pow2 (-8)) (F24.pow2 8)) []
  seq b s := [colReady b s]
  effect _ b s :=
    (colUpd b s fun c => { c with hlMode := fld b 2 1, exposure := fld b 4 4, wgain := bodyWords b 8 3 }, .now [])

def execColGains (n : Fin 40) (s : State) : Host.Outcome State Fault Refusal :=
  .next (mbxRun colGainsCard n.val s)

/-! ## Tables: COL_SHAPER_LOAD, LUT_LOAD (R213 to R216, R227) -/

/-- Copy a host table where one is given, none otherwise. -/
def hostCopy (s : State) (given : Bool) (size : Nat) (vals : List Nat) : Option Copy × State :=
  if given then
    let r := makeCopy s size vals
    (some r.1, r.2)
  else (none, s)

def colShaperLoadCard : Card where
  opcode := 0x0612
  len := fixedLen 0x10
  fields b s :=
    let host := fld b 2 1 = 1
    colFields b s
      [inRange b 2 1 0 1, resv b 3 5, inMode (host && fld b 8 8 != 0) (addrField b 8 24576 s)]
      [eComb (host == (fld b 8 8 == 0)) 8]
  seq b s := [colReady b s]
  res b s := [if fld b 2 1 = 1 then copyFits s 24576 else none]
  effect _ b s :=
    let r := hostCopy s (fld b 2 1 = 1) 24576 (tableWords s (fld b 8 8) 12288 2)
    (colUpd b r.2 fun c => { c with shaper := r.1 }, .now [])

def execColShaperLoad (n : Fin 40) (s : State) : Host.Outcome State Fault Refusal :=
  .next (mbxRun colShaperLoadCard n.val s)

/-- Nodes on an edge of the lattice a command loads, 0 for none. -/
def latticeEdge (b : Body) : Nat := if fld b 2 1 = 1 then 65 else if fld b 2 1 = 2 then 129 else 0
/-- Bytes the device keeps of it (R215, R216). -/
def latticeBytes (b : Body) : Nat := if latticeEdge b = 129 then 17173512 else 1647750
def latticeWords (b : Body) (s : State) : List Nat := tableWords s (fld b 8 8) (3 * latticeEdge b ^ 3) 2

/-- A node that is an infinity or a NaN (R215). -/
def badLattice (b : Body) (s : State) : Option Rej :=
  let l := latticeWords b s
  ((List.range l.length).find? fun i => !halfFinite (l.getD i 0)).bind fun i => rejIf true 0x0103 8 (i / 3)

def lutLoadCard : Card where
  opcode := 0x0620
  len := fixedLen 0x10
  fields b s :=
    let n := latticeEdge b
    let given := n != 0 && fld b 8 8 != 0
    colFields b s
      [inRange b 2 1 0 2, resv b 3 5, inMode given (addrField b 8 (6 * n ^ 3) s), inMode given (badLattice b s)]
      [eComb (fld b 2 1 == 2 && fld b 0 1 != 0) 2, eComb ((n != 0) == (fld b 8 8 == 0)) 8]
  seq b s := [colReady b s]
  res b s := [if latticeEdge b = 0 then none else copyFits s (latticeBytes b)]
  effect _ b s :=
    let r := hostCopy s (latticeEdge b != 0) (latticeBytes b) (latticeWords b s)
    (colUpd b r.2 fun c => { c with latticeN := latticeEdge b, lattice := r.1 }, .now [])

def execLutLoad (n : Fin 40) (s : State) : Host.Outcome State Fault Refusal :=
  .next (mbxRun lutLoadCard n.val s)

/-! ## COL_CONTRAST (R217) -/

def gridWords (b : Body) (s : State) : List Nat := tableWords s (fld b 0x18 8) 2145 4

def colContrastCard : Card where
  opcode := 0x0613
  len := fixedLen 0x20
  fields b s :=
    let on := F24.val (fld b 4 4) != 0
    let given := on && fld b 0x18 8 != 0
    colFields b s
      ([resv b 2 2, f24Field b 4 (F24.neg (F24.pow2 (-1))) F24.one, f24Field b 8 (F24.pow2 (-24)) F24.one] ++
        ((List.range 3).map fun i => f24Field b (0x0C + 4 * i) 0 F24.one) ++
        [inMode given (addrField b 0x18 8580 s),
         inMode given (badWord (gridWords b s) (fun w => !F24.inBounds w (F24.pow2 (-24)) (F24.pow2 16)) 0x0103 0x18)])
      [eComb (on == (fld b 0x18 8 == 0)) 0x18]
  seq b s := [colReady b s]
  res b s := [if fld b 0x18 8 = 0 then none else copyFits s 8580]
  effect _ b s :=
    let r := hostCopy s (fld b 0x18 8 != 0) 8580 (gridWords b s)
    (colUpd b r.2 fun c => { c with lcStrength := fld b 4 4, lcFloor := fld b 8 4, lw := bodyWords b 0x0C 3, grid := r.1 },
      .now [])

def execColContrast (n : Fin 40) (s : State) : Host.Outcome State Fault Refusal :=
  .next (mbxRun colContrastCard n.val s)

/-! ## COL_OUTPUT (R218 to R222) -/

/-- `tf_scale` lies in the range of a transfer function. -/
def tfScaleOk (tf w : Nat) : Bool :=
  if tf = 0 then true
  else if tf = 4 then F24.val w == 0
  else if tf = 2 then F24.inBounds w F24.one (F24.ofInt 10000)
  else F24.inBounds w (F24.pow2 (-8)) (F24.pow2 8)

def colOutputCard : Card where
  opcode := 0x0614
  len := fixedLen 0x38
  fields b s :=
    let tf := fld b 3 1
    let host := tf = 4
    colFields b s
      ([inRange b 2 1 0 3, inRange b 3 1 0 4, inMode (fld b 2 1 == 0) (inRange b 4 1 0 1), resv b 5 3, f24Word b 8] ++
        ((List.range 9).map fun i => coeffField b 4 (0x0C + 4 * i)) ++
        [inMode (host && fld b 0x30 8 != 0) (addrField b 0x30 8194 s)])
      [eComb ((fld b 2 1 == 3) != (tf == 0)) 3, eComb (fld b 4 1 != 0 && fld b 2 1 != 0) 4,
       eComb (!tfScaleOk tf (fld b 8 4)) 8, eComb (host == (fld b 0x30 8 == 0)) 0x30]
  seq b s := [colReady b s]
  res b s := [if fld b 3 1 = 4 then copyFits s 8194 else none]
  effect _ b s :=
    let r := hostCopy s (fld b 3 1 = 4) 8194 (tableWords s (fld b 0x30 8) 4097 2)
    (colUpd b r.2 fun c => { c with
      format := fld b 2 1, tf := fld b 3 1, ycc := fld b 4 1, tfScale := fld b 8 4, outMat := bodyWords b 0x0C 9
      tfTable := r.1 }, .now [])

def execColOutput (n : Fin 40) (s : State) : Host.Outcome State Fault Refusal :=
  .next (mbxRun colOutputCard n.val s)

/-! ## COL_STATUS -/

def colCounters (c : ColCounters) : List Byte :=
  leBytes 4 c.hl ++ leBytes 4 c.shaperLow ++ leBytes 4 c.shaperHigh ++ leBytes 4 c.tfLow ++ leBytes 4 c.tfHigh ++
    leBytes 4 c.half ++ leBytes 4 c.misses ++ zeros 4 ++ leBytes 8 c.stall

/-- A bank's state: 0 free, 1 held, 2 being written (R224, R225). -/
def bankState (s : State) (r b : Nat) : Nat :=
  if !(bankHolders s r b).isEmpty then 1
  else if bankFree s r b && (bankWaiter s r).isSome && (b == 0 || !bankFree s r 0) then 2 else 0

def bankMask (s : State) (r b : Nat) : Nat := ((bankHolders s r b).map (2 ^ ·)).sum

def colStatusCard : Card where
  opcode := 0x0615
  len := fixedLen 4
  fields b s := colFields b s [inRange b 2 1 0 1, resv b 3 1] []
  seq b s := [if fld b 0 1 = 0 then eSeq (!configured s (fld b 1 1)) else none]
  effect _ b s :=
    let r := fld b 0 1
    let sn := fld b 1 1
    let cnt := if r = 0 then (sensorOf s sn).colCnt else if (rndOf s r).sensor.isNone then {} else (rndOf s r).colCnt
    let s1 := if fld b 2 1 = 0 then s
      else if r = 0 then updSensor s sn fun x => { x with colCnt := {} } else updRnd s r fun x => { x with colCnt := {} }
    (s1, .now (colCounters cnt ++ leBytes 1 (bankState s r 0) ++ leBytes 1 (bankState s r 1) ++
      leBytes 1 (bankMask s r 0) ++ leBytes 1 (bankMask s r 1) ++ zeros 4))

def execColStatus (n : Fin 40) (s : State) : Host.Outcome State Fault Refusal :=
  .next (mbxRun colStatusCard n.val s)

/-! ## BANK_WRITE (R225) -/

/-- BANK_WRITE: the image of the oldest waiting commit, or of the set `SENS_CONFIG` made active, has been written into a
free bank. -/
def execBankWrite (inst : Fin 6) (bank : Fin 2) (s : State) : Host.Outcome State Fault Refusal :=
  let r := inst.val
  let b := bank.val
  match bankWaiter s r with
  | none => .next s
  | some sn =>
    if !bankFree s r b then .next s
    else if lacksActive s r sn then
      .next (updSensor (setBank s r b (colImage ((sensorOf s sn).active.colour.getD r {}))) sn fun x => { x with
        banks := x.banks.set r (some b) })
    else match (sensorOf s sn).pendingSet with
      | none => .next s
      | some p =>
        .next (updSensor (setBank s r b (colImage (p.params.colour.getD r {}))) sn fun x => { x with
          pendingSet := some { p with banks := p.banks.set r (some b) } })

end Sys2Proof.Machine
end

