-- ==== Sys2Proof/Machine/Dev.lean ====
section
/-! DEFINITION. The demosaic and scene-linear commands (chapter 08). -/

namespace Sys2Proof.Machine

/-! ## DEV_CFA (R185 to R187) -/

def cfaOf (b : Body) : Mosaic where
  px := fld b 1 1
  py := fld b 2 1
  phaseX := fld b 3 1
  phaseY := fld b 4 1
  roles := (List.range 4).map fun i => fld b (8 + i) 1
  cells := (List.range 64).map fun i => fld b (0x10 + i) 1
  bal := []
  gradFloor := 0
  cas := 0

/-- The role a cell's index carries. -/
def cellRole (m : Mosaic) (i j : Nat) : Nat := roleOf m (m.cells.getD (i % m.px + 8 * (j % m.py)) 0)

/-- Cells of one period, row by row. -/
def periodCells (m : Mosaic) : List (Nat × Nat) :=
  (List.range m.py).flatMap fun j => (List.range m.px).map fun i => (i, j)

/-- A cell names an index that has no role (R186, condition 1). -/
def cfaUnused (m : Mosaic) : Option Rej :=
  ((periodCells m).find? fun p => cellRole m p.1 p.2 == 0xFF).bind fun p => eComb true (0x10 + 8 * p.2 + p.1)

/-- A role missing from the pattern (R186, condition 2). -/
def cfaMissing (m : Mosaic) : Option Rej :=
  ((List.range 3).find? fun k => (periodCells m).all fun p => cellRole m p.1 p.2 != k).bind fun k =>
    rejIf true 0x0601 0x10 k

/-- The role missing from the window centred on a cell. -/
def windowMissing (m : Mosaic) (i j : Nat) : Option Nat :=
  (List.range 3).find? fun k => (List.range 7).all fun dj => (List.range 7).all fun di =>
    cellRole m (i + di + 7 * m.px - 3) (j + dj + 7 * m.py - 3) != k

/-- A window without one of the roles (R186, condition 3). -/
def cfaWindow (m : Mosaic) : Option Rej :=
  ((periodCells m).findSome? fun p => (windowMissing m p.1 p.2).map fun k => (p, k)).bind fun r =>
    rejIf true 0x0602 0x10 (r.1.1 + 256 * r.1.2 + 65536 * r.2)

def devCfaCard : Card where
  opcode := 0x0601
  len := fixedLen 0x50
  fields b _ :=
    let m := cfaOf b
    [sensorField b 0, inRange b 1 1 1 8, inRange b 2 1 1 8, resv b 5 3] ++
      ((List.range 4).map fun i => oneOf b (8 + i) 1 [0, 1, 2, 3, 0xFF]) ++ [resv b 0x0C 4] ++
      ((List.range 64).map fun k =>
        if k % 8 < m.px && k / 8 < m.py then inRange b (0x10 + k) 1 0 3 else resv b (0x10 + k) 1) ++
      [eComb (m.px ≤ m.phaseX) 3, eComb (m.py ≤ m.phaseY) 4, cfaUnused m, cfaMissing m, cfaWindow m]
  seq b s := [eSeq (!configured s (fld b 0 1))]
  effect _ b s :=
    let m := cfaOf b
    (updShadow s (fld b 0 1) fun p => { p with
      mosaic := { m with bal := p.mosaic.bal, gradFloor := p.mosaic.gradFloor, cas := p.mosaic.cas } }, .now [])

def execDevCfa (n : Fin 40) (s : State) : Host.Outcome State Fault Refusal :=
  .next (mbxRun devCfaCard n.val s)

/-! ## DEV_DEMOSAIC (R189 to R193) -/

def devDemosaicCard : Card where
  opcode := 0x0602
  len := fixedLen 0x1C
  fields b _ := [sensorField b 0, resv b 1 3] ++
    ((List.range 4).map fun i => f24Field b (4 + 4 * i) (F24.pow2 (-8)) (F24.pow2 8)) ++
    [f24Field b 0x14 (F24.pow2 (-30)) F24.one, f24Field b 0x18 0 F24.one]
  seq b s := [eSeq (!configured s (fld b 0 1))]
  effect _ b s :=
    (updShadow s (fld b 0 1) fun p => { p with
      mosaic := { p.mosaic with
        bal := (List.range 4).map fun i => fld b (4 + 4 * i) 4, gradFloor := fld b 0x14 4, cas := fld b 0x18 4 } },
      .now [])

def execDevDemosaic (n : Fin 40) (s : State) : Host.Outcome State Fault Refusal :=
  .next (mbxRun devDemosaicCard n.val s)

/-! ## DEV_SL_FRAME (R195 to R203) -/

/-- Write rates of the other sensors (R196). -/
def otherSlRates (s : State) (sn : Nat) : Nat × Nat :=
  fracSum (((List.range 4).filter (· != sn)).map fun k => slRate (sensorOf s k))
/-- Developed rates of every configured sensor. -/
def allDevRates (s : State) : Nat × Nat :=
  fracSum ((List.range 4).filterMap fun k => (sensorOf s k).cfg.map devRate)

/-- The scene-linear write limit in pixels per second. -/
def slLimit (f : Fuse) : Nat := if f.pkgM then 614400000 else 1228800000

/-- The check of R196 for a sensor's new setting. -/
def slRateCheck (s : State) (sn scale : Nat) : Option Rej :=
  (sensorOf s sn).cfg.bind fun c =>
    let others := otherSlRates s sn
    let total := fracAdd (fracMul (devRate c) 1 (4 ^ scale)) others
    let both := fracAdd (allDevRates s) others
    let left := fracLeft (slLimit s.fuse) others
    let left := if tierAm s.fuse then min left (fracLeft 5900000000 both) else left
    rejIf (!fracLe total (slLimit s.fuse, 1) ||
      (tierAm s.fuse && !fracLe (fracAdd total (allDevRates s)) (5900000000, 1))) 0x0603 2 left

/-- The frame a command asks for; none to disable it. -/
def slAsked (b : Body) : Option SlCfg :=
  if fld b 1 1 = 0 then none else some { scale := fld b 2 1, depth := fld b 3 1, base := 0 }

/-- Bytes of the buffers asked for. -/
def slAskedBytes (b : Body) (s : State) : Nat :=
  match slAsked b, (sensorOf s (fld b 0 1)).cfg with
  | some l, some c => slBytes c l.scale * l.depth
  | _, _ => 0

def setSl (s : State) (sn : Nat) (l : Option SlCfg) : State := updSensor s sn fun x => { x with slCmd := l }

def devSlFrameCard : Card where
  opcode := 0x0603
  len := fixedLen 4
  fields b s :=
    let sn := fld b 0 1
    let on := fld b 1 1 = 1
    [sensorField b 0, inRange b 1 1 0 1, inMode on (inRange b 2 1 0 2),
     inMode (on && fld b 3 1 != 0) (inRange b 3 1 2 8), inMode (!on) (mustBe0 b 2 1),
     (sensorOf s sn).cfg.bind fun c => eComb (on && fld b 2 1 == 2 && c.height % 4 != 0) 2,
     inMode on (slRateCheck s sn (fld b 2 1)), eComb (on == (fld b 3 1 == 0)) 3,
     claimCheck s (setSl s sn none) (setSl s sn (slAsked b)) 2]
  seq b s := [eSeq (!configured s (fld b 0 1))]
  state b s := [eState (streaming s (fld b 0 1))]
  res b s := [canReplace s (.slFrame (fld b 0 1)) (slAskedBytes b s)]
  effect _ b s :=
    let sn := fld b 0 1
    let r := realloc s (.slFrame sn) (slAskedBytes b s)
    match slAsked b, (sensorOf s sn).cfg with
    | some l, some c =>
      (setSl r.2 sn (some { l with base := r.1 }),
        .now (leBytes 8 r.1 ++ leBytes 4 (slStride c l.scale) ++ leBytes 4 (slBytes c l.scale)))
    | _, _ => (setSl r.2 sn none, .now (zeros 16))

def execDevSlFrame (n : Fin 40) (s : State) : Host.Outcome State Fault Refusal :=
  .next (mbxRun devSlFrameCard n.val s)

end Sys2Proof.Machine
end

