-- ==== Sys2Proof/Machine/HostPort.lean ====
section
/-! DEFINITION. The rows that are host accesses: doorbells, register writes, the attention and event-queue
controls, the time-base window, BAR2 and QSPI (chapters 03, 04, 20). Each is one access of the register map. -/

namespace Sys2Proof.Machine

/-- DOORBELL_RING (R55, R56, R52, R69): a host write of a value to the doorbell of slot n. -/
def execDoorbellRing (port : Port) (n : Fin 40) (value : BitVec 32) (s : State) :
    Host.Outcome State Fault Refusal :=
  .next (ringDoorbell s port n.val value.toNat)

/-- REGISTER_WRITE (R46, R50 to R52): a host write of 1 to 8 bytes at a BAR0 address. -/
def execRegisterWrite (port : Port) (addr : Nat) (data : List Byte) (s : State) :
    Host.Outcome State Fault Refusal :=
  .next (bar0Write s port addr data)

/-- The BAR0 offset of a leaf register (R76, R77). -/
def leafRegAddr : LeafReg → Nat
  | .cause b => 0x20100 + 0x10 * b.val
  | .doneQ => 0x20108
  | .sub k => 0x21100 + 0x10 * k.val

/-- ATTN_LEAF_CLEAR (R76 to R78, R74). -/
def execAttnLeafClear (port : Port) (reg : LeafReg) (value : BitVec 32) (s : State) :
    Host.Outcome State Fault Refusal :=
  .next (bar0Write4 s port (leafRegAddr reg) value.toNat)

/-- The BAR0 offset of a mask register. -/
def maskRegAddr : MaskReg → Nat
  | .summary => 0x20004
  | .cause b => 0x20104 + 0x10 * b.val
  | .doneQ => 0x2010C
  | .sub k => 0x21104 + 0x10 * k.val

/-- ATTN_MASK_WRITE (R74 to R77). -/
def execAttnMaskWrite (port : Port) (reg : MaskReg) (value : BitVec 32) (s : State) :
    Host.Outcome State Fault Refusal :=
  .next (bar0Write4 s port (maskRegAddr reg) value.toNat)

/-- The BAR0 address of a queue's block (R81). -/
def queueAddr (q : Nat) : Nat := 0x30000 + 0x100 * q

/-- WM_HIT_CLEAR (R86, R87): a write of 1 to `wm_hit` in `EQ_STATUS`. -/
def execWmHitClear (port : Port) (q : Fin 16) (s : State) : Host.Outcome State Fault Refusal :=
  .next (bar0Write4 s port (queueAddr q.val + 0x38) 0x8000)

/-- EQ_PORT_READ (R82): a 4-byte read of one word of the record port. -/
def execEqPortRead (q : Fin 16) (word : Fin 8) (s : State) : Host.Outcome State Fault Refusal :=
  let r := bar0Read4 s (queueAddr q.val + 4 * word.val)
  .next { r.2 with host.readData := leBytes 4 r.1 }

/-- EQ_MARK (R83): an `EQ_CTRL` write with `mark` alone. -/
def execEqMark (port : Port) (q : Fin 16) (s : State) : Host.Outcome State Fault Refusal :=
  .next (bar0Write4 s port (queueAddr q.val + 0x20) 1)

/-- EQ_REWIND (R83): an `EQ_CTRL` write with `rewind`, and with `mark` where asked. -/
def execEqRewind (port : Port) (q : Fin 16) (alsoMark : Bool) (s : State) :
    Host.Outcome State Fault Refusal :=
  .next (bar0Write4 s port (queueAddr q.val + 0x20) (2 + boolNat alsoMark))

/-- EQ_RELEASE (R84). -/
def execEqRelease (port : Port) (q : Fin 16) (value : BitVec 32) (s : State) :
    Host.Outcome State Fault Refusal :=
  .next (bar0Write4 s port (queueAddr q.val + 0x24) value.toNat)

/-- PWR_WAKE_WRITE (R572): a write to `PWR_WAKE`. -/
def execPwrWakeWrite (port : Port) (value : BitVec 32) (s : State) : Host.Outcome State Fault Refusal :=
  .next (bar0Write4 s port 0x1124 value.toNat)

/-- TB_COUNT_READ (R46, R638): a read of the low word of `TB_COUNT`, of 8 or 4 bytes. -/
def execTbCountRead (wide : Bool) (s : State) : Host.Outcome State Fault Refusal :=
  let r := bar0Read s 0x100000 (if wide then 8 else 4)
  .next { r.2 with host.readData := r.1 }

/-- TB_DOMAIN_READ (R638): a read of the low word of a domain's offset. -/
def execTbDomainRead (d : Fin 2) (wide : Bool) (s : State) : Host.Outcome State Fault Refusal :=
  let r := bar0Read s (0x100100 + 0x40 * d.val) (if wide then 8 else 4)
  .next { r.2 with host.readData := r.1 }

/-- BEDROCK_WINDOW_WRITE (R51, R546): a 4-byte write to the Bedrock window. -/
def execBedrockWindowWrite (port : Port) (word : BitVec 14) (value : BitVec 32) (s : State) :
    Host.Outcome State Fault Refusal :=
  .next (bar0Write4 s port (0x40000 + 4 * word.toNat) value.toNat)

/-! ## BAR2 (R44, R45, R573, R594) -/

/-- Whether a device address lies where BAR2 does not reach: beyond capacity, in the reserve, or any address
outside Run. -/
def bar2Blocked (s : State) (a : Nat) : Bool := s.pwr.state != .run || dramUsable s.fuse ≤ a

def countBlocked (s : State) (any : Bool) : State :=
  if any then setLeaf { s with host.bar2Blocked := sat32 s.host.bar2Blocked 1 } 17 5 else s

/-- A BAR2 write at a window offset: blocked bytes are ignored, and the access counted once. -/
def bar2Write (s : State) (off : Nat) (bs : List Byte) : State :=
  let a := s.host.bar2Base + off
  let reach := if s.pwr.state = .run then min bs.length (dramUsable s.fuse - a) else 0
  countBlocked (dramWrite s a (bs.take reach)) (reach < bs.length)

/-- A BAR2 read: blocked bytes read 0; poisoned bursts go out as a poisoned completion (R594). -/
def bar2Read (s : State) (off n : Nat) : List Byte × State :=
  let a := s.host.bar2Base + off
  let reach := if s.pwr.state = .run then min n (dramUsable s.fuse - a) else 0
  let data := dramRead s a reach ++ List.replicate (n - reach) 0
  let bad := poisonIn s a reach
  (data, { bad.foldl poisonHandled (countBlocked s (reach < n)) with host.readPoisoned := !bad.isEmpty })

/-- What the read link ECC did during a BAR2 read (R514): counted, never seen by the client; a blocked access reads no DRAM. -/
def linkFault (s : State) (a : Nat) (f : LinkFault) : State :=
  if bar2Blocked s a then s
  else match f with
  | .clean => s
  | .corrected => updChannel s (dramChannelOf s.fuse a) fun c => { c with corrections := sat32 c.corrections 1 }
  | .retried => updChannel s (dramChannelOf s.fuse a) fun c => { c with retries := sat32 c.retries 1 }

/-- BAR2_ACCESS (R44): a read or write of the window. -/
def execBar2Access (off : BitVec 32) (access : HostAccess) (ecc : LinkFault) (s : State) :
    Host.Outcome State Fault Refusal :=
  match access with
  | .write bs => .next (bar2Write s off.toNat bs)
  | .read n =>
    let r := bar2Read (linkFault s (s.host.bar2Base + off.toNat) ecc) off.toNat n
    .next { r.2 with host.readData := r.1 }

/-! ## QSPI (R47 to R49) -/

/-- One word of a QSPI write at an address of the target's map. -/
def qspiWriteWord (s : State) (a : Nat) (w : List Byte) : State :=
  if a < 0x200000 then bar0Write s .qspi a w
  else if 0x80000000 ≤ a && a < 2 ^ 32 then bar2Write s (a - 0x80000000) w
  else s

def qspiReadWord (s : State) (a : Nat) : List Byte × State :=
  if a < 0x200000 then bar0Read s a 4
  else if 0x80000000 ≤ a && a < 2 ^ 32 then bar2Read s (a - 0x80000000) 4
  else ([0, 0, 0, 0], s)

/-- The end of the region an address lies in, where a transaction stops taking effect (R48). DEDUCED: the regions are
the ranges of QSPI addresses that R48 names, not those of the BAR0 map that R50 lists (log entry 175). -/
def qspiEnd (a : Nat) : Nat :=
  if a < 0x200000 then 0x200000 else if a < 0x80000000 then 0x80000000 else 2 ^ 32

/-- `k` words from an address, each 4 bytes further, up to the end of the region. -/
def qspiWrite (stop : Nat) : Nat → Nat → List Byte → State → State
  | 0, _, _, s => s
  | k + 1, a, bs, s =>
    if stop ≤ a then s else qspiWrite stop k (a + 4) (bs.drop 4) (qspiWriteWord s a (bs.take 4))

def qspiRead (stop : Nat) : Nat → Nat → State → List Byte × State
  | 0, _, s => ([], s)
  | k + 1, a, s =>
    if stop ≤ a then (List.replicate (4 * (k + 1)) 0, s)
    else
      let r := qspiReadWord s a
      let r2 := qspiRead stop k (a + 4) r.2
      (r.1 ++ r2.1, r2.2)

/-- The status byte, whose reading clears `last_err` (R47, R48). -/
def qspiStatus (s : State) : State :=
  { s with
    host.readData := [BitVec.ofNat 8 (boolNat s.mbx.ready + 2 * boolNat s.host.qspiLastErr)]
    host.qspiLastErr := false }

/-- QSPI_TRANSACTION (R47 to R49): the instruction byte, the address, the bytes clocked in of a write, and the
number of bytes clocked out of a read. -/
def execQspiTransaction (instr : Byte) (addr : BitVec 32) (data : List Byte) (count : Nat) (s : State) :
    Host.Outcome State Fault Refusal :=
  let a := addr.toNat
  let wr := instr == 0x02 || instr == 0x32
  let rd := instr == 0x0B || instr == 0xEB
  if instr = 0x05 then .next (qspiStatus s)
  else if !(wr || rd) || a % 4 != 0 || (if wr then data.length else count) % 4 != 0 then
    .next { s with host.qspiLastErr := true }
  else if wr then .next (qspiWrite (qspiEnd a) (data.length / 4) a data s)
  else
    let r := qspiRead (qspiEnd a) (count / 4) a s
    .next { r.2 with host.readData := r.1 }

/-- QSPI_STATUS_READ (R47, R48). -/
def execQspiStatusRead (s : State) : Host.Outcome State Fault Refusal := .next (qspiStatus s)

/-! ## Queue commands (R80, R88) -/

/-- Values of `target` (R88). -/
def targetList : List Nat := [0, 1, 2, 3] ++ (List.range 12).map (0x10 + ·)

/-- The queue index of a `target`. -/
def targetQueue (t : Nat) : Nat := if t < 4 then t else t - 0x10 + 4

/-- EVQ_CONFIG (R88). DESIGN CHOICE (log entry 10): a `wm_level` set above the level drops a set of `wm_hit` that a clear at
or above the old watermark had left to the next record (R86). -/
def evqConfigCard : Card where
  opcode := 0x0201
  len := fixedLen 4
  fields b _ := [oneOf b 0 1 targetList, resv b 1 1, inRange b 2 2 1 1024]
  effect _ b s := (updQueue s (targetQueue (fld b 0 1)) (·.setWm (fld b 2 2)), .now [])

def execEvqConfig (n : Fin 40) (s : State) : Host.Outcome State Fault Refusal :=
  .next (mbxRun evqConfigCard n.val s)

/-- EVQ_ROUTE (R80, R88). -/
def evqRouteCard : Card where
  opcode := 0x0202
  len := fixedLen 2
  fields b _ := [inRange b 0 1 1 0x16, inRange b 1 1 0 3]
  effect _ b s := ({ s with route := s.route.set (fld b 0 1) (fld b 1 1) }, .now [])

def execEvqRoute (n : Fin 40) (s : State) : Host.Outcome State Fault Refusal :=
  .next (mbxRun evqRouteCard n.val s)

/-- The queue after `EVQ_RESET` (R88). -/
def Queue.reset (q : Queue) : Queue :=
  { q with recs := [], rel := q.wr, mark := q.wr, rd := q.wr, lost := 0, badctl := 0, wmHit := false,
           rearm := false, peak := 0, lostLeaf := false, gapNext := false, port := List.replicate 32 0, portValid := false }

/-- EVQ_RESET (R88). -/
def evqResetCard : Card where
  opcode := 0x0203
  len := fixedLen 4
  fields b _ := [oneOf b 0 1 targetList, resv b 1 3]
  effect _ b s :=
    let q := targetQueue (fld b 0 1)
    (updQueue s q Queue.reset, .now (leBytes 4 (s.queues.getD q {}).lost))

def execEvqReset (n : Fin 40) (s : State) : Host.Outcome State Fault Refusal :=
  .next (mbxRun evqResetCard n.val s)

/-! ## SYS_IDENTIFY (R19) -/

/-- The 36 bytes of the response. -/
def identifyBytes (s : State) : List Byte :=
  leBytes 4 (capPart s.fuse) ++ leBytes 4 (capUnits s.fuse) ++ leBytes 4 (capIo s.fuse s.pwr.dramGib) ++
    leBytes 4 (capRate s.fuse) ++ leBytes 4 s.pwr.capFw.toNat ++ leBytes 8 s.fuse.dieId ++
    leBytes 4 (dramUsable s.fuse / 2 ^ 20) ++ leBytes 4 s.pwr.fwBuild

def sysIdentifyCard : Card where
  opcode := 0x0101
  len := fixedLen 0
  effect _ _ s := (s, .now (identifyBytes s))

def execSysIdentify (n : Fin 40) (s : State) : Host.Outcome State Fault Refusal :=
  .next (mbxRun sysIdentifyCard n.val s)

end Sys2Proof.Machine
end

