-- ==== Sys2Proof/Machine/Pins.lean ====
section
/-! DEFINITION. GPIO pins and tally lamps (R614 to R616). -/

namespace Sys2Proof.Machine

/-- The pin that a low-power state reads as its wake input (R572, R611). -/
def wakePin (s : State) (n : Nat) : Bool := s.pwr.state != .run && s.pwr.wakeGpio == n

/-- The level of a pin: a push-pull output drives its value, an open-drain one pulls low or leaves the board's
level, an input shows the board's, and so does a pin while the wake source is read from it. -/
def pinLevel (s : State) (n : Nat) : Bool :=
  let v := s.pins.out.toNat.testBit n
  let b := s.pins.board.toNat.testBit n
  match if wakePin s n then 0 else s.pins.mode.getD n 0 with
  | 1 => v
  | 2 => v && b
  | _ => b

def pinLevels (s : State) : Nat := packBits ((List.range 32).map (pinLevel s))

/-- The settings of the pins a mask names. -/
def setPins (p : Pins) (mask mode edge value : Nat) : Pins :=
  let upd (l : List Nat) (v : Nat) : List Nat := l.mapIdx fun n x => if mask.testBit n then v else x
  { p with
    mode := upd p.mode mode
    edge := upd p.edge edge
    out := (p.out &&& ~~~(BitVec.ofNat 32 mask)) ||| BitVec.ofNat 32 value }

/-- SYS_GPIO (R616). -/
def sysGpioCard : Card where
  opcode := 0x0103
  len := fixedLen 0x0C
  fields b _ :=
    let mask := fld b 0 4
    [inMode (mask != 0) (inRange b 4 1 0 2), inMode (mask != 0 && fld b 4 1 == 0) (inRange b 5 1 0 3), resv b 6 2,
     eComb (mask == 0 && fld b 4 1 != 0) 4,
     eComb ((mask == 0 || fld b 4 1 != 0) && fld b 5 1 != 0) 5,
     eComb (BitVec.ofNat 32 (fld b 8 4) &&& ~~~(BitVec.ofNat 32 mask) != 0) 8]
  effect _ b s :=
    let s1 := { s with pins := setPins s.pins (fld b 0 4) (fld b 4 1) (fld b 5 1) (fld b 8 4) }
    (s1, .now (leBytes 4 (pinLevels s1)))

def execSysGpio (n : Fin 40) (s : State) : Host.Outcome State Fault Refusal := .next (mbxRun sysGpioCard n.val s)

/-- SYS_TALLY (R615). -/
def sysTallyCard : Card where
  opcode := 0x0104
  len := fixedLen 4
  fields b _ :=
    [inRange b 0 1 0 3, inRange b 1 1 0 2, resv b 3 1, eComb ((fld b 1 1 == 2) != (fld b 2 1 != 0)) 2]
  effect _ b s := ({ s with
    pins.tally := modAt s.pins.tally (fld b 0 1) fun _ => (fld b 1 1, fld b 2 1) }, .now [])

def execSysTally (n : Fin 40) (s : State) : Host.Outcome State Fault Refusal := .next (mbxRun sysTallyCard n.val s)

/-! ## Board-facing outputs (R611 to R613) -/

/-- INT_N is low (R73, R611). -/
def intNLow (s : State) : Bool := intActive s && [PinPhase.w, .run, .standby].contains (pinPhase s)

/-- SPWR_EN[k] is driven high (R611). -/
def spwrEnHigh (s : State) (k : Nat) : Bool := [PinPhase.w, .run, .standby].contains (pinPhase s) && s.br.spwrOn.getD k false

/-- Whether a tally is lit, its pin low (R611, R615): source 2 while a channel of its mask records or its clip is still to
close. -/
def tallyLit (s : State) (k : Nat) : Bool :=
  let t := s.pins.tally.getD k (0, 0)
  [PinPhase.run, .standby].contains (pinPhase s) && (t.1 == 1 || (t.1 == 2 && (List.range 8).any fun c =>
    t.2.testBit c && 2 ≤ (s.recs.chans.getD c {}).state))

/-- The standard that SYNC_OUT sends, none where the pin is Z: through W and Standby the time base keeps it running (R611). -/
def syncOutPin (s : State) : Option Nat :=
  if [PinPhase.w, .run, .standby].contains (pinPhase s) && s.time.syncOutStd != 0 then some s.time.syncOutStd else none

/-- The value that LTC_OUT sends, none where the pin is Z (R493, R611). -/
def ltcOutPin (s : State) : Option Nat :=
  if [PinPhase.w, .run, .standby].contains (pinPhase s) then s.time.ltc.sent else none

/-- What GPIO[n] drives, none where it is Z: an input, the wake pin, and every pin before a boot has ended (R611). -/
def gpioPin (s : State) (n : Nat) : Option Bool :=
  if [PinPhase.u, .a, .r].contains (pinPhase s) || wakePin s n then none
  else
    let v := s.pins.out.toNat.testBit n
    match s.pins.mode.getD n 0 with
    | 1 => some v
    | 2 => if v then none else some false
    | _ => none

/-- DRAM_RESET_N: Z while unpowered, low from VDD_AON good until training starts, then high (R613). -/
def dramResetN (s : State) : Option Bool := if pinPhase s = .u then none else some s.pwr.dramStarted

/-- The boot ROM drives the boot-flash pins: in W, and in step 7, which BOOT_READY takes in one row (R613). -/
def flashDriven (s : State) : Bool := pinPhase s == .w

/-- A pin of no row of R611 is Z: in U, A and R, and in W where its unit is stopped (R613). AUD_MCLK is none of a stopped
unit's. -/
def unitPinZ (s : State) (stopped : Bool) : Bool :=
  [PinPhase.u, .a, .r].contains (pinPhase s) || (pinPhase s == .w && stopped)

/-! ## Edges (R614) -/

/-- Whether a change of a pin is an edge its setting selects (R614). -/
def edgeSelected (s : State) (n : Nat) (was is : Bool) : Bool :=
  (s.pins.mode.getD n 0 == 0 || wakePin s n) && was != is && (s.pins.edge.getD n 0).testBit (if is then 0 else 1)

/-- A selected edge of a pin comes less than 100 ns, 122.88 PIPE clocks, after the one before it, and joins its record. -/
def edgeMerges (s : State) (n : Nat) : Bool :=
  (s.pins.edgeAt.getD n none).any fun c => decide ((s.time.c.toNat : Int) - c < 123)

/-- GPIO_EDGE (R614): the board's levels on the pins become `levels`; an edge that joins the record of the one before posts no
other. -/
def execGpioEdge (levels : BitVec 32) (s : State) : Host.Outcome State Fault Refusal :=
  let s1 := { s with pins.board := levels }
  let hit (n : Nat) : Bool := edgeSelected s n (pinLevel s n) (pinLevel s1 n)
  let post := (List.range 32).any fun n => hit n && !edgeMerges s n
  let changed := packBits ((List.range 32).map fun n => pinLevel s n != pinLevel s1 n)
  let s2 := { s1 with pins.edgeAt :=
    (List.range 32).map fun n => if hit n then some (s.time.c.toNat : Int) else s.pins.edgeAt.getD n none }
  .next (if post && s.pwr.powered then
    setLeaf (postEventS s2 0x0101 0 (leBytes 4 (pinLevels s1) ++ leBytes 4 changed)) 1 0 else s2)

end Sys2Proof.Machine
end

