-- ==== Sys2Proof/Machine/PowerOps.lean ====
section
/-! DEFINITION. Unit resets, the low-power states, and firmware images (chapter 24). -/

namespace Sys2Proof.Machine

/-! ## Unit resets (R569) -/

/-- Unit 1: streaming ends at once, the open frame dropped short, deferred transfers cancelled, counters cleared. -/
def unitSensor (s : State) (sn : Nat) : State :=
  let s1 := closeFrame s sn (2 ^ 8)
  let s2 := if (sensorOf s1 sn).streaming then leaveStreaming s1 sn else cancelDeferred s1 sn
  updSensor s2 sn fun x => { x with counters := List.replicate 64 0 }

/-- Unit 2: the transfer in progress ends with result 4; what waits behind it goes on. -/
def unitBus (s : State) (b : Nat) : State :=
  match busOf s b with
  | .poll .. :: _ => pollEnd s b 4 []
  | _ => busXferEnd s b 4 0 []

/-- Unit 3: the link of a port leaves the ring, and its handshake starts again. -/
def unitPort (s : State) (q : Nat) : State :=
  let p := ringPort s q
  let s1 := ringPortDown s q
  if p.lanesUp then linkLanesUp s1 q p.version else s1

/-- Unit 4: every memory job ends with result 2. -/
def unitJobs (s : State) : State :=
  (List.range 16).foldl (fun s j =>
    jobEnd (abandon s fun w => match w with
      | .job k _ _ => k == j
      | .stream .. => false) j 2) s

/-- Unit 6: the held buffer is released and the counters are cleared. -/
def unitOutput (s : State) (i : Nat) : State :=
  sweep (updOut s i fun x => { x with held := none, run := 0, repeats := 0, skips := 0, sizeSkips := 0, audioAdjust := 0, embed := [] })

/-- Unit 7: the frame store goes black and scan-out waits for its next alignment point. -/
def unitDisplay (s : State) : State :=
  updDisp s fun d => { d with
    store := [], composed := [], line := none, opened := 0, written := [], fetched := [], off := [none, none, none, none] }

/-- Unit 8: an audio unit stops, its buffer flushed and its counters cleared. -/
def unitAudio (s : State) (u : Nat) : State :=
  updAud (audStop s (2 ^ u) (classS s)) fun a => { a with
    starts := (a.starts.map fun x => { x with units := x.units &&& (31 ^^^ 2 ^ u) }).filter fun x => x.units != 0
    stops := a.stops.map fun x => { x with units := x.units &&& (31 ^^^ 2 ^ u) }
    replaced := a.replaced.set u 0
    ports := a.ports.mapIdx fun i p => if i + 2 = u then { p with faults := 0, slips := 0 } else p }

/-- Indexes each unit has. -/
def unitIndexes (unit : Nat) : Nat := [0, 4, 6, 8, 1, 1, 12, 1, 5, 2].getD unit 0

/-- What a unit's reset requires. -/
def unitMay (s : State) (unit index : Nat) : Bool :=
  match unit with
  | 1 => !((List.range 8).any fun c => (recChan s c).state == 2 && chanSensor s c == index)
  | 6 => (outOf s index).enabled
  | 7 => s.disp.enabled
  | 9 => (domOf s index).state != .off
  | _ => true

/-- PWR_UNIT_RESET's effect (R569). The Flint gate is closed during the reset, and opens again where its conditions hold
(R560). -/
def unitReset (s : State) (unit index : Nat) : State :=
  let s0 := closeFlint s
  let s1 := match unit with
    | 1 => unitSensor s0 index
    | 2 => unitBus s0 index
    | 3 => unitPort s0 index
    | 4 => unitJobs s0
    | 5 => controllerReset s0
    | 6 => unitOutput s0 index
    | 7 => unitDisplay s0
    | 8 => unitAudio s0 index
    | _ => askReopen (restartDomain s0 index id none) index
  openFlint (notify s1 0x1403 0 (leBytes 1 unit ++ leBytes 1 index) 2)

/-! ## Low power (R570 to R574) -/

/-- The conditions of entry (R571). -/
def mayRest (s : State) (hibernate : Bool) : Bool :=
  (s.img.sensors.all fun x => !x.streaming && !x.stopping && x.capture.isNone) &&
  (s.recs.chans.all fun c => c.state < 2) && (s.codec.jobs.all (·.isNone)) && (s.out.outs.all fun x => !x.enabled) &&
  !s.disp.enabled && (s.aud.running.all (!·)) &&
  (!s.gate.nvme.enabled || s.gate.nvme.shst == 2) && (s.ring.flows.all fun f => f.kind != 1 && f.kind != 2 && f.kind != 4) &&
  s.gate.sessions.isEmpty && s.pwr.staging.isNone && !s.mbx.activating &&
  (!hibernate || ((s.br.spwrOn.all (!·)) && (s.img.sensors.all fun x => x.powerReq.isNone) &&
    s.recs.vols.all fun v => !v.mounted))

def maskOf (l : List Nat) : Nat := (l.map (2 ^ ·)).sum

/-- Lanes at work: training, locked or shallow, but for the endpoint's (R570). -/
def workingLanes (s : State) : List Nat :=
  (laneAddrs s.fuse).filter fun a => [2, 3, 4].contains (laneOf s a).st && (laneOf s a).pers != 4

/-- A lane goes to the deep state; a SENSOR lane's link is down with it. -/
def restLane (s : State) (a : Nat) : State :=
  match (if (laneOf s a).pers = 3 then laneGroup s a else none) with
  | some g => linkDown (setLane s a 1 0) g.1 g.2.1 (2 ^ g.2.2)
  | none => setLane s a 1 0

/-- A Causeway link whose lanes go deep is down, and comes up again once they have retrained (R574). -/
def restLink (l : LaneLink) : LaneLink :=
  { l with up := false, partnerOk := 0, partnerActive := 0, askAt := none, lp := if l.lp = 1 then 0 else l.lp }

/-- Hibernate entry (R570, R574, R575): time flows lost, ring ports, links and drive ports down, what is not kept gone. -/
def hibernateEnter (s : State) : State :=
  let saved := s.gate.ports.map fun p => (p.state, p.windowKib)
  let lanes := workingLanes s
  let s1 := resetFlows (resetDomains s)
  let s2 := [0, 1].foldl (fun s e => ethLink s e false) ((List.range 8).foldl ringPortDown s1)
  let s3 := lanes.foldl restLane { s2 with lane.links := s2.lane.links.map (·.map restLink) }
  let s4 := (List.range 4).foldl (fun s p => if (gatePort s p).state = 1 then portDown s p else s) s3
  let s5 := resetRecording s4
  { s5 with
    ring.injectors := List.replicate 14 {}
    gate.nvme := {}
    disp.store := []
    disp.composed := []
    mbx := { s5.mbx with
      slots := [], db := Vector.replicate 40 0, arrival := [], started := [], heldSlots := [], done := 0, ready := false }
    pwr := { s5.pwr with state := .hibernate, savedPorts := saved, savedLanes := lanes } }

/-- A drive port comes up again with its window (R344, R574). -/
def restorePort (drives : List (Option DriveFacts)) (s : State) (p : Nat) : State :=
  let (st, window) := s.pwr.savedPorts.getD p (0, 0)
  match drives.getD p none with
  | some f => if st = 1 then bringUp s p window f else s
  | none => s

/-- Hibernate exit (R574, R575): sensors and maps not kept are cleared, drive ports and lanes come up, mailboxes are
ready. -/
def hibernateExit (s : State) (drives : List (Option DriveFacts)) : State :=
  let s3 := (List.range 4).foldl (restorePort drives) (dropUnkept s)
  let s4 := s3.pwr.savedLanes.foldl (fun s a => setLane s a 2 0) s3
  let s5 := { s4 with
    mbx := { s4.mbx with ready := true, epoch := s4.mbx.epoch + 1 }
    pwr := { s4.pwr with savedPorts := [], savedLanes := [] } }
  [0, 1].foldl askReopen s5

def PwrState.code : PwrState → Nat
  | .run => 0 | .standby => 1 | .hibernate => 2

/-- Entry completes; a wake that came meanwhile starts the exit at once (R567). -/
def restEnter (s : State) (target : PwrState) : State :=
  let s1 := if target = .hibernate then hibernateEnter s else { s with pwr.state := target }
  { s1 with pwr := { s1.pwr with
      wakePending := none
      move := s.pwr.wakePending.map fun c => { entering := false, target := .run, cause := c } } }

/-- Exit completes: byte lanes that drifted trained again, Run, with `EV_PWR_STATE` (R505, R570, R574, R585). -/
def restExit (s : State) (cause us : Nat) (r : ExitReport) : State :=
  let hib := s.pwr.state = .hibernate
  let cleared := if hib then maskOf (hibSensors s) else 0
  let freed := if hib then maskOf (hibMaps s) else 0
  let s1 := { s with
    pwr := { s.pwr with state := .run, move := none, wakeGpio := 0xFF, wakeFalling := false, tWake := 0 }
    mem.channels := s.mem.channels.mapIdx fun i c =>
      if i < dramChannels s.fuse then retrainChannel s.fuse (r.channels.getD i ⟨[], []⟩) c else c }
  let s2 := if hib then hibernateExit s1 r.drives else s1
  let s3 := notify s2 0x1402 0 (leBytes 1 s.pwr.state.code ++ [0] ++ leBytes 1 cause ++ leBytes 1 cleared ++
    leBytes 4 us ++ leBytes 2 freed) 1
  if hib then flushNotices s3 else s3

/-! ## Firmware images (R577, R578, R582) -/

/-- What a header says of its image. -/
def imageSlot (h : List Byte) : FwSlot where
  valid := true
  level := fld h 4 1
  minor := fld h 5 1
  patch := fld h 6 1
  build := fld h 8 4
  counter := fld h 0x0C 4

/-- The key hash, the header's signature and the body's hash hold (R577). -/
def imageSigned (f : Fuse) (h body : List Byte) : Bool :=
  let key := (h.drop 0x50).take 96
  sha384 key == f.fwKeyHash && ecdsaOk key (h.take 0xB0) ((h.drop 0xB0).take 96) && sha384 body == (h.drop 0x20).take 48

/-- The entries of a profile: number and value. -/
def profileEntries : Nat → List Byte → List (Nat × Nat)
  | 0, _ => []
  | n + 1, b => (fld b 2 2, fld b 0 2) :: profileEntries n (b.drop 4)

/-- A DRAM profile gives every parameter the controller knows, none other, and none below its fused minimum (R578). -/
def profileValid (h body : List Byte) : Bool :=
  let off := fld h 0x14 4
  let len := fld h 0x18 4
  let es := profileEntries (len / 4) (body.drop off)
  len % 4 == 0 && off + len ≤ body.length &&
    (es.all fun e => Config.profileParams.any fun p => p.1 == e.1 && p.2 ≤ e.2) &&
    Config.profileParams.all fun p => es.any fun e => e.1 == p.1

/-- The largest body a slot takes (R577). -/
def maxBody : Nat := 8388096

/-- Firmware has finished every command it owned but the activation and those held (R70, R582). -/
def oldDone (s : State) (n : Nat) : Bool := s.mbx.arrival.all fun m => m == n || s.mbx.heldSlots.contains m

/-- The new firmware takes over: CAP_FW, its response, the boot record, then the held commands (R70 to R72, R582). -/
def activate (s : State) (n slot : Nat) (lacks : List Nat) : State :=
  let s1 := runImage s slot lacks
  let s2 := mbxOk s1 n (leBytes 4 s1.pwr.capFw.toNat ++ leBytes 4 s1.pwr.fwBuild)
  let s3 := { s2 with
    mbx := { s2.mbx with staged := false, activating := false, heldSlots := [] }
    pwr := { writeRecord s2.pwr slot with stagedSlot := none, activateSlot := none } }
  answerUnassigned s3

/-- `FW_STATUS` (R582). -/
def fwStatusBytes (s : State) : List Byte :=
  let slot (n : Nat) : List Byte :=
    let x := s.pwr.slots.getD n {}
    leBytes 1 (boolNat x.valid) ++ leBytes 1 x.level ++ leBytes 1 x.minor ++ leBytes 1 x.patch ++ leBytes 4 x.build ++
      leBytes 4 x.counter ++ [0, 0, 0, 0]
  leBytes 1 s.pwr.active ++ leBytes 1 (s.pwr.stagedSlot.getD 0xFF) ++ [0, 0] ++ slot 0 ++ slot 1 ++
    leBytes 4 s.fuse.fwMinCounter

end Sys2Proof.Machine
end

