-- ==== Sys2Proof/Machine/Power.lean ====
section
/-! DEFINITION. The commands of group 0x14 and the events of power states and firmware (chapter 24). -/

namespace Sys2Proof.Machine

/-! ## Power states (R571 to R574, R583) -/

/-- A ring port that is up breaks on purpose before Hibernate, with its notices (R400, R574). -/
def restBreak (s : State) (q : Nat) : State :=
  if (ringPort s q).state = 2 && !breakKnown s q then endBreak s q false else s

/-- PWR_STATE (R571, R574, R583). -/
def pwrStateCard : Card where
  opcode := 0x1401
  len := fixedLen 0x0C
  fields b s :=
    let run := fld b 0 1 == 0
    let gpio := fld b 1 1
    [inRange b 0 1 0 2, eRange (!run && 32 ≤ gpio && gpio != 0xFF) 1, eRange (gpio != 0xFF && 1 < fld b 2 1) 2,
     resv b 3 1,
     eRange (!run && fld b 4 8 != 0 && fld b 4 8 < classL s) 4,
     eComb (run && gpio != 0xFF) 1, eComb (gpio == 0xFF && fld b 2 1 != 0) 2, eComb (run && fld b 4 8 != 0) 4]
  state b s :=
    let ok := if fld b 0 1 = 0 then s.pwr.state == .standby && s.pwr.move.isNone
      else s.pwr.state == .run && s.pwr.move.isNone && mayRest s (fld b 0 1 == 2)
    [eStateAt (!ok) 0]
  effect _ b s :=
    if fld b 0 1 = 0 then
      ({ s with pwr.move := some { entering := false, target := .run, cause := 0 } }, .now [0, 0, 0, 0])
    else
      let hib := fld b 0 1 = 2
      let s := if hib then (List.range 8).foldl restBreak s else s
      ({ s with pwr := { s.pwr with
          move := some { entering := true, target := if hib then .hibernate else .standby }
          wakePending := none, wakeGpio := fld b 1 1, wakeFalling := fld b 2 1 == 1, tWake := fld b 4 8 } },
        .now (leBytes 2 (if hib then maskOf (hibSensors s) else 0) ++ leBytes 2 (if hib then maskOf (hibMaps s) else 0)))

def execPwrState (n : Fin 40) (s : State) : Host.Outcome State Fault Refusal := .next (mbxRun pwrStateCard n.val s)

/-- WAKE_GPIO (R572): the chosen edge on the wake pin. -/
def execWakeGpio (s : State) : Host.Outcome State Fault Refusal :=
  .next (if s.pwr.wakeGpio < 32 then wake s 2 else s)

/-- WAKE_TIME (R572): class L time reaches `t_wake`. -/
def execWakeTime (s : State) : Host.Outcome State Fault Refusal := .next (if s.pwr.tWake != 0 then wake s 3 else s)

/-- POWER_STATE_ENTERED (R570, R571, R574): entry completes, while its conditions still hold and no command runs. -/
def execPowerStateEntered (s : State) : Host.Outcome State Fault Refusal :=
  match s.pwr.move with
  | none => .next s
  | some m =>
    if !m.entering || !s.mbx.arrival.isEmpty || !mayRest s (m.target == .hibernate) then .next s
    else .next (restEnter s m.target)

/-- POWER_STATE_EXIT_DONE (R505, R570, R574): exit completes after `us`. -/
def execPowerStateExitDone (us : BitVec 32) (r : ExitReport) (s : State) :
    Host.Outcome State Fault Refusal :=
  match s.pwr.move with
  | none => .next s
  | some m => .next (if m.entering then s else restExit s m.cause us.toNat r)

/-! ## Unit resets -/

/-- PWR_UNIT_RESET (R569, R583). -/
def pwrUnitResetCard : Card where
  opcode := 0x1402
  len := fixedLen 4
  fields b s :=
    [inRange b 0 1 1 9, eVariant (fld b 0 1 == 3 && !s.fuse.ring) 0, resv b 2 2,
     eComb (unitIndexes (fld b 0 1) ≤ fld b 1 1) 1]
  state b s :=
    [eStateAt (s.pwr.state != .run || s.pwr.move.isSome || !unitMay s (fld b 0 1) (fld b 1 1)) 0]
  effect _ b s := (unitReset s (fld b 0 1) (fld b 1 1), .now [])

def execPwrUnitReset (n : Fin 40) (s : State) : Host.Outcome State Fault Refusal :=
  .next (mbxRun pwrUnitResetCard n.val s)

/-! ## Firmware (R577, R578, R582, R583) -/

/-- FW_STAGE: the image in DRAM is checked and copied, and its write to the inactive slot starts. -/
def fwStageCard : Card where
  opcode := 0x1410
  len := fixedLen 0x10
  fields b s :=
    let a := fld b 0 8
    let h := dramRead s a 0x200
    let n := fld h 0x10 4
    let body := dramRead s (a + 0x200) (min n maxBody)
    let x := imageSlot h
    [eRange (a % 256 != 0 || !hostRangeOk s a (fld b 8 4)) 0, resv b 0x0C 4,
     rejIf (!imageSigned s.fuse h body) 0x1401 0 0, rejIf (x.counter < s.fuse.fwMinCounter) 0x1402 0 s.fuse.fwMinCounter,
     rejIf (x.level != 3) 0x1403 0 x.level, rejIf (!profileValid h body) 0x1404 0 0,
     eComb (maxBody < n || fld b 8 4 != 0x200 + n) 8]
  state _ s := [eState (s.mbx.activating || s.pwr.staging.isSome)]
  effect _ b s :=
    let x := imageSlot (dramRead s (fld b 0 8) 0x200)
    let slot := 1 - s.pwr.active
    ({ s with
        mbx.staged := false
        pwr := { s.pwr with stagedSlot := none, staging := some (slot, x), slots := s.pwr.slots.set slot {} } },
      .now (leBytes 1 slot ++ [0, 0, 0] ++ leBytes 4 x.build))

def execFwStage (n : Fin 40) (s : State) : Host.Outcome State Fault Refusal := .next (mbxRun fwStageCard n.val s)

/-- FW_STAGE_WRITE_DONE (R585): the flash write ends: 0 staged, 1 write failed, 2 read-back mismatch. -/
def execFwStageWriteDone (result : Fin 3) (s : State) : Host.Outcome State Fault Refusal :=
  match s.pwr.staging with
  | none => .next s
  | some (slot, x) =>
    let ok := result.val = 0
    let s1 := { s with
      mbx.staged := ok
      pwr := { s.pwr with
        staging := none
        stagedSlot := if ok then some slot else none
        slots := if ok then s.pwr.slots.set slot x else s.pwr.slots } }
    .next (notify s1 0x1410 0 (leBytes 1 result.val ++ leBytes 1 slot ++ [0, 0] ++ leBytes 4 x.build ++
      leBytes 4 x.counter) 3)

/-- FW_ACTIVATE (R70, R582): the new firmware answers. DESIGN CHOICE (log entry 206): the old firmware, which has to answer
every command it owned before, refuses a second activation with E_STATE. -/
def fwActivateCard : Card where
  opcode := 0x1411
  len := fixedLen 4
  fields b s := [eComb (s.pwr.stagedSlot.any fun k => (s.pwr.slots.getD k {}).build != fld b 0 4) 0]
  seq _ s := [eSeq s.pwr.stagedSlot.isNone]
  state _ s := [eState (s.pwr.state != .run || s.pwr.move.isSome || s.pwr.staging.isSome || s.mbx.activating)]
  effect n _ s := ({ s with
    mbx.activating := true
    pwr.activateSlot := some n }, .later)

def execFwActivate (n : Fin 40) (s : State) : Host.Outcome State Fault Refusal := .next (mbxRun fwActivateCard n.val s)

/-- FW_ACTIVATION_DONE (R70 to R72, R582): once the old firmware has finished, the new one takes over; `lacks` are the
assigned opcodes it does not implement. -/
def execFwActivationDone (lacks : List Nat) (s : State) : Host.Outcome State Fault Refusal :=
  match s.pwr.activateSlot, s.pwr.stagedSlot with
  | some n, some slot => .next (if oldDone s n then activate s n slot lacks else s)
  | _, _ => .next s

/-- FW_ACTIVATION_REVERT (R582): the staged image fails its checks, or does not answer: a soft reset into the old
slot. -/
def execFwActivationRevert (s : State) : Host.Outcome State Fault Refusal :=
  .next (if s.pwr.activateSlot.isSome then softReset .reverted s else s)

/-- FW_STATUS (R582). -/
def fwStatusCard : Card where
  opcode := 0x1412
  len := fixedLen 0
  effect _ _ s := (s, .now (fwStatusBytes s))

def execFwStatus (n : Fin 40) (s : State) : Host.Outcome State Fault Refusal := .next (mbxRun fwStatusCard n.val s)

end Sys2Proof.Machine
end

