-- ==== Sys2Proof/Machine/Spares.lean ====
section
/-! DEFINITION. The commands of group 0x15 and the events of banks, self-tests and poisoned bursts (chapters 21 and
25). -/

namespace Sys2Proof.Machine

/-- SPARE_STATUS (R598). -/
def spareStatusCard : Card where
  opcode := 0x1501
  len := fixedLen 4
  fields b _ := [inRange b 0 1 0 1, resv b 1 3]
  effect _ b s :=
    let r := (List.range 7).foldl poolBytes ([], s)
    let x := s.spare
    let resp := r.1 ++ leBytes 4 x.ledger.length ++ leBytes 4 x.qgen ++ leBytes 1 (boolNat x.ledgerFault) ++ [0, 0, 0] ++
      leBytes 4 x.poisonHandled
    (if fld b 0 1 = 1 then { r.2 with
      spare.substitutions := List.replicate 7 0
      spare.poisonHandled := 0 } else r.2, .now resp)

def execSpareStatus (n : Fin 40) (s : State) : Host.Outcome State Fault Refusal := .next (mbxRun spareStatusCard n.val s)

/-- SPARE_LEDGER (R595, R598). -/
def spareLedgerCard : Card where
  opcode := 0x1502
  len := fixedLen 8
  fields b s := [eRange (s.spare.ledger.length ≤ fld b 0 4) 0, inRange b 4 1 1 14, resv b 5 3]
  effect _ b s :=
    let l := (s.spare.ledger.drop (fld b 0 4)).take (fld b 4 1)
    (s, .now (leBytes 4 l.length ++ leBytes 4 s.spare.ledger.length ++ List.replicate 8 0 ++ l.flatMap ledgerBytes))

def execSpareLedger (n : Fin 40) (s : State) : Host.Outcome State Fault Refusal := .next (mbxRun spareLedgerCard n.val s)

/-- SPARE_RETURN (R589, R598): the self-test of a failed unit starts. -/
def spareReturnCard : Card where
  opcode := 0x1503
  len := fixedLen 4
  fields b s := [oneOf b 0 1 [1, 2, 3, 6], resv b 1 1, eVariant (unitCount s.fuse (fld b 0 1) ≤ fld b 2 2) 2]
  state b s := [eStateAt (!unitFailed s (fld b 0 1) (fld b 2 2)) 2]
  res b s := [eBusyAt (s.spare.testing.any fun t => t.1 == fld b 0 1) 0]
  effect _ b s := ({ s with spare.testing := s.spare.testing ++ [(fld b 0 1, fld b 2 2, true)] }, .now [])

def execSpareReturn (n : Fin 40) (s : State) : Host.Outcome State Fault Refusal := .next (mbxRun spareReturnCard n.val s)

/-- BANK_FAULT (R588 to R591): an uncorrectable error in a bank. `spans` lists the pixels a bank of the display frame
store held. -/
def execBankFault (array : Fin 15) (unit : Fin 16) (bank : Fin 1024) (spans : List (Fin 1600 × Fin 2560 × Fin 2561))
    (flash : Bool) (s : State) : Host.Outcome State Fault Refusal :=
  let b : BankId := ⟨array.val, unit.val, bank.val⟩
  let s0 := { s with spare.flashOk := flash }
  if !bankExists s.fuse b || bankGone s b then .next s
  else
    let lost := spans.map fun x => (x.1.val, x.2.1.val, x.2.2.val)
    if 0 < sparesLeft s.spare.retired b.array b.unit then .next (bankRecover s0 b lost)
    else .next (bankOverdraw s0 b 0 0 lost)

/-- BANK_WEAR (R588, R590): 16 or more corrections in 60 minutes; with a spare bank no unit notices. -/
def execBankWear (array : Fin 15) (unit : Fin 16) (bank : Fin 1024) (corrections : BitVec 32) (flash : Bool)
    (s : State) : Host.Outcome State Fault Refusal :=
  let b : BankId := ⟨array.val, unit.val, bank.val⟩
  let s0 := { s with spare.flashOk := flash }
  if !bankExists s.fuse b || bankGone s b || corrections.toNat < 16 then .next s
  else if 0 < sparesLeft s.spare.retired b.array b.unit then .next (bankRecord b 2 corrections.toNat s0)
  else .next (bankOverdraw s0 b 2 corrections.toNat [])

/-- SELF_TEST_DONE (R589, R600): a running self-test passes or fails; the cause tells one that a command asked for. -/
def execSelfTestDone (cls : Fin 8) (index : Fin 64) (pass flash : Bool) (s : State) :
    Host.Outcome State Fault Refusal :=
  match s.spare.testing.find? fun t => t.1 == cls.val && t.2.1 == index.val with
  | none => .next s
  | some t =>
    let s1 := { s with
      spare.testing := s.spare.testing.erase t
      spare.flashOk := flash }
    if pass then .next (unitReturned s1 t.1 t.2.1 (if t.2.2 then 7 else 8))
    else if t.2.2 then .next (spareRecord s1 t.1 0 8 t.2.1 0 0 0)
    else .next s1

/-- A staged write takes 0 for the bytes of a poisoned burst, and so does the write that shares its staging (R594). -/
def poisonStaged (s : State) (i off : Nat) : State :=
  match s.gate.writes[i]? with
  | none => s
  | some w =>
    { s with gate.writes := s.gate.writes.map fun v =>
      if v.id == w.id || v.shared == some w.id || w.shared == some v.id then
        { v with data := v.data.mapIdx fun k x => if off ≤ k && k < off + 32 then 0 else x }
      else v }

/-- What the client of a poisoned burst does (R594): Flagstone resets; a drive write of the Media Gate carries zeros; a host
read of the Gate fails with its own row. Any other client meets the burst in DRAM. -/
def poisonClient (s : State) (a : Nat) (client : BurstClient) : State :=
  match client with
  | .none => s
  | .flagstone => watchdogReset (poisonHandled s a)
  | .staged i off => poisonHandled (poisonStaged s i off) a
  | .gateRead => poisonHandled s a

/-- BURST_POISONED (R501, R515, R516, R521): a burst whose four reads failed is delivered poisoned to a client, and its row
is queued for retirement. The address gives the rank. -/
def execBurstPoisoned (addr : BitVec 36) (rank : Fin 2) (bank : BitVec 12) (row : BitVec 32) (client : BurstClient)
    (s : State) : Host.Outcome State Fault Refusal :=
  let a := burstOf addr.toNat
  let ch := dramChannelOf s.fuse a
  if dramBytes s.fuse ≤ a || rank.val != dramRankOf s.fuse a then .next s
  else
    let s1 := updChannel { s with
      mem.poison := if s.mem.poison.contains a then s.mem.poison else s.mem.poison ++ [a]
      mem.poisonBanks := (a, bank.toNat) :: s.mem.poisonBanks.filter fun p => p.1 != a } ch fun c => { c with
      poisoned := sat32 c.poisoned 1 }
    let s2 := notify s1 0x1103 ch (leBytes 8 a ++ leBytes 1 rank.val ++ [4, 0, 0] ++
      leBytes 4 (s1.mem.channels.getD ch {}).poisoned) 2
    let s3 := queueRow s2 ch ⟨rank.val, bank.toNat, row.toNat, 0, true, 0⟩
    .next (poisonClient s3 a client)

end Sys2Proof.Machine
end

