-- ==== Sys2Proof/Machine/Dispatch.lean ====
section
/-! DEFINITION. One arm for each constructor of `Instr`, each one call of the row's meaning. -/

namespace Sys2Proof.Machine

def exec (i : Instr) (s : State) : Host.Outcome State Fault Refusal :=
  match i with
  | .sysIdentify n => Sys2Proof.Machine.execSysIdentify n s
  | .sysReset n => Sys2Proof.Machine.execSysReset n s
  | .sysGpio n => Sys2Proof.Machine.execSysGpio n s
  | .sysTally n => Sys2Proof.Machine.execSysTally n s
  | .evqConfig n => Sys2Proof.Machine.execEvqConfig n s
  | .evqRoute n => Sys2Proof.Machine.execEvqRoute n s
  | .evqReset n => Sys2Proof.Machine.execEvqReset n s
  | .sensConfig n => Sys2Proof.Machine.execSensConfig n s
  | .sensPower n => Sys2Proof.Machine.execSensPower n s
  | .sensStart n => Sys2Proof.Machine.execSensStart n s
  | .sensStop n => Sys2Proof.Machine.execSensStop n s
  | .sensClear n => Sys2Proof.Machine.execSensClear n s
  | .sensBusXfer n => Sys2Proof.Machine.execSensBusXfer n s
  | .sensCounters n => Sys2Proof.Machine.execSensCounters n s
  | .sensMetaPoll n => Sys2Proof.Machine.execSensMetaPoll n s
  | .schedSensor n => Sys2Proof.Machine.execSchedSensor n s
  | .schedCommit n => Sys2Proof.Machine.execSchedCommit n s
  | .schedStatus n => Sys2Proof.Machine.execSchedStatus n s
  | .feLinLoad n => Sys2Proof.Machine.execFeLinLoad n s
  | .feMerge n => Sys2Proof.Machine.execFeMerge n s
  | .feBlack n => Sys2Proof.Machine.execFeBlack n s
  | .feMapAlloc n => Sys2Proof.Machine.execFeMapAlloc n s
  | .feMapFree n => Sys2Proof.Machine.execFeMapFree n s
  | .feMapSelect n => Sys2Proof.Machine.execFeMapSelect n s
  | .feDefect n => Sys2Proof.Machine.execFeDefect n s
  | .feStatsConfig n => Sys2Proof.Machine.execFeStatsConfig n s
  | .feCalCapture n => Sys2Proof.Machine.execFeCalCapture n s
  | .feCalAbort n => Sys2Proof.Machine.execFeCalAbort n s
  | .devCfa n => Sys2Proof.Machine.execDevCfa n s
  | .devDemosaic n => Sys2Proof.Machine.execDevDemosaic n s
  | .devSlFrame n => Sys2Proof.Machine.execDevSlFrame n s
  | .colTransform n => Sys2Proof.Machine.execColTransform n s
  | .colGains n => Sys2Proof.Machine.execColGains n s
  | .colShaperLoad n => Sys2Proof.Machine.execColShaperLoad n s
  | .lutLoad n => Sys2Proof.Machine.execLutLoad n s
  | .colContrast n => Sys2Proof.Machine.execColContrast n s
  | .colOutput n => Sys2Proof.Machine.execColOutput n s
  | .colStatus n => Sys2Proof.Machine.execColStatus n s
  | .rnd0Output n => Sys2Proof.Machine.execRnd0Output n s
  | .rndBind n => Sys2Proof.Machine.execRndBind n s
  | .rndGeometry n => Sys2Proof.Machine.execRndGeometry n s
  | .rndStatus n => Sys2Proof.Machine.execRndStatus n s
  | .tapConfig n => Sys2Proof.Machine.execTapConfig n s
  | .codecStream n => Sys2Proof.Machine.execCodecStream n s
  | .codecJobEncode n => Sys2Proof.Machine.execCodecJobEncode n s
  | .codecJobDecode n => Sys2Proof.Machine.execCodecJobDecode n s
  | .codecJobResume n => Sys2Proof.Machine.execCodecJobResume n s
  | .codecJobAbort n => Sys2Proof.Machine.execCodecJobAbort n s
  | .codecStatus n => Sys2Proof.Machine.execCodecStatus n s
  | .recStart n => Sys2Proof.Machine.execRecStart n s
  | .recStop n => Sys2Proof.Machine.execRecStop n s
  | .recChannel n => Sys2Proof.Machine.execRecChannel n s
  | .recVolFormat n => Sys2Proof.Machine.execRecVolFormat n s
  | .recVolMount n => Sys2Proof.Machine.execRecVolMount n s
  | .recVolUnmount n => Sys2Proof.Machine.execRecVolUnmount n s
  | .recClipDelete n => Sys2Proof.Machine.execRecClipDelete n s
  | .recStatus n => Sys2Proof.Machine.execRecStatus n s
  | .gateStatus n => Sys2Proof.Machine.execGateStatus n s
  | .gateDrive n drive => Sys2Proof.Machine.execGateDrive n drive s
  | .gateService n => Sys2Proof.Machine.execGateService n s
  | .gateRemote n => Sys2Proof.Machine.execGateRemote n s
  | .gateSessionOpen n => Sys2Proof.Machine.execGateSessionOpen n s
  | .gateSessionClose n => Sys2Proof.Machine.execGateSessionClose n s
  | .laneConfig n khzA khzB => Sys2Proof.Machine.execLaneConfig n khzA khzB s
  | .laneStatus n taps eyeW eyeH => Sys2Proof.Machine.execLaneStatus n taps eyeW eyeH s
  | .laneLink n => Sys2Proof.Machine.execLaneLink n s
  | .lanePower n => Sys2Proof.Machine.execLanePower n s
  | .laneLoop n bits errs => Sys2Proof.Machine.execLaneLoop n bits errs s
  | .laneEq n => Sys2Proof.Machine.execLaneEq n s
  | .ringConfig n => Sys2Proof.Machine.execRingConfig n s
  | .ringStatus n => Sys2Proof.Machine.execRingStatus n s
  | .flowOpen n => Sys2Proof.Machine.execFlowOpen n s
  | .flowClose n => Sys2Proof.Machine.execFlowClose n s
  | .flowListen n => Sys2Proof.Machine.execFlowListen n s
  | .flowSend n => Sys2Proof.Machine.execFlowSend n s
  | .flowStatus n => Sys2Proof.Machine.execFlowStatus n s
  | .outSdi n => Sys2Proof.Machine.execOutSdi n s
  | .out2110 n => Sys2Proof.Machine.execOut2110 n s
  | .outEthPort n => Sys2Proof.Machine.execOutEthPort n s
  | .outStatus n => Sys2Proof.Machine.execOutStatus n s
  | .dispConfig n => Sys2Proof.Machine.execDispConfig n s
  | .dispLayer n => Sys2Proof.Machine.execDispLayer n s
  | .dispCommit n => Sys2Proof.Machine.execDispCommit n s
  | .dispDcs n r0 r1 => Sys2Proof.Machine.execDispDcs n r0 r1 s
  | .dispStatus n => Sys2Proof.Machine.execDispStatus n s
  | .audConfig n => Sys2Proof.Machine.execAudConfig n s
  | .audPort n => Sys2Proof.Machine.execAudPort n s
  | .audChannel n => Sys2Proof.Machine.execAudChannel n s
  | .audSlots n => Sys2Proof.Machine.execAudSlots n s
  | .audStart n => Sys2Proof.Machine.execAudStart n s
  | .audStop n => Sys2Proof.Machine.execAudStop n s
  | .audStatus n => Sys2Proof.Machine.execAudStatus n s
  | .timeDomain n => Sys2Proof.Machine.execTimeDomain n s
  | .timeSelect n => Sys2Proof.Machine.execTimeSelect n s
  | .timePort n => Sys2Proof.Machine.execTimePort n s
  | .timeSync n => Sys2Proof.Machine.execTimeSync n s
  | .timeLtc n => Sys2Proof.Machine.execTimeLtc n s
  | .timeServe n => Sys2Proof.Machine.execTimeServe n s
  | .timeStatus n => Sys2Proof.Machine.execTimeStatus n s
  | .memStatus n => Sys2Proof.Machine.execMemStatus n s
  | .memAperture n => Sys2Proof.Machine.execMemAperture n s
  | .memKeep n => Sys2Proof.Machine.execMemKeep n s
  | .thermConfig n => Sys2Proof.Machine.execThermConfig n s
  | .thermStatus n => Sys2Proof.Machine.execThermStatus n s
  | .calConfig n => Sys2Proof.Machine.execCalConfig n s
  | .calRun n => Sys2Proof.Machine.execCalRun n s
  | .calStatus n => Sys2Proof.Machine.execCalStatus n s
  | .brStatus n => Sys2Proof.Machine.execBrStatus n s
  | .brPolicy n => Sys2Proof.Machine.execBrPolicy n s
  | .pwrState n => Sys2Proof.Machine.execPwrState n s
  | .pwrUnitReset n => Sys2Proof.Machine.execPwrUnitReset n s
  | .fwStage n => Sys2Proof.Machine.execFwStage n s
  | .fwActivate n => Sys2Proof.Machine.execFwActivate n s
  | .fwStatus n => Sys2Proof.Machine.execFwStatus n s
  | .spareStatus n => Sys2Proof.Machine.execSpareStatus n s
  | .spareLedger n => Sys2Proof.Machine.execSpareLedger n s
  | .spareReturn n => Sys2Proof.Machine.execSpareReturn n s
  | .flintSet n => Sys2Proof.Machine.execFlintSet n s
  | .flintStatus n => Sys2Proof.Machine.execFlintStatus n s
  | .doorbellRing port n value => Sys2Proof.Machine.execDoorbellRing port n value s
  | .registerWrite port addr data => Sys2Proof.Machine.execRegisterWrite port addr data s
  | .attnLeafClear port reg value => Sys2Proof.Machine.execAttnLeafClear port reg value s
  | .attnMaskWrite port reg value => Sys2Proof.Machine.execAttnMaskWrite port reg value s
  | .wmHitClear port q => Sys2Proof.Machine.execWmHitClear port q s
  | .eqPortRead q word => Sys2Proof.Machine.execEqPortRead q word s
  | .eqMark port q => Sys2Proof.Machine.execEqMark port q s
  | .eqRewind port q alsoMark => Sys2Proof.Machine.execEqRewind port q alsoMark s
  | .eqRelease port q value => Sys2Proof.Machine.execEqRelease port q value s
  | .pwrWakeWrite port value => Sys2Proof.Machine.execPwrWakeWrite port value s
  | .tbCountRead wide => Sys2Proof.Machine.execTbCountRead wide s
  | .tbDomainRead d wide => Sys2Proof.Machine.execTbDomainRead d wide s
  | .bedrockWindowWrite port word value => Sys2Proof.Machine.execBedrockWindowWrite port word value s
  | .bar2Access off access ecc => Sys2Proof.Machine.execBar2Access off access ecc s
  | .qspiTransaction instr addr data count => Sys2Proof.Machine.execQspiTransaction instr addr data count s
  | .qspiStatusRead => Sys2Proof.Machine.execQspiStatusRead s
  | .coldPowerOn refclk alt resetLow plossLow mv => Sys2Proof.Machine.execColdPowerOn refclk alt resetLow plossLow mv s
  | .bootReady r => Sys2Proof.Machine.execBootReady r s
  | .resetN held => Sys2Proof.Machine.execResetN held s
  | .plossNFall => Sys2Proof.Machine.execPlossNFall s
  | .plossDrainDone ports us => Sys2Proof.Machine.execPlossDrainDone ports us s
  | .plossResetPoint low => Sys2Proof.Machine.execPlossResetPoint low s
  | .plossResponseEnd => Sys2Proof.Machine.execPlossResponseEnd s
  | .railUndervoltage k mv => Sys2Proof.Machine.execRailUndervoltage k mv s
  | .railOvervoltage k mv => Sys2Proof.Machine.execRailOvervoltage k mv s
  | .refclkLost alt => Sys2Proof.Machine.execRefclkLost alt s
  | .refclkFailoverDone => Sys2Proof.Machine.execRefclkFailoverDone s
  | .refclkStop final => Sys2Proof.Machine.execRefclkStop final s
  | .thermalTrip => Sys2Proof.Machine.execThermalTrip s
  | .lockstepFault => Sys2Proof.Machine.execLockstepFault s
  | .coreHeartbeatMiss core flash => Sys2Proof.Machine.execCoreHeartbeatMiss core flash s
  | .watchdogReset => Sys2Proof.Machine.execWatchdogReset s
  | .testEnFall => Sys2Proof.Machine.execTestEnFall s
  | .flintGateOpen => Sys2Proof.Machine.execFlintGateOpen s
  | .spwrPgFall sensor => Sys2Proof.Machine.execSpwrPgFall sensor s
  | .spwrPgRise sensor => Sys2Proof.Machine.execSpwrPgRise sensor s
  | .spwrPgTimeout sensor => Sys2Proof.Machine.execSpwrPgTimeout sensor s
  | .sensorPowerSettled sensor => Sys2Proof.Machine.execSensorPowerSettled sensor s
  | .gpioEdge levels => Sys2Proof.Machine.execGpioEdge levels s
  | .wakeGpio => Sys2Proof.Machine.execWakeGpio s
  | .wakeTime => Sys2Proof.Machine.execWakeTime s
  | .powerStateEntered => Sys2Proof.Machine.execPowerStateEntered s
  | .powerStateExitDone us r => Sys2Proof.Machine.execPowerStateExitDone us r s
  | .fwStageWriteDone result => Sys2Proof.Machine.execFwStageWriteDone result s
  | .fwActivationDone lacks => Sys2Proof.Machine.execFwActivationDone lacks s
  | .fwActivationRevert => Sys2Proof.Machine.execFwActivationRevert s
  | .frameStart sensor p => Sys2Proof.Machine.execFrameStart sensor p s
  | .frameEnd sensor p => Sys2Proof.Machine.execFrameEnd sensor p s
  | .linePacket sensor p => Sys2Proof.Machine.execLinePacket sensor p s
  | .embeddedPacket sensor p => Sys2Proof.Machine.execEmbeddedPacket sensor p s
  | .lineTimeout sensor => Sys2Proof.Machine.execLineTimeout sensor s
  | .framePeriodTimeout sensor => Sys2Proof.Machine.execFramePeriodTimeout sensor s
  | .linkLockLoss sensor link lanes => Sys2Proof.Machine.execLinkLockLoss sensor link lanes s
  | .sensorLinkUp sensor link => Sys2Proof.Machine.execSensorLinkUp sensor link s
  | .busXferDone bus result written data => Sys2Proof.Machine.execBusXferDone bus result written data s
  | .metaPollTrigger sensor fifo => Sys2Proof.Machine.execMetaPollTrigger sensor fifo s
  | .metaPollDone bus result data => Sys2Proof.Machine.execMetaPollDone bus result data s
  | .bandIssue engine => Sys2Proof.Machine.execBandIssue engine s
  | .bandComplete engine misses stall => Sys2Proof.Machine.execBandComplete engine misses stall s
  | .deadlineDrop sensor => Sys2Proof.Machine.execDeadlineDrop sensor s
  | .engineFault engine flash => Sys2Proof.Machine.execEngineFault engine flash s
  | .engineNoProgress engine flash => Sys2Proof.Machine.execEngineNoProgress engine flash s
  | .slotRelease sensor slot => Sys2Proof.Machine.execSlotRelease sensor slot s
  | .bankWrite inst bank => Sys2Proof.Machine.execBankWrite inst bank s
  | .calFinalPassDone sensor => Sys2Proof.Machine.execCalFinalPassDone sensor s
  | .renditionTake r => Sys2Proof.Machine.execRenditionTake r s
  | .renditionFrameDone r => Sys2Proof.Machine.execRenditionFrameDone r s
  | .slabIssue lane => Sys2Proof.Machine.execSlabIssue lane s
  | .slabVerified p v flash => Sys2Proof.Machine.execSlabVerified p v flash s
  | .codecDeadline t => Sys2Proof.Machine.execCodecDeadline t s
  | .codecLaneFault p flash => Sys2Proof.Machine.execCodecLaneFault p flash s
  | .codecLaneNoProgress p flash => Sys2Proof.Machine.execCodecLaneNoProgress p flash s
  | .heldMarkerStaged c => Sys2Proof.Machine.execHeldMarkerStaged c s
  | .recCheckpoint c => Sys2Proof.Machine.execRecCheckpoint c s
  | .recClipClose c => Sys2Proof.Machine.execRecClipClose c s
  | .gateAdmit port blocks => Sys2Proof.Machine.execGateAdmit port blocks s
  | .journalRecordDurable port => Sys2Proof.Machine.execJournalRecordDurable port s
  | .driveWriteComplete port index blocks => Sys2Proof.Machine.execDriveWriteComplete port index blocks s
  | .journalRetire port => Sys2Proof.Machine.execJournalRetire port s
  | .driveFailed port cause => Sys2Proof.Machine.execDriveFailed port cause s
  | .nvmeDoorbell queue value => Sys2Proof.Machine.execNvmeDoorbell queue value s
  | .nvmeCcEnable mps css iosqes iocqes asqs acqs => Sys2Proof.Machine.execNvmeCcEnable mps css iosqes iocqes asqs acqs s
  | .nvmeControllerReset => Sys2Proof.Machine.execNvmeControllerReset s
  | .nvmeShutdown => Sys2Proof.Machine.execNvmeShutdown s
  | .nvmeCreateIoSq h qid size cq contiguous => Sys2Proof.Machine.execNvmeCreateIoSq h qid size cq contiguous s
  | .nvmeCreateIoCq h qid size vector contiguous irq => Sys2Proof.Machine.execNvmeCreateIoCq h qid size vector contiguous irq s
  | .nvmeDeleteIoSq h qid => Sys2Proof.Machine.execNvmeDeleteIoSq h qid s
  | .nvmeDeleteIoCq h qid => Sys2Proof.Machine.execNvmeDeleteIoCq h qid s
  | .nvmeGetLogPage h page dwords off => Sys2Proof.Machine.execNvmeGetLogPage h page dwords off s
  | .nvmeIdentify h cns => Sys2Proof.Machine.execNvmeIdentify h cns s
  | .nvmeAbort h sq target => Sys2Proof.Machine.execNvmeAbort h sq target s
  | .nvmeSetFeatures h fid value => Sys2Proof.Machine.execNvmeSetFeatures h fid value s
  | .nvmeGetFeatures h fid => Sys2Proof.Machine.execNvmeGetFeatures h fid s
  | .nvmeAsyncEventRequest h => Sys2Proof.Machine.execNvmeAsyncEventRequest h s
  | .nvmeFlush sq h => Sys2Proof.Machine.execNvmeFlush sq h s
  | .nvmeWrite sq h lba blocks fua data => Sys2Proof.Machine.execNvmeWrite sq h lba blocks fua data s
  | .nvmeRead sq h lba blocks failed => Sys2Proof.Machine.execNvmeRead sq h lba blocks failed s
  | .nvmeWriteZeroes sq h lba blocks fua => Sys2Proof.Machine.execNvmeWriteZeroes sq h lba blocks fua s
  | .nvmeWriteOrdered sq h lba blocks fua data => Sys2Proof.Machine.execNvmeWriteOrdered sq h lba blocks fua data s
  | .nvmeBarrier sq h clean => Sys2Proof.Machine.execNvmeBarrier sq h clean s
  | .laneBlockLock lane skewNs flash => Sys2Proof.Machine.execLaneBlockLock lane skewNs flash s
  | .laneLockLoss lane markers flash => Sys2Proof.Machine.execLaneLockLoss lane markers flash s
  | .milestoneMarker lane marker idle stuffErrors deep flash => Sys2Proof.Machine.execMilestoneMarker lane marker idle stuffErrors deep flash s
  | .spareLockTimeout pair flash => Sys2Proof.Machine.execSpareLockTimeout pair flash s
  | .alignmentColumn lane invalid => Sys2Proof.Machine.execAlignmentColumn lane invalid s
  | .refqLost refq flash => Sys2Proof.Machine.execRefqLost refq flash s
  | .laneLoopEnd lane locked bits errs flash => Sys2Proof.Machine.execLaneLoopEnd lane locked bits errs flash s
  | .laneWearRetire lane => Sys2Proof.Machine.execLaneWearRetire lane s
  | .flitReceived port flit => Sys2Proof.Machine.execFlitReceived port flit s
  | .flitTransmit port => Sys2Proof.Machine.execFlitTransmit port s
  | .replayTimeout port => Sys2Proof.Machine.execReplayTimeout port s
  | .linkSilenceTimeout port => Sys2Proof.Machine.execLinkSilenceTimeout port s
  | .flowDataFrame src dflow dgen fseqno payload miss => Sys2Proof.Machine.execFlowDataFrame src dflow dgen fseqno payload miss s
  | .flowAckFrame src dflow dgen last => Sys2Proof.Machine.execFlowAckFrame src dflow dgen last s
  | .flowAckTimer flow => Sys2Proof.Machine.execFlowAckTimer flow s
  | .reorderTimeout flow => Sys2Proof.Machine.execReorderTimeout flow s
  | .flowSilence flow => Sys2Proof.Machine.execFlowSilence flow s
  | .openFrame c => Sys2Proof.Machine.execOpenFrame c s
  | .acceptFrame c => Sys2Proof.Machine.execAcceptFrame c s
  | .confirmFrame c => Sys2Proof.Machine.execConfirmFrame c s
  | .nackFrame c => Sys2Proof.Machine.execNackFrame c s
  | .closeFrame c => Sys2Proof.Machine.execCloseFrame c s
  | .closedFrame c => Sys2Proof.Machine.execClosedFrame c s
  | .openResend flow => Sys2Proof.Machine.execOpenResend flow s
  | .confirmTimeout flow => Sys2Proof.Machine.execConfirmTimeout flow s
  | .closeTimeout flow => Sys2Proof.Machine.execCloseTimeout flow s
  | .breakNotice port origin p => Sys2Proof.Machine.execBreakNotice port origin p s
  | .healNotice port origin p => Sys2Proof.Machine.execHealNotice port origin p s
  | .beaconSend => Sys2Proof.Machine.execBeaconSend s
  | .beaconFrame port accNs budgetNs number => Sys2Proof.Machine.execBeaconFrame port accNs budgetNs number s
  | .beaconStale => Sys2Proof.Machine.execBeaconStale s
  | .wireDelayMeasure port ps => Sys2Proof.Machine.execWireDelayMeasure port ps s
  | .timeFrameSend => Sys2Proof.Machine.execTimeFrameSend s
  | .timeFrame src flow port payload stamp => Sys2Proof.Machine.execTimeFrame src flow port payload stamp s
  | .timeFlowTimeout d => Sys2Proof.Machine.execTimeFlowTimeout d s
  | .ptpSync d sender t1 stamp => Sys2Proof.Machine.execPtpSync d sender t1 stamp s
  | .ptpAnnounce d sender dataset => Sys2Proof.Machine.execPtpAnnounce d sender dataset s
  | .ptpDelayResp d stamp t4 => Sys2Proof.Machine.execPtpDelayResp d stamp t4 s
  | .announceTimeout d => Sys2Proof.Machine.execAnnounceTimeout d s
  | .syncTimeout d => Sys2Proof.Machine.execSyncTimeout d s
  | .revertTimer => Sys2Proof.Machine.execRevertTimer s
  | .viewStep => Sys2Proof.Machine.execViewStep s
  | .refHoldEnd k lines => Sys2Proof.Machine.execRefHoldEnd k lines s
  | .cadenceAligned k => Sys2Proof.Machine.execCadenceAligned k s
  | .syncInFrame fmt num den periodPs stamp => Sys2Proof.Machine.execSyncInFrame fmt num den periodPs stamp s
  | .syncInLost => Sys2Proof.Machine.execSyncInLost s
  | .ltcFrame value stamp => Sys2Proof.Machine.execLtcFrame value stamp s
  | .ltcFreewheel => Sys2Proof.Machine.execLtcFreewheel s
  | .ltcGeneratorFrame offset => Sys2Proof.Machine.execLtcGeneratorFrame offset s
  | .outputSelect k adjusted => Sys2Proof.Machine.execOutputSelect k adjusted s
  | .ethPortDown e => Sys2Proof.Machine.execEthPortDown e s
  | .displayVblank => Sys2Proof.Machine.execDisplayVblank s
  | .displayLine => Sys2Proof.Machine.execDisplayLine s
  | .layerBurst layer line burst => Sys2Proof.Machine.execLayerBurst layer line burst s
  | .composeDeadline line late => Sys2Proof.Machine.execComposeDeadline line late s
  | .displayFrameCrc crc0 crc1 => Sys2Proof.Machine.execDisplayFrameCrc crc0 crc1 s
  | .audioStrobe j pdm rx => Sys2Proof.Machine.execAudioStrobe j pdm rx s
  | .audioChangeTimeout item => Sys2Proof.Machine.execAudioChangeTimeout item s
  | .audioFrame port slots soon => Sys2Proof.Machine.execAudioFrame port slots soon s
  | .audioClockFault port fault periodPs => Sys2Proof.Machine.execAudioClockFault port fault periodPs s
  | .audioClockQualified port periodPs => Sys2Proof.Machine.execAudioClockQualified port periodPs s
  | .mr4Read ch rank code band => Sys2Proof.Machine.execMr4Read ch rank code band s
  | .paybackEnd ch rank ns => Sys2Proof.Machine.execPaybackEnd ch rank ns s
  | .writeDrain ch r => Sys2Proof.Machine.execWriteDrain ch r s
  | .dqOscRead ch rank osc => Sys2Proof.Machine.execDqOscRead ch rank osc s
  | .burstPoisoned addr rank bank row client => Sys2Proof.Machine.execBurstPoisoned addr rank bank row client s
  | .scrubReport ch rank bank row corrections => Sys2Proof.Machine.execScrubReport ch rank bank row corrections s
  | .rowRemapDone ch flash => Sys2Proof.Machine.execRowRemapDone ch flash s
  | .sensorConversion sensor reading bias flash => Sys2Proof.Machine.execSensorConversion sensor reading bias flash s
  | .suspectTimeout sensor flash => Sys2Proof.Machine.execSuspectTimeout sensor flash s
  | .riseEvaluation => Sys2Proof.Machine.execRiseEvaluation s
  | .controlPeriod ma => Sys2Proof.Machine.execControlPeriod ma s
  | .calInterval cls => Sys2Proof.Machine.execCalInterval cls s
  | .calMeasure cls target tries => Sys2Proof.Machine.execCalMeasure cls target tries s
  | .calGapApply cls target => Sys2Proof.Machine.execCalGapApply cls target s
  | .rcalCheck value => Sys2Proof.Machine.execRcalCheck value s
  | .bankFault array unit bank spans flash => Sys2Proof.Machine.execBankFault array unit bank spans flash s
  | .bankWear array unit bank corrections flash => Sys2Proof.Machine.execBankWear array unit bank corrections flash s
  | .selfTestDone cls index pass flash => Sys2Proof.Machine.execSelfTestDone cls index pass flash s
  | .lockstepRestartDone => Sys2Proof.Machine.execLockstepRestartDone s
  | .refclkQualified alt => Sys2Proof.Machine.execRefclkQualified alt s
  | .resetNRise => Sys2Proof.Machine.execResetNRise s
  | .railInWindow k mv => Sys2Proof.Machine.execRailInWindow k mv s
  | .plossResetExit => Sys2Proof.Machine.execPlossResetExit s
  | .staggerWaitEnd sensor => Sys2Proof.Machine.execStaggerWaitEnd sensor s
  | .ethPortUp e => Sys2Proof.Machine.execEthPortUp e s
  | .refreshDue ch rank waiting issued => Sys2Proof.Machine.execRefreshDue ch rank waiting issued s
  | .decodeSlabDone p => Sys2Proof.Machine.execDecodeSlabDone p s

end Sys2Proof.Machine
end

