-- ==== Sys2Proof/WellFormed.lean ====
section
/-! DEFINITION. Which commands are well formed: what a host transfer, a packet, a frame, a measurement or a drive can
present at all. A command that is not well formed stands for nothing that can happen at the device's pins. -/

namespace Sys2Proof

/-- The bytes of a host access. -/
def HostAccess.size : HostAccess → Nat
  | .read n => n
  | .write d => d.length

/-- A packet of a sensor link: a Flimocia packet has its 16-byte header and its 4-byte check (R91); a CSI-2 packet has
at most 65,535 bytes of payload (R95). -/
def Packet.wellFormed : Packet → Bool
  | .link b => 20 ≤ b.length
  | .csi _ _ _ _ p _ => p.length ≤ 65535

/-- A control frame carries 32 bytes, 16 of them after its named fields (R398). -/
def Control.wellFormed (c : Control) : Bool := c.extra.length ≤ 16

/-- A command that something outside the device can present. -/
def Instr.wellFormed : Instr → Bool
  | .sysIdentify _ | .sysReset _ | .sysGpio _ | .sysTally _ | .evqConfig _ | .evqRoute _ | .evqReset _
  | .sensConfig _ | .sensPower _ | .sensStart _ | .sensStop _ | .sensClear _ | .sensBusXfer _ | .sensCounters _
  | .sensMetaPoll _ | .schedSensor _ | .schedCommit _ | .schedStatus _ | .feLinLoad _ | .feMerge _ | .feBlack _
  | .feMapAlloc _ | .feMapFree _ | .feMapSelect _ | .feDefect _ | .feStatsConfig _ | .feCalCapture _
  | .feCalAbort _ | .devCfa _ | .devDemosaic _ | .devSlFrame _ | .colTransform _ | .colGains _ | .colShaperLoad _
  | .lutLoad _ | .colContrast _ | .colOutput _ | .colStatus _ | .rnd0Output _ | .rndBind _ | .rndGeometry _
  | .rndStatus _ | .tapConfig _ | .codecStream _ | .codecJobEncode _ | .codecJobDecode _ | .codecJobResume _
  | .codecJobAbort _ | .codecStatus _ | .recStart _ | .recStop _ | .recChannel _ | .recVolFormat _ | .recVolMount _
  | .recVolUnmount _ | .recClipDelete _ | .recStatus _ | .gateStatus _ | .gateDrive _ _ | .gateService _
  | .gateRemote _ | .gateSessionOpen _ | .gateSessionClose _ | .laneConfig _ _ _ | .laneLink _ | .lanePower _
  | .laneLoop _ _ _ | .laneEq _ | .ringConfig _ | .ringStatus _ | .flowOpen _ | .flowClose _ | .flowListen _
  | .flowSend _ | .flowStatus _ | .outSdi _ | .out2110 _ | .outEthPort _ | .outStatus _ | .dispConfig _
  | .dispLayer _ | .dispCommit _ | .dispStatus _ | .audConfig _ | .audPort _ | .audChannel _ | .audSlots _
  | .audStart _ | .audStop _ | .audStatus _ | .timeDomain _ | .timeSelect _ | .timePort _ | .timeSync _
  | .timeLtc _ | .timeServe _ | .timeStatus _ | .memStatus _ | .memAperture _ | .memKeep _ | .thermConfig _
  | .thermStatus _ | .calConfig _ | .calRun _ | .calStatus _ | .brStatus _ | .brPolicy _ | .pwrState _
  | .pwrUnitReset _ | .fwStage _ | .fwActivate _ | .fwStatus _ | .spareStatus _ | .spareLedger _ | .spareReturn _
  | .flintSet _ | .flintStatus _ | .doorbellRing _ _ _ | .attnLeafClear _ _ _ | .attnMaskWrite _ _ _
  | .wmHitClear _ _ | .eqPortRead _ _ | .eqMark _ _ | .eqRewind _ _ _ | .eqRelease _ _ _ | .pwrWakeWrite _ _
  | .tbCountRead _ | .tbDomainRead _ _ | .bedrockWindowWrite _ _ _ | .qspiStatusRead | .resetN _ | .plossNFall
  | .plossDrainDone _ _ | .plossResetPoint _ | .plossResponseEnd | .railUndervoltage _ _ | .railOvervoltage _ _
  | .refclkLost _ | .refclkFailoverDone | .refclkStop _ | .thermalTrip | .lockstepFault | .coreHeartbeatMiss _ _
  | .watchdogReset | .testEnFall | .flintGateOpen | .spwrPgFall _ | .spwrPgRise _ | .spwrPgTimeout _
  | .sensorPowerSettled _ | .gpioEdge _ | .wakeGpio | .wakeTime | .powerStateEntered | .fwStageWriteDone _
  | .fwActivationRevert | .lineTimeout _ | .framePeriodTimeout _ | .linkLockLoss _ _ _ | .sensorLinkUp _ _
  | .metaPollTrigger _ _ | .bandIssue _ | .bandComplete _ _ _ | .deadlineDrop _ | .engineFault _ _
  | .engineNoProgress _ _ | .slotRelease _ _ | .bankWrite _ _ | .calFinalPassDone _ | .renditionTake _
  | .renditionFrameDone _ | .slabIssue _ | .slabVerified _ _ _ | .codecDeadline _ | .codecLaneFault _ _
  | .codecLaneNoProgress _ _ | .heldMarkerStaged _ | .recCheckpoint _ | .recClipClose _ | .gateAdmit _ _
  | .journalRecordDurable _ | .driveWriteComplete _ _ _ | .journalRetire _ | .driveFailed _ _ | .nvmeDoorbell _ _
  | .nvmeCcEnable _ _ _ _ _ _ | .nvmeControllerReset | .nvmeShutdown | .nvmeCreateIoSq _ _ _ _ _
  | .nvmeCreateIoCq _ _ _ _ _ _ | .nvmeDeleteIoSq _ _ | .nvmeDeleteIoCq _ _ | .nvmeGetLogPage _ _ _ _
  | .nvmeIdentify _ _ | .nvmeAbort _ _ _ | .nvmeSetFeatures _ _ _ | .nvmeGetFeatures _ _ | .nvmeAsyncEventRequest _
  | .nvmeFlush _ _ | .nvmeWrite _ _ _ _ _ _ | .nvmeRead _ _ _ _ _ | .nvmeWriteZeroes _ _ _ _ _
  | .nvmeWriteOrdered _ _ _ _ _ _ | .nvmeBarrier _ _ _ | .laneBlockLock _ _ _ | .laneLockLoss _ _ _
  | .spareLockTimeout _ _ | .alignmentColumn _ _ | .refqLost _ _ | .laneLoopEnd _ _ _ _ _ | .laneWearRetire _
  | .flitTransmit _ | .replayTimeout _ | .linkSilenceTimeout _ | .flowAckFrame _ _ _ _ | .flowAckTimer _
  | .reorderTimeout _ | .flowSilence _ | .openResend _ | .confirmTimeout _ | .closeTimeout _ | .breakNotice _ _ _
  | .healNotice _ _ _ | .beaconSend | .beaconFrame _ _ _ _ | .beaconStale | .wireDelayMeasure _ _ | .timeFrameSend
  | .timeFlowTimeout _ | .ptpSync _ _ _ _ | .ptpAnnounce _ _ _ | .ptpDelayResp _ _ _
  | .announceTimeout _ | .syncTimeout _ | .revertTimer | .viewStep | .refHoldEnd _ _ | .cadenceAligned _
  | .syncInFrame _ _ _ _ _ | .syncInLost | .ltcFrame _ _ | .ltcFreewheel | .ltcGeneratorFrame _ | .outputSelect _ _
  | .ethPortDown _ | .displayVblank | .displayLine | .layerBurst _ _ _ | .composeDeadline _ _
  | .displayFrameCrc _ _ | .audioStrobe _ _ _ | .audioChangeTimeout _ | .audioClockFault _ _ _
  | .audioClockQualified _ _ | .mr4Read _ _ _ _ | .paybackEnd _ _ _ | .writeDrain _ _ | .dqOscRead _ _ _
  | .burstPoisoned _ _ _ _ _ | .scrubReport _ _ _ _ _ | .rowRemapDone _ _ | .sensorConversion _ _ _ _
  | .suspectTimeout _ _ | .riseEvaluation | .controlPeriod _ | .calInterval _ | .calGapApply _ _ | .rcalCheck _
  | .bankFault _ _ _ _ _ | .bankWear _ _ _ _ _ | .selfTestDone _ _ _ _ | .lockstepRestartDone | .refclkQualified _
  | .resetNRise | .railInWindow _ _ | .plossResetExit | .staggerWaitEnd _ | .ethPortUp _ | .refreshDue _ _ _ _
  | .decodeSlabDone _ => true
  | .laneStatus _ ts _ _ => ts.length = 12
  | .dispDcs _ r0 r1 => r0.data.length ≤ 64 && r1.data.length ≤ 64
  | .registerWrite _ a d => 1 ≤ d.length && d.length ≤ 8 && a + d.length ≤ 0x200000
  | .bar2Access off acc _ => off.toNat + acc.size ≤ 2 ^ 32
  | .qspiTransaction _ _ d n => d.length ≤ 2 ^ 31 && n ≤ 2 ^ 31
  | .coldPowerOn _ _ _ _ mv => mv.length = 8
  | .bootReady r => r.codes.length = 6 && r.channels.length = 16 && r.lacks.all fun o => o < 0x10000
  | .powerStateExitDone _ r => r.drives.length = 4
  | .fwActivationDone l => l.all fun o => o < 0x10000
  | .frameStart _ p => p.wellFormed
  | .frameEnd _ p => p.wellFormed
  | .linePacket _ p => p.wellFormed
  | .embeddedPacket _ p => p.wellFormed
  | .busXferDone _ _ w d => w ≤ 256 && d.length ≤ 256
  | .metaPollDone _ _ d => d.length ≤ 48
  | .milestoneMarker _ m _ _ _ _ => m.length = 8
  | .flitReceived _ f => f.length = 64
  | .flowDataFrame _ _ _ _ p _ => p.length ≤ 4096
  | .timeFrame _ _ _ p _ => p.length = 32
  | .openFrame c => c.wellFormed
  | .acceptFrame c => c.wellFormed
  | .confirmFrame c => c.wellFormed
  | .nackFrame c => c.wellFormed
  | .closeFrame c => c.wellFormed
  | .closedFrame c => c.wellFormed
  | .audioFrame _ l _ => l.length ≤ 8
  | .calMeasure _ _ l => 1 ≤ l.length && l.length ≤ 4

/-- The opcode of a mailbox command (R629); an event or an access has none. -/
def Instr.opcode? : Instr → Option Nat
  | .sysIdentify _ => some 0x0101
  | .sysReset _ => some 0x0102
  | .sysGpio _ => some 0x0103
  | .sysTally _ => some 0x0104
  | .evqConfig _ => some 0x0201
  | .evqRoute _ => some 0x0202
  | .evqReset _ => some 0x0203
  | .sensConfig _ => some 0x0301
  | .sensPower _ => some 0x0302
  | .sensStart _ => some 0x0303
  | .sensStop _ => some 0x0304
  | .sensClear _ => some 0x0305
  | .sensBusXfer _ => some 0x0306
  | .sensCounters _ => some 0x0307
  | .sensMetaPoll _ => some 0x0308
  | .schedSensor _ => some 0x0401
  | .schedCommit _ => some 0x0402
  | .schedStatus _ => some 0x0403
  | .feLinLoad _ => some 0x0501
  | .feMerge _ => some 0x0502
  | .feBlack _ => some 0x0503
  | .feMapAlloc _ => some 0x0504
  | .feMapFree _ => some 0x0505
  | .feMapSelect _ => some 0x0506
  | .feDefect _ => some 0x0507
  | .feStatsConfig _ => some 0x0508
  | .feCalCapture _ => some 0x0509
  | .feCalAbort _ => some 0x050A
  | .devCfa _ => some 0x0601
  | .devDemosaic _ => some 0x0602
  | .devSlFrame _ => some 0x0603
  | .colTransform _ => some 0x0610
  | .colGains _ => some 0x0611
  | .colShaperLoad _ => some 0x0612
  | .lutLoad _ => some 0x0620
  | .colContrast _ => some 0x0613
  | .colOutput _ => some 0x0614
  | .colStatus _ => some 0x0615
  | .rnd0Output _ => some 0x0701
  | .rndBind _ => some 0x0702
  | .rndGeometry _ => some 0x0703
  | .rndStatus _ => some 0x0704
  | .tapConfig _ => some 0x0710
  | .codecStream _ => some 0x0801
  | .codecJobEncode _ => some 0x0802
  | .codecJobDecode _ => some 0x0803
  | .codecJobResume _ => some 0x0804
  | .codecJobAbort _ => some 0x0805
  | .codecStatus _ => some 0x0806
  | .recStart _ => some 0x0901
  | .recStop _ => some 0x0902
  | .recChannel _ => some 0x0903
  | .recVolFormat _ => some 0x0904
  | .recVolMount _ => some 0x0905
  | .recVolUnmount _ => some 0x0906
  | .recClipDelete _ => some 0x0907
  | .recStatus _ => some 0x0908
  | .gateStatus _ => some 0x0A01
  | .gateDrive _ _ => some 0x0A02
  | .gateService _ => some 0x0A03
  | .gateRemote _ => some 0x0A04
  | .gateSessionOpen _ => some 0x0A05
  | .gateSessionClose _ => some 0x0A06
  | .laneConfig _ _ _ => some 0x0B01
  | .laneStatus _ _ _ _ => some 0x0B02
  | .laneLink _ => some 0x0B03
  | .lanePower _ => some 0x0B04
  | .laneLoop _ _ _ => some 0x0B05
  | .laneEq _ => some 0x0B06
  | .ringConfig _ => some 0x0C01
  | .ringStatus _ => some 0x0C02
  | .flowOpen _ => some 0x0C10
  | .flowClose _ => some 0x0C11
  | .flowListen _ => some 0x0C12
  | .flowSend _ => some 0x0C13
  | .flowStatus _ => some 0x0C14
  | .outSdi _ => some 0x0D01
  | .out2110 _ => some 0x0D02
  | .outEthPort _ => some 0x0D03
  | .outStatus _ => some 0x0D04
  | .dispConfig _ => some 0x0E01
  | .dispLayer _ => some 0x0E02
  | .dispCommit _ => some 0x0E03
  | .dispDcs _ _ _ => some 0x0E04
  | .dispStatus _ => some 0x0E05
  | .audConfig _ => some 0x0F01
  | .audPort _ => some 0x0F02
  | .audChannel _ => some 0x0F03
  | .audSlots _ => some 0x0F04
  | .audStart _ => some 0x0F05
  | .audStop _ => some 0x0F06
  | .audStatus _ => some 0x0F07
  | .timeDomain _ => some 0x1001
  | .timeSelect _ => some 0x1002
  | .timePort _ => some 0x1003
  | .timeSync _ => some 0x1004
  | .timeLtc _ => some 0x1005
  | .timeServe _ => some 0x1007
  | .timeStatus _ => some 0x1006
  | .memStatus _ => some 0x1101
  | .memAperture _ => some 0x1102
  | .memKeep _ => some 0x1103
  | .thermConfig _ => some 0x1201
  | .thermStatus _ => some 0x1202
  | .calConfig _ => some 0x1203
  | .calRun _ => some 0x1204
  | .calStatus _ => some 0x1205
  | .brStatus _ => some 0x1301
  | .brPolicy _ => some 0x1302
  | .pwrState _ => some 0x1401
  | .pwrUnitReset _ => some 0x1402
  | .fwStage _ => some 0x1410
  | .fwActivate _ => some 0x1411
  | .fwStatus _ => some 0x1412
  | .spareStatus _ => some 0x1501
  | .spareLedger _ => some 0x1502
  | .spareReturn _ => some 0x1503
  | .flintSet _ => some 0x1610
  | .flintStatus _ => some 0x1611
  | .doorbellRing _ _ _ | .registerWrite _ _ _ | .attnLeafClear _ _ _ | .attnMaskWrite _ _ _ | .wmHitClear _ _
  | .eqPortRead _ _ | .eqMark _ _ | .eqRewind _ _ _ | .eqRelease _ _ _ | .pwrWakeWrite _ _ | .tbCountRead _
  | .tbDomainRead _ _ | .bedrockWindowWrite _ _ _ | .bar2Access _ _ _ | .qspiTransaction _ _ _ _ | .qspiStatusRead
  | .coldPowerOn _ _ _ _ _ | .bootReady _ | .resetN _ | .plossNFall | .plossDrainDone _ _ | .plossResetPoint _
  | .plossResponseEnd | .railUndervoltage _ _ | .railOvervoltage _ _ | .refclkLost _ | .refclkFailoverDone
  | .refclkStop _ | .thermalTrip | .lockstepFault | .coreHeartbeatMiss _ _ | .watchdogReset | .testEnFall
  | .flintGateOpen | .spwrPgFall _ | .spwrPgRise _ | .spwrPgTimeout _ | .sensorPowerSettled _ | .gpioEdge _
  | .wakeGpio | .wakeTime | .powerStateEntered | .powerStateExitDone _ _ | .fwStageWriteDone _
  | .fwActivationDone _ | .fwActivationRevert | .frameStart _ _ | .frameEnd _ _ | .linePacket _ _
  | .embeddedPacket _ _ | .lineTimeout _ | .framePeriodTimeout _ | .linkLockLoss _ _ _ | .sensorLinkUp _ _
  | .busXferDone _ _ _ _ | .metaPollTrigger _ _ | .metaPollDone _ _ _ | .bandIssue _ | .bandComplete _ _ _
  | .deadlineDrop _ | .engineFault _ _ | .engineNoProgress _ _ | .slotRelease _ _ | .bankWrite _ _
  | .calFinalPassDone _ | .renditionTake _ | .renditionFrameDone _ | .slabIssue _ | .slabVerified _ _ _
  | .codecDeadline _ | .codecLaneFault _ _ | .codecLaneNoProgress _ _ | .heldMarkerStaged _ | .recCheckpoint _
  | .recClipClose _ | .gateAdmit _ _ | .journalRecordDurable _ | .driveWriteComplete _ _ _ | .journalRetire _
  | .driveFailed _ _ | .nvmeDoorbell _ _ | .nvmeCcEnable _ _ _ _ _ _ | .nvmeControllerReset | .nvmeShutdown
  | .nvmeCreateIoSq _ _ _ _ _ | .nvmeCreateIoCq _ _ _ _ _ _ | .nvmeDeleteIoSq _ _ | .nvmeDeleteIoCq _ _
  | .nvmeGetLogPage _ _ _ _ | .nvmeIdentify _ _ | .nvmeAbort _ _ _ | .nvmeSetFeatures _ _ _ | .nvmeGetFeatures _ _
  | .nvmeAsyncEventRequest _ | .nvmeFlush _ _ | .nvmeWrite _ _ _ _ _ _ | .nvmeRead _ _ _ _ _
  | .nvmeWriteZeroes _ _ _ _ _ | .nvmeWriteOrdered _ _ _ _ _ _ | .nvmeBarrier _ _ _ | .laneBlockLock _ _ _
  | .laneLockLoss _ _ _ | .milestoneMarker _ _ _ _ _ _ | .spareLockTimeout _ _ | .alignmentColumn _ _
  | .refqLost _ _ | .laneLoopEnd _ _ _ _ _ | .laneWearRetire _ | .flitReceived _ _ | .flitTransmit _
  | .replayTimeout _ | .linkSilenceTimeout _ | .flowDataFrame _ _ _ _ _ _ | .flowAckFrame _ _ _ _ | .flowAckTimer _
  | .reorderTimeout _ | .flowSilence _ | .openFrame _ | .acceptFrame _ | .confirmFrame _ | .nackFrame _
  | .closeFrame _ | .closedFrame _ | .openResend _ | .confirmTimeout _ | .closeTimeout _ | .breakNotice _ _ _
  | .healNotice _ _ _ | .beaconSend | .beaconFrame _ _ _ _ | .beaconStale | .wireDelayMeasure _ _ | .timeFrameSend
  | .timeFrame _ _ _ _ _ | .timeFlowTimeout _ | .ptpSync _ _ _ _ | .ptpAnnounce _ _ _ | .ptpDelayResp _ _ _
  | .announceTimeout _ | .syncTimeout _ | .revertTimer | .viewStep | .refHoldEnd _ _ | .cadenceAligned _
  | .syncInFrame _ _ _ _ _ | .syncInLost | .ltcFrame _ _ | .ltcFreewheel | .ltcGeneratorFrame _ | .outputSelect _ _
  | .ethPortDown _ | .displayVblank | .displayLine | .layerBurst _ _ _ | .composeDeadline _ _
  | .displayFrameCrc _ _ | .audioStrobe _ _ _ | .audioChangeTimeout _ | .audioFrame _ _ _ | .audioClockFault _ _ _
  | .audioClockQualified _ _ | .mr4Read _ _ _ _ | .paybackEnd _ _ _ | .writeDrain _ _ | .dqOscRead _ _ _
  | .burstPoisoned _ _ _ _ _ | .scrubReport _ _ _ _ _ | .rowRemapDone _ _ | .sensorConversion _ _ _ _
  | .suspectTimeout _ _ | .riseEvaluation | .controlPeriod _ | .calInterval _ | .calMeasure _ _ _
  | .calGapApply _ _ | .rcalCheck _ | .bankFault _ _ _ _ _ | .bankWear _ _ _ _ _ | .selfTestDone _ _ _ _
  | .lockstepRestartDone | .refclkQualified _ | .resetNRise | .railInWindow _ _ | .plossResetExit
  | .staggerWaitEnd _ | .ethPortUp _ | .refreshDue _ _ _ _ | .decodeSlabDone _ => none

/-- The group of a mailbox command, the upper byte of its opcode (R629). -/
def Instr.group? (i : Instr) : Option Nat := i.opcode?.map (· / 256)

end Sys2Proof
end

