-- ==== Sys2Proof/Safety.lean ====
section
/-! DEFINITION. The terms in which claims speak of the machine: its canonical stores, a command that runs and the answer
its slot then holds, and the leaf and the event that report a happening. -/

namespace Sys2Proof.Machine

/-- The stores of the Media Gate are canonical: each drive's blocks and the controller's features. -/
abbrev Gate.Good (g : Gate) : Prop := (∀ p ∈ g.ports, Mem.wf p.disk = true) ∧ Mem.wf g.nvme.features = true

/-- Every addressed store of the device is in its canonical form. -/
structure Canonical (s : State) : Prop where
  dram : Mem.wf s.dram = true
  slots : Mem.wf s.mbx.slots = true
  gate : s.gate.Good
  gens : Mem.wf s.ring.gens = true

/-- Firmware runs the command in slot n under a card now, and no check of R66 refuses it. -/
abbrev Accepted (c : Card) (n : Nat) (s : State) : Prop := mbxTurn s c.opcode n = true ∧ cardChecks c n s = none

/-- Slot n answers with a status and response bytes (R57, R59): `status`, `response_length`, the response from offset
0x10, and its bit of `MBX_DONE`. -/
structure Answered (t : State) (n status : Nat) (resp : List Byte) : Prop where
  status : slotStatus t n = status
  length : slotField t n 0x0A 2 = resp.length
  body : memBytes t.mbx.slots (slotAddr n + 16) resp.length = resp
  done : t.mbx.done.getLsbD n = true

/-- An accepted command with status OK: the state its effect leaves and the response, from the parameters and the state it
met, ended by `mbxOk`. -/
def Yields (c : Card) (i : Instr) (n : Fin 40) (x : Body → State → State) (resp : Body → State → List Byte) : Prop :=
  ∀ s, Accepted c n s → exec i s = .next (mbxOk (x (slotBody s n) s) n (resp (slotBody s n) s))

/-- An accepted command that answers later: the state its effect leaves, with its slot under way. -/
def Begins (c : Card) (i : Instr) (n : Fin 40) (x : Body → State → State) : Prop :=
  ∀ s, Accepted c n s → exec i s = .next { x (slotBody s n) s with
    mbx.started := (x (slotBody s n) s).mbx.started ++ [n.val] }

/-- The Gate fetches an NVMe command of queue `sq` now, it knows its opcode, and its FUSE and PSDT are 0 (R333, R335). -/
structure Fetched (s : State) (sq : Nat) (h : NvmeHead) : Prop where
  mayFetch : mayFetch s sq = true
  local_ : remoteHeld s h.nsid.toNat = false
  fuse : h.fuse = 0
  psdt : h.psdt = 0
  known : h.unknown = false

/-- The active namespace list above an NSID, 4,096 bytes (R336). -/
def activeList (s : State) (nsid : Nat) : List Byte :=
  (((List.range 24).map (· + 1)).filter fun k => nsid < k && nsActive s k).flatMap (leBytes 4) ++ zeros 4096 |>.take 4096

/-- A host write of a local namespace that is accepted when it is fetched: the command is new and comes by an I/O queue,
there is room, its range is legal, all its data is there, and before a Write Ordered no other of its domain waits (R331,
R335, R338). -/
structure WritesWhole (s : State) (sq : Nat) (h : NvmeHead) (lba n : Nat) (ordered : Bool) (data : List Byte) : Prop where
  queue : sq ≠ 0
  room : hostFits s 1 = true
  fits : hostFits (headMoved s sq) (n * nsBlk s h.nsid.toNat) = true
  new : s.gate.nvme.outstanding.contains { sq := sq, cid := h.cid.toNat, work := .write h.nsid.toNat ordered } = false
  range : rangeStatus (headMoved s sq) h.nsid.toNat lba n true = none
  local_ : h.nsid.toNat ≤ 8
  whole : data.length = n * nsBlk s h.nsid.toNat
  order : ordered = true → orderOpen (headMoved s sq) sq h.cid.toNat h.nsid.toNat = true

/-- A leaf of the attention tree is set (R76, R77). -/
def leafSet (s : State) (b bit : Nat) : Prop := ((s.attn.cause.getD b 0).getLsbD bit) = true

end Sys2Proof.Machine

namespace Sys2Proof

/-- The rows that can begin a full reset or a boot, and with it a new count (R473, R568). -/
def Instr.setsCount : Instr → Bool
  | .coldPowerOn _ _ _ _ _
  | .resetN _
  | .plossDrainDone _ _
  | .plossResetPoint _
  | .railUndervoltage _ _
  | .railOvervoltage _ _
  | .refclkStop _
  | .thermalTrip
  | .lockstepFault
  | .refclkQualified _
  | .railInWindow _ _
  | .plossResetExit => true
  | _ => false

/-- The rows at which a cold power-on can read the policy block (R547). -/
def Instr.readsPolicy : Instr → Bool
  | .coldPowerOn _ _ _ _ _
  | .railUndervoltage _ _
  | .refclkQualified _
  | .railInWindow _ _ => true
  | _ => false

/-- The slot and the card of a mailbox row, with the answers from outside that its operands give. -/
def Instr.card? : Instr → Option (Fin 40 × Machine.Card)
  | .sysIdentify n => some (n, Machine.sysIdentifyCard)
  | .sysReset n => some (n, Machine.sysResetCard)
  | .sysGpio n => some (n, Machine.sysGpioCard)
  | .sysTally n => some (n, Machine.sysTallyCard)
  | .evqConfig n => some (n, Machine.evqConfigCard)
  | .evqRoute n => some (n, Machine.evqRouteCard)
  | .evqReset n => some (n, Machine.evqResetCard)
  | .sensConfig n => some (n, Machine.sensConfigCard)
  | .sensPower n => some (n, Machine.sensPowerCard)
  | .sensStart n => some (n, Machine.sensStartCard)
  | .sensStop n => some (n, Machine.sensStopCard)
  | .sensClear n => some (n, Machine.sensClearCard)
  | .sensBusXfer n => some (n, Machine.sensBusXferCard)
  | .sensCounters n => some (n, Machine.sensCountersCard)
  | .sensMetaPoll n => some (n, Machine.sensMetaPollCard)
  | .schedSensor n => some (n, Machine.schedSensorCard)
  | .schedCommit n => some (n, Machine.schedCommitCard)
  | .schedStatus n => some (n, Machine.schedStatusCard)
  | .feLinLoad n => some (n, Machine.feLinLoadCard)
  | .feMerge n => some (n, Machine.feMergeCard)
  | .feBlack n => some (n, Machine.feBlackCard)
  | .feMapAlloc n => some (n, Machine.feMapAllocCard)
  | .feMapFree n => some (n, Machine.feMapFreeCard)
  | .feMapSelect n => some (n, Machine.feMapSelectCard)
  | .feDefect n => some (n, Machine.feDefectCard)
  | .feStatsConfig n => some (n, Machine.feStatsConfigCard)
  | .feCalCapture n => some (n, Machine.feCalCaptureCard)
  | .feCalAbort n => some (n, Machine.feCalAbortCard)
  | .devCfa n => some (n, Machine.devCfaCard)
  | .devDemosaic n => some (n, Machine.devDemosaicCard)
  | .devSlFrame n => some (n, Machine.devSlFrameCard)
  | .colTransform n => some (n, Machine.colTransformCard)
  | .colGains n => some (n, Machine.colGainsCard)
  | .colShaperLoad n => some (n, Machine.colShaperLoadCard)
  | .lutLoad n => some (n, Machine.lutLoadCard)
  | .colContrast n => some (n, Machine.colContrastCard)
  | .colOutput n => some (n, Machine.colOutputCard)
  | .colStatus n => some (n, Machine.colStatusCard)
  | .rnd0Output n => some (n, Machine.rnd0OutputCard)
  | .rndBind n => some (n, Machine.rndBindCard)
  | .rndGeometry n => some (n, Machine.rndGeometryCard)
  | .rndStatus n => some (n, Machine.rndStatusCard)
  | .tapConfig n => some (n, Machine.tapConfigCard)
  | .codecStream n => some (n, Machine.codecStreamCard)
  | .codecJobEncode n => some (n, Machine.jobEncodeCard)
  | .codecJobDecode n => some (n, Machine.jobDecodeCard)
  | .codecJobResume n => some (n, Machine.jobResumeCard)
  | .codecJobAbort n => some (n, Machine.jobAbortCard)
  | .codecStatus n => some (n, Machine.codecStatusCard)
  | .recStart n => some (n, Machine.recStartCard)
  | .recStop n => some (n, Machine.recStopCard)
  | .recChannel n => some (n, Machine.recChannelCard)
  | .recVolFormat n => some (n, Machine.volFormatCard)
  | .recVolMount n => some (n, Machine.volMountCard)
  | .recVolUnmount n => some (n, Machine.volUnmountCard)
  | .recClipDelete n => some (n, Machine.clipDeleteCard)
  | .recStatus n => some (n, Machine.recStatusCard)
  | .gateStatus n => some (n, Machine.gateStatusCard)
  | .gateDrive n drive => some (n, Machine.gateDriveCard drive)
  | .gateService n => some (n, Machine.gateServiceCard)
  | .gateRemote n => some (n, Machine.gateRemoteCard)
  | .gateSessionOpen n => some (n, Machine.gateSessionOpenCard)
  | .gateSessionClose n => some (n, Machine.gateSessionCloseCard)
  | .laneConfig n khzA khzB => some (n, Machine.laneConfigCard khzA khzB)
  | .laneStatus n taps eyeW eyeH => some (n, Machine.laneStatusCard taps eyeW eyeH)
  | .laneLink n => some (n, Machine.laneLinkCard)
  | .lanePower n => some (n, Machine.lanePowerCard)
  | .laneLoop n bits errs => some (n, Machine.laneLoopCard bits.toNat errs.toNat)
  | .laneEq n => some (n, Machine.laneEqCard)
  | .ringConfig n => some (n, Machine.ringConfigCard)
  | .ringStatus n => some (n, Machine.ringStatusCard)
  | .flowOpen n => some (n, Machine.flowOpenCard)
  | .flowClose n => some (n, Machine.flowCloseCard)
  | .flowListen n => some (n, Machine.flowListenCard)
  | .flowSend n => some (n, Machine.flowSendCard)
  | .flowStatus n => some (n, Machine.flowStatusCard)
  | .outSdi n => some (n, Machine.outSdiCard)
  | .out2110 n => some (n, Machine.out2110Card)
  | .outEthPort n => some (n, Machine.outEthPortCard)
  | .outStatus n => some (n, Machine.outStatusCard)
  | .dispConfig n => some (n, Machine.dispConfigCard)
  | .dispLayer n => some (n, Machine.dispLayerCard)
  | .dispCommit n => some (n, Machine.dispCommitCard)
  | .dispDcs n r0 r1 => some (n, Machine.dispDcsCard r0 r1)
  | .dispStatus n => some (n, Machine.dispStatusCard)
  | .audConfig n => some (n, Machine.audConfigCard)
  | .audPort n => some (n, Machine.audPortCard)
  | .audChannel n => some (n, Machine.audChannelCard)
  | .audSlots n => some (n, Machine.audSlotsCard)
  | .audStart n => some (n, Machine.audStartCard)
  | .audStop n => some (n, Machine.audStopCard)
  | .audStatus n => some (n, Machine.audStatusCard)
  | .timeDomain n => some (n, Machine.timeDomainCard)
  | .timeSelect n => some (n, Machine.timeSelectCard)
  | .timePort n => some (n, Machine.timePortCard)
  | .timeSync n => some (n, Machine.timeSyncCard)
  | .timeLtc n => some (n, Machine.timeLtcCard)
  | .timeServe n => some (n, Machine.timeServeCard)
  | .timeStatus n => some (n, Machine.timeStatusCard)
  | .memStatus n => some (n, Machine.memStatusCard)
  | .memAperture n => some (n, Machine.memApertureCard)
  | .memKeep n => some (n, Machine.memKeepCard)
  | .thermConfig n => some (n, Machine.thermConfigCard)
  | .thermStatus n => some (n, Machine.thermStatusCard)
  | .calConfig n => some (n, Machine.calConfigCard)
  | .calRun n => some (n, Machine.calRunCard)
  | .calStatus n => some (n, Machine.calStatusCard)
  | .brStatus n => some (n, Machine.brStatusCard)
  | .brPolicy n => some (n, Machine.brPolicyCard)
  | .pwrState n => some (n, Machine.pwrStateCard)
  | .pwrUnitReset n => some (n, Machine.pwrUnitResetCard)
  | .fwStage n => some (n, Machine.fwStageCard)
  | .fwActivate n => some (n, Machine.fwActivateCard)
  | .fwStatus n => some (n, Machine.fwStatusCard)
  | .spareStatus n => some (n, Machine.spareStatusCard)
  | .spareLedger n => some (n, Machine.spareLedgerCard)
  | .spareReturn n => some (n, Machine.spareReturnCard)
  | .flintSet n => some (n, Machine.flintSetCard)
  | .flintStatus n => some (n, Machine.flintStatusCard)
  | _ => none

end Sys2Proof
end

