-- ==== Sys2Proof/Certificates/Slice0/Obligations.lean ====
section
/-! DEFINITION. The statements for the provers. Each says what a command does, or what every step keeps; its docstring
says which it is, and names the rules of the spec that it rests on. -/

open Sys2Proof Sys2Proof.Machine

/-- A step runs the command at the front of the queue. For every command c and state s, the step of s with c put at the
front of its queue is exec of c on s, whose queue is the rest. Rests on 95_what_each_step_holds.md. -/
def Obligations.StepRunsFrontCommand : Prop :=
  ∀ (c : Instr) (s : State), step { s with pending := c :: s.pending } = exec c s

/-- A step on an empty queue is one PIPE clock (model choice, log entries 3 and 7). With no command waiting, a step
makes the count C one higher where the device is powered, holds no fault and is past cold power-on, and leaves the
rest of the state, but that firmware then answers the held mailbox commands whose opcode no row of the table has
(with no command it owns: none). The idle step and that answer in it are the model's choices of log entries 3 and 7;
that C counts PIPE clocks is R473. Rests on 20_time_and_genlock.md R473. -/
def Obligations.IdleStepTicks : Prop :=
  (∀ s : State, s.pending = [] →
    step s = .next (answerUnassigned (if counts s then { s with time.c := s.time.c + 1 } else s))) ∧
  (∀ s : State, s.pending = [] → s.mbx.arrival = [] →
    step s = .next (if counts s then { s with time.c := s.time.c + 1 } else s))

/-- What reset leaves. After reset no command waits and the device is unpowered; the BAR2 base is 0 (R44), every event
route is queue 0 (R80), every queue is empty, no leaf is set, every mask register is all ones, no sensor is
configured, the mailboxes are not ready and no fault is held. Rests on 00_scope.md R8,
03_host_ports_and_mailboxes.md R44, 04_attention_and_event_queues.md R80. -/
def Obligations.ResetState : Prop :=
  State.reset.pending = [] ∧ State.reset.pwr.powered = false ∧ State.reset.host.bar2Base = 0 ∧
  (∀ g, g < 23 → routeOf State.reset g = 0) ∧ (∀ q ∈ State.reset.queues, q.recs = []) ∧
  (∀ w ∈ State.reset.attn.cause, w = 0) ∧ State.reset.attn.mask = 0xFFFFFFFF ∧
  (∀ w ∈ State.reset.attn.cmask, w = 0xFFFFFFFF) ∧ (∀ x ∈ State.reset.img.sensors, x.cfg = none) ∧
  State.reset.mbx.ready = false ∧ State.reset.br.hold = none

/-- The stores are canonical at reset. Every addressed store of the reset state is in its canonical form. Rests on
00_scope.md R5. -/
def Obligations.ResetIsCanonical : Prop :=
  Canonical State.reset

/-- Every step keeps every addressed store canonical. From every state whose stores (DRAM, mailbox slots, drive blocks,
controller features, flow generations) are canonical, a step of any command, or of none, that answers a next state
leaves them canonical. Rests on 00_scope.md R5, 03_host_ports_and_mailboxes.md R44, 03_host_ports_and_mailboxes.md
R53, 14_media_gate.md R332. -/
def Obligations.StoresStayCanonical : Prop :=
  ∀ s t : State, Canonical s → step s = .next t → Canonical t

/-- No command faults or is refused, and none touches the queue or the fuses. For every command and every state, exec
answers a next state; it leaves the queue of waiting commands, the fuses of the part (R15 to R18) and the policy
block of the boot flash unchanged. Rests on 01_family_and_variants.md R15, 01_family_and_variants.md R18,
23_bedrock_partition.md R547. -/
def Obligations.EveryCommandAnswers : Prop :=
  ∀ (i : Instr) (s : State), ∃ t, exec i s = .next t ∧ t.pending = s.pending ∧ t.fuse = s.fuse ∧
    t.br.flashPolicy = s.br.flashPolicy

/-- Only a PIPE clock or the start of a reset changes the count C. A step that answers a next state leaves C as it was
unless the command at the front of the queue is one of the twelve rows that can begin a full reset or a boot, or no
command waits, when C is at most one higher. Rests on 20_time_and_genlock.md R473, 24_resets_boot_power_states.md
R568. -/
def Obligations.CountOnlyTicksOrResets : Prop :=
  ∀ s t : State, step s = .next t →
    match s.pending with
    | [] => t.time.c = s.time.c ∨ t.time.c = s.time.c + 1
    | c :: _ => c.setsCount = false → t.time.c = s.time.c

/-- Only a cold power-on reads the policy block. A step that answers a next state leaves the policy in force, and
whether it is the fallback, as they were unless the command at the front of the queue is one of the four rows at
which step 3 of a cold power-on can happen. Rests on 23_bedrock_partition.md R547, 23_bedrock_partition.md R548. -/
def Obligations.PolicyReadOnlyAtPowerOn : Prop :=
  ∀ s t : State, step s = .next t → (∀ c ∈ s.pending.head?, c.readsPolicy = false) →
    t.br.policy = s.br.policy ∧ t.br.fallback = s.br.fallback

/-- A completed command's slot answers. The end of a mailbox command, with a status and at most 496 bytes of response,
leaves the slot with that status, the response's length and its bytes from offset 0x10, and the slot's bit of
MBX_DONE set; for a rejection the response is the 8 bytes of err_offset, a zero and err_info. Rests on
03_host_ports_and_mailboxes.md R53, 03_host_ports_and_mailboxes.md R57, 03_host_ports_and_mailboxes.md R64. -/
def Obligations.CompletionAnswers : Prop :=
  (∀ (s : State) (n : Fin 40) (resp : List Byte), Canonical s → resp.length ≤ 496 →
    Answered (mbxOk s n resp) n 0 resp) ∧
  (∀ (s : State) (n : Fin 40) (r : Rej), Canonical s → r.code < 65536 →
    Answered (mbxReject s n r) n r.code (leBytes 2 r.off ++ [0, 0] ++ leBytes 4 r.info))

/-- What the end of a command leaves alone. The end of a mailbox command changes no byte of the mailbox outside its
slot's status, response length and response; it takes the slot from those firmware owns; it posts one EV_MBX_DONE
record to the queue that flags chooses (R54, R59) unless flags says none; and it changes nothing else but the count
of MSI-X messages. Rests on 03_host_ports_and_mailboxes.md R54, 03_host_ports_and_mailboxes.md R57,
03_host_ports_and_mailboxes.md R59. -/
def Obligations.CompletionFrame : Prop :=
  ∀ (s : State) (n : Fin 40) (resp : List Byte), Canonical s → resp.length ≤ 496 →
    let t := mbxOk s n resp
    (∀ a, (a < slotAddr n + 8 ∨ slotAddr n + 16 + resp.length ≤ a) → (a < slotAddr n + 8 ∨ slotAddr n + 12 ≤ a) →
      memGet t.mbx.slots a = memGet s.mbx.slots a) ∧
    t.mbx = { s.mbx with
      slots := t.mbx.slots
      arrival := s.mbx.arrival.erase n.val
      started := s.mbx.started.erase n.val
      heldSlots := s.mbx.heldSlots.erase n.val
      done := s.mbx.done ||| BitVec.ofNat 40 (2 ^ n.val) } ∧
    t.queues = (if (slotFlags s n).testBit 2 then s.queues
      else modAt s.queues (slotFlags s n % 4) (·.post {
        ts := classL s, code := 0x0100, source := n, origin := s.ring.stageAddr
        payload := pad16 (leBytes 2 (slotOpcode s n) ++ leBytes 2 (slotSequence s n) ++ leBytes 2 0 ++
          leBytes 2 resp.length ++ leBytes 2 0) })) ∧
    { t with mbx := s.mbx, queues := s.queues, attn.msix := s.attn.msix } = s

/-- A refused command answers with its first failure and does nothing else; a command out of turn does nothing. For
every mailbox row: when firmware runs the command and its first failed check of R66 gives a rejection, the next
state is the state before with that rejection in the slot; when it is not the command's turn (not owned, held, under
way, or behind another command of its group, R55, R61, R70), nothing changes. Rests on 00_scope.md R11,
03_host_ports_and_mailboxes.md R61, 03_host_ports_and_mailboxes.md R63, 03_host_ports_and_mailboxes.md R64,
03_host_ports_and_mailboxes.md R66. -/
def Obligations.RefusedCommandsOnlyAnswer : Prop :=
  ∀ (i : Instr) (n : Fin 40) (c : Card) (s : State), i.card? = some (n, c) →
    (∀ r, mbxTurn s c.opcode n = true → cardChecks c n s = some r → exec i s = .next (mbxReject s n r)) ∧
    (mbxTurn s c.opcode n = false → exec i s = .next s)

/-- The mailbox rows are the assigned opcodes. Each mailbox row is run under the card of its own opcode in R629, that
opcode is assigned, and every assigned opcode is some mailbox row's. Rests on 27_command_and_error_index.md R629. -/
def Obligations.CardsAreTheAssignedOpcodes : Prop :=
  (∀ (i : Instr) (n : Fin 40) (c : Card), i.card? = some (n, c) →
    i.opcode? = some c.opcode ∧ opcodeAssigned c.opcode = true) ∧
  (∀ op, opcodeAssigned op = true → ∃ (i : Instr) (n : Fin 40) (c : Card), i.card? = some (n, c) ∧ c.opcode = op)

/-- On a no-ring part every opcode of group 0x0C is rejected with E_VARIANT. On a no-ring part, a mailbox command of
group 0x0C that firmware runs, whose doorbell value is its sequence number and whose opcode the running firmware
implements, is rejected with E_VARIANT (0x0107) at offset 0xFF00, whatever its parameters, and changes nothing but
its slot's answer. Rests on R21. -/
def Obligations.NoRingPartsRefuseGroup0C : Prop :=
  ∀ (i : Instr) (n : Fin 40) (c : Card) (s : State), i.card? = some (n, c) → c.opcode / 256 = 0x0C →
    s.fuse.ring = false → s.pwr.fwLacks.contains c.opcode = false → mbxTurn s c.opcode n = true →
    s.mbx.db.getD n 0 = slotSequence s n →
    exec i s = .next (mbxReject s n ⟨0x0107, 0xFF00, 0⟩)

/-- A doorbell hands its slot to firmware. A write to a doorbell of another port's slot only counts as locked; one to a
slot that firmware owns, or before the mailboxes are ready, only counts in ring_busy; otherwise firmware takes the
slot, and keeps it when the value is the slot's sequence number and its opcode is assigned, rejects it with
E_SEQUENCE at 0xFF02 when the value is another, and with E_OPCODE at 0xFF00 when the opcode is not assigned. Rests
on 03_host_ports_and_mailboxes.md R52, 03_host_ports_and_mailboxes.md R55, 03_host_ports_and_mailboxes.md R56,
03_host_ports_and_mailboxes.md R69, 27_command_and_error_index.md R629. -/
def Obligations.DoorbellHandsOver : Prop :=
  ∀ (port : Port) (n : Fin 40) (v : BitVec 32) (s : State), Canonical s →
    (ownsSlot port n = false → exec (.doorbellRing port n v) s = .next (countLocked s)) ∧
    (ownsSlot port n = true → (s.mbx.ready = false ∨ s.mbx.arrival.contains n.val = true) →
      exec (.doorbellRing port n v) s = .next (countRingBusy s)) ∧
    (ownsSlot port n = true → s.mbx.ready = true → s.mbx.arrival.contains n.val = false →
      s.mbx.activating = false → s.mbx.heldSlots.contains n.val = false →
      exec (.doorbellRing port n v) s = .next (
        let t := slotTake s n (v.toNat % 2 ^ 16)
        if v.toNat % 2 ^ 16 ≠ slotSequence s n then mbxReject t n ⟨0x010A, 0xFF02, 0⟩
        else if opcodeAssigned (slotOpcode s n) = false then mbxReject t n ⟨0x0101, 0xFF00, 0⟩
        else t))

/-- Identify, pins, queues and memory commands. Accepted SYS_IDENTIFY, SYS_GPIO, SYS_TALLY, EVQ_CONFIG, EVQ_ROUTE,
EVQ_RESET, MEM_STATUS, MEM_APERTURE and MEM_KEEP commands: the whole next state of each, its effect by its card and
its response. SYS_IDENTIFY changes no state (R19). An accepted SYS_RESET performs the soft reset. Rests on
01_family_and_variants.md R19, 04_attention_and_event_queues.md R80, 04_attention_and_event_queues.md R88,
21_memory_controller.md R513, 21_memory_controller.md R519, 21_memory_controller.md R520,
24_resets_boot_power_states.md R568, 26_pins_and_electrical.md R615, 26_pins_and_electrical.md R616. -/
def Obligations.SystemCommands : Prop :=
  (∀ n, Yields sysIdentifyCard (.sysIdentify n) n (fun _ s => s) (fun _ s => identifyBytes s)) ∧
  (∀ n, Yields sysGpioCard (.sysGpio n) n
    (fun b s =>
      let s1 := { s with pins := setPins s.pins (fld b 0 4) (fld b 4 1) (fld b 5 1) (fld b 8 4) }
      s1)
    (fun b s =>
      let s1 := { s with pins := setPins s.pins (fld b 0 4) (fld b 4 1) (fld b 5 1) (fld b 8 4) }
      leBytes 4 (pinLevels s1))) ∧
  (∀ n, Yields sysTallyCard (.sysTally n) n
    (fun b s =>
      { s with
        pins.tally := modAt s.pins.tally (fld b 0 1) fun _ => (fld b 1 1, fld b 2 1) }) (fun _ _ => [])) ∧
  (∀ n, Yields evqConfigCard (.evqConfig n) n
    (fun b s => updQueue s (targetQueue (fld b 0 1)) (·.setWm (fld b 2 2))) (fun _ _ => [])) ∧
  (∀ n, Yields evqRouteCard (.evqRoute n) n (fun b s => { s with route := s.route.set (fld b 0 1) (fld b 1 1) })
    (fun _ _ => [])) ∧
  (∀ n, Yields evqResetCard (.evqReset n) n
    (fun b s =>
      let q := targetQueue (fld b 0 1)
      updQueue s q Queue.reset)
    (fun b s =>
      let q := targetQueue (fld b 0 1)
      leBytes 4 (s.queues.getD q {}).lost)) ∧
  (∀ n, Yields memStatusCard (.memStatus n) n
    (fun b s => if fld b 1 1 = 1 then memStatusClear s (fld b 0 1) else s)
    (fun b s => memStatusBytes s (fld b 0 1))) ∧
  (∀ n, Yields memApertureCard (.memAperture n) n (fun b s => { s with host.bar2Base := fld b 0 1 * 2 ^ 30 })
    (fun _ _ => [])) ∧
  (∀ n, Yields memKeepCard (.memKeep n) n (fun b s => { s with mem.keep := fld b 0 1 })
    (fun b s =>
      let k := keptBytes s (fld b 0 1)
      leBytes 8 k.1 ++ leBytes 8 k.2)) ∧
  (∀ (n : Fin 40) (s : State), Accepted sysResetCard n s → exec (.sysReset n) s = .next (softReset .soft s))

/-- Sensor commands. Accepted SENS_CONFIG, SENS_POWER, SENS_START, SENS_STOP, SENS_CLEAR, SENS_BUS_XFER, SENS_COUNTERS
and SENS_META_POLL commands: the whole next state of each, by its card. An immediate bus transfer is queued and
answers later; a deferred one answers with its ticket. Rests on 05_sensor_ingest.md R100, 05_sensor_ingest.md R102,
05_sensor_ingest.md R104, 05_sensor_ingest.md R105, 05_sensor_ingest.md R114, 05_sensor_ingest.md R120,
05_sensor_ingest.md R122. -/
def Obligations.SensorCommands : Prop :=
  (∀ n, Yields sensPowerCard (.sensPower n) n (fun b s => requestPower s (fld b 0 1) (fld b 1 1 = 1))
    (fun _ _ => [])) ∧
  (∀ n, Yields sensStartCard (.sensStart n) n (fun b s => startSensor s (fld b 0 1)) (fun _ _ => [])) ∧
  (∀ n, Yields sensStopCard (.sensStop n) n (fun b s => stopSensor s (fld b 0 1)) (fun _ _ => [])) ∧
  (∀ n, Yields sensClearCard (.sensClear n) n (fun b s => clearSensor s (fld b 0 1)) (fun _ _ => [])) ∧
  (∀ n, Yields sensCountersCard (.sensCounters n) n
    (fun b s =>
      let sn := fld b 0 1
      if fld b 1 1 = 1 then updSensor s sn fun x => { x with counters := List.replicate 64 0 } else s)
    (fun b s =>
      let sn := fld b 0 1
      (sensorOf s sn).counters.flatMap (leBytes 4))) ∧
  (∀ n, Yields sensMetaPollCard (.sensMetaPoll n) n
    (fun b s =>
      let x : BusXfer := { ticket := 0, bus := fld b 2 1, speed := fld b 4 1, target := fld b 3 1
                           wr := (b.drop 0x0C).take (fld b 8 1), rdLen := fld b 9 1 }
      let p : Option MetaPoll := if fld b 5 1 = 0 then none else some ⟨fld b 5 1, fld b 6 2, x⟩
      updSensor s (fld b 0 1) fun y => { y with polls := y.polls.set (fld b 1 1) p }) (fun _ _ => [])) ∧
  (∀ (n : Fin 40) (s : State) (c : SensConfig), Accepted sensConfigCard n s →
    let b := slotBody s n
    let t := applyConfig s (fld b 0 1) (configOf b)
    (sensorOf t (fld b 0 1)).cfg = some c →
    exec (.sensConfig n) s = .next (mbxOk t n (leBytes 8 c.base ++ leBytes 4 (slotBytes c) ++ leBytes 4 (lineStride c)))) ∧
  (∀ (n : Fin 40) (s : State), Accepted sensBusXferCard n s →
    let b := slotBody s n
    let x : BusXfer := { ticket := s.img.ticket, bus := fld b 0 1, speed := fld b 1 1, target := fld b 2 1
                         wr := (b.drop 8).take (fld b 4 2), rdLen := fld b 6 2 }
    (fld b 3 1 % 2 = 0 → exec (.sensBusXfer n) s = .next (
      let t := enqueueBus s x.bus (.host n x)
      { t with mbx.started := t.mbx.started ++ [n.val] })) ∧
    (fld b 3 1 % 2 = 1 → exec (.sensBusXfer n) s = .next (mbxOk (updSensor
      { s with img.ticket := (s.img.ticket + 1) % 65536 } (fld b 3 1 / 2) fun y => { y with deferred := y.deferred ++ [x] })
      n (leBytes 2 s.img.ticket))))

/-- Scheduler and front-end commands. Accepted SCHED_SENSOR, SCHED_COMMIT, SCHED_STATUS, FE_LIN_LOAD, FE_MERGE,
FE_BLACK, FE_MAP_ALLOC, FE_MAP_FREE, FE_MAP_SELECT, FE_DEFECT, FE_STATS_CONFIG, FE_CAL_CAPTURE and FE_CAL_ABORT
commands: the whole next state of each, by its card. Rests on 06_stripe_scheduler.md R129, 06_stripe_scheduler.md
R143, 07_front_end_corrections.md R151, 07_front_end_corrections.md R152, 07_front_end_corrections.md R157,
07_front_end_corrections.md R159, 07_front_end_corrections.md R164, 07_front_end_corrections.md R170,
07_front_end_corrections.md R173, 07_front_end_corrections.md R176, 07_front_end_corrections.md R177. -/
def Obligations.FrontEndCommands : Prop :=
  (∀ n, Yields schedSensorCard (.schedSensor n) n
    (fun b s => updSensor s (fld b 0 1) fun x => { x with cls := fld b 1 1, budgetUs := fld b 4 4 })
    (fun _ _ => [])) ∧
  (∀ n, Yields schedCommitCard (.schedCommit n) n (fun b s => commitSensor s (fld b 0 1))
    (fun b s =>
      let x := sensorOf s (fld b 0 1)
      leBytes 2 ((x.gen + 1) % 65536) ++ leBytes 2 (boolNat x.pendingSet.isSome))) ∧
  (∀ n, Yields schedStatusCard (.schedStatus n) n
    (fun b s =>
      let clr (x : Sensor) : Sensor := { x with
        framesDone := 0, framesDropped := 0, latchDeferred := 0, superseded := 0, margins := [] }
      let s1 := if fld b 0 1 = 1 then { s with
          img.sensors := s.img.sensors.map clr
          img.sched.reruns := 0 } else s
      s1)
    (fun _ s =>
      leBytes 1 (healthyEngines s) ++ leBytes 1 s.therm.allow ++ leBytes 2 (enginesInService s) ++
       leBytes 2 (enginesFailed s) ++ [0, 0] ++ s.img.sensors.flatMap schedBlock ++ leBytes 4 s.img.sched.reruns ++
       zeros 4)) ∧
  (∀ n, Yields feLinLoadCard (.feLinLoad n) n
    (fun b s =>
      let r := makeCopy s 16384 (linWords b s)
      sweep (updShadow r.2 (fld b 0 1) fun p => { p with lin := p.lin.set (fld b 1 1) (some r.1) }))
    (fun _ _ => [])) ∧
  (∀ n, Yields feMergeCard (.feMerge n) n
    (fun b s =>
      let m (e : Nat) : ExpMerge :=
        { k := fld b (8 + 16 * e) 4, sat := fld b (12 + 16 * e) 4, nRead := fld b (16 + 16 * e) 4
          nShot := fld b (20 + 16 * e) 4 }
      updShadow s (fld b 0 1) fun p => { p with guard := fld b 4 4, merge := [m 0, m 1, m 2] }) (fun _ _ => [])) ∧
  (∀ n, Yields feBlackCard (.feBlack n) n
    (fun b s =>
      let sn := fld b 0 1
      let r := if fld b 0x10 8 = 0 then (none, s)
        else
          let c := makeCopy s (4 * colTableSize s sn) (colTable b s)
          (some c.1, c.2)
      let blk : Black := { colMode := fld b 1 1, rowCount := fld b 2 1, alpha := fld b 3 1, rowFirst := fld b 4 2
                           obFirst := fld b 6 2, obCount := fld b 8 1, rowLimit := fld b 0x0C 4, table := r.1 }
      sweep (columnRegion (updSensor (updShadow r.2 sn fun p => { p with black := blk }) sn fun x => { x with
       blackSince := true }) sn)) (fun _ _ => [])) ∧
  (∀ n, Yields feMapAllocCard (.feMapAlloc n) n
    (fun b s =>
      let w := fld b 0 2
      let h := fld b 2 2
      let k := ((List.range 16).find? fun i => (mapOf s i).isNone).getD 0
      let a := alloc s (.map k) (mapBytes w h)
      let row := (List.replicate w (leBytes 4 0x40000000)).flatten
      let s1 := (List.range h).foldl (fun s y => dramWrite s (a.1 + y * mapStride w) row) a.2
      { s1 with img.maps := s1.img.maps.set k (some ⟨w, h, a.1⟩) })
    (fun b s =>
      let w := fld b 0 2
      let h := fld b 2 2
      let k := ((List.range 16).find? fun i => (mapOf s i).isNone).getD 0
      let a := alloc s (.map k) (mapBytes w h)
      leBytes 1 k ++ [0, 0, 0] ++ leBytes 4 (mapStride w) ++ leBytes 8 a.1 ++ leBytes 8 (mapBytes w h))) ∧
  (∀ n, Yields feMapFreeCard (.feMapFree n) n
    (fun b s => release { s with img.maps := s.img.maps.set (fld b 0 1) none } (.map (fld b 0 1)))
    (fun _ _ => [])) ∧
  (∀ n, Yields feMapSelectCard (.feMapSelect n) n
    (fun b s =>
      let h := if fld b 1 1 = 0xFF then none else some (fld b 1 1)
      updShadow s (fld b 0 1) fun p => { p with
       defect := { p.defect with map := h, offsetUnit := fld b 4 4, classAction := fld b 8 4 } })
    (fun _ _ => [])) ∧
  (∀ n, Yields feDefectCard (.feDefect n) n
    (fun b s =>
      updShadow s (fld b 0 1) fun p => { p with
        defect := { p.defect with mode := fld b 1 1, tAbs := fld b 4 4, tRel := fld b 8 4, storm := fld b 0x0C 4 } })
    (fun _ _ => [])) ∧
  (∀ n, Yields feStatsConfigCard (.feStatsConfig n) n
    (fun b s =>
      let sn := fld b 0 1
      let d := fld b 1 1
      let r := realloc s (.statsRing sn) (statsBytes * d)
      let c : StatsCfg := { depth := d, e0 := fld b 2 1, weights := (List.range 4).map fun i => fld b (4 + 4 * i) 4
                            base := r.1 }
      updSensor r.2 sn fun x => { x with statsCmd := if d = 0 then none else some c })
    (fun b s =>
      let sn := fld b 0 1
      let d := fld b 1 1
      let r := realloc s (.statsRing sn) (statsBytes * d)
      leBytes 8 r.1 ++ leBytes 4 statsBytes ++ zeros 4)) ∧
  (∀ n, Yields feCalCaptureCard (.feCalCapture n) n
    (fun b s =>
      let sn := fld b 0 1
      let a := alloc s (.accum sn) (8 * captureSize s sn)
      let c : Capture := { kind := fld b 1 1, frames := fld b 2 2, handle := fld b 4 1, hot := fld b 8 4
                           target := fld b 0x0C 4, gainLo := fld b 0x10 2, gainHi := fld b 0x12 2
                           offsetUnit := fld b 0x14 4, fromSeq := (sensorOf s sn).seq
                           acc := List.replicate (captureSize s sn) 0 }
      updSensor a.2 sn fun x => { x with capture := some c }) (fun _ _ => [])) ∧
  (∀ n, Yields feCalAbortCard (.feCalAbort n) n (fun b s => captureEnd s (fld b 0 1) 1 0 0) (fun _ _ => []))

/-- Development, colour and rendition commands. Accepted DEV_CFA, DEV_DEMOSAIC, DEV_SL_FRAME, COL_TRANSFORM, COL_GAINS,
COL_SHAPER_LOAD, LUT_LOAD, COL_CONTRAST, COL_OUTPUT, COL_STATUS, RND0_OUTPUT, RND_BIND, RND_GEOMETRY, RND_STATUS and
TAP_CONFIG commands: the whole next state of each, by its card; the buffer commands answer with the base, stride and
size they were given. Rests on 08_demosaic_and_scene_linear.md R186, 08_demosaic_and_scene_linear.md R189,
08_demosaic_and_scene_linear.md R196, 09_colour_engines.md R209, 09_colour_engines.md R212, 09_colour_engines.md
R213, 09_colour_engines.md R215, 09_colour_engines.md R217, 09_colour_engines.md R218, 10_renditions_and_taps.md
R239, 10_renditions_and_taps.md R240, 10_renditions_and_taps.md R248. -/
def Obligations.ColourCommands : Prop :=
  (∀ n, Yields devCfaCard (.devCfa n) n
    (fun b s =>
      let m := cfaOf b
      updShadow s (fld b 0 1) fun p => { p with
       mosaic := { m with bal := p.mosaic.bal, gradFloor := p.mosaic.gradFloor, cas := p.mosaic.cas } })
    (fun _ _ => [])) ∧
  (∀ n, Yields devDemosaicCard (.devDemosaic n) n
    (fun b s =>
      updShadow s (fld b 0 1) fun p => { p with
       mosaic := { p.mosaic with
         bal := (List.range 4).map fun i => fld b (4 + 4 * i) 4, gradFloor := fld b 0x14 4, cas := fld b 0x18 4 } })
    (fun _ _ => [])) ∧
  (∀ n, Yields colTransformCard (.colTransform n) n
    (fun b s =>
      let w := matrixWords b
      colUpd b s fun c => { c with
       form := fld b 2 1, illums := fld b 3 1, miredA := fld b 4 4, miredB := fld b 8 4, mired := fld b 0x0C 4
       matA := bodyWords b 0x10 w, matB := if fld b 3 1 = 2 then bodyWords b (0x10 + 4 * w) w else [] })
    (fun _ _ => [])) ∧
  (∀ n, Yields colGainsCard (.colGains n) n
    (fun b s =>
      colUpd b s fun c => { c with hlMode := fld b 2 1, exposure := fld b 4 4, wgain := bodyWords b 8 3 })
    (fun _ _ => [])) ∧
  (∀ n, Yields colShaperLoadCard (.colShaperLoad n) n
    (fun b s =>
      let r := hostCopy s (fld b 2 1 = 1) 24576 (tableWords s (fld b 8 8) 12288 2)
      colUpd b r.2 fun c => { c with shaper := r.1 }) (fun _ _ => [])) ∧
  (∀ n, Yields lutLoadCard (.lutLoad n) n
    (fun b s =>
      let r := hostCopy s (latticeEdge b != 0) (latticeBytes b) (latticeWords b s)
      colUpd b r.2 fun c => { c with latticeN := latticeEdge b, lattice := r.1 }) (fun _ _ => [])) ∧
  (∀ n, Yields colContrastCard (.colContrast n) n
    (fun b s =>
      let r := hostCopy s (fld b 0x18 8 != 0) 8580 (gridWords b s)
      colUpd b r.2 fun c => { c with lcStrength := fld b 4 4, lcFloor := fld b 8 4, lw := bodyWords b 0x0C 3, grid := r.1 })
    (fun _ _ => [])) ∧
  (∀ n, Yields colOutputCard (.colOutput n) n
    (fun b s =>
      let r := hostCopy s (fld b 3 1 = 4) 8194 (tableWords s (fld b 0x30 8) 4097 2)
      colUpd b r.2 fun c => { c with
       format := fld b 2 1, tf := fld b 3 1, ycc := fld b 4 1, tfScale := fld b 8 4, outMat := bodyWords b 0x0C 9
       tfTable := r.1 }) (fun _ _ => [])) ∧
  (∀ n, Yields colStatusCard (.colStatus n) n
    (fun b s =>
      let r := fld b 0 1
      let sn := fld b 1 1
      let s1 := if fld b 2 1 = 0 then s
        else if r = 0 then updSensor s sn fun x => { x with colCnt := {} } else updRnd s r fun x => { x with colCnt := {} }
      s1)
    (fun b s =>
      let r := fld b 0 1
      let sn := fld b 1 1
      let cnt := if r = 0 then (sensorOf s sn).colCnt else if (rndOf s r).sensor.isNone then {} else (rndOf s r).colCnt
      colCounters cnt ++ leBytes 1 (bankState s r 0) ++ leBytes 1 (bankState s r 1) ++
       leBytes 1 (bankMask s r 0) ++ leBytes 1 (bankMask s r 1) ++ zeros 4)) ∧
  (∀ n, Yields rndGeometryCard (.rndGeometry n) n
    (fun b s =>
      let k := if fld b 0x10 8 = 0 then (none, s)
        else
          let c := makeCopy s 1024 (kernelWords b s)
          (some c.1, c.2)
      sweep (setPlace k.2 (fld b 0 1) (some (placeAsked b k.1)))) (fun _ _ => [])) ∧
  (∀ n, Yields rndStatusCard (.rndStatus n) n
    (fun b s =>
      let s1 := if fld b 0 1 = 0 then s
        else { s with
          img.rnds := s.img.rnds.map clearRnd
          img.rnd0Done := 0 }
      s1) (fun _ s => (List.range 6).flatMap (rndBlock s))) ∧
  (∀ (n : Fin 40) (s : State) (l : SlCfg) (c : SensConfig), Accepted devSlFrameCard n s →
    let b := slotBody s n
    let r := realloc s (.slFrame (fld b 0 1)) (slAskedBytes b s)
    slAsked b = some l → (sensorOf s (fld b 0 1)).cfg = some c →
    exec (.devSlFrame n) s = .next (mbxOk (setSl r.2 (fld b 0 1) (some { l with base := r.1 })) n
      (leBytes 8 r.1 ++ leBytes 4 (slStride c l.scale) ++ leBytes 4 (slBytes c l.scale)))) ∧
  (∀ (n : Fin 40) (s : State), Accepted devSlFrameCard n s → slAsked (slotBody s n) = none →
    let b := slotBody s n
    exec (.devSlFrame n) s = .next (mbxOk
      (setSl (realloc s (.slFrame (fld b 0 1)) (slAskedBytes b s)).2 (fld b 0 1) none) n (zeros 16))) ∧
  (∀ (n : Fin 40) (s : State), Accepted rnd0OutputCard n s → rnd0Asked (slotBody s n) = none →
    let b := slotBody s n
    exec (.rnd0Output n) s = .next (mbxOk
      (setRnd0 (realloc s (.rnd0 (fld b 0 1)) (rnd0AskedBytes b s)).2 (fld b 0 1) none) n (zeros 16))) ∧
  (∀ (n : Fin 40) (s : State) (l : Rnd0Cfg) (c : SensConfig), Accepted rnd0OutputCard n s →
    let b := slotBody s n
    let r := realloc s (.rnd0 (fld b 0 1)) (rnd0AskedBytes b s)
    rnd0Asked b = some l → (sensorOf s (fld b 0 1)).cfg = some c →
    exec (.rnd0Output n) s = .next (mbxOk (setRnd0 r.2 (fld b 0 1) (some { l with base := r.1 })) n
      (leBytes 8 r.1 ++ leBytes 4 (layoutStride l.layout c.width) ++
        leBytes 4 (layoutBufBytes l.layout c.width c.height)))) ∧
  (∀ (n : Fin 40) (s : State), Accepted rndBindCard n s →
    let b := slotBody s n
    let r := fld b 0 1
    (fld b 1 1 = 0xFF → exec (.rndBind n) s = .next (mbxOk (bindRnd s r none {}) n (zeros 16))) ∧
    (fld b 1 1 ≠ 0xFF →
      let t := bindRnd s r (some (fld b 1 1)) (bindAsked b)
      let x := rndOf t r
      exec (.rndBind n) s = .next (mbxOk t n
        (leBytes 8 x.base ++ leBytes 4 (layoutStride x.layout x.maxW) ++ leBytes 4 (rndBufBytes x))))) ∧
  (∀ (n : Fin 40) (s : State) (l : Tap) (c : SensConfig), Accepted tapConfigCard n s →
    let b := slotBody s n
    let r := realloc s (.tap (fld b 0 1) (fld b 1 1)) (tapAskedBytes b s)
    tapAsked b = some l → (sensorOf s (fld b 0 1)).cfg = some c →
    exec (.tapConfig n) s = .next (mbxOk (setTap r.2 (fld b 0 1) (fld b 1 1) (some { l with base := r.1 })) n
      (leBytes 8 r.1 ++ leBytes 4 (tapStride c) ++ leBytes 4 (tapBytes c (fld b 1 1))))) ∧
  (∀ (n : Fin 40) (s : State), Accepted tapConfigCard n s → tapAsked (slotBody s n) = none →
    let b := slotBody s n
    exec (.tapConfig n) s = .next (mbxOk (setTap (realloc s (.tap (fld b 0 1) (fld b 1 1)) (tapAskedBytes b s)).2
      (fld b 0 1) (fld b 1 1) none) n (zeros 16)))

/-- Codec commands. Accepted CODEC_STREAM, CODEC_JOB_ENCODE, CODEC_JOB_DECODE, CODEC_JOB_RESUME, CODEC_JOB_ABORT and
CODEC_STATUS commands: the whole next state of each, by its card. Rests on 12_schist_engines.md R285,
12_schist_engines.md R294, 12_schist_engines.md R295, 12_schist_engines.md R296, 12_schist_engines.md R298. -/
def Obligations.CodecCommands : Prop :=
  (∀ n, Yields codecStreamCard (.codecStream n) n
    (fun b s =>
      let t := fld b 0 1
      if fld b 1 1 = 1 then clearHistory (updStream s t fun x => { x with cmd := some (streamCfg b) }) t
       else updStream s t fun x => { x with cmd := none }) (fun _ _ => [])) ∧
  (∀ n, Yields jobEncodeCard (.codecJobEncode n) n
    (fun b s =>
      let q := fld b 0x0D 1
      let sets := quantField b 0x38 :: if q = 2 then [quantField b 0x48] else []
      let spec : JobSpec := .encode (fld b 1 1 = 1) (fld b 2 1) (fld b 3 1) (fld b 4 2) (fld b 6 2) (fld b 8 2)
        (fld b 0x0A 2) (fld b 0x0C 1 = 1) q (fld b 0x10 8) (fld b 0x18 4) (fld b 0x28 8) (fld b 0x30 4) sets
      queueJob s (fld b 0 1) spec (fld b 0x20 8) (fld b 0x1C 4))
    (fun b _ =>
      let q := fld b 0x0D 1
      leBytes 4 (headBytes q (encodeSlabs b)) ++ leBytes 2 (encodeSlabs b) ++ [0, 0])) ∧
  (∀ n, Yields jobDecodeCard (.codecJobDecode n) n
    (fun b s =>
      queueJob s (fld b 0 1) (.decode (fld b 4 4) (fld b 8 8) (fld b 0x10 8) (fld b 0x18 4) (fld b 0x1C 2)
       (fld b 0x1E 2) (fld b 0x20 8) (fld b 0x28 2) (fld b 0x2C 4)) 0 0) (fun _ _ => [])) ∧
  (∀ n, Yields jobResumeCard (.codecJobResume n) n
    (fun b s =>
      updJob s (fld b 0 1) fun x => { x with
       state := 2, outAddr := fld b 8 8, outSize := fld b 4 4, outThis := 0, nextLen := 0 }) (fun _ _ => [])) ∧
  (∀ n, Yields jobAbortCard (.codecJobAbort n) n
    (fun b s =>
      let j := fld b 0 1
      jobSettle (updJob s j fun x => { x with aborting := true }) j) (fun _ _ => [])) ∧
  (∀ n, Yields codecStatusCard (.codecStatus n) n (fun b s => if fld b 0 1 = 1 then codecStatusClear s else s)
    (fun _ s => codecStatusBytes s))

/-- Recording and volume commands. Accepted REC_START, REC_STOP, REC_CHANNEL, REC_VOL_FORMAT, REC_VOL_MOUNT,
REC_VOL_UNMOUNT, REC_CLIP_DELETE and REC_STATUS commands: the whole next state of each, by its card. Rests on
13_recording.md R302, 13_recording.md R309, 13_recording.md R310, 13_recording.md R320, 13_recording.md R323,
13_recording.md R324. -/
def Obligations.RecordingCommands : Prop :=
  (∀ n, Yields recStartCard (.recStart n) n
    (fun b s =>
      let m := fld b 0 1
      let t := startInstant b s
      let s1 := (maskChans m).foldl (startChannel s m t (startTimecode s (fld b 0x10 4) t) (fld b 4 4)) s
      let leads := (maskChans m).filter fun c => (recChan s c).kind != 2
      let s2 := leads.foldl (fun s c =>
        ((recChan s c).preroll.filter fun it => t ≤ it.fs).foldl (fun s it => offerItem s c it) s) s1
      s2)
    (fun b s =>
      let m := fld b 0 1
      (List.range 8).flatMap fun c => leBytes 2 (if m.testBit c then startEntry s m c else 0xFFFF))) ∧
  (∀ n, Yields recStopCard (.recStop n) n
    (fun b s => stopChannels s (fld b 0 1) (if fld b 1 1 = 0 then classS s else fld b 4 8)) (fun _ _ => [])) ∧
  (∀ n, Yields recChannelCard (.recChannel n) n
    (fun b s =>
      let c := fld b 0 1
      let old := recChan s c
      let s1 := release s (.preroll c)
      let s2 := if fld b 0x0C 4 = 0 then s1 else (alloc s1 (.preroll c) (fld b 0x0C 4 * 2 ^ 20)).2
      let keep : RecChannel := { markers := old.markers, overruns := old.overruns }
      updChan s2 c fun _ =>
       if kindField b = 0 then keep
       else { keep with
         kind := kindField b, src := fld b 2 1, vol := fld b 3 1, spill := fld b 4 1, audioRate := fld b 5 1,
         prerollMs := fld b 6 2, audioMask := fld b 8 4, prerollMib := fld b 0x0C 4, state := 1 })
    (fun _ _ => [])) ∧
  (∀ n, Yields volUnmountCard (.recVolUnmount n) n
    (fun b s =>
      let v := fld b 0 1
      let s1 := volEvent (writeSuper s v 0) v 1 0
      tellSessions (nsNotice (updVolume s1 v fun x => { x with mounted := false, reserveEntered := false }) (v + 1)) v)
    (fun _ _ => [])) ∧
  (∀ n, Yields clipDeleteCard (.recClipDelete n) n
    (fun b s =>
      let v := fld b 0 1
      let e := fld b 2 2
      let us := (chainUnits s v (listFuel s v) (volLE s v (dirAddr e + 0x40) 8)).1
      let s1 := engineBarrier (freeUnitsOf s v us) v
      updVolume (writeEntry s1 v e (zeros 512)) v fun x => { x with reserveEntered := false })
    (fun b s =>
      let v := fld b 0 1
      let e := fld b 2 2
      let us := (chainUnits s v (listFuel s v) (volLE s v (dirAddr e + 0x40) 8)).1
      leBytes 4 us.length)) ∧
  (∀ n, Yields recStatusCard (.recStatus n) n (fun b s => if fld b 0 1 = 1 then recStatusClear s else s)
    (fun _ s => recStatusBytes s)) ∧
  (∀ (n : Fin 40) (s : State), Accepted volMountCard n s → gateWaits volMountCard s n = false →
    let v := fld (slotBody s n) 0 1
    let r := mountVolume s v
    exec (.recVolMount n) s = .next (mbxOk r.2 n (leBytes 8 (volume r.2 v).volId ++ leBytes 4 (freeUnits r.2 v) ++
      leBytes 2 r.1 ++ leBytes 2 (freeEntries r.2 v)))) ∧
  (∀ (n : Fin 40) (s : State), Accepted volFormatCard n s → gateWaits volFormatCard s n = false →
    let b := slotBody s n
    let t := formatVolume s (fld b 0 1) ((b.drop 4).take 16)
    exec (.recVolFormat n) s = .next (mbxOk t n
      (leBytes 8 (volume t (fld b 0 1)).volId ++ leBytes 4 (volume t (fld b 0 1)).units)))

/-- Media Gate commands. Accepted GATE_STATUS, GATE_DRIVE, GATE_SERVICE, GATE_REMOTE, GATE_SESSION_OPEN and
GATE_SESSION_CLOSE commands: the whole next state of each, by its card; GATE_DRIVE with a drive that trains brings
the port up and answers with what it shows, and takes the port down otherwise; an opened session waits for its
partner. A GATE_DRIVE, GATE_SERVICE, REC_VOL_FORMAT or REC_VOL_MOUNT whose port still holds writes that a power-loss
response keeps from admission waits. Rests on 14_media_gate.md R327, 14_media_gate.md R331, 14_media_gate.md R344,
14_media_gate.md R347, 14_media_gate.md R348, 14_media_gate.md R353. -/
def Obligations.GateCommands : Prop :=
  (∀ n, Yields gateStatusCard (.gateStatus n) n (fun b s => if fld b 0 1 = 1 then gateStatusClear s else s)
    (fun _ s => gateStatusBytes s)) ∧
  (∀ n, Yields gateRemoteCard (.gateRemote n) n
    (fun b s =>
      { s with
       gate.serve := fld b 0 1 = 1
       gate.maxSessions := fld b 2 2
       gate.creditPool := fld b 4 2 }) (fun _ _ => [])) ∧
  (∀ n, Begins gateSessionOpenCard (.gateSessionOpen n) n
    (fun b s =>
      let r := startOpen s {
        num := 0, kind := 4, state := 1, partner := fld b 2 2, slot := some n.val,
        maxItem := storageMaxItem (fld b 4 2) (fld b 1 1) }
      let x : Session := {
        server := false, nsid := fld b 0 1, flow := r.1, partner := fld b 2 2, remoteNs := fld b 1 1,
        credits := fld b 4 2 }
      launchOpen { r.2 with gate.sessions := r.2.gate.sessions ++ [x] } r.1)) ∧
  (∀ n, Yields gateSessionCloseCard (.gateSessionClose n) n
    (fun b s =>
      let nsid := fld b 0 1
      sessionSettle { s with gate.sessions := s.gate.sessions.map fun x =>
       if !x.server && x.nsid == nsid then { x with closing := true } else x } nsid) (fun _ _ => [])) ∧
  (∀ (n : Fin 40) (s : State) (f : DriveFacts), Accepted (gateDriveCard (some f)) n s →
    gateWaits (gateDriveCard (some f)) s n = false → fld (slotBody s n) 1 1 = 1 →
    let p := fld (slotBody s n) 0 1
    let t := bringUp (updVolume s p fun v => { v with failed := false }) p (fld (slotBody s n) 4 4) f
    exec (.gateDrive n (some f)) s = .next (mbxOk t n (leBytes 1 (gatePort t p).gen ++ leBytes 1 (gatePort t p).width ++
      leBytes 1 (gatePort t p).lbaLog2 ++ leBytes 1 (boolNat (gatePort t p).clipValid) ++
      leBytes 4 (gatePort t p).rolledBack ++ leBytes 8 (gatePort t p).blocks))) ∧
  (∀ (n : Fin 40) (s : State) (d : Option DriveFacts), Accepted (gateDriveCard d) n s →
    gateWaits (gateDriveCard d) s n = false → fld (slotBody s n) 1 1 = 0 →
    exec (.gateDrive n d) s = .next (mbxOk (portDown s (fld (slotBody s n) 0 1)) n (zeros 16))) ∧
  (∀ (n : Fin 40) (s : State), Accepted gateServiceCard n s → gateWaits gateServiceCard s n = false →
    let p := fld (slotBody s n) 0 1
    let q := gatePort s p
    (fld (slotBody s n) 1 1 = 1 → exec (.gateService n) s = .next (
      let t := updGatePort s p fun q => { q with state := 3 }
      mbxOk (nsNotice (if q.clipValid then nsNotice t (p + 1) else t) (p + 5)) n [])) ∧
    (fld (slotBody s n) 1 1 = 0 → exec (.gateService n) s = .next (
      mbxOk (bringUp (nsNotice (nvmeSettle (finishPort s p)) (p + 5)) p q.windowKib ⟨q.gen, q.width, q.lbaLog2, q.blocks⟩)
        n []))) ∧
  (∀ (n : Fin 40) (d : Option DriveFacts) (s : State),
    (gateWaits (gateDriveCard d) s n = true → exec (.gateDrive n d) s = .next s) ∧
    (gateWaits gateServiceCard s n = true → exec (.gateService n) s = .next s) ∧
    (gateWaits volFormatCard s n = true → exec (.recVolFormat n) s = .next s) ∧
    (gateWaits volMountCard s n = true → exec (.recVolMount n) s = .next s))

/-- Serial-lane commands. Accepted LANE_CONFIG, LANE_STATUS, LANE_LINK, LANE_POWER, LANE_LOOP and LANE_EQ commands: the
whole next state of each, by its card. Rests on 15_serial_lanes.md R357, 15_serial_lanes.md R373, 15_serial_lanes.md
R375, 15_serial_lanes.md R376, 15_serial_lanes.md R377, 15_serial_lanes.md R382. -/
def Obligations.LaneCommands : Prop :=
  (∀ (n : Fin 40) (khzA khzB : Nat), Yields (laneConfigCard khzA khzB) (.laneConfig n khzA khzB) n
    (fun b s =>
      let s1 := (List.range 4).foldl (configLane b) s
      epTrain { s1 with lane.quads := s1.lane.quads.set (fld b 0 1) (quadAsked b) }) (fun _ _ => [])) ∧
  (∀ (n : Fin 40) (taps : List Int) (eyeW eyeH : Nat), Yields (laneStatusCard taps eyeW eyeH) (.laneStatus n taps eyeW eyeH) n
    (fun b s =>
      let a := fld b 0 1
      let s0 := updSerial s a fun x => if x.st = 3 then
          { x with taps := if x.eq = 1 then (List.range 12).map fun i => tapRange i (taps.getD i 0) else x.taps
                   eyeW := eyeW % 2 ^ 16, eyeH := eyeH % 2 ^ 16 }
        else x
      let s1 := if fld b 1 1 = 0 then s0
        else updSerial s0 a fun x => { x with
          lockLosses := 0, markerFails := 0, stuffErrors := 0, codeErrors := 0, idleIns := 0, idleDel := 0, loopErrors := 0 }
      s1)
    (fun b s =>
      let a := fld b 0 1
      let s0 := updSerial s a fun x => if x.st = 3 then
          { x with taps := if x.eq = 1 then (List.range 12).map fun i => tapRange i (taps.getD i 0) else x.taps
                   eyeW := eyeW % 2 ^ 16, eyeH := eyeH % 2 ^ 16 }
        else x
      let x := laneOf s0 a
      leBytes 1 x.st ++ leBytes 1 x.pers ++ leBytes 1 x.rate ++ leBytes 1 x.pll ++ leBytes 1 x.eq ++
       leBytes 1 ((lanePort s a).getD 0xFF) ++ leBytes 1 ((lanePos s a).getD 0xFF) ++ [0] ++
       ((List.range 12).flatMap fun i => leInt 1 (x.taps.getD i 0)) ++ leBytes 2 x.eyeW ++ leBytes 2 x.eyeH ++
       leBytes 4 x.lockLosses ++ leBytes 4 x.markerFails ++ leBytes 4 x.stuffErrors ++ leBytes 4 x.codeErrors ++
       leBytes 4 x.idleIns ++ leBytes 4 x.idleDel ++ leBytes 4 x.loopErrors ++ zeros 12)) ∧
  (∀ n, Yields laneLinkCard (.laneLink n) n
    (fun b s =>
      let q := fld b 0 1
      if fld b 1 1 = 1 then bindLink s q { lanes := linkLanes b, spare := fld b 4 1 == 1 } else unbindLink s q)
    (fun _ _ => [])) ∧
  (∀ n, Yields lanePowerCard (.lanePower n) n
    (fun b s =>
      if fld b 0 1 = 0 then lanePower s (fld b 1 1) (fld b 2 1) else portPower s (fld b 1 1) (fld b 2 1))
    (fun _ _ => [])) ∧
  (∀ (n : Fin 40) (bits : BitVec 64) (errs : BitVec 32), Yields (laneLoopCard bits.toNat errs.toNat) (.laneLoop n bits errs) n
    (fun b s =>
      let a := fld b 0 1
      if fld b 4 2 = 0 then endLoop s a 3 bits.toNat errs.toNat
        else setLane (updSerial s a fun x => { x with loop := some (loopAsked b x) }) a 5 0) (fun _ _ => [])) ∧
  (∀ n, Yields laneEqCard (.laneEq n) n
    (fun b s =>
      updSerial (if fld b 1 1 = 1 then adapted s (fld b 0 1) else s) (fld b 0 1) fun x =>
       if fld b 1 1 = 1 then { x with eq := 3 }
       else if fld b 1 1 = 0 then { x with eq := 1 }
       else { presetTaps x with eq := 1 }) (fun _ _ => []))

/-- Ring, flow and injector commands. Accepted RING_CONFIG, RING_STATUS, FLOW_OPEN, FLOW_CLOSE, FLOW_LISTEN, FLOW_SEND,
FLOW_STATUS, FLINT_SET and FLINT_STATUS commands: the whole next state of each, by its card; FLOW_OPEN answers when
its partner does. Rests on 16_causeway_ring_and_stage.md R388, 16_causeway_ring_and_stage.md R408,
16_causeway_ring_and_stage.md R412, 16_causeway_ring_and_stage.md R414, 16_causeway_ring_and_stage.md R415,
16_causeway_ring_and_stage.md R416, 16_causeway_ring_and_stage.md R417, 16_causeway_ring_and_stage.md R418. -/
def Obligations.RingCommands : Prop :=
  (∀ n, Yields ringConfigCard (.ringConfig n) n
    (fun b s =>
      let named := (portOffs b).map fun o => fld b o 1
      let root := fld b 0 1 == 0 && fld b 1 1 == 0
      let ports := s.ring.ports.mapIdx fun q p =>
        let p' := { portHandshake p with express := [], bulk := [] }
        if named.contains q then p' else { p' with state := 0 }
      let entries := (List.range 64).map fun r =>
        let e := fld b (routeOff r) 2
        if e.testBit 15 then some (e % 64, e / 64 % 4) else none
      let s1 := updRing s fun r => { r with
        stageAddr := stageAddress (fld b 0 1) (fld b 1 1), configured := true, junction := fld b 3 1 == 1
        slots := configSlots b, budgetUs := fld b 0x14 4, route := entries, ports := ports
        budgetNs := fld b 0x14 4 * 1000, rootLat := if root then some 0 else none, stale := false }
      judgeBudget s1) (fun _ _ => [])) ∧
  (∀ n, Yields ringStatusCard (.ringStatus n) n
    (fun b s =>
      if fld b 0 1 = 1 then updRing s fun r => { r with
         cacheMisses := 0, opensRefused := 0
         ports := r.ports.map fun p => { p with
           replays := 0, fcrcErrors := 0, wrapped := 0, dropped := 0, aborts := 0 } } else s)
    (fun _ s => ringStatusBytes s)) ∧
  (∀ n, Begins flowOpenCard (.flowOpen n) n
    (fun b s =>
      let sizes := openerSizes s b
      let kind := fld b 2 1
      let r := startOpen s {
        num := 0, kind := kind, state := 1, partner := fld b 0 2, slot := some n.val,
        stream := fld b 3 1, maxItem := if kind = 1 then fld b 4 4 else sizes.1 / 2,
        rxSlotBytes := if kind = 1 then s.ring.listen1.slotBytes else 0,
        rxDepth := if kind = 1 then s.ring.listen1.depth else 0 }
      let s1 := if sizes.1 = 0 then r.2 else (alloc r.2 (.sendBuf r.1) sizes.1).2
      let a := if sizes.2 = 0 then (0, s1) else alloc s1 (.recvRing r.1) sizes.2
      launchOpen (updFlow a.2 r.1 fun f => { f with rxBase := a.1 }) r.1)) ∧
  (∀ n, Yields flowCloseCard (.flowClose n) n
    (fun b s => closeWhenDone (updFlow s (fld b 0 2) fun f => { f with state := 3 }) (fld b 0 2))
    (fun _ _ => [])) ∧
  (∀ n, Yields flowListenCard (.flowListen n) n
    (fun b s =>
      let l : Listen := { accept := fld b 1 1 == 1, maxFlows := fld b 2 2, slotBytes := fld b 4 4, depth := fld b 8 1 }
      updRing s fun r => if fld b 0 1 = 1 then { r with listen1 := l } else { r with listen2 := l })
    (fun _ _ => [])) ∧
  (∀ n, Yields flowSendCard (.flowSend n) n
    (fun b s => flowQueueItem s (fld b 0 2) (dramRead s (fld b 8 8) (fld b 4 4)) false)
    (fun b s =>
      let no := ((flowOf s (fld b 0 2)).map (·.nextItem)).getD 0
      leBytes 4 no)) ∧
  (∀ n, Yields flintSetCard (.flintSet n) n
    (fun b s =>
      let mode := fld b 2 1
      updRing s fun r => { r with
       injectors := modAt r.injectors (injectorOf (fld b 0 1) (fld b 1 1)) fun i => { i with
         mode := mode, n := fld b 3 1, burst := fld b 4 1, offset := fld b 5 1, pattern := fld b 8 4
         count := fld b 0x10 4, lfsr := fld b 0x0C 4 % 2 ^ 31, armed := mode != 0, left := 0, done := 0 } })
    (fun _ _ => [])) ∧
  (∀ n, Yields flintStatusCard (.flintStatus n) n
    (fun b s =>
      if fld b 0 1 = 1 then updRing s fun r => { r with
         injectors := r.injectors.map fun i => { i with injections := 0, units := 0 } } else s)
    (fun _ s =>
      let resp := leBytes 1 (boolNat s.br.flintGate) ++ leBytes 1 (boolNat s.br.testEn) ++ zeros 14 ++
        s.ring.injectors.flatMap fun i =>
          leBytes 1 i.mode ++ leBytes 1 i.n ++ leBytes 1 i.burst ++ leBytes 1 (boolNat i.armed) ++
            leBytes 4 i.injections ++ leBytes 4 i.units ++ zeros 4
      resp)) ∧
  (∀ (n : Fin 40) (s : State), Accepted flowStatusCard n s → flowOf s (fld (slotBody s n) 0 2) = none →
    exec (.flowStatus n) s = .next (mbxOk s n (zeros 0x30))) ∧
  (∀ (n : Fin 40) (f : Flow) (s : State), Accepted flowStatusCard n s →
    let b := slotBody s n
    flowOf s (fld b 0 2) = some f → f.kind ≤ 4 →
    exec (.flowStatus n) s = .next (mbxOk (if fld b 2 1 = 1 then updFlow s f.num fun f => { f with
        sentItems := 0, rcvdItems := 0, gapLost := 0, duplicates := 0, stale := 0, overwrites := 0, txOverruns := 0,
        reorderHolds := 0 } else s) n
      (leBytes 1 f.kind ++ leBytes 1 f.state ++ leBytes 2 f.partner ++ leBytes 2 f.remote ++ leBytes 1 f.dgen ++ [0] ++
        leBytes 4 (pathBound s f) ++ leBytes 4 f.sentItems ++ leBytes 4 f.rcvdItems ++ leBytes 4 f.gapLost ++
        leBytes 4 f.duplicates ++ leBytes 4 f.stale ++ leBytes 4 f.overwrites ++ leBytes 4 f.txOverruns ++
        leBytes 4 f.reorderHolds ++ zeros 4)))

/-- Video output and display commands. Accepted OUT_SDI, OUT_2110, OUT_ETH_PORT, OUT_STATUS, DISP_CONFIG, DISP_LAYER,
DISP_COMMIT, DISP_DCS and DISP_STATUS commands: the whole next state of each, by its card. With the display off
DISP_DCS answers at once; with an active line on the panel it waits for vertical blanking, and in blanking that is
long enough it is sent at once; the state holds the DSI command sent (R452). Rests on 17_broadcast_outputs.md R425,
17_broadcast_outputs.md R428, 17_broadcast_outputs.md R433, 18_viewfinder_scanout.md R438, 18_viewfinder_scanout.md
R443, 18_viewfinder_scanout.md R448, 18_viewfinder_scanout.md R452, 18_viewfinder_scanout.md R453. -/
def Obligations.OutputCommands : Prop :=
  (∀ n, Yields outEthPortCard (.outEthPort n) n
    (fun b s =>
      let e := fld b 0 1
      let up := fld b 1 1 == 1
      let s0 := if up then s else ethLink s e false
      let s1 := updEth s0 e fun p => { p with
        up := up, fec := fld b 2 1, mac := (b.drop 4).take 6, vlan := fld b 0x0A 2, ip := (b.drop 0x0C).take 4 }
      setLane s1 (ethLane s.fuse e) (if up then 2 else 1) 0) (fun _ _ => [])) ∧
  (∀ n, Yields outStatusCard (.outStatus n) n
    (fun b s =>
      if fld b 0 1 = 1 then { s with
         out.outs := s.out.outs.map fun x => { x with repeats := 0, skips := 0, sizeSkips := 0, audioAdjust := 0 }
         out.eth := s.out.eth.map fun p => { p with packets := 0 } } else s)
    (fun _ s =>
      let blocks := s.out.outs.flatMap fun x =>
        leBytes 1 x.st ++ zeros 3 ++ leBytes 4 x.lastSeq ++ leBytes 2 x.repeats ++ leBytes 2 x.skips ++ leBytes 2 x.sizeSkips ++
          leBytes 2 x.audioAdjust
      let ports := [0, 1].flatMap fun e =>
        leBytes 1 (boolNat (ethOf s e).link) ++ leBytes 1 (ethOf s e).fec ++ zeros 2 ++
          leBytes 4 (ceilDiv (portBits s e) (1001 * 1000000)) ++ leBytes 8 (ethOf s e).packets
      blocks ++ ports)) ∧
  (∀ n, Yields dispConfigCard (.dispConfig n) n (fun b s => dispApply s b) (fun _ _ => [])) ∧
  (∀ n, Yields dispLayerCard (.dispLayer n) n
    (fun b s => updDisp s fun d => { d with shadow := d.shadow.set (fld b 0 1) (dispLayerOf b) })
    (fun _ _ => [])) ∧
  (∀ n, Yields dispCommitCard (.dispCommit n) n
    (fun b s =>
      let d := s.disp
      let line := d.line.getD 0
      let late := d.enabled && d.cfg.vActive ≤ line + 2 && d.line.isSome
      let target := if !d.enabled then 0xFFFFFFFF else if late then nextFrame s else d.dframe
      let replaced := d.pending.isSome
      let s1 := updDisp s fun d => { d with
        pending := some ({ layers := d.shadow, lineMatch := fld b 0 2 }, target)
        superseded := if replaced then sat32 d.superseded 1 else d.superseded
        lateCommits := if late then sat32 d.lateCommits 1 else d.lateCommits }
      let s2 := if late then notify s1 0x0E06 0 (leBytes 4 d.dframe ++ leBytes 4 target ++ leBytes 2 line) 5 else s1
      s2)
    (fun _ s =>
      let d := s.disp
      let line := d.line.getD 0
      let late := d.enabled && d.cfg.vActive ≤ line + 2 && d.line.isSome
      let target := if !d.enabled then 0xFFFFFFFF else if late then nextFrame s else d.dframe
      let replaced := d.pending.isSome
      leBytes 4 target ++ leBytes 1 (boolNat late) ++ leBytes 1 (boolNat replaced) ++ [0, 0])) ∧
  (∀ n, Yields dispStatusCard (.dispStatus n) n
    (fun b s =>
      if fld b 0 1 = 1 then updDisp s fun d => { d with
         superseded := 0, lateCommits := 0, underruns := [0, 0, 0, 0], stales := [0, 0, 0], mismatches := [0, 0] } else s)
    (fun _ s =>
      let d := s.disp
      let words (l : List Nat) : List Byte := l.flatMap (leBytes 4)
      let resp := leBytes 1 (boolNat d.enabled) ++ leBytes 1 (boolNat d.pending.isSome) ++ leBytes 2 (d.line.getD 0) ++
        leBytes 4 d.dframe ++ leBytes 4 d.superseded ++ leBytes 4 d.lateCommits ++ words d.underruns ++ words d.stales ++
        words d.mismatches ++ leBytes 4 d.frameCrc ++ leBytes 4 (heldSeq s) ++ zeros 4
      resp)) ∧
  (∀ (n : Fin 40) (s : State), Accepted outSdiCard n s → fld (slotBody s n) 1 1 = 0 →
    let i := fld (slotBody s n) 0 1
    exec (.outSdi n) s = .next (mbxOk (outDisable s i) n [])) ∧
  (∀ (n : Fin 40) (s : State), Accepted outSdiCard n s → fld (slotBody s n) 1 1 = 1 →
    let b := slotBody s n
    let i := fld b 0 1
    exec (.outSdi n) s = .next (mbxOk (setLane (updOut s i fun x => { x with
        enabled := true, ending := false, kind := 0, src := fld b 2 1, std := fld b 3 1, width := fld b 4 2, height := fld b 6 2
        fpsNum := fld b 8 4, fpsDen := fld b 0x0C 2, psf := fld b 0x0E 1, hold := fld b 0x0F 1
        delayUs := fld b 0x10 4, phaseNs := sfld b 0x14 4, audioMask := fld b 0x18 4, anc := fld b 0x1C 1, colorimetry := fld b 0x1D 1
        held := none, run := 0, lastFill := 0, sizeFill := 0, sizeGen := none, lastFormat := none
        lastTf := none, lastYcc := none, embed := [], frames := 0, frame := none })
      (sdiLane s.fuse i) 2 0) n [])) ∧
  (∀ (n : Fin 40) (s : State), Accepted out2110Card n s → fld (slotBody s n) 1 1 = 0 →
    exec (.out2110 n) s = .next (mbxOk (outDisable s (4 + fld (slotBody s n) 0 1)) n [])) ∧
  (∀ (n : Fin 40) (s : State), Accepted out2110Card n s → fld (slotBody s n) 1 1 = 1 →
    let b := slotBody s n
    let i := 4 + fld b 0 1
    let d := draw s
    let r := allocFlow d.2 { num := 0, kind := 5, state := 2, token := fld b 0 1 }
    let t := updOut r.2 i fun y => { senderOf b with
      seq := d.1 % 2 ^ 32, repeats := y.repeats, skips := y.skips, sizeSkips := y.sizeSkips
      audioAdjust := y.audioAdjust, lastSeq := y.lastSeq, lastGen := y.lastGen, flow := some r.1 }
    exec (.out2110 n) s = .next (mbxOk (if fld b 2 1 = 1 then t else outState t i 1 0) n [])) ∧
  (∀ (n : Fin 40) (r0 r1 : DcsResult) (s : State), Accepted (dispDcsCard r0 r1) n s → s.disp.enabled = false →
    let b := slotBody s n
    let cut (r : DcsResult) : DcsResult := { r with data := if fld b 1 1 = 2 then r.data.take (fld b 3 1) else [] }
    exec (.dispDcs n r0 r1) s = .next (mbxOk (updDisp s fun d => { d with dcsSent := some (dsiCommand b) }) n
      (dcsBlock ((fld b 0 1).testBit 0) (cut r0) ++ dcsBlock ((fld b 0 1).testBit 1) (cut r1)))) ∧
  (∀ (n : Fin 40) (r0 r1 : DcsResult) (s : State), Accepted (dispDcsCard r0 r1) n s → s.disp.enabled = true →
    let b := slotBody s n
    let cut (r : DcsResult) : DcsResult := { r with data := if fld b 1 1 = 2 then r.data.take (fld b 3 1) else [] }
    (∀ l, s.disp.line = some l → s.disp.cfg.vActive ≤ l →
      linesLast s.disp.cfg (dispTotal s - l) (s.time.c.toNat - s.disp.lineAt) (dcsTenths b) = false) →
    exec (.dispDcs n r0 r1) s = .next (
      let t := updDisp s fun d => { d with dcs := d.dcs ++ [⟨n.val,
        dcsBlock ((fld b 0 1).testBit 0) (cut r0) ++ dcsBlock ((fld b 0 1).testBit 1) (cut r1), dsiCommand b⟩] }
      { t with mbx.started := t.mbx.started ++ [n.val] })) ∧
  (∀ (n : Fin 40) (r0 r1 : DcsResult) (l : Nat) (s : State), Accepted (dispDcsCard r0 r1) n s → s.disp.enabled = true →
    s.disp.line = some l → s.disp.cfg.vActive ≤ l →
    let b := slotBody s n
    let cut (r : DcsResult) : DcsResult := { r with data := if fld b 1 1 = 2 then r.data.take (fld b 3 1) else [] }
    linesLast s.disp.cfg (dispTotal s - l) (s.time.c.toNat - s.disp.lineAt) (dcsTenths b) = true →
    exec (.dispDcs n r0 r1) s = .next (mbxOk (updDisp s fun d => { d with dcsSent := some (dsiCommand b) }) n
      (dcsBlock ((fld b 0 1).testBit 0) (cut r0) ++ dcsBlock ((fld b 0 1).testBit 1) (cut r1))))

/-- Audio and time commands. Accepted AUD_CONFIG, AUD_PORT, AUD_CHANNEL, AUD_SLOTS, AUD_START, AUD_STOP, AUD_STATUS,
TIME_DOMAIN, TIME_SELECT, TIME_PORT, TIME_SYNC, TIME_LTC, TIME_SERVE and TIME_STATUS commands: the whole next state
of each, by its card. A gain or slot change of a stopped unit takes effect at once and one of a running unit waits;
a domain fed by a time flow opens it and answers later. Rests on 19_audio.md R457, 19_audio.md R460, 19_audio.md
R466, 19_audio.md R467, 19_audio.md R468, 19_audio.md R469, 19_audio.md R470, 20_time_and_genlock.md R482,
20_time_and_genlock.md R484, 20_time_and_genlock.md R496. -/
def Obligations.AudioAndTimeCommands : Prop :=
  (∀ n, Yields audConfigCard (.audConfig n) n
    (fun b s =>
      updAud s fun a => { a with fs := fld b 0 1, pdm := [fld b 1 1, fld b 2 1], mclk := fld b 3 1 })
    (fun _ _ => [])) ∧
  (∀ n, Yields audPortCard (.audPort n) n
    (fun b s =>
      let k := fld b 0 1
      let dir := fld b 1 1
      let s1 := if (audPort s k).dir = dir then s
        else (portChans k).foldl (fun s c => updAudChan s c fun x => { x with gain := 0x100000, mute := false }) s
      updAudPort s1 k fun p => { p with
       dir := dir, master := fld b 2 1 == 1, fmt := fld b 3 1, bclkInv := fld b 4 1 == 1, mask := fld b 5 1
       route := routesOf b 8, wait := none }) (fun _ _ => [])) ∧
  (∀ n, Yields audStartCard (.audStart n) n
    (fun b s =>
      let s0 := strobeAfter s (if fld b 1 1 = 1 then fld b 8 8 else classS s)
      let s1 := updAud s fun a => { a with
        starts := a.starts ++ [⟨fld b 0 1, s0⟩]
        ports := a.ports.mapIdx fun k p =>
          if (fld b 0 1).testBit (2 + k) && !p.master then { p with buf := [], filling := true } else p }
      s1)
    (fun b s =>
      let s0 := strobeAfter s (if fld b 1 1 = 1 then fld b 8 8 else classS s)
      leBytes 8 s0)) ∧
  (∀ n, Yields audStopCard (.audStop n) n
    (fun b s => updAud s fun a => { a with stops := a.stops ++ [⟨fld b 0 1, classS s⟩] }) (fun _ _ => [])) ∧
  (∀ n, Yields audStatusCard (.audStatus n) n
    (fun b s =>
      if fld b 0 1 = 1 then updAud s fun a => { a with
         replaced := List.replicate 5 0, ports := a.ports.map fun p => { p with faults := 0, slips := 0 } } else s)
    (fun _ s =>
      let units := (List.range 5).flatMap fun u =>
        let p : AudPort := if u < 2 then {} else audPort s (u - 2)
        let st := if !unitRuns s u then 0 else if p.fault.isSome then 2 else 1
        leBytes 1 st ++ leBytes 1 (boolNat p.wait.isSome) ++ [0, 0] ++ leBytes 4 p.faults ++ leBytes 4 p.slips ++
          leBytes 4 (s.aud.replaced.getD u 0)
      let gains := s.aud.chans.flatMap fun x => leBytes 4 (x.gain + 2 ^ 31 * boolNat x.wait.isSome)
      units ++ gains)) ∧
  (∀ n, Yields timeSelectCard (.timeSelect n) n
    (fun b s =>
      let force := fld b 3 1 == 1
      let s1 := { s with
        time.primary := fld b 0 1
        time.secondary := if fld b 1 1 = 0xFF then none else some (fld b 1 1)
        time.revert := fld b 2 1 == 1
        time.slewPpb := fld b 4 4 }
      let s2 := followS s1 force
      let s3 := match s2.time.stepWait && force, s2.time.stepTo with
        | true, some d => if isLocked s2 d then stepS s2 d else s2
        | _, _ => s2
      let s4 := followL s3
      s4)
    (fun b s =>
      let force := fld b 3 1 == 1
      let s1 := { s with
        time.primary := fld b 0 1
        time.secondary := if fld b 1 1 = 0xFF then none else some (fld b 1 1)
        time.revert := fld b 2 1 == 1
        time.slewPpb := fld b 4 4 }
      let s2 := followS s1 force
      let s3 := match s2.time.stepWait && force, s2.time.stepTo with
        | true, some d => if isLocked s2 d then stepS s2 d else s2
        | _, _ => s2
      let s4 := followL s3
      leBytes 1 (baseCode s4.time.viewS.base) ++ [0, 0, 0])) ∧
  (∀ n, Yields timePortCard (.timePort n) n
    (fun b s =>
      { s with
        time.rxAdj := s.time.rxAdj.set (fld b 0 1) (sfld b 4 4)
        time.txAdj := s.time.txAdj.set (fld b 0 1) (sfld b 8 4)
        time.asym := s.time.asym.set (fld b 0 1) (sfld b 0x0C 4) }) (fun _ _ => [])) ∧
  (∀ n, Yields timeLtcCard (.timeLtc n) n
    (fun b s =>
      { s with
        time.ltc := { s.time.ltc with
          rate := fld b 0 1, genSrc := fld b 1 1, freewheel := fld b 2 1, outEnable := fld b 3 1 == 1,
          preset := fld b 4 4, readerValid := false, jammed := false, srcPending := true,
              sent := if fld b 0 1 = 0 then none else s.time.ltc.sent } }) (fun _ _ => [])) ∧
  (∀ n, Yields timeServeCard (.timeServe n) n
    (fun b s => { s with time.serve := fld b 0 1 == 1, time.maxClients := fld b 2 2 }) (fun _ _ => [])) ∧
  (∀ n, Yields timeStatusCard (.timeStatus n) n
    (fun b s =>
      if fld b 0 1 = 1 then
       { s with time.doms := s.time.doms.map fun d => { d with lockLosses := 0, ignored := 0 } } else s)
    (fun _ s =>
      let resp := leBytes 4 (tbState s) ++ leInt 4 s.fuse.xtalCorr ++ domainStatus (domOf s 0) ++
        domainStatus (domOf s 1) ++ leBytes 1 s.time.syncIn.format ++ leBytes 1 (boolNat s.time.ltc.readerValid) ++
        [0, 0] ++ leBytes 4 (ltcReader s)
      resp)) ∧
  (∀ (n : Fin 40) (s : State), Accepted timeSyncCard n s →
    let b := slotBody s n
    let s1 := if fld b 0 1 = 0 then loseSync s else s
    let s2 := { s1 with
      time.syncIn := { s1.time.syncIn with enable := fld b 0 1 == 1 }
      time.syncOutStd := fld b 1 1
      time.syncOutFpsNum := fld b 4 4
      time.syncOutFpsDen := fld b 8 2
      time.syncOutPhase := sfld b 0x0C 4 }
    let t := viewTime s2 s2.time.viewS (now s2) + periodOf s2 13 / 2
    (fld b 1 1 = 0 → exec (.timeSync n) s = .next (mbxOk (updCadence s2 13 fun _ => {}) n [])) ∧
    (fld b 1 1 ≠ 0 → baseAligned s2 = false ∨ (consumerRate s2 13).1 = 0 →
      exec (.timeSync n) s = .next (mbxOk (updCadence s2 13 fun _ => { start := some t }) n [])) ∧
    (fld b 1 1 ≠ 0 → baseAligned s2 = true → (consumerRate s2 13).1 ≠ 0 →
      exec (.timeSync n) s =
        .next (mbxOk (updCadence s2 13 fun _ => { start := some (alignedPoint s2 13 t (2 ^ 48)) }) n []))) ∧
  (∀ (n : Fin 40) (s : State), Accepted audChannelCard n s →
    let b := slotBody s n
    unitRuns s (unitOf (fld b 0 1)) = false →
    exec (.audChannel n) s = .next (mbxOk (updAudChan s (fld b 0 1) fun x => { x with
      gain := fld b 4 4, mute := fld b 1 1 == 1, wait := none }) n [0, 0, 0, 0])) ∧
  (∀ (n : Fin 40) (s : State), Accepted audChannelCard n s →
    let b := slotBody s n
    unitRuns s (unitOf (fld b 0 1)) = true →
    let t (k : Nat) := updAudChan s (fld b 0 1) fun x => { x with
      wait := some { gain := fld b 4 4, mute := fld b 1 1 == 1, replaced := k } }
    ((audChan s (fld b 0 1)).wait = none → exec (.audChannel n) s = .next (mbxOk (t 0) n [1, 0, 0, 0])) ∧
    (∀ w, (audChan s (fld b 0 1)).wait = some w → exec (.audChannel n) s =
      .next (mbxOk (countReplaced (t (satAdd 8 w.replaced 1)) (unitOf (fld b 0 1))) n [1, 1, 0, 0]))) ∧
  (∀ (n : Fin 40) (s : State), Accepted audSlotsCard n s →
    let b := slotBody s n
    unitRuns s (2 + fld b 0 1) = false →
    exec (.audSlots n) s = .next (mbxOk (updAudPort s (fld b 0 1) fun p => { p with
      mask := fld b 1 1, route := routesOf b 4, wait := none }) n [0, 0, 0, 0])) ∧
  (∀ (n : Fin 40) (s : State), Accepted audSlotsCard n s →
    let b := slotBody s n
    let k := fld b 0 1
    let p := audPort s k
    let gone := (List.range 8).filter fun i => p.mask.testBit i && !(fld b 1 1).testBit i
    let added := (List.range 8).filter fun i => (fld b 1 1).testBit i && !p.mask.testBit i
    let waits := gone.map (8 + 8 * k + ·) ++ (if p.dir = 2 then added.map fun i => (routesOf b 4).getD i 0xFF else [])
    let t (j : Nat) := updAudPort s k fun y => { y with wait := some {
      mask := fld b 1 1, route := routesOf b 4, waits := waits, replaced := j
      skip := boolNat (waits.isEmpty && p.master && nearFrame s p) } }
    unitRuns s (2 + k) = true →
    (p.wait = none → exec (.audSlots n) s = .next (mbxOk (t 0) n [0, 0, 0, 0])) ∧
    (∀ w, p.wait = some w →
      exec (.audSlots n) s = .next (mbxOk (countReplaced (t (satAdd 8 w.replaced 1)) (2 + k)) n [1, 0, 0, 0]))) ∧
  (∀ (n : Fin 40) (s : State), Accepted timeDomainCard n s → fld (slotBody s n) 1 1 ≠ 2 →
    exec (.timeDomain n) s = .next (mbxOk (domainApply s (slotBody s n) none) n [])) ∧
  (∀ (n : Fin 40) (s : State), Accepted timeDomainCard n s → fld (slotBody s n) 1 1 = 2 →
    exec (.timeDomain n) s = .next (
      let r := startOpen s { num := 0, kind := 3, state := 1, partner := fld (slotBody s n) 8 2, slot := some n.val }
      let t := launchOpen r.2 r.1
      { t with mbx.started := t.mbx.started ++ [n.val] }))

/-- Thermal, calibration, Bedrock, power, firmware and spares commands. Accepted THERM_CONFIG, THERM_STATUS, CAL_CONFIG,
CAL_RUN, CAL_STATUS, BR_STATUS, BR_POLICY, PWR_STATE, PWR_UNIT_RESET, FW_STAGE, FW_ACTIVATE, FW_STATUS,
SPARE_STATUS, SPARE_LEDGER and SPARE_RETURN commands: the whole next state of each, by its card. BR_STATUS,
FW_STATUS and SPARE_LEDGER change no state but their slot's answer. Rests on 22_thermal_power_calibration.md R541,
22_thermal_power_calibration.md R542, 23_bedrock_partition.md R565, 24_resets_boot_power_states.md R569,
24_resets_boot_power_states.md R571, 24_resets_boot_power_states.md R572, 24_resets_boot_power_states.md R577,
24_resets_boot_power_states.md R582, 25_spares_and_wear.md R589, 25_spares_and_wear.md R595, 25_spares_and_wear.md
R598. -/
def Obligations.ManagementCommands : Prop :=
  (∀ n, Yields thermConfigCard (.thermConfig n) n
    (fun b s =>
      { s with
        therm.ceilingMa := fld b 0 4
        therm.fanLo := fld b 4 2
        therm.fanHi := fld b 6 2
        therm.fanMin := fld b 8 1 }) (fun _ _ => [])) ∧
  (∀ n, Yields thermStatusCard (.thermStatus n) n
    (fun b s =>
      if fld b 0 1 = 1 then { s with
       therm.stepsDown := 0
       therm.stepsUp := 0 } else s) (fun _ s => thermStatusBytes s)) ∧
  (∀ n, Yields calConfigCard (.calConfig n) n
    (fun b s =>
      { s with
        therm.nextAgree := fld b 0 1
        therm.classes := s.therm.classes.mapIdx fun c x => configClass b x c }) (fun _ _ => [])) ∧
  (∀ n, Yields calRunCard (.calRun n) n
    (fun b s => ((List.range 6).filter (fld b 0 1).testBit).foldl startPass s) (fun _ _ => [])) ∧
  (∀ n, Yields calStatusCard (.calStatus n) n
    (fun b s =>
      if fld b 0 1 = 1 then
         { s with therm.classes := s.therm.classes.map fun x => { x with
           passes := 0, applied := 0, disagreed := 0, starved := 0 } }
        else s) (fun _ s => calStatusBytes s)) ∧
  (∀ n, Yields brStatusCard (.brStatus n) n (fun _ s => s)
    (fun _ s =>
      ([0, 4, 0x10, 0x14, 0x18, 0x1C] ++ (List.range 8).map (0x20 + 4 * ·)).flatMap fun off =>
        leBytes 4 (bedrockRead s off))) ∧
  (∀ n, Yields brPolicyCard (.brPolicy n) n (fun _ s => s) (fun _ s => policyBytes s)) ∧
  (∀ n, Yields pwrUnitResetCard (.pwrUnitReset n) n (fun b s => unitReset s (fld b 0 1) (fld b 1 1))
    (fun _ _ => [])) ∧
  (∀ n, Yields fwStageCard (.fwStage n) n
    (fun b s =>
      let x := imageSlot (dramRead s (fld b 0 8) 0x200)
      let slot := 1 - s.pwr.active
      { s with
         mbx.staged := false
         pwr := { s.pwr with stagedSlot := none, staging := some (slot, x), slots := s.pwr.slots.set slot {} } })
    (fun b s =>
      let x := imageSlot (dramRead s (fld b 0 8) 0x200)
      let slot := 1 - s.pwr.active
      leBytes 1 slot ++ [0, 0, 0] ++ leBytes 4 x.build)) ∧
  (∀ n, Begins fwActivateCard (.fwActivate n) n
    (fun _ s =>
      { s with
        mbx.activating := true
        pwr.activateSlot := some n.val })) ∧
  (∀ n, Yields fwStatusCard (.fwStatus n) n (fun _ s => s) (fun _ s => fwStatusBytes s)) ∧
  (∀ n, Yields spareStatusCard (.spareStatus n) n
    (fun b s =>
      let r := (List.range 7).foldl poolBytes ([], s)
      if fld b 0 1 = 1 then { r.2 with
       spare.substitutions := List.replicate 7 0
       spare.poisonHandled := 0 } else r.2)
    (fun _ s =>
      let r := (List.range 7).foldl poolBytes ([], s)
      let x := s.spare
      let resp := r.1 ++ leBytes 4 x.ledger.length ++ leBytes 4 x.qgen ++ leBytes 1 (boolNat x.ledgerFault) ++ [0, 0, 0] ++
        leBytes 4 x.poisonHandled
      resp)) ∧
  (∀ n, Yields spareLedgerCard (.spareLedger n) n (fun _ s => s)
    (fun b s =>
      let l := (s.spare.ledger.drop (fld b 0 4)).take (fld b 4 1)
      leBytes 4 l.length ++ leBytes 4 s.spare.ledger.length ++ List.replicate 8 0 ++ l.flatMap ledgerBytes)) ∧
  (∀ n, Yields spareReturnCard (.spareReturn n) n
    (fun b s => { s with spare.testing := s.spare.testing ++ [(fld b 0 1, fld b 2 2, true)] }) (fun _ _ => [])) ∧
  (∀ (n : Fin 40) (s : State), Accepted pwrStateCard n s → fld (slotBody s n) 0 1 = 0 →
    exec (.pwrState n) s = .next (mbxOk { s with
      pwr.move := some { entering := false, target := .run, cause := 0 } } n [0, 0, 0, 0])) ∧
  (∀ (n : Fin 40) (s : State), Accepted pwrStateCard n s →
    let b := slotBody s n
    let hib := fld b 0 1 = 2
    let t := if hib then (List.range 8).foldl restBreak s else s
    fld b 0 1 ≠ 0 → exec (.pwrState n) s = .next (mbxOk { t with pwr := { t.pwr with
        move := some { entering := true, target := if hib then .hibernate else .standby }
        wakePending := none, wakeGpio := fld b 1 1, wakeFalling := fld b 2 1 == 1, tWake := fld b 4 8 } } n
      (leBytes 2 (if hib then maskOf (hibSensors t) else 0) ++ leBytes 2 (if hib then maskOf (hibMaps t) else 0))))

/-- Host writes of masks, leaves, the wake register and the Bedrock window. A 4-byte write inside the map acts on its
word, an 8-byte write as two of 4 bytes, the lower first, one of another size stores into its mailbox slot, and a
write that R46 does not accept changes nothing; a mask write sets the mask (reserved summary bits stay masked, R74)
and a leaf write clears the leaves it names, each with one further message if the INT_N source is active (R74); a
write to the Bedrock window is ignored and counted with its leaf (R546); PWR_WAKE keeps its value and wakes the
device on the key (R572). Rests on 03_host_ports_and_mailboxes.md R46, 03_host_ports_and_mailboxes.md R50,
04_attention_and_event_queues.md R74, 04_attention_and_event_queues.md R76, 04_attention_and_event_queues.md R77,
23_bedrock_partition.md R546, 23_bedrock_partition.md R563, 24_resets_boot_power_states.md R572. -/
def Obligations.RegisterWrites : Prop :=
  (∀ (port : Port) (a : Nat) (d : List Byte) (s : State), bar0Accepts a d.length = true → d.length = 4 →
    exec (.registerWrite port a d) s = .next (bar0Write4 s port a (leNat d))) ∧
  (∀ (port : Port) (a : Nat) (d : List Byte) (s : State), bar0Accepts a d.length = true → d.length = 8 →
    exec (.registerWrite port a d) s = .next
      (bar0Write4 (bar0Write4 s port a (leNat (d.take 4))) port (a + 4) (leNat (d.drop 4)))) ∧
  (∀ (port : Port) (a : Nat) (d : List Byte) (s : State), bar0Accepts a d.length = true → d.length ≠ 4 → d.length ≠ 8 →
    exec (.registerWrite port a d) s = .next (slotHostWrite s port (a - 0x10000) d)) ∧
  (∀ (port : Port) (a : Nat) (d : List Byte) (s : State), bar0Accepts a d.length = false →
    exec (.registerWrite port a d) s = .next s) ∧
  (∀ (port : Port) (v : BitVec 32) (s : State), exec (.attnMaskWrite port .summary v) s =
    .next (attnResend (attnEdge s { s with attn.mask := v ||| 0x1F800000 }))) ∧
  (∀ (port : Port) (k : Fin 4) (v : BitVec 32) (s : State), exec (.attnMaskWrite port (.sub k) v) s =
    .next (attnResend (attnEdge s { s with attn.submask := modAt s.attn.submask k fun _ => v }))) ∧
  (∀ (port : Port) (c : Fin 32) (v : BitVec 32) (s : State), c.val < 23 ∨ 28 < c.val →
    exec (.attnMaskWrite port (.cause c) v) s =
      .next (attnResend (attnEdge s { s with attn.cmask := modAt s.attn.cmask c fun _ => v }))) ∧
  (∀ (port : Port) (v : BitVec 32) (s : State), exec (.attnMaskWrite port .doneQ v) s =
    .next (attnResend (attnEdge s { s with attn.cmask2 := v ||| 0xFFFFFF00 }))) ∧
  (∀ (port : Port) (c : Fin 32) (v : BitVec 32) (s : State), c.val < 23 ∨ 28 < c.val → c ≠ 2 → c ≠ 19 →
    exec (.attnLeafClear port (.cause c) v) s = .next (attnResend (attnEdge s (causeClear s c v.toNat)))) ∧
  (∀ (b : Nat) (v : BitVec 32) (s : State), b ≠ 0 → b ≠ 2 → b ≠ 29 → b ≠ 31 →
    causeClear s b v.toNat = { s with attn.cause := modAt s.attn.cause b (· &&& ~~~v) }) ∧
  (∀ (port : Port) (k : Fin 4) (v : BitVec 32) (s : State),
    exec (.attnLeafClear port (.sub k) v) s = .next (attnResend (attnEdge s (subCauseClear s k v.toNat)))) ∧
  (∀ (port : Port) (v : BitVec 32) (s : State), exec (.attnLeafClear port .doneQ v) s =
    .next (attnResend (attnEdge s (doneQClear s v.toNat)))) ∧
  (∀ (port : Port) (w : BitVec 14) (v : BitVec 32) (s : State),
    exec (.bedrockWindowWrite port w v) s = .next (bedrockWrite s)) ∧
  (∀ (port : Port) (v : BitVec 32) (s : State), exec (.pwrWakeWrite port v) s =
    .next (if v = 0x57414B45 then wake { s with pwr.wakeKey := v } 1 else { s with pwr.wakeKey := v }))

/-- A write to EQ_CTRL marks and rewinds. An EQ_CTRL write with mark sets mark = rd; one with rewind sets rd = mark and
discards the port's copy; one with both rewinds first and then marks; EQ_CTRL then reads the value last written.
Nothing else changes. No record of the queue was lost with a bank (QueueAccesses says what a rewind does then).
Rests on R83. -/
def Obligations.MarkAndRewind : Prop :=
  (∀ (port : Port) (q : Fin 16) (s : State), exec (.eqMark port q) s =
    .next (updQueue s q fun x => { x with mark := x.rd, ctrl := 1 })) ∧
  (∀ (port : Port) (q : Fin 16) (s : State), ((s.queues.getD q.val {}).recs.any fun e => e.erased) = false →
    exec (.eqRewind port q false) s = .next (updQueue s q fun x => { x with rd := x.mark, port := List.replicate 32 0, portValid := false, ctrl := 2 })) ∧
  (∀ (port : Port) (q : Fin 16) (s : State), ((s.queues.getD q.val {}).recs.any fun e => e.erased) = false →
    exec (.eqRewind port q true) s = .next (updQueue s q fun x => { x with
      rd := x.mark, mark := x.mark, port := List.replicate 32 0, portValid := false, ctrl := 3 })) ∧
  (∀ (q : Fin 16) (s : State), (eqRead s q 0x20).1 = (s.queues.getD q.val {}).ctrl)

/-- Watermark clear, release and record-port reads. A rewind goes on past records that a bank took with it when it was
lost (the model's choice, log entry 138). Clearing wm_hit restarts the peak at the level and re-arms above the
watermark (R86); a release beyond rd only counts badctl, one inside the queue drops the records before it and
carries the mark along, and one at or before rel changes only the register (R84); reading the first word of the port
latches the record at rd, reading the last word advances rd once (R82). Rests on 04_attention_and_event_queues.md
R82, 04_attention_and_event_queues.md R84, 04_attention_and_event_queues.md R86, 04_attention_and_event_queues.md
R87. -/
def Obligations.QueueAccesses : Prop :=
  (∀ (port : Port) (q : Fin 16) (s : State),
    (exec (.eqRewind port q false) s = .next (updQueue s q fun x => { Queue.skipLost { x with
      rd := x.mark, port := List.replicate 32 0, portValid := false } with ctrl := 2 })) ∧
    (exec (.eqRewind port q true) s = .next (updQueue s q fun x =>
      let y := Queue.skipLost { x with rd := x.mark, port := List.replicate 32 0, portValid := false }
      { y with mark := y.rd, ctrl := 3 }))) ∧
  (∀ (port : Port) (q : Fin 16) (s : State), exec (.wmHitClear port q) s = .next (updQueue s q fun x =>
    { x with wmHit := false, peak := x.recs.length, rearm := decide (x.wm ≤ x.recs.length) })) ∧
  (∀ (port : Port) (q : Fin 16) (v : BitVec 32) (s : State), exec (.eqRelease port q v) s = .next (updQueue s q fun x =>
    if 0 < (v - x.rd).toInt then { x with release := v, badctl := sat32 x.badctl 1 }
    else if 0 < (v - x.rel).toInt then { x with
      release := v, recs := x.recs.drop (v - x.rel).toNat
      mark := if 0 < (v - x.mark).toInt then v else x.mark
      rel := v }
    else { x with release := v })) ∧
  (∀ (q : Fin 16) (s : State), ∃ t, exec (.eqPortRead q 0) s = .next t ∧ t.queues = modAt s.queues q Queue.latch ∧
    t = { updQueue s q Queue.latch with host.readData := t.host.readData }) ∧
  (∀ (q : Fin 16) (w : Fin 8) (s : State), 0 < w.val → w.val < 7 → ∃ t, exec (.eqPortRead q w) s = .next t ∧
    t = { s with host.readData := leBytes 4 (leNat (((s.queues.getD q.val {}).port.drop (4 * w.val)).take 4)) }) ∧
  (∀ (q : Fin 16) (s : State), ∃ t, exec (.eqPortRead q 7) s = .next t ∧
    t = { updQueue s q Queue.advance with host.readData := t.host.readData })

/-- Reads of TB_COUNT and of a domain latch the time base. A read of TB_COUNT latches the count and both views and
domains at it, and returns the count; a read of a domain's first word latches that domain's block (R638). Nothing
else changes. Rests on 03_host_ports_and_mailboxes.md R46, 20_time_and_genlock.md R638. -/
def Obligations.TimeWindowReads : Prop :=
  (∀ (s : State), exec (.tbCountRead false) s =
    .next { tbLatch s with host.readData := leBytes 4 (s.time.c.toNat % 2 ^ 32) }) ∧
  (∀ (s : State), exec (.tbCountRead true) s =
    .next { tbLatch s with host.readData := leBytes 4 (s.time.c.toNat % 2 ^ 32) ++ leBytes 4 (s.time.c.toNat / 2 ^ 32 % 2 ^ 32) }) ∧
  (∀ (s : State), (tbLatch s).time.snap.getD 0 0 = s.time.c.toNat ∧ (tbLatch s).time.snap.getD 1 0 = classS s ∧
    (tbLatch s).time.snap.getD 2 0 = classL s) ∧
  (∀ (d : Fin 2) (w : Bool) (s : State), ∃ t, exec (.tbDomainRead d w) s = .next t ∧
    t = { tbBlockLatch s d.val with host.readData := t.host.readData })

/-- BAR2 and QSPI accesses. The part of a BAR2 access that counts is what lies in the usable capacity, and only in Run:
a write stores those bytes from the window's base, a read returns them with zeros behind, marked where a burst is
poisoned; an access that reaches beyond is counted once with its leaf (R44, R594). A QSPI transaction with an
unknown instruction, an address that is no multiple of 4, or a write or a read that is not whole words sets last_err
and does nothing else; a word below 0x0020_0000 is a BAR0 access, one from 0x8000_0000 a DRAM access; the words of a
longer transfer follow 4 bytes further each, up to the end of its range (log entry 175); instruction 0x05 and a
status read return and clear the status byte (R47, R48). Rests on 03_host_ports_and_mailboxes.md R44,
03_host_ports_and_mailboxes.md R47, 03_host_ports_and_mailboxes.md R48, 25_spares_and_wear.md R594. -/
def Obligations.DramWindow : Prop :=
  (∀ (off : BitVec 32) (d : List Byte) (e : LinkFault) (s : State), s.pwr.state = .run →
    s.host.bar2Base + off.toNat + d.length ≤ dramUsable s.fuse →
    exec (.bar2Access off (.write d) e) s = .next (dramWrite s (s.host.bar2Base + off.toNat) d)) ∧
  (∀ (off : BitVec 32) (d : List Byte) (e : LinkFault) (s : State),
    let a := s.host.bar2Base + off.toNat
    let n := if s.pwr.state = .run then min d.length (dramUsable s.fuse - a) else 0
    n < d.length → ∃ t, exec (.bar2Access off (.write d) e) s = .next t ∧
      t.dram = (dramWrite s a (d.take n)).dram ∧ t.host.bar2Blocked = sat32 s.host.bar2Blocked 1 ∧
      t.attn.cause = modAt s.attn.cause 17 (· ||| leafBit 5)) ∧
  (∀ (off : BitVec 32) (k : Nat) (s : State), s.pwr.state = .run →
    s.host.bar2Base + off.toNat + k ≤ dramUsable s.fuse →
    poisonedRange s (s.host.bar2Base + off.toNat) k = false →
    exec (.bar2Access off (.read k) .clean) s = .next { s with
      host.readPoisoned := false
      host.readData := dramRead s (s.host.bar2Base + off.toNat) k }) ∧
  (∀ (off : BitVec 32) (k : Nat) (e : LinkFault) (s : State),
    let a := s.host.bar2Base + off.toNat
    let n := if s.pwr.state = .run then min k (dramUsable s.fuse - a) else 0
    ∃ t, exec (.bar2Access off (.read k) e) s = .next t ∧
      t.host.readData = dramRead s a n ++ List.replicate (k - n) 0 ∧ t.host.readPoisoned = poisonedRange s a n ∧
      t.dram = s.dram ∧ (n < k → t.host.bar2Blocked = sat32 s.host.bar2Blocked 1)) ∧
  (∀ (i : Byte) (a : BitVec 32) (d : List Byte) (k : Nat) (s : State),
    [0x02, 0x32, 0x0B, 0xEB, 0x05].contains i = false ∨
      (i = 0x02 ∨ i = 0x32) ∧ (a.toNat % 4 ≠ 0 ∨ d.length % 4 ≠ 0) ∨
      (i = 0x0B ∨ i = 0xEB) ∧ (a.toNat % 4 ≠ 0 ∨ k % 4 ≠ 0) →
    exec (.qspiTransaction i a d k) s = .next { s with host.qspiLastErr := true }) ∧
  (∀ (i : Byte) (a : BitVec 32) (d : List Byte) (k : Nat) (s : State), i = 0x02 ∨ i = 0x32 → a.toNat % 4 = 0 →
    d.length = 4 →
    (a.toNat < 0x200000 → exec (.qspiTransaction i a d k) s = .next (bar0Write s .qspi a.toNat d)) ∧
    (0x80000000 ≤ a.toNat → exec (.qspiTransaction i a d k) s =
      exec (.bar2Access (BitVec.ofNat 32 (a.toNat - 0x80000000)) (.write d) .clean) s) ∧
    (0x200000 ≤ a.toNat → a.toNat < 0x80000000 → exec (.qspiTransaction i a d k) s = .next s)) ∧
  (∀ (i : Byte) (a : BitVec 32) (d e : List Byte) (k : Nat) (s t : State), i = 0x02 ∨ i = 0x32 → a.toNat % 4 = 0 →
    d.length = 4 → e.length % 4 = 0 → exec (.qspiTransaction i a d k) s = .next t →
    (a.toNat + 4 < qspiEnd a.toNat → exec (.qspiTransaction i a (d ++ e) k) s = exec (.qspiTransaction i (a + 4) e k) t) ∧
    (qspiEnd a.toNat ≤ a.toNat + 4 → exec (.qspiTransaction i a (d ++ e) k) s = .next t)) ∧
  (∀ (i : Byte) (a : BitVec 32) (d : List Byte) (s : State), i = 0x0B ∨ i = 0xEB → a.toNat % 4 = 0 →
    (a.toNat < 0x200000 → exec (.qspiTransaction i a d 4) s =
      .next { (bar0Read s a.toNat 4).2 with host.readData := (bar0Read s a.toNat 4).1 }) ∧
    (0x80000000 ≤ a.toNat → exec (.qspiTransaction i a d 4) s =
      exec (.bar2Access (BitVec.ofNat 32 (a.toNat - 0x80000000)) (.read 4) .clean) s)) ∧
  (∀ (a : BitVec 32) (d : List Byte) (k : Nat) (s : State), exec (.qspiTransaction 0x05 a d k) s = exec .qspiStatusRead s) ∧
  (∀ s : State, exec .qspiStatusRead s = .next { s with
    host.readData := [BitVec.ofNat 8 (boolNat s.mbx.ready + 2 * boolNat s.host.qspiLastErr)]
    host.qspiLastErr := false })

/-- Cold power-on, boot and the reset pin. A cold power-on of an unpowered device with both always-on rails in their
windows makes it powered from the cold state; a boot that may end and stops, as its report says or as training shows
(R504), is held with its phase and cause (R581), one that may end becomes ready from a valid slot of the boot record
and is held without one; RESET_N falling on a running device starts a full reset with every host-visible register at
its value for that kind, ends an over-voltage or trip hold whose condition is met and only notes its level under a
hold otherwise, and rising only releases the pin (R566). Rests on 24_resets_boot_power_states.md R566,
24_resets_boot_power_states.md R568, 24_resets_boot_power_states.md R579, 24_resets_boot_power_states.md R581. -/
def Obligations.BootAndResetPins : Prop :=
  (∀ (r a l p : Bool) (mv : List (BitVec 16)) (s : State), s.pwr.powered = false →
    (∀ k, k = 6 ∨ k = 7 → railLow k ≤ (mv.getD k 0).toNat ∧ (mv.getD k 0).toNat ≤ railHigh k) →
    ∃ t, exec (.coldPowerOn r a l p mv) s = .next t ∧ t.pwr.powered = true ∧ t.pwr.resetNLow = l ∧ t.br.plossLow = p ∧
      t.clk.refclkOk = r ∧ t.clk.altOk = a ∧ t.mbx.ready = false) ∧
  (∀ (r : BootReport) (k : ResetKind) (s : State), s.pwr.booting = some k → mayBoot s k = true →
    let u := { s with pwr := readRecord s.pwr }
    (∀ phase cause channel lane, bootStop s k.full r = some (phase, cause, channel, lane) →
      exec (.bootReady r) s = .next (bootFail s phase cause channel lane)) ∧
    (∀ slot, bootStop s k.full r = none → bootSlotOf s.pwr = some slot → exec (.bootReady r) s =
      .next (bootDone (if k.full then bootFull u r else u) k slot r.lacks r.ms.toNat)) ∧
    (bootStop s k.full r = none → bootSlotOf s.pwr = none → exec (.bootReady r) s = .next (bootFail s 7 1 0 0))) ∧
  (∀ (r : BootReport) (f : BootFailure) (s : State), r.fail = some f →
    bootStop s false r = some (f.phase.val, f.cause.val, f.channel.val, f.byteLane.val)) ∧
  (∀ (held : Bool) (s : State), s.pwr.resetNLow = false → s.pwr.powered = true → s.br.hold = none →
    s.pwr.booting = none → exec (.resetN held) s = .next (fullReset none { s with pwr.resetNLow := true })) ∧
  (∀ (held : Bool) (s : State), s.pwr.resetNLow = false → s.pwr.powered = true →
    (s.br.hold = some .overVoltage → held = true → (∀ k, k < 8 → railOk s k = true) →
      exec (.resetN held) s = .next (fullReset none { s with pwr.resetNLow := true })) ∧
    (s.br.hold = some .trip → held = true →
      exec (.resetN held) s = .next (fullReset none { s with pwr.resetNLow := true })) ∧
    (∀ h, s.br.hold = some h → held = false → exec (.resetN held) s = .next { s with pwr.resetNLow := true })) ∧
  (∀ s : State, exec .resetNRise s = .next { s with pwr.resetNLow := false })

/-- Reference loss, failover, qualification and stop. Loss of the selected input puts the root PLL in holdover and
selects the other input where it is good (R32, R33); a failover ends holdover on the selected input, and counts with
its leaf where that is another input than the one lost; a newly qualified input ends a reference-clock hold by a
full reset; with both inputs lost the ordered stop of R494 begins. Rests on 02_device_anatomy.md R32,
02_device_anatomy.md R33, 20_time_and_genlock.md R494. -/
def Obligations.ReferenceClockEvents : Prop :=
  (∀ s : State, s.clk.rootLock = true → s.clk.refSel = false → s.clk.altOk = true →
    exec (.refclkLost false) s = .next { s with clk := { s.clk with
      refclkOk := false, rootLock := false, holdover := true, holdoverAt := some s.time.c.toNat, lostSel := false
      lostInBoot := fullBoot s, refSel := true } }) ∧
  (∀ s : State, s.clk.holdover = true → s.clk.stopping = false → refOk s s.clk.refSel = true →
    s.clk.refSel ≠ s.clk.lostSel → ∃ t, exec .refclkFailoverDone s = .next t ∧ t.clk.rootLock = true ∧
      t.clk.holdover = false ∧ t.clk.failovers = sat32 s.clk.failovers 1 ∧
      t.attn.cause = modAt s.attn.cause 30 (· ||| leafBit 1)) ∧
  (∀ (alt : Bool) (s : State), s.pwr.powered = true → s.pwr.booting = none → s.br.hold = some .refStop →
    exec (.refclkQualified alt) s = .next (fullReset none (lockRoot { s with
      clk := if alt then { s.clk with altOk := true } else { s.clk with refclkOk := true } } alt))) ∧
  (∀ s : State, s.clk.stopping = false → s.clk.holdover = true → s.clk.refclkOk = false → s.clk.altOk = false →
    s.br.hold = none → s.br.ploss = false → exec (.refclkStop false) s = .next (refStopBegin s)) ∧
  (∀ s : State, s.clk.stopping = true → exec (.refclkStop true) s = .next (refStopEnd s))

/-- Rails and sensor supplies. A rail 0 to 5 that falls below its window while the monitors are armed sets the rail leaf
and starts the power-loss response (R551); over-voltage sets the leaf and holds the device in reset (R552); an
always-on rail that falls takes the device off; a rail back in its window is recorded with its notice; the sensor
power sequence goes on from each of its waits (R553), and a lost power-good removes the sensor's power (R554). Rests
on 23_bedrock_partition.md R551, 23_bedrock_partition.md R552, 23_bedrock_partition.md R553, 23_bedrock_partition.md
R554, 05_sensor_ingest.md R103. -/
def Obligations.RailAndSensorSupplyEvents : Prop :=
  (∀ (k : Fin 8) (mv : BitVec 16) (s : State), s.pwr.powered = true → mv.toNat < railLow k.val → k.val < 6 →
    monitorsArmed s = true → (s.br.rails.getD k.val {}).low = false → s.br.hold = none → heldAtStart s = false →
    exec (.railUndervoltage k mv) s = .next
      (plossStart (bedrockLeaf (setRail s k mv.toNat) 0 k true mv.toNat 0) false k mv.toNat)) ∧
  (∀ (k : Fin 8) (mv : BitVec 16) (s : State), s.pwr.powered = true → mv.toNat < railLow k.val → 6 ≤ k.val →
    exec (.railUndervoltage k mv) s = .next { coldReset s with pwr := { (coldReset s).pwr with powered := false } }) ∧
  (∀ (k : Fin 8) (mv : BitVec 16) (s : State), s.pwr.powered = true → railHigh k.val < mv.toNat →
    monitorsArmed s = true → (s.br.rails.getD k.val {}).high = false → s.br.hold = none →
    exec (.railOvervoltage k mv) s = .next (fullReset (some .overVoltage)
      (setStop (bedrockLeaf (setRail s k mv.toNat) 0 k true mv.toNat 0) 4))) ∧
  (∀ (k : Fin 8) (mv : BitVec 16) (s : State), s.pwr.powered = true → railLow k.val ≤ mv.toNat →
    mv.toNat ≤ railHigh k.val → s.pwr.booting = none → monitorsArmed s = true → railOk s k = false →
    exec (.railInWindow k mv) s = .next (bedrockLeaf (setRail s k mv.toNat) 0 k false mv.toNat 0)) ∧
  (∀ (x : Fin 4) (s : State), seqAt s x .waitPg = true →
    exec (.spwrPgRise x) s = .next (setSpwr s x true .settle) ∧
    exec (.spwrPgTimeout x) s = .next (powerDone (setSpwr s x false .idle) x true 1)) ∧
  (∀ (x : Fin 4) (s : State), seqAt s x .settle = true →
    exec (.sensorPowerSettled x) s = .next (powerDone (setSpwr s x true .idle) x true 0)) ∧
  (∀ (x : Fin 4) (s : State), seqAt s x .stagger = true →
    exec (.staggerWaitEnd x) s = .next (assertPower s x)) ∧
  (∀ (x : Fin 4) (s : State), (sensPolicy s x).pgUse = true → spwrOn s x = true → spwrSeq s x ≠ .waitPg →
    (sensorOf (removeNoted s x) x).powerReq = none → exec (.spwrPgFall x) s = .next { removeNoted s x with
      br.spwrOffAt := (removeNoted s x).br.spwrOffAt.set x (some ((s.time.c.toNat : Int), true)) })

/-- The power-loss response. PLOSS_N low while the monitors are armed starts the response, which from a quiet state
counts, stops the Media Gate, sets leaf 2 and removes the sensors' power (R557); the drain makes the named ports
durable (R351); at the reset point the device resets when PLOSS_N or a rail is still low, and otherwise goes on
(R558); the end of the response releases it with its notice; the reset holds until the supplies are good and then
boots. Rests on 14_media_gate.md R351, 23_bedrock_partition.md R557, 23_bedrock_partition.md R558,
23_bedrock_partition.md R559. -/
def Obligations.PowerLossEvents : Prop :=
  (∀ s : State, s.pwr.powered = true → monitorsArmed s = true → s.br.hold = none → heldAtStart s = false →
    exec .plossNFall s = .next (plossStart { s with br.plossLow := true } false 0xFF 0)) ∧
  (∀ (u mv : Nat) (s : State), s.br.ploss = false → plossStart s false u mv =
    (List.range 4).foldl plossSensor (bedrockLeaf { s with
      br := { s.br with
        ploss := true, trip := false, drained := false, pointPassed := false, held := []
        plossCount := sat32 s.br.plossCount 1 }
      gate.stopped := some s.time.c.toNat
      gate.drained := 0
      gate.drainUs := 0 } 2 u true mv (sat32 s.br.plossCount 1))) ∧
  (∀ (p : BitVec 4) (us : BitVec 32) (s : State), s.br.ploss = true → s.br.drained = false → s.br.trip = false →
    ∃ t, exec (.plossDrainDone p us) s = .next t ∧ t.br.drained = true ∧ t.gate.drained = drainedOf (drainPorts s p.toNat) p.toNat ∧
      t.gate.drainUs = us.toNat) ∧
  (∀ s : State, s.br.ploss = true → s.br.pointPassed = false →
    exec (.plossResetPoint true) s = .next (plossReset { s with br.plossLow := true })) ∧
  (∀ s : State, s.br.ploss = true → s.br.pointPassed = false → s.br.trip = false →
    (∀ k, k < 6 → (s.br.rails.getD k {}).low = false) →
    exec (.plossResetPoint false) s = .next { s with br := { s.br with plossLow := false, pointPassed := true } }) ∧
  (∀ s : State, s.br.ploss = true → s.br.trip = false → s.br.drained = true → s.br.pointPassed = true →
    s.br.wdDeferred = false →
    let u := { s with
      br := { s.br with ploss := false, plossLow := false, drained := false, pointPassed := false, wdDeferred := false }
      gate.stopped := none }
    exec .plossResponseEnd s = .next (bedrockLeaf (nvmeSettle (notify u 0x0A04 0
      (leBytes 4 s.gate.drainUs ++ leBytes 1 s.gate.drained) 9)) 3 0xFF true 0 s.br.plossCount)) ∧
  (∀ s : State, s.pwr.powered = true → s.br.ploss = false → suppliesOk s = true → s.br.hold = some .ploss →
    exec .plossResetExit s = .next (fullReset none { s with br.plossLow := false }))

/-- Thermal trip, lockstep, heartbeat, watchdog and the Flint gate. A thermal trip on a running device starts the
power-loss response as a trip (R559); a first lockstep fault restarts Bedrock, which counts and reports it, and a
second within the window holds the device in reset (R561); a core that misses its heartbeat fails (R555); the
watchdog counts, notes its cause and resets, is noted in a full boot that has reached firmware (model choice, log
entry 144), and waits while a power-loss response runs (R556, R557); a trip in a fault hold only records its cause
(model choice, log entry 232); TEST_EN opens and closes the Flint gate (R560). Rests on 23_bedrock_partition.md
R555, 23_bedrock_partition.md R556, 23_bedrock_partition.md R559, 23_bedrock_partition.md R560,
23_bedrock_partition.md R561, 23_bedrock_partition.md R563. -/
def Obligations.BedrockFaults : Prop :=
  (∀ s : State, s.br.hold = none → monitorsArmed s = true → (plossStart s true 0xFF 0).br.drained = false →
    exec .thermalTrip s = .next (plossStart s true 0xFF 0)) ∧
  (∀ s : State, s.br.hold.isSome = true → monitorsArmed s = true → exec .thermalTrip s = .next (setStop s 3)) ∧
  (∀ s : State, s.pwr.powered = true → s.br.hold ≠ some .lockstep → s.br.lsAt = none →
    exec .lockstepFault s = .next { s with br := { s.br with
      lsRestart := true, lsAt := some (s.time.c.toNat : Int), lsInBoot := fullBoot s } }) ∧
  (∀ (c : Int) (s : State), s.pwr.powered = true → s.br.hold ≠ some .lockstep → s.br.lsAt = some c →
    (s.time.c.toNat : Int) - c < 1228800000 →
    exec .lockstepFault s = .next (fullReset (some .lockstep) (setStop { s with br.lsRestart := false } 5))) ∧
  (∀ s : State, s.br.lsRestart = true → s.br.held = [] → exec .lockstepRestartDone s =
    .next ((List.range 4).foldl restartSeq (bedrockLeaf { s with br := { s.br with
      lsRestart := false, held := [], lockstep := sat32 s.br.lockstep 1 } } 6 0xFF true 0 (sat32 s.br.lockstep 1)))) ∧
  (∀ (c : Fin 5) (f : Bool) (s : State), s.pwr.powered = true → s.br.hold = none → s.br.lsRestart = false →
    (coreLogical s c).isSome = true →
    exec (.coreHeartbeatMiss c f) s = .next (coreFailFor id { s with spare.flashOk := f } c 1)) ∧
  (∀ s : State, s.pwr.powered = true → s.br.lsRestart = false →
    exec .watchdogReset s = .next (Sys2Proof.Machine.watchdogReset s)) ∧
  (∀ s : State, s.pwr.powered = true → s.br.lsRestart = false → s.pwr.failed = false → s.br.hold = none →
    s.pwr.booting ≠ some .cold → s.pwr.booting ≠ some .resetN →
    (s.br.ploss = false → exec .watchdogReset s = .next (softReset .watchdog (setStop
      { s with br.wdResets := sat32 s.br.wdResets 1 } 1))) ∧
    (s.br.ploss = true → exec .watchdogReset s = .next { s with br.wdDeferred := true })) ∧
  (∀ s : State, s.pwr.powered = true → s.br.lsRestart = false → s.pwr.failed = false → s.br.hold = none →
    s.br.ploss = false → s.pwr.booting = some .resetN → mayBoot s .resetN = true →
    exec .watchdogReset s = .next (let u := setStop { s with br.wdResets := sat32 s.br.wdResets 1 } 1
      { u with pwr.wdInBoot := true })) ∧
  (∀ s : State, s.br.flintGate = true → exec .testEnFall s = .next (flintDisarm (bedrockLeaf { s with br := { s.br with
    testEn := false, flintGate := false } } 9 0xFF false 0 0))) ∧
  (∀ s : State, s.pwr.booting = none → s.br.hold = none → s.br.flintGate = false → flintAllowed s = true →
    exec .flintGateOpen s = .next (bedrockLeaf { s with br := { s.br with
      testEn := true, flintGate := true } } 9 0xFF true 0 0))

/-- Pin edges, waking, power states and firmware events. New board levels are taken, and an edge that a pin selects, 100
ns or more after the last of its pin, posts EV_SYS_GPIO with its leaf while the device is powered (R614); the chosen
wake pin and a set wake time wake a resting device (R572); an entry completes when the device may rest (R571, R574)
and an exit restores what the state kept; the end of a staging write reports its result and, on success, the staged
slot (R577); activation ends in the new firmware or a soft reset (R582). Rests on 24_resets_boot_power_states.md
R571, 24_resets_boot_power_states.md R572, 24_resets_boot_power_states.md R574, 24_resets_boot_power_states.md R577,
24_resets_boot_power_states.md R582, 24_resets_boot_power_states.md R585, 26_pins_and_electrical.md R614. -/
def Obligations.PinsPowerAndFirmwareEvents : Prop :=
  (∀ (l : BitVec 32) (s : State),
    let u := { s with pins.board := l }
    let hit (n : Nat) : Bool := edgeSelected s n (pinLevel s n) (pinLevel u n)
    let noted := { u with
      pins.edgeAt := (List.range 32).map fun n => if hit n then some (s.time.c.toNat : Int) else s.pins.edgeAt.getD n none }
    (s.pwr.powered = true → ((List.range 32).any fun n => hit n && !edgeMerges s n) = true →
      exec (.gpioEdge l) s = .next (setLeaf (postEventS noted 0x0101 0 (leBytes 4 (pinLevels u) ++
        leBytes 4 (packBits ((List.range 32).map fun n => pinLevel s n != pinLevel u n)))) 1 0)) ∧
    (((List.range 32).any fun n => hit n && !edgeMerges s n) = false → exec (.gpioEdge l) s = .next noted)) ∧
  (∀ s : State, s.pwr.wakeGpio < 32 → s.pwr.move = none → s.pwr.state ≠ .run →
    exec .wakeGpio s = .next { s with pwr.move := some { entering := false, target := .run, cause := 2 } }) ∧
  (∀ s : State, s.pwr.tWake ≠ 0 → s.pwr.move = none → s.pwr.state ≠ .run →
    exec .wakeTime s = .next { s with pwr.move := some { entering := false, target := .run, cause := 3 } }) ∧
  (∀ (m : PwrMove) (s : State), s.pwr.move = some m → m.entering = true → s.mbx.arrival = [] →
    mayRest s (m.target == .hibernate) = true → exec .powerStateEntered s = .next (restEnter s m.target)) ∧
  (∀ (m : PwrMove) (us : BitVec 32) (d : ExitReport) (s : State), s.pwr.move = some m → m.entering = false →
    exec (.powerStateExitDone us d) s = .next (restExit s m.cause us.toNat d)) ∧
  (∀ (k : Nat) (x : FwSlot) (s : State), s.pwr.staging = some (k, x) → ∃ t, exec (.fwStageWriteDone 0) s = .next t ∧
    t.mbx.staged = true ∧ t.pwr.staging = none ∧ t.pwr.stagedSlot = some k ∧ t.pwr.slots = s.pwr.slots.set k x ∧
    t.attn.cause = modAt s.attn.cause 20 (· ||| leafBit 3)) ∧
  (∀ (k n : Nat) (l : List Nat) (s : State), s.pwr.activateSlot = some n → s.pwr.stagedSlot = some k →
    oldDone s n = true → exec (.fwActivationDone l) s = .next (activate s n k l)) ∧
  (∀ s : State, s.pwr.activateSlot.isSome = true → exec .fwActivationRevert s = .next (softReset .reverted s))

/-- Sensor packets, timeouts, links and slots. A good frame-start, frame-end, line or embedded packet of a configured,
linked sensor acts as R107 to R111 say for its type; a good Frame Start is accepted, a Frame End of the open frame
closes it, its lines and embedded data land; both timeouts close the open frame as R109 says; a lost lane or link is
counted and reported and an unlinked configured sensor comes up again (R112); a slot that meets R28 is released.
Rests on 02_device_anatomy.md R28, 05_sensor_ingest.md R95, 05_sensor_ingest.md R107, 05_sensor_ingest.md R109,
05_sensor_ingest.md R110, 05_sensor_ingest.md R112. -/
def Obligations.IngestEvents : Prop :=
  (∀ (x : Fin 4) (p : Packet) (s : State),
    exec (.frameStart x p) s = .next (packetRow 0 x p (frameStart x) s) ∧
    exec (.frameEnd x p) s = .next (packetRow 1 x p (frameEnd x) s) ∧
    exec (.linePacket x p) s = .next (packetRow 2 x p (ownPacket x fun s f k => lineArrives s x f k) s) ∧
    exec (.embeddedPacket x p) s = .next (packetRow 3 x p (ownPacket x fun s f k => embeddedArrives s x f k) s)) ∧
  (∀ (x : Fin 4) (p : Packet) (c : SensConfig) (k : Pkt) (s : State), (sensorOf s x).cfg = some c →
    (sensorOf s x).streaming = true → (sensorOf s x).linkUp = true → parsePacket c p = k → k.corrected = false →
    (k.kind = 0 → c.iface = 0 ∨ k.exps.contains 0 = true → (sensorOf s x).stopping = false → s.clk.stopping = false →
      k.crcBad = false → exec (.frameStart x p) s = .next (cadenceBegin (acceptFs s x (k.num.getD 0) c) (16 + x)
        (viewTime s s.time.viewS s.time.c.toNat))) ∧
    (∀ f, k.kind = 1 → pktFrame s x k (c.iface == 0) = some f → c.iface = 0 → k.crcBad = false →
      exec (.frameEnd x p) s = .next (closeFrame s x 0)) ∧
    (∀ f, k.kind = 2 → pktFrame s x k (c.iface == 0) = some f → f.ended.getD (pktCol k) false = false →
      exec (.linePacket x p) s = .next (lineArrives s x f k)) ∧
    (∀ f, k.kind = 3 → pktFrame s x k (c.iface == 0) = some f → f.ended.getD (pktCol k) false = false →
      exec (.embeddedPacket x p) s = .next (embeddedArrives s x f k))) ∧
  (∀ (f : IngestFrame) (x : Fin 4) (s : State), openIngest s x = some f → f.drop = none → f.first = false →
    closeMarks f = 0 → f.marks = 0 → (sensorOf s x).stopping = false →
    let t := updIngest s x f.seq fun _ => { f with closed := true, closeTime := classS s }
    exec (.lineTimeout x) s = .next t ∧ exec (.framePeriodTimeout x) s = .next t) ∧
  (∀ (x : Fin 4) (s : State), exec (.lineTimeout x) s = .next (closeFrame s x 0) ∧
    exec (.framePeriodTimeout x) s = .next (closeFrame s x 0)) ∧
  (∀ (x l : Fin 4) (m : BitVec 16) (s : State), exec (.linkLockLoss x l m) s = .next (linkDown s x l m.toNat) ∧
    ((sensorOf s x).cfg.isSome = true → (sensorOf s x).linkUp = true → openIngest s x = none →
      let t := updSensor (countCheck s x 14 3 1) x fun y => { y with
        linkUp := false, linkLost := true, unlocked := m.toNat }
      exec (.linkLockLoss x l m) s = .next (linkEvent t x 0 l m.toNat 0xFFFFFFFF))) ∧
  (∀ (x l : Fin 4) (s : State), (sensorOf s x).cfg.isSome = true → (sensorOf s x).linkUp = false →
    exec (.sensorLinkUp x l) s = .next (linkEvent (updSensor s x fun y => { y with
      linkUp := true, linkLost := false, unlocked := 0 }) x 1 l 0 0xFFFFFFFF)) ∧
  (∀ (x : Fin 4) (k : Fin 8) (f : IngestFrame) (s : State),
    ((sensorOf s x).frames.find? fun f => f.slot == some k.val && mayRelease s x f) = some f →
    exec (.slotRelease x k) s = .next (releaseSlot s x f))

/-- Sensor-bus transfers and metadata polls. A metadata poll that runs posts its bytes to its FIFO, or its failure
(R122); a trigger queues its poll, or counts as missed while the last one still waits; a host transfer that ends
answers its command, and a deferred one posts its event (R120). Rests on 05_sensor_ingest.md R120,
05_sensor_ingest.md R121, 05_sensor_ingest.md R122. -/
def Obligations.BusEvents : Prop :=
  (∀ (b : Fin 6) (r : Fin 5) (w : Nat) (d : List Byte) (s : State),
    exec (.busXferDone b r w d) s = .next (busXferEnd s b r w d)) ∧
  (∀ (x : Fin 4) (k : Fin 2) (s : State), exec (.metaPollTrigger x k) s = .next (triggerPoll s x k 2)) ∧
  (∀ (x : Fin 4) (k : Fin 2) (p : MetaPoll) (s : State), (sensorOf s x).polls.getD k.val none = some p →
    (p.trigger = 2 → pollQueued s x k = false →
      exec (.metaPollTrigger x k) s = .next (enqueueBus s p.x.bus (.poll x k p.x))) ∧
    (p.trigger = 2 → pollQueued s x k = true → exec (.metaPollTrigger x k) s = .next (countCheck s x 15 3 1)) ∧
    (p.trigger ≠ 2 → exec (.metaPollTrigger x k) s = .next s)) ∧
  (∀ (b : Fin 6) (r : Fin 5) (d : List Byte) (n k : Nat) (x : BusXfer) (rest : List BusJob) (s : State),
    busOf s b = .poll n k x :: rest →
    (d.length = x.rdLen → exec (.metaPollDone b 0 d) s = .next (
      let t := { busNext s b with draws := (busNext s b).draws + 1 }
      postPoll t n k (0x0370 + k) (classS t) (chunk 16 x.rdLen d))) ∧
    (r ≠ 0 → exec (.metaPollDone b r d) s =
      .next (postPoll (busNext s b) n k 0x0372 (classS (busNext s b)) [leBytes 1 r.val]))) ∧
  (∀ (b : Fin 6) (r : Fin 5) (w n : Nat) (d : List Byte) (x : BusXfer) (rest : List BusJob) (s : State),
    busOf s b = .deferred n x :: rest → exec (.busXferDone b r w d) s =
      .next (xferEvent (busNext s b) x r (min w x.wr.length))) ∧
  (∀ (b : Fin 6) (r : Fin 5) (d : List Byte) (s : State), exec (.metaPollDone b r d) s = .next (pollEnd s b r d)) ∧
  (∀ (b : Fin 6) (d : List Byte) (s : State) (n : Nat) (x : BusXfer) (rest : List BusJob),
    busOf s b = .host n x :: rest → d.length = x.rdLen → exec (.busXferDone b 0 x.wr.length d) s =
      .next (mbxOk { busNext s b with draws := (busNext s b).draws + 1 } n ([0, 0] ++ leBytes 2 x.wr.length ++ d)))

/-- Bands, deadlines, engine faults, banks, capture and renditions. The scheduler issues the next band of R134 to a free
engine while it has credit; a band's end, a frame past its deadline, a failed engine, a written bank, a finished
capture pass, and the take and end of a rendition each act by their rules. Rests on 06_stripe_scheduler.md R134,
06_stripe_scheduler.md R136, 06_stripe_scheduler.md R139, 07_front_end_corrections.md R170,
07_front_end_corrections.md R173, 09_colour_engines.md R225, 10_renditions_and_taps.md R244,
10_renditions_and_taps.md R245. -/
def Obligations.SchedulerEvents : Prop :=
  (∀ (e : Fin 8) (p : Nat) (b : Band) (s : State), freeEngine s e = some p → nextBand s = some b → 0 < schedCredit s →
    exec (.bandIssue e) s = .next (issueBand s p b) ∧
      ∀ f, ingestOf s b.sensor b.seq = some f → exec (.bandIssue e) s = .next (
        let t := settleCredit s
        { t with
          img.sched.credit := t.img.sched.credit - 16 * bandTime f.cfg (stripeWidth f.cfg b.stripe) (bandLines f.cfg b.row)
          img.sched.returned := t.img.sched.returned.filter fun x =>
            !(x.sensor == b.sensor && x.seq == b.seq && x.stripe == b.stripe && x.row == b.row)
          img.sched.engines := modAt t.img.sched.engines p fun y => { y with running := some { b with start := now s } } })) ∧
  (∀ (e : Fin 9) (m k : Nat) (s : State), exec (.bandComplete e m k) s = .next (bandEnd s e m k)) ∧
  (∀ (e : Fin 9) (m k : Nat) (b : Band) (f : IngestFrame) (s : State),
    (s.img.sched.engines.getD e.val {}).running = some b → ingestOf s b.sensor b.seq = some f →
    let t := { s with img.sched.engines := modAt s.img.sched.engines e fun y => { y with running := none } }
    (f.drop = none → exec (.bandComplete e m k) s =
      .next (overloadCheck (completeFrame (bandOutput t f b m k) b.sensor b.seq))) ∧
    (f.drop.isSome = true → exec (.bandComplete e m k) s =
      .next (overloadCheck (dropOutputs t b.sensor b.seq)))) ∧
  (∀ (x : Fin 4) (f : Nat × IngestFrame) (s : State),
    ((pendingFrames s).find? fun f => f.1 == x.val && decide (f.2.deadline < viewSNow s)) = some f →
    exec (.deadlineDrop x) s = .next (overloadCheck (schedDrop s f.1 f.2 1 0))) ∧
  (∀ (e : Fin 9) (f : Bool) (s : State),
    exec (.engineFault e f) s = .next (engineFail { s with spare.flashOk := f } e 0)) ∧
  (∀ (e : Fin 9) (f : Bool) (s : State), (s.img.sched.engines.getD e.val {}).failed = false →
    (s.img.sched.engines.getD e.val {}).running = none → e.val ≤ stripeActive s.fuse →
    let a := settleCredit { s with spare.flashOk := f }
    let t := { a with img.sched.engines := modAt a.img.sched.engines e fun _ => { failed := true, running := none } }
    (∀ i n, engineLogical a e = some i → spareEngine t = some n →
      let u := spareRecord (countSubst (spareRecord { t with img.sched.logical := t.img.sched.logical.set i n }
        1 0 0 e 0 0 0) 1) 1 1 0 n 0 0 0
      exec (.engineFault e f) s = .next (overloadCheck
        (if (spareEngine u).isNone && (spareEngine a).isSome then setLeaf u 21 7 else u))) ∧
    (∀ i, engineLogical a e = some i → spareEngine t = none → spareEngine a = none →
      exec (.engineFault e f) s = .next (overloadCheck (setLeaf (spareRecord
        { t with img.sched.lost := t.img.sched.lost ++ [i] } 1 0 0 e 0 0 0) 4 12)))) ∧
  (∀ (e : Fin 9) (f : Bool) (s : State), (s.img.sched.engines.getD e.val {}).running.isSome = true →
    exec (.engineNoProgress e f) s = .next (engineFail { s with spare.flashOk := f } e 1)) ∧
  (∀ (e : Fin 9) (f : Bool) (b : Band) (i : Nat) (s : State), (s.img.sched.engines.getD e.val {}).failed = false →
    (s.img.sched.engines.getD e.val {}).running = some b → e.val ≤ stripeActive s.fuse →
    let a := settleCredit { s with spare.flashOk := f }
    let t := { a with img.sched.engines := modAt a.img.sched.engines e fun _ => { failed := true, running := none } }
    engineLogical a e = some i → spareEngine t = none → spareEngine a = none →
    exec (.engineNoProgress e f) s = .next (overloadCheck (
      let r := returnBand t b
      let u := setLeaf (spareRecord { r.2 with img.sched.lost := r.2.img.sched.lost ++ [i] } 1 0 1 e 0 0 0) 4 12
      if r.1 then rerunEvent u e b 1 0xFF else u))) ∧
  (∀ (r : Fin 6) (k : Fin 2) (x : Nat) (s : State), bankWaiter s r = some x → bankFree s r k = true →
    lacksActive s r x = true → exec (.bankWrite r k) s = .next (updSensor
      (setBank s r k (colImage ((sensorOf s x).active.colour.getD r.val {}))) x fun y => { y with
        banks := y.banks.set r.val (some k.val) })) ∧
  (∀ (r : Fin 6) (k : Fin 2) (x : Nat) (p : PendingSet) (s : State), bankWaiter s r = some x →
    (sensorOf s x).pendingSet = some p → bankFree s r k = true → lacksActive s r x = false →
    exec (.bankWrite r k) s = .next (updSensor (setBank s r k (colImage (p.params.colour.getD r.val {}))) x fun y =>
      { y with pendingSet := some { p with banks := p.banks.set r.val (some k.val) } })) ∧
  (∀ (x : Fin 4) (c : Capture) (m : PhotoMap) (s : State), (sensorOf s x).capture = some c → mapOf s c.handle = some m →
    c.finalPass = true → exec (.calFinalPassDone x) s =
      .next (captureEnd (finalPass s x c m).1 x 0 (finalPass s x c m).2.1 (finalPass s x c m).2.2)) ∧
  (∀ (r : Fin 6) (s : State), r.val ≠ 0 → exec (.renditionTake r) s = .next (Sys2Proof.Machine.renditionTake s r)) ∧
  (∀ (r : Fin 6) (n : Nat) (b : SlBuf) (l : SlCfg) (c : SensConfig) (p : Placement) (s : State), r.val ≠ 0 →
    (rndOf s r).sensor = some n → newestOf (eligible s r) = some b → (rndOf s r).taken = none →
    (sensorOf s n).slEff = some l → (sensorOf s n).cfg = some c → b.params.place.getD r.val none = some p →
    exec (.renditionTake r) s = .next (updRnd (takeFrame
      (passOver s r n ((eligible s r).filter fun q => q.seq < b.seq)) r n b l c p) r fun x => { x with
      lastSeen := some b.seq })) ∧
  (∀ (r : Fin 6) (t : Taken) (p : Placement) (s : State), (rndOf s r).taken = some t →
    t.src.params.place.getD r.val none = some p → linesStarted s r p = true →
    exec (.renditionFrameDone r) s = .next (renderDone s r t p)) ∧
  (∀ (r : Fin 6) (s : State), exec (.renditionFrameDone r) s = .next (Sys2Proof.Machine.renditionFrameDone s r))

/-- Slabs, codec deadlines and lane faults. A free lane takes the next slab (R292); a verified slab is done, a slab that
fails once is coded again as a fallback and one that fails as a fallback fails its lane (R283, R284); the first
frame of a stream past its deadline is lost (R291); a faulty or stuck lane fails (R297); a decoded slab ends (R296).
Rests on 12_schist_engines.md R283, 12_schist_engines.md R284, 12_schist_engines.md R291, 12_schist_engines.md R292,
12_schist_engines.md R296, 12_schist_engines.md R297. -/
def Obligations.CodecEvents : Prop :=
  (∀ (l : Fin 4) (p : Nat) (s : State), lanePhys s l = some p → exec (.slabIssue l) s = .next (issueSlab s p)) ∧
  (∀ (l : Fin 4) (p : Nat) (s : State), lanePhys s l = some p → laneFree s p = true →
    (∀ k t q n f, s.codec.returned = [] → bestStreamSlab s = some (k, t, q, n) →
      (codecStream s t).frames.find? (fun f => f.seq == q) = some f →
      exec (.slabIssue l) s = .next (laneStart (updFrame (fixCeiling s t q f.cfg.frameMax) t q fun f => { f with
          issued := if f.issued.contains n then f.issued else f.issued ++ [n], noLane := f.noLane.erase n }) p
        (.stream t q n f.emergency false) (slabClocks (streamSlab f.cfg f n).2.2 1))) ∧
    (s.codec.returned = [] → bestStreamSlab s = none → exec (.slabIssue l) s = .next (issueJob s p)) ∧
    (∀ j n b x rest, s.codec.returned = .job j n b :: rest → jobOf s j = some x →
      exec (.slabIssue l) s = .next (laneStart { s with codec.returned := rest } p (.job j n b)
        (jobClocks { s with codec.returned := rest } x.spec n)))) ∧
  (∀ (p : Fin 5) (f : Bool) (w : LaneWork) (s : State), (lane s p).running = some w → isDecodeWork s w = false →
    exec (.slabVerified p .ok f) s = .next (Sys2Proof.Machine.slabVerified s p w)) ∧
  (∀ (p : Fin 5) (f : Bool) (e : Byte) (w : LaneWork) (s : State), (lane s p).running = some w →
    isDecodeWork s w = false → isFallback w = false →
    exec (.slabVerified p (.bad e) f) s =
      .next (laneStart (verifyEvent (countFallback s w) p w 0 e.toNat) p (asFallback w) (workClocks s w))) ∧
  (∀ (p : Fin 5) (f : Bool) (e : Byte) (w : LaneWork) (s : State), (lane s p).running = some w →
    isDecodeWork s w = false → isFallback w = true →
    exec (.slabVerified p (.bad e) f) s =
      .next (laneFail (verifyEvent { s with spare.flashOk := f } p w 1 e.toNat) p 1)) ∧
  (∀ (t : Fin 8) (f : CodecFrame) (l : List CodecFrame) (s : State), (codecStream s t).frames = f :: l →
    exec (.codecDeadline t) s = .next (codecLost s t f (if f.emergency && !f.noLane.isEmpty then 3 else 2))) ∧
  (∀ (p : Fin 5) (f : Bool) (s : State), exec (.codecLaneFault p f) s = .next (laneFail { s with spare.flashOk := f } p 0)) ∧
  (∀ (p : Fin 5) (f : Bool) (s : State), (lane s p).running.isSome = true →
    exec (.codecLaneNoProgress p f) s = .next (laneFail { s with spare.flashOk := f } p 2)) ∧
  (∀ (p : Fin 5) (j n : Nat) (b : Bool) (s : State), (lane s p).running = some (.job j n b) →
    isDecodeWork s (.job j n b) = true →
    exec (.decodeSlabDone p) s = .next (Sys2Proof.Machine.decodeSlabDone (laneStop s p) j n))

/-- Recording events and the drives. A held marker is staged (R307), a checkpoint is written (R317) and a clip whose
last item is durable closes (R310); a port admits staged blocks (R330), its oldest waiting journal record becomes
durable and its durable units retire (R343); a write that may complete becomes durable on its drive (R329, R332) and
a failed drive fails its port (R328). Rests on 13_recording.md R307, 13_recording.md R310, 13_recording.md R317,
14_media_gate.md R328, 14_media_gate.md R329, 14_media_gate.md R330, 14_media_gate.md R343. -/
def Obligations.RecordingAndDriveEvents : Prop :=
  (∀ (c : Fin 8) (s : State), exec (.heldMarkerStaged c) s = .next (releaseHeld s c) ∧
    exec (.recCheckpoint c) s = .next (checkpoint s c)) ∧
  (∀ (c : Fin 8) (it : RecItem) (s : State), (recChan s c).held = some it → engineFits s 4096 = true →
    (recChan s c).waiting = [] → exec (.heldMarkerStaged c) s =
      .next (countOverrun (writeBoth (updChan s c fun y => { y with held := none, waiting := [] }) c it) c)) ∧
  (∀ (c : Fin 8) (k g : Clip) (t s : State), (recChan s c).clip = some k → k.pending ≠ 0 →
    entersReserve s k 4096 = false → clipGrow s k 4096 = some (g, t) →
    exec (.recCheckpoint c) s = .next (checkpointIn t c g)) ∧
  (∀ (c : Fin 8) (s : State), lastItemDurable s c = true →
    exec (.recClipClose c) s = .next (chanIdle (closeClip s c 0 0 0xFF 0) c)) ∧
  (∀ (p : Fin 4) (k : Nat) (s : State), exec (.gateAdmit p k) s = .next (Sys2Proof.Machine.gateAdmit s p k)) ∧
  (∀ (p : Fin 4) (k : Nat) (w : GWrite) (s : State), s.gate.stopped = none →
    (s.gate.writes.find? fun w => w.port == p.val && decide (w.admitted < w.blocks)) = some w → mayAdmit s w = true →
    (w.journal = true → w.jrec = none → exec (.gateAdmit p k) s =
      .next (startRecord s w (if unitFits s w then w.blocks else 0))) ∧
    (w.journal = false → exec (.gateAdmit p k) s = .next (updWrite s w.id fun y => { y with
      admitted := y.admitted + min (min k (min (w.blocks - w.admitted) (tagBlocks s w))) (windowFree s p / w.blk) }))) ∧
  (∀ (p : Fin 4) (s : State), exec (.journalRecordDurable p) s = .next (journalDurable (rootSend s p) p) ∧
    exec (.journalRetire p) s = .next (nvmeSettle (Sys2Proof.Machine.journalRetire s p))) ∧
  (∀ (p : Fin 4) (w : GWrite) (q a : Nat) (b : Bool) (s : State),
    ((rootSend s p).gate.writes.find? fun w => w.port == p.val && (w.jrec.any fun j => !j.2.2)) = some w →
    w.jrec = some (q, a, b) → exec (.journalRecordDurable p) s = .next (
      let u := rootSend s p
      let old := (List.range w.blocks).flatMap fun i =>
        blockUnder (earlier u w) u w.port w.blk (targetLba w.targets i)
      updWrite (updGatePort u w.port fun y => { y with
        disk := memPutBytes y.disk (journalBlock a * 4096) (journalRecord w.targets q old ++ old) }) w.id fun y => { y with
        jrec := some (q, a, true) })) ∧
  (∀ (p : Fin 4) (w : GWrite) (q a : Nat) (b : Bool) (s : State),
    let l := (s.gate.writes.filter fun w => w.port == p.val && w.jrec.isSome).takeWhile GWrite.durable
    l.getLast? = some w → w.jrec = some (q, a, b) → exec (.journalRetire p) s = .next (nvmeSettle (
      let t := updGatePort s p fun y => { y with
        retiredSeq := q, disk := memPutBytes y.disk (256 * 4096) (journalHeader q y.jhead y.headDrain y.left) }
      { t with gate.writes := t.gate.writes.filter fun x => !(l.any fun d => d.id == x.id) }))) ∧
  (∀ (p : Fin 4) (i k : Nat) (w : GWrite) (s : State), (s.gate.writes.filter fun w => w.port == p.val)[i]? = some w →
    mayComplete s w = true →
    exec (.driveWriteComplete p i k) s = .next (nvmeSettle (makeDurable (rootSend s w.port) w (min (w.written + k) w.admitted)))) ∧
  (∀ (p : Fin 4) (c : DriveFault) (s : State), (gatePort s p).state = 1 ∨ (gatePort s p).state = 3 →
    exec (.driveFailed p c) s = .next (Sys2Proof.Machine.driveFailed s p (driveFaultCode c)))

/-- NVMe registers, queue management, features and notices. A doorbell moves its submission queue's tail, or its
completion queue's head, when the value is inside the queue, and completions that wait for room follow; CC.EN with
acceptable settings makes the admin queues and the controller ready where the mailboxes are (R333), and with any
other setting makes CSTS.CFS; a controller reset drops every queue and command but no accepted write (R345); a
shutdown waits for the writes in flight; each admin command that is fetched moves the head on and answers, with
Invalid Field for a command that R333 or R335 refuses and with its effect otherwise; an Abort ends a write that
still waits for its data, counts for any other target, and completes once its target has (R346); an unknown opcode
completes with Invalid Command Opcode (R335). Rests on 14_media_gate.md R333, 14_media_gate.md R334,
14_media_gate.md R335, 14_media_gate.md R336, 14_media_gate.md R345, 14_media_gate.md R346. -/
def Obligations.NvmeAdminCommands : Prop :=
  (∀ (q : Fin 65) (v : BitVec 16) (s : State),
    exec (.nvmeDoorbell (.submission q) v) s = .next (updNvme s fun n => { n with
      sqs := modAt n.sqs q (·.map fun x => if v.toNat < x.size then { x with tail := v.toNat } else x) }) ∧
    exec (.nvmeDoorbell (.completion q) v) s = .next (nvmeSettle (postWaiting q s.gate.nvme.waitingDone.length
      (updNvme s fun n => { n with
        cqs := modAt n.cqs q (·.map fun x => if v.toNat < x.size then { x with head := v.toNat } else x) })))) ∧
  (∀ (a b : BitVec 12) (s : State), s.gate.nvme.enabled = false → 1 ≤ a.toNat → a.toNat ≤ 255 →
    1 ≤ b.toNat → b.toNat ≤ 255 → exec (.nvmeCcEnable 0 0 6 4 a b) s = .next (nvmeReady (updNvme s fun n => { n with
      enabled := true
      cc := ccWord 0 0 6 4
      sqs := n.sqs.set 0 (some { cq := 0, size := a.toNat + 1 })
      cqs := n.cqs.set 0 (some { size := b.toNat + 1, irq := true }) }))) ∧
  (∀ (m c i o : Fin 16) (a b : BitVec 12) (s : State), s.gate.nvme.enabled = false →
    m ≠ 0 ∨ c ≠ 0 ∨ i ≠ 6 ∨ o ≠ 4 ∨ 255 < a.toNat ∨ 255 < b.toNat →
    exec (.nvmeCcEnable m c i o a b) s =
      .next (setLeaf (updNvme s fun n => { n with enabled := true, state := 2, cc := ccWord m c i o }) 10 10)) ∧
  (∀ s : State, ∃ t, exec .nvmeControllerReset s = .next t ∧ t.gate.nvme.enabled = false ∧ t.gate.nvme.state = 0 ∧
    t.gate.nvme.outstanding = [] ∧ t.gate.writes = s.gate.writes ∧ t.gate.ports = s.gate.ports) ∧
  (∀ s : State, s.gate.nvme.state = 1 → exec .nvmeShutdown s = .next (
    let rs := (requesting s).map (·.nsid)
    nvmeSettle (sendShutFlushes (updNvme s fun n => { n with
      state := 3, shst := 1, shutWaits := s.gate.writes.map (·.id), shutRemotes := rs, shutUnsent := rs })))) ∧
  (∀ (h : NvmeHead) (q z c : BitVec 16) (s : State), Fetched s 0 h → q ≠ 0 → q.toNat ≤ 64 →
    s.gate.nvme.sqs.getD q.toNat none = none → z ≠ 0 → z.toNat ≤ 1023 → c ≠ 0 →
    (s.gate.nvme.cqs.getD c.toNat none).isSome = true →
    exec (.nvmeCreateIoSq h q z c true) s = .next (answerOk (updNvme (headMoved s 0) fun n => { n with
      sqs := n.sqs.set q.toNat (some { cq := c.toNat, size := z.toNat + 1 }) }) 0 h)) ∧
  (∀ (h : NvmeHead) (q z v : BitVec 16) (irq : Bool) (s : State), Fetched s 0 h → q ≠ 0 → q.toNat ≤ 64 →
    s.gate.nvme.cqs.getD q.toNat none = none → z ≠ 0 → z.toNat ≤ 1023 → v.toNat ≤ 64 →
    exec (.nvmeCreateIoCq h q z v true irq) s = .next (answerOk (updNvme (headMoved s 0) fun n => { n with
      cqs := n.cqs.set q.toNat (some { size := z.toNat + 1, vector := v.toNat, irq := irq }) }) 0 h)) ∧
  (∀ (h : NvmeHead) (q z c : BitVec 16) (s : State), Fetched s 0 h →
    exec (.nvmeCreateIoSq h q z c false) s = .next (answerField (headMoved s 0) 0 h)) ∧
  (∀ (h : NvmeHead) (q : BitVec 16) (s : State), Fetched s 0 h → q ≠ 0 →
    ((headMoved s 0).gate.nvme.sqs.getD q.toNat none).isSome = true →
    exec (.nvmeDeleteIoSq h q) s = .next (answerOk (updNvme
      (((headMoved s 0).gate.nvme.outstanding.filter fun c => c.sq == q.toNat).foldl (fun s c => nvmeEnd s c 0 7 0)
        (headMoved s 0)) fun n => { n with
      sqs := n.sqs.set q.toNat none
      ordered := n.ordered.filter fun e => e.1 != q.toNat
      barrierWrites := n.barrierWrites.filter fun e => e.1 != q.toNat }) 0 h)) ∧
  (∀ (h : NvmeHead) (q : BitVec 16) (s : State), Fetched s 0 h → q ≠ 0 →
    (s.gate.nvme.cqs.getD q.toNat none).isSome = true →
    (headMoved s 0).gate.nvme.sqs.any (fun o => o.any fun x => x.cq == q.toNat) = false →
    exec (.nvmeDeleteIoCq h q) s =
      .next (answerOk (updNvme (headMoved s 0) fun n => { n with cqs := n.cqs.set q.toNat none }) 0 h)) ∧
  (∀ (h : NvmeHead) (d : BitVec 16) (s : State), Fetched s 0 h →
    ∃ u, u = (drawBytes (headMoved s 0) (4 * (d.toNat + 1))).2 ∧
      exec (.nvmeGetLogPage h 4 d 0) s = .next (answerOk { updNvme u fun n => { n with changed := [] } with
        host.readData := (overlay (zeros (max 4096 (4 * (d.toNat + 1)))) 0
          (s.gate.nvme.changed.flatMap (leBytes 4))).take (4 * (d.toNat + 1)) } 0 h)) ∧
  (∀ (h : NvmeHead) (s : State), Fetched s 0 h → exec (.nvmeIdentify h 2) s = .next (answerOk
    { (drawBytes (headMoved s 0) 4096).2 with host.readData := activeList (headMoved s 0) h.nsid.toNat } 0 h)) ∧
  (∀ (h : NvmeHead) (q c : BitVec 16) (s : State), Fetched s 0 h →
    let wait (s : State) (dw0 : Nat) : State := nvmeSettle (keep s 0 h (.abort q.toNat c.toNat dw0))
    let counted := updNvme (headMoved s 0) fun n => { n with abortsNot := sat32 n.abortsNot 1 }
    (∀ x nsid o, abortTarget s q.toNat c.toNat = some x → x.work = .write nsid o →
      exec (.nvmeAbort h q c) s = .next (wait (nvmeEnd (headMoved s 0) x 0 7 0) 0)) ∧
    (∀ x, abortTarget s q.toNat c.toNat = some x → (∀ nsid o, x.work ≠ .write nsid o) →
      exec (.nvmeAbort h q c) s = .next (wait counted 1)) ∧
    (abortTarget s q.toNat c.toNat = none → exec (.nvmeAbort h q c) s = .next (wait counted 1))) ∧
  (∀ (h : NvmeHead) (k : Byte) (q : Fin 65) (s : State), h.unknown = true →
    (mayFetch s 0 = true → exec (.nvmeIdentify h k) s =
      .next (nvmeSettle (nvmeComplete (headMoved s 0) 0 h.cid.toNat 0 1 0))) ∧
    (mayFetch s q = true → exec (.nvmeFlush q h) s =
      .next (nvmeSettle (nvmeComplete (headMoved s q) q h.cid.toNat 0 1 0)))) ∧
  (∀ (h : NvmeHead) (f : Byte) (v : BitVec 32) (s : State), Fetched s 0 h → featureIds.contains f.toNat = true →
    f ≠ 2 → f ≠ 6 → f ≠ 7 → exec (.nvmeSetFeatures h f v) s = .next (answerOk (updNvme (headMoved s 0) fun n => { n with
      features := memPutLE n.features (4 * f.toNat) 4 v.toNat }) 0 h)) ∧
  (∀ (h : NvmeHead) (f : Byte) (s : State), Fetched s 0 h → featureIds.contains f.toNat = true → f ≠ 6 → f ≠ 7 →
    exec (.nvmeGetFeatures h f) s =
      .next (answer (headMoved s 0) 0 h 0 0 (memLE s.gate.nvme.features (4 * f.toNat) 4))) ∧
  (∀ (h : NvmeHead) (s : State), Fetched s 0 h → s.gate.nvme.noticeHeld = false →
    (s.gate.nvme.outstanding.filter fun c => c.work == .aer).length < 4 →
    exec (.nvmeAsyncEventRequest h) s = .next (keep (headMoved s 0) 0 h .aer))

/-- NVMe input and output commands. A fetched Flush of a namespace waits for its writes and settles; a write whose range
R335 to R339 accept and whose data is whole is accepted, ordered or not, and a Write Zeroes of at most 64 blocks
writes zeros; a read of a local namespace returns the data last accepted (R332) and counts it, and a failed drive
read completes with Unrecovered Read Error; a Barrier to all namespaces holds its queue until it completes (R339); a
Flush or a read of a remote namespace is sent to its serving device (R349); an I/O command in the admin queue
completes with Invalid Command Opcode. Rests on 14_media_gate.md R332, 14_media_gate.md R335, 14_media_gate.md R338,
14_media_gate.md R339, 14_media_gate.md R342. -/
def Obligations.NvmeIoCommands : Prop :=
  (∀ (q : Fin 65) (h : NvmeHead) (s : State), Fetched s q h → h.nsid ≠ 0xFFFFFFFF → h.nsid.toNat ≤ 8 → q ≠ 0 →
    nsActive (headMoved s q) h.nsid.toNat = true → exec (.nvmeFlush q h) s = .next (nvmeSettle (keep (headMoved s q) q h
      (.flush (((headMoved s q).gate.writes.filter fun w => w.port == nsPort h.nsid.toNat).map (·.id)))))) ∧
  (∀ (q : Fin 65) (h : NvmeHead) (lba : BitVec 64) (k : BitVec 16) (fua : Bool) (d : List Byte) (s : State),
    Fetched s q h → WritesWhole s q h lba.toNat (k.toNat + 1) false d →
    exec (.nvmeWrite q h lba k fua d) s = .next (hostAccept (headMoved s q) q h lba.toNat d false fua)) ∧
  (∀ (q : Fin 65) (h : NvmeHead) (lba : BitVec 64) (k : BitVec 16) (fua : Bool) (d : List Byte) (s : State),
    Fetched s q h → WritesWhole s q h lba.toNat (k.toNat + 1) true d →
    exec (.nvmeWriteOrdered q h lba k fua d) s = .next (hostAccept (headMoved s q) q h lba.toNat d true fua)) ∧
  (∀ (q : Fin 65) (h : NvmeHead) (lba : BitVec 64) (k : BitVec 16) (fua : Bool) (s : State),
    Fetched s q h → k.toNat < 64 →
    WritesWhole s q h lba.toNat (k.toNat + 1) false (zeros ((k.toNat + 1) * nsBlk s h.nsid.toNat)) →
    exec (.nvmeWriteZeroes q h lba k fua) s = .next (hostAccept (headMoved s q) q h lba.toNat
      (zeros ((k.toNat + 1) * nsBlk s h.nsid.toNat)) false fua)) ∧
  (∀ (q : Fin 65) (h : NvmeHead) (lba : BitVec 64) (k : BitVec 16) (fua : Bool) (s : State), Fetched s q h →
    q ≠ 0 → 64 ≤ k.toNat → exec (.nvmeWriteZeroes q h lba k fua) s = .next (answerField (headMoved s q) q h)) ∧
  (∀ (q : Fin 65) (h : NvmeHead) (lba : BitVec 64) (k : BitVec 16) (s : State), Fetched s q h → q ≠ 0 →
    h.nsid.toNat ≤ 8 → rangeStatus (headMoved s q) h.nsid.toNat lba.toNat (k.toNat + 1) false = none →
    let t := headMoved s q
    let p := nsPort h.nsid.toNat
    let d := gateRead t p (nsBlk t h.nsid.toNat) lba.toNat (k.toNat + 1)
    exec (.nvmeRead q h lba k false) s = .next (answerOk { updGatePort (rootSend t p) p fun x => { x with
        read := satAdd 64 x.read d.length } with host.readData := d } q h) ∧
    exec (.nvmeRead q h lba k true) s = .next (answer (updGatePort t p fun x => { x with
        mediaErrors := sat32 x.mediaErrors 1 }) q h 2 0x81 0)) ∧
  (∀ (q : Fin 65) (h : NvmeHead) (s : State), Fetched s q h → q ≠ 0 → h.nsid = 0xFFFFFFFF →
    exec (.nvmeBarrier q h true) s = .next (nvmeSettle (updNvme (keep (headMoved s q) q h .barrier) fun n => { n with
      sqs := modAt n.sqs q (·.map fun x => { x with barrier := true }) }))) ∧
  (∀ (q : Fin 65) (h : NvmeHead) (x : Session) (s : State), Fetched s q h → q ≠ 0 → h.nsid ≠ 0xFFFFFFFF →
    8 < h.nsid.toNat → nsActive (headMoved s q) h.nsid.toNat = true →
    sessionOf (headMoved s q) h.nsid.toNat = some x → exec (.nvmeFlush q h) s = .next
      (sendRequest (keep (headMoved s q) q h (.remote h.nsid.toNat)) x 0 0 q h.cid.toNat 0 0 [])) ∧
  (∀ (q : Fin 65) (h : NvmeHead) (lba : BitVec 64) (k : BitVec 16) (x : Session) (b : Bool) (s : State), Fetched s q h →
    q ≠ 0 → 8 < h.nsid.toNat → rangeStatus (headMoved s q) h.nsid.toNat lba.toNat (k.toNat + 1) false = none →
    sessionOf (headMoved s q) h.nsid.toNat = some x → exec (.nvmeRead q h lba k b) s = .next
      (sendRequest (keep (headMoved s q) q h (.remote h.nsid.toNat)) x 2 0 q h.cid.toNat lba.toNat (k.toNat + 1) [])) ∧
  (∀ (h : NvmeHead) (lba : BitVec 64) (k : BitVec 16) (b : Bool) (s : State), Fetched s 0 h →
    exec (.nvmeRead 0 h lba k b) s = .next (answer (headMoved s 0) 0 h 0 1 0) ∧
    exec (.nvmeFlush 0 h) s = .next (answer (headMoved s 0) 0 h 0 1 0) ∧
    exec (.nvmeBarrier 0 h b) s = .next (answer (headMoved s 0) 0 h 0 1 0))

/-- Serial-lane locks, losses, markers, spares and loops. A training lane whose skew is in range locks, and one of a
ring port with more than 40 ns of skew stops with cause 6; a lock loss, a lost REFQ of a lane and an alignment
column with 16 invalid codes lose the lane with their causes; a good marker of a bound lane is taken with its masks
and its power bit, and a bad one only counts (R365, R376); a spare that does not lock in time fails (R379); the end
of a loop reports its result (R375); a lane worn past R591 brings in the spare first (R592). Rests on
15_serial_lanes.md R365, 15_serial_lanes.md R368, 15_serial_lanes.md R370, 15_serial_lanes.md R371,
15_serial_lanes.md R375, 15_serial_lanes.md R376, 15_serial_lanes.md R379, 25_spares_and_wear.md R591,
25_spares_and_wear.md R592. -/
def Obligations.LaneEvents : Prop :=
  (∀ (a : Fin 70) (k : Nat) (f : Bool) (s : State), (laneOf s a).st = 2 →
    (k ≤ 40 ∨ alignedLane s a = false → exec (.laneBlockLock a k f) s = .next (laneLocked (withFlash s f) a)) ∧
    (40 < k → alignedLane s a = true → exec (.laneBlockLock a k f) s = .next (laneEvent s a 2 2 6))) ∧
  (∀ (a : Fin 70) (m f : Bool) (s : State), (laneOf s a).st ≠ 3 → (laneOf s a).st ≠ 4 →
    exec (.laneLockLoss a m f) s = .next (withFlash s f)) ∧
  (∀ (a : Fin 70) (m f : Bool) (s : State), (laneOf s a).st = 3 ∨ (laneOf s a).st = 4 → lanePort s a = none →
    (laneOf s a).pers ≤ 1 → exec (.laneLockLoss a m f) s =
      .next (setLane (countLoss (withFlash s f) a) a 1 (if m then 2 else 1))) ∧
  (∀ (a : Fin 70) (m f : Bool) (q : Nat) (l : LaneLink) (s : State), (laneOf s a).st = 3 ∨ (laneOf s a).st = 4 →
    lanePort s a = some q → linkOf s q = some l →
    ((laneOf s a).pers = 2 → exec (.laneLockLoss a m f) s =
      .next (loseOld (withFlash s f) [a.val] (if m then 2 else 1))) ∧
    (∀ pos, (laneOf s a).pers ≠ 2 → l.spareLane ≠ some a.val → l.lanes.findIdx? (· == a.val) = some pos →
      exec (.laneLockLoss a m f) s = .next (if l.formed then
        losePosition (countLoss (withFlash s f) a) q pos 4 (if m then 2 else 1)
        else setLane (countLoss (withFlash s f) a) a 2 (if m then 2 else 1)))) ∧
  (∀ (r : Fin 4) (f : Bool) (s : State), (laneAddrs s.fuse).any (fun a => laneFedBy s a r) = true →
    let fed := (laneAddrs s.fuse).filter fun a => laneFedBy s a r
    let old (a : Nat) : Bool := (laneOf s a).pers == 2 && (laneOf s a).st == 3 && (lanePort s a).isSome
    exec (.refqLost r f) s = .next ((fed.filter fun a => !old a).foldl (fun s a => laneLost s a 4)
      (loseOld (setLeaf (withFlash s f) 11 11) (fed.filter old) 4))) ∧
  (∀ (a : Fin 70) (k : Nat) (s : State), (laneOf s a).pers = 2 → (laneOf s a).st = 3 →
    let t := updSerial s a fun x => { x with codeErrors := sat32 x.codeErrors k }
    exec (.alignmentColumn a k) s = .next (if 16 ≤ k then laneLost t a 2 else t)) ∧
  (∀ (a : Fin 70) (m : List Byte) (i : Fin 3) (e : Nat) (d f : Bool) (s : State),
    (laneOf s a).pers = 1 ∨ (laneOf s a).pers = 3 → (laneOf s a).st ≠ 5 → (laneOf s a).st ≠ 6 →
    let t := updSerial (withFlash s f) a fun x => { x with stuffErrors := sat32 x.stuffErrors e }
    (markerGood m = false → exec (.milestoneMarker a m i e d f) s =
      .next (updSerial t a fun x => { x with markerFails := sat32 x.markerFails 1 })) ∧
    (markerGood m = true → lanePort t a = none → exec (.milestoneMarker a m i e d f) s =
      .next (elastic t a i.val)) ∧
    (∀ q, markerGood m = true → lanePort t a = some q → exec (.milestoneMarker a m i e d f) s = .next (partnerPower
      (joinSpare (formLink (partnerMasks (elastic t a i.val) q (fld m 6 1 % 32) (fld m 5 1 % 32)) q) q) q
      ((fld m 2 1).testBit 3) d))) ∧
  (∀ (p : Fin 6) (f : Bool) (q : Nat) (s : State), (pairSpare s p).user = some q →
    (laneOf s (pairSpare s p).lane).st = 2 →
    exec (.spareLockTimeout p f) s = .next
      (loseSpare (countLoss (withFlash s f) (pairSpare s p).lane) q (pairSpare s p).lane 4 5)) ∧
  (∀ (a : Fin 70) (k : Bool) (b : BitVec 64) (e : BitVec 32) (f : Bool) (l : LaneLoop) (s : State),
    (laneOf s a).loop = some l →
    let u := updSerial (withFlash s f) a fun x => { x with loop := none, loopErrors := sat32 x.loopErrors e.toNat }
    (k = false ∨ e ≠ 0 ∨ l.returnSpare = false → exec (.laneLoopEnd a k b e f) s = .next (loopEvent
      (setLane u a (if l.retired then 6 else idleState u a) 0) a l (if k = false then 2 else if e = 0 then 0 else 1) false
      b.toNat e.toNat)) ∧
    (k = true → e = 0 → l.returnSpare = true → exec (.laneLoopEnd a k b e f) s =
      .next (loopEvent (returnSpare u a) a l 0 true b.toNat 0))) ∧
  (∀ (a : Fin 70) (k : Bool) (b : BitVec 64) (e : BitVec 32) (f : Bool) (s : State), (laneOf s a).loop = none →
    exec (.laneLoopEnd a k b e f) s = .next (withFlash s f)) ∧
  (∀ (a : Fin 70) (q pos : Nat) (l : LaneLink) (s : State), lanePort s a = some q → linkOf s q = some l →
    l.lanes.findIdx? (· == a.val) = some pos → l.spare = true → l.formed = true → l.spareLane = none →
    l.sparePos = none → (laneOf s a).st = 3 → spareFree s (pairOf a) = true →
    (laneOf s (pairSpare s (pairOf a)).lane).st = 7 →
    exec (.laneWearRetire a) s = .next (takeSpare (updLink s q fun l => { l with worn := some pos }) q pos))

/-- Ring flits, replays, beacons and notices. A flit received or sent on a port whose lanes are up is taken or sent, the
eighth consecutive replay fails the link with cause 2 and silence with cause 3 (R395), a replay timeout with held
flits replays (R393); the root sends a beacon with the next number on both ports, and a member takes one, records
its budget and number, judges its latency and forwards it with its transit bound, the copy from its own direction to
the root setting its latency first (R403, R404); a configured member that misses them is stale; a break or heal
notice is taken (R400) and a measured wire delay kept; what may bring a route back reopens the time flows that wait
for one (R575; model choice, log entry 248). Rests on 16_causeway_ring_and_stage.md R391,
16_causeway_ring_and_stage.md R392, 16_causeway_ring_and_stage.md R393, 16_causeway_ring_and_stage.md R395,
16_causeway_ring_and_stage.md R400, 16_causeway_ring_and_stage.md R403, 16_causeway_ring_and_stage.md R404. -/
def Obligations.RingLinkEvents : Prop :=
  (∀ (q : Fin 8) (f : List Byte) (s : State), (ringPort s q).lanesUp = true →
    exec (.flitReceived q f) s = .next (tryReopen (receiveFlit s q f))) ∧
  (∀ (q : Fin 8) (f : List Byte) (s : State), (ringPort s q).lanesUp = true →
    ((ringPort s q).state = 1 → f.length = 64 → crc32c (f.take 60) = fld f 60 4 → (fld f 0 1).testBit 6 = true →
      (fld f 0 1).testBit 0 = false → (ringPort s q).initGood < 3 → exec (.flitReceived q f) s =
        .next (tryReopen (updPort s q fun p => { p with initGood := p.initGood + 1 }))) ∧
    ((ringPort s q).state = 2 → f.length ≠ 64 ∨ crc32c (f.take 60) ≠ fld f 60 4 → exec (.flitReceived q f) s =
      .next (tryReopen (updPort s q fun p => { p with
        fcrcErrors := sat32 p.fcrcErrors 1, needNak := p.needNak || !p.nakSent }))) ∧
    ((ringPort s q).state = 2 → f.length = 64 → crc32c (f.take 60) = fld f 60 4 → (fld f 0 1).testBit 6 = false →
      (fld f 0 1).testBit 0 = false → exec (.flitReceived q f) s =
        .next (tryReopen (takeAck s q (fld f 4 2 % 4096) (fld f 6 1) (fld f 7 1) ((fld f 0 1).testBit 5))))) ∧
  (∀ (q : Fin 8) (s : State), (ringPort s q).lanesUp = true → (ringPort s q).state = 1 →
    (ringPort s q).consecutive < 8 → exec (.flitTransmit q) s = .next (updPort s q fun p => { p with
      lastFlit := some (flitBytes 0x40 0 0xFFF 16 240 []) })) ∧
  (∀ (q : Fin 8) (f : List Byte) (s : State), (ringPort s q).lanesUp = false →
    exec (.flitReceived q f) s = .next s ∧ ((ringPort s q).consecutive < 8 → exec (.flitTransmit q) s = .next s)) ∧
  (∀ (q : Fin 8) (s : State), (ringPort s q).lanesUp = true →
    exec (.flitTransmit q) s = .next (if 8 ≤ (ringPort (transmit s q) q).consecutive then
      linkFail (transmit s q) q 2 else transmit s q)) ∧
  (∀ (q : Fin 8) (s : State), (ringPort s q).state = 2 → (ringPort s q).held ≠ [] →
    exec (.replayTimeout q) s = .next (startReplay s q)) ∧
  (∀ (q : Fin 8) (s : State), (ringPort s q).state = 2 →
    exec (.linkSilenceTimeout q) s = .next (linkFail s q 3)) ∧
  (∀ (r : RingSlot) (s : State), ringSlot s 0 = some r → isRoot s = true → exec .beaconSend s = .next (childBeacons
    ([r.portCw, r.portCcw].foldl (fun s q => sendBeacon s q r.ring 0)
      (updRing s fun x => { x with beaconNo := (x.beaconNo + 1) % 2 ^ 16 })))) ∧
  (∀ (q : Fin 8) (a b : BitVec 32) (k : BitVec 16) (w o : Nat) (r : RingSlot) (s : State),
    portRole s q = some (0, w) → ringSlot s 0 = some r → isRoot s = false → otherPort s q = some o →
    let t := updRing s fun r => { r with inbox := r.inbox.eraseP fun f =>
      f.ftype == 3 && f.payload == leBytes 4 a.toNat ++ leBytes 4 b.toNat ++ leBytes 2 k.toNat }
    let here := a.toNat * 1000 + (ringPort s q).wirePs
    let f := managementFrame s (stageAddress r.ring 0) (leBytes 4 a.toNat ++ leBytes 4 b.toNat ++ leBytes 2 k.toNat)
    let u (lat : Option Nat) := judgeBudget (updRing t fun x => { x with
      budgetNs := b.toNat, beaconNo := k.toNat, lastBeacon := s.time.c.toNat, stale := false, rootLat := lat })
    let sent (v : State) := passManagement v q { f with payload := beaconBytes v (upNs (here + hopBound v o false)) }
    (portToward r 0 ≠ some q.val →
      exec (.beaconFrame q a b k) s = .next (tryReopen (sent (u s.ring.rootLat)))) ∧
    (portToward r 0 = some q.val →
      exec (.beaconFrame q a b k) s = .next (tryReopen (childBeacons (sent (u (some (upNs here)))))))) ∧
  (∀ s : State, s.ring.configured = true → s.ring.rootLat.isSome = true → isRoot s = false →
    exec .beaconStale s = .next (updRing s fun r => { r with stale := true })) ∧
  (∀ (q : Fin 8) (o : BitVec 12) (p : Fin 64) (k w : Nat) (r : RingSlot) (s : State),
    portRole s q = some (k, w) → ringSlot s k = some r →
    let b (h : Bool) := (List.range 32).map (Config.noticeByte r.ring p (boolNat h))
    let u (h : Bool) := updRing s fun x => { x with inbox := x.inbox.eraseP fun f => f.ftype == 3 && f.payload == b h }
    (p.val < r.size → o.toNat ≠ stageAddress r.ring r.pos →
      exec (.breakNotice q o p) s =
        .next (passManagement (recordBreak (u false) k false p) q (managementFrame s o.toNat (b false))) ∧
      exec (.healNotice q o p) s =
        .next (tryReopen (passManagement (recordBreak (u true) k true p) q (managementFrame s o.toNat (b true))))) ∧
    (r.size ≤ p.val ∨ o.toNat = stageAddress r.ring r.pos →
      exec (.breakNotice q o p) s = .next (u false) ∧ exec (.healNotice q o p) s = .next (tryReopen (u true)))) ∧
  (∀ (q : Fin 8) (o : BitVec 12) (p : Fin 64) (s : State), portRole s q = none →
    exec (.breakNotice q o p) s = .next s ∧ exec (.healNotice q o p) s = .next (tryReopen s)) ∧
  (∀ (q : Fin 8) (ps : BitVec 32) (s : State), (ringPort s q).state = 1 ∨ (ringPort s q).state = 2 →
    exec (.wireDelayMeasure q ps) s = .next (updPort s q fun p => { p with wirePs := ps.toNat }))

/-- Flow frames. Each frame first leaves the frames that wait for their row. A frame for no flow of its number and
generation only counts as stale (R407), but an ACCEPT is answered with a CLOSE; an OPEN is accepted where R408 and
R409 allow it, refused with its code otherwise, answered again with ACCEPT where its flow is there already, and one
refused before is refused alike; an ACCEPT for an opening flow makes it open, and is confirmed again for one that is
open; a CONFIRM opens the inbound flow, and with it the session that it carries; a NACK ends the open; a CLOSE is
answered with CLOSED and ends the flow, a CLOSED ends it (R412); data in order is delivered, ahead is held within 16
frames, and behind or held already is a duplicate (R411); an acknowledgement frees what it covers. Every condition
is on the operands and on the state the frame meets. Rests on 16_causeway_ring_and_stage.md R407,
16_causeway_ring_and_stage.md R408, 16_causeway_ring_and_stage.md R409, 16_causeway_ring_and_stage.md R411,
16_causeway_ring_and_stage.md R412. -/
def Obligations.FlowFrames : Prop :=
  (∀ (x : BitVec 12) (d : BitVec 16) (g : Byte) (n : BitVec 32) (p : List Byte) (m : Bool) (s : State),
    let t := takeInbox s { dst := s.ring.stageAddr, ftype := 0, src := x.toNat, dflow := d.toNat, dgen := g.toNat
                           fseqno := n.toNat, payload := p }
    (flowFor s d.toNat g.toNat = none → exec (.flowDataFrame x d g n p m) s = .next (countStale t d.toNat)) ∧
    (∀ f, flowFor s d.toNat g.toNat = some f →
      let u := if m && mayMiss s f then updRing t fun r => { r with cacheMisses := sat32 r.cacheMisses 1 } else t
      let known := seqBefore n.toNat f.rxNext || f.rxHeld.any fun h => h.1 == n.toNat
      (n.toNat = f.rxNext → f.kind ≠ 4 →
        exec (.flowDataFrame x d g n p m) s = .next (deliverFrames f.num 17 u p)) ∧
      (n.toNat = f.rxNext → f.kind = 4 →
        exec (.flowDataFrame x d g n p m) s = .next (takeStored (deliverFrames f.num 17 u p) f.num)) ∧
      (n.toNat ≠ f.rxNext → known = true → exec (.flowDataFrame x d g n p m) s =
        .next (updFlow u f.num fun f => { f with duplicates := sat32 f.duplicates 1 })) ∧
      (n.toNat ≠ f.rxNext → known = false → f.rxHeld.length < 16 → exec (.flowDataFrame x d g n p m) s =
        .next (updFlow u f.num fun f => { f with
          rxHeld := f.rxHeld ++ [(n.toNat, p)], reorderHolds := sat32 f.reorderHolds 1 })) ∧
      (n.toNat ≠ f.rxNext → known = false → 16 ≤ f.rxHeld.length →
        exec (.flowDataFrame x d g n p m) s = .next u))) ∧
  (∀ (x : BitVec 12) (d : BitVec 16) (g : Byte) (n : BitVec 32) (s : State),
    let t := takeInbox s { dst := s.ring.stageAddr, ftype := 1, src := x.toNat, dflow := d.toNat, dgen := g.toNat
                           payload := leBytes 4 n.toNat }
    (flowFor s d.toNat g.toNat = none → exec (.flowAckFrame x d g n) s = .next (countStale t d.toNat)) ∧
    (∀ f, flowFor s d.toNat g.toNat = some f → exec (.flowAckFrame x d g n) s = .next (takeFlowAck t f n.toNat))) ∧
  (∀ (c : Control) (s : State),
    let t := takeInbox s (controlFrame s 1 c)
    let again := s.ring.flows.find? fun f => f.inbound && f.partner == c.src.toNat && f.token == c.token.toNat &&
      f.remote == c.sflow.toNat && f.dgen == c.sgen.toNat
    let old := s.ring.nacks.find? fun e => e.1 == c.src.toNat && e.2.1 == c.token.toNat
    (∀ f, again = some f → exec (.openFrame c) s = .next (sendAccept t f)) ∧
    (∀ e, again = none → old = some e → exec (.openFrame c) s = .next (sendNack t c e.2.2)) ∧
    (∀ code, again = none → old = none → refusal s c.kind.toNat c.maxItem.toNat = some code →
      exec (.openFrame c) s = .next (refuseOpen t c code)) ∧
    (again = none → old = none → refusal s c.kind.toNat c.maxItem.toNat = none →
      exec (.openFrame c) s = .next (acceptOpen t c))) ∧
  (∀ (c : Control) (s : State),
    let t := takeInbox s (controlFrame s 2 c)
    (flowFor s c.dflow.toNat c.dgen.toNat = none → exec (.acceptFrame c) s =
      .next (sendControl t c.src.toNat c.sflow.toNat c.sgen.toNat
        (controlPayload t 5 c.kind.toNat 0 c.dgen.toNat c.dflow.toNat c.token.toNat 0 []))) ∧
    (∀ f, flowFor s c.dflow.toNat c.dgen.toNat = some f →
      (f.inbound = false → f.token = c.token.toNat → f.state = 1 →
        exec (.acceptFrame c) s = .next (openDone t f c)) ∧
      (f.inbound = false → f.token = c.token.toNat → f.state ≠ 1 → exec (.acceptFrame c) s =
        .next (sendControl t f.partner f.remote f.dgen (controlPayload t 3 f.kind 0 f.gen f.num f.token 0 []))) ∧
      (f.inbound = true ∨ f.token ≠ c.token.toNat →
        exec (.acceptFrame c) s = .next (countStale t c.dflow.toNat)))) ∧
  (∀ (c : Control) (s : State),
    let t := takeInbox s (controlFrame s 3 c)
    (flowFor s c.dflow.toNat c.dgen.toNat = none → exec (.confirmFrame c) s = .next (countStale t c.dflow.toNat)) ∧
    (∀ f, flowFor s c.dflow.toNat c.dgen.toNat = some f →
      let u := flowStateEvent (updFlow t f.num fun f => { f with state := 2 }) f.num 0 f.kind f.partner f.remote 0
        f.rxBase
      (f.inbound = true → f.state = 1 → sessionOfFlow s f.num = none → exec (.confirmFrame c) s = .next u) ∧
      (∀ x, f.inbound = true → f.state = 1 → sessionOfFlow s f.num = some x → exec (.confirmFrame c) s =
        .next (sessionEvent { u with gate.sessions := u.gate.sessions.map fun z =>
          if z == x then { x with active := true } else z } x 0 0 0)) ∧
      (f.inbound = false ∨ f.state ≠ 1 → exec (.confirmFrame c) s = .next t))) ∧
  (∀ (c : Control) (s : State),
    let t := takeInbox s (controlFrame s 4 c)
    (flowFor s c.dflow.toNat c.dgen.toNat = none → exec (.nackFrame c) s = .next (countStale t c.dflow.toNat)) ∧
    (∀ f, flowFor s c.dflow.toNat c.dgen.toNat = some f →
      (f.inbound = false → f.token = c.token.toNat → f.state = 1 →
        exec (.nackFrame c) s = .next (openFail t f c.code.toNat)) ∧
      (f.inbound = true ∨ f.token ≠ c.token.toNat ∨ f.state ≠ 1 → exec (.nackFrame c) s = .next t))) ∧
  (∀ (c : Control) (s : State),
    let t := takeInbox s (controlFrame s 5 c)
    (flowFor s c.dflow.toNat c.dgen.toNat = none → exec (.closeFrame c) s = .next (countStale t c.dflow.toNat)) ∧
    (∀ f, flowFor s c.dflow.toNat c.dgen.toNat = some f →
      let v := if f.kind = 2 then fillGaps f.num f.rxHeld.length t else t
      let u := sendControl v f.partner c.sflow.toNat c.sgen.toNat
        (controlPayload v 6 f.kind 0 f.gen f.num f.token 0 [])
      (f.inbound = false ∨ f.state ≠ 1 → exec (.closeFrame c) s = .next (flowEnd u f 1 0)) ∧
      (f.inbound = true → f.state = 1 → exec (.closeFrame c) s =
        .next (freeFlow { u with gate.sessions := u.gate.sessions.filter fun x => x.flow != f.num } f.num)))) ∧
  (∀ (c : Control) (s : State),
    let t := takeInbox s (controlFrame s 6 c)
    (flowFor s c.dflow.toNat c.dgen.toNat = none → exec (.closedFrame c) s = .next (countStale t c.dflow.toNat)) ∧
    (∀ f, flowFor s c.dflow.toNat c.dgen.toNat = some f →
      (f.state = 3 → f.closeSent = true → exec (.closedFrame c) s = .next (flowEnd t f 1 0)) ∧
      (f.state ≠ 3 ∨ f.closeSent = false → exec (.closedFrame c) s = .next t)))

/-- Flow timers. An open data flow's acknowledgement timer sends its acknowledgement; a gap that stands ends a message
or storage flow with cause 1 and is filled on an image flow; silence ends a flow with cause 2, or 3 with no route to
the partner; an unanswered OPEN is sent again and given up after eight (R408); a closing flow sends CLOSE, and ends
when it has. Rests on 16_causeway_ring_and_stage.md R408, 16_causeway_ring_and_stage.md R411,
16_causeway_ring_and_stage.md R412. -/
def Obligations.FlowTimers : Prop :=
  (∀ (k : BitVec 16) (f : Flow) (s : State), flowOf s k.toNat = some f → f.dead = false →
    (2 ≤ f.state → f.kind ≤ 4 → exec (.flowAckTimer k) s = .next (sendFlowAck s f.num)) ∧
    (f.rxHeld ≠ [] → exec (.reorderTimeout k) s = .next (if f.kind = 2 then fillGap s f.num else flowEnd s f 2 1)) ∧
    (2 ≤ f.state → f.kind ≤ 4 → exec (.flowSilence k) s =
      .next (flowEnd s f 2 (if routeTo s f.partner = none then 3 else 2))) ∧
    (f.inbound = false → f.state = 1 → exec (.openResend k) s =
      .next (if 8 ≤ f.tries then openFail s f 9 else sendOpen s f [])) ∧
    (f.inbound = true → f.state = 1 → exec (.confirmTimeout k) s =
      .next (freeFlow { s with gate.sessions := s.gate.sessions.filter fun x => x.flow != f.num } f.num)) ∧
    (f.state = 3 → exec (.closeTimeout k) s = .next (if f.closeSent then flowEnd s f 1 0 else sendClose s f))) ∧
  (∀ (k : BitVec 16) (s : State), flowOf s k.toNat = none →
    exec (.flowAckTimer k) s = .next s ∧ exec (.reorderTimeout k) s = .next s ∧ exec (.flowSilence k) s = .next s ∧
    exec (.openResend k) s = .next s ∧ exec (.confirmTimeout k) s = .next s ∧ exec (.closeTimeout k) s = .next s)

/-- Domain sources and measurements. A Sync of the selected master and a time frame each give one measurement of θ (R480
to R482): the domain's time at the stamp less the sender's, the path and the port's asymmetry, or the correction; a
delay response gives the path delay; an Announce of a known master replaces its data set, and a fifth master, or one
with no pinned context, only counts as ignored; a timeout of a PTP or flow source loses the source with its cause.
Rests on 20_time_and_genlock.md R478, 20_time_and_genlock.md R479, 20_time_and_genlock.md R480,
20_time_and_genlock.md R481, 20_time_and_genlock.md R482, 16_causeway_ring_and_stage.md R405. -/
def Obligations.DomainEvents : Prop :=
  (∀ (d : Fin 2) (m : Nat) (t1 : Int) (k : Nat) (s : State), (domOf s d).source = .ptp →
    ((domOf s d).masters.head?.map (·.port)) = some m →
    let r := stampRx s (domOf s d).port k
    let t2 := domTimeAt (domOf s d) r.1
    exec (.ptpSync d m t1 k) s = .next (measure (updDom r.2 d fun y => { y with syncT := some (t1, t2) }) d
      ((t2 - t1) - (domOf s d).path - psToTime (s.time.asym.getD (domOf s d).port 0)) 1 (ptpInterval (domOf s d)))) ∧
  (∀ (d : Fin 2) (m : Nat) (t1 : Int) (k : Nat) (s : State),
    (domOf s d).source ≠ .ptp ∨ ((domOf s d).masters.head?.map (·.port)) ≠ some m →
    exec (.ptpSync d m t1 k) s = .next s) ∧
  (∀ (d : Fin 2) (k : Nat) (t4 : Int) (s : State), (domOf s d).source = .ptp →
    let r := stampTx s (domOf s d).port k
    ((domOf s d).syncT = none → exec (.ptpDelayResp d k t4) s = .next r.2) ∧
    (∀ t1 t2, (domOf s d).syncT = some (t1, t2) →
      let p := ((t2 - t1) + (t4 - domTimeAt (domOf s d) r.1)).fdiv 2
      exec (.ptpDelayResp d k t4) s = .next (updDom r.2 d fun y => { y with path := p, pathNs := thetaNs p }))) ∧
  (∀ (d : Fin 2) (m : Nat) (l : List Nat) (s : State), (domOf s d).source = .ptp →
    ((domOf s d).masters.any fun x => x.port == m) = true →
    exec (.ptpAnnounce d m l) s = .next (updDom s d fun y => { y with
      masters := insertMaster ⟨m, l⟩ (y.masters.filter fun x => x.port != m) })) ∧
  (∀ (d : Fin 2) (m : Nat) (l : List Nat) (s : State), (domOf s d).source = .ptp →
    ((domOf s d).masters.any fun x => x.port == m) = false → 4 ≤ (domOf s d).masters.length ∨ pinnedFree s = false →
    exec (.ptpAnnounce d m l) s = .next (updDom s d fun y => { y with ignored := sat32 y.ignored 1 })) ∧
  (∀ (d : Fin 2) (s : State), (domOf s d).source = .ptp →
    exec (.announceTimeout d) s = .next (sourceLost (freeDomainContexts s d) d 1) ∧
    exec (.syncTimeout d) s = .next (sourceLost s d 2)) ∧
  (∀ (x : BitVec 12) (n : BitVec 16) (g : Byte) (p : Fin 8) (b : List Byte) (k : Nat) (s : State),
    let t := takeInbox s { dst := s.ring.stageAddr, ftype := 4, src := x.toNat, dflow := n.toNat, dgen := g.toNat, payload := b }
    (flowFor s n.toNat g.toNat = none → exec (.timeFrame x ⟨n, g⟩ p b k) s = .next (countStale t n.toNat)) ∧
    (∀ f, flowFor s n.toNat g.toNat = some f → domainOfFlow s f.num = none →
      exec (.timeFrame x ⟨n, g⟩ p b k) s = .next t) ∧
    (∀ f d, flowFor s n.toNat g.toNat = some f → domainOfFlow s f.num = some d →
      let r := stampRx t (2 + p.val) k
      exec (.timeFrame x ⟨n, g⟩ p b k) s = .next (measure r.2 d
        (signed 96 (mod96 (domTimeAt (domOf s d) r.1 - fld b 0 12 - psToTime (sfld b 12 8)))) 1 128))) ∧
  (∀ (d : Fin 2) (s : State), (domOf s d).source = .flow →
    exec (.timeFlowTimeout d) s = .next (sourceLost s d 3))

/-- Views, cadences, the sync input and time code. With no client a time frame is not sent; with the revert setting a
locked primary takes the view back; a view step waits while class S work runs (R488); a reference hold ends into a
slew the shorter way round, and a cadence with no line left to move is aligned and free again (R490); a sync frame
with a wrong rate does nothing and a lost sync input leaves its format (R491); a time-code frame sets the reader,
and its first, or one that jams, posts its event; a reader that loses its signal is then invalid (R492), and the
generator counts on from the value it holds (R493). Rests on 20_time_and_genlock.md R481, 20_time_and_genlock.md
R484, 20_time_and_genlock.md R488, 20_time_and_genlock.md R490, 20_time_and_genlock.md R491, 20_time_and_genlock.md
R492, 20_time_and_genlock.md R493. -/
def Obligations.ViewSyncAndTimecodeEvents : Prop :=
  (∀ s : State, (s.ring.flows.filter fun f => f.kind == 3 && f.inbound && f.state == 2) = [] →
    exec .timeFrameSend s = .next s) ∧
  (∀ (l : List Flow) (s : State), (s.ring.flows.filter fun f => f.kind == 3 && f.inbound && f.state == 2) = l →
    l ≠ [] → exec .timeFrameSend s = .next { l.foldl (fun u f => sendFrame u {
      dst := f.partner, ftype := 4, src := u.ring.stageAddr, dflow := f.remote, dgen := f.dgen
      payload := leBytes 12 (mod96 (viewTime s s.time.viewS (now s))) ++ List.replicate 8 0 ++
        leBytes 1 (baseCode s.time.viewS.base) ++ leBytes 2 s.time.flowSeq ++ List.replicate 9 0 }) s with
      time.flowSeq := (s.time.flowSeq + 1) % 2 ^ 16 }) ∧
  (∀ s : State, s.time.revert = true → isLocked s s.time.primary = true →
    (domOf s s.time.primary).lockedAt + revertTicks ≤ now s → s.time.viewS.base.isSome = true →
    s.time.viewS.base ≠ some s.time.primary → exec .revertTimer s = .next (switchS s (some s.time.primary))) ∧
  (∀ (d : Nat) (s : State), s.time.stepWait = true → s.time.stepTo = some d →
    (classSBusy s = true → exec .viewStep s = .next s) ∧
    (classSBusy s = false → isLocked s d = true → s.time.viewS.base = none →
      exec .viewStep s = .next (stepS s d)) ∧
    (classSBusy s = false → isLocked s d = false →
      exec .viewStep s = .next { s with time.stepWait := false, time.stepTo := none })) ∧
  (∀ (k : Fin 20) (l : Int) (s : State), (s.time.cadences.getD k {}).phase = 1 →
    let n := shorterWay l (consumerRate s k).2.2.2
    exec (.refHoldEnd k l) s = .next (refEvent (updCadence s k fun y => { y with phase := 2, linesLeft := n }) k 1
      (s.time.cadences.getD k {}).cause n)) ∧
  (∀ (k : Fin 20) (s : State), (s.time.cadences.getD k {}).phase = 2 →
    ((s.time.cadences.getD k {}).linesLeft = 0 ∨ k.val = 13 → exec (.cadenceAligned k) s = .next (refEvent
      (updCadence s k fun y => { y with phase := 0, linesLeft := 0 }) k 2 (s.time.cadences.getD k {}).cause 0)) ∧
    ((s.time.cadences.getD k {}).linesLeft ≠ 0 → k.val ≠ 13 → exec (.cadenceAligned k) s = .next s)) ∧
  (∀ (f : Fin 5) (n d p k : Nat) (s : State), s.time.syncIn.enable = false ∨ f = 0 ∨ n = 0 ∨ d = 0 ∨
      syncRateOk f n d = false → exec (.syncInFrame f n d p k) s = .next s) ∧
  (∀ (f : Fin 5) (n d p k : Nat) (s : State), s.time.syncIn.enable = true → f ≠ 0 → n ≠ 0 → d ≠ 0 →
    syncRateOk f n d = true →
    let x := s.time.syncIn
    let r := stampRx s 10 k
    (linePeriodOk f n d p = false →
      let u := { r.2 with time.syncIn := { x with frames := 0, periodPs := p } }
      (x.format ≠ f.val ∨ x.candidate ≠ f.val ∨ x.fpsNum ≠ n ∨ x.fpsDen ≠ d →
        exec (.syncInFrame f n d p k) s = .next u) ∧
      (x.format = f.val → x.candidate = f.val → x.fpsNum = n → x.fpsDen = d →
        exec (.syncInFrame f n d p k) s = .next (syncHeld r.1 u))) ∧
    (linePeriodOk f n d p = true → x.candidate = f.val → x.fpsNum = n → x.fpsDen = d →
      let u (e : State) := { e with time.syncIn := { x with frames := x.frames + 1, periodPs := p } }
      (x.format = f.val → exec (.syncInFrame f n d p k) s = .next (syncMeasure { u r.2 with
        time.syncIn := { x with
          frames := x.frames + 1, periodPs := p, since := x.since + syncFrames s, last := now s } } r.1)) ∧
      (x.format = 0 → x.frames < 7 → exec (.syncInFrame f n d p k) s = .next (u r.2)) ∧
      (x.format = 0 → 7 ≤ x.frames → exec (.syncInFrame f n d p k) s = .next (syncMeasure (syncEvent { r.2 with
        time.syncIn := { x with
          frames := x.frames + 1, periodPs := p, format := f, last := now s, since := 0 } } 1) r.1)))) ∧
  (∀ s : State,
    let u := { s with time.syncIn := { s.time.syncIn with format := 0, frames := 0, candidate := 0 } }
    (s.time.syncIn.format = 0 → exec .syncInLost s = .next u) ∧
    (s.time.syncIn.format ≠ 0 → exec .syncInLost s = .next (losesSources (syncEvent u 0) (syncDomains u) 4))) ∧
  (∀ (v : BitVec 32) (k : Nat) (s : State), s.time.ltc.rate ≠ 0 → s.time.ltc.genSrc = 0 →
    let u := (stampRx s 11 k).2
    let t := { u with time.ltc := { s.time.ltc with readerValid := true, reader := v.toNat, readerAt := now s } }
    exec (.ltcFrame v k) s = .next (if s.time.ltc.readerValid then t else ltcEvent t 0 v.toNat)) ∧
  (∀ s : State, s.time.ltc.rate ≠ 0 → s.time.ltc.readerValid = true → exec .ltcFreewheel s =
    .next (ltcEvent { s with time.ltc := { s.time.ltc with readerValid := false } } 1 s.time.ltc.generator)) ∧
  (∀ (o : Int) (s : State), s.time.ltc.rate ≠ 0 → s.time.ltc.genSrc ≠ 1 → s.time.ltc.srcPending = false →
    let v := ltcValue s.time.ltc.rate (ltcFrames s.time.ltc.rate s.time.ltc.generator + 1)
    exec (.ltcGeneratorFrame o) s = .next { s with time.ltc := { s.time.ltc with
      generator := v, srcPending := false, sent := if s.time.ltc.outEnable then some v else none } })

/-- Output selection, Ethernet ports and the display. A disabled output selects nothing and an enabled SDI output takes
its selection; an Ethernet port goes down and, where it is enabled, up (R433); with the display on, the next line
starts and opens the lines of the compose window (R441), and after the last line of a frame, one more or less in a
reference change (R490), the next frame starts, vertical blanking latches the commit due at its frame with its leaf,
chooses a video frame and posts EV_DISP_VBLANK (R444, R448, R455), a burst with another generation word switches its
layer off from that line, counted with its event unless the layer is off already (R447), a deadline with every fetch
in writes the line, and a wrong check of a port counts with its leaf (R451). Rests on 17_broadcast_outputs.md R422,
17_broadcast_outputs.md R433, 18_viewfinder_scanout.md R441, 18_viewfinder_scanout.md R444, 18_viewfinder_scanout.md
R446, 18_viewfinder_scanout.md R447, 18_viewfinder_scanout.md R448, 18_viewfinder_scanout.md R451,
18_viewfinder_scanout.md R455. -/
def Obligations.OutputAndDisplayEvents : Prop :=
  (∀ (i : Fin 12) (a : Bool) (s : State), (outOf s i).enabled = false →
    ((outOf s i).ending = false → exec (.outputSelect i a) s = .next s) ∧
    ((outOf s i).ending = true → 4 ≤ i.val → exec (.outputSelect i a) s = .next (updOut s i fun y => { y with
      ending := false, held := none, frame := none }))) ∧
  (∀ (i : Fin 12) (s : State), (outOf s i).enabled = true → i.val < 4 →
    exec (.outputSelect i false) s = .next (outFrame (outSelect (cadenceBegin s i (outDue s)) i) i false)) ∧
  (∀ (e : Fin 2) (s : State),
    ((ethOf s e).link = true → exec (.ethPortDown e) s =
      .next (ethEvent (updEth s e fun p => { p with link := false }) e false)) ∧
    ((ethOf s e).link = false → exec (.ethPortDown e) s = .next s) ∧
    ((ethOf s e).up = true → (ethOf s e).link = false → exec (.ethPortUp e) s =
      .next (ethEvent (updEth s e fun p => { p with link := true }) e true))) ∧
  (∀ (l : Nat) (s : State), s.disp.enabled = true → s.disp.finishing = false → s.disp.line = some l →
    l + 1 < s.disp.cfg.vActive → l + 1 < dispTotal s → exec .displayLine s = .next (composeReady (updDisp (lineStart (updDisp s fun d => { d with
      dframe := s.disp.dframe }) (l + 1)) fun d => { d with
        opened := max d.opened (min s.disp.cfg.vActive (l + 1 + 65)) }))) ∧
  (∀ (l : Nat) (s : State), s.disp.enabled = true → s.disp.finishing = false → s.disp.line = some l →
    dispTotal s ≤ l + 1 → 0 < s.disp.cfg.vActive →
    let t := cadenceBegin s 12 (viewTime s s.time.viewS s.time.c.toNat)
    exec .displayLine s = .next (composeReady (updDisp (lineStart (updDisp t fun d => { d with
      dframe := nextFrame s }) 0) fun d => { d with opened := max d.opened (min s.disp.cfg.vActive 65) }))) ∧
  (∀ s : State, s.disp.enabled = false → s.disp.finishing = false → exec .displayLine s = .next s ∧ exec .displayVblank s = .next s ∧
    (∀ a b, exec (.displayFrameCrc a b) s = .next s) ∧ (∀ y l, exec (.composeDeadline y l) s = .next s) ∧
    (∀ l y b, exec (.layerBurst l y b) s = .next s)) ∧
  (∀ (l : Nat) (s : State), s.disp.enabled = true → s.disp.finishing = false → s.disp.line = some l →
    l + 1 = s.disp.cfg.vActive → exec .displayVblank s = .next (
      let n := s.disp.dframe
      let latch := s.disp.pending.any fun p => p.2 == n
      let u := chooseVideo (updDisp s fun d => latchCommit { d with
        frameNo := n, frameCrc := storeCrc s, frameOff := packBits (d.off.map (·.isSome)) } n)
      let v := lineStart (updDisp u fun d => { d with
        opened := min 64 s.disp.cfg.vActive, written := [], fetched := [], off := [none, none, none, none] })
        s.disp.cfg.vActive
      let w := notify v 0x0E01 0 (leBytes 4 n ++ leBytes 1 (boolNat latch) ++ [0, 0, 0] ++ leBytes 4 (heldSeq v)) 0
      dcsSend (composeReady (if latch then setLeaf w 14 7 else w)))) ∧
  (∀ (l : Fin 4) (y : Fin 1600) (b : Fin 3) (s : State), l ≠ 0 → s.disp.enabled = true → y.val < s.disp.opened →
    s.disp.written.contains y.val = false → covers s l y = true → b.val < burstsOf s l y →
    ((burstsIn s l y).any fun f => f.2.2.1 == b.val) = false →
    let x := layerOf s.disp.latched l
    memLE s.dram x.addr 4 ≠ x.gen →
    let u := updDisp s fun d => { d with off := d.off.set l (some y.val) }
    (s.disp.off.getD l none = none → exec (.layerBurst l y b) s = .next (composeReady (notify (updDisp u fun d => { d with
      stales := modAt d.stales (l.val - 1) (sat32 · 1) }) 0x0E05 l (leBytes 4 (composing s) ++ leBytes 1 l ++ [0] ++
        leBytes 2 y ++ leBytes 4 x.gen ++ leBytes 4 (memLE s.dram x.addr 4)) 4))) ∧
    ((s.disp.off.getD l none).isSome = true → exec (.layerBurst l y b) s = .next (composeReady u))) ∧
  (∀ (y : Fin 1600) (l : List (BitVec 32)) (s : State), s.disp.enabled = true → y.val < s.disp.opened →
    s.disp.written.contains y.val = false → (∀ k, k < 4 → covers s k y = false ∨ arrived s k y = true) →
    exec (.composeDeadline y l) s = .next (composeReady s)) ∧
  (∀ (a b : BitVec 32) (l : Nat) (s : State), s.disp.enabled = true → s.disp.line = some l → s.disp.cfg.vActive ≤ l →
    s.disp.cfg.ports = 1 → a.toNat = s.disp.frameCrc → exec (.displayFrameCrc a b) s = .next (notify s 0x0E03 0
      (leBytes 4 s.disp.frameNo ++ leBytes 4 s.disp.frameCrc ++ leBytes 1 5 ++ leBytes 1 s.disp.frameOff) 2)) ∧
  (∀ (a b : BitVec 32) (l : Nat) (s : State), s.disp.enabled = true → s.disp.line = some l → s.disp.cfg.vActive ≤ l →
    s.disp.cfg.ports = 1 → a.toNat ≠ s.disp.frameCrc → ∃ t, exec (.displayFrameCrc a b) s = .next (setLeaf t 14 6) ∧
      t.disp.mismatches = modAt s.disp.mismatches 0 (sat32 · 1))

/-- Audio strobes, frames, changes and clock faults. A strobe applies the stops committed before it, then the starts,
then the master ports' changes, the inputs, the crossings and the outputs in that order (R457 to R469); a slave
frame is written to or read from its port's buffer (R462); a waiting gain change that times out is applied (R466); a
clock fault of a running slave port mutes its channels, empties its buffer, counts, and posts EV_AUD_CLOCK with its
leaf (R463, R464), and requalification refills and unmutes. Rests on 19_audio.md R457, 19_audio.md R462, 19_audio.md
R463, 19_audio.md R464, 19_audio.md R466, 19_audio.md R468, 19_audio.md R469. -/
def Obligations.AudioEvents : Prop :=
  (∀ (j : Nat) (p : List (List Bool)) (r : List (List (BitVec 24))) (s : State), exec (.audioStrobe j p r) s = .next (
    let t := strobeTime s j
    let u := [0, 1, 2].foldl (fun s k => if (audPort s k).master && unitRuns s (2 + k) then maskFrame s k t false else s)
      (let v := (s.aud.stops.filter fun x => x.at_ < t).foldl (fun s x => audStop s x.units t)
         (updAud s fun a => { a with stops := a.stops.filter fun x => t ≤ x.at_ })
       if s.pwr.state = .run then audStarts v t else v)
    let f := portInputs (micStrobe u p) r
    let c := channelInputs f.2 f.1 t
    audConsumers (portOutputs (maskCrossings c.2 c.1)) j)) ∧
  (∀ (k : Fin 3) (l : List (BitVec 24)) (b : Bool) (s : State), (audPort s k).master = false → (audPort s k).fault = none →
    unitRuns s (2 + k) = true →
    let t := maskFrame s k (strobeAfter s (classS s)) b
    ((audPort s k).dir = 1 → exec (.audioFrame k l b) s = .next (bufWrite t k {
      mask := (audPort t k).mask, slots := l.map fun v => v.toInt })) ∧
    ((audPort s k).dir = 2 → exec (.audioFrame k l b) s = .next (
      let r := bufRead t k
      updAudPort r.2 k fun p => { p with sent := drivenSlots p r.1.slots }))) ∧
  (∀ (i : Fin 35) (s : State), i.val < 32 → exec (.audioChangeTimeout i) s = .next (
    let t := strobeAfter s (classS s)
    faultUnmute (gainApply s i 1 t) i 1 t)) ∧
  (∀ (k f : Fin 3) (ps : BitVec 32) (s : State), (audPort s k).master = false → (audPort s k).dir ≠ 0 →
    (audPort s k).fault = none → unitRuns s (2 + k) = true →
    exec (.audioClockFault k f ps) s = .next (notify ((portChans k).foldl (fun s c => updAudChan s c fun x => { x with
        faultMute := true, unmute := false }) (updAudPort s k fun p => { p with
        fault := some f.val, buf := [], filling := false, sent := List.replicate 8 0, faults := sat32 p.faults 1 }))
      0x0F01 k ([0] ++ leBytes 1 f ++ [0, 0] ++ leBytes 4 ps.toNat) k)) ∧
  (∀ (k : Fin 3) (ps : BitVec 32) (s : State), (audPort s k).fault.isSome = true →
    exec (.audioClockQualified k ps) s = .next (notify ((portChans k).foldl (fun s c => updAudChan s c fun x => { x with
        unmute := x.faultMute }) (updAudPort s k fun p => { p with fault := none, buf := [], filling := true }))
      0x0F01 k ([1, 0, 0, 0] ++ leBytes 4 ps.toNat) k))

/-- Refresh bands, paybacks, queues, scrubs, repairs and poison. A hotter band applies at once, paying back refresh owed
from band 0, a cooler one after four readings in a row (R509); a due refresh adds to what is owed within its bounds
(R510); the end of a payback counts and posts EV_MEM_PAYBACK (R511); a write queue drains from 192 down to 64, or
while a payback stalls its one rank (R512), and its levels and peak are kept (R507); the DQ delay of a byte lane
moves at most one step per reading of a rank in Run (R505); four or more corrections queue a row (R516); a queued
row is remapped into a free row of the reserve while one is left, and reported as not remapped otherwise (R516,
R518); a poisoned burst of the rank of its address is marked with its bank, counted and queued (R501, R515). Rests
on 21_memory_controller.md R505, 21_memory_controller.md R507, 21_memory_controller.md R509, 21_memory_controller.md
R510, 21_memory_controller.md R511, 21_memory_controller.md R515, 21_memory_controller.md R516,
21_memory_controller.md R518. -/
def Obligations.MemoryEvents : Prop :=
  (∀ (c : Fin 16) (r : Fin 2) (x : Byte) (b : Fin 3) (s : State), rankExists s c r = true →
    let k := rankOf s c r
    (b.val = k.band → exec (.mr4Read c r x b) s = .next (updRank s c r fun r => { r with lowerRun := 0 })) ∧
    (b.val < k.band → (k.lowerBand = b.val → k.lowerRun < 3) → exec (.mr4Read c r x b) s = .next (updRank s c r fun y =>
      { y with lowerBand := b, lowerRun := if k.lowerBand = b.val ∧ 0 < k.lowerRun then k.lowerRun + 1 else 1 })) ∧
    (b.val < k.band → k.lowerBand = b.val → 3 ≤ k.lowerRun →
      exec (.mr4Read c r x b) s = .next (bandChange s c r k.band b x.toNat)) ∧
    (k.band = 0 → 0 < b.val → 0 < k.owed →
      exec (.mr4Read c r x b) s = .next (startPayback (bandChange s c r 0 b x.toNat) c r b))) ∧
  (∀ (c : Fin 16) (r : Fin 2) (w : Bool) (k : Fin 18) (s : State), rankExists s c r = true →
    (rankOf s c r).payback = none → exec (.refreshDue c r w k) s = .next (updRank s c r fun y => { y with
      owed := owedAfter y.band w (y.owed + 1) k.val })) ∧
  (∀ (c : Fin 16) (r : Fin 2) (ns : BitVec 32) (o n : Nat) (d : Bool) (s : State),
    (rankOf s c r).payback = some (o, n, d) →
    exec (.paybackEnd c r ns) s = .next (notify (updChannel (updRank s c r fun y => { y with payback := none }) c fun y =>
      { y with paybacks := sat32 y.paybacks 1 }) 0x1101 c (leBytes 1 r ++ leBytes 1 o ++ leBytes 1 n ++
        leBytes 1 (boolNat d) ++ leBytes 4 (paybackNs s.fuse o ns.toNat) ++ leBytes 4 7812) 0)) ∧
  (∀ (c : Fin 16) (r : ChannelReport) (s : State), c.val < dramChannels s.fuse →
    exec (.writeDrain c r) s = .next (updChannel s c fun y => { y with
      wqLevel := r.level, rqLevel := r.reads
      wqPeak := max y.wqPeak r.level
      drains := if y.draining = false ∧ 192 ≤ r.level.val then sat32 y.drains 1 else y.drains
      draining := if 192 ≤ r.level.val then true
        else if r.level.val ≤ 64 ∧ drainStalled s.fuse y = false then false else y.draining
      fabricHolds := sat32 y.fabricHolds r.held.toNat
      corrections := sat32 y.corrections r.corrected.toNat
      retries := sat32 y.retries r.retried.toNat })) ∧
  (∀ (c : Fin 16) (k : Fin 2) (o : DqReading) (s : State), s.pwr.state = .run → rankExists s c k = true →
    exec (.dqOscRead c k o) s = .next (updChannel s c fun y => { y with
      lanes := y.lanes.mapIdx fun l x => { x with steps := x.steps + oneStep (oscDrift y k l x o) } })) ∧
  (∀ (c : Fin 16) (r : Fin 2) (b k : Nat) (n : BitVec 32) (s : State), rankExists s c r = true →
    let t := updChannel s c fun y => { y with lastScrub := n.toNat }
    exec (.scrubReport c r b k n) s = .next (if 4 ≤ n.toNat then queueRow t c ⟨r, b, k, n.toNat, false, 0⟩ else t)) ∧
  (∀ (c : Fin 16) (f : Bool) (r : DramRow) (l : List DramRow) (s : State),
    (s.mem.channels.getD c {}).retire = r :: l → 256 ≤ (s.mem.channels.getD c {}).remap.length →
    exec (.rowRemapDone c f) s =
      .next (remapEvent (updChannel s c fun y => { y with retire := l }) c r true)) ∧
  (∀ (c : Fin 16) (f : Bool) (r : DramRow) (l : List DramRow) (s : State),
    (s.mem.channels.getD c {}).retire = r :: l → (s.mem.channels.getD c {}).remap.length < 256 →
    exec (.rowRemapDone c f) s = .next (spareRecord (remapEvent (countSubst (rowsCheck (updChannel { s with spare.flashOk := f } c
      fun y => { y with
        retire := l, remap := y.remap ++ [{ r with into := freeReserveRow y.remap }], awaitPpr := y.awaitPpr + 1 })) 7)
      c r false) 7 0
      (if r.poisoned then 0 else 2) c (r.rank * 4096 + r.bank % 4096) r.row r.corrections)) ∧
  (∀ (a : BitVec 36) (r : Fin 2) (b : BitVec 12) (k : BitVec 32) (s : State), burstOf a.toNat < dramBytes s.fuse →
    r.val = dramRankOf s.fuse (burstOf a.toNat) → s.mem.poison.contains (burstOf a.toNat) = false →
    let p := burstOf a.toNat
    let c := dramChannelOf s.fuse p
    let u := updChannel { s with
      mem.poison := s.mem.poison ++ [p]
      mem.poisonBanks := (p, b.toNat) :: s.mem.poisonBanks.filter fun x => x.1 != p } c fun y => { y with
        poisoned := sat32 y.poisoned 1 }
    exec (.burstPoisoned a r b k .none) s = .next (queueRow (notify u 0x1103 c (leBytes 8 p ++ leBytes 1 r ++ [4, 0, 0] ++
      leBytes 4 (u.mem.channels.getD c {}).poisoned) 2) c ⟨r, b.toNat, k.toNat, 0, true, 0⟩))

/-- Temperature sensors, the thermal loop and calibration. A conversion of a working sensor is converted, or judged as
its self-test; a suspect sensor returns to normal after enough agreeing readings and fails otherwise (R528); the
rise signal, once set, stands; a calibration interval takes its settings and starts its pass, and a class disabled
at its interval keeps its codes; a target whose first tries agree on its own code is done and on another waits for
its gap (R539), where the correction is applied and counted; the RCAL check faults outside 19,600 to 20,400 and
clears after two good values (R540). Rests on 22_thermal_power_calibration.md R526, 22_thermal_power_calibration.md
R527, 22_thermal_power_calibration.md R528, 22_thermal_power_calibration.md R529, 22_thermal_power_calibration.md
R534, 22_thermal_power_calibration.md R538, 22_thermal_power_calibration.md R539, 22_thermal_power_calibration.md
R540. -/
def Obligations.ThermalAndCalibrationEvents : Prop :=
  (∀ (i : Fin 28) (v : BitVec 16) (f : Bool) (s : State), (tempSensor s i).state ≠ .failed →
    (tempSensor s i).state ≠ .spareFailed →
    exec (.sensorConversion i v false f) s = .next (convert { s with spare.flashOk := f } i v.toInt) ∧
    exec (.sensorConversion i v true f) s = .next (selfTest { s with spare.flashOk := f } i v.toInt)) ∧
  (∀ (i : Fin 28) (v : BitVec 16) (f : Bool) (s : State), (tempSensor s i).state = .failed →
    exec (.sensorConversion i v false f) s = .next (updTemp s i fun x => { x with reading := v.toInt, converted := true })) ∧
  (∀ (i : Fin 24) (f : Bool) (s : State), (tempSensor s i).state = .suspect →
    (10 ≤ (tempSensor s i).near → (tempSensor s i).again = false → exec (.suspectTimeout i f) s = .next (
      let t := updTemp s i fun x => restartHistory { x with state := .normal, again := false }
      floorCheck (sensorEvent t i .suspect .normal 4 0xFF (tempSensor s i).reading (tempP t i) (tempQ t i)))) ∧
    ((tempSensor s i).near < 10 → (tempSensor s i).again = false → exec (.suspectTimeout i f) s =
      .next (tempFail { s with spare.flashOk := f } i 1)) ∧
    ((tempSensor s i).again = true → exec (.suspectTimeout i f) s =
      .next (tempFail { s with spare.flashOk := f } i 0))) ∧
  (∀ s : State, s.therm.riseSignal = true → exec .riseEvaluation s = .next { s with
    therm.sensors := s.therm.sensors.map riseStep }) ∧
  (∀ (ma : BitVec 32) (s : State), ∃ t, exec (.controlPeriod ma) s = .next t ∧
    t = Sys2Proof.Machine.controlPeriod s ma.toNat ∧ t.therm.riseSignal = false) ∧
  (∀ (c : Fin 6) (s : State), (calClass s c).running = false →
    let t := updClass { s with therm.agree := s.therm.nextAgree } c fun x =>
      if x.nextEnabled then { x with enabled := true, interval := x.nextInterval }
      else { x with
        enabled := false, interval := x.nextInterval, running := false
        targets := x.targets.map fun z => { z with next := none } }
    exec (.calInterval c) s = .next (if (calClass t c).enabled then startPass t c else t)) ∧
  (∀ (c : Fin 6) (k : Fin 54) (l : List (BitVec 10 × BitVec 10)) (p : Nat × Nat) (s : State),
    (calClass s c).running = true → ((calClass s c).targets.getD k {}).done = false →
    ((calClass s c).targets.getD k {}).next = none → k.val < calTargets s.fuse c →
    agreeing s.therm.agree (l.map fun q => (q.1.toNat % 2 ^ calBits c k, q.2.toNat % 2 ^ calBits c k)) = some p →
    let x := (calClass s c).targets.getD k.val {}
    let v := agreedCode x.code p
    let u := updClass s c fun y => { y with measured := y.measured + 1 }
    exec (.calMeasure c k l) s = .next (if v = x.code then
        passCheck (updTarget u c k fun y => { y with waits := 0, done := true }) c
      else updTarget u c k fun y => { y with waits := 0, next := some v })) ∧
  (∀ (c : Fin 6) (k : Fin 54) (v : Nat) (s : State), ((calClass s c).targets.getD k {}).next = some v → c.val ≠ 5 →
    calGap s c k = true →
    let d := (v - ((calClass s c).targets.getD k.val {}).code) + (((calClass s c).targets.getD k.val {}).code - v)
    exec (.calGapApply c k) s = .next (passCheck (updClass (updTarget s c k fun y => { y with
      code := v, next := none, waits := 0, done := true }) c fun y => { y with
      applied := sat32 y.applied 1, corrections := y.corrections + 1, largest := max y.largest (min d 255) }) c)) ∧
  (∀ (v : BitVec 32) (s : State), s.therm.rcalFault = false → 19600 ≤ v.toNat → v.toNat ≤ 20400 →
    exec (.rcalCheck v) s = .next { s with therm.rcal := v.toNat }) ∧
  (∀ (v : BitVec 32) (s : State), s.therm.rcalFault = false → v.toNat < 19600 ∨ 20400 < v.toNat →
    ∃ t, exec (.rcalCheck v) s = .next (rcalEvent t false) ∧ t.therm.rcalFault = true ∧ t.therm.rcal = v.toNat ∧
      ∀ x ∈ t.therm.classes, x.running = false) ∧
  (∀ (v : BitVec 32) (s : State), s.therm.rcalFault = true → 1 ≤ s.therm.rcalGood → 19600 ≤ v.toNat → v.toNat ≤ 20400 →
    exec (.rcalCheck v) s = .next (rcalEvent { s with therm.rcal := v.toNat, therm.rcalGood := 0
                                                      therm.rcalFault := false } true))

/-- Bank faults, wear and self-tests of the spares. A fault of a bank that is still mapped is recovered onto a spare
while its unit has one, and overdraws the unit otherwise (R588, R590); wear below 16 corrections does nothing, and
from 16 retires the bank as wear does (R588); a self-test that passes returns the unit with its cause and one that
fails after a return is recorded (R598). Rests on 25_spares_and_wear.md R588, 25_spares_and_wear.md R590,
25_spares_and_wear.md R598. -/
def Obligations.SpareEvents : Prop :=
  (∀ (a : Fin 15) (u : Fin 16) (b : Fin 1024) (l : List (Fin 1600 × Fin 2560 × Fin 2561)) (f : Bool) (s : State),
    bankExists s.fuse ⟨a, u, b⟩ = true → bankGone s ⟨a, u, b⟩ = false →
    exec (.bankFault a u b l f) s = .next (if 0 < sparesLeft s.spare.retired a u then
      bankRecover { s with spare.flashOk := f } ⟨a, u, b⟩ (l.map fun x => (x.1.val, x.2.1.val, x.2.2.val))
      else bankOverdraw { s with spare.flashOk := f } ⟨a, u, b⟩ 0 0
        (l.map fun x => (x.1.val, x.2.1.val, x.2.2.val)))) ∧
  (∀ (a : Fin 15) (u : Fin 16) (b : Fin 1024) (n : BitVec 32) (f : Bool) (s : State),
    bankExists s.fuse ⟨a, u, b⟩ = true → bankGone s ⟨a, u, b⟩ = false →
    exec (.bankWear a u b n f) s = .next (if n.toNat < 16 then s
      else if 0 < sparesLeft s.spare.retired a u then bankRecord ⟨a, u, b⟩ 2 n.toNat { s with spare.flashOk := f }
      else bankOverdraw { s with spare.flashOk := f } ⟨a, u, b⟩ 2 n.toNat [])) ∧
  (∀ (c : Fin 8) (k : Fin 64) (p f : Bool) (t : Nat × Nat × Bool) (s : State),
    (s.spare.testing.find? fun t => t.1 == c.val && t.2.1 == k.val) = some t →
    exec (.selfTestDone c k p f) s = .next (
      let u := { s with spare.testing := s.spare.testing.erase t, spare.flashOk := f }
      if p then unitReturned u t.1 t.2.1 (if t.2.2 then 7 else 8)
      else if t.2.2 then spareRecord u t.1 0 8 t.2.1 0 0 0 else u))

/-- The targets of the queue commands. Targets 0x00 to 0x03 name event queues 0 to 3 and 0x10 + 3 s + k names FIFO k of
sensor s: an accepted EVQ_CONFIG sets the watermark level of the queue named and changes no other queue's (nothing
is said of a set of wm_hit that a clear left to the next record: log entry 10); an accepted EVQ_RESET resets the
queue named. Any other target of either command, its opcode, sequence number, length and flags being right, is
rejected with E_RANGE (0x0103) at offset 0. Rests on R88. -/
def Obligations.QueueTargets : Prop :=
  (∀ (n : Fin 40) (s : State), Accepted evqConfigCard n s → ∃ rearm,
    exec (.evqConfig n) s = .next (mbxOk (updQueue s (targetQueue (fld (slotBody s n) 0 1)) fun q =>
      { q with wm := fld (slotBody s n) 2 2, rearm := rearm }) n [])) ∧
  (∀ (n : Fin 40) (s : State), Accepted evqResetCard n s → ∃ resp,
    exec (.evqReset n) s = .next (mbxOk (updQueue s (targetQueue (fld (slotBody s n) 0 1)) Queue.reset) n resp)) ∧
  (∀ q, q < 4 → targetQueue q = q) ∧
  (∀ x k, x < 4 → k < 3 → targetQueue (0x10 + 3 * x + k) = 4 + (3 * x + k)) ∧
  (∀ (n : Fin 40) (s : State), let x := fld (slotBody s n) 0 1
    slotLength s n = 4 → slotFlags s n < 8 → s.mbx.db.getD n 0 = slotSequence s n → ¬ (x < 4 ∨ 0x10 ≤ x ∧ x ≤ 0x1B) →
    (mbxTurn s 0x0201 n = true → s.pwr.fwLacks.contains 0x0201 = false →
      exec (.evqConfig n) s = .next (mbxReject s n ⟨0x0103, 0, 0⟩)) ∧
    (mbxTurn s 0x0203 n = true → s.pwr.fwLacks.contains 0x0203 = false →
      exec (.evqReset n) s = .next (mbxReject s n ⟨0x0103, 0, 0⟩)))

/-- SENS_CONFIG sets the class and the budget. An accepted SENS_CONFIG whose sensor then has a configuration leaves that
sensor in class 1 with the budget floor((ring_depth − 1) × 10^6 × fps_den / fps_num) µs of the command's parameters,
whatever SCHED_SENSOR had set. Rests on R144. -/
def Obligations.SensConfigSchedules : Prop :=
  ∀ (n : Fin 40) (s : State), Accepted sensConfigCard n s →
    let b := slotBody s n
    ∃ t, exec (.sensConfig n) s = .next t ∧ ∀ c, (sensorOf t (fld b 0 1)).cfg = some c →
      (sensorOf t (fld b 0 1)).cls = 1 ∧
      (sensorOf t (fld b 0 1)).budgetUs = (fld b 0x0E 1 - 1) * 1000000 * fld b 0x0C 2 / fld b 8 4

/-- The stripes of a sensor tile its width. A sensor's active width is split into ceil(width / 2,048) stripes; stripe k
begins at column 8 floor(k U / n), with U = width / 8, and ends before the first column of stripe k + 1. For a width
that is a positive multiple of 8 the first stripe begins at column 0, the last ends at the width, and every stripe
is a positive multiple of 8 columns, no wider than 2,048. Rests on R123. -/
def Obligations.StripesTile : Prop :=
  (∀ c : SensConfig, stripeCount c = (c.width + 2047) / 2048 ∧
    ∀ k, stripeStart c k = 8 * (k * (c.width / 8) / stripeCount c)) ∧
  (∀ c : SensConfig, c.width % 8 = 0 → 0 < c.width →
    stripeStart c 0 = 0 ∧ stripeStart c (stripeCount c) = c.width ∧
    ∀ k, k < stripeCount c → stripeStart c (k + 1) = stripeStart c k + stripeWidth c k ∧
      0 < stripeWidth c k ∧ stripeWidth c k % 8 = 0 ∧ stripeWidth c k ≤ 2048)

/-- An F24 result is a code, never negative zero, and exact where it can be. The code 0x800000 reads as 0. Every sum,
difference, product, negation, magnitude, reciprocal and scaling gives a 24-bit code that is not 0x800000; and a
value that has a code is given by that code. Rests on 08_demosaic_and_scene_linear.md R182,
08_demosaic_and_scene_linear.md R183. -/
def Obligations.F24ResultsAreCodes : Prop :=
  F24.val 0x800000 = 0 ∧
  (∀ a b k, ∀ r ∈ [F24.add a b, F24.sub a b, F24.mul a b, F24.neg a, F24.abs a, F24.recip a, F24.shr a k],
    r < 2 ^ 24 ∧ r ≠ 0x800000) ∧
  (∀ c, c < 2 ^ 24 → c ≠ 0x800000 → F24.round (F24.val c) 1 = c)

/-- SYS_IDENTIFY is accepted whenever its turn comes. Whenever firmware that implements it comes to a SYS_IDENTIFY of
parameter length 0 with legal flags, rung with its sequence number, in any power state and whatever image is staged,
the command is accepted and nothing changes but its slot's answer: the five capability words, die_id, the usable
DRAM in MiB and the firmware build. Rests on R19. -/
def Obligations.IdentifyAlways : Prop :=
  ∀ (n : Fin 40) (s : State), mbxTurn s 0x0101 n = true → slotLength s n = 0 → slotFlags s n < 8 →
    s.mbx.db.getD n 0 = slotSequence s n →
    s.pwr.fwLacks.contains 0x0101 = false → exec (.sysIdentify n) s = .next (mbxOk s n (identifyBytes s))
end

