-- ==== Sys2Proof/Laws/State.lean ====
section
/-! SUPPORT. What each shared operation over the whole state leaves of each field: one lemma for each, so that no proof
unfolds a record update. -/

namespace Sys2Proof.Machine

@[simp] theorem attnEdge_pending (b a : State) :
    (attnEdge b a).pending = a.pending := by unfold attnEdge; split <;> rfl
@[simp] theorem attnEdge_fuse (b a : State) :
    (attnEdge b a).fuse = a.fuse := by unfold attnEdge; split <;> rfl
@[simp] theorem attnEdge_mbx (b a : State) :
    (attnEdge b a).mbx = a.mbx := by unfold attnEdge; split <;> rfl
@[simp] theorem attnEdge_route (b a : State) :
    (attnEdge b a).route = a.route := by unfold attnEdge; split <;> rfl
@[simp] theorem attnEdge_queues (b a : State) :
    (attnEdge b a).queues = a.queues := by unfold attnEdge; split <;> rfl
@[simp] theorem attnEdge_host (b a : State) :
    (attnEdge b a).host = a.host := by unfold attnEdge; split <;> rfl
@[simp] theorem attnEdge_time (b a : State) :
    (attnEdge b a).time = a.time := by unfold attnEdge; split <;> rfl
@[simp] theorem attnEdge_clk (b a : State) :
    (attnEdge b a).clk = a.clk := by unfold attnEdge; split <;> rfl
@[simp] theorem attnEdge_pwr (b a : State) :
    (attnEdge b a).pwr = a.pwr := by unfold attnEdge; split <;> rfl
@[simp] theorem attnEdge_br (b a : State) :
    (attnEdge b a).br = a.br := by unfold attnEdge; split <;> rfl
@[simp] theorem attnEdge_mem (b a : State) :
    (attnEdge b a).mem = a.mem := by unfold attnEdge; split <;> rfl
@[simp] theorem attnEdge_spare (b a : State) :
    (attnEdge b a).spare = a.spare := by unfold attnEdge; split <;> rfl
@[simp] theorem attnEdge_dram (b a : State) :
    (attnEdge b a).dram = a.dram := by unfold attnEdge; split <;> rfl
@[simp] theorem attnEdge_lane (b a : State) :
    (attnEdge b a).lane = a.lane := by unfold attnEdge; split <;> rfl
@[simp] theorem attnEdge_ring (b a : State) :
    (attnEdge b a).ring = a.ring := by unfold attnEdge; split <;> rfl
@[simp] theorem attnEdge_img (b a : State) :
    (attnEdge b a).img = a.img := by unfold attnEdge; split <;> rfl
@[simp] theorem attnEdge_codec (b a : State) :
    (attnEdge b a).codec = a.codec := by unfold attnEdge; split <;> rfl
@[simp] theorem attnEdge_recs (b a : State) :
    (attnEdge b a).recs = a.recs := by unfold attnEdge; split <;> rfl
@[simp] theorem attnEdge_gate (b a : State) :
    (attnEdge b a).gate = a.gate := by unfold attnEdge; split <;> rfl
@[simp] theorem attnEdge_out (b a : State) :
    (attnEdge b a).out = a.out := by unfold attnEdge; split <;> rfl
@[simp] theorem attnEdge_disp (b a : State) :
    (attnEdge b a).disp = a.disp := by unfold attnEdge; split <;> rfl
@[simp] theorem attnEdge_aud (b a : State) :
    (attnEdge b a).aud = a.aud := by unfold attnEdge; split <;> rfl
@[simp] theorem attnEdge_therm (b a : State) :
    (attnEdge b a).therm = a.therm := by unfold attnEdge; split <;> rfl
@[simp] theorem attnEdge_pins (b a : State) :
    (attnEdge b a).pins = a.pins := by unfold attnEdge; split <;> rfl
@[simp] theorem attnEdge_draws (b a : State) :
    (attnEdge b a).draws = a.draws := by unfold attnEdge; split <;> rfl

@[simp] theorem setLeaves_pending (s : State) (b : Nat) (w : Reg32) :
    (setLeaves s b w).pending = s.pending := by simp [setLeaves]
@[simp] theorem setLeaves_fuse (s : State) (b : Nat) (w : Reg32) :
    (setLeaves s b w).fuse = s.fuse := by simp [setLeaves]
@[simp] theorem setLeaves_mbx (s : State) (b : Nat) (w : Reg32) :
    (setLeaves s b w).mbx = s.mbx := by simp [setLeaves]
@[simp] theorem setLeaves_route (s : State) (b : Nat) (w : Reg32) :
    (setLeaves s b w).route = s.route := by simp [setLeaves]
@[simp] theorem setLeaves_queues (s : State) (b : Nat) (w : Reg32) :
    (setLeaves s b w).queues = s.queues := by simp [setLeaves]
@[simp] theorem setLeaves_host (s : State) (b : Nat) (w : Reg32) :
    (setLeaves s b w).host = s.host := by simp [setLeaves]
@[simp] theorem setLeaves_time (s : State) (b : Nat) (w : Reg32) :
    (setLeaves s b w).time = s.time := by simp [setLeaves]
@[simp] theorem setLeaves_clk (s : State) (b : Nat) (w : Reg32) :
    (setLeaves s b w).clk = s.clk := by simp [setLeaves]
@[simp] theorem setLeaves_pwr (s : State) (b : Nat) (w : Reg32) :
    (setLeaves s b w).pwr = s.pwr := by simp [setLeaves]
@[simp] theorem setLeaves_br (s : State) (b : Nat) (w : Reg32) :
    (setLeaves s b w).br = s.br := by simp [setLeaves]
@[simp] theorem setLeaves_mem (s : State) (b : Nat) (w : Reg32) :
    (setLeaves s b w).mem = s.mem := by simp [setLeaves]
@[simp] theorem setLeaves_spare (s : State) (b : Nat) (w : Reg32) :
    (setLeaves s b w).spare = s.spare := by simp [setLeaves]
@[simp] theorem setLeaves_dram (s : State) (b : Nat) (w : Reg32) :
    (setLeaves s b w).dram = s.dram := by simp [setLeaves]
@[simp] theorem setLeaves_lane (s : State) (b : Nat) (w : Reg32) :
    (setLeaves s b w).lane = s.lane := by simp [setLeaves]
@[simp] theorem setLeaves_ring (s : State) (b : Nat) (w : Reg32) :
    (setLeaves s b w).ring = s.ring := by simp [setLeaves]
@[simp] theorem setLeaves_img (s : State) (b : Nat) (w : Reg32) :
    (setLeaves s b w).img = s.img := by simp [setLeaves]
@[simp] theorem setLeaves_codec (s : State) (b : Nat) (w : Reg32) :
    (setLeaves s b w).codec = s.codec := by simp [setLeaves]
@[simp] theorem setLeaves_recs (s : State) (b : Nat) (w : Reg32) :
    (setLeaves s b w).recs = s.recs := by simp [setLeaves]
@[simp] theorem setLeaves_gate (s : State) (b : Nat) (w : Reg32) :
    (setLeaves s b w).gate = s.gate := by simp [setLeaves]
@[simp] theorem setLeaves_out (s : State) (b : Nat) (w : Reg32) :
    (setLeaves s b w).out = s.out := by simp [setLeaves]
@[simp] theorem setLeaves_disp (s : State) (b : Nat) (w : Reg32) :
    (setLeaves s b w).disp = s.disp := by simp [setLeaves]
@[simp] theorem setLeaves_aud (s : State) (b : Nat) (w : Reg32) :
    (setLeaves s b w).aud = s.aud := by simp [setLeaves]
@[simp] theorem setLeaves_therm (s : State) (b : Nat) (w : Reg32) :
    (setLeaves s b w).therm = s.therm := by simp [setLeaves]
@[simp] theorem setLeaves_pins (s : State) (b : Nat) (w : Reg32) :
    (setLeaves s b w).pins = s.pins := by simp [setLeaves]
@[simp] theorem setLeaves_draws (s : State) (b : Nat) (w : Reg32) :
    (setLeaves s b w).draws = s.draws := by simp [setLeaves]

@[simp] theorem setLeaf_pending (s : State) (b bit : Nat) :
    (setLeaf s b bit).pending = s.pending := by simp [setLeaf]
@[simp] theorem setLeaf_fuse (s : State) (b bit : Nat) :
    (setLeaf s b bit).fuse = s.fuse := by simp [setLeaf]
@[simp] theorem setLeaf_mbx (s : State) (b bit : Nat) :
    (setLeaf s b bit).mbx = s.mbx := by simp [setLeaf]
@[simp] theorem setLeaf_route (s : State) (b bit : Nat) :
    (setLeaf s b bit).route = s.route := by simp [setLeaf]
@[simp] theorem setLeaf_queues (s : State) (b bit : Nat) :
    (setLeaf s b bit).queues = s.queues := by simp [setLeaf]
@[simp] theorem setLeaf_host (s : State) (b bit : Nat) :
    (setLeaf s b bit).host = s.host := by simp [setLeaf]
@[simp] theorem setLeaf_time (s : State) (b bit : Nat) :
    (setLeaf s b bit).time = s.time := by simp [setLeaf]
@[simp] theorem setLeaf_clk (s : State) (b bit : Nat) :
    (setLeaf s b bit).clk = s.clk := by simp [setLeaf]
@[simp] theorem setLeaf_pwr (s : State) (b bit : Nat) :
    (setLeaf s b bit).pwr = s.pwr := by simp [setLeaf]
@[simp] theorem setLeaf_br (s : State) (b bit : Nat) :
    (setLeaf s b bit).br = s.br := by simp [setLeaf]
@[simp] theorem setLeaf_mem (s : State) (b bit : Nat) :
    (setLeaf s b bit).mem = s.mem := by simp [setLeaf]
@[simp] theorem setLeaf_spare (s : State) (b bit : Nat) :
    (setLeaf s b bit).spare = s.spare := by simp [setLeaf]
@[simp] theorem setLeaf_dram (s : State) (b bit : Nat) :
    (setLeaf s b bit).dram = s.dram := by simp [setLeaf]
@[simp] theorem setLeaf_lane (s : State) (b bit : Nat) :
    (setLeaf s b bit).lane = s.lane := by simp [setLeaf]
@[simp] theorem setLeaf_ring (s : State) (b bit : Nat) :
    (setLeaf s b bit).ring = s.ring := by simp [setLeaf]
@[simp] theorem setLeaf_img (s : State) (b bit : Nat) :
    (setLeaf s b bit).img = s.img := by simp [setLeaf]
@[simp] theorem setLeaf_codec (s : State) (b bit : Nat) :
    (setLeaf s b bit).codec = s.codec := by simp [setLeaf]
@[simp] theorem setLeaf_recs (s : State) (b bit : Nat) :
    (setLeaf s b bit).recs = s.recs := by simp [setLeaf]
@[simp] theorem setLeaf_gate (s : State) (b bit : Nat) :
    (setLeaf s b bit).gate = s.gate := by simp [setLeaf]
@[simp] theorem setLeaf_out (s : State) (b bit : Nat) :
    (setLeaf s b bit).out = s.out := by simp [setLeaf]
@[simp] theorem setLeaf_disp (s : State) (b bit : Nat) :
    (setLeaf s b bit).disp = s.disp := by simp [setLeaf]
@[simp] theorem setLeaf_aud (s : State) (b bit : Nat) :
    (setLeaf s b bit).aud = s.aud := by simp [setLeaf]
@[simp] theorem setLeaf_therm (s : State) (b bit : Nat) :
    (setLeaf s b bit).therm = s.therm := by simp [setLeaf]
@[simp] theorem setLeaf_pins (s : State) (b bit : Nat) :
    (setLeaf s b bit).pins = s.pins := by simp [setLeaf]
@[simp] theorem setLeaf_draws (s : State) (b bit : Nat) :
    (setLeaf s b bit).draws = s.draws := by simp [setLeaf]

@[simp] theorem postTo_pending (s : State) (q : Nat) (r : EvRecord) :
    (postTo s q r).pending = s.pending := by simp [postTo]
@[simp] theorem postTo_fuse (s : State) (q : Nat) (r : EvRecord) :
    (postTo s q r).fuse = s.fuse := by simp [postTo]
@[simp] theorem postTo_mbx (s : State) (q : Nat) (r : EvRecord) :
    (postTo s q r).mbx = s.mbx := by simp [postTo]
@[simp] theorem postTo_route (s : State) (q : Nat) (r : EvRecord) :
    (postTo s q r).route = s.route := by simp [postTo]
@[simp] theorem postTo_host (s : State) (q : Nat) (r : EvRecord) :
    (postTo s q r).host = s.host := by simp [postTo]
@[simp] theorem postTo_time (s : State) (q : Nat) (r : EvRecord) :
    (postTo s q r).time = s.time := by simp [postTo]
@[simp] theorem postTo_clk (s : State) (q : Nat) (r : EvRecord) :
    (postTo s q r).clk = s.clk := by simp [postTo]
@[simp] theorem postTo_pwr (s : State) (q : Nat) (r : EvRecord) :
    (postTo s q r).pwr = s.pwr := by simp [postTo]
@[simp] theorem postTo_br (s : State) (q : Nat) (r : EvRecord) :
    (postTo s q r).br = s.br := by simp [postTo]
@[simp] theorem postTo_mem (s : State) (q : Nat) (r : EvRecord) :
    (postTo s q r).mem = s.mem := by simp [postTo]
@[simp] theorem postTo_spare (s : State) (q : Nat) (r : EvRecord) :
    (postTo s q r).spare = s.spare := by simp [postTo]
@[simp] theorem postTo_dram (s : State) (q : Nat) (r : EvRecord) :
    (postTo s q r).dram = s.dram := by simp [postTo]
@[simp] theorem postTo_lane (s : State) (q : Nat) (r : EvRecord) :
    (postTo s q r).lane = s.lane := by simp [postTo]
@[simp] theorem postTo_ring (s : State) (q : Nat) (r : EvRecord) :
    (postTo s q r).ring = s.ring := by simp [postTo]
@[simp] theorem postTo_img (s : State) (q : Nat) (r : EvRecord) :
    (postTo s q r).img = s.img := by simp [postTo]
@[simp] theorem postTo_codec (s : State) (q : Nat) (r : EvRecord) :
    (postTo s q r).codec = s.codec := by simp [postTo]
@[simp] theorem postTo_recs (s : State) (q : Nat) (r : EvRecord) :
    (postTo s q r).recs = s.recs := by simp [postTo]
@[simp] theorem postTo_gate (s : State) (q : Nat) (r : EvRecord) :
    (postTo s q r).gate = s.gate := by simp [postTo]
@[simp] theorem postTo_out (s : State) (q : Nat) (r : EvRecord) :
    (postTo s q r).out = s.out := by simp [postTo]
@[simp] theorem postTo_disp (s : State) (q : Nat) (r : EvRecord) :
    (postTo s q r).disp = s.disp := by simp [postTo]
@[simp] theorem postTo_aud (s : State) (q : Nat) (r : EvRecord) :
    (postTo s q r).aud = s.aud := by simp [postTo]
@[simp] theorem postTo_therm (s : State) (q : Nat) (r : EvRecord) :
    (postTo s q r).therm = s.therm := by simp [postTo]
@[simp] theorem postTo_pins (s : State) (q : Nat) (r : EvRecord) :
    (postTo s q r).pins = s.pins := by simp [postTo]
@[simp] theorem postTo_draws (s : State) (q : Nat) (r : EvRecord) :
    (postTo s q r).draws = s.draws := by simp [postTo]

@[simp] theorem postEventAt_pending (s : State) (ts c x : Nat) (p : List Byte) :
    (postEventAt s ts c x p).pending = s.pending := by simp [postEventAt]
@[simp] theorem postEventAt_fuse (s : State) (ts c x : Nat) (p : List Byte) :
    (postEventAt s ts c x p).fuse = s.fuse := by simp [postEventAt]
@[simp] theorem postEventAt_mbx (s : State) (ts c x : Nat) (p : List Byte) :
    (postEventAt s ts c x p).mbx = s.mbx := by simp [postEventAt]
@[simp] theorem postEventAt_route (s : State) (ts c x : Nat) (p : List Byte) :
    (postEventAt s ts c x p).route = s.route := by simp [postEventAt]
@[simp] theorem postEventAt_host (s : State) (ts c x : Nat) (p : List Byte) :
    (postEventAt s ts c x p).host = s.host := by simp [postEventAt]
@[simp] theorem postEventAt_time (s : State) (ts c x : Nat) (p : List Byte) :
    (postEventAt s ts c x p).time = s.time := by simp [postEventAt]
@[simp] theorem postEventAt_clk (s : State) (ts c x : Nat) (p : List Byte) :
    (postEventAt s ts c x p).clk = s.clk := by simp [postEventAt]
@[simp] theorem postEventAt_pwr (s : State) (ts c x : Nat) (p : List Byte) :
    (postEventAt s ts c x p).pwr = s.pwr := by simp [postEventAt]
@[simp] theorem postEventAt_br (s : State) (ts c x : Nat) (p : List Byte) :
    (postEventAt s ts c x p).br = s.br := by simp [postEventAt]
@[simp] theorem postEventAt_mem (s : State) (ts c x : Nat) (p : List Byte) :
    (postEventAt s ts c x p).mem = s.mem := by simp [postEventAt]
@[simp] theorem postEventAt_spare (s : State) (ts c x : Nat) (p : List Byte) :
    (postEventAt s ts c x p).spare = s.spare := by simp [postEventAt]
@[simp] theorem postEventAt_dram (s : State) (ts c x : Nat) (p : List Byte) :
    (postEventAt s ts c x p).dram = s.dram := by simp [postEventAt]
@[simp] theorem postEventAt_lane (s : State) (ts c x : Nat) (p : List Byte) :
    (postEventAt s ts c x p).lane = s.lane := by simp [postEventAt]
@[simp] theorem postEventAt_ring (s : State) (ts c x : Nat) (p : List Byte) :
    (postEventAt s ts c x p).ring = s.ring := by simp [postEventAt]
@[simp] theorem postEventAt_img (s : State) (ts c x : Nat) (p : List Byte) :
    (postEventAt s ts c x p).img = s.img := by simp [postEventAt]
@[simp] theorem postEventAt_codec (s : State) (ts c x : Nat) (p : List Byte) :
    (postEventAt s ts c x p).codec = s.codec := by simp [postEventAt]
@[simp] theorem postEventAt_recs (s : State) (ts c x : Nat) (p : List Byte) :
    (postEventAt s ts c x p).recs = s.recs := by simp [postEventAt]
@[simp] theorem postEventAt_gate (s : State) (ts c x : Nat) (p : List Byte) :
    (postEventAt s ts c x p).gate = s.gate := by simp [postEventAt]
@[simp] theorem postEventAt_out (s : State) (ts c x : Nat) (p : List Byte) :
    (postEventAt s ts c x p).out = s.out := by simp [postEventAt]
@[simp] theorem postEventAt_disp (s : State) (ts c x : Nat) (p : List Byte) :
    (postEventAt s ts c x p).disp = s.disp := by simp [postEventAt]
@[simp] theorem postEventAt_aud (s : State) (ts c x : Nat) (p : List Byte) :
    (postEventAt s ts c x p).aud = s.aud := by simp [postEventAt]
@[simp] theorem postEventAt_therm (s : State) (ts c x : Nat) (p : List Byte) :
    (postEventAt s ts c x p).therm = s.therm := by simp [postEventAt]
@[simp] theorem postEventAt_pins (s : State) (ts c x : Nat) (p : List Byte) :
    (postEventAt s ts c x p).pins = s.pins := by simp [postEventAt]
@[simp] theorem postEventAt_draws (s : State) (ts c x : Nat) (p : List Byte) :
    (postEventAt s ts c x p).draws = s.draws := by simp [postEventAt]

@[simp] theorem postEvent_pending (s : State) (c x : Nat) (p : List Byte) :
    (postEvent s c x p).pending = s.pending := by simp [postEvent]
@[simp] theorem postEvent_fuse (s : State) (c x : Nat) (p : List Byte) :
    (postEvent s c x p).fuse = s.fuse := by simp [postEvent]
@[simp] theorem postEvent_mbx (s : State) (c x : Nat) (p : List Byte) :
    (postEvent s c x p).mbx = s.mbx := by simp [postEvent]
@[simp] theorem postEvent_route (s : State) (c x : Nat) (p : List Byte) :
    (postEvent s c x p).route = s.route := by simp [postEvent]
@[simp] theorem postEvent_host (s : State) (c x : Nat) (p : List Byte) :
    (postEvent s c x p).host = s.host := by simp [postEvent]
@[simp] theorem postEvent_time (s : State) (c x : Nat) (p : List Byte) :
    (postEvent s c x p).time = s.time := by simp [postEvent]
@[simp] theorem postEvent_clk (s : State) (c x : Nat) (p : List Byte) :
    (postEvent s c x p).clk = s.clk := by simp [postEvent]
@[simp] theorem postEvent_pwr (s : State) (c x : Nat) (p : List Byte) :
    (postEvent s c x p).pwr = s.pwr := by simp [postEvent]
@[simp] theorem postEvent_br (s : State) (c x : Nat) (p : List Byte) :
    (postEvent s c x p).br = s.br := by simp [postEvent]
@[simp] theorem postEvent_mem (s : State) (c x : Nat) (p : List Byte) :
    (postEvent s c x p).mem = s.mem := by simp [postEvent]
@[simp] theorem postEvent_spare (s : State) (c x : Nat) (p : List Byte) :
    (postEvent s c x p).spare = s.spare := by simp [postEvent]
@[simp] theorem postEvent_dram (s : State) (c x : Nat) (p : List Byte) :
    (postEvent s c x p).dram = s.dram := by simp [postEvent]
@[simp] theorem postEvent_lane (s : State) (c x : Nat) (p : List Byte) :
    (postEvent s c x p).lane = s.lane := by simp [postEvent]
@[simp] theorem postEvent_ring (s : State) (c x : Nat) (p : List Byte) :
    (postEvent s c x p).ring = s.ring := by simp [postEvent]
@[simp] theorem postEvent_img (s : State) (c x : Nat) (p : List Byte) :
    (postEvent s c x p).img = s.img := by simp [postEvent]
@[simp] theorem postEvent_codec (s : State) (c x : Nat) (p : List Byte) :
    (postEvent s c x p).codec = s.codec := by simp [postEvent]
@[simp] theorem postEvent_recs (s : State) (c x : Nat) (p : List Byte) :
    (postEvent s c x p).recs = s.recs := by simp [postEvent]
@[simp] theorem postEvent_gate (s : State) (c x : Nat) (p : List Byte) :
    (postEvent s c x p).gate = s.gate := by simp [postEvent]
@[simp] theorem postEvent_out (s : State) (c x : Nat) (p : List Byte) :
    (postEvent s c x p).out = s.out := by simp [postEvent]
@[simp] theorem postEvent_disp (s : State) (c x : Nat) (p : List Byte) :
    (postEvent s c x p).disp = s.disp := by simp [postEvent]
@[simp] theorem postEvent_aud (s : State) (c x : Nat) (p : List Byte) :
    (postEvent s c x p).aud = s.aud := by simp [postEvent]
@[simp] theorem postEvent_therm (s : State) (c x : Nat) (p : List Byte) :
    (postEvent s c x p).therm = s.therm := by simp [postEvent]
@[simp] theorem postEvent_pins (s : State) (c x : Nat) (p : List Byte) :
    (postEvent s c x p).pins = s.pins := by simp [postEvent]
@[simp] theorem postEvent_draws (s : State) (c x : Nat) (p : List Byte) :
    (postEvent s c x p).draws = s.draws := by simp [postEvent]

@[simp] theorem postEventS_pending (s : State) (c x : Nat) (p : List Byte) :
    (postEventS s c x p).pending = s.pending := by simp [postEventS]
@[simp] theorem postEventS_fuse (s : State) (c x : Nat) (p : List Byte) :
    (postEventS s c x p).fuse = s.fuse := by simp [postEventS]
@[simp] theorem postEventS_mbx (s : State) (c x : Nat) (p : List Byte) :
    (postEventS s c x p).mbx = s.mbx := by simp [postEventS]
@[simp] theorem postEventS_route (s : State) (c x : Nat) (p : List Byte) :
    (postEventS s c x p).route = s.route := by simp [postEventS]
@[simp] theorem postEventS_host (s : State) (c x : Nat) (p : List Byte) :
    (postEventS s c x p).host = s.host := by simp [postEventS]
@[simp] theorem postEventS_time (s : State) (c x : Nat) (p : List Byte) :
    (postEventS s c x p).time = s.time := by simp [postEventS]
@[simp] theorem postEventS_clk (s : State) (c x : Nat) (p : List Byte) :
    (postEventS s c x p).clk = s.clk := by simp [postEventS]
@[simp] theorem postEventS_pwr (s : State) (c x : Nat) (p : List Byte) :
    (postEventS s c x p).pwr = s.pwr := by simp [postEventS]
@[simp] theorem postEventS_br (s : State) (c x : Nat) (p : List Byte) :
    (postEventS s c x p).br = s.br := by simp [postEventS]
@[simp] theorem postEventS_mem (s : State) (c x : Nat) (p : List Byte) :
    (postEventS s c x p).mem = s.mem := by simp [postEventS]
@[simp] theorem postEventS_spare (s : State) (c x : Nat) (p : List Byte) :
    (postEventS s c x p).spare = s.spare := by simp [postEventS]
@[simp] theorem postEventS_dram (s : State) (c x : Nat) (p : List Byte) :
    (postEventS s c x p).dram = s.dram := by simp [postEventS]
@[simp] theorem postEventS_lane (s : State) (c x : Nat) (p : List Byte) :
    (postEventS s c x p).lane = s.lane := by simp [postEventS]
@[simp] theorem postEventS_ring (s : State) (c x : Nat) (p : List Byte) :
    (postEventS s c x p).ring = s.ring := by simp [postEventS]
@[simp] theorem postEventS_img (s : State) (c x : Nat) (p : List Byte) :
    (postEventS s c x p).img = s.img := by simp [postEventS]
@[simp] theorem postEventS_codec (s : State) (c x : Nat) (p : List Byte) :
    (postEventS s c x p).codec = s.codec := by simp [postEventS]
@[simp] theorem postEventS_recs (s : State) (c x : Nat) (p : List Byte) :
    (postEventS s c x p).recs = s.recs := by simp [postEventS]
@[simp] theorem postEventS_gate (s : State) (c x : Nat) (p : List Byte) :
    (postEventS s c x p).gate = s.gate := by simp [postEventS]
@[simp] theorem postEventS_out (s : State) (c x : Nat) (p : List Byte) :
    (postEventS s c x p).out = s.out := by simp [postEventS]
@[simp] theorem postEventS_disp (s : State) (c x : Nat) (p : List Byte) :
    (postEventS s c x p).disp = s.disp := by simp [postEventS]
@[simp] theorem postEventS_aud (s : State) (c x : Nat) (p : List Byte) :
    (postEventS s c x p).aud = s.aud := by simp [postEventS]
@[simp] theorem postEventS_therm (s : State) (c x : Nat) (p : List Byte) :
    (postEventS s c x p).therm = s.therm := by simp [postEventS]
@[simp] theorem postEventS_pins (s : State) (c x : Nat) (p : List Byte) :
    (postEventS s c x p).pins = s.pins := by simp [postEventS]
@[simp] theorem postEventS_draws (s : State) (c x : Nat) (p : List Byte) :
    (postEventS s c x p).draws = s.draws := by simp [postEventS]

@[simp] theorem notify_pending (s : State) (c x : Nat) (p : List Byte) (b : Nat) :
    (notify s c x p b).pending = s.pending := by simp [notify]
@[simp] theorem notify_fuse (s : State) (c x : Nat) (p : List Byte) (b : Nat) :
    (notify s c x p b).fuse = s.fuse := by simp [notify]
@[simp] theorem notify_mbx (s : State) (c x : Nat) (p : List Byte) (b : Nat) :
    (notify s c x p b).mbx = s.mbx := by simp [notify]
@[simp] theorem notify_route (s : State) (c x : Nat) (p : List Byte) (b : Nat) :
    (notify s c x p b).route = s.route := by simp [notify]
@[simp] theorem notify_host (s : State) (c x : Nat) (p : List Byte) (b : Nat) :
    (notify s c x p b).host = s.host := by simp [notify]
@[simp] theorem notify_time (s : State) (c x : Nat) (p : List Byte) (b : Nat) :
    (notify s c x p b).time = s.time := by simp [notify]
@[simp] theorem notify_clk (s : State) (c x : Nat) (p : List Byte) (b : Nat) :
    (notify s c x p b).clk = s.clk := by simp [notify]
@[simp] theorem notify_pwr (s : State) (c x : Nat) (p : List Byte) (b : Nat) :
    (notify s c x p b).pwr = s.pwr := by simp [notify]
@[simp] theorem notify_br (s : State) (c x : Nat) (p : List Byte) (b : Nat) :
    (notify s c x p b).br = s.br := by simp [notify]
@[simp] theorem notify_mem (s : State) (c x : Nat) (p : List Byte) (b : Nat) :
    (notify s c x p b).mem = s.mem := by simp [notify]
@[simp] theorem notify_spare (s : State) (c x : Nat) (p : List Byte) (b : Nat) :
    (notify s c x p b).spare = s.spare := by simp [notify]
@[simp] theorem notify_dram (s : State) (c x : Nat) (p : List Byte) (b : Nat) :
    (notify s c x p b).dram = s.dram := by simp [notify]
@[simp] theorem notify_lane (s : State) (c x : Nat) (p : List Byte) (b : Nat) :
    (notify s c x p b).lane = s.lane := by simp [notify]
@[simp] theorem notify_ring (s : State) (c x : Nat) (p : List Byte) (b : Nat) :
    (notify s c x p b).ring = s.ring := by simp [notify]
@[simp] theorem notify_img (s : State) (c x : Nat) (p : List Byte) (b : Nat) :
    (notify s c x p b).img = s.img := by simp [notify]
@[simp] theorem notify_codec (s : State) (c x : Nat) (p : List Byte) (b : Nat) :
    (notify s c x p b).codec = s.codec := by simp [notify]
@[simp] theorem notify_recs (s : State) (c x : Nat) (p : List Byte) (b : Nat) :
    (notify s c x p b).recs = s.recs := by simp [notify]
@[simp] theorem notify_gate (s : State) (c x : Nat) (p : List Byte) (b : Nat) :
    (notify s c x p b).gate = s.gate := by simp [notify]
@[simp] theorem notify_out (s : State) (c x : Nat) (p : List Byte) (b : Nat) :
    (notify s c x p b).out = s.out := by simp [notify]
@[simp] theorem notify_disp (s : State) (c x : Nat) (p : List Byte) (b : Nat) :
    (notify s c x p b).disp = s.disp := by simp [notify]
@[simp] theorem notify_aud (s : State) (c x : Nat) (p : List Byte) (b : Nat) :
    (notify s c x p b).aud = s.aud := by simp [notify]
@[simp] theorem notify_therm (s : State) (c x : Nat) (p : List Byte) (b : Nat) :
    (notify s c x p b).therm = s.therm := by simp [notify]
@[simp] theorem notify_pins (s : State) (c x : Nat) (p : List Byte) (b : Nat) :
    (notify s c x p b).pins = s.pins := by simp [notify]
@[simp] theorem notify_draws (s : State) (c x : Nat) (p : List Byte) (b : Nat) :
    (notify s c x p b).draws = s.draws := by simp [notify]

@[simp] theorem postFifo_pending (s : State) (n k c t : Nat) (p : List Byte) (m : Bool) :
    (postFifo s n k c t p m).pending = s.pending := by simp [postFifo]
@[simp] theorem postFifo_fuse (s : State) (n k c t : Nat) (p : List Byte) (m : Bool) :
    (postFifo s n k c t p m).fuse = s.fuse := by simp [postFifo]
@[simp] theorem postFifo_mbx (s : State) (n k c t : Nat) (p : List Byte) (m : Bool) :
    (postFifo s n k c t p m).mbx = s.mbx := by simp [postFifo]
@[simp] theorem postFifo_route (s : State) (n k c t : Nat) (p : List Byte) (m : Bool) :
    (postFifo s n k c t p m).route = s.route := by simp [postFifo]
@[simp] theorem postFifo_host (s : State) (n k c t : Nat) (p : List Byte) (m : Bool) :
    (postFifo s n k c t p m).host = s.host := by simp [postFifo]
@[simp] theorem postFifo_time (s : State) (n k c t : Nat) (p : List Byte) (m : Bool) :
    (postFifo s n k c t p m).time = s.time := by simp [postFifo]
@[simp] theorem postFifo_clk (s : State) (n k c t : Nat) (p : List Byte) (m : Bool) :
    (postFifo s n k c t p m).clk = s.clk := by simp [postFifo]
@[simp] theorem postFifo_pwr (s : State) (n k c t : Nat) (p : List Byte) (m : Bool) :
    (postFifo s n k c t p m).pwr = s.pwr := by simp [postFifo]
@[simp] theorem postFifo_br (s : State) (n k c t : Nat) (p : List Byte) (m : Bool) :
    (postFifo s n k c t p m).br = s.br := by simp [postFifo]
@[simp] theorem postFifo_mem (s : State) (n k c t : Nat) (p : List Byte) (m : Bool) :
    (postFifo s n k c t p m).mem = s.mem := by simp [postFifo]
@[simp] theorem postFifo_spare (s : State) (n k c t : Nat) (p : List Byte) (m : Bool) :
    (postFifo s n k c t p m).spare = s.spare := by simp [postFifo]
@[simp] theorem postFifo_dram (s : State) (n k c t : Nat) (p : List Byte) (m : Bool) :
    (postFifo s n k c t p m).dram = s.dram := by simp [postFifo]
@[simp] theorem postFifo_lane (s : State) (n k c t : Nat) (p : List Byte) (m : Bool) :
    (postFifo s n k c t p m).lane = s.lane := by simp [postFifo]
@[simp] theorem postFifo_ring (s : State) (n k c t : Nat) (p : List Byte) (m : Bool) :
    (postFifo s n k c t p m).ring = s.ring := by simp [postFifo]
@[simp] theorem postFifo_img (s : State) (n k c t : Nat) (p : List Byte) (m : Bool) :
    (postFifo s n k c t p m).img = s.img := by simp [postFifo]
@[simp] theorem postFifo_codec (s : State) (n k c t : Nat) (p : List Byte) (m : Bool) :
    (postFifo s n k c t p m).codec = s.codec := by simp [postFifo]
@[simp] theorem postFifo_recs (s : State) (n k c t : Nat) (p : List Byte) (m : Bool) :
    (postFifo s n k c t p m).recs = s.recs := by simp [postFifo]
@[simp] theorem postFifo_gate (s : State) (n k c t : Nat) (p : List Byte) (m : Bool) :
    (postFifo s n k c t p m).gate = s.gate := by simp [postFifo]
@[simp] theorem postFifo_out (s : State) (n k c t : Nat) (p : List Byte) (m : Bool) :
    (postFifo s n k c t p m).out = s.out := by simp [postFifo]
@[simp] theorem postFifo_disp (s : State) (n k c t : Nat) (p : List Byte) (m : Bool) :
    (postFifo s n k c t p m).disp = s.disp := by simp [postFifo]
@[simp] theorem postFifo_aud (s : State) (n k c t : Nat) (p : List Byte) (m : Bool) :
    (postFifo s n k c t p m).aud = s.aud := by simp [postFifo]
@[simp] theorem postFifo_therm (s : State) (n k c t : Nat) (p : List Byte) (m : Bool) :
    (postFifo s n k c t p m).therm = s.therm := by simp [postFifo]
@[simp] theorem postFifo_pins (s : State) (n k c t : Nat) (p : List Byte) (m : Bool) :
    (postFifo s n k c t p m).pins = s.pins := by simp [postFifo]
@[simp] theorem postFifo_draws (s : State) (n k c t : Nat) (p : List Byte) (m : Bool) :
    (postFifo s n k c t p m).draws = s.draws := by simp [postFifo]

@[simp] theorem slotWrite_pending (s : State) (n o : Nat) (l : List Byte) :
    (slotWrite s n o l).pending = s.pending := rfl
@[simp] theorem slotWrite_fuse (s : State) (n o : Nat) (l : List Byte) :
    (slotWrite s n o l).fuse = s.fuse := rfl
@[simp] theorem slotWrite_attn (s : State) (n o : Nat) (l : List Byte) :
    (slotWrite s n o l).attn = s.attn := rfl
@[simp] theorem slotWrite_route (s : State) (n o : Nat) (l : List Byte) :
    (slotWrite s n o l).route = s.route := rfl
@[simp] theorem slotWrite_queues (s : State) (n o : Nat) (l : List Byte) :
    (slotWrite s n o l).queues = s.queues := rfl
@[simp] theorem slotWrite_host (s : State) (n o : Nat) (l : List Byte) :
    (slotWrite s n o l).host = s.host := rfl
@[simp] theorem slotWrite_time (s : State) (n o : Nat) (l : List Byte) :
    (slotWrite s n o l).time = s.time := rfl
@[simp] theorem slotWrite_clk (s : State) (n o : Nat) (l : List Byte) :
    (slotWrite s n o l).clk = s.clk := rfl
@[simp] theorem slotWrite_pwr (s : State) (n o : Nat) (l : List Byte) :
    (slotWrite s n o l).pwr = s.pwr := rfl
@[simp] theorem slotWrite_br (s : State) (n o : Nat) (l : List Byte) :
    (slotWrite s n o l).br = s.br := rfl
@[simp] theorem slotWrite_mem (s : State) (n o : Nat) (l : List Byte) :
    (slotWrite s n o l).mem = s.mem := rfl
@[simp] theorem slotWrite_spare (s : State) (n o : Nat) (l : List Byte) :
    (slotWrite s n o l).spare = s.spare := rfl
@[simp] theorem slotWrite_dram (s : State) (n o : Nat) (l : List Byte) :
    (slotWrite s n o l).dram = s.dram := rfl
@[simp] theorem slotWrite_lane (s : State) (n o : Nat) (l : List Byte) :
    (slotWrite s n o l).lane = s.lane := rfl
@[simp] theorem slotWrite_ring (s : State) (n o : Nat) (l : List Byte) :
    (slotWrite s n o l).ring = s.ring := rfl
@[simp] theorem slotWrite_img (s : State) (n o : Nat) (l : List Byte) :
    (slotWrite s n o l).img = s.img := rfl
@[simp] theorem slotWrite_codec (s : State) (n o : Nat) (l : List Byte) :
    (slotWrite s n o l).codec = s.codec := rfl
@[simp] theorem slotWrite_recs (s : State) (n o : Nat) (l : List Byte) :
    (slotWrite s n o l).recs = s.recs := rfl
@[simp] theorem slotWrite_gate (s : State) (n o : Nat) (l : List Byte) :
    (slotWrite s n o l).gate = s.gate := rfl
@[simp] theorem slotWrite_out (s : State) (n o : Nat) (l : List Byte) :
    (slotWrite s n o l).out = s.out := rfl
@[simp] theorem slotWrite_disp (s : State) (n o : Nat) (l : List Byte) :
    (slotWrite s n o l).disp = s.disp := rfl
@[simp] theorem slotWrite_aud (s : State) (n o : Nat) (l : List Byte) :
    (slotWrite s n o l).aud = s.aud := rfl
@[simp] theorem slotWrite_therm (s : State) (n o : Nat) (l : List Byte) :
    (slotWrite s n o l).therm = s.therm := rfl
@[simp] theorem slotWrite_pins (s : State) (n o : Nat) (l : List Byte) :
    (slotWrite s n o l).pins = s.pins := rfl
@[simp] theorem slotWrite_draws (s : State) (n o : Nat) (l : List Byte) :
    (slotWrite s n o l).draws = s.draws := rfl

@[simp] theorem mbxFinish_pending (s : State) (n st eo : Nat) (l : List Byte) :
    (mbxFinish s n st eo l).pending = s.pending := by unfold mbxFinish; dsimp only; split <;> simp
@[simp] theorem mbxFinish_fuse (s : State) (n st eo : Nat) (l : List Byte) :
    (mbxFinish s n st eo l).fuse = s.fuse := by unfold mbxFinish; dsimp only; split <;> simp
@[simp] theorem mbxFinish_route (s : State) (n st eo : Nat) (l : List Byte) :
    (mbxFinish s n st eo l).route = s.route := by unfold mbxFinish; dsimp only; split <;> simp
@[simp] theorem mbxFinish_host (s : State) (n st eo : Nat) (l : List Byte) :
    (mbxFinish s n st eo l).host = s.host := by unfold mbxFinish; dsimp only; split <;> simp
@[simp] theorem mbxFinish_time (s : State) (n st eo : Nat) (l : List Byte) :
    (mbxFinish s n st eo l).time = s.time := by unfold mbxFinish; dsimp only; split <;> simp
@[simp] theorem mbxFinish_clk (s : State) (n st eo : Nat) (l : List Byte) :
    (mbxFinish s n st eo l).clk = s.clk := by unfold mbxFinish; dsimp only; split <;> simp
@[simp] theorem mbxFinish_pwr (s : State) (n st eo : Nat) (l : List Byte) :
    (mbxFinish s n st eo l).pwr = s.pwr := by unfold mbxFinish; dsimp only; split <;> simp
@[simp] theorem mbxFinish_br (s : State) (n st eo : Nat) (l : List Byte) :
    (mbxFinish s n st eo l).br = s.br := by unfold mbxFinish; dsimp only; split <;> simp
@[simp] theorem mbxFinish_mem (s : State) (n st eo : Nat) (l : List Byte) :
    (mbxFinish s n st eo l).mem = s.mem := by unfold mbxFinish; dsimp only; split <;> simp
@[simp] theorem mbxFinish_spare (s : State) (n st eo : Nat) (l : List Byte) :
    (mbxFinish s n st eo l).spare = s.spare := by unfold mbxFinish; dsimp only; split <;> simp
@[simp] theorem mbxFinish_dram (s : State) (n st eo : Nat) (l : List Byte) :
    (mbxFinish s n st eo l).dram = s.dram := by unfold mbxFinish; dsimp only; split <;> simp
@[simp] theorem mbxFinish_lane (s : State) (n st eo : Nat) (l : List Byte) :
    (mbxFinish s n st eo l).lane = s.lane := by unfold mbxFinish; dsimp only; split <;> simp
@[simp] theorem mbxFinish_ring (s : State) (n st eo : Nat) (l : List Byte) :
    (mbxFinish s n st eo l).ring = s.ring := by unfold mbxFinish; dsimp only; split <;> simp
@[simp] theorem mbxFinish_img (s : State) (n st eo : Nat) (l : List Byte) :
    (mbxFinish s n st eo l).img = s.img := by unfold mbxFinish; dsimp only; split <;> simp
@[simp] theorem mbxFinish_codec (s : State) (n st eo : Nat) (l : List Byte) :
    (mbxFinish s n st eo l).codec = s.codec := by unfold mbxFinish; dsimp only; split <;> simp
@[simp] theorem mbxFinish_recs (s : State) (n st eo : Nat) (l : List Byte) :
    (mbxFinish s n st eo l).recs = s.recs := by unfold mbxFinish; dsimp only; split <;> simp
@[simp] theorem mbxFinish_gate (s : State) (n st eo : Nat) (l : List Byte) :
    (mbxFinish s n st eo l).gate = s.gate := by unfold mbxFinish; dsimp only; split <;> simp
@[simp] theorem mbxFinish_out (s : State) (n st eo : Nat) (l : List Byte) :
    (mbxFinish s n st eo l).out = s.out := by unfold mbxFinish; dsimp only; split <;> simp
@[simp] theorem mbxFinish_disp (s : State) (n st eo : Nat) (l : List Byte) :
    (mbxFinish s n st eo l).disp = s.disp := by unfold mbxFinish; dsimp only; split <;> simp
@[simp] theorem mbxFinish_aud (s : State) (n st eo : Nat) (l : List Byte) :
    (mbxFinish s n st eo l).aud = s.aud := by unfold mbxFinish; dsimp only; split <;> simp
@[simp] theorem mbxFinish_therm (s : State) (n st eo : Nat) (l : List Byte) :
    (mbxFinish s n st eo l).therm = s.therm := by unfold mbxFinish; dsimp only; split <;> simp
@[simp] theorem mbxFinish_pins (s : State) (n st eo : Nat) (l : List Byte) :
    (mbxFinish s n st eo l).pins = s.pins := by unfold mbxFinish; dsimp only; split <;> simp
@[simp] theorem mbxFinish_draws (s : State) (n st eo : Nat) (l : List Byte) :
    (mbxFinish s n st eo l).draws = s.draws := by unfold mbxFinish; dsimp only; split <;> simp

@[simp] theorem mbxOk_pending (s : State) (n : Nat) (l : List Byte) :
    (mbxOk s n l).pending = s.pending := by simp [mbxOk]
@[simp] theorem mbxOk_fuse (s : State) (n : Nat) (l : List Byte) :
    (mbxOk s n l).fuse = s.fuse := by simp [mbxOk]
@[simp] theorem mbxOk_route (s : State) (n : Nat) (l : List Byte) :
    (mbxOk s n l).route = s.route := by simp [mbxOk]
@[simp] theorem mbxOk_host (s : State) (n : Nat) (l : List Byte) :
    (mbxOk s n l).host = s.host := by simp [mbxOk]
@[simp] theorem mbxOk_time (s : State) (n : Nat) (l : List Byte) :
    (mbxOk s n l).time = s.time := by simp [mbxOk]
@[simp] theorem mbxOk_clk (s : State) (n : Nat) (l : List Byte) :
    (mbxOk s n l).clk = s.clk := by simp [mbxOk]
@[simp] theorem mbxOk_pwr (s : State) (n : Nat) (l : List Byte) :
    (mbxOk s n l).pwr = s.pwr := by simp [mbxOk]
@[simp] theorem mbxOk_br (s : State) (n : Nat) (l : List Byte) :
    (mbxOk s n l).br = s.br := by simp [mbxOk]
@[simp] theorem mbxOk_mem (s : State) (n : Nat) (l : List Byte) :
    (mbxOk s n l).mem = s.mem := by simp [mbxOk]
@[simp] theorem mbxOk_spare (s : State) (n : Nat) (l : List Byte) :
    (mbxOk s n l).spare = s.spare := by simp [mbxOk]
@[simp] theorem mbxOk_dram (s : State) (n : Nat) (l : List Byte) :
    (mbxOk s n l).dram = s.dram := by simp [mbxOk]
@[simp] theorem mbxOk_lane (s : State) (n : Nat) (l : List Byte) :
    (mbxOk s n l).lane = s.lane := by simp [mbxOk]
@[simp] theorem mbxOk_ring (s : State) (n : Nat) (l : List Byte) :
    (mbxOk s n l).ring = s.ring := by simp [mbxOk]
@[simp] theorem mbxOk_img (s : State) (n : Nat) (l : List Byte) :
    (mbxOk s n l).img = s.img := by simp [mbxOk]
@[simp] theorem mbxOk_codec (s : State) (n : Nat) (l : List Byte) :
    (mbxOk s n l).codec = s.codec := by simp [mbxOk]
@[simp] theorem mbxOk_recs (s : State) (n : Nat) (l : List Byte) :
    (mbxOk s n l).recs = s.recs := by simp [mbxOk]
@[simp] theorem mbxOk_gate (s : State) (n : Nat) (l : List Byte) :
    (mbxOk s n l).gate = s.gate := by simp [mbxOk]
@[simp] theorem mbxOk_out (s : State) (n : Nat) (l : List Byte) :
    (mbxOk s n l).out = s.out := by simp [mbxOk]
@[simp] theorem mbxOk_disp (s : State) (n : Nat) (l : List Byte) :
    (mbxOk s n l).disp = s.disp := by simp [mbxOk]
@[simp] theorem mbxOk_aud (s : State) (n : Nat) (l : List Byte) :
    (mbxOk s n l).aud = s.aud := by simp [mbxOk]
@[simp] theorem mbxOk_therm (s : State) (n : Nat) (l : List Byte) :
    (mbxOk s n l).therm = s.therm := by simp [mbxOk]
@[simp] theorem mbxOk_pins (s : State) (n : Nat) (l : List Byte) :
    (mbxOk s n l).pins = s.pins := by simp [mbxOk]
@[simp] theorem mbxOk_draws (s : State) (n : Nat) (l : List Byte) :
    (mbxOk s n l).draws = s.draws := by simp [mbxOk]

@[simp] theorem mbxReject_pending (s : State) (n : Nat) (r : Rej) :
    (mbxReject s n r).pending = s.pending := by simp [mbxReject]
@[simp] theorem mbxReject_fuse (s : State) (n : Nat) (r : Rej) :
    (mbxReject s n r).fuse = s.fuse := by simp [mbxReject]
@[simp] theorem mbxReject_route (s : State) (n : Nat) (r : Rej) :
    (mbxReject s n r).route = s.route := by simp [mbxReject]
@[simp] theorem mbxReject_host (s : State) (n : Nat) (r : Rej) :
    (mbxReject s n r).host = s.host := by simp [mbxReject]
@[simp] theorem mbxReject_time (s : State) (n : Nat) (r : Rej) :
    (mbxReject s n r).time = s.time := by simp [mbxReject]
@[simp] theorem mbxReject_clk (s : State) (n : Nat) (r : Rej) :
    (mbxReject s n r).clk = s.clk := by simp [mbxReject]
@[simp] theorem mbxReject_pwr (s : State) (n : Nat) (r : Rej) :
    (mbxReject s n r).pwr = s.pwr := by simp [mbxReject]
@[simp] theorem mbxReject_br (s : State) (n : Nat) (r : Rej) :
    (mbxReject s n r).br = s.br := by simp [mbxReject]
@[simp] theorem mbxReject_mem (s : State) (n : Nat) (r : Rej) :
    (mbxReject s n r).mem = s.mem := by simp [mbxReject]
@[simp] theorem mbxReject_spare (s : State) (n : Nat) (r : Rej) :
    (mbxReject s n r).spare = s.spare := by simp [mbxReject]
@[simp] theorem mbxReject_dram (s : State) (n : Nat) (r : Rej) :
    (mbxReject s n r).dram = s.dram := by simp [mbxReject]
@[simp] theorem mbxReject_lane (s : State) (n : Nat) (r : Rej) :
    (mbxReject s n r).lane = s.lane := by simp [mbxReject]
@[simp] theorem mbxReject_ring (s : State) (n : Nat) (r : Rej) :
    (mbxReject s n r).ring = s.ring := by simp [mbxReject]
@[simp] theorem mbxReject_img (s : State) (n : Nat) (r : Rej) :
    (mbxReject s n r).img = s.img := by simp [mbxReject]
@[simp] theorem mbxReject_codec (s : State) (n : Nat) (r : Rej) :
    (mbxReject s n r).codec = s.codec := by simp [mbxReject]
@[simp] theorem mbxReject_recs (s : State) (n : Nat) (r : Rej) :
    (mbxReject s n r).recs = s.recs := by simp [mbxReject]
@[simp] theorem mbxReject_gate (s : State) (n : Nat) (r : Rej) :
    (mbxReject s n r).gate = s.gate := by simp [mbxReject]
@[simp] theorem mbxReject_out (s : State) (n : Nat) (r : Rej) :
    (mbxReject s n r).out = s.out := by simp [mbxReject]
@[simp] theorem mbxReject_disp (s : State) (n : Nat) (r : Rej) :
    (mbxReject s n r).disp = s.disp := by simp [mbxReject]
@[simp] theorem mbxReject_aud (s : State) (n : Nat) (r : Rej) :
    (mbxReject s n r).aud = s.aud := by simp [mbxReject]
@[simp] theorem mbxReject_therm (s : State) (n : Nat) (r : Rej) :
    (mbxReject s n r).therm = s.therm := by simp [mbxReject]
@[simp] theorem mbxReject_pins (s : State) (n : Nat) (r : Rej) :
    (mbxReject s n r).pins = s.pins := by simp [mbxReject]
@[simp] theorem mbxReject_draws (s : State) (n : Nat) (r : Rej) :
    (mbxReject s n r).draws = s.draws := by simp [mbxReject]

@[simp] theorem draw_pending (s : State) :
    ((draw s).2).pending = s.pending := rfl
@[simp] theorem draw_fuse (s : State) :
    ((draw s).2).fuse = s.fuse := rfl
@[simp] theorem draw_mbx (s : State) :
    ((draw s).2).mbx = s.mbx := rfl
@[simp] theorem draw_attn (s : State) :
    ((draw s).2).attn = s.attn := rfl
@[simp] theorem draw_route (s : State) :
    ((draw s).2).route = s.route := rfl
@[simp] theorem draw_queues (s : State) :
    ((draw s).2).queues = s.queues := rfl
@[simp] theorem draw_host (s : State) :
    ((draw s).2).host = s.host := rfl
@[simp] theorem draw_time (s : State) :
    ((draw s).2).time = s.time := rfl
@[simp] theorem draw_clk (s : State) :
    ((draw s).2).clk = s.clk := rfl
@[simp] theorem draw_pwr (s : State) :
    ((draw s).2).pwr = s.pwr := rfl
@[simp] theorem draw_br (s : State) :
    ((draw s).2).br = s.br := rfl
@[simp] theorem draw_mem (s : State) :
    ((draw s).2).mem = s.mem := rfl
@[simp] theorem draw_spare (s : State) :
    ((draw s).2).spare = s.spare := rfl
@[simp] theorem draw_dram (s : State) :
    ((draw s).2).dram = s.dram := rfl
@[simp] theorem draw_lane (s : State) :
    ((draw s).2).lane = s.lane := rfl
@[simp] theorem draw_ring (s : State) :
    ((draw s).2).ring = s.ring := rfl
@[simp] theorem draw_img (s : State) :
    ((draw s).2).img = s.img := rfl
@[simp] theorem draw_codec (s : State) :
    ((draw s).2).codec = s.codec := rfl
@[simp] theorem draw_recs (s : State) :
    ((draw s).2).recs = s.recs := rfl
@[simp] theorem draw_gate (s : State) :
    ((draw s).2).gate = s.gate := rfl
@[simp] theorem draw_out (s : State) :
    ((draw s).2).out = s.out := rfl
@[simp] theorem draw_disp (s : State) :
    ((draw s).2).disp = s.disp := rfl
@[simp] theorem draw_aud (s : State) :
    ((draw s).2).aud = s.aud := rfl
@[simp] theorem draw_therm (s : State) :
    ((draw s).2).therm = s.therm := rfl
@[simp] theorem draw_pins (s : State) :
    ((draw s).2).pins = s.pins := rfl

@[simp] theorem drawBytes_pending (s : State) (n : Nat) :
    ((drawBytes s n).2).pending = s.pending := rfl
@[simp] theorem drawBytes_fuse (s : State) (n : Nat) :
    ((drawBytes s n).2).fuse = s.fuse := rfl
@[simp] theorem drawBytes_mbx (s : State) (n : Nat) :
    ((drawBytes s n).2).mbx = s.mbx := rfl
@[simp] theorem drawBytes_attn (s : State) (n : Nat) :
    ((drawBytes s n).2).attn = s.attn := rfl
@[simp] theorem drawBytes_route (s : State) (n : Nat) :
    ((drawBytes s n).2).route = s.route := rfl
@[simp] theorem drawBytes_queues (s : State) (n : Nat) :
    ((drawBytes s n).2).queues = s.queues := rfl
@[simp] theorem drawBytes_host (s : State) (n : Nat) :
    ((drawBytes s n).2).host = s.host := rfl
@[simp] theorem drawBytes_time (s : State) (n : Nat) :
    ((drawBytes s n).2).time = s.time := rfl
@[simp] theorem drawBytes_clk (s : State) (n : Nat) :
    ((drawBytes s n).2).clk = s.clk := rfl
@[simp] theorem drawBytes_pwr (s : State) (n : Nat) :
    ((drawBytes s n).2).pwr = s.pwr := rfl
@[simp] theorem drawBytes_br (s : State) (n : Nat) :
    ((drawBytes s n).2).br = s.br := rfl
@[simp] theorem drawBytes_mem (s : State) (n : Nat) :
    ((drawBytes s n).2).mem = s.mem := rfl
@[simp] theorem drawBytes_spare (s : State) (n : Nat) :
    ((drawBytes s n).2).spare = s.spare := rfl
@[simp] theorem drawBytes_dram (s : State) (n : Nat) :
    ((drawBytes s n).2).dram = s.dram := rfl
@[simp] theorem drawBytes_lane (s : State) (n : Nat) :
    ((drawBytes s n).2).lane = s.lane := rfl
@[simp] theorem drawBytes_ring (s : State) (n : Nat) :
    ((drawBytes s n).2).ring = s.ring := rfl
@[simp] theorem drawBytes_img (s : State) (n : Nat) :
    ((drawBytes s n).2).img = s.img := rfl
@[simp] theorem drawBytes_codec (s : State) (n : Nat) :
    ((drawBytes s n).2).codec = s.codec := rfl
@[simp] theorem drawBytes_recs (s : State) (n : Nat) :
    ((drawBytes s n).2).recs = s.recs := rfl
@[simp] theorem drawBytes_gate (s : State) (n : Nat) :
    ((drawBytes s n).2).gate = s.gate := rfl
@[simp] theorem drawBytes_out (s : State) (n : Nat) :
    ((drawBytes s n).2).out = s.out := rfl
@[simp] theorem drawBytes_disp (s : State) (n : Nat) :
    ((drawBytes s n).2).disp = s.disp := rfl
@[simp] theorem drawBytes_aud (s : State) (n : Nat) :
    ((drawBytes s n).2).aud = s.aud := rfl
@[simp] theorem drawBytes_therm (s : State) (n : Nat) :
    ((drawBytes s n).2).therm = s.therm := rfl
@[simp] theorem drawBytes_pins (s : State) (n : Nat) :
    ((drawBytes s n).2).pins = s.pins := rfl

/-- An interrupt edge leaves every cause and mask. -/
@[simp] theorem attnEdge_cause (b a : State) : (attnEdge b a).attn.cause = a.attn.cause := by
  unfold attnEdge; split <;> rfl

/-- Setting a leaf sets it, and no other. -/
@[simp] theorem setLeaf_cause (s : State) (b bit : Nat) :
    (setLeaf s b bit).attn.cause = modAt s.attn.cause b (· ||| leafBit bit) := by simp [setLeaf, setLeaves]
@[simp] theorem postTo_cause (s : State) (q : Nat) (r : EvRecord) : (postTo s q r).attn.cause = s.attn.cause := by
  simp [postTo]
@[simp] theorem postTo_queues (s : State) (q : Nat) (r : EvRecord) :
    (postTo s q r).queues = modAt s.queues q (·.post { r with payload := pad16 r.payload }) := by simp [postTo]
@[simp] theorem postEventAt_cause (s : State) (ts c x : Nat) (p : List Byte) :
    (postEventAt s ts c x p).attn.cause = s.attn.cause := by simp [postEventAt]
@[simp] theorem postEvent_cause (s : State) (c x : Nat) (p : List Byte) :
    (postEvent s c x p).attn.cause = s.attn.cause := by simp [postEvent]
@[simp] theorem notify_cause (s : State) (c x : Nat) (p : List Byte) (b : Nat) :
    (notify s c x p b).attn.cause = modAt s.attn.cause (c / 256) (· ||| leafBit b) := by simp [notify]
@[simp] theorem notify_queues (s : State) (c x : Nat) (p : List Byte) (b : Nat) :
    (notify s c x p b).queues = (postEvent s c x p).queues := by simp [notify, setLeaf, setLeaves]

end Sys2Proof.Machine
end

