-- ==== Sys2Proof/Laws/Bedrock.lean ====
section
/-! SUPPORT. What a Bedrock leaf with its notice changes, and what is left of a fetch of the Gate and of a frame that was
not waiting. -/

namespace Sys2Proof.Machine

/-- A notice is posted with its own time, or waits for the mailboxes. -/
theorem postNotice_or (s : State) (n : Notice) :
    (∃ c x p, postNotice s n = postEventAt s n.ts c x p) ∨ postNotice s n = { s with br.notices := s.br.notices ++ [n] } := by
  unfold postNotice
  split
  · exact Or.inl ⟨_, _, _, rfl⟩
  · exact Or.inr rfl

@[simp] theorem bedrockLeaf_pwr (s : State) (b u : Nat) (e : Bool) (m c : Nat) :
    (bedrockLeaf s b u e m c).pwr = s.pwr := by
  unfold bedrockLeaf; rcases postNotice_or (setLeaf s 30 b) ⟨b, u, e, m, c, classL s⟩ with ⟨_, _, _, h⟩ | h <;> simp [h]
@[simp] theorem bedrockLeaf_clk (s : State) (b u : Nat) (e : Bool) (m c : Nat) :
    (bedrockLeaf s b u e m c).clk = s.clk := by
  unfold bedrockLeaf; rcases postNotice_or (setLeaf s 30 b) ⟨b, u, e, m, c, classL s⟩ with ⟨_, _, _, h⟩ | h <;> simp [h]
@[simp] theorem bedrockLeaf_gate (s : State) (b u : Nat) (e : Bool) (m c : Nat) :
    (bedrockLeaf s b u e m c).gate = s.gate := by
  unfold bedrockLeaf; rcases postNotice_or (setLeaf s 30 b) ⟨b, u, e, m, c, classL s⟩ with ⟨_, _, _, h⟩ | h <;> simp [h]
@[simp] theorem bedrockLeaf_mbx (s : State) (b u : Nat) (e : Bool) (m c : Nat) :
    (bedrockLeaf s b u e m c).mbx = s.mbx := by
  unfold bedrockLeaf; rcases postNotice_or (setLeaf s 30 b) ⟨b, u, e, m, c, classL s⟩ with ⟨_, _, _, h⟩ | h <;> simp [h]
@[simp] theorem bedrockLeaf_cause (s : State) (b u : Nat) (e : Bool) (m c : Nat) :
    (bedrockLeaf s b u e m c).attn.cause = modAt s.attn.cause 30 (· ||| leafBit b) := by
  unfold bedrockLeaf; rcases postNotice_or (setLeaf s 30 b) ⟨b, u, e, m, c, classL s⟩ with ⟨_, _, _, h⟩ | h <;> simp [h]
/-- Of Bedrock's own registers it changes the notices that wait, at most. -/
theorem bedrockLeaf_br (s : State) (b u : Nat) (e : Bool) (m c : Nat) :
    ∃ l, (bedrockLeaf s b u e m c).br = { s.br with notices := l } := by
  unfold bedrockLeaf
  rcases postNotice_or (setLeaf s 30 b) ⟨b, u, e, m, c, classL s⟩ with ⟨_, _, _, h⟩ | h
  · exact ⟨s.br.notices, by simp [h]⟩
  · refine ⟨s.br.notices ++ [⟨b, u, e, m, c, classL s⟩], ?_⟩
    simp [h]
@[simp] theorem bedrockLeaf_hold (s : State) (b u : Nat) (e : Bool) (m c : Nat) :
    (bedrockLeaf s b u e m c).br.hold = s.br.hold := by
  obtain ⟨l, h⟩ := bedrockLeaf_br s b u e m c; rw [h]
@[simp] theorem bedrockLeaf_ploss (s : State) (b u : Nat) (e : Bool) (m c : Nat) :
    (bedrockLeaf s b u e m c).br.ploss = s.br.ploss := by
  obtain ⟨l, h⟩ := bedrockLeaf_br s b u e m c; rw [h]
@[simp] theorem bedrockLeaf_plossLow (s : State) (b u : Nat) (e : Bool) (m c : Nat) :
    (bedrockLeaf s b u e m c).br.plossLow = s.br.plossLow := by
  obtain ⟨l, h⟩ := bedrockLeaf_br s b u e m c; rw [h]
/-- The supply monitors are armed only in a powered device. -/
theorem powered_of_armed {s : State} (h : monitorsArmed s = true) : s.pwr.powered = true := by
  simp only [monitorsArmed, Bool.and_eq_true] at h
  exact h.1
/-- Outside a cold boot the start of the policy read waits for nothing. -/
theorem tryStart_idle {s : State} (h : s.pwr.booting = none) : tryStart s = s := by simp [tryStart, h]

/-- A full reset leaves the mailboxes not ready. -/
theorem fullReset_ready (h : Option FaultHold) (s : State) : (fullReset h s).mbx.ready = false := rfl

end Sys2Proof.Machine
end

