-- ==== Sys2Proof/Laws/Gate.lean ====
section
/-! SUPPORT. What a fetch of the Media Gate's controller leaves: only its queue's head moves. -/

namespace Sys2Proof.Machine

/-- A fetched command runs in the state whose queue head has moved on. -/
theorem nvmeFetch_of_fetched {s : State} {sq : Nat} {h : NvmeHead} (k : Fetched s sq h) (run : State → State) :
    nvmeFetch s sq h run = run (headMoved s sq) := by
  obtain ⟨a, b, c, d, e⟩ := k
  simp [nvmeFetch, nvmeFetchIf, a, c, d, e]

/-- An I/O command that is not held back, of a queue that is not the admin queue, runs in that state too. -/
theorem ioFetch_of_fetched {held : Bool} {s : State} {sq : Nat} {h : NvmeHead} (k : Fetched s sq h) (hq : sq ≠ 0)
    (hh : held = false) (run : State → State) : ioFetch held s sq h run = run (headMoved s sq) := by
  obtain ⟨a, b, c, d, e⟩ := k
  simp [ioFetch, nvmeFetchIf, a, b, c, d, e, hq, hh]

@[simp] theorem headMoved_cqs (s : State) (sq : Nat) : (headMoved s sq).gate.nvme.cqs = s.gate.nvme.cqs := rfl
@[simp] theorem headMoved_outstanding (s : State) (sq : Nat) :
    (headMoved s sq).gate.nvme.outstanding = s.gate.nvme.outstanding := rfl
@[simp] theorem headMoved_features (s : State) (sq : Nat) :
    (headMoved s sq).gate.nvme.features = s.gate.nvme.features := rfl
@[simp] theorem headMoved_noticeHeld (s : State) (sq : Nat) :
    (headMoved s sq).gate.nvme.noticeHeld = s.gate.nvme.noticeHeld := rfl
@[simp] theorem headMoved_changed (s : State) (sq : Nat) :
    (headMoved s sq).gate.nvme.changed = s.gate.nvme.changed := rfl

/-- Another queue's entry is as it was. -/
theorem headMoved_sqs_other (s : State) {sq q : Nat} (h : q ≠ sq) :
    (headMoved s sq).gate.nvme.sqs.getD q none = s.gate.nvme.sqs.getD q none := by
  simp [headMoved, updNvme, modAt, List.getElem?_modify]
  split <;> simp_all

end Sys2Proof.Machine
end

