-- ==== Sys2Proof/Laws/Mem.lean ====
section
/-! SUPPORT. The canonical form of addressed stores, which every store operation keeps, and the read-after-write laws. -/

namespace Sys2Proof.Machine

/-- The canonical form says: the cells after the first lie above it, and none holds 0. -/
theorem Mem.wf_cons (a : Nat) (b : Byte) (m : Mem) :
    Mem.wf ((a, b) :: m) = true ↔ b ≠ 0 ∧ (∀ c ∈ m, a < c.1) ∧ Mem.wf m = true := by
  induction m generalizing a b with
  | nil => simp [Mem.wf]
  | cons c m ih =>
    obtain ⟨a', b'⟩ := c
    simp only [Mem.wf, Bool.and_eq_true, bne_iff_ne, ne_eq, decide_eq_true_eq, List.mem_cons, forall_eq_or_imp]
    constructor
    · rintro ⟨⟨h1, h2⟩, h3⟩
      exact ⟨h1, ⟨h2, fun c hc => Nat.lt_trans h2 (((ih a' b').1 h3).2.1 c hc)⟩, h3⟩
    · rintro ⟨h1, ⟨h2, _⟩, h3⟩
      exact ⟨⟨h1, h2⟩, h3⟩

theorem Mem.wf_nil : Mem.wf [] = true := rfl

/-- Dropping cells keeps the form. -/
theorem Mem.wf_filter (m : Mem) (p : Host.Cell → Bool) (h : Mem.wf m = true) : Mem.wf (m.filter p) = true := by
  induction m with
  | nil => rfl
  | cons c m ih =>
    obtain ⟨a, b⟩ := c
    have h' := (Mem.wf_cons a b m).1 h
    rw [List.filter_cons]
    split
    · exact (Mem.wf_cons a b _).2 ⟨h'.1, fun c hc => h'.2.1 c (List.mem_filter.1 hc).1, ih h'.2.2⟩
    · exact ih h'.2.2

/-- Addresses that a write can leave in a store. -/
theorem memPut_mem (m : Mem) (x : Nat) (v : Byte) (c : Host.Cell) (h : c ∈ memPut m x v) : c ∈ m ∨ c.1 = x := by
  induction m with
  | nil =>
    unfold memPut at h
    split at h <;> simp_all
  | cons d m ih =>
    obtain ⟨a, b⟩ := d
    unfold memPut at h
    split at h
    · split at h <;> simp_all
      grind
    · split at h
      · split at h
        · exact .inl (List.mem_cons_of_mem _ h)
        · rcases List.mem_cons.1 h with h | h
          · exact .inr (by rw [h]; simp_all)
          · exact .inl (List.mem_cons_of_mem _ h)
      · rcases List.mem_cons.1 h with h | h
        · exact .inl (by simp [h])
        · exact (ih h).imp (List.mem_cons_of_mem _) id

/-- A write of one byte keeps the form. -/
theorem memPut_wf (m : Mem) (x : Nat) (v : Byte) (h : Mem.wf m = true) : Mem.wf (memPut m x v) = true := by
  induction m with
  | nil =>
    unfold memPut
    split
    · rfl
    · rename_i hv
      simpa [Mem.wf] using hv
  | cons d m ih =>
    obtain ⟨a, b⟩ := d
    have h' := (Mem.wf_cons a b m).1 h
    unfold memPut
    split
    · rename_i hx
      split
      · exact h
      · rename_i hv
        refine (Mem.wf_cons _ _ _).2 ⟨hv, fun c hc => ?_, h⟩
        rcases List.mem_cons.1 hc with hc | hc
        · rw [hc]; exact hx
        · exact Nat.lt_trans hx (h'.2.1 c hc)
    · split
      · split
        · exact h'.2.2
        · rename_i hv
          exact (Mem.wf_cons _ _ _).2 ⟨hv, h'.2⟩
      · rename_i hx hne
        refine (Mem.wf_cons _ _ _).2 ⟨h'.1, fun c hc => ?_, ih h'.2.2⟩
        rcases memPut_mem m x v c hc with hc | hc
        · exact h'.2.1 c hc
        · omega

/-- A write of bytes keeps the form. -/
theorem memPutBytes_wf (m : Mem) (x : Nat) (bs : List Byte) (h : Mem.wf m = true) :
    Mem.wf (memPutBytes m x bs) = true := by
  induction bs generalizing m x with
  | nil => exact h
  | cons b bs ih => exact ih _ _ (memPut_wf m x b h)

theorem memPutLE_wf (m : Mem) (x n v : Nat) (h : Mem.wf m = true) : Mem.wf (memPutLE m x n v) = true :=
  memPutBytes_wf m x _ h

theorem memClear_wf (m : Mem) (lo hi : Nat) (h : Mem.wf m = true) : Mem.wf (memClear m lo hi) = true :=
  Mem.wf_filter m _ h

theorem memKeep_wf (m : Mem) (p : Nat → Bool) (h : Mem.wf m = true) : Mem.wf (memKeep m p) = true :=
  Mem.wf_filter m _ h

/-- A row of writes keeps the canonical form. -/
theorem memPuts_wf {α : Type} {f : α → Nat} {g : α → List Byte} {l : List α} {m : Mem} (h : Mem.wf m = true) :
    Mem.wf (l.foldl (fun m i => memPutBytes m (f i) (g i)) m) = true := by
  induction l generalizing m with
  | nil => exact h
  | cons a l ih => exact ih (memPutBytes_wf _ _ _ h)

/-- An address below every cell reads 0. -/
theorem memGet_below (m : Mem) (x : Nat) (h : ∀ c ∈ m, x < c.1) : memGet m x = 0 := by
  induction m with
  | nil => rfl
  | cons d m ih =>
    obtain ⟨a, b⟩ := d
    have h1 := h (a, b) (by simp)
    unfold memGet
    rw [if_neg (by simp at h1; omega)]
    exact ih fun c hc => h c (List.mem_cons_of_mem _ hc)

/-- A canonical store read after a write: the value written there, and what it held elsewhere. -/
theorem memGet_memPut (m : Mem) (x y : Nat) (v : Byte) (h : Mem.wf m = true) :
    memGet (memPut m x v) y = if x = y then v else memGet m y := by
  induction m with
  | nil =>
    unfold memPut
    split <;> simp_all [memGet]
  | cons d m ih =>
    obtain ⟨a, b⟩ := d
    have h' := (Mem.wf_cons a b m).1 h
    unfold memPut
    split
    · rename_i hx
      have hb : memGet ((a, b) :: m) x = 0 := memGet_below _ _ fun c hc => by
        rcases List.mem_cons.1 hc with hc | hc
        · rw [hc]; exact hx
        · exact Nat.lt_trans hx (h'.2.1 c hc)
      split
      · rename_i hv
        split
        · rename_i hxy; rw [← hxy, hb, hv]
        · rfl
      · simp [memGet]
    · split
      · rename_i hx
        split
        · rename_i hv
          by_cases hxy : x = y
          · rw [if_pos hxy, hv]
            exact memGet_below _ _ fun c hc => by rw [← hxy, hx]; exact h'.2.1 c hc
          · rw [if_neg hxy]
            simp [memGet, ← hx, hxy]
        · simp only [memGet, hx]
          split <;> simp_all
      · rename_i hx hne
        simp only [memGet]
        split
        · rename_i hay
          rw [if_neg (by omega)]
        · exact ih h'.2.2

/-- A write of bytes leaves every address outside them alone. -/
theorem memGet_memPutBytes_outside (m : Mem) (x y : Nat) (bs : List Byte) (h : Mem.wf m = true)
    (hy : y < x ∨ x + bs.length ≤ y) : memGet (memPutBytes m x bs) y = memGet m y := by
  induction bs generalizing m x with
  | nil => rfl
  | cons b bs ih =>
    simp only [List.length_cons] at hy
    show memGet (memPutBytes (memPut m x b) (x + 1) bs) y = _
    rw [ih _ _ (memPut_wf m x b h) (by omega), memGet_memPut m x y b h, if_neg (by omega)]

/-- A write of bytes reads back. -/
theorem memBytes_memPutBytes (m : Mem) (x : Nat) (bs : List Byte) (h : Mem.wf m = true) :
    memBytes (memPutBytes m x bs) x bs.length = bs := by
  induction bs generalizing m x with
  | nil => rfl
  | cons b bs ih =>
    simp only [List.length_cons, memBytes]
    have h1 := memPut_wf m x b h
    refine List.cons_eq_cons.2 ⟨?_, ih _ _ h1⟩
    show memGet (memPutBytes (memPut m x b) (x + 1) bs) x = b
    rw [memGet_memPutBytes_outside _ _ _ _ h1 (by omega), memGet_memPut m x x b h, if_pos rfl]

/-- Bytes away from a write read as before. -/
theorem memBytes_memPutBytes_outside (m : Mem) (x y n : Nat) (bs : List Byte) (h : Mem.wf m = true)
    (hy : y + n ≤ x ∨ x + bs.length ≤ y) : memBytes (memPutBytes m x bs) y n = memBytes m y n := by
  induction n generalizing y with
  | zero => rfl
  | succ n ih =>
    simp only [memBytes]
    rw [ih (y + 1) (by omega), memGet_memPutBytes_outside m x y bs h (by omega)]

end Sys2Proof.Machine
end

