-- ==== Sys2Proof/Laws/Keeps.lean ====
section
/-! SUPPORT. What every operation of the machine keeps: the fuses, the queue, Bedrock's flash block and policy, the
counter C, and the canonical form of every addressed store. `Keeps 0` keeps all of it; `Keeps 1` lets a reset set C; and
`Keeps 2` lets a cold power-on read the policy again. -/

namespace Sys2Proof.Machine

/-- What is fixed of Bedrock. -/
abbrev Bedrock.SameFlash (a b : Bedrock) : Prop := b.flashPolicy = a.flashPolicy
abbrev Bedrock.SamePolicy (a b : Bedrock) : Prop := b.policy = a.policy ∧ b.fallback = a.fallback

/-- `t` keeps of `s` what no command changes. -/
structure Keeps (k : Nat) (s t : State) : Prop where
  pending : t.pending = s.pending
  fuse : t.fuse = s.fuse
  flash : s.br.SameFlash t.br
  policy : k < 2 → s.br.SamePolicy t.br
  count : k < 1 → t.time.c = s.time.c
  dram : Mem.wf s.dram = true → Mem.wf t.dram = true
  slots : Mem.wf s.mbx.slots = true → Mem.wf t.mbx.slots = true
  gate : s.gate.Good → t.gate.Good
  gens : Mem.wf s.ring.gens = true → Mem.wf t.ring.gens = true

theorem Keeps.refl (k : Nat) (s : State) : Keeps k s s :=
  ⟨rfl, rfl, rfl, fun _ => ⟨rfl, rfl⟩, fun _ => rfl, id, id, id, id⟩

theorem Keeps.trans {k : Nat} {a b c : State} (h : Keeps k a b) (g : Keeps k b c) : Keeps k a c where
  pending := g.pending.trans h.pending
  fuse := g.fuse.trans h.fuse
  flash := Eq.trans g.flash h.flash
  policy := fun x => ⟨(g.policy x).1.trans (h.policy x).1, (g.policy x).2.trans (h.policy x).2⟩
  count := fun x => (g.count x).trans (h.count x)
  dram := fun x => g.dram (h.dram x)
  slots := fun x => g.slots (h.slots x)
  gate := fun x => g.gate (h.gate x)
  gens := fun x => g.gens (h.gens x)

/-- A stronger promise gives a weaker one. -/
theorem Keeps.weaken {k j : Nat} {s t : State} (hj : k ≤ j) (h : Keeps k s t) : Keeps j s t where
  pending := h.pending
  fuse := h.fuse
  flash := h.flash
  policy := fun x => h.policy (Nat.lt_of_le_of_lt hj x)
  count := fun x => h.count (Nat.lt_of_le_of_lt hj x)
  dram := h.dram
  slots := h.slots
  gate := h.gate
  gens := h.gens

/-- A record update that leaves the queue and the fuses alone. -/
theorem Keeps.upd {k : Nat} {s0 s : State} {mbx attn route queues host time clk pwr br mem spare dram lane ring img codec
    recs gate out disp aud therm pins draws} (h : Keeps k s0 s)
    (hm : Mem.wf s.mbx.slots = true → Mem.wf mbx.slots = true) (ht : k < 1 → time.c = s.time.c)
    (hf : s.br.SameFlash br) (hb : k < 2 → s.br.SamePolicy br) (hd : Mem.wf s.dram = true → Mem.wf dram = true)
    (hr : Mem.wf s.ring.gens = true → Mem.wf ring.gens = true) (hg : s.gate.Good → gate.Good) :
    Keeps k s0 ⟨s.pending, s.fuse, mbx, attn, route, queues, host, time, clk, pwr, br, mem, spare, dram, lane, ring, img,
      codec, recs, gate, out, disp, aud, therm, pins, draws⟩ :=
  h.trans ⟨rfl, rfl, hf, hb, ht, hd, hm, hg, hr⟩

theorem Keeps.id {k : Nat} {s0 a : State} (h : Keeps k s0 a) : Keeps k s0 (id a) := h

theorem Keeps.ite {k : Nat} {s0 a b : State} {c : Prop} [Decidable c] (ha : Keeps k s0 a) (hb : Keeps k s0 b) :
    Keeps k s0 (if c then a else b) := by
  split
  · exact ha
  · exact hb

/-- An element of a list with one place changed is an old element or the changed one. -/
theorem mem_modAt {α : Type} {l : List α} {i : Nat} {f : α → α} {x : α} (h : x ∈ modAt l i f) :
    x ∈ l ∨ ∃ y ∈ l, f y = x := by
  induction l generalizing i with
  | nil => simp [modAt] at h
  | cons a l ih =>
    cases i with
    | zero =>
      rcases List.mem_cons.mp (by simpa [modAt] using h) with rfl | h
      · exact .inr ⟨a, .head _, rfl⟩
      · exact .inl (.tail _ h)
    | succ i =>
      rcases List.mem_cons.mp (by simpa [modAt] using h) with rfl | h
      · exact .inl (.head _)
      · rcases ih h with h | ⟨y, hy, rfl⟩
        · exact .inl (.tail _ h)
        · exact .inr ⟨y, .tail _ hy, rfl⟩

/-- A change of every port that keeps a canonical drive keeps all drives canonical. -/
theorem disks_map {l : List GatePort} {f : GatePort → GatePort} (hf : ∀ x, Mem.wf x.disk = true → Mem.wf (f x).disk = true)
    (h : ∀ p ∈ l, Mem.wf p.disk = true) : ∀ p ∈ l.map f, Mem.wf p.disk = true := by
  intro p hp
  obtain ⟨q, hq, rfl⟩ := List.mem_map.mp hp
  exact hf q (h q hq)

/-- A change of one port that keeps a canonical drive keeps all drives canonical. -/
theorem disks_modAt {l : List GatePort} {i : Nat} {f : GatePort → GatePort}
    (hf : ∀ x, Mem.wf x.disk = true → Mem.wf (f x).disk = true) (h : ∀ p ∈ l, Mem.wf p.disk = true) :
    ∀ p ∈ modAt l i f, Mem.wf p.disk = true := by
  intro p hp
  rcases mem_modAt hp with hp | ⟨q, hq, rfl⟩
  · exact h p hp
  · exact hf q (h q hq)

/-- A fold of operations that keep. -/
theorem Keeps.foldl {k : Nat} {s0 s : State} {α : Type} {l : List α} {f : State → α → State}
    (hf : ∀ s a, Keeps k s0 s → Keeps k s0 (f s a)) (h : Keeps k s0 s) : Keeps k s0 (l.foldl f s) := by
  induction l generalizing s with
  | nil => exact h
  | cons a l ih => exact ih (hf s a h)

/-- A fold that carries a value beside the state. -/
theorem Keeps.foldl_snd {k : Nat} {s0 : State} {α β : Type} {l : List α} {f : β × State → α → β × State} {x : β × State}
    (hf : ∀ x a, Keeps k s0 x.2 → Keeps k s0 (f x a).2) (h : Keeps k s0 x.2) : Keeps k s0 (l.foldl f x).2 := by
  induction l generalizing x with
  | nil => exact h
  | cons a l ih => exact ih (hf x a h)

theorem Keeps.foldl_fst {k : Nat} {s0 : State} {α β : Type} {l : List α} {f : State × β → α → State × β} {x : State × β}
    (hf : ∀ x a, Keeps k s0 x.1 → Keeps k s0 (f x a).1) (h : Keeps k s0 x.1) : Keeps k s0 (l.foldl f x).1 := by
  induction l generalizing x with
  | nil => exact h
  | cons a l ih => exact ih (hf x a h)

/-- An outcome that is a next state which keeps. -/
def KeepsO (k : Nat) (s : State) (o : Host.Outcome State Fault Refusal) : Prop := ∃ t, o = .next t ∧ Keeps k s t

theorem KeepsO.next {k : Nat} {s t : State} (h : Keeps k s t) : KeepsO k s (.next t) := ⟨t, rfl, h⟩

/-- A card whose effect keeps. -/
def Card.Keeps (k : Nat) (c : Card) : Prop := ∀ n b s0 s, Machine.Keeps k s0 s → Machine.Keeps k s0 (c.effect n b s).1

end Sys2Proof.Machine
end

