-- ==== Sys2Proof/Laws/KeepsHost.lean ====
section
/-! SUPPORT. What the operations of the host ports, the memory controller and the ring engine keep. -/

namespace Sys2Proof.Machine

/-! ## Ops -/

theorem keeps_attnEdge {k : Nat} {s0 b a : State} (h : Keeps k s0 a) : Keeps k s0 (attnEdge b a) := by
  unfold attnEdge
  split
  · exact h.trans ⟨rfl, rfl, rfl, fun _ => ⟨rfl, rfl⟩, fun _ => rfl, id, id, id, id⟩
  · exact h

theorem keeps_attnResend {lv : Nat} {ss0 : State} {s : State} (hK : Keeps lv ss0 s) :
    Keeps lv ss0 (attnResend s) := by
  unfold attnResend
  iterate 40 try any_goals first
    | with_reducible assumption
    | with_reducible exact fun h => h
    | with_reducible exact fun _ => rfl
    | with_reducible exact fun _ => ⟨rfl, rfl⟩
    | with_reducible exact rfl
    | with_reducible apply Keeps.ite
    | with_reducible apply Keeps.upd

theorem keeps_setLeaves {lv : Nat} {ss0 : State} {s : State} {b : Nat} {bits : Reg32} (hK : Keeps lv ss0 s) :
    Keeps lv ss0 (setLeaves s b bits) := by
  unfold setLeaves
  iterate 40 try any_goals first
    | with_reducible assumption
    | with_reducible exact fun h => h
    | with_reducible exact fun _ => rfl
    | with_reducible exact fun _ => ⟨rfl, rfl⟩
    | with_reducible exact rfl
    | with_reducible apply keeps_attnEdge
    | with_reducible apply Keeps.upd

theorem keeps_setLeaf {lv : Nat} {ss0 : State} {s : State} {b : Nat} {bit : Nat} (hK : Keeps lv ss0 s) :
    Keeps lv ss0 (setLeaf s b bit) := by
  unfold setLeaf
  iterate 40 try any_goals with_reducible first | assumption | apply keeps_setLeaves

theorem keeps_postTo {lv : Nat} {ss0 : State} {s : State} {qi : Nat} {r : EvRecord} (hK : Keeps lv ss0 s) :
    Keeps lv ss0 (postTo s qi r) := by
  unfold postTo
  iterate 40 try any_goals first
    | with_reducible assumption
    | with_reducible exact fun h => h
    | with_reducible exact fun _ => rfl
    | with_reducible exact fun _ => ⟨rfl, rfl⟩
    | with_reducible exact rfl
    | with_reducible apply keeps_attnEdge
    | with_reducible apply Keeps.upd

theorem keeps_postEventAt {lv : Nat} {ss0 : State} {s : State} {ts : Nat} {code : Nat} {source : Nat} {payload : List Byte} (hK : Keeps lv ss0 s) :
    Keeps lv ss0 (postEventAt s ts code source payload) := by
  unfold postEventAt
  iterate 40 try any_goals with_reducible first | assumption | apply keeps_postTo

theorem keeps_postEvent {lv : Nat} {ss0 : State} {s : State} {code : Nat} {source : Nat} {payload : List Byte} (hK : Keeps lv ss0 s) :
    Keeps lv ss0 (postEvent s code source payload) := by
  unfold postEvent
  iterate 40 try any_goals with_reducible first | assumption | apply keeps_postEventAt

theorem keeps_postEventS {lv : Nat} {ss0 : State} {s : State} {code : Nat} {source : Nat} {payload : List Byte} (hK : Keeps lv ss0 s) :
    Keeps lv ss0 (postEventS s code source payload) := by
  unfold postEventS
  iterate 40 try any_goals with_reducible first | assumption | apply keeps_postTo

theorem keeps_notify {lv : Nat} {ss0 : State} {s : State} {code : Nat} {source : Nat} {payload : List Byte} {bit : Nat} (hK : Keeps lv ss0 s) :
    Keeps lv ss0 (notify s code source payload bit) := by
  unfold notify
  iterate 40 try any_goals with_reducible first | assumption | apply keeps_setLeaf | apply keeps_postEvent

theorem keeps_postFifo {lv : Nat} {ss0 : State} {s : State} {sn : Nat} {k : Nat} {code : Nat} {ts : Nat} {payload : List Byte} {cont : Bool} (hK : Keeps lv ss0 s) :
    Keeps lv ss0 (postFifo s sn k code ts payload cont) := by
  unfold postFifo
  iterate 40 try any_goals with_reducible first | assumption | apply keeps_postTo

theorem keeps_draw {lv : Nat} {ss0 : State} {s : State} (hK : Keeps lv ss0 s) :
    Keeps lv ss0 ((draw s).2) := by
  unfold draw
  iterate 40 try any_goals first
    | with_reducible assumption
    | with_reducible exact fun h => h
    | with_reducible exact fun _ => rfl
    | with_reducible exact fun _ => ⟨rfl, rfl⟩
    | with_reducible exact rfl
    | with_reducible apply Keeps.upd

theorem keeps_drawBytes {lv : Nat} {ss0 : State} {s : State} {n : Nat} (hK : Keeps lv ss0 s) :
    Keeps lv ss0 ((drawBytes s n).2) := by
  unfold drawBytes
  iterate 40 try any_goals first
    | with_reducible assumption
    | with_reducible exact fun h => h
    | with_reducible exact fun _ => rfl
    | with_reducible exact fun _ => ⟨rfl, rfl⟩
    | with_reducible exact rfl
    | with_reducible apply Keeps.upd

theorem keeps_slotWrite {lv : Nat} {ss0 : State} {s : State} {n : Nat} {off : Nat} {bs : List Byte} (hK : Keeps lv ss0 s) :
    Keeps lv ss0 (slotWrite s n off bs) := by
  unfold slotWrite
  iterate 40 try any_goals first
    | with_reducible assumption
    | with_reducible exact fun h => h
    | with_reducible exact fun _ => rfl
    | with_reducible exact fun _ => ⟨rfl, rfl⟩
    | with_reducible exact rfl
    | with_reducible apply Keeps.upd
    | with_reducible exact memPutBytes_wf _ _ _

theorem keeps_mbxFinish {lv : Nat} {ss0 : State} {s : State} {n : Nat} {status : Nat} {errOff : Nat} {resp : List Byte} (hK : Keeps lv ss0 s) :
    Keeps lv ss0 (mbxFinish s n status errOff resp) := by
  unfold mbxFinish
  iterate 40 try any_goals first
    | with_reducible assumption
    | with_reducible exact fun h => h
    | with_reducible exact fun _ => rfl
    | with_reducible exact fun _ => ⟨rfl, rfl⟩
    | with_reducible exact rfl
    | with_reducible apply keeps_slotWrite
    | with_reducible apply keeps_attnEdge
    | with_reducible apply keeps_postTo
    | with_reducible apply Keeps.ite
    | with_reducible apply Keeps.upd

theorem keeps_mbxOk {lv : Nat} {ss0 : State} {s : State} {n : Nat} {resp : List Byte} (hK : Keeps lv ss0 s) :
    Keeps lv ss0 (mbxOk s n resp) := by
  unfold mbxOk
  iterate 40 try any_goals with_reducible first | assumption | apply keeps_mbxFinish

theorem keeps_mbxReject {lv : Nat} {ss0 : State} {s : State} {n : Nat} {r : Rej} (hK : Keeps lv ss0 s) :
    Keeps lv ss0 (mbxReject s n r) := by
  unfold mbxReject
  iterate 40 try any_goals with_reducible first | assumption | apply keeps_mbxFinish

theorem keeps_mbxRun {k : Nat} {s0 s : State} {c : Card} {n : Nat} (hc : c.Keeps k) (h : Keeps k s0 s) :
    Keeps k s0 (mbxRun c n s) := by
  have h1 := hc n (slotBody s n) s0 s h
  unfold mbxRun
  split
  · split
    · exact keeps_mbxReject h
    · split
      · rename_i heq
        rw [heq] at h1
        exact keeps_mbxOk h1
      · rename_i heq
        rw [heq] at h1
        exact h1.trans ⟨rfl, rfl, rfl, fun _ => ⟨rfl, rfl⟩, fun _ => rfl, id, id, id, id⟩
  · exact h

/-! ## Regs -/

theorem keeps_wake {lv : Nat} {ss0 : State} {s : State} {cause : Nat} (hK : Keeps lv ss0 s) :
    Keeps lv ss0 (wake s cause) := by
  unfold wake
  iterate 40 try any_goals first
    | with_reducible assumption
    | with_reducible exact fun h => h
    | with_reducible exact fun _ => rfl
    | with_reducible exact fun _ => ⟨rfl, rfl⟩
    | with_reducible exact rfl
    | with_reducible apply Keeps.ite
    | split
    | with_reducible apply Keeps.upd

theorem keeps_countLocked {lv : Nat} {ss0 : State} {s : State} (hK : Keeps lv ss0 s) :
    Keeps lv ss0 (countLocked s) := by
  unfold countLocked
  iterate 40 try any_goals first
    | with_reducible assumption
    | with_reducible exact fun h => h
    | with_reducible exact fun _ => rfl
    | with_reducible exact fun _ => ⟨rfl, rfl⟩
    | with_reducible exact rfl
    | with_reducible apply Keeps.upd

theorem keeps_countRingBusy {lv : Nat} {ss0 : State} {s : State} (hK : Keeps lv ss0 s) :
    Keeps lv ss0 (countRingBusy s) := by
  unfold countRingBusy
  iterate 40 try any_goals first
    | with_reducible assumption
    | with_reducible exact fun h => h
    | with_reducible exact fun _ => rfl
    | with_reducible exact fun _ => ⟨rfl, rfl⟩
    | with_reducible exact rfl
    | with_reducible apply Keeps.upd

theorem keeps_slotTake {lv : Nat} {ss0 : State} {s : State} {n : Nat} {v : Nat} (hK : Keeps lv ss0 s) :
    Keeps lv ss0 (slotTake s n v) := by
  unfold slotTake
  iterate 40 try any_goals first
    | with_reducible assumption
    | with_reducible exact fun h => h
    | with_reducible exact fun _ => rfl
    | with_reducible exact fun _ => ⟨rfl, rfl⟩
    | with_reducible exact rfl
    | with_reducible apply keeps_drawBytes
    | with_reducible apply keeps_slotWrite
    | split
    | with_reducible apply Keeps.upd

theorem keeps_earlyReject {lv : Nat} {ss0 : State} {s : State} {n : Nat} (hK : Keeps lv ss0 s) :
    Keeps lv ss0 (earlyReject s n) := by
  unfold earlyReject
  iterate 40 try any_goals with_reducible first | assumption | apply keeps_mbxReject | apply Keeps.ite

theorem keeps_answerUnassigned {lv : Nat} {ss0 : State} {s : State} (hK : Keeps lv ss0 s) :
    Keeps lv ss0 (answerUnassigned s) := by
  unfold answerUnassigned
  try dsimp only
  iterate 40 try any_goals first
    | with_reducible assumption
    | with_reducible exact fun h => h
    | with_reducible exact fun _ h => h
    | with_reducible exact fun _ => rfl
    | with_reducible exact fun _ => ⟨rfl, rfl⟩
    | with_reducible exact rfl
    | with_reducible exact fun _ => Mem.wf_nil
    | (intro _; with_reducible exact memPutBytes_wf _ _ _)
    | with_reducible apply keeps_earlyReject
    | with_reducible apply Keeps.id
    | (with_reducible apply Keeps.foldl; intro _ _ _)
    | (with_reducible apply Keeps.foldl_snd; intro _ _ _)
    | (with_reducible apply Keeps.foldl_fst; intro _ _ _)
    | with_reducible apply Keeps.ite
    | split
    | with_reducible apply Keeps.upd
    | with_reducible exact memPutBytes_wf _ _ _
    | with_reducible exact memPutLE_wf _ _ _ _
    | (intro h; with_reducible exact memPuts_wf h)
    | with_reducible exact memPut_wf _ _ _
    | with_reducible exact memClear_wf _ _ _
    | with_reducible exact memKeep_wf _ _
    | exact fun h => absurd h (by omega)
    | intro _ _
    | dsimp only

theorem keeps_ringDoorbell {lv : Nat} {ss0 : State} {s : State} {port : Port} {n : Nat} {v : Nat} (hK : Keeps lv ss0 s) :
    Keeps lv ss0 (ringDoorbell s port n v) := by
  unfold ringDoorbell
  iterate 40 try any_goals first
    | with_reducible assumption
    | with_reducible apply keeps_countLocked
    | with_reducible apply keeps_countRingBusy
    | with_reducible apply keeps_slotTake
    | with_reducible apply keeps_earlyReject
    | with_reducible apply Keeps.ite

theorem keeps_slotHostWrite {lv : Nat} {ss0 : State} {s : State} {port : Port} {off : Nat} {bs : List Byte} (hK : Keeps lv ss0 s) :
    Keeps lv ss0 (slotHostWrite s port off bs) := by
  unfold slotHostWrite
  iterate 40 try any_goals first
    | with_reducible assumption
    | with_reducible exact fun h => h
    | with_reducible exact fun _ => rfl
    | with_reducible exact fun _ => ⟨rfl, rfl⟩
    | with_reducible exact rfl
    | with_reducible apply keeps_countLocked
    | with_reducible apply Keeps.ite
    | with_reducible apply Keeps.upd
    | with_reducible exact memPutBytes_wf _ _ _

theorem keeps_updQueue {lv : Nat} {ss0 : State} {s : State} {qi : Nat} {f : Queue → Queue} (hK : Keeps lv ss0 s) :
    Keeps lv ss0 (updQueue s qi f) := by
  unfold updQueue
  iterate 40 try any_goals first
    | with_reducible assumption
    | with_reducible exact fun h => h
    | with_reducible exact fun _ => rfl
    | with_reducible exact fun _ => ⟨rfl, rfl⟩
    | with_reducible exact rfl
    | with_reducible apply Keeps.upd

theorem keeps_eqWrite {lv : Nat} {ss0 : State} {s : State} {qi : Nat} {off : Nat} {v : Nat} (hK : Keeps lv ss0 s) :
    Keeps lv ss0 (eqWrite s qi off v) := by
  unfold eqWrite
  iterate 40 try any_goals with_reducible first | assumption | apply keeps_updQueue | apply Keeps.ite

theorem keeps_eqRead {lv : Nat} {ss0 : State} {s : State} {qi : Nat} {off : Nat} (hK : Keeps lv ss0 s) :
    Keeps lv ss0 ((eqRead s qi off).2) := by
  unfold eqRead
  iterate 40 try any_goals with_reducible first | assumption | apply keeps_updQueue | apply Keeps.ite

theorem keeps_clearQueues {lv : Nat} {ss0 : State} {s : State} {base : Nat} {count : Nat} {v : Nat} {f : Queue → Queue} (hK : Keeps lv ss0 s) :
    Keeps lv ss0 (clearQueues s base count v f) := by
  unfold clearQueues
  iterate 40 try any_goals first
    | with_reducible assumption
    | with_reducible exact fun h => h
    | with_reducible exact fun _ => rfl
    | with_reducible exact fun _ => ⟨rfl, rfl⟩
    | with_reducible exact rfl
    | with_reducible apply Keeps.upd

theorem keeps_causeClear {lv : Nat} {ss0 : State} {s : State} {b : Nat} {v : Nat} (hK : Keeps lv ss0 s) :
    Keeps lv ss0 (causeClear s b v) := by
  unfold causeClear
  iterate 40 try any_goals first
    | with_reducible assumption
    | with_reducible exact fun h => h
    | with_reducible exact fun _ => rfl
    | with_reducible exact fun _ => ⟨rfl, rfl⟩
    | with_reducible exact rfl
    | with_reducible apply keeps_clearQueues
    | with_reducible apply Keeps.ite
    | with_reducible apply Keeps.upd

theorem keeps_subCauseClear {lv : Nat} {ss0 : State} {s : State} {sn : Nat} {v : Nat} (hK : Keeps lv ss0 s) :
    Keeps lv ss0 (subCauseClear s sn v) := by
  unfold subCauseClear
  iterate 40 try any_goals with_reducible first | assumption | apply keeps_clearQueues

theorem keeps_doneQClear {lv : Nat} {ss0 : State} {s : State} {v : Nat} (hK : Keeps lv ss0 s) :
    Keeps lv ss0 (doneQClear s v) := by
  unfold doneQClear
  iterate 40 try any_goals first
    | with_reducible assumption
    | with_reducible exact fun h => h
    | with_reducible exact fun _ => rfl
    | with_reducible exact fun _ => ⟨rfl, rfl⟩
    | with_reducible exact rfl
    | with_reducible apply Keeps.upd

theorem keeps_attnStore {lv : Nat} {ss0 : State} {s : State} {off : Nat} {v : Nat} (hK : Keeps lv ss0 s) :
    Keeps lv ss0 (attnStore s off v) := by
  unfold attnStore
  iterate 40 try any_goals first
    | with_reducible assumption
    | with_reducible exact fun h => h
    | with_reducible exact fun _ => rfl
    | with_reducible exact fun _ => ⟨rfl, rfl⟩
    | with_reducible exact rfl
    | with_reducible apply keeps_causeClear
    | with_reducible apply keeps_doneQClear
    | with_reducible apply keeps_subCauseClear
    | with_reducible apply Keeps.ite
    | with_reducible apply Keeps.upd

theorem keeps_attnWrite {lv : Nat} {ss0 : State} {s : State} {off : Nat} {v : Nat} (hK : Keeps lv ss0 s) :
    Keeps lv ss0 (attnWrite s off v) := by
  unfold attnWrite
  iterate 40 try any_goals first
    | with_reducible assumption
    | with_reducible apply keeps_attnEdge
    | with_reducible apply keeps_attnStore
    | with_reducible apply keeps_attnResend
    | with_reducible apply Keeps.ite

theorem keeps_wakeKeyWrite {lv : Nat} {ss0 : State} {s : State} {v : Nat} (hK : Keeps lv ss0 s) :
    Keeps lv ss0 (wakeKeyWrite s v) := by
  unfold wakeKeyWrite
  iterate 40 try any_goals first
    | with_reducible assumption
    | with_reducible exact fun h => h
    | with_reducible exact fun _ => rfl
    | with_reducible exact fun _ => ⟨rfl, rfl⟩
    | with_reducible exact rfl
    | with_reducible apply keeps_wake
    | with_reducible apply Keeps.ite
    | with_reducible apply Keeps.upd

theorem keeps_doorbellWrite {lv : Nat} {ss0 : State} {s : State} {port : Port} {off : Nat} {v : Nat} (hK : Keeps lv ss0 s) :
    Keeps lv ss0 (doorbellWrite s port off v) := by
  unfold doorbellWrite
  iterate 40 try any_goals first
    | with_reducible assumption
    | with_reducible apply keeps_ringDoorbell
    | with_reducible apply keeps_causeClear
    | with_reducible apply keeps_doneQClear
    | with_reducible apply keeps_wakeKeyWrite
    | with_reducible apply Keeps.ite

theorem keeps_postNotice {lv : Nat} {ss0 : State} {s : State} {n : Notice} (hK : Keeps lv ss0 s) :
    Keeps lv ss0 (postNotice s n) := by
  unfold postNotice
  iterate 40 try any_goals first
    | with_reducible assumption
    | with_reducible exact fun h => h
    | with_reducible exact fun _ => rfl
    | with_reducible exact fun _ => ⟨rfl, rfl⟩
    | with_reducible exact rfl
    | with_reducible apply keeps_postEventAt
    | with_reducible apply Keeps.ite
    | with_reducible apply Keeps.upd

theorem keeps_bedrockLeaf {lv : Nat} {ss0 : State} {s : State} {leaf : Nat} {unit : Nat} {entered : Bool} {mv : Nat} {counter : Nat} (hK : Keeps lv ss0 s) :
    Keeps lv ss0 (bedrockLeaf s leaf unit entered mv counter) := by
  unfold bedrockLeaf
  iterate 40 try any_goals with_reducible first | assumption | apply keeps_postNotice | apply keeps_setLeaf

theorem keeps_bedrockWrite {lv : Nat} {ss0 : State} {s : State} (hK : Keeps lv ss0 s) :
    Keeps lv ss0 (bedrockWrite s) := by
  unfold bedrockWrite
  iterate 40 try any_goals first
    | with_reducible assumption
    | with_reducible exact fun h => h
    | with_reducible exact fun _ => rfl
    | with_reducible exact fun _ => ⟨rfl, rfl⟩
    | with_reducible exact rfl
    | with_reducible apply keeps_bedrockLeaf
    | with_reducible apply Keeps.upd

theorem keeps_tbLatch {lv : Nat} {ss0 : State} {s : State} (hK : Keeps lv ss0 s) :
    Keeps lv ss0 (tbLatch s) := by
  unfold tbLatch
  iterate 40 try any_goals first
    | with_reducible assumption
    | with_reducible exact fun h => h
    | with_reducible exact fun _ => rfl
    | with_reducible exact fun _ => ⟨rfl, rfl⟩
    | with_reducible exact rfl
    | split
    | with_reducible apply Keeps.upd

theorem keeps_tbBlockLatch {lv : Nat} {ss0 : State} {s : State} {k : Nat} (hK : Keeps lv ss0 s) :
    Keeps lv ss0 (tbBlockLatch s k) := by
  unfold tbBlockLatch
  iterate 40 try any_goals first
    | with_reducible assumption
    | with_reducible exact fun h => h
    | with_reducible exact fun _ => rfl
    | with_reducible exact fun _ => ⟨rfl, rfl⟩
    | with_reducible exact rfl
    | split
    | with_reducible apply Keeps.upd

theorem keeps_tbTouch {lv : Nat} {ss0 : State} {s : State} {off : Nat} (hK : Keeps lv ss0 s) :
    Keeps lv ss0 (tbTouch s off) := by
  unfold tbTouch
  iterate 40 try any_goals first
    | with_reducible assumption
    | with_reducible apply keeps_tbLatch
    | with_reducible apply keeps_tbBlockLatch
    | with_reducible apply Keeps.ite

theorem keeps_bar0Read4 {lv : Nat} {ss0 : State} {s : State} {addr : Nat} (hK : Keeps lv ss0 s) :
    Keeps lv ss0 ((bar0Read4 s addr).2) := by
  unfold bar0Read4
  iterate 40 try any_goals with_reducible first | assumption | apply keeps_eqRead | apply keeps_tbTouch | split

theorem keeps_bar0Write4 {lv : Nat} {ss0 : State} {s : State} {port : Port} {addr : Nat} {v : Nat} (hK : Keeps lv ss0 s) :
    Keeps lv ss0 (bar0Write4 s port addr v) := by
  unfold bar0Write4
  iterate 40 try any_goals first
    | with_reducible assumption
    | with_reducible apply keeps_doorbellWrite
    | with_reducible apply keeps_slotHostWrite
    | with_reducible apply keeps_attnWrite
    | with_reducible apply keeps_eqWrite
    | with_reducible apply keeps_bedrockWrite
    | with_reducible apply Keeps.ite

theorem keeps_bar0Write {lv : Nat} {ss0 : State} {s : State} {port : Port} {addr : Nat} {bs : List Byte} (hK : Keeps lv ss0 s) :
    Keeps lv ss0 (bar0Write s port addr bs) := by
  unfold bar0Write
  iterate 40 try any_goals first
    | with_reducible assumption
    | with_reducible apply keeps_bar0Write4
    | with_reducible apply keeps_slotHostWrite
    | with_reducible apply Keeps.ite

theorem keeps_bar0Read {lv : Nat} {ss0 : State} {s : State} {addr : Nat} {size : Nat} (hK : Keeps lv ss0 s) :
    Keeps lv ss0 ((bar0Read s addr size).2) := by
  unfold bar0Read
  iterate 40 try any_goals with_reducible first | assumption | apply keeps_bar0Read4 | split

/-! ## Alloc -/

theorem keeps_updChannel {lv : Nat} {ss0 : State} {s : State} {c : Nat} {f : DramChannel → DramChannel} (hK : Keeps lv ss0 s) :
    Keeps lv ss0 (updChannel s c f) := by
  unfold updChannel
  iterate 40 try any_goals first
    | with_reducible assumption
    | with_reducible exact fun h => h
    | with_reducible exact fun _ => rfl
    | with_reducible exact fun _ => ⟨rfl, rfl⟩
    | with_reducible exact rfl
    | with_reducible apply Keeps.upd

theorem keeps_dramWrite {lv : Nat} {ss0 : State} {s : State} {a : Nat} {bs : List Byte} (hK : Keeps lv ss0 s) :
    Keeps lv ss0 (dramWrite s a bs) := by
  unfold dramWrite
  iterate 40 try any_goals first
    | with_reducible assumption
    | with_reducible exact fun h => h
    | with_reducible exact fun _ => rfl
    | with_reducible exact fun _ => ⟨rfl, rfl⟩
    | with_reducible exact rfl
    | with_reducible apply Keeps.upd
    | with_reducible exact memPutBytes_wf _ _ _

theorem keeps_alloc {lv : Nat} {ss0 : State} {s : State} {obj : DramObj} {size : Nat} (hK : Keeps lv ss0 s) :
    Keeps lv ss0 ((alloc s obj size).2) := by
  unfold alloc
  iterate 40 try any_goals first
    | with_reducible assumption
    | with_reducible exact fun h => h
    | with_reducible exact fun _ => rfl
    | with_reducible exact fun _ => ⟨rfl, rfl⟩
    | with_reducible exact rfl
    | split
    | with_reducible apply Keeps.upd

theorem keeps_release {lv : Nat} {ss0 : State} {s : State} {obj : DramObj} (hK : Keeps lv ss0 s) :
    Keeps lv ss0 (release s obj) := by
  unfold release
  iterate 40 try any_goals first
    | with_reducible assumption
    | with_reducible exact fun h => h
    | with_reducible exact fun _ => rfl
    | with_reducible exact fun _ => ⟨rfl, rfl⟩
    | with_reducible exact rfl
    | with_reducible apply Keeps.upd

theorem keeps_spareEvent {lv : Nat} {ss0 : State} {s : State} {e : LedgerEntry} (hK : Keeps lv ss0 s) :
    Keeps lv ss0 (spareEvent s e) := by
  unfold spareEvent
  iterate 40 try any_goals with_reducible first | assumption | apply keeps_notify

theorem keeps_ledgerAppend {lv : Nat} {ss0 : State} {s : State} {e : LedgerEntry} (hK : Keeps lv ss0 s) :
    Keeps lv ss0 (ledgerAppend s e) := by
  unfold ledgerAppend
  try dsimp only
  iterate 40 try any_goals first
    | with_reducible assumption
    | with_reducible exact fun h => h
    | with_reducible exact fun _ h => h
    | with_reducible exact fun _ => rfl
    | with_reducible exact fun _ => ⟨rfl, rfl⟩
    | with_reducible exact rfl
    | with_reducible exact fun _ => Mem.wf_nil
    | (intro _; with_reducible exact memPutBytes_wf _ _ _)
    | with_reducible apply keeps_spareEvent
    | with_reducible apply Keeps.id
    | (with_reducible apply Keeps.foldl; intro _ _ _)
    | (with_reducible apply Keeps.foldl_snd; intro _ _ _)
    | (with_reducible apply Keeps.foldl_fst; intro _ _ _)
    | with_reducible apply Keeps.ite
    | split
    | with_reducible apply Keeps.upd
    | with_reducible exact memPutBytes_wf _ _ _
    | with_reducible exact memPutLE_wf _ _ _ _
    | (intro h; with_reducible exact memPuts_wf h)
    | with_reducible exact memPut_wf _ _ _
    | with_reducible exact memClear_wf _ _ _
    | with_reducible exact memKeep_wf _ _
    | exact fun h => absurd h (by omega)
    | intro _ _
    | dsimp only

theorem keeps_spareRecord {lv : Nat} {ss0 : State} {s : State} {cls : Nat} {event : Nat} {cause : Nat} {index : Nat} {bank : Nat} {detail : Nat} {count : Nat} (hK : Keeps lv ss0 s) :
    Keeps lv ss0 (spareRecord s cls event cause index bank detail count) := by
  unfold spareRecord
  iterate 40 try any_goals with_reducible first | assumption | apply keeps_ledgerAppend | apply keeps_spareEvent

theorem keeps_countSubst {lv : Nat} {ss0 : State} {s : State} {cls : Nat} (hK : Keeps lv ss0 s) :
    Keeps lv ss0 (countSubst s cls) := by
  unfold countSubst
  iterate 40 try any_goals first
    | with_reducible assumption
    | with_reducible exact fun h => h
    | with_reducible exact fun _ => rfl
    | with_reducible exact fun _ => ⟨rfl, rfl⟩
    | with_reducible exact rfl
    | with_reducible apply Keeps.upd

theorem keeps_poisonHandled {lv : Nat} {ss0 : State} {s : State} {addr : Nat} (hK : Keeps lv ss0 s) :
    Keeps lv ss0 (poisonHandled s addr) := by
  unfold poisonHandled
  try dsimp only
  iterate 40 try any_goals first
    | with_reducible assumption
    | with_reducible exact fun h => h
    | with_reducible exact fun _ h => h
    | with_reducible exact fun _ => rfl
    | with_reducible exact fun _ => ⟨rfl, rfl⟩
    | with_reducible exact rfl
    | with_reducible exact fun _ => Mem.wf_nil
    | (intro _; with_reducible exact memPutBytes_wf _ _ _)
    | with_reducible apply keeps_spareEvent
    | with_reducible apply Keeps.id
    | (with_reducible apply Keeps.foldl; intro _ _ _)
    | (with_reducible apply Keeps.foldl_snd; intro _ _ _)
    | (with_reducible apply Keeps.foldl_fst; intro _ _ _)
    | with_reducible apply Keeps.ite
    | split
    | with_reducible apply Keeps.upd
    | with_reducible exact memPutBytes_wf _ _ _
    | with_reducible exact memPutLE_wf _ _ _ _
    | (intro h; with_reducible exact memPuts_wf h)
    | with_reducible exact memPut_wf _ _ _
    | with_reducible exact memClear_wf _ _ _
    | with_reducible exact memKeep_wf _ _
    | exact fun h => absurd h (by omega)
    | intro _ _
    | dsimp only

/-! ## HostPort -/

theorem keeps_execDoorbellRing (port : Port) (n : Fin 40) (value : BitVec 32) (s : State) : KeepsO 0 s (execDoorbellRing port n value s) := by
  unfold execDoorbellRing
  iterate 40 try any_goals first
    | with_reducible apply KeepsO.next
    | with_reducible exact Keeps.refl _ _
    | with_reducible apply keeps_ringDoorbell

theorem keeps_execRegisterWrite (port : Port) (addr : Nat) (data : List Byte) (s : State) : KeepsO 0 s (execRegisterWrite port addr data s) := by
  unfold execRegisterWrite
  iterate 40 try any_goals with_reducible first | apply KeepsO.next | exact Keeps.refl _ _ | apply keeps_bar0Write

theorem keeps_execAttnLeafClear (port : Port) (reg : LeafReg) (value : BitVec 32) (s : State) : KeepsO 0 s (execAttnLeafClear port reg value s) := by
  unfold execAttnLeafClear
  iterate 40 try any_goals with_reducible first | apply KeepsO.next | exact Keeps.refl _ _ | apply keeps_bar0Write4

theorem keeps_execAttnMaskWrite (port : Port) (reg : MaskReg) (value : BitVec 32) (s : State) : KeepsO 0 s (execAttnMaskWrite port reg value s) := by
  unfold execAttnMaskWrite
  iterate 40 try any_goals with_reducible first | apply KeepsO.next | exact Keeps.refl _ _ | apply keeps_bar0Write4

theorem keeps_execWmHitClear (port : Port) (q : Fin 16) (s : State) : KeepsO 0 s (execWmHitClear port q s) := by
  unfold execWmHitClear
  iterate 40 try any_goals with_reducible first | apply KeepsO.next | exact Keeps.refl _ _ | apply keeps_bar0Write4

theorem keeps_execEqPortRead (q : Fin 16) (word : Fin 8) (s : State) : KeepsO 0 s (execEqPortRead q word s) := by
  unfold execEqPortRead
  iterate 40 try any_goals first
    | with_reducible apply KeepsO.next
    | with_reducible exact Keeps.refl _ _
    | with_reducible exact fun h => h
    | with_reducible exact fun _ => rfl
    | with_reducible exact fun _ => ⟨rfl, rfl⟩
    | with_reducible exact rfl
    | with_reducible apply keeps_bar0Read4
    | with_reducible apply Keeps.upd

theorem keeps_execEqMark (port : Port) (q : Fin 16) (s : State) : KeepsO 0 s (execEqMark port q s) := by
  unfold execEqMark
  iterate 40 try any_goals with_reducible first | apply KeepsO.next | exact Keeps.refl _ _ | apply keeps_bar0Write4

theorem keeps_execEqRewind (port : Port) (q : Fin 16) (alsoMark : Bool) (s : State) : KeepsO 0 s (execEqRewind port q alsoMark s) := by
  unfold execEqRewind
  iterate 40 try any_goals with_reducible first | apply KeepsO.next | exact Keeps.refl _ _ | apply keeps_bar0Write4

theorem keeps_execEqRelease (port : Port) (q : Fin 16) (value : BitVec 32) (s : State) : KeepsO 0 s (execEqRelease port q value s) := by
  unfold execEqRelease
  iterate 40 try any_goals with_reducible first | apply KeepsO.next | exact Keeps.refl _ _ | apply keeps_bar0Write4

theorem keeps_execPwrWakeWrite (port : Port) (value : BitVec 32) (s : State) : KeepsO 0 s (execPwrWakeWrite port value s) := by
  unfold execPwrWakeWrite
  iterate 40 try any_goals with_reducible first | apply KeepsO.next | exact Keeps.refl _ _ | apply keeps_bar0Write4

theorem keeps_execTbCountRead (wide : Bool) (s : State) : KeepsO 0 s (execTbCountRead wide s) := by
  unfold execTbCountRead
  iterate 40 try any_goals first
    | with_reducible apply KeepsO.next
    | with_reducible exact Keeps.refl _ _
    | with_reducible exact fun h => h
    | with_reducible exact fun _ => rfl
    | with_reducible exact fun _ => ⟨rfl, rfl⟩
    | with_reducible exact rfl
    | with_reducible apply keeps_bar0Read
    | split
    | with_reducible apply Keeps.upd

theorem keeps_execTbDomainRead (d : Fin 2) (wide : Bool) (s : State) : KeepsO 0 s (execTbDomainRead d wide s) := by
  unfold execTbDomainRead
  iterate 40 try any_goals first
    | with_reducible apply KeepsO.next
    | with_reducible exact Keeps.refl _ _
    | with_reducible exact fun h => h
    | with_reducible exact fun _ => rfl
    | with_reducible exact fun _ => ⟨rfl, rfl⟩
    | with_reducible exact rfl
    | with_reducible apply keeps_bar0Read
    | split
    | with_reducible apply Keeps.upd

theorem keeps_execBedrockWindowWrite (port : Port) (word : BitVec 14) (value : BitVec 32) (s : State) : KeepsO 0 s (execBedrockWindowWrite port word value s) := by
  unfold execBedrockWindowWrite
  iterate 40 try any_goals with_reducible first | apply KeepsO.next | exact Keeps.refl _ _ | apply keeps_bar0Write4

theorem keeps_countBlocked {lv : Nat} {ss0 : State} {s : State} {any : Bool} (hK : Keeps lv ss0 s) :
    Keeps lv ss0 (countBlocked s any) := by
  unfold countBlocked
  iterate 40 try any_goals first
    | with_reducible assumption
    | with_reducible exact fun h => h
    | with_reducible exact fun _ => rfl
    | with_reducible exact fun _ => ⟨rfl, rfl⟩
    | with_reducible exact rfl
    | with_reducible apply keeps_setLeaf
    | with_reducible apply Keeps.ite
    | with_reducible apply Keeps.upd

theorem keeps_bar2Write {lv : Nat} {ss0 : State} {s : State} {off : Nat} {bs : List Byte} (hK : Keeps lv ss0 s) :
    Keeps lv ss0 (bar2Write s off bs) := by
  unfold bar2Write
  iterate 40 try any_goals with_reducible first | assumption | apply keeps_countBlocked | apply keeps_dramWrite

theorem keeps_bar2Read {lv : Nat} {ss0 : State} {s : State} {off : Nat} {n : Nat} (hK : Keeps lv ss0 s) :
    Keeps lv ss0 ((bar2Read s off n).2) := by
  unfold bar2Read
  try dsimp only
  iterate 40 try any_goals first
    | with_reducible assumption
    | with_reducible exact fun h => h
    | with_reducible exact fun _ h => h
    | with_reducible exact fun _ => rfl
    | with_reducible exact fun _ => ⟨rfl, rfl⟩
    | with_reducible exact rfl
    | with_reducible exact fun _ => Mem.wf_nil
    | (intro _; with_reducible exact memPutBytes_wf _ _ _)
    | with_reducible apply keeps_poisonHandled
    | with_reducible apply keeps_countBlocked
    | with_reducible apply Keeps.id
    | (with_reducible apply Keeps.foldl; intro _ _ _)
    | (with_reducible apply Keeps.foldl_snd; intro _ _ _)
    | (with_reducible apply Keeps.foldl_fst; intro _ _ _)
    | with_reducible apply Keeps.ite
    | split
    | with_reducible apply Keeps.upd
    | with_reducible exact memPutBytes_wf _ _ _
    | with_reducible exact memPutLE_wf _ _ _ _
    | (intro h; with_reducible exact memPuts_wf h)
    | with_reducible exact memPut_wf _ _ _
    | with_reducible exact memClear_wf _ _ _
    | with_reducible exact memKeep_wf _ _
    | exact fun h => absurd h (by omega)
    | intro _ _
    | dsimp only

theorem keeps_linkFault {lv : Nat} {ss0 : State} {s : State} {a : Nat} {f : LinkFault} (hK : Keeps lv ss0 s) :
    Keeps lv ss0 (linkFault s a f) := by
  unfold linkFault
  try dsimp only
  iterate 40 try any_goals first
    | with_reducible assumption
    | with_reducible exact fun h => h
    | with_reducible exact fun _ h => h
    | with_reducible exact fun _ => rfl
    | with_reducible exact fun _ => ⟨rfl, rfl⟩
    | with_reducible exact rfl
    | with_reducible exact fun _ => Mem.wf_nil
    | (intro _; with_reducible exact memPutBytes_wf _ _ _)
    | with_reducible apply keeps_updChannel
    | with_reducible apply Keeps.id
    | (with_reducible apply Keeps.foldl; intro _ _ _)
    | (with_reducible apply Keeps.foldl_snd; intro _ _ _)
    | (with_reducible apply Keeps.foldl_fst; intro _ _ _)
    | with_reducible apply Keeps.ite
    | split
    | with_reducible apply Keeps.upd
    | with_reducible exact memPutBytes_wf _ _ _
    | with_reducible exact memPutLE_wf _ _ _ _
    | (intro h; with_reducible exact memPuts_wf h)
    | with_reducible exact memPut_wf _ _ _
    | with_reducible exact memClear_wf _ _ _
    | with_reducible exact memKeep_wf _ _
    | exact fun h => absurd h (by omega)
    | intro _ _
    | dsimp only

theorem keeps_execBar2Access (off : BitVec 32) (access : HostAccess) (ecc : LinkFault) (s : State) : KeepsO 0 s (execBar2Access off access ecc s) := by
  unfold execBar2Access
  iterate 40 try any_goals first
    | with_reducible apply KeepsO.next
    | with_reducible exact Keeps.refl _ _
    | with_reducible exact fun h => h
    | with_reducible exact fun _ => rfl
    | with_reducible exact fun _ => ⟨rfl, rfl⟩
    | with_reducible exact rfl
    | with_reducible apply keeps_bar2Write
    | with_reducible apply keeps_bar2Read
    | with_reducible apply keeps_linkFault
    | split
    | with_reducible apply Keeps.upd

theorem keeps_qspiWriteWord {lv : Nat} {ss0 : State} {s : State} {a : Nat} {w : List Byte} (hK : Keeps lv ss0 s) :
    Keeps lv ss0 (qspiWriteWord s a w) := by
  unfold qspiWriteWord
  iterate 40 try any_goals first
    | with_reducible assumption
    | with_reducible apply keeps_bar0Write
    | with_reducible apply keeps_bar2Write
    | with_reducible apply Keeps.ite

theorem keeps_qspiReadWord {lv : Nat} {ss0 : State} {s : State} {a : Nat} (hK : Keeps lv ss0 s) :
    Keeps lv ss0 ((qspiReadWord s a).2) := by
  unfold qspiReadWord
  iterate 40 try any_goals with_reducible first | assumption | apply keeps_bar0Read | apply keeps_bar2Read | split

theorem keeps_qspiWrite {lv : Nat} {ss0 : State} {stop : Nat} : ∀ {n a : Nat} {bs : List Byte} {s : State},
    Keeps lv ss0 s → Keeps lv ss0 (qspiWrite stop n a bs s) := by
  intro n
  induction n with
  | zero => intro a bs s h; exact h
  | succ n ih =>
    intro a bs s h
    unfold qspiWrite
    split
    · exact h
    · exact ih (keeps_qspiWriteWord h)

theorem keeps_qspiRead {lv : Nat} {ss0 : State} {stop : Nat} : ∀ {n a : Nat} {s : State},
    Keeps lv ss0 s → Keeps lv ss0 (qspiRead stop n a s).2 := by
  intro n
  induction n with
  | zero => intro a s h; exact h
  | succ n ih =>
    intro a s h
    unfold qspiRead
    split
    · exact h
    · exact ih (keeps_qspiReadWord h)

theorem keeps_qspiStatus {lv : Nat} {ss0 : State} {s : State} (hK : Keeps lv ss0 s) :
    Keeps lv ss0 (qspiStatus s) := by
  unfold qspiStatus
  iterate 40 try any_goals first
    | with_reducible assumption
    | with_reducible exact fun h => h
    | with_reducible exact fun _ => rfl
    | with_reducible exact fun _ => ⟨rfl, rfl⟩
    | with_reducible exact rfl
    | with_reducible apply Keeps.upd

theorem keeps_execQspiTransaction (instr : Byte) (addr : BitVec 32) (data : List Byte) (count : Nat) (s : State) : KeepsO 0 s (execQspiTransaction instr addr data count s) := by
  unfold execQspiTransaction
  try dsimp only
  iterate 40 try any_goals first
    | with_reducible apply KeepsO.next
    | with_reducible exact Keeps.refl _ _
    | with_reducible exact fun h => h
    | with_reducible exact fun _ => rfl
    | with_reducible exact fun _ => ⟨rfl, rfl⟩
    | with_reducible exact rfl
    | with_reducible apply keeps_qspiStatus
    | with_reducible apply keeps_qspiWrite
    | with_reducible apply keeps_qspiRead
    | split
    | with_reducible apply Keeps.upd

theorem keeps_execQspiStatusRead (s : State) : KeepsO 0 s (execQspiStatusRead s) := by
  unfold execQspiStatusRead
  iterate 40 try any_goals with_reducible first | apply KeepsO.next | exact Keeps.refl _ _ | apply keeps_qspiStatus

theorem card_evqConfigCard {lv : Nat}  : Card.Keeps lv evqConfigCard := by
  intro n b ss0 s hK
  unfold evqConfigCard
  try dsimp only
  iterate 40 try any_goals first
    | with_reducible assumption
    | with_reducible exact fun h => h
    | with_reducible exact fun _ h => h
    | with_reducible exact fun _ => rfl
    | with_reducible exact fun _ => ⟨rfl, rfl⟩
    | with_reducible exact rfl
    | with_reducible exact fun _ => Mem.wf_nil
    | (intro _; with_reducible exact memPutBytes_wf _ _ _)
    | with_reducible apply keeps_updQueue
    | with_reducible apply Keeps.id
    | (with_reducible apply Keeps.foldl; intro _ _ _)
    | (with_reducible apply Keeps.foldl_snd; intro _ _ _)
    | (with_reducible apply Keeps.foldl_fst; intro _ _ _)
    | with_reducible apply Keeps.ite
    | split
    | with_reducible apply Keeps.upd
    | with_reducible exact memPutBytes_wf _ _ _
    | with_reducible exact memPutLE_wf _ _ _ _
    | (intro h; with_reducible exact memPuts_wf h)
    | with_reducible exact memPut_wf _ _ _
    | with_reducible exact memClear_wf _ _ _
    | with_reducible exact memKeep_wf _ _
    | exact fun h => absurd h (by omega)
    | intro _ _
    | dsimp only

theorem keeps_execEvqConfig (n : Fin 40) (s : State) : KeepsO 0 s (execEvqConfig n s) :=
  .next (keeps_mbxRun card_evqConfigCard (.refl _ _))

theorem card_evqRouteCard {lv : Nat}  : Card.Keeps lv evqRouteCard := by
  intro n b ss0 s hK
  unfold evqRouteCard
  iterate 40 try any_goals first
    | with_reducible assumption
    | with_reducible exact fun h => h
    | with_reducible exact fun _ => rfl
    | with_reducible exact fun _ => ⟨rfl, rfl⟩
    | with_reducible exact rfl
    | with_reducible apply Keeps.upd

theorem keeps_execEvqRoute (n : Fin 40) (s : State) : KeepsO 0 s (execEvqRoute n s) :=
  .next (keeps_mbxRun card_evqRouteCard (.refl _ _))

theorem card_evqResetCard {lv : Nat}  : Card.Keeps lv evqResetCard := by
  intro n b ss0 s hK
  unfold evqResetCard
  iterate 40 try any_goals with_reducible first | assumption | apply keeps_updQueue

theorem keeps_execEvqReset (n : Fin 40) (s : State) : KeepsO 0 s (execEvqReset n s) :=
  .next (keeps_mbxRun card_evqResetCard (.refl _ _))

theorem card_sysIdentifyCard {lv : Nat}  : Card.Keeps lv sysIdentifyCard := by
  intro n b ss0 s hK
  unfold sysIdentifyCard
  iterate 40 try any_goals with_reducible first | assumption

theorem keeps_execSysIdentify (n : Fin 40) (s : State) : KeepsO 0 s (execSysIdentify n s) :=
  .next (keeps_mbxRun card_sysIdentifyCard (.refl _ _))

/-! ## MemCtl -/

theorem keeps_memStatusClear {lv : Nat} {ss0 : State} {s : State} {ch : Nat} (hK : Keeps lv ss0 s) :
    Keeps lv ss0 (memStatusClear s ch) := by
  unfold memStatusClear
  iterate 40 try any_goals first
    | with_reducible assumption
    | with_reducible exact fun h => h
    | with_reducible exact fun _ => rfl
    | with_reducible exact fun _ => ⟨rfl, rfl⟩
    | with_reducible exact rfl
    | with_reducible apply keeps_updChannel
    | with_reducible apply Keeps.upd

theorem card_memStatusCard {lv : Nat}  : Card.Keeps lv memStatusCard := by
  intro n b ss0 s hK
  unfold memStatusCard
  iterate 40 try any_goals with_reducible first | assumption | apply keeps_memStatusClear | apply Keeps.ite

theorem keeps_execMemStatus (n : Fin 40) (s : State) : KeepsO 0 s (execMemStatus n s) :=
  .next (keeps_mbxRun card_memStatusCard (.refl _ _))

theorem card_memApertureCard {lv : Nat}  : Card.Keeps lv memApertureCard := by
  intro n b ss0 s hK
  unfold memApertureCard
  iterate 40 try any_goals first
    | with_reducible assumption
    | with_reducible exact fun h => h
    | with_reducible exact fun _ => rfl
    | with_reducible exact fun _ => ⟨rfl, rfl⟩
    | with_reducible exact rfl
    | with_reducible apply Keeps.upd

theorem keeps_execMemAperture (n : Fin 40) (s : State) : KeepsO 0 s (execMemAperture n s) :=
  .next (keeps_mbxRun card_memApertureCard (.refl _ _))

theorem card_memKeepCard {lv : Nat}  : Card.Keeps lv memKeepCard := by
  intro n b ss0 s hK
  unfold memKeepCard
  iterate 40 try any_goals first
    | with_reducible assumption
    | with_reducible exact fun h => h
    | with_reducible exact fun _ => rfl
    | with_reducible exact fun _ => ⟨rfl, rfl⟩
    | with_reducible exact rfl
    | with_reducible apply Keeps.upd

theorem keeps_execMemKeep (n : Fin 40) (s : State) : KeepsO 0 s (execMemKeep n s) :=
  .next (keeps_mbxRun card_memKeepCard (.refl _ _))

theorem keeps_updRank {lv : Nat} {ss0 : State} {s : State} {ch : Nat} {rank : Nat} {f : Rank → Rank} (hK : Keeps lv ss0 s) :
    Keeps lv ss0 (updRank s ch rank f) := by
  unfold updRank
  iterate 40 try any_goals with_reducible first | assumption | apply keeps_updChannel

theorem keeps_bandChange {lv : Nat} {ss0 : State} {s : State} {ch : Nat} {rank : Nat} {old : Nat} {new : Nat} {code : Nat} (hK : Keeps lv ss0 s) :
    Keeps lv ss0 (bandChange s ch rank old new code) := by
  unfold bandChange
  iterate 40 try any_goals with_reducible first | assumption | apply keeps_notify | apply keeps_updRank

theorem keeps_startPayback {lv : Nat} {ss0 : State} {s : State} {ch : Nat} {rank : Nat} {new : Nat} (hK : Keeps lv ss0 s) :
    Keeps lv ss0 (startPayback s ch rank new) := by
  unfold startPayback
  iterate 40 try any_goals with_reducible first | assumption | apply keeps_updRank

theorem keeps_execMr4Read (ch : Fin 16) (rank : Fin 2) (code : Byte) (band : Fin 3) (s : State) : KeepsO 0 s (execMr4Read ch rank code band s) := by
  unfold execMr4Read
  try dsimp only
  iterate 40 try any_goals first
    | with_reducible apply KeepsO.next
    | with_reducible exact Keeps.refl _ _
    | with_reducible assumption
    | with_reducible exact fun h => h
    | with_reducible exact fun _ h => h
    | with_reducible exact fun _ => rfl
    | with_reducible exact fun _ => ⟨rfl, rfl⟩
    | with_reducible exact rfl
    | with_reducible exact fun _ => Mem.wf_nil
    | (intro _; with_reducible exact memPutBytes_wf _ _ _)
    | with_reducible apply keeps_bandChange
    | with_reducible apply keeps_startPayback
    | with_reducible apply keeps_updRank
    | with_reducible apply Keeps.id
    | (with_reducible apply Keeps.foldl; intro _ _ _)
    | (with_reducible apply Keeps.foldl_snd; intro _ _ _)
    | (with_reducible apply Keeps.foldl_fst; intro _ _ _)
    | with_reducible apply Keeps.ite
    | split
    | with_reducible apply Keeps.upd
    | with_reducible exact memPutBytes_wf _ _ _
    | with_reducible exact memPutLE_wf _ _ _ _
    | (intro h; with_reducible exact memPuts_wf h)
    | with_reducible exact memPut_wf _ _ _
    | with_reducible exact memClear_wf _ _ _
    | with_reducible exact memKeep_wf _ _
    | exact fun h => absurd h (by omega)
    | intro _ _
    | dsimp only

theorem keeps_execRefreshDue (ch : Fin 16) (rank : Fin 2) (waiting : Bool) (issued : Fin 18) (s : State) : KeepsO 0 s (execRefreshDue ch rank waiting issued s) := by
  unfold execRefreshDue
  try dsimp only
  iterate 40 try any_goals first
    | with_reducible apply KeepsO.next
    | with_reducible exact Keeps.refl _ _
    | with_reducible assumption
    | with_reducible exact fun h => h
    | with_reducible exact fun _ h => h
    | with_reducible exact fun _ => rfl
    | with_reducible exact fun _ => ⟨rfl, rfl⟩
    | with_reducible exact rfl
    | with_reducible exact fun _ => Mem.wf_nil
    | (intro _; with_reducible exact memPutBytes_wf _ _ _)
    | with_reducible apply keeps_updRank
    | with_reducible apply Keeps.id
    | (with_reducible apply Keeps.foldl; intro _ _ _)
    | (with_reducible apply Keeps.foldl_snd; intro _ _ _)
    | (with_reducible apply Keeps.foldl_fst; intro _ _ _)
    | with_reducible apply Keeps.ite
    | split
    | with_reducible apply Keeps.upd
    | with_reducible exact memPutBytes_wf _ _ _
    | with_reducible exact memPutLE_wf _ _ _ _
    | (intro h; with_reducible exact memPuts_wf h)
    | with_reducible exact memPut_wf _ _ _
    | with_reducible exact memClear_wf _ _ _
    | with_reducible exact memKeep_wf _ _
    | exact fun h => absurd h (by omega)
    | intro _ _
    | dsimp only

theorem keeps_execPaybackEnd (ch : Fin 16) (rank : Fin 2) (ns : BitVec 32) (s : State) : KeepsO 0 s (execPaybackEnd ch rank ns s) := by
  unfold execPaybackEnd
  try dsimp only
  iterate 40 try any_goals first
    | with_reducible apply KeepsO.next
    | with_reducible exact Keeps.refl _ _
    | with_reducible assumption
    | with_reducible exact fun h => h
    | with_reducible exact fun _ h => h
    | with_reducible exact fun _ => rfl
    | with_reducible exact fun _ => ⟨rfl, rfl⟩
    | with_reducible exact rfl
    | with_reducible exact fun _ => Mem.wf_nil
    | (intro _; with_reducible exact memPutBytes_wf _ _ _)
    | with_reducible apply keeps_updRank
    | with_reducible apply keeps_updChannel
    | with_reducible apply keeps_notify
    | with_reducible apply Keeps.id
    | (with_reducible apply Keeps.foldl; intro _ _ _)
    | (with_reducible apply Keeps.foldl_snd; intro _ _ _)
    | (with_reducible apply Keeps.foldl_fst; intro _ _ _)
    | with_reducible apply Keeps.ite
    | split
    | with_reducible apply Keeps.upd
    | with_reducible exact memPutBytes_wf _ _ _
    | with_reducible exact memPutLE_wf _ _ _ _
    | (intro h; with_reducible exact memPuts_wf h)
    | with_reducible exact memPut_wf _ _ _
    | with_reducible exact memClear_wf _ _ _
    | with_reducible exact memKeep_wf _ _
    | exact fun h => absurd h (by omega)
    | intro _ _
    | dsimp only

theorem keeps_execWriteDrain (ch : Fin 16) (r : ChannelReport) (s : State) : KeepsO 0 s (execWriteDrain ch r s) := by
  unfold execWriteDrain
  try dsimp only
  iterate 40 try any_goals first
    | with_reducible apply KeepsO.next
    | with_reducible exact Keeps.refl _ _
    | with_reducible assumption
    | with_reducible exact fun h => h
    | with_reducible exact fun _ h => h
    | with_reducible exact fun _ => rfl
    | with_reducible exact fun _ => ⟨rfl, rfl⟩
    | with_reducible exact rfl
    | with_reducible exact fun _ => Mem.wf_nil
    | (intro _; with_reducible exact memPutBytes_wf _ _ _)
    | with_reducible apply keeps_updChannel
    | with_reducible apply Keeps.id
    | (with_reducible apply Keeps.foldl; intro _ _ _)
    | (with_reducible apply Keeps.foldl_snd; intro _ _ _)
    | (with_reducible apply Keeps.foldl_fst; intro _ _ _)
    | with_reducible apply Keeps.ite
    | split
    | with_reducible apply Keeps.upd
    | with_reducible exact memPutBytes_wf _ _ _
    | with_reducible exact memPutLE_wf _ _ _ _
    | (intro h; with_reducible exact memPuts_wf h)
    | with_reducible exact memPut_wf _ _ _
    | with_reducible exact memClear_wf _ _ _
    | with_reducible exact memKeep_wf _ _
    | exact fun h => absurd h (by omega)
    | intro _ _
    | dsimp only

theorem keeps_execDqOscRead (ch : Fin 16) (rank : Fin 2) (osc : DqReading) (s : State) : KeepsO 0 s (execDqOscRead ch rank osc s) := by
  unfold execDqOscRead
  try dsimp only
  iterate 40 try any_goals first
    | with_reducible apply KeepsO.next
    | with_reducible exact Keeps.refl _ _
    | with_reducible assumption
    | with_reducible exact fun h => h
    | with_reducible exact fun _ h => h
    | with_reducible exact fun _ => rfl
    | with_reducible exact fun _ => ⟨rfl, rfl⟩
    | with_reducible exact rfl
    | with_reducible exact fun _ => Mem.wf_nil
    | (intro _; with_reducible exact memPutBytes_wf _ _ _)
    | with_reducible apply keeps_updChannel
    | with_reducible apply Keeps.id
    | (with_reducible apply Keeps.foldl; intro _ _ _)
    | (with_reducible apply Keeps.foldl_snd; intro _ _ _)
    | (with_reducible apply Keeps.foldl_fst; intro _ _ _)
    | with_reducible apply Keeps.ite
    | split
    | with_reducible apply Keeps.upd
    | with_reducible exact memPutBytes_wf _ _ _
    | with_reducible exact memPutLE_wf _ _ _ _
    | (intro h; with_reducible exact memPuts_wf h)
    | with_reducible exact memPut_wf _ _ _
    | with_reducible exact memClear_wf _ _ _
    | with_reducible exact memKeep_wf _ _
    | exact fun h => absurd h (by omega)
    | intro _ _
    | dsimp only

theorem keeps_remapEvent {lv : Nat} {ss0 : State} {s : State} {ch : Nat} {r : DramRow} {full : Bool} (hK : Keeps lv ss0 s) :
    Keeps lv ss0 (remapEvent s ch r full) := by
  unfold remapEvent
  iterate 40 try any_goals with_reducible first | assumption | apply keeps_notify

theorem keeps_queueRow {lv : Nat} {ss0 : State} {s : State} {ch : Nat} {r : DramRow} (hK : Keeps lv ss0 s) :
    Keeps lv ss0 (queueRow s ch r) := by
  unfold queueRow
  try dsimp only
  iterate 40 try any_goals first
    | with_reducible assumption
    | with_reducible exact fun h => h
    | with_reducible exact fun _ h => h
    | with_reducible exact fun _ => rfl
    | with_reducible exact fun _ => ⟨rfl, rfl⟩
    | with_reducible exact rfl
    | with_reducible exact fun _ => Mem.wf_nil
    | (intro _; with_reducible exact memPutBytes_wf _ _ _)
    | with_reducible apply keeps_remapEvent
    | with_reducible apply keeps_updChannel
    | with_reducible apply keeps_retire
    | with_reducible apply Keeps.id
    | (with_reducible apply Keeps.foldl; intro _ _ _)
    | (with_reducible apply Keeps.foldl_snd; intro _ _ _)
    | (with_reducible apply Keeps.foldl_fst; intro _ _ _)
    | with_reducible apply Keeps.ite
    | split
    | with_reducible apply Keeps.upd
    | with_reducible exact memPutBytes_wf _ _ _
    | with_reducible exact memPutLE_wf _ _ _ _
    | (intro h; with_reducible exact memPuts_wf h)
    | with_reducible exact memPut_wf _ _ _
    | with_reducible exact memClear_wf _ _ _
    | with_reducible exact memKeep_wf _ _
    | exact fun h => absurd h (by omega)
    | intro _ _
    | dsimp only

theorem keeps_execScrubReport (ch : Fin 16) (rank : Fin 2) (bank : Nat) (row : Nat) (corrections : BitVec 32) (s : State) : KeepsO 0 s (execScrubReport ch rank bank row corrections s) := by
  unfold execScrubReport
  try dsimp only
  iterate 40 try any_goals first
    | with_reducible apply KeepsO.next
    | with_reducible exact Keeps.refl _ _
    | with_reducible assumption
    | with_reducible exact fun h => h
    | with_reducible exact fun _ h => h
    | with_reducible exact fun _ => rfl
    | with_reducible exact fun _ => ⟨rfl, rfl⟩
    | with_reducible exact rfl
    | with_reducible exact fun _ => Mem.wf_nil
    | (intro _; with_reducible exact memPutBytes_wf _ _ _)
    | with_reducible apply keeps_updChannel
    | with_reducible apply keeps_queueRow
    | with_reducible apply Keeps.id
    | (with_reducible apply Keeps.foldl; intro _ _ _)
    | (with_reducible apply Keeps.foldl_snd; intro _ _ _)
    | (with_reducible apply Keeps.foldl_fst; intro _ _ _)
    | with_reducible apply Keeps.ite
    | split
    | with_reducible apply Keeps.upd
    | with_reducible exact memPutBytes_wf _ _ _
    | with_reducible exact memPutLE_wf _ _ _ _
    | (intro h; with_reducible exact memPuts_wf h)
    | with_reducible exact memPut_wf _ _ _
    | with_reducible exact memClear_wf _ _ _
    | with_reducible exact memKeep_wf _ _
    | exact fun h => absurd h (by omega)
    | intro _ _
    | dsimp only

theorem keeps_rowsCheck {lv : Nat} {ss0 : State} {s : State} (hK : Keeps lv ss0 s) :
    Keeps lv ss0 (rowsCheck s) := by
  unfold rowsCheck
  try dsimp only
  iterate 40 try any_goals first
    | with_reducible assumption
    | with_reducible exact fun h => h
    | with_reducible exact fun _ h => h
    | with_reducible exact fun _ => rfl
    | with_reducible exact fun _ => ⟨rfl, rfl⟩
    | with_reducible exact rfl
    | with_reducible exact fun _ => Mem.wf_nil
    | (intro _; with_reducible exact memPutBytes_wf _ _ _)
    | with_reducible apply keeps_setLeaf
    | with_reducible apply Keeps.id
    | (with_reducible apply Keeps.foldl; intro _ _ _)
    | (with_reducible apply Keeps.foldl_snd; intro _ _ _)
    | (with_reducible apply Keeps.foldl_fst; intro _ _ _)
    | with_reducible apply Keeps.ite
    | split
    | with_reducible apply Keeps.upd
    | with_reducible exact memPutBytes_wf _ _ _
    | with_reducible exact memPutLE_wf _ _ _ _
    | (intro h; with_reducible exact memPuts_wf h)
    | with_reducible exact memPut_wf _ _ _
    | with_reducible exact memClear_wf _ _ _
    | with_reducible exact memKeep_wf _ _
    | exact fun h => absurd h (by omega)
    | intro _ _
    | dsimp only

theorem keeps_execRowRemapDone (ch : Fin 16) (flash : Bool) (s : State) : KeepsO 0 s (execRowRemapDone ch flash s) := by
  unfold execRowRemapDone
  try dsimp only
  iterate 40 try any_goals first
    | with_reducible apply KeepsO.next
    | with_reducible exact Keeps.refl _ _
    | with_reducible assumption
    | with_reducible exact fun h => h
    | with_reducible exact fun _ h => h
    | with_reducible exact fun _ => rfl
    | with_reducible exact fun _ => ⟨rfl, rfl⟩
    | with_reducible exact rfl
    | with_reducible exact fun _ => Mem.wf_nil
    | (intro _; with_reducible exact memPutBytes_wf _ _ _)
    | with_reducible apply keeps_retire
    | with_reducible apply keeps_remapEvent
    | with_reducible apply keeps_updChannel
    | with_reducible apply keeps_countSubst
    | with_reducible apply keeps_rowsCheck
    | with_reducible apply keeps_spareRecord
    | with_reducible apply Keeps.id
    | (with_reducible apply Keeps.foldl; intro _ _ _)
    | (with_reducible apply Keeps.foldl_snd; intro _ _ _)
    | (with_reducible apply Keeps.foldl_fst; intro _ _ _)
    | with_reducible apply Keeps.ite
    | split
    | with_reducible apply Keeps.upd
    | with_reducible exact memPutBytes_wf _ _ _
    | with_reducible exact memPutLE_wf _ _ _ _
    | (intro h; with_reducible exact memPuts_wf h)
    | with_reducible exact memPut_wf _ _ _
    | with_reducible exact memClear_wf _ _ _
    | with_reducible exact memKeep_wf _ _
    | exact fun h => absurd h (by omega)
    | intro _ _
    | dsimp only

/-! ## RingOps -/

theorem keeps_updRing {lv : Nat} {ss0 s : State} {f : Ring → Ring} (hK : Keeps lv ss0 s)
    (hf : Mem.wf s.ring.gens = true → Mem.wf (f s.ring).gens = true) : Keeps lv ss0 (updRing s f) :=
  hK.upd id (fun _ => rfl) rfl (fun _ => ⟨rfl, rfl⟩) id hf id

theorem keeps_updPort {lv : Nat} {ss0 : State} {s : State} {q : Nat} {f : RingPort → RingPort} (hK : Keeps lv ss0 s) :
    Keeps lv ss0 (updPort s q f) := by
  unfold updPort
  iterate 40 try any_goals first
    | with_reducible assumption
    | with_reducible exact fun h => h
    | with_reducible exact fun _ => rfl
    | with_reducible exact fun _ => ⟨rfl, rfl⟩
    | with_reducible exact rfl
    | with_reducible apply Keeps.upd

theorem keeps_updSlot {lv : Nat} {ss0 : State} {s : State} {k : Nat} {f : RingSlot → RingSlot} (hK : Keeps lv ss0 s) :
    Keeps lv ss0 (updSlot s k f) := by
  unfold updSlot
  iterate 40 try any_goals first
    | with_reducible assumption
    | with_reducible exact fun h => h
    | with_reducible exact fun _ => rfl
    | with_reducible exact fun _ => ⟨rfl, rfl⟩
    | with_reducible exact rfl
    | with_reducible apply Keeps.upd

theorem keeps_stampRx {lv : Nat} {ss0 : State} {s : State} {p : Nat} {raw : Nat} (hK : Keeps lv ss0 s) :
    Keeps lv ss0 ((stampRx s p raw).2) := by
  unfold stampRx
  iterate 40 try any_goals first
    | with_reducible assumption
    | with_reducible exact fun h => h
    | with_reducible exact fun _ => rfl
    | with_reducible exact fun _ => ⟨rfl, rfl⟩
    | with_reducible exact rfl
    | with_reducible apply Keeps.upd

theorem keeps_stampTx {lv : Nat} {ss0 : State} {s : State} {p : Nat} {raw : Nat} (hK : Keeps lv ss0 s) :
    Keeps lv ss0 ((stampTx s p raw).2) := by
  unfold stampTx
  iterate 40 try any_goals first
    | with_reducible assumption
    | with_reducible exact fun h => h
    | with_reducible exact fun _ => rfl
    | with_reducible exact fun _ => ⟨rfl, rfl⟩
    | with_reducible exact rfl
    | with_reducible apply Keeps.upd

theorem keeps_countDropped {lv : Nat} {ss0 : State} {s : State} {q : Nat} (hK : Keeps lv ss0 s) :
    Keeps lv ss0 (countDropped s q) := by
  unfold countDropped
  iterate 40 try any_goals with_reducible first | assumption | apply keeps_updPort

theorem keeps_queueFrame {lv : Nat} {ss0 : State} {s : State} {q : Nat} {f : Frame} (hK : Keeps lv ss0 s) :
    Keeps lv ss0 (queueFrame s q f) := by
  unfold queueFrame
  iterate 40 try any_goals with_reducible first | assumption | apply keeps_updPort

theorem keeps_enqueueAt {lv : Nat} {ss0 : State} {s : State} {q : Nat} {f : Frame} (hK : Keeps lv ss0 s) :
    Keeps lv ss0 (enqueueAt s q f) := by
  unfold enqueueAt
  iterate 40 try any_goals first
    | with_reducible assumption
    | with_reducible apply keeps_queueFrame
    | with_reducible apply keeps_countDropped
    | with_reducible apply keeps_updPort
    | with_reducible apply Keeps.ite
    | split

theorem keeps_sendFrame {lv : Nat} {ss0 : State} {s : State} {f : Frame} (hK : Keeps lv ss0 s) :
    Keeps lv ss0 (sendFrame s f) := by
  unfold sendFrame
  iterate 40 try any_goals first
    | with_reducible assumption
    | with_reducible exact fun h => h
    | with_reducible apply keeps_updRing
    | with_reducible apply keeps_enqueueAt
    | with_reducible apply keeps_countDropped
    | with_reducible apply Keeps.ite
    | split

theorem keeps_stampTransit {lv : Nat} {ss0 : State} {s : State} {q : Nat} {f : Frame} (hK : Keeps lv ss0 s) :
    Keeps lv ss0 ((stampTransit s q f).2) := by
  unfold stampTransit
  iterate 40 try any_goals with_reducible first | assumption | apply keeps_draw | apply keeps_stampRx | split

theorem keeps_frameArrived {lv : Nat} {ss0 : State} {s : State} {q : Nat} {f : Frame} (hK : Keeps lv ss0 s) :
    Keeps lv ss0 (frameArrived s q f) := by
  unfold frameArrived
  try dsimp only
  iterate 40 try any_goals first
    | with_reducible assumption
    | with_reducible exact fun h => h
    | with_reducible apply keeps_countDropped
    | with_reducible apply keeps_updRing
    | with_reducible apply keeps_updPort
    | with_reducible apply keeps_stampTransit
    | with_reducible apply keeps_enqueueAt
    | with_reducible apply Keeps.ite
    | split

theorem keeps_growFrame {lv : Nat} {ss0 : State} {s : State} {key : Nat × Nat} {new : Frame} (hK : Keeps lv ss0 s) :
    Keeps lv ss0 (growFrame s key new) := by
  unfold growFrame
  iterate 40 try any_goals with_reducible first | assumption | exact fun h => h | apply keeps_updRing

theorem keeps_flintDisarm {lv : Nat} {ss0 : State} {s : State} (hK : Keeps lv ss0 s) :
    Keeps lv ss0 (flintDisarm s) := by
  unfold flintDisarm
  iterate 40 try any_goals first
    | with_reducible assumption
    | with_reducible exact fun h => h
    | with_reducible apply keeps_notify
    | with_reducible apply keeps_updRing

theorem keeps_injectUnit {lv : Nat} {ss0 : State} {s : State} {k : Nat} (hK : Keeps lv ss0 s) :
    Keeps lv ss0 ((injectUnit s k).2) := by
  unfold injectUnit
  iterate 40 try any_goals first
    | with_reducible assumption
    | with_reducible exact fun h => h
    | with_reducible exact fun _ => rfl
    | with_reducible exact fun _ => ⟨rfl, rfl⟩
    | with_reducible exact rfl
    | with_reducible apply keeps_notify
    | with_reducible apply Keeps.ite
    | split
    | with_reducible apply Keeps.upd

theorem keeps_putFlit {lv : Nat} {ss0 : State} {s : State} {q : Nat} {bytes : List Byte} {isData : Bool} (hK : Keeps lv ss0 s) :
    Keeps lv ss0 (putFlit s q bytes isData) := by
  unfold putFlit
  iterate 40 try any_goals first
    | with_reducible assumption
    | with_reducible apply keeps_updPort
    | with_reducible apply keeps_injectUnit
    | with_reducible apply Keeps.ite

theorem keeps_sendFlit {lv : Nat} {ss0 : State} {s : State} {q : Nat} {fctl : Nat} {fseq : Nat} {payload : List Byte} {isData : Bool} (hK : Keeps lv ss0 s) :
    Keeps lv ss0 (sendFlit s q fctl fseq payload isData) := by
  unfold sendFlit
  iterate 40 try any_goals with_reducible first | assumption | apply keeps_updPort | apply keeps_putFlit

theorem keeps_startReplay {lv : Nat} {ss0 : State} {s : State} {q : Nat} (hK : Keeps lv ss0 s) :
    Keeps lv ss0 (startReplay s q) := by
  unfold startReplay
  iterate 40 try any_goals with_reducible first | assumption | apply keeps_updPort

theorem keeps_sendNew {lv : Nat} {ss0 : State} {s : State} {q : Nat} {h : HeldFlit} (hK : Keeps lv ss0 s) :
    Keeps lv ss0 (sendNew s q h) := by
  unfold sendNew
  iterate 40 try any_goals with_reducible first | assumption | apply keeps_updPort | apply keeps_sendFlit

theorem keeps_frameLeaves {lv : Nat} {ss0 : State} {s : State} {q : Nat} {f : Frame} (hK : Keeps lv ss0 s) :
    Keeps lv ss0 ((frameLeaves s q f).2) := by
  unfold frameLeaves
  try dsimp only
  iterate 40 try any_goals first
    | with_reducible assumption
    | with_reducible exact fun h => h
    | with_reducible exact fun _ h => h
    | with_reducible exact fun _ => rfl
    | with_reducible exact fun _ => ⟨rfl, rfl⟩
    | with_reducible exact rfl
    | with_reducible exact fun _ => Mem.wf_nil
    | (intro _; with_reducible exact memPutBytes_wf _ _ _)
    | with_reducible apply keeps_draw
    | with_reducible apply keeps_stampTx
    | with_reducible apply Keeps.id
    | (with_reducible apply Keeps.foldl; intro _ _ _)
    | (with_reducible apply Keeps.foldl_snd; intro _ _ _)
    | (with_reducible apply Keeps.foldl_fst; intro _ _ _)
    | with_reducible apply Keeps.ite
    | split
    | with_reducible apply Keeps.upd
    | with_reducible exact memPutBytes_wf _ _ _
    | with_reducible exact memPutLE_wf _ _ _ _
    | (intro h; with_reducible exact memPuts_wf h)
    | with_reducible exact memPut_wf _ _ _
    | with_reducible exact memClear_wf _ _ _
    | with_reducible exact memKeep_wf _ _
    | exact fun h => absurd h (by omega)
    | intro _ _
    | dsimp only

theorem keeps_startFrame {lv : Nat} {ss0 : State} {s : State} {q : Nat} {vc : Nat} {f : Frame} (hK : Keeps lv ss0 s) :
    Keeps lv ss0 (startFrame s q vc f) := by
  unfold startFrame
  iterate 40 try any_goals with_reducible first | assumption | apply keeps_frameLeaves | apply keeps_updPort

theorem keeps_loadFlits {lv : Nat} {ss0 : State} {s : State} {q : Nat} (hK : Keeps lv ss0 s) :
    Keeps lv ss0 (loadFlits s q) := by
  unfold loadFlits
  iterate 40 try any_goals first
    | with_reducible assumption
    | with_reducible apply keeps_startFrame
    | with_reducible apply keeps_updPort
    | with_reducible apply Keeps.ite
    | split

theorem keeps_transmit {lv : Nat} {ss0 : State} {s : State} {q : Nat} (hK : Keeps lv ss0 s) :
    Keeps lv ss0 (transmit s q) := by
  unfold transmit
  try dsimp only
  iterate 40 try any_goals first
    | with_reducible assumption
    | with_reducible exact fun h => h
    | with_reducible exact fun _ h => h
    | with_reducible exact fun _ => rfl
    | with_reducible exact fun _ => ⟨rfl, rfl⟩
    | with_reducible exact rfl
    | with_reducible exact fun _ => Mem.wf_nil
    | (intro _; with_reducible exact memPutBytes_wf _ _ _)
    | with_reducible apply keeps_updPort
    | with_reducible apply keeps_sendFlit
    | with_reducible apply keeps_loadFlits
    | with_reducible apply keeps_sendNew
    | with_reducible apply Keeps.id
    | (with_reducible apply Keeps.foldl; intro _ _ _)
    | (with_reducible apply Keeps.foldl_snd; intro _ _ _)
    | (with_reducible apply Keeps.foldl_fst; intro _ _ _)
    | with_reducible apply Keeps.ite
    | split
    | with_reducible apply Keeps.upd
    | with_reducible exact memPutBytes_wf _ _ _
    | with_reducible exact memPutLE_wf _ _ _ _
    | (intro h; with_reducible exact memPuts_wf h)
    | with_reducible exact memPut_wf _ _ _
    | with_reducible exact memClear_wf _ _ _
    | with_reducible exact memKeep_wf _ _
    | exact fun h => absurd h (by omega)
    | intro _ _
    | dsimp only

theorem keeps_ringPortEvent {lv : Nat} {ss0 : State} {s : State} {q : Nat} {what : Nat} {cause : Nat} {wrapped : Nat} (hK : Keeps lv ss0 s) :
    Keeps lv ss0 (ringPortEvent s q what cause wrapped) := by
  unfold ringPortEvent
  iterate 40 try any_goals with_reducible first | assumption | apply keeps_notify

theorem keeps_ringBreakEvent {lv : Nat} {ss0 : State} {s : State} {k : Nat} {heal : Bool} {p : Nat} (hK : Keeps lv ss0 s) :
    Keeps lv ss0 (ringBreakEvent s k heal p) := by
  unfold ringBreakEvent
  iterate 40 try any_goals with_reducible first | assumption | apply keeps_notify | split

theorem keeps_sendNotice {lv : Nat} {ss0 : State} {s : State} {k : Nat} {heal : Bool} {p : Nat} (hK : Keeps lv ss0 s) :
    Keeps lv ss0 (sendNotice s k heal p) := by
  unfold sendNotice
  iterate 40 try any_goals with_reducible first | assumption | apply keeps_queueFrame | apply Keeps.ite | split

theorem keeps_recordBreak {lv : Nat} {ss0 : State} {s : State} {k : Nat} {heal : Bool} {p : Nat} (hK : Keeps lv ss0 s) :
    Keeps lv ss0 (recordBreak s k heal p) := by
  unfold recordBreak
  iterate 40 try any_goals first
    | with_reducible assumption
    | with_reducible apply keeps_updSlot
    | with_reducible apply keeps_ringBreakEvent
    | with_reducible apply Keeps.ite
    | split

theorem keeps_endBreak {lv : Nat} {ss0 : State} {s : State} {q : Nat} {heal : Bool} (hK : Keeps lv ss0 s) :
    Keeps lv ss0 (endBreak s q heal) := by
  unfold endBreak
  iterate 40 try any_goals first
    | with_reducible assumption
    | with_reducible apply keeps_sendNotice
    | with_reducible apply keeps_recordBreak
    | split

theorem keeps_abortPartial {lv : Nat} {ss0 : State} {s : State} {q : Nat} {vc : Nat} {b : List Byte} (hK : Keeps lv ss0 s) :
    Keeps lv ss0 (abortPartial s q vc b) := by
  unfold abortPartial
  iterate 40 try any_goals first
    | with_reducible assumption
    | with_reducible apply keeps_growFrame
    | with_reducible apply keeps_updPort
    | with_reducible apply Keeps.ite

theorem keeps_linkFail {lv : Nat} {ss0 : State} {s : State} {q : Nat} {cause : Nat} (hK : Keeps lv ss0 s) :
    Keeps lv ss0 (linkFail s q cause) := by
  unfold linkFail
  iterate 40 try any_goals first
    | with_reducible assumption
    | with_reducible apply keeps_updPort
    | with_reducible apply keeps_ringPortEvent
    | with_reducible apply keeps_endBreak
    | with_reducible apply keeps_enqueueAt
    | with_reducible apply keeps_abortPartial
    | (with_reducible apply Keeps.foldl; intro _ _ _)
    | with_reducible apply Keeps.ite

theorem keeps_linkLanesUp {lv : Nat} {ss0 : State} {s : State} {q : Nat} {version : Nat} (hK : Keeps lv ss0 s) :
    Keeps lv ss0 (linkLanesUp s q version) := by
  unfold linkLanesUp
  iterate 40 try any_goals with_reducible first | assumption | apply keeps_updPort

theorem keeps_linkLanesDown {lv : Nat} {ss0 : State} {s : State} {q : Nat} {cause : Nat} (hK : Keeps lv ss0 s) :
    Keeps lv ss0 (linkLanesDown s q cause) := by
  unfold linkLanesDown
  iterate 40 try any_goals with_reducible first | assumption | apply keeps_linkFail | apply keeps_updPort

theorem keeps_takeAck {lv : Nat} {ss0 : State} {s : State} {q : Nat} {ack : Nat} {c0 : Nat} {c1 : Nat} {nak : Bool} (hK : Keeps lv ss0 s) :
    Keeps lv ss0 (takeAck s q ack c0 c1 nak) := by
  unfold takeAck
  iterate 40 try any_goals first
    | with_reducible assumption
    | with_reducible apply keeps_updPort
    | with_reducible apply keeps_startReplay
    | with_reducible apply Keeps.ite

theorem keeps_setAsm {lv : Nat} {ss0 : State} {s : State} {q : Nat} {vc : Nat} {v : List Byte} (hK : Keeps lv ss0 s) :
    Keeps lv ss0 (setAsm s q vc v) := by
  unfold setAsm
  iterate 40 try any_goals with_reducible first | assumption | apply keeps_updPort

theorem keeps_freeWaiting {lv : Nat} {ss0 : State} {s : State} {q : Nat} (hK : Keeps lv ss0 s) :
    Keeps lv ss0 (freeWaiting s q) := by
  unfold freeWaiting
  iterate 40 try any_goals with_reducible first | assumption | apply keeps_updPort

theorem keeps_endFrame {lv : Nat} {ss0 : State} {s : State} {q : Nat} {b : List Byte} {ab : Bool} (hK : Keeps lv ss0 s) :
    Keeps lv ss0 (endFrame s q b ab) := by
  unfold endFrame
  iterate 40 try any_goals first
    | with_reducible assumption
    | with_reducible apply keeps_freeWaiting
    | with_reducible apply keeps_updPort
    | with_reducible apply keeps_frameArrived
    | with_reducible apply Keeps.ite
    | split

theorem keeps_takeData {lv : Nat} {ss0 : State} {s : State} {q : Nat} {vc : Nat} {sof : Bool} {eof : Bool} {ab : Bool} {bs : List Byte} (hK : Keeps lv ss0 s) :
    Keeps lv ss0 (takeData s q vc sof eof ab bs) := by
  unfold takeData
  iterate 40 try any_goals first
    | with_reducible assumption
    | with_reducible apply keeps_abortPartial
    | with_reducible apply keeps_setAsm
    | with_reducible apply keeps_endFrame
    | with_reducible apply keeps_frameArrived
    | with_reducible apply keeps_growFrame
    | with_reducible apply Keeps.ite

theorem keeps_discardFlit {lv : Nat} {ss0 : State} {s : State} {q : Nat} {bad : Bool} (hK : Keeps lv ss0 s) :
    Keeps lv ss0 (discardFlit s q bad) := by
  unfold discardFlit
  iterate 40 try any_goals with_reducible first | assumption | apply keeps_updPort

theorem keeps_dropHolds {lv : Nat} {ss0 : State} {s : State} {q : Nat} (hK : Keeps lv ss0 s) :
    Keeps lv ss0 (dropHolds s q) := by
  unfold dropHolds
  iterate 40 try any_goals with_reducible first | assumption | exact fun h => h | apply keeps_updRing

theorem keeps_takeInit {lv : Nat} {ss0 : State} {s : State} {q : Nat} {c0 : Nat} {c1 : Nat} (hK : Keeps lv ss0 s) :
    Keeps lv ss0 (takeInit s q c0 c1) := by
  unfold takeInit
  try dsimp only
  iterate 40 try any_goals first
    | with_reducible assumption
    | with_reducible apply keeps_updPort
    | with_reducible apply keeps_ringPortEvent
    | with_reducible apply keeps_dropHolds
    | with_reducible apply keeps_endBreak
    | with_reducible apply Keeps.ite
    | split

theorem keeps_updFlow {lv : Nat} {ss0 : State} {s : State} {f : Nat} {g : Flow → Flow} (hK : Keeps lv ss0 s) :
    Keeps lv ss0 (updFlow s f g) := by
  unfold updFlow
  iterate 40 try any_goals first
    | with_reducible assumption
    | with_reducible exact fun h => h
    | with_reducible exact fun _ => rfl
    | with_reducible exact fun _ => ⟨rfl, rfl⟩
    | with_reducible exact rfl
    | with_reducible apply Keeps.upd

theorem keeps_receiveFlit {lv : Nat} {ss0 : State} {s : State} {q : Nat} {b : List Byte} (hK : Keeps lv ss0 s) :
    Keeps lv ss0 (receiveFlit s q b) := by
  unfold receiveFlit
  iterate 40 try any_goals first
    | with_reducible assumption
    | with_reducible apply keeps_takeInit
    | with_reducible apply keeps_updPort
    | with_reducible apply keeps_discardFlit
    | with_reducible apply keeps_takeAck
    | with_reducible apply keeps_takeData
    | with_reducible apply Keeps.ite

theorem keeps_takeInbox {lv : Nat} {ss0 : State} {s : State} {f : Frame} (hK : Keeps lv ss0 s) :
    Keeps lv ss0 (takeInbox s f) := by
  unfold takeInbox
  try dsimp only
  iterate 40 try any_goals first
    | with_reducible assumption
    | with_reducible exact fun h => h
    | with_reducible exact fun _ h => h
    | with_reducible exact fun _ => rfl
    | with_reducible exact fun _ => ⟨rfl, rfl⟩
    | with_reducible exact rfl
    | with_reducible exact fun _ => Mem.wf_nil
    | (intro _; with_reducible exact memPutBytes_wf _ _ _)
    | with_reducible apply keeps_updRing
    | with_reducible apply keeps_updPort
    | with_reducible apply Keeps.id
    | (with_reducible apply Keeps.foldl; intro _ _ _)
    | (with_reducible apply Keeps.foldl_snd; intro _ _ _)
    | (with_reducible apply Keeps.foldl_fst; intro _ _ _)
    | with_reducible apply Keeps.ite
    | split
    | with_reducible apply Keeps.upd
    | with_reducible exact memPutBytes_wf _ _ _
    | with_reducible exact memPutLE_wf _ _ _ _
    | (intro h; with_reducible exact memPuts_wf h)
    | with_reducible exact memPut_wf _ _ _
    | with_reducible exact memClear_wf _ _ _
    | with_reducible exact memKeep_wf _ _
    | exact fun h => absurd h (by omega)
    | intro _ _
    | dsimp only

theorem keeps_countStale {lv : Nat} {ss0 : State} {s : State} {num : Nat} (hK : Keeps lv ss0 s) :
    Keeps lv ss0 (countStale s num) := by
  unfold countStale
  iterate 40 try any_goals first
    | with_reducible assumption
    | with_reducible exact fun h => h
    | with_reducible apply keeps_updFlow
    | with_reducible apply keeps_updRing
    | with_reducible apply Keeps.ite

theorem keeps_allocFlow {lv : Nat} {ss0 : State} {s : State} {f : Flow} (hK : Keeps lv ss0 s) :
    Keeps lv ss0 ((allocFlow s f).2) := by
  unfold allocFlow
  iterate 40 try any_goals first
    | with_reducible assumption
    | with_reducible exact fun h => h
    | with_reducible exact fun _ => rfl
    | with_reducible exact fun _ => ⟨rfl, rfl⟩
    | with_reducible exact rfl
    | with_reducible apply keeps_setLeaf
    | with_reducible apply Keeps.ite
    | with_reducible apply Keeps.upd
    | with_reducible exact memPut_wf _ _ _

theorem keeps_freeFlow {lv : Nat} {ss0 : State} {s : State} {f : Nat} (hK : Keeps lv ss0 s) :
    Keeps lv ss0 (freeFlow s f) := by
  unfold freeFlow
  iterate 40 try any_goals first
    | with_reducible assumption
    | with_reducible exact fun h => h
    | with_reducible apply keeps_release
    | with_reducible apply keeps_updRing

theorem keeps_flowStateEvent {lv : Nat} {ss0 : State} {s : State} {src : Nat} {what : Nat} {kind : Nat} {partner : Nat} {remote : Nat} {code : Nat} {rxBase : Nat} (hK : Keeps lv ss0 s) :
    Keeps lv ss0 (flowStateEvent s src what kind partner remote code rxBase) := by
  unfold flowStateEvent
  iterate 40 try any_goals with_reducible first | assumption | apply keeps_notify

theorem keeps_sendControl {lv : Nat} {ss0 : State} {s : State} {dst : Nat} {dflow : Nat} {dgen : Nat} {payload : List Byte} (hK : Keeps lv ss0 s) :
    Keeps lv ss0 (sendControl s dst dflow dgen payload) := by
  unfold sendControl
  iterate 40 try any_goals with_reducible first | assumption | apply keeps_sendFrame

theorem keeps_sendOpen {lv : Nat} {ss0 : State} {s : State} {f : Flow} {extra : List Byte} (hK : Keeps lv ss0 s) :
    Keeps lv ss0 (sendOpen s f extra) := by
  unfold sendOpen
  iterate 40 try any_goals with_reducible first | assumption | apply keeps_updFlow | apply keeps_sendControl

theorem keeps_startOpen {lv : Nat} {ss0 : State} {s : State} {f : Flow} (hK : Keeps lv ss0 s) :
    Keeps lv ss0 ((startOpen s f).2) := by
  unfold startOpen
  iterate 40 try any_goals first
    | with_reducible assumption
    | with_reducible exact fun h => h
    | with_reducible apply keeps_allocFlow
    | with_reducible apply keeps_updRing

theorem keeps_launchOpen {lv : Nat} {ss0 : State} {s : State} {num : Nat} (hK : Keeps lv ss0 s) :
    Keeps lv ss0 (launchOpen s num) := by
  unfold launchOpen
  iterate 40 try any_goals with_reducible first | assumption | apply keeps_sendOpen | split

theorem keeps_pumpFlow {lv : Nat} {ss0 : State} {num : Nat} : ∀ {nn : Nat} {sv : State},
    Keeps lv ss0 sv → Keeps lv ss0 (pumpFlow num nn sv) := by
  intro nn
  induction nn with
  | zero => intro sv hK; exact hK
  | succ nn ih =>
    intro sv hK
    unfold pumpFlow
    iterate 40 try any_goals first
      | with_reducible assumption
      | with_reducible apply ih
      | with_reducible apply keeps_updFlow
      | with_reducible apply keeps_sendFrame
      | with_reducible apply Keeps.ite
      | split

theorem keeps_flowQueueItem {lv : Nat} {ss0 : State} {s : State} {num : Nat} {data : List Byte} {lost : Bool} (hK : Keeps lv ss0 s) :
    Keeps lv ss0 (flowQueueItem s num data lost) := by
  unfold flowQueueItem
  iterate 40 try any_goals with_reducible first | assumption | apply keeps_updFlow | apply keeps_pumpFlow | split

theorem keeps_streamFlowSend {lv : Nat} {ss0 : State} {s : State} {stream : Nat} {frameMax : Nat} {data : List Byte} {lost : Bool} (hK : Keeps lv ss0 s) :
    Keeps lv ss0 (streamFlowSend s stream frameMax data lost) := by
  unfold streamFlowSend
  iterate 40 try any_goals first
    | with_reducible assumption
    | with_reducible apply keeps_flowQueueItem
    | with_reducible apply keeps_updFlow
    | with_reducible apply Keeps.ite
    | split

theorem keeps_sendFlowAck {lv : Nat} {ss0 : State} {s : State} {num : Nat} (hK : Keeps lv ss0 s) :
    Keeps lv ss0 (sendFlowAck s num) := by
  unfold sendFlowAck
  iterate 40 try any_goals with_reducible first | assumption | apply keeps_sendFrame | apply keeps_updFlow | split

theorem keeps_slotBegin {lv : Nat} {ss0 : State} {s : State} {f : Flow} {item : Nat} (hK : Keeps lv ss0 s) :
    Keeps lv ss0 (slotBegin s f item) := by
  unfold slotBegin
  iterate 40 try any_goals with_reducible first | assumption | apply keeps_dramWrite

theorem keeps_slotComplete {lv : Nat} {ss0 : State} {s : State} {num : Nat} {item : Nat} {lost : Bool} (hK : Keeps lv ss0 s) :
    Keeps lv ss0 (slotComplete s num item lost) := by
  unfold slotComplete
  try dsimp only
  iterate 40 try any_goals first
    | with_reducible assumption
    | with_reducible exact fun h => h
    | with_reducible exact fun _ h => h
    | with_reducible exact fun _ => rfl
    | with_reducible exact fun _ => ⟨rfl, rfl⟩
    | with_reducible exact rfl
    | with_reducible exact fun _ => Mem.wf_nil
    | (intro _; with_reducible exact memPutBytes_wf _ _ _)
    | with_reducible apply keeps_dramWrite
    | with_reducible apply keeps_slotBegin
    | with_reducible apply keeps_updFlow
    | with_reducible apply keeps_notify
    | with_reducible apply Keeps.id
    | (with_reducible apply Keeps.foldl; intro _ _ _)
    | (with_reducible apply Keeps.foldl_snd; intro _ _ _)
    | (with_reducible apply Keeps.foldl_fst; intro _ _ _)
    | with_reducible apply Keeps.ite
    | split
    | with_reducible apply Keeps.upd
    | with_reducible exact memPutBytes_wf _ _ _
    | with_reducible exact memPutLE_wf _ _ _ _
    | (intro h; with_reducible exact memPuts_wf h)
    | with_reducible exact memPut_wf _ _ _
    | with_reducible exact memClear_wf _ _ _
    | with_reducible exact memKeep_wf _ _
    | exact fun h => absurd h (by omega)
    | intro _ _
    | dsimp only

theorem keeps_storeItem {lv : Nat} {ss0 : State} {s : State} {num : Nat} {item : Nat} (hK : Keeps lv ss0 s) :
    Keeps lv ss0 (storeItem s num item) := by
  unfold storeItem
  iterate 40 try any_goals with_reducible first | assumption | apply keeps_updFlow

theorem keeps_takeSegment {lv : Nat} {ss0 : State} {s : State} {num : Nat} {payload : List Byte} (hK : Keeps lv ss0 s) :
    Keeps lv ss0 (takeSegment s num payload) := by
  unfold takeSegment
  iterate 40 try any_goals first
    | with_reducible assumption
    | with_reducible apply keeps_updFlow
    | with_reducible apply keeps_slotBegin
    | with_reducible apply keeps_storeItem
    | with_reducible apply keeps_slotComplete
    | with_reducible apply Keeps.ite
    | split

theorem keeps_deliverFrames {lv : Nat} {ss0 : State} {num : Nat} : ∀ {nn : Nat} {sv : State} {v2 : List Byte},
    Keeps lv ss0 sv → Keeps lv ss0 (deliverFrames num nn sv v2) := by
  intro nn
  induction nn with
  | zero => intro sv v2 hK; exact hK
  | succ nn ih =>
    intro sv v2 hK
    unfold deliverFrames
    try dsimp only
    iterate 40 try any_goals first
      | with_reducible assumption
      | with_reducible apply ih
      | with_reducible apply keeps_takeSegment
      | with_reducible apply keeps_updFlow
      | with_reducible apply keeps_sendFlowAck
      | with_reducible apply Keeps.ite
      | split

end Sys2Proof.Machine
end

