-- ==== Sys2Proof/Laws/KeepsTime.lean ====
section
/-! SUPPORT. What the operations of time and the lanes keep. -/

namespace Sys2Proof.Machine

/-! ## TimeOps -/

theorem keeps_updDom {lv : Nat} {ss0 : State} {s : State} {d : Nat} {f : Domain → Domain} (hK : Keeps lv ss0 s) :
    Keeps lv ss0 (updDom s d f) := by
  unfold updDom
  iterate 40 try any_goals first
    | with_reducible assumption
    | with_reducible exact fun h => h
    | with_reducible exact fun _ => rfl
    | with_reducible exact fun _ => ⟨rfl, rfl⟩
    | with_reducible exact rfl
    | with_reducible apply Keeps.upd

theorem keeps_setRate {lv : Nat} {ss0 : State} {s : State} {d : Nat} {r : Int} (hK : Keeps lv ss0 s) :
    Keeps lv ss0 (setRate s d r) := by
  unfold setRate
  iterate 40 try any_goals with_reducible first | assumption | apply keeps_updDom

theorem keeps_domainEvent {lv : Nat} {ss0 : State} {s : State} {d : Nat} {old : DomState} {cause : Nat} (hK : Keeps lv ss0 s) :
    Keeps lv ss0 (domainEvent s d old cause) := by
  unfold domainEvent
  iterate 40 try any_goals with_reducible first | assumption | apply keeps_notify

theorem keeps_stepEvent {lv : Nat} {ss0 : State} {s : State} {src : Nat} {amount : Int} (hK : Keeps lv ss0 s) :
    Keeps lv ss0 (stepEvent s src amount) := by
  unfold stepEvent
  iterate 40 try any_goals with_reducible first | assumption | apply keeps_notify

theorem keeps_updCadence {lv : Nat} {ss0 : State} {s : State} {k : Nat} {f : Cadence → Cadence} (hK : Keeps lv ss0 s) :
    Keeps lv ss0 (updCadence s k f) := by
  unfold updCadence
  iterate 40 try any_goals first
    | with_reducible assumption
    | with_reducible exact fun h => h
    | with_reducible exact fun _ => rfl
    | with_reducible exact fun _ => ⟨rfl, rfl⟩
    | with_reducible exact rfl
    | with_reducible apply Keeps.upd

theorem keeps_refEvent {lv : Nat} {ss0 : State} {s : State} {k : Nat} {phase : Nat} {cause : Nat} {lines : Int} (hK : Keeps lv ss0 s) :
    Keeps lv ss0 (refEvent s k phase cause lines) := by
  unfold refEvent
  iterate 40 try any_goals with_reducible first | assumption | apply keeps_setLeaf | apply keeps_postEventS

theorem keeps_referenceChange {lv : Nat} {ss0 : State} {s : State} {cause : Nat} (hK : Keeps lv ss0 s) :
    Keeps lv ss0 (referenceChange s cause) := by
  unfold referenceChange
  try dsimp only
  iterate 40 try any_goals first
    | with_reducible assumption
    | with_reducible exact fun h => h
    | with_reducible exact fun _ h => h
    | with_reducible exact fun _ => rfl
    | with_reducible exact fun _ => ⟨rfl, rfl⟩
    | with_reducible exact rfl
    | with_reducible exact fun _ => Mem.wf_nil
    | (intro _; with_reducible exact memPutBytes_wf _ _ _)
    | with_reducible apply keeps_refEvent
    | with_reducible apply keeps_updCadence
    | with_reducible apply Keeps.id
    | (with_reducible apply Keeps.foldl; intro _ _ _)
    | (with_reducible apply Keeps.foldl_snd; intro _ _ _)
    | (with_reducible apply Keeps.foldl_fst; intro _ _ _)
    | with_reducible apply Keeps.ite
    | split
    | with_reducible apply Keeps.upd
    | with_reducible exact memPutBytes_wf _ _ _
    | with_reducible exact memPutLE_wf _ _ _ _
    | (intro h; with_reducible exact memPuts_wf h)
    | with_reducible exact memPut_wf _ _ _
    | with_reducible exact memClear_wf _ _ _
    | with_reducible exact memKeep_wf _ _
    | exact fun h => absurd h (by omega)
    | intro _ _
    | dsimp only

theorem keeps_cadenceBegin {lv : Nat} {ss0 : State} {s : State} {k : Nat} {t : Int} (hK : Keeps lv ss0 s) :
    Keeps lv ss0 (cadenceBegin s k t) := by
  unfold cadenceBegin
  try dsimp only
  iterate 40 try any_goals first
    | with_reducible assumption
    | with_reducible exact fun h => h
    | with_reducible exact fun _ h => h
    | with_reducible exact fun _ => rfl
    | with_reducible exact fun _ => ⟨rfl, rfl⟩
    | with_reducible exact rfl
    | with_reducible exact fun _ => Mem.wf_nil
    | (intro _; with_reducible exact memPutBytes_wf _ _ _)
    | with_reducible apply keeps_updCadence
    | with_reducible apply Keeps.id
    | (with_reducible apply Keeps.foldl; intro _ _ _)
    | (with_reducible apply Keeps.foldl_snd; intro _ _ _)
    | (with_reducible apply Keeps.foldl_fst; intro _ _ _)
    | with_reducible apply Keeps.ite
    | split
    | with_reducible apply Keeps.upd
    | with_reducible exact memPutBytes_wf _ _ _
    | with_reducible exact memPutLE_wf _ _ _ _
    | (intro h; with_reducible exact memPuts_wf h)
    | with_reducible exact memPut_wf _ _ _
    | with_reducible exact memClear_wf _ _ _
    | with_reducible exact memKeep_wf _ _
    | exact fun h => absurd h (by omega)
    | intro _ _
    | dsimp only

theorem keeps_switchS {lv : Nat} {ss0 : State} {s : State} {b : Option Nat} (hK : Keeps lv ss0 s) :
    Keeps lv ss0 (switchS s b) := by
  unfold switchS
  iterate 40 try any_goals first
    | with_reducible assumption
    | with_reducible exact fun h => h
    | with_reducible exact fun _ => rfl
    | with_reducible exact fun _ => ⟨rfl, rfl⟩
    | with_reducible exact rfl
    | with_reducible apply keeps_notify
    | with_reducible apply keeps_referenceChange
    | with_reducible apply Keeps.ite
    | with_reducible apply Keeps.upd

theorem keeps_stepS {lv : Nat} {ss0 : State} {s : State} {d : Nat} (hK : Keeps lv ss0 s) :
    Keeps lv ss0 (stepS s d) := by
  unfold stepS
  iterate 40 try any_goals first
    | with_reducible assumption
    | with_reducible exact fun h => h
    | with_reducible exact fun _ => rfl
    | with_reducible exact fun _ => ⟨rfl, rfl⟩
    | with_reducible exact rfl
    | with_reducible apply keeps_referenceChange
    | with_reducible apply keeps_stepEvent
    | with_reducible apply Keeps.upd

theorem keeps_askStepS {lv : Nat} {ss0 : State} {s : State} {d : Nat} {force : Bool} (hK : Keeps lv ss0 s) :
    Keeps lv ss0 (askStepS s d force) := by
  unfold askStepS
  iterate 40 try any_goals first
    | with_reducible assumption
    | with_reducible exact fun h => h
    | with_reducible exact fun _ => rfl
    | with_reducible exact fun _ => ⟨rfl, rfl⟩
    | with_reducible exact rfl
    | with_reducible apply keeps_stepS
    | with_reducible apply Keeps.ite
    | with_reducible apply Keeps.upd

theorem keeps_followS {lv : Nat} {ss0 : State} {s : State} {force : Bool} (hK : Keeps lv ss0 s) :
    Keeps lv ss0 (followS s force) := by
  unfold followS
  iterate 40 try any_goals first
    | with_reducible assumption
    | with_reducible exact fun h => h
    | with_reducible exact fun _ => rfl
    | with_reducible exact fun _ => ⟨rfl, rfl⟩
    | with_reducible exact rfl
    | with_reducible apply keeps_askStepS
    | with_reducible apply keeps_switchS
    | with_reducible apply Keeps.ite
    | split
    | with_reducible apply Keeps.upd

theorem keeps_followL {lv : Nat} {ss0 : State} {s : State} (hK : Keeps lv ss0 s) :
    Keeps lv ss0 (followL s) := by
  unfold followL
  try dsimp only
  iterate 40 try any_goals first
    | with_reducible assumption
    | with_reducible exact fun h => h
    | with_reducible exact fun _ h => h
    | with_reducible exact fun _ => rfl
    | with_reducible exact fun _ => ⟨rfl, rfl⟩
    | with_reducible exact rfl
    | with_reducible exact fun _ => Mem.wf_nil
    | (intro _; with_reducible exact memPutBytes_wf _ _ _)
    | with_reducible apply keeps_stepEvent
    | with_reducible apply Keeps.id
    | (with_reducible apply Keeps.foldl; intro _ _ _)
    | (with_reducible apply Keeps.foldl_snd; intro _ _ _)
    | (with_reducible apply Keeps.foldl_fst; intro _ _ _)
    | with_reducible apply Keeps.ite
    | split
    | with_reducible apply Keeps.upd
    | with_reducible exact memPutBytes_wf _ _ _
    | with_reducible exact memPutLE_wf _ _ _ _
    | (intro h; with_reducible exact memPuts_wf h)
    | with_reducible exact memPut_wf _ _ _
    | with_reducible exact memClear_wf _ _ _
    | with_reducible exact memKeep_wf _ _
    | exact fun h => absurd h (by omega)
    | intro _ _
    | dsimp only

theorem keeps_followViews {lv : Nat} {ss0 : State} {s : State} (hK : Keeps lv ss0 s) :
    Keeps lv ss0 (followViews s) := by
  unfold followViews
  iterate 40 try any_goals with_reducible first | assumption | apply keeps_followL | apply keeps_followS

theorem keeps_freezeViews {lv : Nat} {ss0 : State} {s : State} {d : Nat} (hK : Keeps lv ss0 s) :
    Keeps lv ss0 (freezeViews s d) := by
  unfold freezeViews
  iterate 40 try any_goals first
    | with_reducible assumption
    | with_reducible exact fun h => h
    | with_reducible exact fun _ => rfl
    | with_reducible exact fun _ => ⟨rfl, rfl⟩
    | with_reducible exact rfl
    | split
    | with_reducible apply Keeps.upd

theorem keeps_servo {lv : Nat} {ss0 : State} {s : State} {d : Nat} {theta : Int} {tsNum : Nat} {tsDen : Nat} (hK : Keeps lv ss0 s) :
    Keeps lv ss0 (servo s d theta tsNum tsDen) := by
  unfold servo
  iterate 40 try any_goals with_reducible first | assumption | apply keeps_setRate | apply keeps_updDom

theorem keeps_leaveAcquiring {lv : Nat} {ss0 : State} {s : State} {d : Nat} {w : List Int} (hK : Keeps lv ss0 s) :
    Keeps lv ss0 (leaveAcquiring s d w) := by
  unfold leaveAcquiring
  try dsimp only
  iterate 40 try any_goals first
    | with_reducible assumption
    | with_reducible exact fun h => h
    | with_reducible exact fun _ h => h
    | with_reducible exact fun _ => rfl
    | with_reducible exact fun _ => ⟨rfl, rfl⟩
    | with_reducible exact rfl
    | with_reducible exact fun _ => Mem.wf_nil
    | (intro _; with_reducible exact memPutBytes_wf _ _ _)
    | with_reducible apply keeps_stepEvent
    | with_reducible apply keeps_updDom
    | with_reducible apply Keeps.id
    | (with_reducible apply Keeps.foldl; intro _ _ _)
    | (with_reducible apply Keeps.foldl_snd; intro _ _ _)
    | (with_reducible apply Keeps.foldl_fst; intro _ _ _)
    | with_reducible apply Keeps.ite
    | split
    | with_reducible apply Keeps.upd
    | with_reducible exact memPutBytes_wf _ _ _
    | with_reducible exact memPutLE_wf _ _ _ _
    | (intro h; with_reducible exact memPuts_wf h)
    | with_reducible exact memPut_wf _ _ _
    | with_reducible exact memClear_wf _ _ _
    | with_reducible exact memKeep_wf _ _
    | exact fun h => absurd h (by omega)
    | intro _ _
    | dsimp only

theorem keeps_judge {lv : Nat} {ss0 : State} {s : State} {d : Nat} {theta : Int} (hK : Keeps lv ss0 s) :
    Keeps lv ss0 (judge s d theta) := by
  unfold judge
  iterate 40 try any_goals first
    | with_reducible assumption
    | with_reducible apply keeps_updDom
    | with_reducible apply keeps_domainEvent
    | with_reducible apply keeps_setRate
    | with_reducible apply keeps_followViews
    | with_reducible apply Keeps.ite

theorem keeps_measure {lv : Nat} {ss0 : State} {s : State} {d : Nat} {theta : Int} {tsNum : Nat} {tsDen : Nat} (hK : Keeps lv ss0 s) :
    Keeps lv ss0 (measure s d theta tsNum tsDen) := by
  unfold measure
  try dsimp only
  iterate 40 try any_goals first
    | with_reducible assumption
    | with_reducible apply keeps_updDom
    | with_reducible apply keeps_leaveAcquiring
    | with_reducible apply keeps_judge
    | with_reducible apply keeps_servo
    | with_reducible apply Keeps.ite
    | split

theorem keeps_loseSource {lv : Nat} {ss0 : State} {s : State} {d : Nat} {cause : Nat} (hK : Keeps lv ss0 s) :
    Keeps lv ss0 (loseSource s d cause) := by
  unfold loseSource
  try dsimp only
  iterate 40 try any_goals first
    | with_reducible assumption
    | with_reducible exact fun h => h
    | with_reducible exact fun _ h => h
    | with_reducible exact fun _ => rfl
    | with_reducible exact fun _ => ⟨rfl, rfl⟩
    | with_reducible exact rfl
    | with_reducible exact fun _ => Mem.wf_nil
    | (intro _; with_reducible exact memPutBytes_wf _ _ _)
    | with_reducible apply keeps_updDom
    | with_reducible apply keeps_setRate
    | with_reducible apply keeps_domainEvent
    | with_reducible apply Keeps.id
    | (with_reducible apply Keeps.foldl; intro _ _ _)
    | (with_reducible apply Keeps.foldl_snd; intro _ _ _)
    | (with_reducible apply Keeps.foldl_fst; intro _ _ _)
    | with_reducible apply Keeps.ite
    | split
    | with_reducible apply Keeps.upd
    | with_reducible exact memPutBytes_wf _ _ _
    | with_reducible exact memPutLE_wf _ _ _ _
    | (intro h; with_reducible exact memPuts_wf h)
    | with_reducible exact memPut_wf _ _ _
    | with_reducible exact memClear_wf _ _ _
    | with_reducible exact memKeep_wf _ _
    | exact fun h => absurd h (by omega)
    | intro _ _
    | dsimp only

theorem keeps_losesSources {lv : Nat} {ss0 : State} {s : State} {ds : List Nat} {cause : Nat} (hK : Keeps lv ss0 s) :
    Keeps lv ss0 (losesSources s ds cause) := by
  unfold losesSources
  try dsimp only
  iterate 40 try any_goals first
    | with_reducible assumption
    | with_reducible exact fun h => h
    | with_reducible exact fun _ h => h
    | with_reducible exact fun _ => rfl
    | with_reducible exact fun _ => ⟨rfl, rfl⟩
    | with_reducible exact rfl
    | with_reducible exact fun _ => Mem.wf_nil
    | (intro _; with_reducible exact memPutBytes_wf _ _ _)
    | with_reducible apply keeps_followViews
    | with_reducible apply keeps_loseSource
    | with_reducible apply Keeps.id
    | (with_reducible apply Keeps.foldl; intro _ _ _)
    | (with_reducible apply Keeps.foldl_snd; intro _ _ _)
    | (with_reducible apply Keeps.foldl_fst; intro _ _ _)
    | with_reducible apply Keeps.ite
    | split
    | with_reducible apply Keeps.upd
    | with_reducible exact memPutBytes_wf _ _ _
    | with_reducible exact memPutLE_wf _ _ _ _
    | (intro h; with_reducible exact memPuts_wf h)
    | with_reducible exact memPut_wf _ _ _
    | with_reducible exact memClear_wf _ _ _
    | with_reducible exact memKeep_wf _ _
    | exact fun h => absurd h (by omega)
    | intro _ _
    | dsimp only

theorem keeps_sourceLost {lv : Nat} {ss0 : State} {s : State} {d : Nat} {cause : Nat} (hK : Keeps lv ss0 s) :
    Keeps lv ss0 (sourceLost s d cause) := by
  unfold sourceLost
  try dsimp only
  iterate 40 try any_goals first
    | with_reducible assumption
    | with_reducible exact fun h => h
    | with_reducible exact fun _ h => h
    | with_reducible exact fun _ => rfl
    | with_reducible exact fun _ => ⟨rfl, rfl⟩
    | with_reducible exact rfl
    | with_reducible exact fun _ => Mem.wf_nil
    | (intro _; with_reducible exact memPutBytes_wf _ _ _)
    | with_reducible apply keeps_losesSources
    | with_reducible apply Keeps.id
    | (with_reducible apply Keeps.foldl; intro _ _ _)
    | (with_reducible apply Keeps.foldl_snd; intro _ _ _)
    | (with_reducible apply Keeps.foldl_fst; intro _ _ _)
    | with_reducible apply Keeps.ite
    | split
    | with_reducible apply Keeps.upd
    | with_reducible exact memPutBytes_wf _ _ _
    | with_reducible exact memPutLE_wf _ _ _ _
    | (intro h; with_reducible exact memPuts_wf h)
    | with_reducible exact memPut_wf _ _ _
    | with_reducible exact memClear_wf _ _ _
    | with_reducible exact memKeep_wf _ _
    | exact fun h => absurd h (by omega)
    | intro _ _
    | dsimp only

theorem keeps_freeDomainContexts {lv : Nat} {ss0 : State} {s : State} {d : Nat} (hK : Keeps lv ss0 s) :
    Keeps lv ss0 (freeDomainContexts s d) := by
  unfold freeDomainContexts
  iterate 40 try any_goals first
    | with_reducible assumption
    | with_reducible exact fun h => h
    | with_reducible exact fun _ => rfl
    | with_reducible exact fun _ => ⟨rfl, rfl⟩
    | with_reducible exact rfl
    | with_reducible apply keeps_freeFlow
    | with_reducible apply keeps_updDom
    | split
    | with_reducible apply Keeps.upd

theorem keeps_syncEvent {lv : Nat} {ss0 : State} {s : State} {what : Nat} (hK : Keeps lv ss0 s) :
    Keeps lv ss0 (syncEvent s what) := by
  unfold syncEvent
  iterate 40 try any_goals with_reducible first | assumption | apply keeps_notify

theorem keeps_ltcEvent {lv : Nat} {ss0 : State} {s : State} {what : Nat} {value : Nat} (hK : Keeps lv ss0 s) :
    Keeps lv ss0 (ltcEvent s what value) := by
  unfold ltcEvent
  iterate 40 try any_goals with_reducible first | assumption | apply keeps_notify

/-! ## Time -/

theorem keeps_restartDomain {lv : Nat} {ss0 : State} {s : State} {d : Nat} {set : Domain → Domain} {flow : Option Nat} (hK : Keeps lv ss0 s) :
    Keeps lv ss0 (restartDomain s d set flow) := by
  unfold restartDomain
  try dsimp only
  iterate 40 try any_goals first
    | with_reducible assumption
    | with_reducible exact fun h => h
    | with_reducible exact fun _ h => h
    | with_reducible exact fun _ => rfl
    | with_reducible exact fun _ => ⟨rfl, rfl⟩
    | with_reducible exact rfl
    | with_reducible exact fun _ => Mem.wf_nil
    | (intro _; with_reducible exact memPutBytes_wf _ _ _)
    | with_reducible apply keeps_freezeViews
    | with_reducible apply keeps_freeDomainContexts
    | with_reducible apply keeps_updDom
    | with_reducible apply keeps_followViews
    | with_reducible apply keeps_domainEvent
    | with_reducible apply Keeps.id
    | (with_reducible apply Keeps.foldl; intro _ _ _)
    | (with_reducible apply Keeps.foldl_snd; intro _ _ _)
    | (with_reducible apply Keeps.foldl_fst; intro _ _ _)
    | with_reducible apply Keeps.ite
    | split
    | with_reducible apply Keeps.upd
    | with_reducible exact memPutBytes_wf _ _ _
    | with_reducible exact memPutLE_wf _ _ _ _
    | (intro h; with_reducible exact memPuts_wf h)
    | with_reducible exact memPut_wf _ _ _
    | with_reducible exact memClear_wf _ _ _
    | with_reducible exact memKeep_wf _ _
    | exact fun h => absurd h (by omega)
    | intro _ _
    | dsimp only

theorem keeps_domainApply {lv : Nat} {ss0 : State} {s : State} {b : Body} {flow : Option Nat} (hK : Keeps lv ss0 s) :
    Keeps lv ss0 (domainApply s b flow) := by
  unfold domainApply
  iterate 40 try any_goals with_reducible first | assumption | apply keeps_restartDomain

theorem card_timeDomainCard {lv : Nat}  : Card.Keeps lv timeDomainCard := by
  intro n b ss0 s hK
  unfold timeDomainCard
  try dsimp only
  iterate 40 try any_goals first
    | with_reducible assumption
    | with_reducible exact fun h => h
    | with_reducible apply keeps_startOpen
    | with_reducible apply keeps_launchOpen
    | with_reducible apply keeps_domainApply
    | split

theorem keeps_execTimeDomain (n : Fin 40) (s : State) : KeepsO 0 s (execTimeDomain n s) :=
  .next (keeps_mbxRun card_timeDomainCard (.refl _ _))

theorem card_timeSelectCard {lv : Nat}  : Card.Keeps lv timeSelectCard := by
  intro n b ss0 s hK
  unfold timeSelectCard
  iterate 40 try any_goals first
    | with_reducible assumption
    | with_reducible exact fun h => h
    | with_reducible exact fun _ => rfl
    | with_reducible exact fun _ => ⟨rfl, rfl⟩
    | with_reducible exact rfl
    | with_reducible apply keeps_followS
    | with_reducible apply keeps_stepS
    | with_reducible apply keeps_followL
    | with_reducible apply Keeps.ite
    | split
    | with_reducible apply Keeps.upd

theorem keeps_execTimeSelect (n : Fin 40) (s : State) : KeepsO 0 s (execTimeSelect n s) :=
  .next (keeps_mbxRun card_timeSelectCard (.refl _ _))

theorem card_timePortCard {lv : Nat}  : Card.Keeps lv timePortCard := by
  intro n b ss0 s hK
  unfold timePortCard
  iterate 40 try any_goals first
    | with_reducible assumption
    | with_reducible exact fun h => h
    | with_reducible exact fun _ => rfl
    | with_reducible exact fun _ => ⟨rfl, rfl⟩
    | with_reducible exact rfl
    | with_reducible apply Keeps.upd

theorem keeps_execTimePort (n : Fin 40) (s : State) : KeepsO 0 s (execTimePort n s) :=
  .next (keeps_mbxRun card_timePortCard (.refl _ _))

theorem keeps_loseSync {lv : Nat} {ss0 : State} {s : State} (hK : Keeps lv ss0 s) :
    Keeps lv ss0 (loseSync s) := by
  unfold loseSync
  try dsimp only
  iterate 40 try any_goals first
    | with_reducible assumption
    | with_reducible exact fun h => h
    | with_reducible exact fun _ h => h
    | with_reducible exact fun _ => rfl
    | with_reducible exact fun _ => ⟨rfl, rfl⟩
    | with_reducible exact rfl
    | with_reducible exact fun _ => Mem.wf_nil
    | (intro _; with_reducible exact memPutBytes_wf _ _ _)
    | with_reducible apply keeps_losesSources
    | with_reducible apply keeps_syncEvent
    | with_reducible apply Keeps.id
    | (with_reducible apply Keeps.foldl; intro _ _ _)
    | (with_reducible apply Keeps.foldl_snd; intro _ _ _)
    | (with_reducible apply Keeps.foldl_fst; intro _ _ _)
    | with_reducible apply Keeps.ite
    | split
    | with_reducible apply Keeps.upd
    | with_reducible exact memPutBytes_wf _ _ _
    | with_reducible exact memPutLE_wf _ _ _ _
    | (intro h; with_reducible exact memPuts_wf h)
    | with_reducible exact memPut_wf _ _ _
    | with_reducible exact memClear_wf _ _ _
    | with_reducible exact memKeep_wf _ _
    | exact fun h => absurd h (by omega)
    | intro _ _
    | dsimp only

theorem card_timeSyncCard {lv : Nat}  : Card.Keeps lv timeSyncCard := by
  intro n b ss0 s hK
  unfold timeSyncCard
  try dsimp only
  iterate 40 try any_goals first
    | with_reducible assumption
    | with_reducible exact fun h => h
    | with_reducible exact fun _ h => h
    | with_reducible exact fun _ => rfl
    | with_reducible exact fun _ => ⟨rfl, rfl⟩
    | with_reducible exact rfl
    | with_reducible exact fun _ => Mem.wf_nil
    | (intro _; with_reducible exact memPutBytes_wf _ _ _)
    | with_reducible apply keeps_loseSync
    | with_reducible apply keeps_updCadence
    | with_reducible apply Keeps.id
    | (with_reducible apply Keeps.foldl; intro _ _ _)
    | (with_reducible apply Keeps.foldl_snd; intro _ _ _)
    | (with_reducible apply Keeps.foldl_fst; intro _ _ _)
    | with_reducible apply Keeps.ite
    | split
    | with_reducible apply Keeps.upd
    | with_reducible exact memPutBytes_wf _ _ _
    | with_reducible exact memPutLE_wf _ _ _ _
    | (intro h; with_reducible exact memPuts_wf h)
    | with_reducible exact memPut_wf _ _ _
    | with_reducible exact memClear_wf _ _ _
    | with_reducible exact memKeep_wf _ _
    | exact fun h => absurd h (by omega)
    | intro _ _
    | dsimp only

theorem keeps_execTimeSync (n : Fin 40) (s : State) : KeepsO 0 s (execTimeSync n s) :=
  .next (keeps_mbxRun card_timeSyncCard (.refl _ _))

theorem card_timeLtcCard {lv : Nat}  : Card.Keeps lv timeLtcCard := by
  intro n b ss0 s hK
  unfold timeLtcCard
  iterate 40 try any_goals first
    | with_reducible assumption
    | with_reducible exact fun h => h
    | with_reducible exact fun _ => rfl
    | with_reducible exact fun _ => ⟨rfl, rfl⟩
    | with_reducible exact rfl
    | with_reducible apply Keeps.upd

theorem keeps_execTimeLtc (n : Fin 40) (s : State) : KeepsO 0 s (execTimeLtc n s) :=
  .next (keeps_mbxRun card_timeLtcCard (.refl _ _))

theorem card_timeServeCard {lv : Nat}  : Card.Keeps lv timeServeCard := by
  intro n b ss0 s hK
  unfold timeServeCard
  iterate 40 try any_goals first
    | with_reducible assumption
    | with_reducible exact fun h => h
    | with_reducible exact fun _ => rfl
    | with_reducible exact fun _ => ⟨rfl, rfl⟩
    | with_reducible exact rfl
    | with_reducible apply Keeps.upd

theorem keeps_execTimeServe (n : Fin 40) (s : State) : KeepsO 0 s (execTimeServe n s) :=
  .next (keeps_mbxRun card_timeServeCard (.refl _ _))

theorem card_timeStatusCard {lv : Nat}  : Card.Keeps lv timeStatusCard := by
  intro n b ss0 s hK
  unfold timeStatusCard
  iterate 40 try any_goals first
    | with_reducible assumption
    | with_reducible exact fun h => h
    | with_reducible exact fun _ => rfl
    | with_reducible exact fun _ => ⟨rfl, rfl⟩
    | with_reducible exact rfl
    | with_reducible apply Keeps.ite
    | with_reducible apply Keeps.upd

theorem keeps_execTimeStatus (n : Fin 40) (s : State) : KeepsO 0 s (execTimeStatus n s) :=
  .next (keeps_mbxRun card_timeStatusCard (.refl _ _))

theorem keeps_execPtpSync (d : Fin 2) (sender : Nat) (t1 : Int) (stamp : Nat) (s : State) : KeepsO 0 s (execPtpSync d sender t1 stamp s) := by
  unfold execPtpSync
  try dsimp only
  iterate 40 try any_goals first
    | with_reducible apply KeepsO.next
    | with_reducible exact Keeps.refl _ _
    | with_reducible assumption
    | with_reducible exact fun h => h
    | with_reducible exact fun _ h => h
    | with_reducible exact fun _ => rfl
    | with_reducible exact fun _ => ⟨rfl, rfl⟩
    | with_reducible exact rfl
    | with_reducible exact fun _ => Mem.wf_nil
    | (intro _; with_reducible exact memPutBytes_wf _ _ _)
    | with_reducible apply keeps_stampRx
    | with_reducible apply keeps_updDom
    | with_reducible apply keeps_measure
    | with_reducible apply Keeps.id
    | (with_reducible apply Keeps.foldl; intro _ _ _)
    | (with_reducible apply Keeps.foldl_snd; intro _ _ _)
    | (with_reducible apply Keeps.foldl_fst; intro _ _ _)
    | with_reducible apply Keeps.ite
    | split
    | with_reducible apply Keeps.upd
    | with_reducible exact memPutBytes_wf _ _ _
    | with_reducible exact memPutLE_wf _ _ _ _
    | (intro h; with_reducible exact memPuts_wf h)
    | with_reducible exact memPut_wf _ _ _
    | with_reducible exact memClear_wf _ _ _
    | with_reducible exact memKeep_wf _ _
    | exact fun h => absurd h (by omega)
    | intro _ _
    | dsimp only

theorem keeps_execPtpDelayResp (d : Fin 2) (stamp : Nat) (t4 : Int) (s : State) : KeepsO 0 s (execPtpDelayResp d stamp t4 s) := by
  unfold execPtpDelayResp
  try dsimp only
  iterate 40 try any_goals first
    | with_reducible apply KeepsO.next
    | with_reducible exact Keeps.refl _ _
    | with_reducible assumption
    | with_reducible exact fun h => h
    | with_reducible exact fun _ h => h
    | with_reducible exact fun _ => rfl
    | with_reducible exact fun _ => ⟨rfl, rfl⟩
    | with_reducible exact rfl
    | with_reducible exact fun _ => Mem.wf_nil
    | (intro _; with_reducible exact memPutBytes_wf _ _ _)
    | with_reducible apply keeps_stampTx
    | with_reducible apply keeps_updDom
    | with_reducible apply Keeps.id
    | (with_reducible apply Keeps.foldl; intro _ _ _)
    | (with_reducible apply Keeps.foldl_snd; intro _ _ _)
    | (with_reducible apply Keeps.foldl_fst; intro _ _ _)
    | with_reducible apply Keeps.ite
    | split
    | with_reducible apply Keeps.upd
    | with_reducible exact memPutBytes_wf _ _ _
    | with_reducible exact memPutLE_wf _ _ _ _
    | (intro h; with_reducible exact memPuts_wf h)
    | with_reducible exact memPut_wf _ _ _
    | with_reducible exact memClear_wf _ _ _
    | with_reducible exact memKeep_wf _ _
    | exact fun h => absurd h (by omega)
    | intro _ _
    | dsimp only

theorem keeps_execPtpAnnounce (d : Fin 2) (sender : Nat) (dataset : List Nat) (s : State) : KeepsO 0 s (execPtpAnnounce d sender dataset s) := by
  unfold execPtpAnnounce
  try dsimp only
  iterate 40 try any_goals first
    | with_reducible apply KeepsO.next
    | with_reducible exact Keeps.refl _ _
    | with_reducible apply keeps_updDom
    | with_reducible apply keeps_allocFlow
    | split

theorem keeps_execAnnounceTimeout (d : Fin 2) (s : State) : KeepsO 0 s (execAnnounceTimeout d s) := by
  unfold execAnnounceTimeout
  iterate 40 try any_goals first
    | with_reducible apply KeepsO.next
    | with_reducible exact Keeps.refl _ _
    | with_reducible apply keeps_sourceLost
    | with_reducible apply keeps_freeDomainContexts
    | split

theorem keeps_execSyncTimeout (d : Fin 2) (s : State) : KeepsO 0 s (execSyncTimeout d s) := by
  unfold execSyncTimeout
  iterate 40 try any_goals first
    | with_reducible apply KeepsO.next
    | with_reducible exact Keeps.refl _ _
    | with_reducible apply keeps_sourceLost
    | split

theorem keeps_execTimeFrameSend (s : State) : KeepsO 0 s (execTimeFrameSend s) := by
  unfold execTimeFrameSend
  iterate 40 try any_goals first
    | with_reducible apply KeepsO.next
    | with_reducible exact Keeps.refl _ _
    | with_reducible assumption
    | with_reducible exact fun h => h
    | with_reducible exact fun _ => rfl
    | with_reducible exact fun _ => ⟨rfl, rfl⟩
    | with_reducible exact rfl
    | with_reducible apply keeps_sendFrame
    | (with_reducible apply Keeps.foldl; intro _ _ _)
    | with_reducible apply Keeps.ite
    | with_reducible apply Keeps.upd

theorem keeps_execTimeFrame (src : BitVec 12) (flow : FlowRef) (port : Fin 8) (payload : List Byte) (stamp : Nat) (s : State) : KeepsO 0 s (execTimeFrame src flow port payload stamp s) := by
  unfold execTimeFrame
  iterate 40 try any_goals first
    | with_reducible apply KeepsO.next
    | with_reducible exact Keeps.refl _ _
    | with_reducible apply keeps_takeInbox
    | with_reducible apply keeps_countStale
    | with_reducible apply keeps_stampRx
    | with_reducible apply keeps_measure
    | split

theorem keeps_timeFlowLost {lv : Nat} {ss0 : State} {s : State} {flow : Nat} (hK : Keeps lv ss0 s) :
    Keeps lv ss0 (timeFlowLost s flow) := by
  unfold timeFlowLost
  iterate 40 try any_goals first
    | with_reducible assumption
    | with_reducible apply keeps_sourceLost
    | with_reducible apply keeps_updDom
    | (with_reducible apply Keeps.foldl; intro _ _ _)
    | with_reducible apply Keeps.ite

theorem keeps_execTimeFlowTimeout (d : Fin 2) (s : State) : KeepsO 0 s (execTimeFlowTimeout d s) := by
  unfold execTimeFlowTimeout
  iterate 40 try any_goals first
    | with_reducible apply KeepsO.next
    | with_reducible exact Keeps.refl _ _
    | with_reducible apply keeps_sourceLost
    | split

theorem keeps_execRevertTimer (s : State) : KeepsO 0 s (execRevertTimer s) := by
  unfold execRevertTimer
  try dsimp only
  iterate 40 try any_goals first
    | with_reducible apply KeepsO.next
    | with_reducible exact Keeps.refl _ _
    | with_reducible assumption
    | with_reducible exact fun h => h
    | with_reducible exact fun _ h => h
    | with_reducible exact fun _ => rfl
    | with_reducible exact fun _ => ⟨rfl, rfl⟩
    | with_reducible exact rfl
    | with_reducible exact fun _ => Mem.wf_nil
    | (intro _; with_reducible exact memPutBytes_wf _ _ _)
    | with_reducible apply keeps_followS
    | with_reducible apply Keeps.id
    | (with_reducible apply Keeps.foldl; intro _ _ _)
    | (with_reducible apply Keeps.foldl_snd; intro _ _ _)
    | (with_reducible apply Keeps.foldl_fst; intro _ _ _)
    | with_reducible apply Keeps.ite
    | split
    | with_reducible apply Keeps.upd
    | with_reducible exact memPutBytes_wf _ _ _
    | with_reducible exact memPutLE_wf _ _ _ _
    | (intro h; with_reducible exact memPuts_wf h)
    | with_reducible exact memPut_wf _ _ _
    | with_reducible exact memClear_wf _ _ _
    | with_reducible exact memKeep_wf _ _
    | exact fun h => absurd h (by omega)
    | intro _ _
    | dsimp only

theorem keeps_execViewStep (s : State) : KeepsO 0 s (execViewStep s) := by
  unfold execViewStep
  iterate 40 try any_goals first
    | with_reducible apply KeepsO.next
    | with_reducible exact Keeps.refl _ _
    | with_reducible exact fun h => h
    | with_reducible exact fun _ => rfl
    | with_reducible exact fun _ => ⟨rfl, rfl⟩
    | with_reducible exact rfl
    | with_reducible apply keeps_stepS
    | split
    | with_reducible apply Keeps.upd

theorem keeps_execRefHoldEnd (k : Fin 20) (lines : Int) (s : State) : KeepsO 0 s (execRefHoldEnd k lines s) := by
  unfold execRefHoldEnd
  try dsimp only
  iterate 40 try any_goals first
    | with_reducible apply KeepsO.next
    | with_reducible exact Keeps.refl _ _
    | with_reducible assumption
    | with_reducible exact fun h => h
    | with_reducible exact fun _ h => h
    | with_reducible exact fun _ => rfl
    | with_reducible exact fun _ => ⟨rfl, rfl⟩
    | with_reducible exact rfl
    | with_reducible exact fun _ => Mem.wf_nil
    | (intro _; with_reducible exact memPutBytes_wf _ _ _)
    | with_reducible apply keeps_refEvent
    | with_reducible apply keeps_updCadence
    | with_reducible apply Keeps.id
    | (with_reducible apply Keeps.foldl; intro _ _ _)
    | (with_reducible apply Keeps.foldl_snd; intro _ _ _)
    | (with_reducible apply Keeps.foldl_fst; intro _ _ _)
    | with_reducible apply Keeps.ite
    | split
    | with_reducible apply Keeps.upd
    | with_reducible exact memPutBytes_wf _ _ _
    | with_reducible exact memPutLE_wf _ _ _ _
    | (intro h; with_reducible exact memPuts_wf h)
    | with_reducible exact memPut_wf _ _ _
    | with_reducible exact memClear_wf _ _ _
    | with_reducible exact memKeep_wf _ _
    | exact fun h => absurd h (by omega)
    | intro _ _
    | dsimp only

theorem keeps_execCadenceAligned (k : Fin 20) (s : State) : KeepsO 0 s (execCadenceAligned k s) := by
  unfold execCadenceAligned
  try dsimp only
  iterate 40 try any_goals first
    | with_reducible apply KeepsO.next
    | with_reducible exact Keeps.refl _ _
    | with_reducible assumption
    | with_reducible exact fun h => h
    | with_reducible exact fun _ h => h
    | with_reducible exact fun _ => rfl
    | with_reducible exact fun _ => ⟨rfl, rfl⟩
    | with_reducible exact rfl
    | with_reducible exact fun _ => Mem.wf_nil
    | (intro _; with_reducible exact memPutBytes_wf _ _ _)
    | with_reducible apply keeps_refEvent
    | with_reducible apply keeps_updCadence
    | with_reducible apply Keeps.id
    | (with_reducible apply Keeps.foldl; intro _ _ _)
    | (with_reducible apply Keeps.foldl_snd; intro _ _ _)
    | (with_reducible apply Keeps.foldl_fst; intro _ _ _)
    | with_reducible apply Keeps.ite
    | split
    | with_reducible apply Keeps.upd
    | with_reducible exact memPutBytes_wf _ _ _
    | with_reducible exact memPutLE_wf _ _ _ _
    | (intro h; with_reducible exact memPuts_wf h)
    | with_reducible exact memPut_wf _ _ _
    | with_reducible exact memClear_wf _ _ _
    | with_reducible exact memKeep_wf _ _
    | exact fun h => absurd h (by omega)
    | intro _ _
    | dsimp only

theorem keeps_syncMeasure {lv : Nat} {ss0 : State} {s : State} {stamp : Int} (hK : Keeps lv ss0 s) :
    Keeps lv ss0 (syncMeasure s stamp) := by
  unfold syncMeasure
  try dsimp only
  iterate 40 try any_goals first
    | with_reducible assumption
    | with_reducible exact fun h => h
    | with_reducible exact fun _ h => h
    | with_reducible exact fun _ => rfl
    | with_reducible exact fun _ => ⟨rfl, rfl⟩
    | with_reducible exact rfl
    | with_reducible exact fun _ => Mem.wf_nil
    | (intro _; with_reducible exact memPutBytes_wf _ _ _)
    | with_reducible apply keeps_measure
    | with_reducible apply Keeps.id
    | (with_reducible apply Keeps.foldl; intro _ _ _)
    | (with_reducible apply Keeps.foldl_snd; intro _ _ _)
    | (with_reducible apply Keeps.foldl_fst; intro _ _ _)
    | with_reducible apply Keeps.ite
    | split
    | with_reducible apply Keeps.upd
    | with_reducible exact memPutBytes_wf _ _ _
    | with_reducible exact memPutLE_wf _ _ _ _
    | (intro h; with_reducible exact memPuts_wf h)
    | with_reducible exact memPut_wf _ _ _
    | with_reducible exact memClear_wf _ _ _
    | with_reducible exact memKeep_wf _ _
    | exact fun h => absurd h (by omega)
    | intro _ _
    | dsimp only

theorem keeps_syncInLeft {lv : Nat} {ss0 : State} {s : State} (hK : Keeps lv ss0 s) :
    Keeps lv ss0 (syncInLeft s) := by
  unfold syncInLeft
  try dsimp only
  iterate 40 try any_goals first
    | with_reducible assumption
    | with_reducible exact fun h => h
    | with_reducible exact fun _ h => h
    | with_reducible exact fun _ => rfl
    | with_reducible exact fun _ => ⟨rfl, rfl⟩
    | with_reducible exact rfl
    | with_reducible exact fun _ => Mem.wf_nil
    | (intro _; with_reducible exact memPutBytes_wf _ _ _)
    | with_reducible apply keeps_referenceChange
    | with_reducible apply keeps_losesSources
    | with_reducible apply keeps_syncEvent
    | with_reducible apply Keeps.id
    | (with_reducible apply Keeps.foldl; intro _ _ _)
    | (with_reducible apply Keeps.foldl_snd; intro _ _ _)
    | (with_reducible apply Keeps.foldl_fst; intro _ _ _)
    | with_reducible apply Keeps.ite
    | split
    | with_reducible apply Keeps.upd
    | with_reducible exact memPutBytes_wf _ _ _
    | with_reducible exact memPutLE_wf _ _ _ _
    | (intro h; with_reducible exact memPuts_wf h)
    | with_reducible exact memPut_wf _ _ _
    | with_reducible exact memClear_wf _ _ _
    | with_reducible exact memKeep_wf _ _
    | exact fun h => absurd h (by omega)
    | intro _ _
    | dsimp only

theorem keeps_syncHeld {lv : Nat} {ss0 : State} {v : Int} {s : State} (hK : Keeps lv ss0 s) :
    Keeps lv ss0 (syncHeld v s) := by
  unfold syncHeld
  exact keeps_syncMeasure (hK.upd id (fun _ => rfl) rfl (fun _ => ⟨rfl, rfl⟩) id id id)

theorem keeps_syncInCounted {lv : Nat} {ss0 : State} {v : Int} {held : Bool} {s : State} (hK : Keeps lv ss0 s) :
    Keeps lv ss0 (syncInCounted v held s) := by
  unfold syncInCounted
  iterate 40 try any_goals first
    | with_reducible assumption
    | with_reducible exact fun h => h
    | with_reducible exact fun _ => rfl
    | with_reducible exact fun _ => ⟨rfl, rfl⟩
    | with_reducible exact rfl
    | with_reducible apply keeps_syncMeasure
    | with_reducible apply keeps_syncHeld
    | with_reducible apply keeps_syncEvent
    | with_reducible apply Keeps.ite
    | with_reducible apply Keeps.upd

theorem keeps_execSyncInFrame (fmt : Fin 5) (num : Nat) (den : Nat) (periodPs : Nat) (stamp : Nat) (s : State) :
    KeepsO 0 s (execSyncInFrame fmt num den periodPs stamp s) := by
  have h : Keeps 0 s (stampRx s 10 stamp).2 := keeps_stampRx (.refl _ _)
  have h2 : ∀ c : Bool, Keeps 0 s (if c then syncInLeft (stampRx s 10 stamp).2 else (stampRx s 10 stamp).2) := by
    intro c; split
    · exact keeps_syncInLeft h
    · exact h
  unfold execSyncInFrame
  by_cases hc : (!s.time.syncIn.enable || fmt.val = 0 || num = 0 || den = 0 || !syncRateOk fmt.val num den) = true
  · exact (if_pos hc) ▸ .next (.refl _ _)
  · by_cases hp : (!linePeriodOk fmt.val num den periodPs) = true
    · have h3 : Keeps 0 s { (stampRx s 10 stamp).2 with time.syncIn := { s.time.syncIn with
          frames := 0, periodPs := periodPs } } := h.upd id (fun _ => rfl) rfl (fun _ => ⟨rfl, rfl⟩) id id id
      exact (if_neg hc) ▸ (if_pos hp) ▸ .next (.ite (keeps_syncHeld h3) h3)
    · exact (if_neg hc) ▸ (if_neg hp) ▸
        .next (keeps_syncInCounted ((h2 _).upd id (fun _ => rfl) rfl (fun _ => ⟨rfl, rfl⟩) id id id))

theorem keeps_execSyncInLost (s : State) : KeepsO 0 s (execSyncInLost s) := by
  unfold execSyncInLost
  iterate 40 try any_goals with_reducible first | apply KeepsO.next | exact Keeps.refl _ _ | apply keeps_loseSync

theorem keeps_execLtcFrame (value : BitVec 32) (stamp : Nat) (s : State) : KeepsO 0 s (execLtcFrame value stamp s) := by
  unfold execLtcFrame
  try dsimp only
  iterate 40 try any_goals first
    | with_reducible apply KeepsO.next
    | with_reducible exact Keeps.refl _ _
    | with_reducible exact fun h => h
    | with_reducible exact fun _ => rfl
    | with_reducible exact fun _ => ⟨rfl, rfl⟩
    | with_reducible exact rfl
    | with_reducible apply keeps_stampRx
    | with_reducible apply keeps_ltcEvent
    | with_reducible apply Keeps.ite
    | split
    | with_reducible apply Keeps.upd

theorem keeps_execLtcFreewheel (s : State) : KeepsO 0 s (execLtcFreewheel s) := by
  unfold execLtcFreewheel
  try dsimp only
  iterate 40 try any_goals first
    | with_reducible apply KeepsO.next
    | with_reducible exact Keeps.refl _ _
    | with_reducible exact fun h => h
    | with_reducible exact fun _ => rfl
    | with_reducible exact fun _ => ⟨rfl, rfl⟩
    | with_reducible exact rfl
    | with_reducible apply keeps_ltcEvent
    | split
    | with_reducible apply Keeps.upd

theorem keeps_execLtcGeneratorFrame (offset : Int) (s : State) : KeepsO 0 s (execLtcGeneratorFrame offset s) := by
  unfold execLtcGeneratorFrame
  try dsimp only
  iterate 40 try any_goals first
    | with_reducible apply KeepsO.next
    | with_reducible exact Keeps.refl _ _
    | with_reducible exact fun h => h
    | with_reducible exact fun _ => rfl
    | with_reducible exact fun _ => ⟨rfl, rfl⟩
    | with_reducible exact rfl
    | with_reducible apply keeps_ltcEvent
    | with_reducible apply Keeps.ite
    | split
    | with_reducible apply Keeps.upd

/-! ## LaneOps -/

theorem keeps_updSerial {lv : Nat} {ss0 : State} {s : State} {a : Nat} {f : SerialLane → SerialLane} (hK : Keeps lv ss0 s) :
    Keeps lv ss0 (updSerial s a f) := by
  unfold updSerial
  iterate 40 try any_goals first
    | with_reducible assumption
    | with_reducible exact fun h => h
    | with_reducible exact fun _ => rfl
    | with_reducible exact fun _ => ⟨rfl, rfl⟩
    | with_reducible exact rfl
    | split
    | with_reducible apply Keeps.upd

theorem keeps_updLink {lv : Nat} {ss0 : State} {s : State} {q : Nat} {f : LaneLink → LaneLink} (hK : Keeps lv ss0 s) :
    Keeps lv ss0 (updLink s q f) := by
  unfold updLink
  iterate 40 try any_goals first
    | with_reducible assumption
    | with_reducible exact fun h => h
    | with_reducible exact fun _ => rfl
    | with_reducible exact fun _ => ⟨rfl, rfl⟩
    | with_reducible exact rfl
    | with_reducible apply Keeps.upd

theorem keeps_laneEvent {lv : Nat} {ss0 : State} {s : State} {a : Nat} {old : Nat} {new : Nat} {cause : Nat} (hK : Keeps lv ss0 s) :
    Keeps lv ss0 (laneEvent s a old new cause) := by
  unfold laneEvent
  iterate 40 try any_goals with_reducible first | assumption | apply keeps_notify

theorem keeps_adapted {lv : Nat} {ss0 : State} {s : State} {a : Nat} (hK : Keeps lv ss0 s) :
    Keeps lv ss0 (adapted s a) := by
  unfold adapted
  try dsimp only
  iterate 40 try any_goals first
    | with_reducible assumption
    | with_reducible exact fun h => h
    | with_reducible exact fun _ h => h
    | with_reducible exact fun _ => rfl
    | with_reducible exact fun _ => ⟨rfl, rfl⟩
    | with_reducible exact rfl
    | with_reducible exact fun _ => Mem.wf_nil
    | (intro _; with_reducible exact memPutBytes_wf _ _ _)
    | with_reducible apply keeps_drawBytes
    | with_reducible apply keeps_updSerial
    | with_reducible apply Keeps.id
    | (with_reducible apply Keeps.foldl; intro _ _ _)
    | (with_reducible apply Keeps.foldl_snd; intro _ _ _)
    | (with_reducible apply Keeps.foldl_fst; intro _ _ _)
    | with_reducible apply Keeps.ite
    | split
    | with_reducible apply Keeps.upd
    | with_reducible exact memPutBytes_wf _ _ _
    | with_reducible exact memPutLE_wf _ _ _ _
    | (intro h; with_reducible exact memPuts_wf h)
    | with_reducible exact memPut_wf _ _ _
    | with_reducible exact memClear_wf _ _ _
    | with_reducible exact memKeep_wf _ _
    | exact fun h => absurd h (by omega)
    | intro _ _
    | dsimp only

theorem keeps_loopEvent {lv : Nat} {ss0 : State} {s : State} {a : Nat} {l : LaneLoop} {result : Nat} {spare : Bool} {bits : Nat} {errs : Nat} (hK : Keeps lv ss0 s) :
    Keeps lv ss0 (loopEvent s a l result spare bits errs) := by
  unfold loopEvent
  try dsimp only
  iterate 40 try any_goals first
    | with_reducible assumption
    | with_reducible exact fun h => h
    | with_reducible exact fun _ h => h
    | with_reducible exact fun _ => rfl
    | with_reducible exact fun _ => ⟨rfl, rfl⟩
    | with_reducible exact rfl
    | with_reducible exact fun _ => Mem.wf_nil
    | (intro _; with_reducible exact memPutBytes_wf _ _ _)
    | with_reducible apply keeps_notify
    | with_reducible apply Keeps.id
    | (with_reducible apply Keeps.foldl; intro _ _ _)
    | (with_reducible apply Keeps.foldl_snd; intro _ _ _)
    | (with_reducible apply Keeps.foldl_fst; intro _ _ _)
    | with_reducible apply Keeps.ite
    | split
    | with_reducible apply Keeps.upd
    | with_reducible exact memPutBytes_wf _ _ _
    | with_reducible exact memPutLE_wf _ _ _ _
    | (intro h; with_reducible exact memPuts_wf h)
    | with_reducible exact memPut_wf _ _ _
    | with_reducible exact memClear_wf _ _ _
    | with_reducible exact memKeep_wf _ _
    | exact fun h => absurd h (by omega)
    | intro _ _
    | dsimp only

theorem keeps_stopLoop {lv : Nat} {ss0 : State} {s : State} {a : Nat} (hK : Keeps lv ss0 s) :
    Keeps lv ss0 (stopLoop s a) := by
  unfold stopLoop
  try dsimp only
  iterate 40 try any_goals first
    | with_reducible assumption
    | with_reducible exact fun h => h
    | with_reducible exact fun _ h => h
    | with_reducible exact fun _ => rfl
    | with_reducible exact fun _ => ⟨rfl, rfl⟩
    | with_reducible exact rfl
    | with_reducible exact fun _ => Mem.wf_nil
    | (intro _; with_reducible exact memPutBytes_wf _ _ _)
    | with_reducible apply keeps_draw
    | with_reducible apply keeps_loopEvent
    | with_reducible apply keeps_updSerial
    | with_reducible apply Keeps.id
    | (with_reducible apply Keeps.foldl; intro _ _ _)
    | (with_reducible apply Keeps.foldl_snd; intro _ _ _)
    | (with_reducible apply Keeps.foldl_fst; intro _ _ _)
    | with_reducible apply Keeps.ite
    | split
    | with_reducible apply Keeps.upd
    | with_reducible exact memPutBytes_wf _ _ _
    | with_reducible exact memPutLE_wf _ _ _ _
    | (intro h; with_reducible exact memPuts_wf h)
    | with_reducible exact memPut_wf _ _ _
    | with_reducible exact memClear_wf _ _ _
    | with_reducible exact memKeep_wf _ _
    | exact fun h => absurd h (by omega)
    | intro _ _
    | dsimp only

theorem keeps_setLane {lv : Nat} {ss0 : State} {s : State} {a : Nat} {want : Nat} {cause : Nat} (hK : Keeps lv ss0 s) :
    Keeps lv ss0 (setLane s a want cause) := by
  unfold setLane
  try dsimp only
  iterate 40 try any_goals first
    | with_reducible assumption
    | with_reducible exact fun h => h
    | with_reducible exact fun _ h => h
    | with_reducible exact fun _ => rfl
    | with_reducible exact fun _ => ⟨rfl, rfl⟩
    | with_reducible exact rfl
    | with_reducible exact fun _ => Mem.wf_nil
    | (intro _; with_reducible exact memPutBytes_wf _ _ _)
    | with_reducible apply keeps_stopLoop
    | with_reducible apply keeps_adapted
    | with_reducible apply keeps_laneEvent
    | with_reducible apply keeps_updSerial
    | with_reducible apply Keeps.id
    | (with_reducible apply Keeps.foldl; intro _ _ _)
    | (with_reducible apply Keeps.foldl_snd; intro _ _ _)
    | (with_reducible apply Keeps.foldl_fst; intro _ _ _)
    | with_reducible apply Keeps.ite
    | split
    | with_reducible apply Keeps.upd
    | with_reducible exact memPutBytes_wf _ _ _
    | with_reducible exact memPutLE_wf _ _ _ _
    | (intro h; with_reducible exact memPuts_wf h)
    | with_reducible exact memPut_wf _ _ _
    | with_reducible exact memClear_wf _ _ _
    | with_reducible exact memKeep_wf _ _
    | exact fun h => absurd h (by omega)
    | intro _ _
    | dsimp only

theorem keeps_countLoss {lv : Nat} {ss0 : State} {s : State} {a : Nat} (hK : Keeps lv ss0 s) :
    Keeps lv ss0 (countLoss s a) := by
  unfold countLoss
  iterate 40 try any_goals with_reducible first | assumption | apply keeps_updSerial

theorem keeps_linkEventOf {lv : Nat} {ss0 : State} {s : State} {q : Nat} {what : Nat} {pos : Nat} (hK : Keeps lv ss0 s) :
    Keeps lv ss0 (linkEventOf s q what pos) := by
  unfold linkEventOf
  iterate 40 try any_goals with_reducible first | assumption | apply keeps_notify | split

theorem keeps_restripe {lv : Nat} {ss0 : State} {s : State} {q : Nat} (hK : Keeps lv ss0 s) :
    Keeps lv ss0 (restripe s q) := by
  unfold restripe
  iterate 40 try any_goals with_reducible first | assumption | apply keeps_updPort

theorem keeps_takeSpare {lv : Nat} {ss0 : State} {s : State} {q : Nat} {pos : Nat} (hK : Keeps lv ss0 s) :
    Keeps lv ss0 (takeSpare s q pos) := by
  unfold takeSpare
  try dsimp only
  iterate 40 try any_goals first
    | with_reducible assumption
    | with_reducible exact fun h => h
    | with_reducible exact fun _ h => h
    | with_reducible exact fun _ => rfl
    | with_reducible exact fun _ => ⟨rfl, rfl⟩
    | with_reducible exact rfl
    | with_reducible exact fun _ => Mem.wf_nil
    | (intro _; with_reducible exact memPutBytes_wf _ _ _)
    | with_reducible apply keeps_setLeaf
    | with_reducible apply keeps_updSerial
    | with_reducible apply keeps_setLane
    | with_reducible apply keeps_updLink
    | with_reducible apply Keeps.id
    | (with_reducible apply Keeps.foldl; intro _ _ _)
    | (with_reducible apply Keeps.foldl_snd; intro _ _ _)
    | (with_reducible apply Keeps.foldl_fst; intro _ _ _)
    | with_reducible apply Keeps.ite
    | split
    | with_reducible apply Keeps.upd
    | with_reducible exact memPutBytes_wf _ _ _
    | with_reducible exact memPutLE_wf _ _ _ _
    | (intro h; with_reducible exact memPuts_wf h)
    | with_reducible exact memPut_wf _ _ _
    | with_reducible exact memClear_wf _ _ _
    | with_reducible exact memKeep_wf _ _
    | exact fun h => absurd h (by omega)
    | intro _ _
    | dsimp only

theorem keeps_laneLedger {lv : Nat} {ss0 : State} {s : State} {event : Nat} {cause : Nat} {a : Nat} {spare : Nat} (hK : Keeps lv ss0 s) :
    Keeps lv ss0 (laneLedger s event cause a spare) := by
  unfold laneLedger
  iterate 40 try any_goals with_reducible first | assumption | apply keeps_spareRecord

theorem keeps_afterLoss {lv : Nat} {ss0 : State} {s : State} {q : Nat} {pos : Nat} (hK : Keeps lv ss0 s) :
    Keeps lv ss0 (afterLoss s q pos) := by
  unfold afterLoss
  iterate 40 try any_goals first
    | with_reducible assumption
    | with_reducible apply keeps_linkLanesDown
    | with_reducible apply keeps_linkEventOf
    | with_reducible apply keeps_updLink
    | with_reducible apply keeps_restripe
    | with_reducible apply Keeps.ite
    | split

theorem keeps_losePosition {lv : Nat} {ss0 : State} {s : State} {q : Nat} {pos : Nat} {ledger : Nat} {cause : Nat} (hK : Keeps lv ss0 s) :
    Keeps lv ss0 (losePosition s q pos ledger cause) := by
  unfold losePosition
  try dsimp only
  iterate 40 try any_goals first
    | with_reducible assumption
    | with_reducible exact fun h => h
    | with_reducible exact fun _ h => h
    | with_reducible exact fun _ => rfl
    | with_reducible exact fun _ => ⟨rfl, rfl⟩
    | with_reducible exact rfl
    | with_reducible exact fun _ => Mem.wf_nil
    | (intro _; with_reducible exact memPutBytes_wf _ _ _)
    | with_reducible apply keeps_updLink
    | with_reducible apply keeps_setLane
    | with_reducible apply keeps_takeSpare
    | with_reducible apply keeps_setLeaf
    | with_reducible apply keeps_laneLedger
    | with_reducible apply keeps_afterLoss
    | with_reducible apply Keeps.id
    | (with_reducible apply Keeps.foldl; intro _ _ _)
    | (with_reducible apply Keeps.foldl_snd; intro _ _ _)
    | (with_reducible apply Keeps.foldl_fst; intro _ _ _)
    | with_reducible apply Keeps.ite
    | split
    | with_reducible apply Keeps.upd
    | with_reducible exact memPutBytes_wf _ _ _
    | with_reducible exact memPutLE_wf _ _ _ _
    | (intro h; with_reducible exact memPuts_wf h)
    | with_reducible exact memPut_wf _ _ _
    | with_reducible exact memClear_wf _ _ _
    | with_reducible exact memKeep_wf _ _
    | exact fun h => absurd h (by omega)
    | intro _ _
    | dsimp only

theorem keeps_loseSpare {lv : Nat} {ss0 : State} {s : State} {q : Nat} {a : Nat} {ledger : Nat} {cause : Nat} (hK : Keeps lv ss0 s) :
    Keeps lv ss0 (loseSpare s q a ledger cause) := by
  unfold loseSpare
  try dsimp only
  iterate 40 try any_goals first
    | with_reducible assumption
    | with_reducible exact fun h => h
    | with_reducible exact fun _ h => h
    | with_reducible exact fun _ => rfl
    | with_reducible exact fun _ => ⟨rfl, rfl⟩
    | with_reducible exact rfl
    | with_reducible exact fun _ => Mem.wf_nil
    | (intro _; with_reducible exact memPutBytes_wf _ _ _)
    | with_reducible apply keeps_updLink
    | with_reducible apply keeps_laneLedger
    | with_reducible apply keeps_setLeaf
    | with_reducible apply keeps_setLane
    | with_reducible apply Keeps.id
    | (with_reducible apply Keeps.foldl; intro _ _ _)
    | (with_reducible apply Keeps.foldl_snd; intro _ _ _)
    | (with_reducible apply Keeps.foldl_fst; intro _ _ _)
    | with_reducible apply Keeps.ite
    | split
    | with_reducible apply Keeps.upd
    | with_reducible exact memPutBytes_wf _ _ _
    | with_reducible exact memPutLE_wf _ _ _ _
    | (intro h; with_reducible exact memPuts_wf h)
    | with_reducible exact memPut_wf _ _ _
    | with_reducible exact memClear_wf _ _ _
    | with_reducible exact memKeep_wf _ _
    | exact fun h => absurd h (by omega)
    | intro _ _
    | dsimp only

theorem keeps_joinSpare {lv : Nat} {ss0 : State} {s : State} {q : Nat} (hK : Keeps lv ss0 s) :
    Keeps lv ss0 (joinSpare s q) := by
  unfold joinSpare
  iterate 40 try any_goals first
    | with_reducible assumption
    | with_reducible apply keeps_updLink
    | with_reducible apply keeps_laneLedger
    | with_reducible apply keeps_setLane
    | with_reducible apply keeps_restripe
    | with_reducible apply keeps_linkEventOf
    | with_reducible apply keeps_countSubst
    | with_reducible apply keeps_linkLanesUp
    | with_reducible apply Keeps.ite
    | split

theorem keeps_formLink {lv : Nat} {ss0 : State} {s : State} {q : Nat} (hK : Keeps lv ss0 s) :
    Keeps lv ss0 (formLink s q) := by
  unfold formLink
  iterate 40 try any_goals first
    | with_reducible assumption
    | with_reducible apply keeps_updLink
    | with_reducible apply keeps_linkLanesUp
    | with_reducible apply keeps_linkEventOf
    | with_reducible apply Keeps.ite
    | split

theorem keeps_linkRetrain {lv : Nat} {ss0 : State} {s : State} {q : Nat} (hK : Keeps lv ss0 s) :
    Keeps lv ss0 (linkRetrain s q) := by
  unfold linkRetrain
  try dsimp only
  iterate 40 try any_goals first
    | with_reducible assumption
    | with_reducible exact fun h => h
    | with_reducible exact fun _ h => h
    | with_reducible exact fun _ => rfl
    | with_reducible exact fun _ => ⟨rfl, rfl⟩
    | with_reducible exact rfl
    | with_reducible exact fun _ => Mem.wf_nil
    | (intro _; with_reducible exact memPutBytes_wf _ _ _)
    | with_reducible apply keeps_setLane
    | with_reducible apply keeps_linkLanesDown
    | with_reducible apply keeps_linkEventOf
    | with_reducible apply keeps_setLeaf
    | with_reducible apply keeps_updLink
    | with_reducible apply Keeps.id
    | (with_reducible apply Keeps.foldl; intro _ _ _)
    | (with_reducible apply Keeps.foldl_snd; intro _ _ _)
    | (with_reducible apply Keeps.foldl_fst; intro _ _ _)
    | with_reducible apply Keeps.ite
    | split
    | with_reducible apply Keeps.upd
    | with_reducible exact memPutBytes_wf _ _ _
    | with_reducible exact memPutLE_wf _ _ _ _
    | (intro h; with_reducible exact memPuts_wf h)
    | with_reducible exact memPut_wf _ _ _
    | with_reducible exact memClear_wf _ _ _
    | with_reducible exact memKeep_wf _ _
    | exact fun h => absurd h (by omega)
    | intro _ _
    | dsimp only

theorem keeps_loseOld {lv : Nat} {ss0 : State} {s : State} {lanes : List Nat} {cause : Nat} (hK : Keeps lv ss0 s) :
    Keeps lv ss0 (loseOld s lanes cause) := by
  unfold loseOld
  try dsimp only
  iterate 40 try any_goals first
    | with_reducible assumption
    | with_reducible exact fun h => h
    | with_reducible exact fun _ h => h
    | with_reducible exact fun _ => rfl
    | with_reducible exact fun _ => ⟨rfl, rfl⟩
    | with_reducible exact rfl
    | with_reducible exact fun _ => Mem.wf_nil
    | (intro _; with_reducible exact memPutBytes_wf _ _ _)
    | with_reducible apply keeps_setLane
    | with_reducible apply keeps_countLoss
    | with_reducible apply keeps_linkRetrain
    | with_reducible apply Keeps.id
    | (with_reducible apply Keeps.foldl; intro _ _ _)
    | (with_reducible apply Keeps.foldl_snd; intro _ _ _)
    | (with_reducible apply Keeps.foldl_fst; intro _ _ _)
    | with_reducible apply Keeps.ite
    | split
    | with_reducible apply Keeps.upd
    | with_reducible exact memPutBytes_wf _ _ _
    | with_reducible exact memPutLE_wf _ _ _ _
    | (intro h; with_reducible exact memPuts_wf h)
    | with_reducible exact memPut_wf _ _ _
    | with_reducible exact memClear_wf _ _ _
    | with_reducible exact memKeep_wf _ _
    | exact fun h => absurd h (by omega)
    | intro _ _
    | dsimp only

theorem keeps_ringPortDown {lv : Nat} {ss0 : State} {s : State} {q : Nat} (hK : Keeps lv ss0 s) :
    Keeps lv ss0 (ringPortDown s q) := by
  unfold ringPortDown
  iterate 40 try any_goals first
    | with_reducible assumption
    | with_reducible apply keeps_updPort
    | with_reducible apply keeps_ringPortEvent
    | with_reducible apply keeps_endBreak
    | with_reducible apply keeps_enqueueAt
    | (with_reducible apply Keeps.foldl; intro _ _ _)
    | with_reducible apply Keeps.ite

theorem keeps_enterLowPower {lv : Nat} {ss0 : State} {s : State} {q : Nat} {lp : Nat} (hK : Keeps lv ss0 s) :
    Keeps lv ss0 (enterLowPower s q lp) := by
  unfold enterLowPower
  try dsimp only
  iterate 40 try any_goals first
    | with_reducible assumption
    | with_reducible exact fun h => h
    | with_reducible exact fun _ h => h
    | with_reducible exact fun _ => rfl
    | with_reducible exact fun _ => ⟨rfl, rfl⟩
    | with_reducible exact rfl
    | with_reducible exact fun _ => Mem.wf_nil
    | (intro _; with_reducible exact memPutBytes_wf _ _ _)
    | with_reducible apply keeps_ringPortDown
    | with_reducible apply keeps_updLink
    | with_reducible apply keeps_linkEventOf
    | with_reducible apply keeps_setLane
    | with_reducible apply Keeps.id
    | (with_reducible apply Keeps.foldl; intro _ _ _)
    | (with_reducible apply Keeps.foldl_snd; intro _ _ _)
    | (with_reducible apply Keeps.foldl_fst; intro _ _ _)
    | with_reducible apply Keeps.ite
    | split
    | with_reducible apply Keeps.upd
    | with_reducible exact memPutBytes_wf _ _ _
    | with_reducible exact memPutLE_wf _ _ _ _
    | (intro h; with_reducible exact memPuts_wf h)
    | with_reducible exact memPut_wf _ _ _
    | with_reducible exact memClear_wf _ _ _
    | with_reducible exact memKeep_wf _ _
    | exact fun h => absurd h (by omega)
    | intro _ _
    | dsimp only

theorem keeps_leaveLowPower {lv : Nat} {ss0 : State} {s : State} {q : Nat} (hK : Keeps lv ss0 s) :
    Keeps lv ss0 (leaveLowPower s q) := by
  unfold leaveLowPower
  try dsimp only
  iterate 40 try any_goals first
    | with_reducible assumption
    | with_reducible exact fun h => h
    | with_reducible exact fun _ h => h
    | with_reducible exact fun _ => rfl
    | with_reducible exact fun _ => ⟨rfl, rfl⟩
    | with_reducible exact rfl
    | with_reducible exact fun _ => Mem.wf_nil
    | (intro _; with_reducible exact memPutBytes_wf _ _ _)
    | with_reducible apply keeps_updLink
    | with_reducible apply keeps_setLane
    | with_reducible apply keeps_linkEventOf
    | with_reducible apply keeps_linkLanesUp
    | with_reducible apply Keeps.id
    | (with_reducible apply Keeps.foldl; intro _ _ _)
    | (with_reducible apply Keeps.foldl_snd; intro _ _ _)
    | (with_reducible apply Keeps.foldl_fst; intro _ _ _)
    | with_reducible apply Keeps.ite
    | split
    | with_reducible apply Keeps.upd
    | with_reducible exact memPutBytes_wf _ _ _
    | with_reducible exact memPutLE_wf _ _ _ _
    | (intro h; with_reducible exact memPuts_wf h)
    | with_reducible exact memPut_wf _ _ _
    | with_reducible exact memClear_wf _ _ _
    | with_reducible exact memKeep_wf _ _
    | exact fun h => absurd h (by omega)
    | intro _ _
    | dsimp only

theorem keeps_portPower {lv : Nat} {ss0 : State} {s : State} {q : Nat} {state : Nat} (hK : Keeps lv ss0 s) :
    Keeps lv ss0 (portPower s q state) := by
  unfold portPower
  iterate 40 try any_goals first
    | with_reducible assumption
    | with_reducible apply keeps_updLink
    | with_reducible apply keeps_endBreak
    | with_reducible apply keeps_leaveLowPower
    | with_reducible apply Keeps.ite
    | split

theorem keeps_updEth {lv : Nat} {ss0 : State} {s : State} {e : Nat} {f : EthPort → EthPort} (hK : Keeps lv ss0 s) :
    Keeps lv ss0 (updEth s e f) := by
  unfold updEth
  iterate 40 try any_goals first
    | with_reducible assumption
    | with_reducible exact fun h => h
    | with_reducible exact fun _ => rfl
    | with_reducible exact fun _ => ⟨rfl, rfl⟩
    | with_reducible exact rfl
    | with_reducible apply Keeps.upd

theorem keeps_ethEvent {lv : Nat} {ss0 : State} {s : State} {e : Nat} {up : Bool} (hK : Keeps lv ss0 s) :
    Keeps lv ss0 (ethEvent s e up) := by
  unfold ethEvent
  iterate 40 try any_goals with_reducible first | assumption | apply keeps_notify

theorem keeps_ethLink {lv : Nat} {ss0 : State} {s : State} {e : Nat} {up : Bool} (hK : Keeps lv ss0 s) :
    Keeps lv ss0 (ethLink s e up) := by
  unfold ethLink
  iterate 40 try any_goals first
    | with_reducible assumption
    | with_reducible apply keeps_ethEvent
    | with_reducible apply keeps_updEth
    | with_reducible apply Keeps.ite

theorem keeps_epTrain {lv : Nat} {ss0 : State} {s : State} (hK : Keeps lv ss0 s) :
    Keeps lv ss0 (epTrain s) := by
  unfold epTrain
  try dsimp only
  iterate 40 try any_goals first
    | with_reducible assumption
    | with_reducible exact fun h => h
    | with_reducible exact fun _ h => h
    | with_reducible exact fun _ => rfl
    | with_reducible exact fun _ => ⟨rfl, rfl⟩
    | with_reducible exact rfl
    | with_reducible exact fun _ => Mem.wf_nil
    | (intro _; with_reducible exact memPutBytes_wf _ _ _)
    | with_reducible apply keeps_draw
    | with_reducible apply Keeps.id
    | (with_reducible apply Keeps.foldl; intro _ _ _)
    | (with_reducible apply Keeps.foldl_snd; intro _ _ _)
    | (with_reducible apply Keeps.foldl_fst; intro _ _ _)
    | with_reducible apply Keeps.ite
    | split
    | with_reducible apply Keeps.upd
    | with_reducible exact memPutBytes_wf _ _ _
    | with_reducible exact memPutLE_wf _ _ _ _
    | (intro h; with_reducible exact memPuts_wf h)
    | with_reducible exact memPut_wf _ _ _
    | with_reducible exact memClear_wf _ _ _
    | with_reducible exact memKeep_wf _ _
    | exact fun h => absurd h (by omega)
    | intro _ _
    | dsimp only

theorem keeps_rootLanes {lv : Nat} {ss0 : State} {s : State} {p : Nat} {width : Nat} {up : Bool} (hK : Keeps lv ss0 s) :
    Keeps lv ss0 (rootLanes s p width up) := by
  unfold rootLanes
  iterate 40 try any_goals with_reducible first | assumption | apply keeps_setLane | apply Keeps.foldl; intro _ _ _

theorem keeps_pcieRetrain {lv : Nat} {ss0 : State} {s : State} {a : Nat} (hK : Keeps lv ss0 s) :
    Keeps lv ss0 (pcieRetrain s a) := by
  unfold pcieRetrain
  try dsimp only
  iterate 40 try any_goals first
    | with_reducible assumption
    | with_reducible exact fun h => h
    | with_reducible exact fun _ h => h
    | with_reducible exact fun _ => rfl
    | with_reducible exact fun _ => ⟨rfl, rfl⟩
    | with_reducible exact rfl
    | with_reducible exact fun _ => Mem.wf_nil
    | (intro _; with_reducible exact memPutBytes_wf _ _ _)
    | with_reducible apply keeps_epTrain
    | (intro h; with_reducible exact ⟨disks_modAt (fun _ h => h) h.1, h.2⟩)
    | with_reducible apply Keeps.id
    | (with_reducible apply Keeps.foldl; intro _ _ _)
    | (with_reducible apply Keeps.foldl_snd; intro _ _ _)
    | (with_reducible apply Keeps.foldl_fst; intro _ _ _)
    | with_reducible apply Keeps.ite
    | split
    | with_reducible apply Keeps.upd
    | with_reducible exact memPutBytes_wf _ _ _
    | with_reducible exact memPutLE_wf _ _ _ _
    | (intro h; with_reducible exact memPuts_wf h)
    | with_reducible exact memPut_wf _ _ _
    | with_reducible exact memClear_wf _ _ _
    | with_reducible exact memKeep_wf _ _
    | exact fun h => absurd h (by omega)
    | intro _ _
    | dsimp only

end Sys2Proof.Machine
end

