-- ==== Sys2Proof/Laws/KeepsStore.lean ====
section
/-! SUPPORT. What the operations of the Media Gate, the recording engine and the codec keep. -/

namespace Sys2Proof.Machine

/-! ## GateOps -/

theorem keeps_updGatePort {lv : Nat} {ss0 s : State} {p : Nat} {f : GatePort → GatePort} (hK : Keeps lv ss0 s)
    (hf : ∀ x, Mem.wf x.disk = true → Mem.wf (f x).disk = true) : Keeps lv ss0 (updGatePort s p f) :=
  hK.upd id (fun _ => rfl) rfl (fun _ => ⟨rfl, rfl⟩) id id fun h => ⟨fun x hx => by
    rcases mem_modAt hx with hx | ⟨y, hy, rfl⟩
    · exact h.1 x hx
    · exact hf y (h.1 y hy), h.2⟩

theorem keeps_updNvme {lv : Nat} {ss0 s : State} {f : Nvme → Nvme} (hK : Keeps lv ss0 s)
    (hf : Mem.wf s.gate.nvme.features = true → Mem.wf (f s.gate.nvme).features = true) : Keeps lv ss0 (updNvme s f) :=
  hK.upd id (fun _ => rfl) rfl (fun _ => ⟨rfl, rfl⟩) id id fun h => ⟨h.1, hf h.2⟩

theorem keeps_updVolume {lv : Nat} {ss0 : State} {s : State} {v : Nat} {f : Volume → Volume} (hK : Keeps lv ss0 s) :
    Keeps lv ss0 (updVolume s v f) := by
  unfold updVolume
  iterate 40 try any_goals first
    | with_reducible assumption
    | with_reducible exact fun h => h
    | with_reducible exact fun _ => rfl
    | with_reducible exact fun _ => ⟨rfl, rfl⟩
    | with_reducible exact rfl
    | with_reducible apply Keeps.upd

theorem keeps_updChan {lv : Nat} {ss0 : State} {s : State} {c : Nat} {f : RecChannel → RecChannel} (hK : Keeps lv ss0 s) :
    Keeps lv ss0 (updChan s c f) := by
  unfold updChan
  iterate 40 try any_goals first
    | with_reducible assumption
    | with_reducible exact fun h => h
    | with_reducible exact fun _ => rfl
    | with_reducible exact fun _ => ⟨rfl, rfl⟩
    | with_reducible exact rfl
    | with_reducible apply Keeps.upd

theorem keeps_postDone {lv : Nat} {ss0 : State} {s : State} {cqn : Nat} {d : NvmeDone} (hK : Keeps lv ss0 s) :
    Keeps lv ss0 (postDone s cqn d) := by
  unfold postDone
  iterate 40 try any_goals with_reducible first | assumption | exact fun h => h | apply keeps_updNvme

theorem keeps_nvmeComplete {lv : Nat} {ss0 : State} {s : State} {sq : Nat} {cid : Nat} {sct : Nat} {sc : Nat} {dw0 : Nat} (hK : Keeps lv ss0 s) :
    Keeps lv ss0 (nvmeComplete s sq cid sct sc dw0) := by
  unfold nvmeComplete
  iterate 40 try any_goals first
    | with_reducible assumption
    | with_reducible exact fun h => h
    | with_reducible apply keeps_updNvme
    | with_reducible apply keeps_postDone
    | with_reducible apply Keeps.ite

theorem keeps_postWaiting {lv : Nat} {ss0 : State} {cqn : Nat} : ∀ {nn : Nat} {sv : State},
    Keeps lv ss0 sv → Keeps lv ss0 (postWaiting cqn nn sv) := by
  intro nn
  induction nn with
  | zero => intro sv hK; exact hK
  | succ nn ih =>
    intro sv hK
    unfold postWaiting
    iterate 40 try any_goals first
      | with_reducible assumption
      | with_reducible apply ih
      | with_reducible exact fun h => h
      | with_reducible apply keeps_postDone
      | with_reducible apply keeps_updNvme
      | with_reducible apply Keeps.ite
      | split

theorem keeps_orphanSent {lv : Nat} {ss0 : State} {s : State} {hit : SessSent → Bool} (hK : Keeps lv ss0 s) :
    Keeps lv ss0 (orphanSent s hit) := by
  unfold orphanSent
  try dsimp only
  iterate 40 try any_goals first
    | with_reducible assumption
    | with_reducible exact fun h => h
    | with_reducible exact fun _ h => h
    | with_reducible exact fun _ => rfl
    | with_reducible exact fun _ => ⟨rfl, rfl⟩
    | with_reducible exact rfl
    | with_reducible exact fun _ => Mem.wf_nil
    | (intro _; with_reducible exact memPutBytes_wf _ _ _)
    | with_reducible apply Keeps.id
    | (with_reducible apply Keeps.foldl; intro _ _ _)
    | (with_reducible apply Keeps.foldl_snd; intro _ _ _)
    | (with_reducible apply Keeps.foldl_fst; intro _ _ _)
    | with_reducible apply Keeps.ite
    | split
    | with_reducible apply Keeps.upd
    | with_reducible exact memPutBytes_wf _ _ _
    | with_reducible exact memPutLE_wf _ _ _ _
    | (intro h; with_reducible exact memPuts_wf h)
    | with_reducible exact memPut_wf _ _ _
    | with_reducible exact memClear_wf _ _ _
    | with_reducible exact memKeep_wf _ _
    | exact fun h => absurd h (by omega)
    | intro _ _
    | dsimp only

theorem keeps_nvmeEnd {lv : Nat} {ss0 : State} {s : State} {c : NvmeCmd} {sct : Nat} {sc : Nat} {dw0 : Nat} (hK : Keeps lv ss0 s) :
    Keeps lv ss0 (nvmeEnd s c sct sc dw0) := by
  unfold nvmeEnd
  try dsimp only
  iterate 40 try any_goals first
    | with_reducible assumption
    | with_reducible exact fun h => h
    | with_reducible exact fun _ h => h
    | with_reducible exact fun _ => rfl
    | with_reducible exact fun _ => ⟨rfl, rfl⟩
    | with_reducible exact rfl
    | with_reducible exact fun _ => Mem.wf_nil
    | (intro _; with_reducible exact memPutBytes_wf _ _ _)
    | with_reducible apply keeps_nvmeComplete
    | with_reducible apply keeps_updNvme
    | with_reducible apply keeps_orphanSent
    | with_reducible apply Keeps.id
    | (with_reducible apply Keeps.foldl; intro _ _ _)
    | (with_reducible apply Keeps.foldl_snd; intro _ _ _)
    | (with_reducible apply Keeps.foldl_fst; intro _ _ _)
    | with_reducible apply Keeps.ite
    | split
    | with_reducible apply Keeps.upd
    | with_reducible exact memPutBytes_wf _ _ _
    | with_reducible exact memPutLE_wf _ _ _ _
    | (intro h; with_reducible exact memPuts_wf h)
    | with_reducible exact memPut_wf _ _ _
    | with_reducible exact memClear_wf _ _ _
    | with_reducible exact memKeep_wf _ _
    | exact fun h => absurd h (by omega)
    | intro _ _
    | dsimp only

theorem keeps_nsNotice {lv : Nat} {ss0 : State} {s : State} {nsid : Nat} (hK : Keeps lv ss0 s) :
    Keeps lv ss0 (nsNotice s nsid) := by
  unfold nsNotice
  try dsimp only
  iterate 40 try any_goals first
    | with_reducible assumption
    | with_reducible exact fun h => h
    | with_reducible apply keeps_updNvme
    | with_reducible apply keeps_nvmeEnd
    | split

theorem keeps_barrierEnd {lv : Nat} {ss0 : State} {s : State} {sq : Nat} (hK : Keeps lv ss0 s) :
    Keeps lv ss0 (barrierEnd s sq) := by
  unfold barrierEnd
  iterate 40 try any_goals with_reducible first | assumption | exact fun h => h | apply keeps_updNvme

theorem keeps_acceptWrite {lv : Nat} {ss0 : State} {s : State} {w : GWrite} (hK : Keeps lv ss0 s) :
    Keeps lv ss0 ((acceptWrite s w).2) := by
  unfold acceptWrite
  iterate 40 try any_goals first
    | with_reducible assumption
    | with_reducible exact fun h => h
    | with_reducible exact fun _ => rfl
    | with_reducible exact fun _ => ⟨rfl, rfl⟩
    | with_reducible exact rfl
    | with_reducible apply Keeps.upd

theorem keeps_noteSuper {lv : Nat} {ss0 : State} {s : State} {nsid : Nat} {lba : Nat} (hK : Keeps lv ss0 s) :
    Keeps lv ss0 (noteSuper s nsid lba) := by
  unfold noteSuper
  iterate 40 try any_goals first
    | with_reducible assumption
    | with_reducible exact fun _ h => h
    | with_reducible apply keeps_updGatePort
    | with_reducible apply keeps_nsNotice
    | with_reducible apply Keeps.ite

theorem keeps_updSession {lv : Nat} {ss0 : State} {s : State} {num : Nat} {f : Session → Session} (hK : Keeps lv ss0 s) :
    Keeps lv ss0 (updSession s num f) := by
  unfold updSession
  iterate 40 try any_goals first
    | with_reducible assumption
    | with_reducible exact fun h => h
    | with_reducible exact fun _ => rfl
    | with_reducible exact fun _ => ⟨rfl, rfl⟩
    | with_reducible exact rfl
    | with_reducible apply Keeps.upd

theorem keeps_sessionReply {lv : Nat} {ss0 : State} {s : State} {x : Session} {num : Nat} {sct : Nat} {sc : Nat} {data : List Byte} (hK : Keeps lv ss0 s) :
    Keeps lv ss0 (sessionReply s x num sct sc data) := by
  unfold sessionReply
  try dsimp only
  iterate 40 try any_goals first
    | with_reducible assumption
    | with_reducible exact fun h => h
    | with_reducible exact fun _ h => h
    | with_reducible exact fun _ => rfl
    | with_reducible exact fun _ => ⟨rfl, rfl⟩
    | with_reducible exact rfl
    | with_reducible exact fun _ => Mem.wf_nil
    | (intro _; with_reducible exact memPutBytes_wf _ _ _)
    | with_reducible apply keeps_flowQueueItem
    | with_reducible apply Keeps.id
    | (with_reducible apply Keeps.foldl; intro _ _ _)
    | (with_reducible apply Keeps.foldl_snd; intro _ _ _)
    | (with_reducible apply Keeps.foldl_fst; intro _ _ _)
    | with_reducible apply Keeps.ite
    | split
    | with_reducible apply Keeps.upd
    | with_reducible exact memPutBytes_wf _ _ _
    | with_reducible exact memPutLE_wf _ _ _ _
    | (intro h; with_reducible exact memPuts_wf h)
    | with_reducible exact memPut_wf _ _ _
    | with_reducible exact memClear_wf _ _ _
    | with_reducible exact memKeep_wf _ _
    | exact fun h => absurd h (by omega)
    | intro _ _
    | dsimp only

theorem keeps_tellSessions {lv : Nat} {ss0 : State} {s : State} {v : Nat} (hK : Keeps lv ss0 s) :
    Keeps lv ss0 (tellSessions s v) := by
  unfold tellSessions
  try dsimp only
  iterate 40 try any_goals first
    | with_reducible assumption
    | with_reducible exact fun h => h
    | with_reducible exact fun _ h => h
    | with_reducible exact fun _ => rfl
    | with_reducible exact fun _ => ⟨rfl, rfl⟩
    | with_reducible exact rfl
    | with_reducible exact fun _ => Mem.wf_nil
    | (intro _; with_reducible exact memPutBytes_wf _ _ _)
    | with_reducible apply keeps_sessionReply
    | with_reducible apply Keeps.id
    | (with_reducible apply Keeps.foldl; intro _ _ _)
    | (with_reducible apply Keeps.foldl_snd; intro _ _ _)
    | (with_reducible apply Keeps.foldl_fst; intro _ _ _)
    | with_reducible apply Keeps.ite
    | split
    | with_reducible apply Keeps.upd
    | with_reducible exact memPutBytes_wf _ _ _
    | with_reducible exact memPutLE_wf _ _ _ _
    | (intro h; with_reducible exact memPuts_wf h)
    | with_reducible exact memPut_wf _ _ _
    | with_reducible exact memClear_wf _ _ _
    | with_reducible exact memKeep_wf _ _
    | exact fun h => absurd h (by omega)
    | intro _ _
    | dsimp only

theorem keeps_sessionDone {lv : Nat} {ss0 : State} {s : State} {x : Session} {c : SessCmd} {sct : Nat} {sc : Nat} {data : List Byte} (hK : Keeps lv ss0 s) :
    Keeps lv ss0 (sessionDone s x c sct sc data) := by
  unfold sessionDone
  try dsimp only
  iterate 40 try any_goals first
    | with_reducible assumption
    | with_reducible exact fun h => h
    | with_reducible exact fun _ h => h
    | with_reducible exact fun _ => rfl
    | with_reducible exact fun _ => ⟨rfl, rfl⟩
    | with_reducible exact rfl
    | with_reducible exact fun _ => Mem.wf_nil
    | (intro _; with_reducible exact memPutBytes_wf _ _ _)
    | with_reducible apply keeps_sessionReply
    | with_reducible apply keeps_updSession
    | with_reducible apply Keeps.id
    | (with_reducible apply Keeps.foldl; intro _ _ _)
    | (with_reducible apply Keeps.foldl_snd; intro _ _ _)
    | (with_reducible apply Keeps.foldl_fst; intro _ _ _)
    | with_reducible apply Keeps.ite
    | split
    | with_reducible apply Keeps.upd
    | with_reducible exact memPutBytes_wf _ _ _
    | with_reducible exact memPutLE_wf _ _ _ _
    | (intro h; with_reducible exact memPuts_wf h)
    | with_reducible exact memPut_wf _ _ _
    | with_reducible exact memClear_wf _ _ _
    | with_reducible exact memKeep_wf _ _
    | exact fun h => absurd h (by omega)
    | intro _ _
    | dsimp only

theorem keeps_sessionHolds {lv : Nat} {ss0 : State} {s : State} {x : Session} {c : SessCmd} {w : SessWork} (hK : Keeps lv ss0 s) :
    Keeps lv ss0 (sessionHolds s x c w) := by
  unfold sessionHolds
  iterate 40 try any_goals with_reducible first | assumption | apply keeps_updSession

theorem keeps_serveRequest {lv : Nat} {ss0 : State} {s : State} {x : Session} {c : SessCmd} {b : List Byte} (hK : Keeps lv ss0 s) :
    Keeps lv ss0 (serveRequest s x c b) := by
  unfold serveRequest
  iterate 40 try any_goals first
    | with_reducible assumption
    | with_reducible exact fun _ h => h
    | with_reducible apply keeps_sessionDone
    | with_reducible apply keeps_sessionHolds
    | with_reducible apply keeps_draw
    | with_reducible apply keeps_updGatePort
    | with_reducible apply keeps_acceptWrite
    | with_reducible apply keeps_noteSuper
    | with_reducible apply keeps_updSession
    | with_reducible apply Keeps.ite
    | split

theorem keeps_startRequests {lv : Nat} {ss0 : State} {num : Nat} : ∀ {nn : Nat} {sv : State},
    Keeps lv ss0 sv → Keeps lv ss0 (startRequests num nn sv) := by
  intro nn
  induction nn with
  | zero => intro sv hK; exact hK
  | succ nn ih =>
    intro sv hK
    unfold startRequests
    iterate 40 try any_goals first
      | with_reducible assumption
      | with_reducible apply ih
      | with_reducible apply keeps_serveRequest
      | with_reducible apply Keeps.ite
      | split

theorem keeps_takeRequest {lv : Nat} {ss0 : State} {s : State} {num : Nat} (hK : Keeps lv ss0 s) :
    Keeps lv ss0 (takeRequest s num) := by
  unfold takeRequest
  try dsimp only
  iterate 40 try any_goals first
    | with_reducible assumption
    | with_reducible exact fun h => h
    | with_reducible exact fun _ h => h
    | with_reducible exact fun _ => rfl
    | with_reducible exact fun _ => ⟨rfl, rfl⟩
    | with_reducible exact rfl
    | with_reducible exact fun _ => Mem.wf_nil
    | (intro _; with_reducible exact memPutBytes_wf _ _ _)
    | with_reducible apply keeps_updSession
    | with_reducible apply keeps_updFlow
    | with_reducible apply Keeps.id
    | (with_reducible apply Keeps.foldl; intro _ _ _)
    | (with_reducible apply Keeps.foldl_snd; intro _ _ _)
    | (with_reducible apply Keeps.foldl_fst; intro _ _ _)
    | with_reducible apply Keeps.ite
    | split
    | with_reducible apply Keeps.upd
    | with_reducible exact memPutBytes_wf _ _ _
    | with_reducible exact memPutLE_wf _ _ _ _
    | (intro h; with_reducible exact memPuts_wf h)
    | with_reducible exact memPut_wf _ _ _
    | with_reducible exact memClear_wf _ _ _
    | with_reducible exact memKeep_wf _ _
    | exact fun h => absurd h (by omega)
    | intro _ _
    | dsimp only

theorem keeps_serveStored {lv : Nat} {ss0 : State} {num : Nat} : ∀ {nn : Nat} {sv : State},
    Keeps lv ss0 sv → Keeps lv ss0 (serveStored num nn sv) := by
  intro nn
  induction nn with
  | zero => intro sv hK; exact hK
  | succ nn ih =>
    intro sv hK
    unfold serveStored
    try dsimp only
    iterate 40 try any_goals first
      | with_reducible assumption
      | with_reducible apply ih
      | with_reducible exact fun h => h
      | with_reducible exact fun _ h => h
      | with_reducible exact fun _ => rfl
      | with_reducible exact fun _ => ⟨rfl, rfl⟩
      | with_reducible exact rfl
      | with_reducible exact fun _ => Mem.wf_nil
      | (intro _; with_reducible exact memPutBytes_wf _ _ _)
      | with_reducible apply keeps_takeRequest
      | with_reducible apply keeps_startRequests
      | with_reducible apply Keeps.id
      | (with_reducible apply Keeps.foldl; intro _ _ _)
      | (with_reducible apply Keeps.foldl_snd; intro _ _ _)
      | (with_reducible apply Keeps.foldl_fst; intro _ _ _)
      | with_reducible apply Keeps.ite
      | split
      | with_reducible apply Keeps.upd
      | with_reducible exact memPutBytes_wf _ _ _
      | with_reducible exact memPutLE_wf _ _ _ _
      | (intro h; with_reducible exact memPuts_wf h)
      | with_reducible exact memPut_wf _ _ _
      | with_reducible exact memClear_wf _ _ _
      | with_reducible exact memKeep_wf _ _
      | exact fun h => absurd h (by omega)
      | intro _ _
      | dsimp only

theorem keeps_settleSession {lv : Nat} {ss0 : State} {s : State} {num : Nat} (hK : Keeps lv ss0 s) :
    Keeps lv ss0 (settleSession s num) := by
  unfold settleSession
  try dsimp only
  iterate 40 try any_goals first
    | with_reducible assumption
    | with_reducible exact fun h => h
    | with_reducible exact fun _ h => h
    | with_reducible exact fun _ => rfl
    | with_reducible exact fun _ => ⟨rfl, rfl⟩
    | with_reducible exact rfl
    | with_reducible exact fun _ => Mem.wf_nil
    | (intro _; with_reducible exact memPutBytes_wf _ _ _)
    | with_reducible apply keeps_sessionDone
    | with_reducible apply keeps_serveStored
    | with_reducible apply keeps_freeFlow
    | with_reducible apply Keeps.id
    | (with_reducible apply Keeps.foldl; intro _ _ _)
    | (with_reducible apply Keeps.foldl_snd; intro _ _ _)
    | (with_reducible apply Keeps.foldl_fst; intro _ _ _)
    | with_reducible apply Keeps.ite
    | split
    | with_reducible apply Keeps.upd
    | with_reducible exact memPutBytes_wf _ _ _
    | with_reducible exact memPutLE_wf _ _ _ _
    | (intro h; with_reducible exact memPuts_wf h)
    | with_reducible exact memPut_wf _ _ _
    | with_reducible exact memClear_wf _ _ _
    | with_reducible exact memKeep_wf _ _
    | exact fun h => absurd h (by omega)
    | intro _ _
    | dsimp only

theorem keeps_settleCommands {lv : Nat} {ss0 : State} {s : State} (hK : Keeps lv ss0 s) :
    Keeps lv ss0 (settleCommands s) := by
  unfold settleCommands
  try dsimp only
  iterate 40 try any_goals first
    | with_reducible assumption
    | with_reducible exact fun h => h
    | with_reducible exact fun _ h => h
    | with_reducible exact fun _ => rfl
    | with_reducible exact fun _ => ⟨rfl, rfl⟩
    | with_reducible exact rfl
    | with_reducible exact fun _ => Mem.wf_nil
    | (intro _; with_reducible exact memPutBytes_wf _ _ _)
    | with_reducible apply keeps_nvmeEnd
    | with_reducible apply keeps_barrierEnd
    | with_reducible apply Keeps.id
    | (with_reducible apply Keeps.foldl; intro _ _ _)
    | (with_reducible apply Keeps.foldl_snd; intro _ _ _)
    | (with_reducible apply Keeps.foldl_fst; intro _ _ _)
    | with_reducible apply Keeps.ite
    | split
    | with_reducible apply Keeps.upd
    | with_reducible exact memPutBytes_wf _ _ _
    | with_reducible exact memPutLE_wf _ _ _ _
    | (intro h; with_reducible exact memPuts_wf h)
    | with_reducible exact memPut_wf _ _ _
    | with_reducible exact memClear_wf _ _ _
    | with_reducible exact memKeep_wf _ _
    | exact fun h => absurd h (by omega)
    | intro _ _
    | dsimp only

theorem keeps_nvmeSettle {lv : Nat} {ss0 : State} {s : State} (hK : Keeps lv ss0 s) :
    Keeps lv ss0 (nvmeSettle s) := by
  unfold nvmeSettle
  try dsimp only
  iterate 40 try any_goals first
    | with_reducible assumption
    | with_reducible exact fun h => h
    | with_reducible exact fun _ h => h
    | with_reducible exact fun _ => rfl
    | with_reducible exact fun _ => ⟨rfl, rfl⟩
    | with_reducible exact rfl
    | with_reducible exact fun _ => Mem.wf_nil
    | (intro _; with_reducible exact memPutBytes_wf _ _ _)
    | with_reducible apply keeps_settleCommands
    | with_reducible apply keeps_updNvme
    | with_reducible apply keeps_settleSession
    | with_reducible apply Keeps.id
    | (with_reducible apply Keeps.foldl; intro _ _ _)
    | (with_reducible apply Keeps.foldl_snd; intro _ _ _)
    | (with_reducible apply Keeps.foldl_fst; intro _ _ _)
    | with_reducible apply Keeps.ite
    | split
    | with_reducible apply Keeps.upd
    | with_reducible exact memPutBytes_wf _ _ _
    | with_reducible exact memPutLE_wf _ _ _ _
    | (intro h; with_reducible exact memPuts_wf h)
    | with_reducible exact memPut_wf _ _ _
    | with_reducible exact memClear_wf _ _ _
    | with_reducible exact memKeep_wf _ _
    | exact fun h => absurd h (by omega)
    | intro _ _
    | dsimp only

theorem keeps_updWrite {lv : Nat} {ss0 : State} {s : State} {id : Nat} {f : GWrite → GWrite} (hK : Keeps lv ss0 s) :
    Keeps lv ss0 (updWrite s id f) := by
  unfold updWrite
  iterate 40 try any_goals first
    | with_reducible assumption
    | with_reducible exact fun h => h
    | with_reducible exact fun _ => rfl
    | with_reducible exact fun _ => ⟨rfl, rfl⟩
    | with_reducible exact rfl
    | with_reducible apply Keeps.upd

theorem keeps_startRecord {lv : Nat} {ss0 : State} {s : State} {w : GWrite} {n : Nat} (hK : Keeps lv ss0 s) :
    Keeps lv ss0 (startRecord s w n) := by
  unfold startRecord
  iterate 40 try any_goals first
    | with_reducible assumption
    | with_reducible exact fun _ h => h
    | with_reducible apply keeps_updGatePort
    | with_reducible apply keeps_updWrite

theorem keeps_gateAdmit {lv : Nat} {ss0 : State} {s : State} {p : Nat} {n : Nat} (hK : Keeps lv ss0 s) :
    Keeps lv ss0 (gateAdmit s p n) := by
  unfold gateAdmit
  iterate 40 try any_goals first
    | with_reducible assumption
    | with_reducible apply keeps_startRecord
    | with_reducible apply keeps_updWrite
    | with_reducible apply Keeps.ite
    | split

theorem keeps_recordDurable {lv : Nat} {ss0 : State} {s : State} {w : GWrite} (hK : Keeps lv ss0 s) :
    Keeps lv ss0 (recordDurable s w) := by
  unfold recordDurable
  iterate 40 try any_goals first
    | with_reducible assumption
    | (intro _; with_reducible exact memPutBytes_wf _ _ _)
    | with_reducible apply keeps_updGatePort
    | with_reducible apply keeps_updWrite
    | split

theorem keeps_journalDurable {lv : Nat} {ss0 : State} {s : State} {p : Nat} (hK : Keeps lv ss0 s) :
    Keeps lv ss0 (journalDurable s p) := by
  unfold journalDurable
  iterate 40 try any_goals with_reducible first | assumption | apply keeps_recordDurable | split

theorem keeps_durableNote {lv : Nat} {ss0 : State} {s : State} {w : GWrite} (hK : Keeps lv ss0 s) :
    Keeps lv ss0 (durableNote s w) := by
  unfold durableNote
  iterate 40 try any_goals with_reducible first | assumption | apply keeps_updChan | split

theorem diskPut_wf {m : Mem} {w : GWrite} {lo hi : Nat} (h : Mem.wf m = true) : Mem.wf (diskPut m w lo hi) = true :=
  memPuts_wf h

theorem putBacks_wf {l : List (List (Nat × Nat) × List Byte)} {m : Mem} (h : Mem.wf m = true) :
    Mem.wf (l.foldl putBack m) = true := by
  induction l generalizing m with
  | nil => exact h
  | cons a l ih => exact ih (memPuts_wf h)

theorem keeps_makeDurable {lv : Nat} {ss0 : State} {s : State} {w : GWrite} {n : Nat} (hK : Keeps lv ss0 s) :
    Keeps lv ss0 (makeDurable s w n) := by
  unfold makeDurable
  try dsimp only
  iterate 40 try any_goals first
    | with_reducible assumption
    | with_reducible exact fun h => h
    | with_reducible exact fun _ h => h
    | with_reducible exact fun _ => rfl
    | with_reducible exact fun _ => ⟨rfl, rfl⟩
    | with_reducible exact rfl
    | with_reducible exact fun _ => Mem.wf_nil
    | (intro _; with_reducible exact memPutBytes_wf _ _ _)
    | with_reducible apply keeps_updGatePort
    | with_reducible apply keeps_durableNote
    | with_reducible apply keeps_updWrite
    | exact fun _ => diskPut_wf
    | with_reducible apply Keeps.id
    | (with_reducible apply Keeps.foldl; intro _ _ _)
    | (with_reducible apply Keeps.foldl_snd; intro _ _ _)
    | (with_reducible apply Keeps.foldl_fst; intro _ _ _)
    | with_reducible apply Keeps.ite
    | split
    | with_reducible apply Keeps.upd
    | with_reducible exact memPutBytes_wf _ _ _
    | with_reducible exact memPutLE_wf _ _ _ _
    | (intro h; with_reducible exact memPuts_wf h)
    | with_reducible exact memPut_wf _ _ _
    | with_reducible exact memClear_wf _ _ _
    | with_reducible exact memKeep_wf _ _
    | exact fun h => absurd h (by omega)
    | intro _ _
    | dsimp only

theorem keeps_journalRetire {lv : Nat} {ss0 : State} {s : State} {p : Nat} (hK : Keeps lv ss0 s) :
    Keeps lv ss0 (journalRetire s p) := by
  unfold journalRetire
  iterate 40 try any_goals first
    | with_reducible assumption
    | with_reducible exact fun h => h
    | with_reducible exact fun _ => rfl
    | with_reducible exact fun _ => ⟨rfl, rfl⟩
    | with_reducible exact rfl
    | (intro _; with_reducible exact memPutBytes_wf _ _ _)
    | with_reducible apply keeps_updGatePort
    | split
    | with_reducible apply Keeps.upd

theorem keeps_drainWrite {lv : Nat} {ss0 : State} {s : State} {id : Nat} (hK : Keeps lv ss0 s) :
    Keeps lv ss0 (drainWrite s id) := by
  unfold drainWrite
  try dsimp only
  iterate 40 try any_goals first
    | with_reducible assumption
    | with_reducible exact fun h => h
    | with_reducible exact fun _ h => h
    | with_reducible exact fun _ => rfl
    | with_reducible exact fun _ => ⟨rfl, rfl⟩
    | with_reducible exact rfl
    | with_reducible exact fun _ => Mem.wf_nil
    | (intro _; with_reducible exact memPutBytes_wf _ _ _)
    | with_reducible apply keeps_recordDurable
    | with_reducible apply keeps_makeDurable
    | with_reducible apply Keeps.id
    | (with_reducible apply Keeps.foldl; intro _ _ _)
    | (with_reducible apply Keeps.foldl_snd; intro _ _ _)
    | (with_reducible apply Keeps.foldl_fst; intro _ _ _)
    | with_reducible apply Keeps.ite
    | split
    | with_reducible apply Keeps.upd
    | with_reducible exact memPutBytes_wf _ _ _
    | with_reducible exact memPutLE_wf _ _ _ _
    | (intro h; with_reducible exact memPuts_wf h)
    | with_reducible exact memPut_wf _ _ _
    | with_reducible exact memClear_wf _ _ _
    | with_reducible exact memKeep_wf _ _
    | exact fun h => absurd h (by omega)
    | intro _ _
    | dsimp only

theorem keeps_drainPorts {lv : Nat} {ss0 : State} {s : State} {mask : Nat} (hK : Keeps lv ss0 s) :
    Keeps lv ss0 (drainPorts s mask) := by
  unfold drainPorts
  iterate 40 try any_goals first
    | with_reducible assumption
    | with_reducible apply keeps_journalRetire
    | with_reducible apply keeps_drainWrite
    | (with_reducible apply Keeps.foldl; intro _ _ _)

theorem keeps_pushWrite {lv : Nat} {ss0 : State} {s : State} {id : Nat} (hK : Keeps lv ss0 s) :
    Keeps lv ss0 (pushWrite s id) := by
  unfold pushWrite
  try dsimp only
  iterate 40 try any_goals first
    | with_reducible assumption
    | with_reducible apply keeps_startRecord
    | with_reducible apply keeps_journalRetire
    | with_reducible apply keeps_updWrite
    | with_reducible apply keeps_makeDurable
    | with_reducible apply keeps_recordDurable
    | with_reducible apply Keeps.ite
    | split

theorem keeps_finishPort {lv : Nat} {ss0 : State} {s : State} {p : Nat} (hK : Keeps lv ss0 s) :
    Keeps lv ss0 (finishPort s p) := by
  unfold finishPort
  try dsimp only
  iterate 40 try any_goals first
    | with_reducible assumption
    | with_reducible exact fun h => h
    | with_reducible exact fun _ h => h
    | with_reducible exact fun _ => rfl
    | with_reducible exact fun _ => ⟨rfl, rfl⟩
    | with_reducible exact rfl
    | with_reducible exact fun _ => Mem.wf_nil
    | (intro _; with_reducible exact memPutBytes_wf _ _ _)
    | with_reducible apply keeps_drainPorts
    | with_reducible apply keeps_journalRetire
    | with_reducible apply keeps_pushWrite
    | with_reducible apply Keeps.id
    | (with_reducible apply Keeps.foldl; intro _ _ _)
    | (with_reducible apply Keeps.foldl_snd; intro _ _ _)
    | (with_reducible apply Keeps.foldl_fst; intro _ _ _)
    | with_reducible apply Keeps.ite
    | split
    | with_reducible apply Keeps.upd
    | with_reducible exact memPutBytes_wf _ _ _
    | with_reducible exact memPutLE_wf _ _ _ _
    | (intro h; with_reducible exact memPuts_wf h)
    | with_reducible exact memPut_wf _ _ _
    | with_reducible exact memClear_wf _ _ _
    | with_reducible exact memKeep_wf _ _
    | exact fun h => absurd h (by omega)
    | intro _ _
    | dsimp only

theorem keeps_driveEvent {lv : Nat} {ss0 : State} {s : State} {p : Nat} {what : Nat} {cause : Nat} {lost : Nat} (hK : Keeps lv ss0 s) :
    Keeps lv ss0 (driveEvent s p what cause lost) := by
  unfold driveEvent
  iterate 40 try any_goals with_reducible first | assumption | apply keeps_notify

theorem keeps_injectUnits {lv : Nat} {ss0 : State} {k : Nat} : ∀ {nn : Nat} {sv : State},
    Keeps lv ss0 sv → Keeps lv ss0 (injectUnits k nn sv) := by
  intro nn
  induction nn with
  | zero => intro sv hK; exact hK
  | succ nn ih =>
    intro sv hK
    unfold injectUnits
    iterate 40 try any_goals with_reducible first | assumption | apply ih | apply keeps_injectUnit | apply Keeps.ite

theorem keeps_rootSend {lv : Nat} {ss0 : State} {s : State} {p : Nat} (hK : Keeps lv ss0 s) :
    Keeps lv ss0 (rootSend s p) := by
  unfold rootSend
  iterate 40 try any_goals first
    | with_reducible assumption
    | with_reducible apply keeps_injectUnits
    | with_reducible apply keeps_draw
    | with_reducible apply Keeps.ite

theorem keeps_bringUp {lv : Nat} {ss0 : State} {s : State} {p : Nat} {window : Nat} {f : DriveFacts} (hK : Keeps lv ss0 s) :
    Keeps lv ss0 (bringUp s p window f) := by
  unfold bringUp
  iterate 40 try any_goals first
    | with_reducible assumption
    | with_reducible exact fun _ h => h
    | with_reducible apply keeps_updGatePort
    | with_reducible apply keeps_driveEvent
    | with_reducible apply keeps_rootSend
    | with_reducible apply keeps_rootLanes
    | with_reducible apply keeps_notify
    | with_reducible apply keeps_nsNotice
    | (intro _ hx; with_reducible exact memPutBytes_wf _ _ _ (putBacks_wf hx))
    | with_reducible apply Keeps.ite
    | split

theorem keeps_sessionEvent {lv : Nat} {ss0 : State} {s : State} {x : Session} {what : Nat} {code : Nat} {failed : Nat} (hK : Keeps lv ss0 s) :
    Keeps lv ss0 (sessionEvent s x what code failed) := by
  unfold sessionEvent
  iterate 40 try any_goals with_reducible first | assumption | apply keeps_notify

theorem keeps_sessionEnd {lv : Nat} {ss0 : State} {s : State} {x : Session} {what : Nat} (hK : Keeps lv ss0 s) :
    Keeps lv ss0 (sessionEnd s x what) := by
  unfold sessionEnd
  try dsimp only
  iterate 40 try any_goals first
    | with_reducible assumption
    | with_reducible exact fun h => h
    | with_reducible exact fun _ h => h
    | with_reducible exact fun _ => rfl
    | with_reducible exact fun _ => ⟨rfl, rfl⟩
    | with_reducible exact rfl
    | with_reducible exact fun _ => Mem.wf_nil
    | (intro _; with_reducible exact memPutBytes_wf _ _ _)
    | with_reducible apply keeps_updSession
    | with_reducible apply keeps_nvmeSettle
    | with_reducible apply keeps_sessionEvent
    | with_reducible apply keeps_updFlow
    | with_reducible apply keeps_nvmeEnd
    | with_reducible apply keeps_updNvme
    | with_reducible apply keeps_freeFlow
    | with_reducible apply keeps_nsNotice
    | with_reducible apply Keeps.id
    | (with_reducible apply Keeps.foldl; intro _ _ _)
    | (with_reducible apply Keeps.foldl_snd; intro _ _ _)
    | (with_reducible apply Keeps.foldl_fst; intro _ _ _)
    | with_reducible apply Keeps.ite
    | split
    | with_reducible apply Keeps.upd
    | with_reducible exact memPutBytes_wf _ _ _
    | with_reducible exact memPutLE_wf _ _ _ _
    | (intro h; with_reducible exact memPuts_wf h)
    | with_reducible exact memPut_wf _ _ _
    | with_reducible exact memClear_wf _ _ _
    | with_reducible exact memKeep_wf _ _
    | exact fun h => absurd h (by omega)
    | intro _ _
    | dsimp only

theorem keeps_failCommands {lv : Nat} {ss0 : State} {s : State} {p : Nat} (hK : Keeps lv ss0 s) :
    Keeps lv ss0 (failCommands s p) := by
  unfold failCommands
  iterate 40 try any_goals with_reducible first | assumption | apply keeps_nvmeEnd | apply Keeps.foldl; intro _ _ _

theorem keeps_discardWrites {lv : Nat} {ss0 : State} {s : State} {p : Nat} (hK : Keeps lv ss0 s) :
    Keeps lv ss0 ((discardWrites s p).2) := by
  unfold discardWrites
  iterate 40 try any_goals first
    | with_reducible assumption
    | with_reducible exact fun h => h
    | with_reducible exact fun _ => rfl
    | with_reducible exact fun _ => ⟨rfl, rfl⟩
    | with_reducible exact rfl
    | with_reducible apply Keeps.upd

theorem keeps_controllerReset {lv : Nat} {ss0 : State} {s : State} (hK : Keeps lv ss0 s) :
    Keeps lv ss0 (controllerReset s) := by
  unfold controllerReset
  try dsimp only
  iterate 40 try any_goals first
    | with_reducible assumption
    | with_reducible exact fun h => h
    | with_reducible exact fun _ h => h
    | with_reducible exact fun _ => rfl
    | with_reducible exact fun _ => ⟨rfl, rfl⟩
    | with_reducible exact rfl
    | with_reducible exact fun _ => Mem.wf_nil
    | (intro _; with_reducible exact memPutBytes_wf _ _ _)
    | with_reducible apply keeps_updNvme
    | with_reducible apply keeps_orphanSent
    | with_reducible apply Keeps.id
    | (with_reducible apply Keeps.foldl; intro _ _ _)
    | (with_reducible apply Keeps.foldl_snd; intro _ _ _)
    | (with_reducible apply Keeps.foldl_fst; intro _ _ _)
    | with_reducible apply Keeps.ite
    | split
    | with_reducible apply Keeps.upd
    | with_reducible exact memPutBytes_wf _ _ _
    | with_reducible exact memPutLE_wf _ _ _ _
    | (intro h; with_reducible exact memPuts_wf h)
    | with_reducible exact memPut_wf _ _ _
    | with_reducible exact memClear_wf _ _ _
    | with_reducible exact memKeep_wf _ _
    | exact fun h => absurd h (by omega)
    | intro _ _
    | dsimp only

/-! ## RecOps -/

theorem keeps_engineWrite {lv : Nat} {ss0 : State} {s : State} {v : Nat} {targets : List (Nat × Nat)} {data : List Byte} {journal : Bool} {shared : Option Nat} {note : RecNote} (hK : Keeps lv ss0 s) :
    Keeps lv ss0 ((engineWrite s v targets data journal shared note).2) := by
  unfold engineWrite
  iterate 40 try any_goals with_reducible first | assumption | apply keeps_acceptWrite

theorem keeps_engineBarrier {lv : Nat} {ss0 : State} {s : State} {v : Nat} (hK : Keeps lv ss0 s) :
    Keeps lv ss0 (engineBarrier s v) := by
  unfold engineBarrier
  iterate 40 try any_goals with_reducible first | assumption | apply keeps_updVolume

theorem keeps_patchBlock {lv : Nat} {ss0 : State} {s : State} {v : Nat} {lba : Nat} {off : Nat} {bs : List Byte} (hK : Keeps lv ss0 s) :
    Keeps lv ss0 (patchBlock s v lba off bs) := by
  unfold patchBlock
  iterate 40 try any_goals with_reducible first | assumption | apply keeps_engineWrite

theorem keeps_writeEntry {lv : Nat} {ss0 : State} {s : State} {v : Nat} {e : Nat} {bs : List Byte} (hK : Keeps lv ss0 s) :
    Keeps lv ss0 (writeEntry s v e bs) := by
  unfold writeEntry
  iterate 40 try any_goals with_reducible first | assumption | apply keeps_patchBlock

theorem keeps_freeUnitsOf {lv : Nat} {ss0 : State} {s : State} {v : Nat} {aus : List Nat} (hK : Keeps lv ss0 s) :
    Keeps lv ss0 (freeUnitsOf s v aus) := by
  unfold freeUnitsOf
  iterate 40 try any_goals first
    | with_reducible assumption
    | with_reducible apply keeps_engineWrite
    | (with_reducible apply Keeps.foldl; intro _ _ _)

theorem keeps_writeSuper {lv : Nat} {ss0 : State} {s : State} {v : Nat} {vstate : Nat} (hK : Keeps lv ss0 s) :
    Keeps lv ss0 (writeSuper s v vstate) := by
  unfold writeSuper
  iterate 40 try any_goals first
    | with_reducible assumption
    | with_reducible apply keeps_updVolume
    | with_reducible apply keeps_engineBarrier
    | with_reducible apply keeps_engineWrite

theorem keeps_updClip {lv : Nat} {ss0 : State} {s : State} {c : Nat} {f : Clip → Clip} (hK : Keeps lv ss0 s) :
    Keeps lv ss0 (updClip s c f) := by
  unfold updClip
  iterate 40 try any_goals with_reducible first | assumption | apply keeps_updChan

theorem keeps_writeGroup {lv : Nat} {ss0 : State} {s : State} {k : Clip} {new : List Nat} (hK : Keeps lv ss0 s) :
    Keeps lv ss0 (writeGroup s k new) := by
  unfold writeGroup
  iterate 40 try any_goals with_reducible first | assumption | apply keeps_engineBarrier | apply keeps_engineWrite

theorem keeps_clipGrow {lv n : Nat} {ss0 s s1 : State} {k k1 : Clip} (h : clipGrow s k n = some (k1, s1))
    (hK : Keeps lv ss0 s) : Keeps lv ss0 s1 := by
  unfold clipGrow at h
  dsimp only at h
  split at h
  · cases h; exact hK
  · match hp : pickUnits s k.vol (unitsNeeded k n) with
    | none => rw [hp] at h; cases h
    | some new => rw [hp] at h; cases h; exact keeps_writeGroup hK

theorem keeps_grown {α : Type} {full : α} {f : Clip → State → α} (p : α → Prop) (g : Option (Clip × State))
    (h0 : p full) (h1 : ∀ k t, g = some (k, t) → p (f k t)) : p (grown full f g) := by
  match g with
  | none => exact h0
  | some (k, t) => exact h1 k t rfl

theorem keeps_growThen {α : Type} {lv n : Nat} {ss0 s : State} {k : Clip} {full : α} {f : Clip → State → α} (p : α → Prop)
    (hK : Keeps lv ss0 s) (h0 : p full) (h1 : ∀ k t, Keeps lv ss0 t → p (f k t)) : p (growThen s k n full f) :=
  keeps_grown p _ h0 fun k t h => h1 k t (keeps_clipGrow h hK)

theorem keeps_openClip {lv : Nat} {ss0 : State} {s : State} {c : Nat} {v : Nat} {e : Nat} {part : Nat} {firstN : Nat} {flags : Nat} {pVol : Nat} {pEntry : Nat} {timecode : Nat} {partnerLost : Bool} (hK : Keeps lv ss0 s) :
    Keeps lv ss0 (openClip s c v e part firstN flags pVol pEntry timecode partnerLost) := by
  unfold openClip
  iterate 40 try any_goals first
    | with_reducible assumption
    | with_reducible apply keeps_writeGroup
    | with_reducible apply keeps_engineBarrier
    | with_reducible apply keeps_writeEntry
    | with_reducible apply keeps_updChan

theorem keeps_checkpointIn {lv : Nat} {ss0 : State} {s : State} {c : Nat} {k : Clip} (hK : Keeps lv ss0 s) :
    Keeps lv ss0 (checkpointIn s c k) := by
  unfold checkpointIn
  iterate 40 try any_goals first
    | with_reducible assumption
    | with_reducible apply keeps_engineBarrier
    | with_reducible apply keeps_engineWrite
    | with_reducible apply keeps_updClip
    | with_reducible apply keeps_writeEntry

theorem keeps_closedEvent {lv : Nat} {ss0 : State} {s : State} {c : Nat} {k : Clip} {reason : Nat} (hK : Keeps lv ss0 s) :
    Keeps lv ss0 (closedEvent s c k reason) := by
  unfold closedEvent
  iterate 40 try any_goals with_reducible first | assumption | apply keeps_notify

theorem keeps_volEvent {lv : Nat} {ss0 : State} {s : State} {v : Nat} {what : Nat} {recovered : Nat} (hK : Keeps lv ss0 s) :
    Keeps lv ss0 (volEvent s v what recovered) := by
  unfold volEvent
  iterate 40 try any_goals with_reducible first | assumption | apply keeps_notify

theorem keeps_chanIdle {lv : Nat} {ss0 : State} {s : State} {c : Nat} (hK : Keeps lv ss0 s) :
    Keeps lv ss0 (chanIdle s c) := by
  unfold chanIdle
  iterate 40 try any_goals with_reducible first | assumption | apply keeps_updChan

theorem keeps_releaseBeyond {lv : Nat} {ss0 : State} {s : State} {k : Clip} (hK : Keeps lv ss0 s) :
    Keeps lv ss0 (releaseBeyond s k) := by
  unfold releaseBeyond
  iterate 40 try any_goals first
    | with_reducible assumption
    | with_reducible apply keeps_writeGroup
    | with_reducible apply keeps_engineBarrier
    | with_reducible apply keeps_freeUnitsOf
    | with_reducible apply Keeps.ite

theorem keeps_closeInto {lv : Nat} {ss0 : State} {s : State} {c : Nat} {reason : Nat} {keep : List IndexEntry} {idx : List Byte} {k : Clip} (hK : Keeps lv ss0 s) :
    Keeps lv ss0 (closeInto s c reason keep idx k) := by
  unfold closeInto
  iterate 40 try any_goals first
    | with_reducible assumption
    | with_reducible apply keeps_engineWrite
    | with_reducible apply keeps_engineBarrier
    | with_reducible apply keeps_writeEntry
    | with_reducible apply keeps_closedEvent
    | with_reducible apply keeps_updChan

theorem keeps_closeClip {lv : Nat} {ss0 s : State} {c reason flags pVol pEntry : Nat} (hK : Keeps lv ss0 s) :
    Keeps lv ss0 (closeClip s c reason flags pVol pEntry) := by
  unfold closeClip
  split
  · exact hK
  · exact keeps_growThen _ (keeps_releaseBeyond hK) (keeps_updChan (keeps_releaseBeyond hK))
      fun _ _ h => keeps_closeInto h

theorem keeps_handOver {lv : Nat} {ss0 : State} {s : State} {c : Nat} (hK : Keeps lv ss0 s) :
    Keeps lv ss0 (handOver s c) := by
  unfold handOver
  iterate 40 try any_goals with_reducible first | assumption | apply keeps_updChan | split

theorem keeps_spillOrClose {lv : Nat} {ss0 : State} {s : State} {c : Nat} (hK : Keeps lv ss0 s) :
    Keeps lv ss0 (spillOrClose s c) := by
  unfold spillOrClose
  try dsimp only
  iterate 40 try any_goals first
    | with_reducible assumption
    | with_reducible exact fun h => h
    | with_reducible exact fun _ h => h
    | with_reducible exact fun _ => rfl
    | with_reducible exact fun _ => ⟨rfl, rfl⟩
    | with_reducible exact rfl
    | with_reducible exact fun _ => Mem.wf_nil
    | (intro _; with_reducible exact memPutBytes_wf _ _ _)
    | with_reducible apply keeps_volEvent
    | with_reducible apply keeps_updVolume
    | with_reducible apply keeps_closeClip
    | with_reducible apply keeps_openClip
    | with_reducible apply keeps_chanIdle
    | with_reducible apply keeps_handOver
    | with_reducible apply Keeps.id
    | (with_reducible apply Keeps.foldl; intro _ _ _)
    | (with_reducible apply Keeps.foldl_snd; intro _ _ _)
    | (with_reducible apply Keeps.foldl_fst; intro _ _ _)
    | with_reducible apply Keeps.ite
    | split
    | with_reducible apply Keeps.upd
    | with_reducible exact memPutBytes_wf _ _ _
    | with_reducible exact memPutLE_wf _ _ _ _
    | (intro h; with_reducible exact memPuts_wf h)
    | with_reducible exact memPut_wf _ _ _
    | with_reducible exact memClear_wf _ _ _
    | with_reducible exact memKeep_wf _ _
    | exact fun h => absurd h (by omega)
    | intro _ _
    | dsimp only

theorem keeps_roomOnce {lv : Nat} {ss0 : State} {s : State} {c : Nat} {n : Nat} (hK : Keeps lv ss0 s) :
    Keeps lv ss0 (roomOnce s c n) := by
  unfold roomOnce
  iterate 40 try any_goals with_reducible first | assumption | apply keeps_spillOrClose | apply Keeps.ite | split

theorem keeps_makeRoom {lv : Nat} {ss0 : State} {s : State} {c : Nat} {n : Nat} (hK : Keeps lv ss0 s) :
    Keeps lv ss0 (makeRoom s c n) := by
  unfold makeRoom
  iterate 40 try any_goals with_reducible first | assumption | apply keeps_roomOnce

theorem keeps_checkpoint {lv : Nat} {ss0 s : State} {c : Nat} (hK : Keeps lv ss0 s) :
    Keeps lv ss0 (checkpoint s c) := by
  unfold checkpoint
  split
  · exact hK
  · split
    · exact hK
    · split
      · exact keeps_spillOrClose hK
      · exact keeps_growThen _ hK hK fun _ _ h => keeps_checkpointIn h

theorem keeps_writeItemIn {lv : Nat} {ss0 : State} {c : Nat} {it : RecItem} {shared : Option Nat} {k : Clip} {s1 : State} (hK : Keeps lv ss0 s1) :
    Keeps lv ss0 ((writeItemIn c it shared k s1).2) := by
  unfold writeItemIn
  iterate 40 try any_goals first
    | with_reducible assumption
    | with_reducible apply keeps_engineWrite
    | with_reducible apply keeps_updChan
    | with_reducible apply keeps_notify
    | with_reducible apply keeps_checkpoint
    | with_reducible apply Keeps.ite

theorem keeps_writeItem {lv : Nat} {ss0 s : State} {c : Nat} {it : RecItem} {shared : Option Nat} (hK : Keeps lv ss0 s) :
    Keeps lv ss0 (writeItem s c it shared).2 := by
  unfold writeItem
  split
  · exact hK
  · exact keeps_growThen (fun x : Option Nat × State => Keeps lv ss0 x.2) hK hK fun _ _ h => keeps_writeItemIn h

theorem keeps_writeBoth {lv : Nat} {ss0 : State} {s : State} {c : Nat} {it : RecItem} (hK : Keeps lv ss0 s) :
    Keeps lv ss0 (writeBoth s c it) := by
  unfold writeBoth
  try dsimp only
  iterate 40 try any_goals with_reducible first | assumption | apply keeps_makeRoom | apply keeps_writeItem | split

theorem Keeps.elim {k : Nat} {s0 a : State} {α : Type} {o : Option α} {f : α → State} (ha : Keeps k s0 a)
    (hf : ∀ x, Keeps k s0 (f x)) : Keeps k s0 (o.elim a f) := by
  cases o with
  | none => exact ha
  | some x => exact hf x

theorem keeps_countOverrun {lv : Nat} {ss0 : State} {s : State} {c : Nat} (hK : Keeps lv ss0 s) :
    Keeps lv ss0 (countOverrun s c) := by
  unfold countOverrun
  iterate 40 try any_goals first
    | with_reducible assumption
    | with_reducible apply keeps_updChan
    | with_reducible apply keeps_setLeaf
    | (with_reducible refine Keeps.elim ?_ ?_)
    | intro _

theorem keeps_stageItem {lv : Nat} {ss0 : State} {s : State} {c : Nat} {it : RecItem} (hK : Keeps lv ss0 s) :
    Keeps lv ss0 (stageItem s c it) := by
  unfold stageItem
  iterate 40 try any_goals first
    | with_reducible assumption
    | with_reducible apply keeps_countOverrun
    | with_reducible apply keeps_writeBoth
    | with_reducible apply keeps_updChan
    | with_reducible apply Keeps.ite

theorem keeps_offerItem {lv : Nat} {ss0 : State} {s : State} {c : Nat} {it : RecItem} (hK : Keeps lv ss0 s) :
    Keeps lv ss0 (offerItem s c it) := by
  unfold offerItem
  iterate 40 try any_goals first
    | with_reducible assumption
    | with_reducible apply keeps_updChan
    | with_reducible apply keeps_stageItem
    | with_reducible apply Keeps.ite
    | split

theorem keeps_recArrive {lv : Nat} {ss0 : State} {s : State} {c : Nat} {it : RecItem} (hK : Keeps lv ss0 s) :
    Keeps lv ss0 (recArrive s c it) := by
  unfold recArrive
  iterate 40 try any_goals with_reducible first | assumption | apply keeps_updChan | apply keeps_offerItem

theorem keeps_releaseHeld {lv : Nat} {ss0 : State} {s : State} {c : Nat} (hK : Keeps lv ss0 s) :
    Keeps lv ss0 (releaseHeld s c) := by
  unfold releaseHeld
  iterate 40 try any_goals first
    | with_reducible assumption
    | with_reducible apply keeps_countOverrun
    | with_reducible apply keeps_writeBoth
    | with_reducible apply keeps_updChan
    | with_reducible apply keeps_offerItem
    | (with_reducible apply Keeps.foldl; intro _ _ _)
    | with_reducible apply Keeps.ite
    | split

theorem keeps_recStreamItem {lv : Nat} {ss0 : State} {s : State} {t : Nat} {it : RecItem} (hK : Keeps lv ss0 s) :
    Keeps lv ss0 (recStreamItem s t it) := by
  unfold recStreamItem
  iterate 40 try any_goals with_reducible first | assumption | apply keeps_recArrive | split

theorem keeps_recFrameStart {lv : Nat} {ss0 : State} {s : State} {sn : Nat} {it : RecItem} (hK : Keeps lv ss0 s) :
    Keeps lv ss0 (recFrameStart s sn it) := by
  unfold recFrameStart
  try dsimp only
  iterate 40 try any_goals first
    | with_reducible assumption
    | with_reducible exact fun h => h
    | with_reducible exact fun _ h => h
    | with_reducible exact fun _ => rfl
    | with_reducible exact fun _ => ⟨rfl, rfl⟩
    | with_reducible exact rfl
    | with_reducible exact fun _ => Mem.wf_nil
    | (intro _; with_reducible exact memPutBytes_wf _ _ _)
    | with_reducible apply keeps_updChan
    | with_reducible apply Keeps.id
    | (with_reducible apply Keeps.foldl; intro _ _ _)
    | (with_reducible apply Keeps.foldl_snd; intro _ _ _)
    | (with_reducible apply Keeps.foldl_fst; intro _ _ _)
    | with_reducible apply Keeps.ite
    | split
    | with_reducible apply Keeps.upd
    | with_reducible exact memPutBytes_wf _ _ _
    | with_reducible exact memPutLE_wf _ _ _ _
    | (intro h; with_reducible exact memPuts_wf h)
    | with_reducible exact memPut_wf _ _ _
    | with_reducible exact memClear_wf _ _ _
    | with_reducible exact memKeep_wf _ _
    | exact fun h => absurd h (by omega)
    | intro _ _
    | dsimp only

theorem keeps_recAudioSample {lv : Nat} {ss0 : State} {s : State} {c : Nat} {t : Nat} {bytes : List Byte} {muted : Bool} (hK : Keeps lv ss0 s) :
    Keeps lv ss0 (recAudioSample s c t bytes muted) := by
  unfold recAudioSample
  iterate 40 try any_goals first
    | with_reducible assumption
    | with_reducible apply keeps_recArrive
    | with_reducible apply keeps_updChan
    | (with_reducible apply Keeps.foldl; intro _ _ _)
    | with_reducible apply Keeps.ite
    | split

theorem keeps_flushMeta {lv : Nat} {ss0 : State} {c : Nat} : ∀ {nn : Nat} {sv : State},
    Keeps lv ss0 sv → Keeps lv ss0 (flushMeta c nn sv) := by
  intro nn
  induction nn with
  | zero => intro sv hK; exact hK
  | succ nn ih =>
    intro sv hK
    unfold flushMeta
    try dsimp only
    iterate 40 try any_goals first
      | with_reducible assumption
      | with_reducible apply ih
      | with_reducible apply keeps_updChan
      | with_reducible apply keeps_recArrive
      | with_reducible apply Keeps.ite
      | split

theorem keeps_recSlate {lv : Nat} {ss0 : State} {s : State} {sn : Nat} {seq : Nat} {slate : List Byte} (hK : Keeps lv ss0 s) :
    Keeps lv ss0 (recSlate s sn seq slate) := by
  unfold recSlate
  iterate 40 try any_goals first
    | with_reducible assumption
    | with_reducible apply keeps_flushMeta
    | with_reducible apply keeps_updChan
    | (with_reducible apply Keeps.foldl; intro _ _ _)
    | with_reducible apply Keeps.ite

theorem keeps_recMetaFlush {lv : Nat} {ss0 : State} {s : State} {sn : Nat} (hK : Keeps lv ss0 s) :
    Keeps lv ss0 (recMetaFlush s sn) := by
  unfold recMetaFlush
  iterate 40 try any_goals first
    | with_reducible assumption
    | with_reducible apply keeps_flushMeta
    | (with_reducible apply Keeps.foldl; intro _ _ _)
    | with_reducible apply Keeps.ite

theorem keeps_recMetaRecord {lv : Nat} {ss0 : State} {s : State} {sn : Nat} {ts : Nat} {bytes : List Byte} (hK : Keeps lv ss0 s) :
    Keeps lv ss0 (recMetaRecord s sn ts bytes) := by
  unfold recMetaRecord
  iterate 40 try any_goals first
    | with_reducible assumption
    | with_reducible exact fun h => h
    | with_reducible exact fun _ => rfl
    | with_reducible exact fun _ => ⟨rfl, rfl⟩
    | with_reducible exact rfl
    | with_reducible apply Keeps.upd

theorem keeps_recSensorStart {lv : Nat} {ss0 : State} {s : State} {sn : Nat} (hK : Keeps lv ss0 s) :
    Keeps lv ss0 (recSensorStart s sn) := by
  unfold recSensorStart
  iterate 40 try any_goals first
    | with_reducible assumption
    | with_reducible apply keeps_updChan
    | (with_reducible apply Keeps.foldl; intro _ _ _)
    | with_reducible apply Keeps.ite

theorem keeps_recDriveFailed {lv : Nat} {ss0 : State} {s : State} {v : Nat} (hK : Keeps lv ss0 s) :
    Keeps lv ss0 (recDriveFailed s v) := by
  unfold recDriveFailed
  try dsimp only
  iterate 40 try any_goals first
    | with_reducible assumption
    | with_reducible apply keeps_closedEvent
    | with_reducible apply keeps_chanIdle
    | with_reducible apply keeps_handOver
    | with_reducible apply keeps_updClip
    | with_reducible apply keeps_updVolume
    | with_reducible apply keeps_volEvent
    | (with_reducible apply Keeps.foldl; intro _ _ _)
    | with_reducible apply Keeps.ite
    | split

theorem keeps_driveFailed {lv : Nat} {ss0 : State} {s : State} {p : Nat} {cause : Nat} (hK : Keeps lv ss0 s) :
    Keeps lv ss0 (driveFailed s p cause) := by
  unfold driveFailed
  iterate 40 try any_goals first
    | with_reducible assumption
    | with_reducible exact fun _ h => h
    | with_reducible apply keeps_failCommands
    | with_reducible apply keeps_discardWrites
    | with_reducible apply keeps_updGatePort
    | with_reducible apply keeps_driveEvent
    | with_reducible apply keeps_nsNotice
    | with_reducible apply keeps_sessionEnd
    | with_reducible apply keeps_nvmeSettle
    | with_reducible apply keeps_recDriveFailed
    | (with_reducible apply Keeps.foldl; intro _ _ _)
    | with_reducible apply Keeps.ite

theorem keeps_recoverInto {lv : Nat} {ss0 : State} {s : State} {v : Nat} {e : Nat} {d : List Byte} {idx : List Byte} {k : Clip} (hK : Keeps lv ss0 s) :
    Keeps lv ss0 (recoverInto s v e d idx k) := by
  unfold recoverInto
  iterate 40 try any_goals first
    | with_reducible assumption
    | with_reducible apply keeps_engineBarrier
    | with_reducible apply keeps_engineWrite
    | with_reducible apply keeps_writeEntry

theorem keeps_recoverClip {lv : Nat} {ss0 s : State} {v e : Nat} (hK : Keeps lv ss0 s) :
    Keeps lv ss0 (recoverClip s v e) := by
  have h1 := fun k : Clip => keeps_releaseBeyond (k := k) hK
  exact keeps_growThen _ (h1 _) (h1 _) fun _ _ h => keeps_recoverInto h

/-! ## CodecOps -/

theorem keeps_updStream {lv : Nat} {ss0 : State} {s : State} {t : Nat} {f : CodecStream → CodecStream} (hK : Keeps lv ss0 s) :
    Keeps lv ss0 (updStream s t f) := by
  unfold updStream
  iterate 40 try any_goals first
    | with_reducible assumption
    | with_reducible exact fun h => h
    | with_reducible exact fun _ => rfl
    | with_reducible exact fun _ => ⟨rfl, rfl⟩
    | with_reducible exact rfl
    | with_reducible apply Keeps.upd

theorem keeps_clearHistory {lv : Nat} {ss0 : State} {s : State} {t : Nat} (hK : Keeps lv ss0 s) :
    Keeps lv ss0 (clearHistory s t) := by
  unfold clearHistory
  try dsimp only
  iterate 40 try any_goals first
    | with_reducible assumption
    | with_reducible exact fun h => h
    | with_reducible exact fun _ h => h
    | with_reducible exact fun _ => rfl
    | with_reducible exact fun _ => ⟨rfl, rfl⟩
    | with_reducible exact rfl
    | with_reducible exact fun _ => Mem.wf_nil
    | (intro _; with_reducible exact memPutBytes_wf _ _ _)
    | with_reducible apply keeps_updStream
    | with_reducible apply Keeps.id
    | (with_reducible apply Keeps.foldl; intro _ _ _)
    | (with_reducible apply Keeps.foldl_snd; intro _ _ _)
    | (with_reducible apply Keeps.foldl_fst; intro _ _ _)
    | with_reducible apply Keeps.ite
    | split
    | with_reducible apply Keeps.upd
    | with_reducible exact memPutBytes_wf _ _ _
    | with_reducible exact memPutLE_wf _ _ _ _
    | (intro h; with_reducible exact memPuts_wf h)
    | with_reducible exact memPut_wf _ _ _
    | with_reducible exact memClear_wf _ _ _
    | with_reducible exact memKeep_wf _ _
    | exact fun h => absurd h (by omega)
    | intro _ _
    | dsimp only

theorem keeps_updLane {lv : Nat} {ss0 : State} {s : State} {p : Nat} {f : Lane → Lane} (hK : Keeps lv ss0 s) :
    Keeps lv ss0 (updLane s p f) := by
  unfold updLane
  iterate 40 try any_goals first
    | with_reducible assumption
    | with_reducible exact fun h => h
    | with_reducible exact fun _ => rfl
    | with_reducible exact fun _ => ⟨rfl, rfl⟩
    | with_reducible exact rfl
    | with_reducible apply Keeps.upd

theorem keeps_updJob {lv : Nat} {ss0 : State} {s : State} {j : Nat} {f : Job → Job} (hK : Keeps lv ss0 s) :
    Keeps lv ss0 (updJob s j f) := by
  unfold updJob
  iterate 40 try any_goals first
    | with_reducible assumption
    | with_reducible exact fun h => h
    | with_reducible exact fun _ => rfl
    | with_reducible exact fun _ => ⟨rfl, rfl⟩
    | with_reducible exact rfl
    | with_reducible apply Keeps.upd

theorem keeps_laneStart {lv : Nat} {ss0 : State} {s : State} {p : Nat} {w : LaneWork} {clocks : Nat} (hK : Keeps lv ss0 s) :
    Keeps lv ss0 (laneStart s p w clocks) := by
  unfold laneStart
  iterate 40 try any_goals with_reducible first | assumption | apply keeps_updLane

theorem keeps_laneStop {lv : Nat} {ss0 : State} {s : State} {p : Nat} (hK : Keeps lv ss0 s) :
    Keeps lv ss0 (laneStop s p) := by
  unfold laneStop
  iterate 40 try any_goals with_reducible first | assumption | apply keeps_updLane

theorem keeps_abandon {lv : Nat} {ss0 : State} {s : State} {p : LaneWork → Bool} (hK : Keeps lv ss0 s) :
    Keeps lv ss0 (abandon s p) := by
  unfold abandon
  iterate 40 try any_goals first
    | with_reducible assumption
    | with_reducible exact fun h => h
    | with_reducible exact fun _ => rfl
    | with_reducible exact fun _ => ⟨rfl, rfl⟩
    | with_reducible exact rfl
    | with_reducible apply Keeps.upd

theorem keeps_slabPoison {lv : Nat} {ss0 : State} {s : State} {addr : Nat} {stride : Nat} {x0 : Nat} {y0 : Nat} {g : SlabShape} (hK : Keeps lv ss0 s) :
    Keeps lv ss0 (slabPoison s addr stride x0 y0 g) := by
  unfold slabPoison
  iterate 40 try any_goals first
    | with_reducible assumption
    | with_reducible apply keeps_poisonHandled
    | (with_reducible apply Keeps.foldl; intro _ _ _)

theorem keeps_dropCodecFrame {lv : Nat} {ss0 : State} {s : State} {t : Nat} {seq : Nat} (hK : Keeps lv ss0 s) :
    Keeps lv ss0 (dropCodecFrame s t seq) := by
  unfold dropCodecFrame
  iterate 40 try any_goals first
    | with_reducible assumption
    | with_reducible exact fun h => h
    | with_reducible exact fun _ => rfl
    | with_reducible exact fun _ => ⟨rfl, rfl⟩
    | with_reducible exact rfl
    | with_reducible apply keeps_abandon
    | with_reducible apply keeps_updStream
    | split
    | with_reducible apply Keeps.upd

theorem keeps_flushOut {lv : Nat} {ss0 : State} {t : Nat} : ∀ {nn : Nat} {sv : State},
    Keeps lv ss0 sv → Keeps lv ss0 (flushOut t nn sv) := by
  intro nn
  induction nn with
  | zero => intro sv hK; exact hK
  | succ nn ih =>
    intro sv hK
    unfold flushOut
    iterate 40 try any_goals first
      | with_reducible assumption
      | with_reducible apply ih
      | with_reducible apply keeps_recStreamItem
      | with_reducible apply keeps_updStream
      | with_reducible apply Keeps.ite
      | split

theorem keeps_codecOut {lv : Nat} {ss0 : State} {s : State} {t : Nat} {it : RecItem} (hK : Keeps lv ss0 s) :
    Keeps lv ss0 (codecOut s t it) := by
  unfold codecOut
  iterate 40 try any_goals with_reducible first | assumption | apply keeps_updStream | apply keeps_flushOut

theorem keeps_codecFrameEvent {lv : Nat} {ss0 : State} {s : State} {t : Nat} {f : CodecFrame} {result : Nat} {bytes : Nat} (hK : Keeps lv ss0 s) :
    Keeps lv ss0 (codecFrameEvent s t f result bytes) := by
  unfold codecFrameEvent
  iterate 40 try any_goals with_reducible first | assumption | apply keeps_notify

theorem keeps_codecLost {lv : Nat} {ss0 : State} {s : State} {t : Nat} {f : CodecFrame} {result : Nat} (hK : Keeps lv ss0 s) :
    Keeps lv ss0 (codecLost s t f result) := by
  unfold codecLost
  iterate 40 try any_goals first
    | with_reducible assumption
    | with_reducible apply keeps_updStream
    | with_reducible apply keeps_dropCodecFrame
    | with_reducible apply keeps_codecOut
    | with_reducible apply keeps_codecFrameEvent
    | with_reducible apply keeps_streamFlowSend

theorem keeps_codecDeliver {lv : Nat} {ss0 : State} {s : State} {t : Nat} {c : CodecCfg} {f : CodecFrame} (hK : Keeps lv ss0 s) :
    Keeps lv ss0 (codecDeliver s t c f) := by
  unfold codecDeliver
  iterate 40 try any_goals first
    | with_reducible assumption
    | with_reducible apply keeps_updStream
    | with_reducible apply keeps_dropCodecFrame
    | with_reducible apply keeps_codecFrameEvent
    | with_reducible apply keeps_codecOut
    | with_reducible apply keeps_streamFlowSend
    | with_reducible apply Keeps.ite

theorem keeps_codecMarker {lv : Nat} {ss0 : State} {s : State} {t : Nat} {seq : Nat} {fs : Nat} {gen : Nat} {mflags : Nat} (hK : Keeps lv ss0 s) :
    Keeps lv ss0 (codecMarker s t seq fs gen mflags) := by
  unfold codecMarker
  iterate 40 try any_goals with_reducible first | assumption | apply keeps_codecOut | apply keeps_dropCodecFrame

theorem keeps_updFrame {lv : Nat} {ss0 : State} {s : State} {t : Nat} {seq : Nat} {g : CodecFrame → CodecFrame} (hK : Keeps lv ss0 s) :
    Keeps lv ss0 (updFrame s t seq g) := by
  unfold updFrame
  iterate 40 try any_goals with_reducible first | assumption | apply keeps_updStream

theorem keeps_startEmergency {lv : Nat} {ss0 : State} {s : State} {t : Nat} {seq : Nat} {slab : Nat} (hK : Keeps lv ss0 s) :
    Keeps lv ss0 (startEmergency s t seq slab) := by
  unfold startEmergency
  iterate 40 try any_goals with_reducible first | assumption | apply keeps_abandon | apply keeps_updFrame

theorem keeps_streamSlabDone {lv : Nat} {ss0 : State} {s : State} {t : Nat} {seq : Nat} {slab : Nat} {emergency : Bool} {fallback : Bool} (hK : Keeps lv ss0 s) :
    Keeps lv ss0 (streamSlabDone s t seq slab emergency fallback) := by
  unfold streamSlabDone
  try dsimp only
  iterate 40 try any_goals first
    | with_reducible assumption
    | with_reducible exact fun h => h
    | with_reducible exact fun _ h => h
    | with_reducible exact fun _ => rfl
    | with_reducible exact fun _ => ⟨rfl, rfl⟩
    | with_reducible exact rfl
    | with_reducible exact fun _ => Mem.wf_nil
    | (intro _; with_reducible exact memPutBytes_wf _ _ _)
    | with_reducible apply keeps_slabPoison
    | with_reducible apply keeps_updStream
    | with_reducible apply keeps_updFrame
    | with_reducible apply keeps_codecLost
    | with_reducible apply keeps_startEmergency
    | with_reducible apply keeps_codecDeliver
    | with_reducible apply Keeps.id
    | (with_reducible apply Keeps.foldl; intro _ _ _)
    | (with_reducible apply Keeps.foldl_snd; intro _ _ _)
    | (with_reducible apply Keeps.foldl_fst; intro _ _ _)
    | with_reducible apply Keeps.ite
    | split
    | with_reducible apply Keeps.upd
    | with_reducible exact memPutBytes_wf _ _ _
    | with_reducible exact memPutLE_wf _ _ _ _
    | (intro h; with_reducible exact memPuts_wf h)
    | with_reducible exact memPut_wf _ _ _
    | with_reducible exact memClear_wf _ _ _
    | with_reducible exact memKeep_wf _ _
    | exact fun h => absurd h (by omega)
    | intro _ _
    | dsimp only

theorem keeps_jobEvent {lv : Nat} {ss0 : State} {s : State} {j : Nat} {decode : Bool} {result : Nat} {a : Nat} {b : Nat} {c : Nat} {d : Nat} (hK : Keeps lv ss0 s) :
    Keeps lv ss0 (jobEvent s j decode result a b c d) := by
  unfold jobEvent
  iterate 40 try any_goals with_reducible first | assumption | apply keeps_notify

theorem keeps_jobFree {lv : Nat} {ss0 : State} {s : State} {j : Nat} (hK : Keeps lv ss0 s) :
    Keeps lv ss0 (jobFree s j) := by
  unfold jobFree
  iterate 40 try any_goals first
    | with_reducible assumption
    | with_reducible exact fun h => h
    | with_reducible exact fun _ => rfl
    | with_reducible exact fun _ => ⟨rfl, rfl⟩
    | with_reducible exact rfl
    | with_reducible apply keeps_abandon
    | with_reducible apply Keeps.upd

theorem keeps_jobEnd {lv : Nat} {ss0 : State} {s : State} {j : Nat} {result : Nat} (hK : Keeps lv ss0 s) :
    Keeps lv ss0 (jobEnd s j result) := by
  unfold jobEnd
  iterate 40 try any_goals with_reducible first | assumption | apply keeps_jobEvent | apply keeps_jobFree | split

theorem keeps_jobSettle {lv : Nat} {ss0 : State} {s : State} {j : Nat} (hK : Keeps lv ss0 s) :
    Keeps lv ss0 (jobSettle s j) := by
  unfold jobSettle
  iterate 40 try any_goals with_reducible first | assumption | apply keeps_jobEnd | apply Keeps.ite

theorem keeps_writeHead {lv : Nat} {ss0 : State} {s : State} {x : Job} (hK : Keeps lv ss0 s) :
    Keeps lv ss0 (writeHead s x) := by
  unfold writeHead
  iterate 40 try any_goals with_reducible first | assumption | apply keeps_dramWrite | split

theorem keeps_writeCoded {lv : Nat} {ss0 : State} {j : Nat} : ∀ {nn : Nat} {sv : State},
    Keeps lv ss0 sv → Keeps lv ss0 (writeCoded j nn sv) := by
  intro nn
  induction nn with
  | zero => intro sv hK; exact hK
  | succ nn ih =>
    intro sv hK
    unfold writeCoded
    iterate 40 try any_goals first
      | with_reducible assumption
      | with_reducible apply ih
      | with_reducible apply keeps_abandon
      | with_reducible apply keeps_updJob
      | with_reducible apply keeps_jobEvent
      | with_reducible apply keeps_dramWrite
      | with_reducible apply keeps_jobEnd
      | with_reducible apply keeps_writeHead
      | with_reducible apply Keeps.ite
      | split

theorem keeps_jobSlabDone {lv : Nat} {ss0 : State} {s : State} {j : Nat} {slab : Nat} {fallback : Bool} (hK : Keeps lv ss0 s) :
    Keeps lv ss0 (jobSlabDone s j slab fallback) := by
  unfold jobSlabDone
  iterate 40 try any_goals first
    | with_reducible assumption
    | with_reducible apply keeps_slabPoison
    | with_reducible apply keeps_updJob
    | with_reducible apply keeps_jobSettle
    | with_reducible apply keeps_writeCoded
    | with_reducible apply Keeps.ite
    | split

theorem keeps_errorRecord {lv : Nat} {ss0 : State} {s : State} {j : Nat} {slab : Nat} {e : SErr} (hK : Keeps lv ss0 s) :
    Keeps lv ss0 (errorRecord s j slab e) := by
  unfold errorRecord
  iterate 40 try any_goals first
    | with_reducible assumption
    | with_reducible apply keeps_dramWrite
    | with_reducible apply keeps_updJob
    | with_reducible apply Keeps.ite
    | split

theorem keeps_writePlanes {lv : Nat} {ss0 : State} {s : State} {f : FrameHdr} {n : Nat} {outAddr : Nat} {stride : Nat} {planes : List Plane} (hK : Keeps lv ss0 s) :
    Keeps lv ss0 (writePlanes s f n outAddr stride planes) := by
  unfold writePlanes
  iterate 40 try any_goals first
    | with_reducible assumption
    | with_reducible apply keeps_dramWrite
    | (with_reducible apply Keeps.foldl; intro _ _ _)

theorem keeps_decodeRefused {lv : Nat} {ss0 : State} {s : State} {j : Nat} {result : Nat} {e : Option SErr} (hK : Keeps lv ss0 s) :
    Keeps lv ss0 (decodeRefused s j result e) := by
  unfold decodeRefused
  iterate 40 try any_goals first
    | with_reducible assumption
    | with_reducible apply keeps_jobEnd
    | with_reducible apply keeps_updJob
    | with_reducible apply keeps_errorRecord
    | split

theorem keeps_decodeSlabDone {lv : Nat} {ss0 : State} {s : State} {j : Nat} {slab : Nat} (hK : Keeps lv ss0 s) :
    Keeps lv ss0 (decodeSlabDone s j slab) := by
  unfold decodeSlabDone
  iterate 40 try any_goals first
    | with_reducible assumption
    | with_reducible apply keeps_poisonHandled
    | with_reducible apply keeps_updJob
    | with_reducible apply keeps_writePlanes
    | with_reducible apply keeps_errorRecord
    | with_reducible apply keeps_jobSettle
    | with_reducible apply keeps_jobEnd
    | (with_reducible apply Keeps.foldl; intro _ _ _)
    | with_reducible apply Keeps.ite
    | split

theorem keeps_fixCeiling {lv : Nat} {ss0 : State} {s : State} {t : Nat} {seq : Nat} {frameMax : Nat} (hK : Keeps lv ss0 s) :
    Keeps lv ss0 (fixCeiling s t seq frameMax) := by
  unfold fixCeiling
  iterate 40 try any_goals first
    | with_reducible assumption
    | with_reducible apply keeps_updStream
    | with_reducible apply keeps_updFrame
    | with_reducible apply Keeps.ite
    | split

theorem keeps_issueStream {lv : Nat} {ss0 : State} {s : State} {p : Nat} {t : Nat} {seq : Nat} {n : Nat} {fallback : Bool} (hK : Keeps lv ss0 s) :
    Keeps lv ss0 (issueStream s p t seq n fallback) := by
  unfold issueStream
  iterate 40 try any_goals first
    | with_reducible assumption
    | with_reducible apply keeps_fixCeiling
    | with_reducible apply keeps_updFrame
    | with_reducible apply keeps_laneStart
    | split

theorem keeps_issueJob {lv : Nat} {ss0 : State} {s : State} {p : Nat} (hK : Keeps lv ss0 s) :
    Keeps lv ss0 (issueJob s p) := by
  unfold issueJob
  try dsimp only
  iterate 40 try any_goals first
    | with_reducible assumption
    | with_reducible apply keeps_decodeRefused
    | with_reducible apply keeps_laneStart
    | with_reducible apply keeps_updJob
    | split

theorem keeps_issueSlab {lv : Nat} {ss0 : State} {s : State} {p : Nat} (hK : Keeps lv ss0 s) :
    Keeps lv ss0 (issueSlab s p) := by
  unfold issueSlab
  iterate 40 try any_goals first
    | with_reducible assumption
    | with_reducible exact fun h => h
    | with_reducible exact fun _ => rfl
    | with_reducible exact fun _ => ⟨rfl, rfl⟩
    | with_reducible exact rfl
    | with_reducible apply keeps_issueStream
    | with_reducible apply keeps_laneStart
    | with_reducible apply keeps_issueJob
    | with_reducible apply Keeps.ite
    | split
    | with_reducible apply Keeps.upd

theorem keeps_verifyEvent {lv : Nat} {ss0 : State} {s : State} {p : Nat} {w : LaneWork} {outcome : Nat} {err : Nat} (hK : Keeps lv ss0 s) :
    Keeps lv ss0 (verifyEvent s p w outcome err) := by
  unfold verifyEvent
  iterate 40 try any_goals with_reducible first | assumption | apply keeps_notify

theorem keeps_laneReturn {lv : Nat} {ss0 : State} {s : State} {p : Nat} {use : Bool} (hK : Keeps lv ss0 s) :
    Keeps lv ss0 (laneReturn s p use) := by
  unfold laneReturn
  iterate 40 try any_goals first
    | with_reducible assumption
    | with_reducible exact fun h => h
    | with_reducible exact fun _ => rfl
    | with_reducible exact fun _ => ⟨rfl, rfl⟩
    | with_reducible exact rfl
    | with_reducible apply keeps_updFrame
    | with_reducible apply keeps_updLane
    | with_reducible apply Keeps.ite
    | split
    | with_reducible apply Keeps.upd

theorem keeps_laneIndexTo {lv : Nat} {ss0 : State} {s : State} {idx : Option Nat} {spare : Option Nat} (hK : Keeps lv ss0 s) :
    Keeps lv ss0 (laneIndexTo s idx spare) := by
  unfold laneIndexTo
  iterate 40 try any_goals first
    | with_reducible assumption
    | with_reducible exact fun h => h
    | with_reducible exact fun _ => rfl
    | with_reducible exact fun _ => ⟨rfl, rfl⟩
    | with_reducible exact rfl
    | split
    | with_reducible apply Keeps.upd

theorem keeps_laneJobSettle {lv : Nat} {ss0 s : State} {w : Option LaneWork} (hK : Keeps lv ss0 s) :
    Keeps lv ss0 (laneJobSettle s w) := by
  unfold laneJobSettle
  split
  · exact keeps_jobSettle hK
  · exact hK

theorem keeps_laneRecords {lv : Nat} {ss0 s : State} {mid : State → State} {p cause : Nat} {spare : Option Nat}
    (hm : ∀ s, Keeps lv ss0 s → Keeps lv ss0 (mid s)) (hK : Keeps lv ss0 s) :
    Keeps lv ss0 (laneRecords mid s p cause spare) := by
  have h := hm _ (keeps_spareRecord (cls := 2) (event := 0) (cause := laneLedgerCause cause) (index := p) (bank := 0)
    (detail := 0) (count := 0) hK)
  unfold laneRecords
  split
  · exact keeps_spareRecord (keeps_countSubst h)
  · exact h

theorem keeps_laneFailFor {lv : Nat} {ss0 s : State} {mid : State → State} {p cause : Nat}
    (hm : ∀ s, Keeps lv ss0 s → Keeps lv ss0 (mid s)) (hK : Keeps lv ss0 s) :
    Keeps lv ss0 (laneFailFor mid s p cause) := by
  unfold laneFailFor
  split
  · exact hm _ hK
  · have h := fun sp : Option Nat => keeps_notify (code := 0x0803) (source := p)
      (payload := leBytes 1 cause ++ leBytes 1 (sp.getD 0xFF)) (bit := 13)
      (keeps_laneIndexTo (idx := laneLogical s p) (spare := sp) (keeps_laneReturn (p := p) (use := sp.isSome) hK))
    have h3 := fun sp => keeps_laneRecords (p := p) (cause := cause) (spare := sp) hm
      (Keeps.ite (c := sp.isSome = true) (h sp) (keeps_setLeaf (b := 8) (bit := 14) (h sp)))
    exact keeps_laneJobSettle (.ite (keeps_setLeaf (h3 _)) (h3 _))

theorem keeps_laneFail {lv : Nat} {ss0 s : State} {p cause : Nat} (hK : Keeps lv ss0 s) :
    Keeps lv ss0 (laneFail s p cause) := keeps_laneFailFor (fun _ h => h) hK

/-! ## Codec -/

theorem card_codecStreamCard {lv : Nat}  : Card.Keeps lv codecStreamCard := by
  intro n b ss0 s hK
  unfold codecStreamCard
  try dsimp only
  iterate 40 try any_goals first
    | with_reducible assumption
    | with_reducible exact fun h => h
    | with_reducible exact fun _ h => h
    | with_reducible exact fun _ => rfl
    | with_reducible exact fun _ => ⟨rfl, rfl⟩
    | with_reducible exact rfl
    | with_reducible exact fun _ => Mem.wf_nil
    | (intro _; with_reducible exact memPutBytes_wf _ _ _)
    | with_reducible apply keeps_clearHistory
    | with_reducible apply keeps_updStream
    | with_reducible apply Keeps.id
    | (with_reducible apply Keeps.foldl; intro _ _ _)
    | (with_reducible apply Keeps.foldl_snd; intro _ _ _)
    | (with_reducible apply Keeps.foldl_fst; intro _ _ _)
    | with_reducible apply Keeps.ite
    | split
    | with_reducible apply Keeps.upd
    | with_reducible exact memPutBytes_wf _ _ _
    | with_reducible exact memPutLE_wf _ _ _ _
    | (intro h; with_reducible exact memPuts_wf h)
    | with_reducible exact memPut_wf _ _ _
    | with_reducible exact memClear_wf _ _ _
    | with_reducible exact memKeep_wf _ _
    | exact fun h => absurd h (by omega)
    | intro _ _
    | dsimp only

theorem keeps_execCodecStream (n : Fin 40) (s : State) : KeepsO 0 s (execCodecStream n s) :=
  .next (keeps_mbxRun card_codecStreamCard (.refl _ _))

theorem keeps_queueJob {lv : Nat} {ss0 : State} {s : State} {j : Nat} {spec : JobSpec} {out : Nat} {size : Nat} (hK : Keeps lv ss0 s) :
    Keeps lv ss0 (queueJob s j spec out size) := by
  unfold queueJob
  iterate 40 try any_goals first
    | with_reducible assumption
    | with_reducible exact fun h => h
    | with_reducible exact fun _ => rfl
    | with_reducible exact fun _ => ⟨rfl, rfl⟩
    | with_reducible exact rfl
    | with_reducible apply Keeps.upd

theorem card_jobEncodeCard {lv : Nat}  : Card.Keeps lv jobEncodeCard := by
  intro n b ss0 s hK
  unfold jobEncodeCard
  iterate 40 try any_goals with_reducible first | assumption | apply keeps_queueJob

theorem keeps_execCodecJobEncode (n : Fin 40) (s : State) : KeepsO 0 s (execCodecJobEncode n s) :=
  .next (keeps_mbxRun card_jobEncodeCard (.refl _ _))

theorem card_jobDecodeCard {lv : Nat}  : Card.Keeps lv jobDecodeCard := by
  intro n b ss0 s hK
  unfold jobDecodeCard
  iterate 40 try any_goals with_reducible first | assumption | apply keeps_queueJob

theorem keeps_execCodecJobDecode (n : Fin 40) (s : State) : KeepsO 0 s (execCodecJobDecode n s) :=
  .next (keeps_mbxRun card_jobDecodeCard (.refl _ _))

theorem card_jobResumeCard {lv : Nat}  : Card.Keeps lv jobResumeCard := by
  intro n b ss0 s hK
  unfold jobResumeCard
  iterate 40 try any_goals with_reducible first | assumption | apply keeps_updJob

theorem keeps_execCodecJobResume (n : Fin 40) (s : State) : KeepsO 0 s (execCodecJobResume n s) :=
  .next (keeps_mbxRun card_jobResumeCard (.refl _ _))

theorem card_jobAbortCard {lv : Nat}  : Card.Keeps lv jobAbortCard := by
  intro n b ss0 s hK
  unfold jobAbortCard
  iterate 40 try any_goals with_reducible first | assumption | apply keeps_jobSettle | apply keeps_updJob

theorem keeps_execCodecJobAbort (n : Fin 40) (s : State) : KeepsO 0 s (execCodecJobAbort n s) :=
  .next (keeps_mbxRun card_jobAbortCard (.refl _ _))

theorem keeps_codecStatusClear {lv : Nat} {ss0 : State} {s : State} (hK : Keeps lv ss0 s) :
    Keeps lv ss0 (codecStatusClear s) := by
  unfold codecStatusClear
  iterate 40 try any_goals first
    | with_reducible assumption
    | with_reducible exact fun h => h
    | with_reducible exact fun _ => rfl
    | with_reducible exact fun _ => ⟨rfl, rfl⟩
    | with_reducible exact rfl
    | with_reducible apply Keeps.upd

theorem card_codecStatusCard {lv : Nat}  : Card.Keeps lv codecStatusCard := by
  intro n b ss0 s hK
  unfold codecStatusCard
  iterate 40 try any_goals with_reducible first | assumption | apply keeps_codecStatusClear | apply Keeps.ite

theorem keeps_execCodecStatus (n : Fin 40) (s : State) : KeepsO 0 s (execCodecStatus n s) :=
  .next (keeps_mbxRun card_codecStatusCard (.refl _ _))

theorem keeps_execSlabIssue (lane : Fin 4) (s : State) : KeepsO 0 s (execSlabIssue lane s) := by
  unfold execSlabIssue
  iterate 40 try any_goals first
    | with_reducible apply KeepsO.next
    | with_reducible exact Keeps.refl _ _
    | with_reducible apply keeps_issueSlab
    | split

theorem keeps_slabVerified {lv : Nat} {ss0 : State} {s : State} {p : Nat} {w : LaneWork} (hK : Keeps lv ss0 s) :
    Keeps lv ss0 (slabVerified s p w) := by
  unfold slabVerified
  iterate 40 try any_goals first
    | with_reducible assumption
    | with_reducible apply keeps_laneStop
    | with_reducible apply keeps_streamSlabDone
    | with_reducible apply keeps_jobSlabDone
    | split

theorem keeps_countFallback {lv : Nat} {ss0 : State} {s : State} {w : LaneWork} (hK : Keeps lv ss0 s) :
    Keeps lv ss0 (countFallback s w) := by
  unfold countFallback
  iterate 40 try any_goals with_reducible first | assumption | apply keeps_updStream | split

theorem keeps_execSlabVerified (p : Fin 5) (v : Verify) (flash : Bool) (s : State) : KeepsO 0 s (execSlabVerified p v flash s) := by
  unfold execSlabVerified
  iterate 40 try any_goals first
    | with_reducible apply KeepsO.next
    | with_reducible exact Keeps.refl _ _
    | with_reducible exact fun h => h
    | with_reducible exact fun _ => rfl
    | with_reducible exact fun _ => ⟨rfl, rfl⟩
    | with_reducible exact rfl
    | with_reducible apply keeps_slabVerified
    | with_reducible apply keeps_laneFail
    | with_reducible apply keeps_verifyEvent
    | with_reducible apply keeps_laneStart
    | with_reducible apply keeps_countFallback
    | split
    | with_reducible apply Keeps.upd

theorem keeps_execCodecDeadline (t : Fin 8) (s : State) : KeepsO 0 s (execCodecDeadline t s) := by
  unfold execCodecDeadline
  iterate 40 try any_goals first
    | with_reducible apply KeepsO.next
    | with_reducible exact Keeps.refl _ _
    | with_reducible apply keeps_codecLost
    | split

theorem keeps_execCodecLaneFault (p : Fin 5) (flash : Bool) (s : State) : KeepsO 0 s (execCodecLaneFault p flash s) := by
  unfold execCodecLaneFault
  iterate 40 try any_goals first
    | with_reducible apply KeepsO.next
    | with_reducible exact Keeps.refl _ _
    | with_reducible exact fun h => h
    | with_reducible exact fun _ => rfl
    | with_reducible exact fun _ => ⟨rfl, rfl⟩
    | with_reducible exact rfl
    | with_reducible apply keeps_laneFail
    | with_reducible apply Keeps.upd

theorem keeps_execCodecLaneNoProgress (p : Fin 5) (flash : Bool) (s : State) : KeepsO 0 s (execCodecLaneNoProgress p flash s) := by
  unfold execCodecLaneNoProgress
  iterate 40 try any_goals first
    | with_reducible apply KeepsO.next
    | with_reducible exact Keeps.refl _ _
    | with_reducible exact fun h => h
    | with_reducible exact fun _ => rfl
    | with_reducible exact fun _ => ⟨rfl, rfl⟩
    | with_reducible exact rfl
    | with_reducible apply keeps_laneFail
    | split
    | with_reducible apply Keeps.upd

theorem keeps_execDecodeSlabDone (p : Fin 5) (s : State) : KeepsO 0 s (execDecodeSlabDone p s) := by
  unfold execDecodeSlabDone
  iterate 40 try any_goals first
    | with_reducible apply KeepsO.next
    | with_reducible exact Keeps.refl _ _
    | with_reducible apply keeps_decodeSlabDone
    | with_reducible apply keeps_laneStop
    | split

/-! ## Rec -/

theorem card_recChannelCard {lv : Nat}  : Card.Keeps lv recChannelCard := by
  intro n b ss0 s hK
  unfold recChannelCard
  iterate 40 try any_goals first
    | with_reducible assumption
    | with_reducible apply keeps_release
    | with_reducible apply keeps_alloc
    | with_reducible apply keeps_updChan
    | with_reducible apply Keeps.ite

theorem keeps_execRecChannel (n : Fin 40) (s : State) : KeepsO 0 s (execRecChannel n s) :=
  .next (keeps_mbxRun card_recChannelCard (.refl _ _))

theorem keeps_startChannel {lv : Nat} {ss0 : State} {s0 : State} {m : Nat} {t : Nat} {tc : Nat} {take : Nat} {s : State} {c : Nat} (hK : Keeps lv ss0 s) :
    Keeps lv ss0 (startChannel s0 m t tc take s c) := by
  unfold startChannel
  iterate 40 try any_goals with_reducible first | assumption | apply keeps_updChan | apply keeps_openClip

theorem card_recStartCard {lv : Nat}  : Card.Keeps lv recStartCard := by
  intro n b ss0 s hK
  unfold recStartCard
  iterate 40 try any_goals first
    | with_reducible assumption
    | with_reducible apply keeps_startChannel
    | with_reducible apply keeps_offerItem
    | (with_reducible apply Keeps.foldl; intro _ _ _)

theorem keeps_execRecStart (n : Fin 40) (s : State) : KeepsO 0 s (execRecStart n s) :=
  .next (keeps_mbxRun card_recStartCard (.refl _ _))

theorem keeps_stopChannels {lv : Nat} {ss0 : State} {s : State} {m : Nat} {u : Nat} (hK : Keeps lv ss0 s) :
    Keeps lv ss0 (stopChannels s m u) := by
  unfold stopChannels
  iterate 40 try any_goals with_reducible first | assumption | apply keeps_updChan | apply Keeps.foldl; intro _ _ _

theorem card_recStopCard {lv : Nat}  : Card.Keeps lv recStopCard := by
  intro n b ss0 s hK
  unfold recStopCard
  iterate 40 try any_goals with_reducible first | assumption | apply keeps_stopChannels

theorem keeps_execRecStop (n : Fin 40) (s : State) : KeepsO 0 s (execRecStop n s) :=
  .next (keeps_mbxRun card_recStopCard (.refl _ _))

theorem keeps_fence {lv : Nat} {ss0 : State} {s : State} {v : Nat} (hK : Keeps lv ss0 s) :
    Keeps lv ss0 (fence s v) := by
  unfold fence
  iterate 40 try any_goals first
    | with_reducible assumption
    | with_reducible exact fun h => h
    | with_reducible apply keeps_updNvme
    | with_reducible apply keeps_nvmeEnd
    | with_reducible apply keeps_sessionDone
    | with_reducible apply keeps_nvmeSettle
    | with_reducible apply keeps_finishPort
    | (with_reducible apply Keeps.foldl; intro _ _ _)

theorem keeps_unfence {lv : Nat} {ss0 : State} {s : State} {v : Nat} (hK : Keeps lv ss0 s) :
    Keeps lv ss0 (unfence s v) := by
  unfold unfence
  iterate 40 try any_goals with_reducible first | assumption | exact fun h => h | apply keeps_updNvme

theorem keeps_formatVolume {lv : Nat} {ss0 : State} {s : State} {v : Nat} {label : List Byte} (hK : Keeps lv ss0 s) :
    Keeps lv ss0 (formatVolume s v label) := by
  unfold formatVolume
  iterate 40 try any_goals first
    | with_reducible assumption
    | with_reducible apply keeps_unfence
    | with_reducible apply keeps_fence
    | with_reducible apply keeps_draw
    | with_reducible apply keeps_updGatePort
    | with_reducible apply keeps_updVolume
    | with_reducible apply keeps_nsNotice
    | (intro _ hx; with_reducible exact memPutBytes_wf _ _ _ (memPutBytes_wf _ _ _ (memClear_wf _ _ _ (memClear_wf _ _ _ hx))))
    | with_reducible apply Keeps.ite

theorem card_volFormatCard {lv : Nat}  : Card.Keeps lv volFormatCard := by
  intro n b ss0 s hK
  unfold volFormatCard
  iterate 40 try any_goals with_reducible first | assumption | apply keeps_formatVolume

theorem keeps_execRecVolFormat (n : Fin 40) (s : State) : KeepsO 0 s (execRecVolFormat n s) :=
  .next (.ite (.refl _ _) (keeps_mbxRun card_volFormatCard (.refl _ _)))

theorem keeps_mountVolume {lv : Nat} {ss0 : State} {s : State} {v : Nat} (hK : Keeps lv ss0 s) :
    Keeps lv ss0 ((mountVolume s v).2) := by
  unfold mountVolume
  iterate 40 try any_goals first
    | with_reducible assumption
    | with_reducible apply keeps_unfence
    | with_reducible apply keeps_fence
    | with_reducible apply keeps_updVolume
    | with_reducible apply keeps_recoverClip
    | with_reducible apply keeps_freeUnitsOf
    | with_reducible apply keeps_tellSessions
    | with_reducible apply keeps_nsNotice
    | with_reducible apply keeps_volEvent
    | with_reducible apply keeps_writeSuper
    | (with_reducible apply Keeps.foldl; intro _ _ _)

theorem card_volMountCard {lv : Nat}  : Card.Keeps lv volMountCard := by
  intro n b ss0 s hK
  unfold volMountCard
  iterate 40 try any_goals with_reducible first | assumption | apply keeps_mountVolume

theorem keeps_execRecVolMount (n : Fin 40) (s : State) : KeepsO 0 s (execRecVolMount n s) :=
  .next (.ite (.refl _ _) (keeps_mbxRun card_volMountCard (.refl _ _)))

theorem card_volUnmountCard {lv : Nat}  : Card.Keeps lv volUnmountCard := by
  intro n b ss0 s hK
  unfold volUnmountCard
  iterate 40 try any_goals first
    | with_reducible assumption
    | with_reducible apply keeps_volEvent
    | with_reducible apply keeps_writeSuper
    | with_reducible apply keeps_tellSessions
    | with_reducible apply keeps_nsNotice
    | with_reducible apply keeps_updVolume

theorem keeps_execRecVolUnmount (n : Fin 40) (s : State) : KeepsO 0 s (execRecVolUnmount n s) :=
  .next (keeps_mbxRun card_volUnmountCard (.refl _ _))

theorem card_clipDeleteCard {lv : Nat}  : Card.Keeps lv clipDeleteCard := by
  intro n b ss0 s hK
  unfold clipDeleteCard
  iterate 40 try any_goals first
    | with_reducible assumption
    | with_reducible apply keeps_engineBarrier
    | with_reducible apply keeps_freeUnitsOf
    | with_reducible apply keeps_updVolume
    | with_reducible apply keeps_writeEntry

theorem keeps_execRecClipDelete (n : Fin 40) (s : State) : KeepsO 0 s (execRecClipDelete n s) :=
  .next (keeps_mbxRun card_clipDeleteCard (.refl _ _))

theorem keeps_recStatusClear {lv : Nat} {ss0 : State} {s : State} (hK : Keeps lv ss0 s) :
    Keeps lv ss0 (recStatusClear s) := by
  unfold recStatusClear
  iterate 40 try any_goals first
    | with_reducible assumption
    | with_reducible exact fun h => h
    | with_reducible exact fun _ => rfl
    | with_reducible exact fun _ => ⟨rfl, rfl⟩
    | with_reducible exact rfl
    | with_reducible apply Keeps.upd

theorem card_recStatusCard {lv : Nat}  : Card.Keeps lv recStatusCard := by
  intro n b ss0 s hK
  unfold recStatusCard
  iterate 40 try any_goals with_reducible first | assumption | apply keeps_recStatusClear | apply Keeps.ite

theorem keeps_execRecStatus (n : Fin 40) (s : State) : KeepsO 0 s (execRecStatus n s) :=
  .next (keeps_mbxRun card_recStatusCard (.refl _ _))

theorem keeps_execHeldMarkerStaged (c : Fin 8) (s : State) : KeepsO 0 s (execHeldMarkerStaged c s) := by
  unfold execHeldMarkerStaged
  iterate 40 try any_goals with_reducible first | apply KeepsO.next | exact Keeps.refl _ _ | apply keeps_releaseHeld

theorem keeps_execRecCheckpoint (c : Fin 8) (s : State) : KeepsO 0 s (execRecCheckpoint c s) := by
  unfold execRecCheckpoint
  iterate 40 try any_goals with_reducible first | apply KeepsO.next | exact Keeps.refl _ _ | apply keeps_checkpoint

theorem keeps_execRecClipClose (c : Fin 8) (s : State) : KeepsO 0 s (execRecClipClose c s) := by
  unfold execRecClipClose
  iterate 40 try any_goals first
    | with_reducible apply KeepsO.next
    | with_reducible exact Keeps.refl _ _
    | with_reducible apply keeps_chanIdle
    | with_reducible apply keeps_closeClip
    | split

/-! ## Gate -/

theorem keeps_gateStatusClear {lv : Nat} {ss0 : State} {s : State} (hK : Keeps lv ss0 s) :
    Keeps lv ss0 (gateStatusClear s) := by
  unfold gateStatusClear
  iterate 40 try any_goals first
    | with_reducible assumption
    | with_reducible exact fun h => h
    | with_reducible exact fun _ => rfl
    | with_reducible exact fun _ => ⟨rfl, rfl⟩
    | with_reducible exact rfl
    | with_reducible apply keeps_updNvme
    | (intro h; with_reducible exact ⟨disks_map (fun _ h => h) h.1, h.2⟩)
    | with_reducible apply Keeps.upd

theorem card_gateStatusCard {lv : Nat}  : Card.Keeps lv gateStatusCard := by
  intro n b ss0 s hK
  unfold gateStatusCard
  iterate 40 try any_goals with_reducible first | assumption | apply keeps_gateStatusClear | apply Keeps.ite

theorem keeps_execGateStatus (n : Fin 40) (s : State) : KeepsO 0 s (execGateStatus n s) :=
  .next (keeps_mbxRun card_gateStatusCard (.refl _ _))

theorem keeps_portDown {lv : Nat} {ss0 : State} {s : State} {p : Nat} (hK : Keeps lv ss0 s) :
    Keeps lv ss0 (portDown s p) := by
  unfold portDown
  iterate 40 try any_goals first
    | with_reducible assumption
    | with_reducible exact fun _ h => h
    | with_reducible apply keeps_nvmeSettle
    | with_reducible apply keeps_finishPort
    | with_reducible apply keeps_updGatePort
    | with_reducible apply keeps_driveEvent
    | with_reducible apply keeps_rootLanes
    | with_reducible apply keeps_nsNotice
    | with_reducible apply Keeps.ite

theorem card_gateDriveCard {lv : Nat} {drive : Option DriveFacts} : Card.Keeps lv (gateDriveCard drive) := by
  intro n b ss0 s hK
  unfold gateDriveCard
  try dsimp only
  iterate 40 try any_goals first
    | with_reducible assumption
    | with_reducible apply keeps_bringUp
    | with_reducible apply keeps_updVolume
    | with_reducible apply keeps_portDown
    | split

theorem keeps_execGateDrive (n : Fin 40) (drive : Option DriveFacts) (s : State) : KeepsO 0 s (execGateDrive n drive s) :=
  .next (.ite (.refl _ _) (keeps_mbxRun card_gateDriveCard (.refl _ _)))

theorem card_gateServiceCard {lv : Nat}  : Card.Keeps lv gateServiceCard := by
  intro n b ss0 s hK
  unfold gateServiceCard
  try dsimp only
  iterate 40 try any_goals first
    | with_reducible assumption
    | with_reducible exact fun _ h => h
    | with_reducible apply keeps_updGatePort
    | with_reducible apply keeps_nsNotice
    | with_reducible apply keeps_nvmeSettle
    | with_reducible apply keeps_finishPort
    | with_reducible apply keeps_bringUp
    | with_reducible apply Keeps.ite
    | split

theorem keeps_execGateService (n : Fin 40) (s : State) : KeepsO 0 s (execGateService n s) :=
  .next (.ite (.refl _ _) (keeps_mbxRun card_gateServiceCard (.refl _ _)))

theorem card_gateRemoteCard {lv : Nat}  : Card.Keeps lv gateRemoteCard := by
  intro n b ss0 s hK
  unfold gateRemoteCard
  iterate 40 try any_goals first
    | with_reducible assumption
    | with_reducible exact fun h => h
    | with_reducible exact fun _ => rfl
    | with_reducible exact fun _ => ⟨rfl, rfl⟩
    | with_reducible exact rfl
    | with_reducible apply Keeps.upd

theorem keeps_execGateRemote (n : Fin 40) (s : State) : KeepsO 0 s (execGateRemote n s) :=
  .next (keeps_mbxRun card_gateRemoteCard (.refl _ _))

theorem keeps_execGateAdmit (port : Fin 4) (blocks : Nat) (s : State) : KeepsO 0 s (execGateAdmit port blocks s) := by
  unfold execGateAdmit
  iterate 40 try any_goals with_reducible first | apply KeepsO.next | exact Keeps.refl _ _ | apply keeps_gateAdmit

theorem keeps_execJournalRecordDurable (port : Fin 4) (s : State) : KeepsO 0 s (execJournalRecordDurable port s) := by
  unfold execJournalRecordDurable
  iterate 40 try any_goals first
    | with_reducible apply KeepsO.next
    | with_reducible exact Keeps.refl _ _
    | with_reducible apply keeps_journalDurable
    | with_reducible apply keeps_rootSend

theorem keeps_execDriveWriteComplete (port : Fin 4) (index : Nat) (blocks : Nat) (s : State) : KeepsO 0 s (execDriveWriteComplete port index blocks s) := by
  unfold execDriveWriteComplete
  iterate 40 try any_goals first
    | with_reducible apply KeepsO.next
    | with_reducible exact Keeps.refl _ _
    | with_reducible apply keeps_nvmeSettle
    | with_reducible apply keeps_makeDurable
    | with_reducible apply keeps_rootSend
    | split

theorem keeps_execJournalRetire (port : Fin 4) (s : State) : KeepsO 0 s (execJournalRetire port s) := by
  unfold execJournalRetire
  iterate 40 try any_goals first
    | with_reducible apply KeepsO.next
    | with_reducible exact Keeps.refl _ _
    | with_reducible apply keeps_nvmeSettle
    | with_reducible apply keeps_journalRetire

theorem keeps_execDriveFailed (port : Fin 4) (cause : DriveFault) (s : State) : KeepsO 0 s (execDriveFailed port cause s) := by
  unfold execDriveFailed
  iterate 40 try any_goals first
    | with_reducible apply KeepsO.next
    | with_reducible exact Keeps.refl _ _
    | with_reducible apply keeps_driveFailed
    | split

theorem keeps_execNvmeDoorbell (queue : NvmeQueue) (value : BitVec 16) (s : State) : KeepsO 0 s (execNvmeDoorbell queue value s) := by
  unfold execNvmeDoorbell
  try dsimp only
  iterate 40 try any_goals first
    | with_reducible apply KeepsO.next
    | with_reducible exact Keeps.refl _ _
    | with_reducible assumption
    | with_reducible exact fun h => h
    | with_reducible exact fun _ h => h
    | with_reducible exact fun _ => rfl
    | with_reducible exact fun _ => ⟨rfl, rfl⟩
    | with_reducible exact rfl
    | with_reducible exact fun _ => Mem.wf_nil
    | (intro _; with_reducible exact memPutBytes_wf _ _ _)
    | with_reducible apply keeps_updNvme
    | with_reducible apply keeps_nvmeSettle
    | with_reducible apply keeps_postWaiting
    | with_reducible apply Keeps.id
    | (with_reducible apply Keeps.foldl; intro _ _ _)
    | (with_reducible apply Keeps.foldl_snd; intro _ _ _)
    | (with_reducible apply Keeps.foldl_fst; intro _ _ _)
    | with_reducible apply Keeps.ite
    | split
    | with_reducible apply Keeps.upd
    | with_reducible exact memPutBytes_wf _ _ _
    | with_reducible exact memPutLE_wf _ _ _ _
    | (intro h; with_reducible exact memPuts_wf h)
    | with_reducible exact memPut_wf _ _ _
    | with_reducible exact memClear_wf _ _ _
    | with_reducible exact memKeep_wf _ _
    | exact fun h => absurd h (by omega)
    | intro _ _
    | dsimp only

theorem keeps_nvmeReady {lv : Nat} {ss0 : State} {s : State} (hK : Keeps lv ss0 s) :
    Keeps lv ss0 (nvmeReady s) := by
  unfold nvmeReady
  iterate 40 try any_goals first
    | with_reducible assumption
    | with_reducible exact fun h => h
    | with_reducible apply keeps_updNvme
    | with_reducible apply Keeps.ite

theorem keeps_execNvmeCcEnable (mps : Fin 16) (css : Fin 16) (iosqes : Fin 16) (iocqes : Fin 16) (asqs : BitVec 12) (acqs : BitVec 12) (s : State) : KeepsO 0 s (execNvmeCcEnable mps css iosqes iocqes asqs acqs s) := by
  unfold execNvmeCcEnable
  iterate 40 try any_goals first
    | with_reducible apply KeepsO.next
    | with_reducible exact Keeps.refl _ _
    | with_reducible exact fun h => h
    | with_reducible apply keeps_setLeaf
    | with_reducible apply keeps_updNvme
    | with_reducible apply keeps_nvmeReady
    | split

theorem keeps_execNvmeControllerReset (s : State) : KeepsO 0 s (execNvmeControllerReset s) := by
  unfold execNvmeControllerReset
  iterate 40 try any_goals first
    | with_reducible apply KeepsO.next
    | with_reducible exact Keeps.refl _ _
    | with_reducible apply keeps_controllerReset

theorem keeps_sendRequest {lv : Nat} {ss0 : State} {s : State} {x : Session} {op : Nat} {fua : Nat} {sq : Nat} {cid : Nat} {lba : Nat} {n : Nat} {data : List Byte} (hK : Keeps lv ss0 s) :
    Keeps lv ss0 (sendRequest s x op fua sq cid lba n data) := by
  unfold sendRequest
  try dsimp only
  iterate 40 try any_goals first
    | with_reducible assumption
    | with_reducible exact fun h => h
    | with_reducible exact fun _ h => h
    | with_reducible exact fun _ => rfl
    | with_reducible exact fun _ => ⟨rfl, rfl⟩
    | with_reducible exact rfl
    | with_reducible exact fun _ => Mem.wf_nil
    | (intro _; with_reducible exact memPutBytes_wf _ _ _)
    | with_reducible apply keeps_flowQueueItem
    | with_reducible apply Keeps.id
    | (with_reducible apply Keeps.foldl; intro _ _ _)
    | (with_reducible apply Keeps.foldl_snd; intro _ _ _)
    | (with_reducible apply Keeps.foldl_fst; intro _ _ _)
    | with_reducible apply Keeps.ite
    | split
    | with_reducible apply Keeps.upd
    | with_reducible exact memPutBytes_wf _ _ _
    | with_reducible exact memPutLE_wf _ _ _ _
    | (intro h; with_reducible exact memPuts_wf h)
    | with_reducible exact memPut_wf _ _ _
    | with_reducible exact memClear_wf _ _ _
    | with_reducible exact memKeep_wf _ _
    | exact fun h => absurd h (by omega)
    | intro _ _
    | dsimp only

theorem keeps_flushRemotes {lv : Nat} {ss0 : State} {s : State} {sq : Nat} {cid : Nat} (hK : Keeps lv ss0 s) :
    Keeps lv ss0 ((flushRemotes s sq cid).2) := by
  unfold flushRemotes
  iterate 40 try any_goals first
    | with_reducible assumption
    | with_reducible apply keeps_sendRequest
    | (with_reducible apply Keeps.foldl; intro _ _ _)

theorem keeps_sendShutFlushes {lv : Nat} {ss0 : State} {s : State} (hK : Keeps lv ss0 s) :
    Keeps lv ss0 (sendShutFlushes s) := by
  unfold sendShutFlushes
  try dsimp only
  iterate 40 try any_goals first
    | with_reducible assumption
    | with_reducible exact fun h => h
    | with_reducible exact fun _ h => h
    | with_reducible exact fun _ => rfl
    | with_reducible exact fun _ => ⟨rfl, rfl⟩
    | with_reducible exact rfl
    | with_reducible exact fun _ => Mem.wf_nil
    | (intro _; with_reducible exact memPutBytes_wf _ _ _)
    | with_reducible apply keeps_sendRequest
    | with_reducible apply keeps_updNvme
    | with_reducible apply Keeps.id
    | (with_reducible apply Keeps.foldl; intro _ _ _)
    | (with_reducible apply Keeps.foldl_snd; intro _ _ _)
    | (with_reducible apply Keeps.foldl_fst; intro _ _ _)
    | with_reducible apply Keeps.ite
    | split
    | with_reducible apply Keeps.upd
    | with_reducible exact memPutBytes_wf _ _ _
    | with_reducible exact memPutLE_wf _ _ _ _
    | (intro h; with_reducible exact memPuts_wf h)
    | with_reducible exact memPut_wf _ _ _
    | with_reducible exact memClear_wf _ _ _
    | with_reducible exact memKeep_wf _ _
    | exact fun h => absurd h (by omega)
    | intro _ _
    | dsimp only

theorem keeps_execNvmeShutdown (s : State) : KeepsO 0 s (execNvmeShutdown s) := by
  unfold execNvmeShutdown
  try dsimp only
  iterate 40 try any_goals first
    | with_reducible apply KeepsO.next
    | with_reducible exact Keeps.refl _ _
    | with_reducible assumption
    | with_reducible exact fun h => h
    | with_reducible exact fun _ h => h
    | with_reducible exact fun _ => rfl
    | with_reducible exact fun _ => ⟨rfl, rfl⟩
    | with_reducible exact rfl
    | with_reducible exact fun _ => Mem.wf_nil
    | (intro _; with_reducible exact memPutBytes_wf _ _ _)
    | with_reducible apply keeps_nvmeSettle
    | with_reducible apply keeps_sendShutFlushes
    | with_reducible apply keeps_updNvme
    | with_reducible apply Keeps.id
    | (with_reducible apply Keeps.foldl; intro _ _ _)
    | (with_reducible apply Keeps.foldl_snd; intro _ _ _)
    | (with_reducible apply Keeps.foldl_fst; intro _ _ _)
    | with_reducible apply Keeps.ite
    | split
    | with_reducible apply Keeps.upd
    | with_reducible exact memPutBytes_wf _ _ _
    | with_reducible exact memPutLE_wf _ _ _ _
    | (intro h; with_reducible exact memPuts_wf h)
    | with_reducible exact memPut_wf _ _ _
    | with_reducible exact memClear_wf _ _ _
    | with_reducible exact memKeep_wf _ _
    | exact fun h => absurd h (by omega)
    | intro _ _
    | dsimp only

theorem keeps_headMoved {lv : Nat} {ss0 : State} {s : State} {sq : Nat} (hK : Keeps lv ss0 s) :
    Keeps lv ss0 (headMoved s sq) := by
  unfold headMoved
  iterate 40 try any_goals with_reducible first | assumption | exact fun h => h | apply keeps_updNvme

theorem keeps_nvmeFetchIf {lv : Nat} {ss0 : State} {held : Bool} {s : State} {sq : Nat} {h : NvmeHead} {run : State → State} (hrun : ∀ z0, Keeps lv ss0 z0 → Keeps lv ss0 (run z0))
    (hK : Keeps lv ss0 s) :
    Keeps lv ss0 (nvmeFetchIf held s sq h run) := by
  unfold nvmeFetchIf
  try dsimp only
  iterate 40 try any_goals first
    | with_reducible assumption
    | with_reducible apply hrun
    | with_reducible exact fun h => h
    | with_reducible exact fun _ h => h
    | with_reducible exact fun _ => rfl
    | with_reducible exact fun _ => ⟨rfl, rfl⟩
    | with_reducible exact rfl
    | with_reducible exact fun _ => Mem.wf_nil
    | (intro _; with_reducible exact memPutBytes_wf _ _ _)
    | with_reducible apply keeps_updNvme
    | with_reducible apply keeps_nvmeSettle
    | with_reducible apply keeps_nvmeComplete
    | with_reducible apply keeps_headMoved
    | with_reducible apply Keeps.id
    | (with_reducible apply Keeps.foldl; intro _ _ _)
    | (with_reducible apply Keeps.foldl_snd; intro _ _ _)
    | (with_reducible apply Keeps.foldl_fst; intro _ _ _)
    | with_reducible apply Keeps.ite
    | split
    | with_reducible apply Keeps.upd
    | with_reducible exact memPutBytes_wf _ _ _
    | with_reducible exact memPutLE_wf _ _ _ _
    | (intro h; with_reducible exact memPuts_wf h)
    | with_reducible exact memPut_wf _ _ _
    | with_reducible exact memClear_wf _ _ _
    | with_reducible exact memKeep_wf _ _
    | exact fun h => absurd h (by omega)
    | intro _ _
    | dsimp only

theorem keeps_nvmeFetch {lv : Nat} {ss0 : State} {s : State} {sq : Nat} {h : NvmeHead} {run : State → State} (hrun : ∀ z0, Keeps lv ss0 z0 → Keeps lv ss0 (run z0))
    (hK : Keeps lv ss0 s) :
    Keeps lv ss0 (nvmeFetch s sq h run) := by
  unfold nvmeFetch
  iterate 40 try any_goals with_reducible first | assumption | apply keeps_nvmeFetchIf

theorem keeps_answer {lv : Nat} {ss0 : State} {s : State} {sq : Nat} {h : NvmeHead} {sct : Nat} {sc : Nat} {dw0 : Nat} (hK : Keeps lv ss0 s) :
    Keeps lv ss0 (answer s sq h sct sc dw0) := by
  unfold answer
  iterate 40 try any_goals with_reducible first | assumption | apply keeps_nvmeSettle | apply keeps_nvmeComplete

theorem keeps_answerOk {lv : Nat} {ss0 : State} {s : State} {sq : Nat} {h : NvmeHead} (hK : Keeps lv ss0 s) :
    Keeps lv ss0 (answerOk s sq h) := by
  unfold answerOk
  iterate 40 try any_goals with_reducible first | assumption | apply keeps_answer

theorem keeps_answerField {lv : Nat} {ss0 : State} {s : State} {sq : Nat} {h : NvmeHead} (hK : Keeps lv ss0 s) :
    Keeps lv ss0 (answerField s sq h) := by
  unfold answerField
  iterate 40 try any_goals with_reducible first | assumption | apply keeps_answer

theorem keeps_ioFetch {lv : Nat} {ss0 : State} {held : Bool} {s : State} {sq : Nat} {h : NvmeHead} {run : State → State} (hrun : ∀ z0, Keeps lv ss0 z0 → Keeps lv ss0 (run z0))
    (hK : Keeps lv ss0 s) :
    Keeps lv ss0 (ioFetch held s sq h run) := by
  unfold ioFetch
  iterate 40 try any_goals first
    | with_reducible assumption
    | with_reducible apply keeps_nvmeFetchIf
    | with_reducible apply keeps_answer
    | split
    | intro _ _

theorem keeps_keep {lv : Nat} {ss0 : State} {s : State} {sq : Nat} {h : NvmeHead} {w : NvmeWork} (hK : Keeps lv ss0 s) :
    Keeps lv ss0 (keep s sq h w) := by
  unfold keep
  iterate 40 try any_goals with_reducible first | assumption | exact fun h => h | apply keeps_updNvme

theorem keeps_execNvmeCreateIoSq (h : NvmeHead) (qid : BitVec 16) (size : BitVec 16) (cq : BitVec 16) (contiguous : Bool) (s : State) : KeepsO 0 s (execNvmeCreateIoSq h qid size cq contiguous s) := by
  unfold execNvmeCreateIoSq
  iterate 40 try any_goals first
    | with_reducible apply KeepsO.next
    | with_reducible exact Keeps.refl _ _
    | with_reducible assumption
    | with_reducible exact fun h => h
    | with_reducible apply keeps_nvmeFetch
    | with_reducible apply keeps_answerField
    | with_reducible apply keeps_answerOk
    | with_reducible apply keeps_updNvme
    | with_reducible apply Keeps.ite
    | intro _ _

theorem keeps_execNvmeCreateIoCq (h : NvmeHead) (qid : BitVec 16) (size : BitVec 16) (vector : BitVec 16) (contiguous : Bool) (irq : Bool) (s : State) : KeepsO 0 s (execNvmeCreateIoCq h qid size vector contiguous irq s) := by
  unfold execNvmeCreateIoCq
  iterate 40 try any_goals first
    | with_reducible apply KeepsO.next
    | with_reducible exact Keeps.refl _ _
    | with_reducible assumption
    | with_reducible exact fun h => h
    | with_reducible apply keeps_nvmeFetch
    | with_reducible apply keeps_answerField
    | with_reducible apply keeps_answerOk
    | with_reducible apply keeps_updNvme
    | with_reducible apply Keeps.ite
    | intro _ _

theorem keeps_execNvmeDeleteIoSq (h : NvmeHead) (qid : BitVec 16) (s : State) : KeepsO 0 s (execNvmeDeleteIoSq h qid s) := by
  unfold execNvmeDeleteIoSq
  iterate 40 try any_goals first
    | with_reducible apply KeepsO.next
    | with_reducible exact Keeps.refl _ _
    | with_reducible assumption
    | with_reducible exact fun h => h
    | with_reducible apply keeps_nvmeFetch
    | with_reducible apply keeps_answerField
    | with_reducible apply keeps_nvmeEnd
    | with_reducible apply keeps_answerOk
    | with_reducible apply keeps_updNvme
    | (with_reducible apply Keeps.foldl; intro _ _ _)
    | with_reducible apply Keeps.ite
    | intro _ _

theorem keeps_execNvmeDeleteIoCq (h : NvmeHead) (qid : BitVec 16) (s : State) : KeepsO 0 s (execNvmeDeleteIoCq h qid s) := by
  unfold execNvmeDeleteIoCq
  iterate 40 try any_goals first
    | with_reducible apply KeepsO.next
    | with_reducible exact Keeps.refl _ _
    | with_reducible assumption
    | with_reducible exact fun h => h
    | with_reducible apply keeps_nvmeFetch
    | with_reducible apply keeps_answerField
    | with_reducible apply keeps_answerOk
    | with_reducible apply keeps_updNvme
    | with_reducible apply Keeps.ite
    | intro _ _

theorem keeps_driveReport {lv : Nat} {ss0 s : State} (hK : Keeps lv ss0 s) : Keeps lv ss0 (driveReport s).2 := by
  unfold driveReport
  exact keeps_draw (keeps_draw (keeps_draw hK))

theorem keeps_healthPage {lv : Nat} {ss0 : State} {s : State} {free : List Byte} (hK : Keeps lv ss0 s) :
    Keeps lv ss0 ((healthPage s free).2) := by
  unfold healthPage
  iterate 40 try any_goals first
    | with_reducible assumption
    | with_reducible apply keeps_driveReport
    | (with_reducible apply Keeps.foldl_snd; intro _ _ _)

theorem keeps_execNvmeGetLogPage (h : NvmeHead) (page : Byte) (dwords : BitVec 16) (off : BitVec 16) (s : State) : KeepsO 0 s (execNvmeGetLogPage h page dwords off s) := by
  unfold execNvmeGetLogPage
  iterate 40 try any_goals first
    | with_reducible apply KeepsO.next
    | with_reducible exact Keeps.refl _ _
    | with_reducible assumption
    | with_reducible exact fun h => h
    | with_reducible exact fun _ => rfl
    | with_reducible exact fun _ => ⟨rfl, rfl⟩
    | with_reducible exact rfl
    | with_reducible apply keeps_nvmeFetch
    | with_reducible apply keeps_answerField
    | with_reducible apply keeps_drawBytes
    | with_reducible apply keeps_healthPage
    | with_reducible apply keeps_updNvme
    | with_reducible apply keeps_answerOk
    | split
    | with_reducible apply Keeps.upd
    | intro _ _

theorem keeps_execNvmeIdentify (h : NvmeHead) (cns : Byte) (s : State) : KeepsO 0 s (execNvmeIdentify h cns s) := by
  unfold execNvmeIdentify
  iterate 40 try any_goals first
    | with_reducible apply KeepsO.next
    | with_reducible exact Keeps.refl _ _
    | with_reducible assumption
    | with_reducible exact fun h => h
    | with_reducible exact fun _ => rfl
    | with_reducible exact fun _ => ⟨rfl, rfl⟩
    | with_reducible exact rfl
    | with_reducible apply keeps_nvmeFetch
    | with_reducible apply keeps_drawBytes
    | with_reducible apply keeps_answerOk
    | with_reducible apply keeps_answer
    | with_reducible apply keeps_answerField
    | with_reducible apply Keeps.ite
    | split
    | with_reducible apply Keeps.upd
    | intro _ _

theorem keeps_execNvmeAbort (h : NvmeHead) (sq : BitVec 16) (target : BitVec 16) (s : State) : KeepsO 0 s (execNvmeAbort h sq target s) := by
  unfold execNvmeAbort
  try dsimp only
  iterate 40 try any_goals first
    | with_reducible apply KeepsO.next
    | with_reducible exact Keeps.refl _ _
    | with_reducible assumption
    | with_reducible exact fun h => h
    | with_reducible exact fun _ h => h
    | with_reducible exact fun _ => rfl
    | with_reducible exact fun _ => ⟨rfl, rfl⟩
    | with_reducible exact rfl
    | with_reducible exact fun _ => Mem.wf_nil
    | (intro _; with_reducible exact memPutBytes_wf _ _ _)
    | with_reducible apply keeps_nvmeFetch
    | with_reducible apply keeps_nvmeSettle
    | with_reducible apply keeps_keep
    | with_reducible apply keeps_updNvme
    | with_reducible apply keeps_nvmeEnd
    | with_reducible apply Keeps.id
    | (with_reducible apply Keeps.foldl; intro _ _ _)
    | (with_reducible apply Keeps.foldl_snd; intro _ _ _)
    | (with_reducible apply Keeps.foldl_fst; intro _ _ _)
    | with_reducible apply Keeps.ite
    | split
    | with_reducible apply Keeps.upd
    | with_reducible exact memPutBytes_wf _ _ _
    | with_reducible exact memPutLE_wf _ _ _ _
    | (intro h; with_reducible exact memPuts_wf h)
    | with_reducible exact memPut_wf _ _ _
    | with_reducible exact memClear_wf _ _ _
    | with_reducible exact memKeep_wf _ _
    | exact fun h => absurd h (by omega)
    | intro _ _
    | dsimp only

theorem keeps_execNvmeSetFeatures (h : NvmeHead) (fid : Byte) (value : BitVec 32) (s : State) : KeepsO 0 s (execNvmeSetFeatures h fid value s) := by
  unfold execNvmeSetFeatures
  try dsimp only
  iterate 40 try any_goals first
    | with_reducible apply KeepsO.next
    | with_reducible exact Keeps.refl _ _
    | with_reducible assumption
    | with_reducible apply keeps_nvmeFetch
    | with_reducible apply keeps_answerField
    | with_reducible apply keeps_answer
    | with_reducible apply keeps_answerOk
    | with_reducible apply keeps_updNvme
    | split
    | with_reducible exact memPutLE_wf _ _ _ _
    | intro _ _

theorem keeps_execNvmeGetFeatures (h : NvmeHead) (fid : Byte) (s : State) : KeepsO 0 s (execNvmeGetFeatures h fid s) := by
  unfold execNvmeGetFeatures
  try dsimp only
  iterate 40 try any_goals first
    | with_reducible apply KeepsO.next
    | with_reducible exact Keeps.refl _ _
    | with_reducible assumption
    | with_reducible apply keeps_nvmeFetch
    | with_reducible apply keeps_answerField
    | with_reducible apply keeps_answer
    | split
    | intro _ _

theorem keeps_execNvmeAsyncEventRequest (h : NvmeHead) (s : State) : KeepsO 0 s (execNvmeAsyncEventRequest h s) := by
  unfold execNvmeAsyncEventRequest
  iterate 40 try any_goals first
    | with_reducible apply KeepsO.next
    | with_reducible exact Keeps.refl _ _
    | with_reducible assumption
    | with_reducible exact fun h => h
    | with_reducible apply keeps_nvmeFetch
    | with_reducible apply keeps_answer
    | with_reducible apply keeps_updNvme
    | with_reducible apply keeps_answerField
    | with_reducible apply keeps_keep
    | with_reducible apply Keeps.ite
    | intro _ _

theorem keeps_forward {lv : Nat} {ss0 : State} {s : State} {sq : Nat} {h : NvmeHead} {op : Nat} {fua : Nat} {lba : Nat} {n : Nat} {data : List Byte} (hK : Keeps lv ss0 s) :
    Keeps lv ss0 (forward s sq h op fua lba n data) := by
  unfold forward
  iterate 40 try any_goals first
    | with_reducible assumption
    | with_reducible apply keeps_sendRequest
    | with_reducible apply keeps_keep
    | with_reducible apply keeps_answer
    | split

theorem keeps_execNvmeFlush (sq : Fin 65) (h : NvmeHead) (s : State) : KeepsO 0 s (execNvmeFlush sq h s) := by
  unfold execNvmeFlush
  iterate 40 try any_goals first
    | with_reducible apply KeepsO.next
    | with_reducible exact Keeps.refl _ _
    | with_reducible assumption
    | with_reducible apply keeps_ioFetch
    | with_reducible apply keeps_answer
    | with_reducible apply keeps_forward
    | with_reducible apply keeps_flushRemotes
    | with_reducible apply keeps_nvmeSettle
    | with_reducible apply keeps_keep
    | with_reducible apply Keeps.ite
    | split
    | intro _ _

theorem keeps_hostAccept {lv : Nat} {ss0 : State} {s : State} {sq : Nat} {h : NvmeHead} {lba : Nat} {data : List Byte} {ordered : Bool} {fua : Bool} (hK : Keeps lv ss0 s) :
    Keeps lv ss0 (hostAccept s sq h lba data ordered fua) := by
  unfold hostAccept
  iterate 40 try any_goals first
    | with_reducible assumption
    | with_reducible exact fun h => h
    | with_reducible apply keeps_acceptWrite
    | with_reducible apply keeps_updNvme
    | with_reducible apply keeps_noteSuper
    | with_reducible apply keeps_keep
    | with_reducible apply keeps_answerOk
    | with_reducible apply Keeps.ite

theorem keeps_writeGoes {lv : Nat} {ss0 s : State} {sq : Nat} {h : NvmeHead} {lba n : Nat} {fua ordered : Bool}
    {data : List Byte} {d : State} (hK : Keeps lv ss0 s) (hd : Keeps lv ss0 d) :
    Keeps lv ss0 ((writeGoes s sq h lba n fua ordered data).getD d) := by
  unfold writeGoes
  dsimp only
  split
  · exact hd
  · split
    · exact keeps_forward hK
    · split
      · exact keeps_hostAccept hK
      · exact hd

theorem keeps_nvmeWrite {lv : Nat} {ss0 : State} {s : State} {sq : Nat} {h : NvmeHead} {lba : Nat} {n : Nat} {fua : Bool} {ordered : Bool} {data : List Byte} (hK : Keeps lv ss0 s) :
    Keeps lv ss0 (nvmeWrite s sq h lba n fua ordered data) := by
  unfold nvmeWrite
  iterate 40 try any_goals first
    | with_reducible assumption
    | with_reducible exact fun h => h
    | with_reducible apply keeps_writeGoes
    | with_reducible apply keeps_updNvme
    | with_reducible apply keeps_ioFetch
    | with_reducible apply keeps_answer
    | with_reducible apply keeps_keep
    | with_reducible apply Keeps.ite
    | split
    | intro _ _

theorem keeps_execNvmeWrite (sq : Fin 65) (h : NvmeHead) (lba : BitVec 64) (blocks : BitVec 16) (fua : Bool) (data : List Byte) (s : State) : KeepsO 0 s (execNvmeWrite sq h lba blocks fua data s) := by
  unfold execNvmeWrite
  iterate 40 try any_goals with_reducible first | apply KeepsO.next | exact Keeps.refl _ _ | apply keeps_nvmeWrite

theorem keeps_execNvmeWriteOrdered (sq : Fin 65) (h : NvmeHead) (lba : BitVec 64) (blocks : BitVec 16) (fua : Bool) (data : List Byte) (s : State) : KeepsO 0 s (execNvmeWriteOrdered sq h lba blocks fua data s) := by
  unfold execNvmeWriteOrdered
  iterate 40 try any_goals with_reducible first | apply KeepsO.next | exact Keeps.refl _ _ | apply keeps_nvmeWrite

theorem keeps_execNvmeWriteZeroes (sq : Fin 65) (h : NvmeHead) (lba : BitVec 64) (blocks : BitVec 16) (fua : Bool) (s : State) : KeepsO 0 s (execNvmeWriteZeroes sq h lba blocks fua s) := by
  unfold execNvmeWriteZeroes
  try dsimp only
  iterate 40 try any_goals first
    | with_reducible apply KeepsO.next
    | with_reducible exact Keeps.refl _ _
    | with_reducible assumption
    | with_reducible apply keeps_ioFetch
    | with_reducible apply keeps_answerField
    | with_reducible apply keeps_nvmeWrite
    | split
    | intro _ _

theorem keeps_execNvmeRead (sq : Fin 65) (h : NvmeHead) (lba : BitVec 64) (blocks : BitVec 16) (failed : Bool) (s : State) : KeepsO 0 s (execNvmeRead sq h lba blocks failed s) := by
  unfold execNvmeRead
  iterate 40 try any_goals first
    | with_reducible apply KeepsO.next
    | with_reducible exact Keeps.refl _ _
    | with_reducible assumption
    | with_reducible exact fun h => h
    | with_reducible exact fun _ h => h
    | with_reducible exact fun _ => rfl
    | with_reducible exact fun _ => ⟨rfl, rfl⟩
    | with_reducible exact rfl
    | with_reducible apply keeps_ioFetch
    | with_reducible apply keeps_answer
    | with_reducible apply keeps_forward
    | with_reducible apply keeps_updGatePort
    | with_reducible apply keeps_rootSend
    | with_reducible apply keeps_answerOk
    | split
    | with_reducible apply Keeps.upd
    | intro _ _

theorem keeps_execNvmeBarrier (sq : Fin 65) (h : NvmeHead) (clean : Bool) (s : State) : KeepsO 0 s (execNvmeBarrier sq h clean s) := by
  unfold execNvmeBarrier
  iterate 40 try any_goals first
    | with_reducible apply KeepsO.next
    | with_reducible exact Keeps.refl _ _
    | with_reducible assumption
    | with_reducible exact fun h => h
    | with_reducible apply keeps_nvmeFetch
    | with_reducible apply keeps_answer
    | with_reducible apply keeps_answerField
    | with_reducible apply keeps_keep
    | with_reducible apply keeps_nvmeSettle
    | with_reducible apply keeps_updNvme
    | split
    | intro _ _

end Sys2Proof.Machine
end

