-- ==== Sys2Proof/Laws/KeepsImage.lean ====
section
/-! SUPPORT. What the operations of sensors, the scheduler and the front end keep. -/

namespace Sys2Proof.Machine

/-! ## ImgOps -/

theorem keeps_updSensor {lv : Nat} {ss0 : State} {s : State} {sn : Nat} {f : Sensor → Sensor} (hK : Keeps lv ss0 s) :
    Keeps lv ss0 (updSensor s sn f) := by
  unfold updSensor
  iterate 40 try any_goals first
    | with_reducible assumption
    | with_reducible exact fun h => h
    | with_reducible exact fun _ => rfl
    | with_reducible exact fun _ => ⟨rfl, rfl⟩
    | with_reducible exact rfl
    | with_reducible apply Keeps.upd

theorem keeps_updRnd {lv : Nat} {ss0 : State} {s : State} {r : Nat} {f : Rendition → Rendition} (hK : Keeps lv ss0 s) :
    Keeps lv ss0 (updRnd s r f) := by
  unfold updRnd
  iterate 40 try any_goals first
    | with_reducible assumption
    | with_reducible exact fun h => h
    | with_reducible exact fun _ => rfl
    | with_reducible exact fun _ => ⟨rfl, rfl⟩
    | with_reducible exact rfl
    | with_reducible apply Keeps.upd

theorem keeps_updIngest {lv : Nat} {ss0 : State} {s : State} {sn : Nat} {seq : Nat} {g : IngestFrame → IngestFrame} (hK : Keeps lv ss0 s) :
    Keeps lv ss0 (updIngest s sn seq g) := by
  unfold updIngest
  iterate 40 try any_goals with_reducible first | assumption | apply keeps_updSensor

theorem keeps_countCheck {lv : Nat} {ss0 : State} {s : State} {sn : Nat} {kind : Nat} {col : Nat} {n : Nat} (hK : Keeps lv ss0 s) :
    Keeps lv ss0 (countCheck s sn kind col n) := by
  unfold countCheck
  iterate 40 try any_goals with_reducible first | assumption | apply keeps_updSensor

theorem keeps_markFrame {lv : Nat} {ss0 : State} {s : State} {sn : Nat} {seq : Nat} {bit : Nat} (hK : Keeps lv ss0 s) :
    Keeps lv ss0 (markFrame s sn seq bit) := by
  unfold markFrame
  iterate 40 try any_goals with_reducible first | assumption | apply keeps_updIngest

theorem keeps_sweep {lv : Nat} {ss0 : State} {s : State} (hK : Keeps lv ss0 s) :
    Keeps lv ss0 (sweep s) := by
  unfold sweep
  iterate 40 try any_goals first
    | with_reducible assumption
    | with_reducible exact fun h => h
    | with_reducible exact fun _ => rfl
    | with_reducible exact fun _ => ⟨rfl, rfl⟩
    | with_reducible exact rfl
    | with_reducible apply Keeps.upd

theorem keeps_retire {lv : Nat} {ss0 : State} {s : State} {obj : DramObj} (hK : Keeps lv ss0 s) :
    Keeps lv ss0 (retire s obj) := by
  unfold retire
  iterate 40 try any_goals first
    | with_reducible assumption
    | with_reducible exact fun h => h
    | with_reducible exact fun _ => rfl
    | with_reducible exact fun _ => ⟨rfl, rfl⟩
    | with_reducible exact rfl
    | with_reducible apply keeps_sweep
    | with_reducible apply Keeps.upd

theorem keeps_realloc {lv : Nat} {ss0 : State} {s : State} {obj : DramObj} {size : Nat} (hK : Keeps lv ss0 s) :
    Keeps lv ss0 ((realloc s obj size).2) := by
  unfold realloc
  iterate 40 try any_goals with_reducible first | assumption | apply keeps_retire | apply keeps_alloc | split

theorem keeps_postSlate {lv : Nat} {ss0 : State} {s : State} {sn : Nat} {f : IngestFrame} (hK : Keeps lv ss0 s) :
    Keeps lv ss0 (postSlate s sn f) := by
  unfold postSlate
  iterate 40 try any_goals first
    | with_reducible assumption
    | with_reducible apply keeps_postFifo
    | with_reducible apply keeps_updIngest
    | with_reducible apply keeps_recSlate

theorem keeps_postItems {lv : Nat} {ss0 : State} {sn : Nat} : ∀ {nn : Nat} {sv : State},
    Keeps lv ss0 sv → Keeps lv ss0 (postItems sn nn sv) := by
  intro nn
  induction nn with
  | zero => intro sv hK; exact hK
  | succ nn ih =>
    intro sv hK
    unfold postItems
    iterate 40 try any_goals first
      | with_reducible assumption
      | with_reducible apply ih
      | with_reducible apply keeps_postSlate
      | with_reducible apply Keeps.ite
      | split

theorem keeps_flushItems {lv : Nat} {ss0 : State} {s : State} {sn : Nat} (hK : Keeps lv ss0 s) :
    Keeps lv ss0 (flushItems s sn) := by
  unfold flushItems
  iterate 40 try any_goals with_reducible first | assumption | apply keeps_postItems | apply keeps_updSensor

theorem keeps_itemFinal {lv : Nat} {ss0 : State} {s : State} {sn : Nat} {seq : Nat} (hK : Keeps lv ss0 s) :
    Keeps lv ss0 (itemFinal s sn seq) := by
  unfold itemFinal
  iterate 40 try any_goals with_reducible first | assumption | apply keeps_flushItems | apply keeps_updIngest

theorem keeps_beginBuffer {lv : Nat} {ss0 : State} {s : State} {buf : Nat} {trailer : Nat} {seq : Nat} {reserved : List (Nat × Nat)} (hK : Keeps lv ss0 s) :
    Keeps lv ss0 (beginBuffer s buf trailer seq reserved) := by
  unfold beginBuffer
  iterate 40 try any_goals first
    | with_reducible assumption
    | with_reducible apply keeps_dramWrite
    | (with_reducible apply Keeps.foldl; intro _ _ _)

theorem keeps_endBuffer {lv : Nat} {ss0 : State} {s : State} {buf : Nat} {trailer : Nat} {seq : Nat} {header : List Byte} (hK : Keeps lv ss0 s) :
    Keeps lv ss0 (endBuffer s buf trailer seq header) := by
  unfold endBuffer
  iterate 40 try any_goals with_reducible first | assumption | apply keeps_dramWrite

theorem keeps_dropBuffer {lv : Nat} {ss0 : State} {s : State} {buf : Nat} {trailer : Nat} {seq : Nat} (hK : Keeps lv ss0 s) :
    Keeps lv ss0 (dropBuffer s buf trailer seq) := by
  unfold dropBuffer
  iterate 40 try any_goals with_reducible first | assumption | apply keeps_dramWrite

theorem keeps_stoppedEvent {lv : Nat} {ss0 : State} {s : State} {sn : Nat} (hK : Keeps lv ss0 s) :
    Keeps lv ss0 (stoppedEvent s sn) := by
  unfold stoppedEvent
  iterate 40 try any_goals with_reducible first | assumption | apply keeps_setLeaf | apply keeps_postEvent

theorem keeps_sensPowerEvent {lv : Nat} {ss0 : State} {s : State} {sn : Nat} {on : Nat} {result : Nat} (hK : Keeps lv ss0 s) :
    Keeps lv ss0 (sensPowerEvent s sn on result) := by
  unfold sensPowerEvent
  iterate 40 try any_goals with_reducible first | assumption | apply keeps_setLeaf | apply keeps_postEvent

theorem keeps_xferEvent {lv : Nat} {ss0 : State} {s : State} {x : BusXfer} {result : Nat} {written : Nat} (hK : Keeps lv ss0 s) :
    Keeps lv ss0 (xferEvent s x result written) := by
  unfold xferEvent
  iterate 40 try any_goals with_reducible first | assumption | apply keeps_setLeaf | apply keeps_postEvent

theorem keeps_cancelDeferred {lv : Nat} {ss0 : State} {s : State} {sn : Nat} (hK : Keeps lv ss0 s) :
    Keeps lv ss0 (cancelDeferred s sn) := by
  unfold cancelDeferred
  iterate 40 try any_goals first
    | with_reducible assumption
    | with_reducible apply keeps_xferEvent
    | with_reducible apply keeps_updSensor
    | (with_reducible apply Keeps.foldl; intro _ _ _)

theorem keeps_captureEnd {lv : Nat} {ss0 : State} {s : State} {sn : Nat} {result : Nat} {classed : Nat} {clamped : Nat} (hK : Keeps lv ss0 s) :
    Keeps lv ss0 (captureEnd s sn result classed clamped) := by
  unfold captureEnd
  iterate 40 try any_goals first
    | with_reducible assumption
    | with_reducible apply keeps_release
    | with_reducible apply keeps_updSensor
    | with_reducible apply keeps_notify
    | split

theorem keeps_leaveStreaming {lv : Nat} {ss0 : State} {s : State} {sn : Nat} (hK : Keeps lv ss0 s) :
    Keeps lv ss0 (leaveStreaming s sn) := by
  unfold leaveStreaming
  iterate 40 try any_goals first
    | with_reducible assumption
    | with_reducible exact fun h => h
    | with_reducible exact fun _ => rfl
    | with_reducible exact fun _ => ⟨rfl, rfl⟩
    | with_reducible exact rfl
    | with_reducible apply keeps_cancelDeferred
    | with_reducible apply keeps_updSensor
    | with_reducible apply keeps_captureEnd
    | with_reducible apply keeps_stoppedEvent
    | with_reducible apply Keeps.ite
    | with_reducible apply Keeps.upd

theorem keeps_dropOutputs {lv : Nat} {ss0 : State} {s : State} {sn : Nat} {seq : Nat} (hK : Keeps lv ss0 s) :
    Keeps lv ss0 (dropOutputs s sn seq) := by
  unfold dropOutputs
  iterate 40 try any_goals first
    | with_reducible assumption
    | with_reducible apply keeps_updIngest
    | with_reducible apply keeps_updSensor
    | with_reducible apply keeps_dropBuffer
    | with_reducible apply keeps_notify
    | with_reducible apply keeps_setLeaf
    | with_reducible apply keeps_postEvent
    | (with_reducible apply Keeps.foldl; intro _ _ _)
    | with_reducible apply Keeps.ite
    | split

theorem keeps_dropMarkers {lv : Nat} {ss0 : State} {s : State} {sn : Nat} {f : IngestFrame} (hK : Keeps lv ss0 s) :
    Keeps lv ss0 (dropMarkers s sn f) := by
  unfold dropMarkers
  try dsimp only
  iterate 40 try any_goals first
    | with_reducible assumption
    | with_reducible exact fun h => h
    | with_reducible exact fun _ h => h
    | with_reducible exact fun _ => rfl
    | with_reducible exact fun _ => ⟨rfl, rfl⟩
    | with_reducible exact rfl
    | with_reducible exact fun _ => Mem.wf_nil
    | (intro _; with_reducible exact memPutBytes_wf _ _ _)
    | with_reducible apply keeps_codecMarker
    | with_reducible apply Keeps.id
    | (with_reducible apply Keeps.foldl; intro _ _ _)
    | (with_reducible apply Keeps.foldl_snd; intro _ _ _)
    | (with_reducible apply Keeps.foldl_fst; intro _ _ _)
    | with_reducible apply Keeps.ite
    | split
    | with_reducible apply Keeps.upd
    | with_reducible exact memPutBytes_wf _ _ _
    | with_reducible exact memPutLE_wf _ _ _ _
    | (intro h; with_reducible exact memPuts_wf h)
    | with_reducible exact memPut_wf _ _ _
    | with_reducible exact memClear_wf _ _ _
    | with_reducible exact memKeep_wf _ _
    | exact fun h => absurd h (by omega)
    | intro _ _
    | dsimp only

theorem keeps_dropFrame {lv : Nat} {ss0 : State} {s : State} {sn : Nat} {seq : Nat} {cause : Nat} (hK : Keeps lv ss0 s) :
    Keeps lv ss0 (dropFrame s sn seq cause) := by
  unfold dropFrame
  iterate 40 try any_goals first
    | with_reducible assumption
    | with_reducible exact fun h => h
    | with_reducible exact fun _ => rfl
    | with_reducible exact fun _ => ⟨rfl, rfl⟩
    | with_reducible exact rfl
    | with_reducible apply keeps_updIngest
    | with_reducible apply keeps_dropOutputs
    | with_reducible apply keeps_dropMarkers
    | with_reducible apply keeps_itemFinal
    | with_reducible apply Keeps.ite
    | split
    | with_reducible apply Keeps.upd

theorem keeps_closeCounts {lv : Nat} {ss0 : State} {s : State} {sn : Nat} {f : IngestFrame} (hK : Keeps lv ss0 s) :
    Keeps lv ss0 (closeCounts s sn f) := by
  unfold closeCounts
  iterate 40 try any_goals first
    | with_reducible assumption
    | with_reducible apply keeps_setLeaf
    | with_reducible apply keeps_countCheck
    | with_reducible apply Keeps.ite

theorem keeps_closeFrame {lv : Nat} {ss0 : State} {s : State} {sn : Nat} {extra : Nat} (hK : Keeps lv ss0 s) :
    Keeps lv ss0 (closeFrame s sn extra) := by
  unfold closeFrame
  iterate 40 try any_goals first
    | with_reducible assumption
    | with_reducible apply keeps_closeCounts
    | with_reducible apply keeps_updIngest
    | with_reducible apply keeps_itemFinal
    | with_reducible apply keeps_dropFrame
    | with_reducible apply keeps_leaveStreaming
    | with_reducible apply Keeps.ite
    | split

theorem keeps_setBank {lv : Nat} {ss0 : State} {s : State} {r : Nat} {b : Nat} {img : ColImage} (hK : Keeps lv ss0 s) :
    Keeps lv ss0 (setBank s r b img) := by
  unfold setBank
  iterate 40 try any_goals first
    | with_reducible assumption
    | with_reducible exact fun h => h
    | with_reducible exact fun _ => rfl
    | with_reducible exact fun _ => ⟨rfl, rfl⟩
    | with_reducible exact rfl
    | with_reducible apply Keeps.upd

theorem keeps_resolveBank {lv : Nat} {ss0 : State} {s : State} {r : Nat} {img : ColImage} {me : Option Nat} (hK : Keeps lv ss0 s) :
    Keeps lv ss0 ((resolveBank s r img me).2) := by
  unfold resolveBank
  try dsimp only
  iterate 40 try any_goals first
    | with_reducible assumption
    | with_reducible exact fun h => h
    | with_reducible exact fun _ h => h
    | with_reducible exact fun _ => rfl
    | with_reducible exact fun _ => ⟨rfl, rfl⟩
    | with_reducible exact rfl
    | with_reducible exact fun _ => Mem.wf_nil
    | (intro _; with_reducible exact memPutBytes_wf _ _ _)
    | with_reducible apply keeps_setBank
    | with_reducible apply Keeps.id
    | (with_reducible apply Keeps.foldl; intro _ _ _)
    | (with_reducible apply Keeps.foldl_snd; intro _ _ _)
    | (with_reducible apply Keeps.foldl_fst; intro _ _ _)
    | with_reducible apply Keeps.ite
    | split
    | with_reducible apply Keeps.upd
    | with_reducible exact memPutBytes_wf _ _ _
    | with_reducible exact memPutLE_wf _ _ _ _
    | (intro h; with_reducible exact memPuts_wf h)
    | with_reducible exact memPut_wf _ _ _
    | with_reducible exact memClear_wf _ _ _
    | with_reducible exact memKeep_wf _ _
    | exact fun h => absurd h (by omega)
    | intro _ _
    | dsimp only

theorem keeps_resolveBanks {lv : Nat} {ss0 : State} {s : State} {rs : List Nat} {p : Params} {me : Option Nat} (hK : Keeps lv ss0 s) :
    Keeps lv ss0 ((resolveBanks s rs p me).2) := by
  unfold resolveBanks
  iterate 40 try any_goals first
    | with_reducible assumption
    | with_reducible apply keeps_resolveBank
    | (with_reducible apply Keeps.foldl_snd; intro _ _ _)

theorem keeps_latch {lv : Nat} {ss0 : State} {s : State} {sn : Nat} {seq : Nat} {c : SensConfig} (hK : Keeps lv ss0 s) :
    Keeps lv ss0 (latch s sn seq c) := by
  unfold latch
  iterate 40 try any_goals first
    | with_reducible assumption
    | with_reducible apply keeps_updSensor
    | with_reducible apply keeps_notify
    | with_reducible apply keeps_sweep
    | with_reducible apply Keeps.ite
    | split

theorem keeps_settleRnds {lv : Nat} {ss0 : State} {s : State} (hK : Keeps lv ss0 s) :
    Keeps lv ss0 (settleRnds s) := by
  unfold settleRnds
  iterate 40 try any_goals first
    | with_reducible assumption
    | with_reducible exact fun h => h
    | with_reducible exact fun _ => rfl
    | with_reducible exact fun _ => ⟨rfl, rfl⟩
    | with_reducible exact rfl
    | with_reducible apply Keeps.upd

theorem keeps_settleCredit {lv : Nat} {ss0 : State} {s : State} (hK : Keeps lv ss0 s) :
    Keeps lv ss0 (settleCredit s) := by
  unfold settleCredit
  iterate 40 try any_goals first
    | with_reducible assumption
    | with_reducible exact fun h => h
    | with_reducible exact fun _ => rfl
    | with_reducible exact fun _ => ⟨rfl, rfl⟩
    | with_reducible exact rfl
    | with_reducible apply Keeps.upd

theorem keeps_schedDrop {lv : Nat} {ss0 : State} {s : State} {sn : Nat} {f : IngestFrame} {reason : Nat} {late : Nat} (hK : Keeps lv ss0 s) :
    Keeps lv ss0 (schedDrop s sn f reason late) := by
  unfold schedDrop
  iterate 40 try any_goals first
    | with_reducible assumption
    | with_reducible apply keeps_markFrame
    | with_reducible apply keeps_updSensor
    | with_reducible apply keeps_notify
    | with_reducible apply keeps_dropFrame

theorem keeps_overloadLoop {lv : Nat} {ss0 : State}  : ∀ {nn : Nat} {sv : State},
    Keeps lv ss0 sv → Keeps lv ss0 (overloadLoop nn sv) := by
  intro nn
  induction nn with
  | zero => intro sv hK; exact hK
  | succ nn ih =>
    intro sv hK
    unfold overloadLoop
    iterate 40 try any_goals with_reducible first | assumption | apply ih | apply keeps_schedDrop | split

theorem keeps_overloadCheck {lv : Nat} {ss0 : State} {s : State} (hK : Keeps lv ss0 s) :
    Keeps lv ss0 (overloadCheck s) := by
  unfold overloadCheck
  iterate 40 try any_goals with_reducible first | assumption | apply keeps_overloadLoop

theorem keeps_issueBand {lv : Nat} {ss0 : State} {s : State} {p : Nat} {b : Band} (hK : Keeps lv ss0 s) :
    Keeps lv ss0 (issueBand s p b) := by
  unfold issueBand
  iterate 40 try any_goals first
    | with_reducible assumption
    | with_reducible exact fun h => h
    | with_reducible exact fun _ => rfl
    | with_reducible exact fun _ => ⟨rfl, rfl⟩
    | with_reducible exact rfl
    | with_reducible apply keeps_settleCredit
    | split
    | with_reducible apply Keeps.upd

/-! ## BandOps -/

/-- A fold that carries a store keeps it canonical. -/
theorem foldl_fst_wf {α β : Type} {f : Mem × β → α → Mem × β} {l : List α} {a : Mem × β}
    (hf : ∀ a x, Mem.wf a.1 = true → Mem.wf (f a x).1 = true) (h : Mem.wf a.1 = true) :
    Mem.wf (l.foldl f a).1 = true := by
  induction l generalizing a with
  | nil => exact h
  | cons x l ih => exact ih (hf a x h)

theorem bandTap_wf {d : Mem} {f : IngestFrame} {site : Nat → Nat → Site} {b : Band} {slot i : Nat} {acc : Mem × Nat}
    (h : Mem.wf acc.1 = true) : Mem.wf (bandTap d f site b slot i acc).1 = true := by
  unfold bandTap
  split
  · exact h
  · exact foldl_fst_wf (fun _ _ ha => foldl_fst_wf (fun _ _ hb => memPutBytes_wf _ _ _ hb) ha) h

theorem bandSl_wf {c : Dm} {site : Nat → Nat → Site} {b : Band} {acc : Mem × Nat × Nat} (h : Mem.wf acc.1 = true) :
    Mem.wf (bandSl c site b acc).1 = true := by
  unfold bandSl
  split
  · exact foldl_fst_wf (fun _ _ ha => memPutBytes_wf _ _ _ ha) h
  · exact h

theorem bandRnd0_wf {s : State} {c : Dm} {site : Nat → Nat → Site} {b : Band} {d : Mem} (h : Mem.wf d = true) :
    Mem.wf (bandRnd0 s c site b d) = true := by
  unfold bandRnd0
  split
  · exact memPuts_wf h
  · exact h

theorem keeps_bandOutput {lv : Nat} {ss0 : State} {s : State} {f : IngestFrame} {b : Band} {misses : Nat} {stall : Nat} (hK : Keeps lv ss0 s) :
    Keeps lv ss0 (bandOutput s f b misses stall) := by
  unfold bandOutput
  try dsimp only
  iterate 40 try any_goals first
    | with_reducible assumption
    | with_reducible exact fun h => h
    | with_reducible exact fun _ h => h
    | with_reducible exact fun _ => rfl
    | with_reducible exact fun _ => ⟨rfl, rfl⟩
    | with_reducible exact rfl
    | with_reducible exact fun _ => Mem.wf_nil
    | (intro _; with_reducible exact memPutBytes_wf _ _ _)
    | with_reducible apply keeps_updIngest
    | with_reducible apply keeps_updSensor
    | with_reducible apply keeps_poisonHandled
    | (intro h; with_reducible exact bandRnd0_wf (bandSl_wf (foldl_fst_wf (fun _ _ ha => bandTap_wf ha) h)))
    | with_reducible apply Keeps.id
    | (with_reducible apply Keeps.foldl; intro _ _ _)
    | (with_reducible apply Keeps.foldl_snd; intro _ _ _)
    | (with_reducible apply Keeps.foldl_fst; intro _ _ _)
    | with_reducible apply Keeps.ite
    | split
    | with_reducible apply Keeps.upd
    | with_reducible exact memPutBytes_wf _ _ _
    | with_reducible exact memPutLE_wf _ _ _ _
    | (intro h; with_reducible exact memPuts_wf h)
    | with_reducible exact memPut_wf _ _ _
    | with_reducible exact memClear_wf _ _ _
    | with_reducible exact memKeep_wf _ _
    | exact fun h => absurd h (by omega)
    | intro _ _
    | dsimp only

theorem keeps_completeStats {lv : Nat} {ss0 : State} {s : State} {sn : Nat} {f : IngestFrame} (hK : Keeps lv ss0 s) :
    Keeps lv ss0 (completeStats s sn f) := by
  unfold completeStats
  iterate 40 try any_goals first
    | with_reducible assumption
    | with_reducible apply keeps_dramWrite
    | with_reducible apply keeps_updSensor
    | with_reducible apply keeps_notify
    | split

theorem keeps_completeStorm {lv : Nat} {ss0 : State} {s : State} {sn : Nat} {f : IngestFrame} (hK : Keeps lv ss0 s) :
    Keeps lv ss0 (completeStorm s sn f) := by
  unfold completeStorm
  iterate 40 try any_goals with_reducible first | assumption | apply keeps_notify | apply Keeps.ite

theorem keeps_completeSl {lv : Nat} {ss0 : State} {s : State} {sn : Nat} {f : IngestFrame} (hK : Keeps lv ss0 s) :
    Keeps lv ss0 (completeSl s sn f) := by
  unfold completeSl
  iterate 40 try any_goals first
    | with_reducible assumption
    | with_reducible apply keeps_endBuffer
    | with_reducible apply keeps_updSensor
    | with_reducible apply keeps_notify
    | split

theorem keeps_completeRnd0 {lv : Nat} {ss0 : State} {s : State} {sn : Nat} {f : IngestFrame} (hK : Keeps lv ss0 s) :
    Keeps lv ss0 (completeRnd0 s sn f) := by
  unfold completeRnd0
  iterate 40 try any_goals first
    | with_reducible assumption
    | with_reducible exact fun h => h
    | with_reducible exact fun _ => rfl
    | with_reducible exact fun _ => ⟨rfl, rfl⟩
    | with_reducible exact rfl
    | with_reducible apply keeps_endBuffer
    | with_reducible apply keeps_notify
    | split
    | with_reducible apply Keeps.upd

theorem keeps_completeTaps {lv : Nat} {ss0 : State} {s : State} {sn : Nat} {f : IngestFrame} (hK : Keeps lv ss0 s) :
    Keeps lv ss0 (completeTaps s sn f) := by
  unfold completeTaps
  iterate 40 try any_goals first
    | with_reducible assumption
    | with_reducible apply keeps_endBuffer
    | with_reducible apply keeps_setLeaf
    | with_reducible apply keeps_postEvent
    | (with_reducible apply Keeps.foldl; intro _ _ _)
    | with_reducible apply Keeps.ite
    | split

theorem keeps_trackColumn {lv : Nat} {ss0 : State} {s : State} {sn : Nat} {f : IngestFrame} (hK : Keeps lv ss0 s) :
    Keeps lv ss0 (trackColumn s sn f) := by
  unfold trackColumn
  iterate 40 try any_goals with_reducible first | assumption | apply keeps_updSensor | apply Keeps.ite

theorem keeps_countCapture {lv : Nat} {ss0 : State} {s : State} {sn : Nat} {f : IngestFrame} (hK : Keeps lv ss0 s) :
    Keeps lv ss0 (countCapture s sn f) := by
  unfold countCapture
  iterate 40 try any_goals with_reducible first | assumption | apply keeps_updSensor | apply Keeps.ite | split

theorem keeps_completeMargin {lv : Nat} {ss0 : State} {s : State} {sn : Nat} {f : IngestFrame} (hK : Keeps lv ss0 s) :
    Keeps lv ss0 (completeMargin s sn f) := by
  unfold completeMargin
  iterate 40 try any_goals first
    | with_reducible assumption
    | with_reducible apply keeps_updSensor
    | with_reducible apply keeps_notify
    | with_reducible apply Keeps.ite

theorem keeps_skipMarker {lv : Nat} {ss0 : State} {s : State} {r : Nat} {seq : Nat} (hK : Keeps lv ss0 s) :
    Keeps lv ss0 (skipMarker s r seq) := by
  unfold skipMarker
  iterate 40 try any_goals with_reducible first | assumption | apply keeps_codecMarker | split

theorem keeps_skipUnplaced {lv : Nat} {ss0 : State} {s : State} {sn : Nat} {f : IngestFrame} (hK : Keeps lv ss0 s) :
    Keeps lv ss0 (skipUnplaced s sn f) := by
  unfold skipUnplaced
  iterate 40 try any_goals first
    | with_reducible assumption
    | with_reducible apply keeps_skipMarker
    | (with_reducible apply Keeps.foldl; intro _ _ _)
    | with_reducible apply Keeps.ite

theorem keeps_completeFrame {lv : Nat} {ss0 : State} {s : State} {sn : Nat} {seq : Nat} (hK : Keeps lv ss0 s) :
    Keeps lv ss0 (completeFrame s sn seq) := by
  unfold completeFrame
  iterate 40 try any_goals first
    | with_reducible assumption
    | with_reducible apply keeps_updIngest
    | with_reducible apply keeps_skipUnplaced
    | with_reducible apply keeps_countCapture
    | with_reducible apply keeps_trackColumn
    | with_reducible apply keeps_completeTaps
    | with_reducible apply keeps_completeRnd0
    | with_reducible apply keeps_completeSl
    | with_reducible apply keeps_completeStorm
    | with_reducible apply keeps_completeStats
    | with_reducible apply keeps_completeMargin
    | with_reducible apply Keeps.ite
    | split

theorem keeps_bandEnd {lv : Nat} {ss0 : State} {s : State} {p : Nat} {misses : Nat} {stall : Nat} (hK : Keeps lv ss0 s) :
    Keeps lv ss0 (bandEnd s p misses stall) := by
  unfold bandEnd
  iterate 40 try any_goals first
    | with_reducible assumption
    | with_reducible exact fun h => h
    | with_reducible exact fun _ => rfl
    | with_reducible exact fun _ => ⟨rfl, rfl⟩
    | with_reducible exact rfl
    | with_reducible apply keeps_overloadCheck
    | with_reducible apply keeps_dropOutputs
    | with_reducible apply keeps_completeFrame
    | with_reducible apply keeps_bandOutput
    | with_reducible apply Keeps.ite
    | split
    | with_reducible apply Keeps.upd

/-! ## SensOps -/

theorem keeps_setSpwr {lv : Nat} {ss0 : State} {s : State} {sn : Nat} {on : Bool} {q : SpwrSeq} (hK : Keeps lv ss0 s) :
    Keeps lv ss0 (setSpwr s sn on q) := by
  unfold setSpwr
  try dsimp only
  iterate 40 try any_goals first
    | with_reducible assumption
    | with_reducible exact fun h => h
    | with_reducible exact fun _ h => h
    | with_reducible exact fun _ => rfl
    | with_reducible exact fun _ => ⟨rfl, rfl⟩
    | with_reducible exact rfl
    | with_reducible exact fun _ => Mem.wf_nil
    | (intro _; with_reducible exact memPutBytes_wf _ _ _)
    | with_reducible apply Keeps.id
    | (with_reducible apply Keeps.foldl; intro _ _ _)
    | (with_reducible apply Keeps.foldl_snd; intro _ _ _)
    | (with_reducible apply Keeps.foldl_fst; intro _ _ _)
    | with_reducible apply Keeps.ite
    | split
    | with_reducible apply Keeps.upd
    | with_reducible exact memPutBytes_wf _ _ _
    | with_reducible exact memPutLE_wf _ _ _ _
    | (intro h; with_reducible exact memPuts_wf h)
    | with_reducible exact memPut_wf _ _ _
    | with_reducible exact memClear_wf _ _ _
    | with_reducible exact memKeep_wf _ _
    | exact fun h => absurd h (by omega)
    | intro _ _
    | dsimp only

theorem keeps_powerDone {lv : Nat} {ss0 : State} {s : State} {sn : Nat} {on : Bool} {result : Nat} (hK : Keeps lv ss0 s) :
    Keeps lv ss0 (powerDone s sn on result) := by
  unfold powerDone
  try dsimp only
  iterate 40 try any_goals first
    | with_reducible assumption
    | with_reducible exact fun h => h
    | with_reducible exact fun _ h => h
    | with_reducible exact fun _ => rfl
    | with_reducible exact fun _ => ⟨rfl, rfl⟩
    | with_reducible exact rfl
    | with_reducible exact fun _ => Mem.wf_nil
    | (intro _; with_reducible exact memPutBytes_wf _ _ _)
    | with_reducible apply keeps_sensPowerEvent
    | with_reducible apply keeps_updSensor
    | with_reducible apply Keeps.id
    | (with_reducible apply Keeps.foldl; intro _ _ _)
    | (with_reducible apply Keeps.foldl_snd; intro _ _ _)
    | (with_reducible apply Keeps.foldl_fst; intro _ _ _)
    | with_reducible apply Keeps.ite
    | split
    | with_reducible apply Keeps.upd
    | with_reducible exact memPutBytes_wf _ _ _
    | with_reducible exact memPutLE_wf _ _ _ _
    | (intro h; with_reducible exact memPuts_wf h)
    | with_reducible exact memPut_wf _ _ _
    | with_reducible exact memClear_wf _ _ _
    | with_reducible exact memKeep_wf _ _
    | exact fun h => absurd h (by omega)
    | intro _ _
    | dsimp only

theorem keeps_assertPower {lv : Nat} {ss0 : State} {s : State} {sn : Nat} (hK : Keeps lv ss0 s) :
    Keeps lv ss0 (assertPower s sn) := by
  unfold assertPower
  iterate 40 try any_goals first
    | with_reducible assumption
    | with_reducible exact fun h => h
    | with_reducible exact fun _ => rfl
    | with_reducible exact fun _ => ⟨rfl, rfl⟩
    | with_reducible exact rfl
    | with_reducible apply keeps_setSpwr
    | split
    | with_reducible apply Keeps.upd

theorem keeps_beginPower {lv : Nat} {ss0 : State} {s : State} {sn : Nat} {on : Bool} (hK : Keeps lv ss0 s) :
    Keeps lv ss0 (beginPower s sn on) := by
  unfold beginPower
  try dsimp only
  iterate 40 try any_goals first
    | with_reducible assumption
    | with_reducible exact fun h => h
    | with_reducible exact fun _ h => h
    | with_reducible exact fun _ => rfl
    | with_reducible exact fun _ => ⟨rfl, rfl⟩
    | with_reducible exact rfl
    | with_reducible exact fun _ => Mem.wf_nil
    | (intro _; with_reducible exact memPutBytes_wf _ _ _)
    | with_reducible apply keeps_powerDone
    | with_reducible apply keeps_setSpwr
    | with_reducible apply keeps_assertPower
    | with_reducible apply Keeps.id
    | (with_reducible apply Keeps.foldl; intro _ _ _)
    | (with_reducible apply Keeps.foldl_snd; intro _ _ _)
    | (with_reducible apply Keeps.foldl_fst; intro _ _ _)
    | with_reducible apply Keeps.ite
    | split
    | with_reducible apply Keeps.upd
    | with_reducible exact memPutBytes_wf _ _ _
    | with_reducible exact memPutLE_wf _ _ _ _
    | (intro h; with_reducible exact memPuts_wf h)
    | with_reducible exact memPut_wf _ _ _
    | with_reducible exact memClear_wf _ _ _
    | with_reducible exact memKeep_wf _ _
    | exact fun h => absurd h (by omega)
    | intro _ _
    | dsimp only

theorem keeps_requestPower {lv : Nat} {ss0 : State} {s : State} {sn : Nat} {on : Bool} (hK : Keeps lv ss0 s) :
    Keeps lv ss0 (requestPower s sn on) := by
  unfold requestPower
  iterate 40 try any_goals first
    | with_reducible assumption
    | with_reducible exact fun h => h
    | with_reducible exact fun _ => rfl
    | with_reducible exact fun _ => ⟨rfl, rfl⟩
    | with_reducible exact rfl
    | with_reducible apply keeps_updSensor
    | with_reducible apply keeps_beginPower
    | with_reducible apply Keeps.ite
    | with_reducible apply Keeps.upd

theorem keeps_removePower {lv : Nat} {ss0 : State} {s : State} {sn : Nat} (hK : Keeps lv ss0 s) :
    Keeps lv ss0 (removePower s sn) := by
  unfold removePower
  iterate 40 try any_goals first
    | with_reducible assumption
    | with_reducible apply keeps_setSpwr
    | with_reducible apply keeps_closeFrame
    | with_reducible apply keeps_leaveStreaming
    | with_reducible apply keeps_sensPowerEvent
    | with_reducible apply Keeps.ite

theorem keeps_disableOutputs {lv : Nat} {ss0 : State} {s : State} {sn : Nat} (hK : Keeps lv ss0 s) :
    Keeps lv ss0 (disableOutputs s sn) := by
  unfold disableOutputs
  iterate 40 try any_goals first
    | with_reducible assumption
    | with_reducible apply keeps_updStream
    | with_reducible apply keeps_updSensor
    | with_reducible apply keeps_retire
    | (with_reducible apply Keeps.foldl; intro _ _ _)

theorem keeps_resetOnce {lv : Nat} {ss0 : State} {s : State} {sn : Nat} (hK : Keeps lv ss0 s) :
    Keeps lv ss0 (resetOnce s sn) := by
  unfold resetOnce
  iterate 40 try any_goals first
    | with_reducible assumption
    | with_reducible exact fun h => h
    | with_reducible exact fun _ => rfl
    | with_reducible exact fun _ => ⟨rfl, rfl⟩
    | with_reducible exact rfl
    | with_reducible apply keeps_updSensor
    | with_reducible apply Keeps.upd

theorem keeps_bindConfig {lv : Nat} {ss0 : State} {s : State} {sn : Nat} {c : SensConfig} (hK : Keeps lv ss0 s) :
    Keeps lv ss0 (bindConfig s sn c) := by
  unfold bindConfig
  try dsimp only
  iterate 40 try any_goals first
    | with_reducible assumption
    | with_reducible exact fun h => h
    | with_reducible exact fun _ h => h
    | with_reducible exact fun _ => rfl
    | with_reducible exact fun _ => ⟨rfl, rfl⟩
    | with_reducible exact rfl
    | with_reducible exact fun _ => Mem.wf_nil
    | (intro _; with_reducible exact memPutBytes_wf _ _ _)
    | with_reducible apply keeps_setLane
    | with_reducible apply keeps_resetOnce
    | with_reducible apply keeps_disableOutputs
    | with_reducible apply keeps_updSensor
    | with_reducible apply keeps_resolveBanks
    | with_reducible apply Keeps.id
    | (with_reducible apply Keeps.foldl; intro _ _ _)
    | (with_reducible apply Keeps.foldl_snd; intro _ _ _)
    | (with_reducible apply Keeps.foldl_fst; intro _ _ _)
    | with_reducible apply Keeps.ite
    | split
    | with_reducible apply Keeps.upd
    | with_reducible exact memPutBytes_wf _ _ _
    | with_reducible exact memPutLE_wf _ _ _ _
    | (intro h; with_reducible exact memPuts_wf h)
    | with_reducible exact memPut_wf _ _ _
    | with_reducible exact memClear_wf _ _ _
    | with_reducible exact memKeep_wf _ _
    | exact fun h => absurd h (by omega)
    | intro _ _
    | dsimp only

theorem keeps_columnRegion {lv : Nat} {ss0 : State} {s : State} {sn : Nat} (hK : Keeps lv ss0 s) :
    Keeps lv ss0 (columnRegion s sn) := by
  unfold columnRegion
  iterate 40 try any_goals with_reducible first | assumption | apply keeps_alloc | apply Keeps.ite | split

theorem keeps_outlive {lv : Nat} {ss0 : State} {s : State} {sn : Nat} {objs : List DramObj} (hK : Keeps lv ss0 s) :
    Keeps lv ss0 (outlive s sn objs) := by
  unfold outlive
  try dsimp only
  iterate 40 try any_goals first
    | with_reducible assumption
    | with_reducible exact fun h => h
    | with_reducible exact fun _ h => h
    | with_reducible exact fun _ => rfl
    | with_reducible exact fun _ => ⟨rfl, rfl⟩
    | with_reducible exact rfl
    | with_reducible exact fun _ => Mem.wf_nil
    | (intro _; with_reducible exact memPutBytes_wf _ _ _)
    | with_reducible apply keeps_updSensor
    | with_reducible apply Keeps.id
    | (with_reducible apply Keeps.foldl; intro _ _ _)
    | (with_reducible apply Keeps.foldl_snd; intro _ _ _)
    | (with_reducible apply Keeps.foldl_fst; intro _ _ _)
    | with_reducible apply Keeps.ite
    | split
    | with_reducible apply Keeps.upd
    | with_reducible exact memPutBytes_wf _ _ _
    | with_reducible exact memPutLE_wf _ _ _ _
    | (intro h; with_reducible exact memPuts_wf h)
    | with_reducible exact memPut_wf _ _ _
    | with_reducible exact memClear_wf _ _ _
    | with_reducible exact memKeep_wf _ _
    | exact fun h => absurd h (by omega)
    | intro _ _
    | dsimp only

theorem keeps_applyConfig {lv : Nat} {ss0 : State} {s : State} {sn : Nat} {c : SensConfig} (hK : Keeps lv ss0 s) :
    Keeps lv ss0 (applyConfig s sn c) := by
  unfold applyConfig
  try dsimp only
  iterate 40 try any_goals first
    | with_reducible assumption
    | with_reducible exact fun h => h
    | with_reducible exact fun _ h => h
    | with_reducible exact fun _ => rfl
    | with_reducible exact fun _ => ⟨rfl, rfl⟩
    | with_reducible exact rfl
    | with_reducible exact fun _ => Mem.wf_nil
    | (intro _; with_reducible exact memPutBytes_wf _ _ _)
    | with_reducible apply keeps_outlive
    | with_reducible apply keeps_alloc
    | with_reducible apply keeps_sweep
    | with_reducible apply keeps_columnRegion
    | with_reducible apply keeps_retire
    | with_reducible apply keeps_bindConfig
    | with_reducible apply Keeps.id
    | (with_reducible apply Keeps.foldl; intro _ _ _)
    | (with_reducible apply Keeps.foldl_snd; intro _ _ _)
    | (with_reducible apply Keeps.foldl_fst; intro _ _ _)
    | with_reducible apply Keeps.ite
    | split
    | with_reducible apply Keeps.upd
    | with_reducible exact memPutBytes_wf _ _ _
    | with_reducible exact memPutLE_wf _ _ _ _
    | (intro h; with_reducible exact memPuts_wf h)
    | with_reducible exact memPut_wf _ _ _
    | with_reducible exact memClear_wf _ _ _
    | with_reducible exact memKeep_wf _ _
    | exact fun h => absurd h (by omega)
    | intro _ _
    | dsimp only

theorem keeps_dropBinding {lv : Nat} {ss0 : State} {s : State} {r : Nat} (hK : Keeps lv ss0 s) :
    Keeps lv ss0 (dropBinding s r) := by
  unfold dropBinding
  try dsimp only
  iterate 40 try any_goals first
    | with_reducible assumption
    | with_reducible exact fun h => h
    | with_reducible exact fun _ h => h
    | with_reducible exact fun _ => rfl
    | with_reducible exact fun _ => ⟨rfl, rfl⟩
    | with_reducible exact rfl
    | with_reducible exact fun _ => Mem.wf_nil
    | (intro _; with_reducible exact memPutBytes_wf _ _ _)
    | with_reducible apply keeps_retire
    | with_reducible apply keeps_updRnd
    | with_reducible apply Keeps.id
    | (with_reducible apply Keeps.foldl; intro _ _ _)
    | (with_reducible apply Keeps.foldl_snd; intro _ _ _)
    | (with_reducible apply Keeps.foldl_fst; intro _ _ _)
    | with_reducible apply Keeps.ite
    | split
    | with_reducible apply Keeps.upd
    | with_reducible exact memPutBytes_wf _ _ _
    | with_reducible exact memPutLE_wf _ _ _ _
    | (intro h; with_reducible exact memPuts_wf h)
    | with_reducible exact memPut_wf _ _ _
    | with_reducible exact memClear_wf _ _ _
    | with_reducible exact memKeep_wf _ _
    | exact fun h => absurd h (by omega)
    | intro _ _
    | dsimp only

theorem keeps_clearSensor {lv : Nat} {ss0 : State} {s : State} {sn : Nat} (hK : Keeps lv ss0 s) :
    Keeps lv ss0 (clearSensor s sn) := by
  unfold clearSensor
  try dsimp only
  iterate 40 try any_goals first
    | with_reducible assumption
    | with_reducible exact fun h => h
    | with_reducible exact fun _ h => h
    | with_reducible exact fun _ => rfl
    | with_reducible exact fun _ => ⟨rfl, rfl⟩
    | with_reducible exact rfl
    | with_reducible exact fun _ => Mem.wf_nil
    | (intro _; with_reducible exact memPutBytes_wf _ _ _)
    | with_reducible apply keeps_disableOutputs
    | with_reducible apply keeps_outlive
    | with_reducible apply keeps_dropBinding
    | with_reducible apply keeps_resetOnce
    | with_reducible apply keeps_updSensor
    | with_reducible apply keeps_retire
    | with_reducible apply Keeps.id
    | (with_reducible apply Keeps.foldl; intro _ _ _)
    | (with_reducible apply Keeps.foldl_snd; intro _ _ _)
    | (with_reducible apply Keeps.foldl_fst; intro _ _ _)
    | with_reducible apply Keeps.ite
    | split
    | with_reducible apply Keeps.upd
    | with_reducible exact memPutBytes_wf _ _ _
    | with_reducible exact memPutLE_wf _ _ _ _
    | (intro h; with_reducible exact memPuts_wf h)
    | with_reducible exact memPut_wf _ _ _
    | with_reducible exact memClear_wf _ _ _
    | with_reducible exact memKeep_wf _ _
    | exact fun h => absurd h (by omega)
    | intro _ _
    | dsimp only

theorem keeps_startSensor {lv : Nat} {ss0 : State} {s : State} {sn : Nat} (hK : Keeps lv ss0 s) :
    Keeps lv ss0 (startSensor s sn) := by
  unfold startSensor
  try dsimp only
  iterate 40 try any_goals first
    | with_reducible assumption
    | with_reducible exact fun h => h
    | with_reducible exact fun _ h => h
    | with_reducible exact fun _ => rfl
    | with_reducible exact fun _ => ⟨rfl, rfl⟩
    | with_reducible exact rfl
    | with_reducible exact fun _ => Mem.wf_nil
    | (intro _; with_reducible exact memPutBytes_wf _ _ _)
    | with_reducible apply keeps_updSensor
    | with_reducible apply keeps_clearHistory
    | with_reducible apply keeps_updStream
    | with_reducible apply keeps_recSensorStart
    | with_reducible apply keeps_sweep
    | with_reducible apply Keeps.id
    | (with_reducible apply Keeps.foldl; intro _ _ _)
    | (with_reducible apply Keeps.foldl_snd; intro _ _ _)
    | (with_reducible apply Keeps.foldl_fst; intro _ _ _)
    | with_reducible apply Keeps.ite
    | split
    | with_reducible apply Keeps.upd
    | with_reducible exact memPutBytes_wf _ _ _
    | with_reducible exact memPutLE_wf _ _ _ _
    | (intro h; with_reducible exact memPuts_wf h)
    | with_reducible exact memPut_wf _ _ _
    | with_reducible exact memClear_wf _ _ _
    | with_reducible exact memKeep_wf _ _
    | exact fun h => absurd h (by omega)
    | intro _ _
    | dsimp only

theorem keeps_markOpen {lv : Nat} {ss0 : State} {s : State} {sn : Nat} {bit : Nat} (hK : Keeps lv ss0 s) :
    Keeps lv ss0 (markOpen s sn bit) := by
  unfold markOpen
  iterate 40 try any_goals with_reducible first | assumption | apply keeps_markFrame | split

theorem keeps_updOpen {lv : Nat} {ss0 : State} {s : State} {sn : Nat} {g : IngestFrame → IngestFrame} (hK : Keeps lv ss0 s) :
    Keeps lv ss0 (updOpen s sn g) := by
  unfold updOpen
  iterate 40 try any_goals with_reducible first | assumption | apply keeps_updIngest | split

theorem keeps_crcFailure {lv : Nat} {ss0 : State} {s : State} {sn : Nat} {col : Nat} (hK : Keeps lv ss0 s) :
    Keeps lv ss0 (crcFailure s sn col) := by
  unfold crcFailure
  iterate 40 try any_goals with_reducible first | assumption | apply keeps_updOpen | apply keeps_countCheck

theorem keeps_landLine {lv : Nat} {ss0 : State} {s : State} {f : IngestFrame} {e : Nat} {y : Nat} {words : List Nat} (hK : Keeps lv ss0 s) :
    Keeps lv ss0 (landLine s f e y words) := by
  unfold landLine
  iterate 40 try any_goals with_reducible first | assumption | apply keeps_dramWrite | split

theorem keeps_lineArrives {lv : Nat} {ss0 : State} {s : State} {sn : Nat} {f : IngestFrame} {p : Pkt} (hK : Keeps lv ss0 s) :
    Keeps lv ss0 (lineArrives s sn f p) := by
  unfold lineArrives
  iterate 40 try any_goals first
    | with_reducible assumption
    | with_reducible apply keeps_updIngest
    | with_reducible apply keeps_crcFailure
    | with_reducible apply keeps_countCheck
    | with_reducible apply keeps_landLine
    | with_reducible apply keeps_markFrame
    | with_reducible apply Keeps.ite

theorem keeps_embeddedArrives {lv : Nat} {ss0 : State} {s : State} {sn : Nat} {f : IngestFrame} {p : Pkt} (hK : Keeps lv ss0 s) :
    Keeps lv ss0 (embeddedArrives s sn f p) := by
  unfold embeddedArrives
  iterate 40 try any_goals first
    | with_reducible assumption
    | with_reducible apply keeps_crcFailure
    | with_reducible apply keeps_dramWrite
    | with_reducible apply keeps_updIngest
    | with_reducible apply keeps_countCheck
    | with_reducible apply keeps_markFrame
    | with_reducible apply Keeps.ite
    | split

theorem keeps_rndSkipEvent {lv : Nat} {ss0 : State} {s : State} {r : Nat} {seq : Nat} {sn : Nat} {reason : Nat} {gen : Nat} {count : Nat} (hK : Keeps lv ss0 s) :
    Keeps lv ss0 (rndSkipEvent s r seq sn reason gen count) := by
  unfold rndSkipEvent
  iterate 40 try any_goals with_reducible first | assumption | apply keeps_notify

theorem keeps_rndSkip {lv : Nat} {ss0 : State} {s : State} {r : Nat} {seq : Nat} {sn : Nat} {reason : Nat} {gen : Nat} {post : Bool} (hK : Keeps lv ss0 s) :
    Keeps lv ss0 (rndSkip s r seq sn reason gen post) := by
  unfold rndSkip
  iterate 40 try any_goals first
    | with_reducible assumption
    | with_reducible apply keeps_updRnd
    | with_reducible apply keeps_rndSkipEvent
    | with_reducible apply Keeps.ite

theorem keeps_refillSkips {lv : Nat} {ss0 : State} {s : State} {sn : Nat} {n : Nat} (hK : Keeps lv ss0 s) :
    Keeps lv ss0 (refillSkips s sn n) := by
  unfold refillSkips
  iterate 40 try any_goals first
    | with_reducible assumption
    | with_reducible apply keeps_skipMarker
    | with_reducible apply keeps_rndSkip
    | (with_reducible apply Keeps.foldl; intro _ _ _)
    | with_reducible apply Keeps.ite
    | split

theorem keeps_assignSl {lv : Nat} {ss0 : State} {s : State} {sn : Nat} {seq : Nat} (hK : Keeps lv ss0 s) :
    Keeps lv ss0 (assignSl s sn seq) := by
  unfold assignSl
  iterate 40 try any_goals first
    | with_reducible assumption
    | with_reducible exact fun h => h
    | with_reducible exact fun _ => rfl
    | with_reducible exact fun _ => ⟨rfl, rfl⟩
    | with_reducible exact rfl
    | with_reducible apply keeps_setLeaf
    | with_reducible apply keeps_postEvent
    | with_reducible apply keeps_refillSkips
    | with_reducible apply keeps_beginBuffer
    | with_reducible apply keeps_updIngest
    | with_reducible apply keeps_updSensor
    | split
    | with_reducible apply Keeps.upd

theorem keeps_assignRnd0 {lv : Nat} {ss0 : State} {s : State} {sn : Nat} {seq : Nat} (hK : Keeps lv ss0 s) :
    Keeps lv ss0 (assignRnd0 s sn seq) := by
  unfold assignRnd0
  iterate 40 try any_goals first
    | with_reducible assumption
    | with_reducible exact fun h => h
    | with_reducible exact fun _ => rfl
    | with_reducible exact fun _ => ⟨rfl, rfl⟩
    | with_reducible exact rfl
    | with_reducible apply keeps_beginBuffer
    | with_reducible apply keeps_updIngest
    | with_reducible apply keeps_updSensor
    | with_reducible apply keeps_rndSkipEvent
    | with_reducible apply Keeps.ite
    | split
    | with_reducible apply Keeps.upd

theorem keeps_assignTaps {lv : Nat} {ss0 : State} {s : State} {sn : Nat} {seq : Nat} (hK : Keeps lv ss0 s) :
    Keeps lv ss0 (assignTaps s sn seq) := by
  unfold assignTaps
  iterate 40 try any_goals first
    | with_reducible assumption
    | with_reducible apply keeps_beginBuffer
    | (with_reducible apply Keeps.foldl; intro _ _ _)
    | split

theorem keeps_beginStreams {lv : Nat} {ss0 : State} {s : State} {sn : Nat} {seq : Nat} (hK : Keeps lv ss0 s) :
    Keeps lv ss0 (beginStreams s sn seq) := by
  unfold beginStreams
  try dsimp only
  iterate 40 try any_goals first
    | with_reducible assumption
    | with_reducible exact fun h => h
    | with_reducible exact fun _ h => h
    | with_reducible exact fun _ => rfl
    | with_reducible exact fun _ => ⟨rfl, rfl⟩
    | with_reducible exact rfl
    | with_reducible exact fun _ => Mem.wf_nil
    | (intro _; with_reducible exact memPutBytes_wf _ _ _)
    | with_reducible apply keeps_updIngest
    | with_reducible apply keeps_updStream
    | with_reducible apply Keeps.id
    | (with_reducible apply Keeps.foldl; intro _ _ _)
    | (with_reducible apply Keeps.foldl_snd; intro _ _ _)
    | (with_reducible apply Keeps.foldl_fst; intro _ _ _)
    | with_reducible apply Keeps.ite
    | split
    | with_reducible apply Keeps.upd
    | with_reducible exact memPutBytes_wf _ _ _
    | with_reducible exact memPutLE_wf _ _ _ _
    | (intro h; with_reducible exact memPuts_wf h)
    | with_reducible exact memPut_wf _ _ _
    | with_reducible exact memClear_wf _ _ _
    | with_reducible exact memKeep_wf _ _
    | exact fun h => absurd h (by omega)
    | intro _ _
    | dsimp only

theorem keeps_noSlotMarkers {lv : Nat} {ss0 : State} {s : State} {sn : Nat} {seq : Nat} {fs : Nat} {gen : Nat} (hK : Keeps lv ss0 s) :
    Keeps lv ss0 (noSlotMarkers s sn seq fs gen) := by
  unfold noSlotMarkers
  iterate 40 try any_goals first
    | with_reducible assumption
    | with_reducible apply keeps_codecMarker
    | (with_reducible apply Keeps.foldl; intro _ _ _)

theorem keeps_enqueueBus {lv : Nat} {ss0 : State} {s : State} {b : Nat} {j : BusJob} (hK : Keeps lv ss0 s) :
    Keeps lv ss0 (enqueueBus s b j) := by
  unfold enqueueBus
  iterate 40 try any_goals first
    | with_reducible assumption
    | with_reducible exact fun h => h
    | with_reducible exact fun _ => rfl
    | with_reducible exact fun _ => ⟨rfl, rfl⟩
    | with_reducible exact rfl
    | with_reducible apply Keeps.upd

theorem keeps_triggerPoll {lv : Nat} {ss0 : State} {s : State} {sn : Nat} {k : Nat} {trigger : Nat} (hK : Keeps lv ss0 s) :
    Keeps lv ss0 (triggerPoll s sn k trigger) := by
  unfold triggerPoll
  iterate 40 try any_goals first
    | with_reducible assumption
    | with_reducible apply keeps_countCheck
    | with_reducible apply keeps_enqueueBus
    | with_reducible apply Keeps.ite
    | split

theorem keeps_fsTransfers {lv : Nat} {ss0 : State} {s : State} {sn : Nat} (hK : Keeps lv ss0 s) :
    Keeps lv ss0 (fsTransfers s sn) := by
  unfold fsTransfers
  iterate 40 try any_goals first
    | with_reducible assumption
    | with_reducible apply keeps_enqueueBus
    | with_reducible apply keeps_updSensor
    | with_reducible apply keeps_triggerPoll
    | (with_reducible apply Keeps.foldl; intro _ _ _)

theorem keeps_captureAccepted {lv : Nat} {ss0 : State} {s : State} {sn : Nat} (hK : Keeps lv ss0 s) :
    Keeps lv ss0 (captureAccepted s sn) := by
  unfold captureAccepted
  iterate 40 try any_goals first
    | with_reducible assumption
    | with_reducible apply keeps_updSensor
    | with_reducible apply keeps_captureEnd
    | with_reducible apply Keeps.ite
    | split

theorem keeps_acceptFs {lv : Nat} {ss0 : State} {s : State} {sn : Nat} {num : Nat} {c : SensConfig} (hK : Keeps lv ss0 s) :
    Keeps lv ss0 (acceptFs s sn num c) := by
  unfold acceptFs
  iterate 40 try any_goals first
    | with_reducible assumption
    | with_reducible apply keeps_closeFrame
    | with_reducible apply keeps_latch
    | with_reducible apply keeps_updSensor
    | with_reducible apply keeps_countCheck
    | with_reducible apply keeps_dropOutputs
    | with_reducible apply keeps_noSlotMarkers
    | with_reducible apply keeps_setLeaf
    | with_reducible apply keeps_beginStreams
    | with_reducible apply keeps_assignTaps
    | with_reducible apply keeps_assignRnd0
    | with_reducible apply keeps_assignSl
    | with_reducible apply keeps_dramWrite
    | with_reducible apply keeps_overloadCheck
    | with_reducible apply keeps_recMetaFlush
    | with_reducible apply keeps_recFrameStart
    | with_reducible apply keeps_captureAccepted
    | with_reducible apply keeps_fsTransfers
    | with_reducible apply Keeps.ite
    | split

/-! ## Sens -/

theorem card_sensConfigCard {lv : Nat}  : Card.Keeps lv sensConfigCard := by
  intro n b ss0 s hK
  unfold sensConfigCard
  try dsimp only
  iterate 40 try any_goals with_reducible first | assumption | apply keeps_applyConfig | split

theorem keeps_execSensConfig (n : Fin 40) (s : State) : KeepsO 0 s (execSensConfig n s) :=
  .next (keeps_mbxRun card_sensConfigCard (.refl _ _))

theorem card_sensPowerCard {lv : Nat}  : Card.Keeps lv sensPowerCard := by
  intro n b ss0 s hK
  unfold sensPowerCard
  iterate 40 try any_goals with_reducible first | assumption | apply keeps_requestPower

theorem keeps_execSensPower (n : Fin 40) (s : State) : KeepsO 0 s (execSensPower n s) :=
  .next (keeps_mbxRun card_sensPowerCard (.refl _ _))

theorem card_sensStartCard {lv : Nat}  : Card.Keeps lv sensStartCard := by
  intro n b ss0 s hK
  unfold sensStartCard
  iterate 40 try any_goals with_reducible first | assumption | apply keeps_startSensor

theorem keeps_execSensStart (n : Fin 40) (s : State) : KeepsO 0 s (execSensStart n s) :=
  .next (keeps_mbxRun card_sensStartCard (.refl _ _))

theorem keeps_stopSensor {lv : Nat} {ss0 : State} {s : State} {sn : Nat} (hK : Keeps lv ss0 s) :
    Keeps lv ss0 (stopSensor s sn) := by
  unfold stopSensor
  iterate 40 try any_goals first
    | with_reducible assumption
    | with_reducible apply keeps_cancelDeferred
    | with_reducible apply keeps_updSensor
    | with_reducible apply keeps_leaveStreaming
    | with_reducible apply Keeps.ite

theorem card_sensStopCard {lv : Nat}  : Card.Keeps lv sensStopCard := by
  intro n b ss0 s hK
  unfold sensStopCard
  iterate 40 try any_goals with_reducible first | assumption | apply keeps_stopSensor

theorem keeps_execSensStop (n : Fin 40) (s : State) : KeepsO 0 s (execSensStop n s) :=
  .next (keeps_mbxRun card_sensStopCard (.refl _ _))

theorem card_sensClearCard {lv : Nat}  : Card.Keeps lv sensClearCard := by
  intro n b ss0 s hK
  unfold sensClearCard
  iterate 40 try any_goals with_reducible first | assumption | apply keeps_clearSensor

theorem keeps_execSensClear (n : Fin 40) (s : State) : KeepsO 0 s (execSensClear n s) :=
  .next (keeps_mbxRun card_sensClearCard (.refl _ _))

theorem card_sensBusXferCard {lv : Nat}  : Card.Keeps lv sensBusXferCard := by
  intro n b ss0 s hK
  unfold sensBusXferCard
  try dsimp only
  iterate 40 try any_goals first
    | with_reducible assumption
    | with_reducible exact fun h => h
    | with_reducible exact fun _ => rfl
    | with_reducible exact fun _ => ⟨rfl, rfl⟩
    | with_reducible exact rfl
    | with_reducible apply keeps_updSensor
    | with_reducible apply keeps_enqueueBus
    | split
    | with_reducible apply Keeps.upd

theorem keeps_execSensBusXfer (n : Fin 40) (s : State) : KeepsO 0 s (execSensBusXfer n s) :=
  .next (keeps_mbxRun card_sensBusXferCard (.refl _ _))

theorem card_sensCountersCard {lv : Nat}  : Card.Keeps lv sensCountersCard := by
  intro n b ss0 s hK
  unfold sensCountersCard
  iterate 40 try any_goals with_reducible first | assumption | apply keeps_updSensor | apply Keeps.ite

theorem keeps_execSensCounters (n : Fin 40) (s : State) : KeepsO 0 s (execSensCounters n s) :=
  .next (keeps_mbxRun card_sensCountersCard (.refl _ _))

theorem card_sensMetaPollCard {lv : Nat}  : Card.Keeps lv sensMetaPollCard := by
  intro n b ss0 s hK
  unfold sensMetaPollCard
  iterate 40 try any_goals with_reducible first | assumption | apply keeps_updSensor

theorem keeps_execSensMetaPoll (n : Fin 40) (s : State) : KeepsO 0 s (execSensMetaPoll n s) :=
  .next (keeps_mbxRun card_sensMetaPollCard (.refl _ _))

theorem keeps_busNext {lv : Nat} {ss0 : State} {s : State} {b : Nat} (hK : Keeps lv ss0 s) :
    Keeps lv ss0 (busNext s b) := by
  unfold busNext
  iterate 40 try any_goals first
    | with_reducible assumption
    | with_reducible exact fun h => h
    | with_reducible exact fun _ => rfl
    | with_reducible exact fun _ => ⟨rfl, rfl⟩
    | with_reducible exact rfl
    | with_reducible apply Keeps.upd

theorem keeps_busXferEnd {lv : Nat} {ss0 : State} {s : State} {bus : Nat} {result : Nat} {written : Nat} {data : List Byte} (hK : Keeps lv ss0 s) :
    Keeps lv ss0 (busXferEnd s bus result written data) := by
  unfold busXferEnd
  iterate 40 try any_goals first
    | with_reducible assumption
    | with_reducible apply keeps_drawBytes
    | with_reducible apply keeps_busNext
    | with_reducible apply keeps_mbxOk
    | with_reducible apply keeps_xferEvent
    | split

theorem keeps_execBusXferDone (bus : Fin 6) (result : Fin 5) (written : Nat) (data : List Byte) (s : State) : KeepsO 0 s (execBusXferDone bus result written data s) := by
  unfold execBusXferDone
  iterate 40 try any_goals with_reducible first | apply KeepsO.next | exact Keeps.refl _ _ | apply keeps_busXferEnd

theorem keeps_execMetaPollTrigger (sensor : Fin 4) (fifo : Fin 2) (s : State) : KeepsO 0 s (execMetaPollTrigger sensor fifo s) := by
  unfold execMetaPollTrigger
  iterate 40 try any_goals with_reducible first | apply KeepsO.next | exact Keeps.refl _ _ | apply keeps_triggerPoll

theorem keeps_postPoll {lv : Nat} {ss0 s : State} {sn k code ts : Nat} {l : List (List Byte)} (hK : Keeps lv ss0 s) :
    Keeps lv ss0 (postPoll s sn k code ts l) := by
  induction l generalizing s with
  | nil => exact hK
  | cons c l ih => exact ih (keeps_recMetaRecord (keeps_postFifo hK))

theorem keeps_pollEnd {lv : Nat} {ss0 : State} {s : State} {bus : Nat} {result : Nat} {data : List Byte} (hK : Keeps lv ss0 s) :
    Keeps lv ss0 (pollEnd s bus result data) := by
  unfold pollEnd
  iterate 40 try any_goals first
    | with_reducible assumption
    | with_reducible apply keeps_busNext
    | with_reducible apply keeps_drawBytes
    | with_reducible apply keeps_postPoll
    | with_reducible apply Keeps.ite
    | split

theorem keeps_execMetaPollDone (bus : Fin 6) (result : Fin 5) (data : List Byte) (s : State) : KeepsO 0 s (execMetaPollDone bus result data s) := by
  unfold execMetaPollDone
  iterate 40 try any_goals with_reducible first | apply KeepsO.next | exact Keeps.refl _ _ | apply keeps_pollEnd

theorem keeps_packetOrphan {lv : Nat} {ss0 : State} {s : State} {sn : Nat} {k : Pkt} (hK : Keeps lv ss0 s) :
    Keeps lv ss0 (packetOrphan s sn k) := by
  unfold packetOrphan
  iterate 40 try any_goals with_reducible first | assumption | apply keeps_countCheck | apply Keeps.ite

theorem keeps_packetRow {lv : Nat} {ss0 : State} {want : Nat} {sn : Nat} {p : Packet} {act : State → SensConfig → Pkt → State} {s : State} (hact : ∀ z0 z1 z2, Keeps lv ss0 z0 → Keeps lv ss0 (act z0 z1 z2))
    (hK : Keeps lv ss0 s) :
    Keeps lv ss0 (packetRow want sn p act s) := by
  unfold packetRow
  try dsimp only
  iterate 40 try any_goals first
    | with_reducible assumption
    | with_reducible apply hact
    | with_reducible apply keeps_markOpen
    | with_reducible apply keeps_countCheck
    | with_reducible apply keeps_updOpen
    | with_reducible apply keeps_packetOrphan
    | with_reducible apply Keeps.ite
    | split

theorem keeps_frameStart {lv : Nat} {ss0 : State} {sn : Nat} {s : State} {c : SensConfig} {k : Pkt} (hK : Keeps lv ss0 s) :
    Keeps lv ss0 (frameStart sn s c k) := by
  unfold frameStart
  try dsimp only
  iterate 40 try any_goals first
    | with_reducible assumption
    | with_reducible exact fun h => h
    | with_reducible exact fun _ h => h
    | with_reducible exact fun _ => rfl
    | with_reducible exact fun _ => ⟨rfl, rfl⟩
    | with_reducible exact rfl
    | with_reducible exact fun _ => Mem.wf_nil
    | (intro _; with_reducible exact memPutBytes_wf _ _ _)
    | with_reducible apply keeps_packetOrphan
    | with_reducible apply keeps_cadenceBegin
    | with_reducible apply keeps_acceptFs
    | with_reducible apply keeps_crcFailure
    | with_reducible apply keeps_countCheck
    | with_reducible apply keeps_markFrame
    | with_reducible apply Keeps.id
    | (with_reducible apply Keeps.foldl; intro _ _ _)
    | (with_reducible apply Keeps.foldl_snd; intro _ _ _)
    | (with_reducible apply Keeps.foldl_fst; intro _ _ _)
    | with_reducible apply Keeps.ite
    | split
    | with_reducible apply Keeps.upd
    | with_reducible exact memPutBytes_wf _ _ _
    | with_reducible exact memPutLE_wf _ _ _ _
    | (intro h; with_reducible exact memPuts_wf h)
    | with_reducible exact memPut_wf _ _ _
    | with_reducible exact memClear_wf _ _ _
    | with_reducible exact memKeep_wf _ _
    | exact fun h => absurd h (by omega)
    | intro _ _
    | dsimp only

theorem keeps_execFrameStart (sensor : Fin 4) (p : Packet) (s : State) : KeepsO 0 s (execFrameStart sensor p s) := by
  unfold execFrameStart
  iterate 40 try any_goals first
    | with_reducible apply KeepsO.next
    | with_reducible exact Keeps.refl _ _
    | with_reducible apply keeps_packetRow
    | with_reducible apply keeps_frameStart

theorem keeps_frameEnd {lv : Nat} {ss0 : State} {sn : Nat} {s : State} {c : SensConfig} {k : Pkt} (hK : Keeps lv ss0 s) :
    Keeps lv ss0 (frameEnd sn s c k) := by
  unfold frameEnd
  iterate 40 try any_goals first
    | with_reducible assumption
    | with_reducible apply keeps_packetOrphan
    | with_reducible apply keeps_crcFailure
    | with_reducible apply keeps_closeFrame
    | with_reducible apply keeps_updIngest
    | with_reducible apply Keeps.ite
    | split

theorem keeps_execFrameEnd (sensor : Fin 4) (p : Packet) (s : State) : KeepsO 0 s (execFrameEnd sensor p s) := by
  unfold execFrameEnd
  iterate 40 try any_goals first
    | with_reducible apply KeepsO.next
    | with_reducible exact Keeps.refl _ _
    | with_reducible apply keeps_packetRow
    | with_reducible apply keeps_frameEnd

theorem keeps_ownPacket {lv : Nat} {ss0 : State} {sn : Nat} {act : State → IngestFrame → Pkt → State} {s : State} {c : SensConfig} {k : Pkt} (hact : ∀ z0 z1 z2, Keeps lv ss0 z0 → Keeps lv ss0 (act z0 z1 z2))
    (hK : Keeps lv ss0 s) :
    Keeps lv ss0 (ownPacket sn act s c k) := by
  unfold ownPacket
  iterate 40 try any_goals first
    | with_reducible assumption
    | with_reducible apply hact
    | with_reducible apply keeps_countCheck
    | with_reducible apply Keeps.ite
    | split

theorem keeps_execLinePacket (sensor : Fin 4) (p : Packet) (s : State) : KeepsO 0 s (execLinePacket sensor p s) := by
  unfold execLinePacket
  iterate 40 try any_goals first
    | with_reducible apply KeepsO.next
    | with_reducible exact Keeps.refl _ _
    | with_reducible assumption
    | with_reducible apply keeps_packetRow
    | with_reducible apply keeps_ownPacket
    | with_reducible apply keeps_lineArrives
    | intro _ _

theorem keeps_execEmbeddedPacket (sensor : Fin 4) (p : Packet) (s : State) : KeepsO 0 s (execEmbeddedPacket sensor p s) := by
  unfold execEmbeddedPacket
  iterate 40 try any_goals first
    | with_reducible apply KeepsO.next
    | with_reducible exact Keeps.refl _ _
    | with_reducible assumption
    | with_reducible apply keeps_packetRow
    | with_reducible apply keeps_ownPacket
    | with_reducible apply keeps_embeddedArrives
    | intro _ _

theorem keeps_execLineTimeout (sensor : Fin 4) (s : State) : KeepsO 0 s (execLineTimeout sensor s) := by
  unfold execLineTimeout
  iterate 40 try any_goals with_reducible first | apply KeepsO.next | exact Keeps.refl _ _ | apply keeps_closeFrame

theorem keeps_execFramePeriodTimeout (sensor : Fin 4) (s : State) : KeepsO 0 s (execFramePeriodTimeout sensor s) := by
  unfold execFramePeriodTimeout
  iterate 40 try any_goals with_reducible first | apply KeepsO.next | exact Keeps.refl _ _ | apply keeps_closeFrame

theorem keeps_linkEvent {lv : Nat} {ss0 : State} {s : State} {sn : Nat} {up : Nat} {link : Nat} {lanes : Nat} {seq : Nat} (hK : Keeps lv ss0 s) :
    Keeps lv ss0 (linkEvent s sn up link lanes seq) := by
  unfold linkEvent
  iterate 40 try any_goals with_reducible first | assumption | apply keeps_setLeaf | apply keeps_postEvent

theorem keeps_linkDown {lv : Nat} {ss0 : State} {s : State} {sn : Nat} {link : Nat} {lanes : Nat} (hK : Keeps lv ss0 s) :
    Keeps lv ss0 (linkDown s sn link lanes) := by
  unfold linkDown
  iterate 40 try any_goals first
    | with_reducible assumption
    | with_reducible apply keeps_updSensor
    | with_reducible apply keeps_countCheck
    | with_reducible apply keeps_linkEvent
    | with_reducible apply keeps_closeFrame
    | with_reducible apply Keeps.ite

theorem keeps_execLinkLockLoss (sensor : Fin 4) (link : Fin 4) (lanes : BitVec 16) (s : State) : KeepsO 0 s (execLinkLockLoss sensor link lanes s) := by
  unfold execLinkLockLoss
  iterate 40 try any_goals with_reducible first | apply KeepsO.next | exact Keeps.refl _ _ | apply keeps_linkDown

theorem keeps_linkCame {lv : Nat} {ss0 : State} {s : State} {sn : Nat} {link : Nat} (hK : Keeps lv ss0 s) :
    Keeps lv ss0 (linkCame s sn link) := by
  unfold linkCame
  iterate 40 try any_goals with_reducible first | assumption | apply keeps_linkEvent | apply keeps_updSensor

theorem keeps_execSensorLinkUp (sensor : Fin 4) (link : Fin 4) (s : State) : KeepsO 0 s (execSensorLinkUp sensor link s) := by
  unfold execSensorLinkUp
  try dsimp only
  iterate 40 try any_goals first
    | with_reducible apply KeepsO.next
    | with_reducible exact Keeps.refl _ _
    | with_reducible apply keeps_linkCame
    | split

theorem keeps_releaseSlot {lv : Nat} {ss0 : State} {s : State} {sn : Nat} {f : IngestFrame} (hK : Keeps lv ss0 s) :
    Keeps lv ss0 (releaseSlot s sn f) := by
  unfold releaseSlot
  iterate 40 try any_goals first
    | with_reducible assumption
    | with_reducible apply keeps_updSensor
    | with_reducible apply keeps_sweep
    | with_reducible apply keeps_flushItems
    | with_reducible apply keeps_updIngest

theorem keeps_execSlotRelease (sensor : Fin 4) (slot : Fin 8) (s : State) : KeepsO 0 s (execSlotRelease sensor slot s) := by
  unfold execSlotRelease
  iterate 40 try any_goals first
    | with_reducible apply KeepsO.next
    | with_reducible exact Keeps.refl _ _
    | with_reducible apply keeps_releaseSlot
    | split

/-! ## Sched -/

theorem card_schedSensorCard {lv : Nat}  : Card.Keeps lv schedSensorCard := by
  intro n b ss0 s hK
  unfold schedSensorCard
  iterate 40 try any_goals with_reducible first | assumption | apply keeps_updSensor

theorem keeps_execSchedSensor (n : Fin 40) (s : State) : KeepsO 0 s (execSchedSensor n s) :=
  .next (keeps_mbxRun card_schedSensorCard (.refl _ _))

theorem keeps_commitSensor {lv : Nat} {ss0 : State} {s : State} {sn : Nat} (hK : Keeps lv ss0 s) :
    Keeps lv ss0 (commitSensor s sn) := by
  unfold commitSensor
  try dsimp only
  iterate 40 try any_goals first
    | with_reducible assumption
    | with_reducible exact fun h => h
    | with_reducible exact fun _ h => h
    | with_reducible exact fun _ => rfl
    | with_reducible exact fun _ => ⟨rfl, rfl⟩
    | with_reducible exact rfl
    | with_reducible exact fun _ => Mem.wf_nil
    | (intro _; with_reducible exact memPutBytes_wf _ _ _)
    | with_reducible apply keeps_updSensor
    | with_reducible apply keeps_resolveBanks
    | with_reducible apply keeps_sweep
    | with_reducible apply Keeps.id
    | (with_reducible apply Keeps.foldl; intro _ _ _)
    | (with_reducible apply Keeps.foldl_snd; intro _ _ _)
    | (with_reducible apply Keeps.foldl_fst; intro _ _ _)
    | with_reducible apply Keeps.ite
    | split
    | with_reducible apply Keeps.upd
    | with_reducible exact memPutBytes_wf _ _ _
    | with_reducible exact memPutLE_wf _ _ _ _
    | (intro h; with_reducible exact memPuts_wf h)
    | with_reducible exact memPut_wf _ _ _
    | with_reducible exact memClear_wf _ _ _
    | with_reducible exact memKeep_wf _ _
    | exact fun h => absurd h (by omega)
    | intro _ _
    | dsimp only

theorem card_schedCommitCard {lv : Nat}  : Card.Keeps lv schedCommitCard := by
  intro n b ss0 s hK
  unfold schedCommitCard
  iterate 40 try any_goals with_reducible first | assumption | apply keeps_commitSensor

theorem keeps_execSchedCommit (n : Fin 40) (s : State) : KeepsO 0 s (execSchedCommit n s) :=
  .next (keeps_mbxRun card_schedCommitCard (.refl _ _))

theorem card_schedStatusCard {lv : Nat}  : Card.Keeps lv schedStatusCard := by
  intro n b ss0 s hK
  unfold schedStatusCard
  iterate 40 try any_goals first
    | with_reducible assumption
    | with_reducible exact fun h => h
    | with_reducible exact fun _ => rfl
    | with_reducible exact fun _ => ⟨rfl, rfl⟩
    | with_reducible exact rfl
    | with_reducible apply Keeps.ite
    | with_reducible apply Keeps.upd

theorem keeps_execSchedStatus (n : Fin 40) (s : State) : KeepsO 0 s (execSchedStatus n s) :=
  .next (keeps_mbxRun card_schedStatusCard (.refl _ _))

theorem keeps_execBandIssue (engine : Fin 8) (s : State) : KeepsO 0 s (execBandIssue engine s) := by
  unfold execBandIssue
  iterate 40 try any_goals first
    | with_reducible apply KeepsO.next
    | with_reducible exact Keeps.refl _ _
    | with_reducible apply keeps_issueBand
    | split

theorem keeps_execBandComplete (engine : Fin 9) (misses : Nat) (stall : Nat) (s : State) : KeepsO 0 s (execBandComplete engine misses stall s) := by
  unfold execBandComplete
  iterate 40 try any_goals with_reducible first | apply KeepsO.next | exact Keeps.refl _ _ | apply keeps_bandEnd

theorem keeps_execDeadlineDrop (sensor : Fin 4) (s : State) : KeepsO 0 s (execDeadlineDrop sensor s) := by
  unfold execDeadlineDrop
  iterate 40 try any_goals first
    | with_reducible apply KeepsO.next
    | with_reducible exact Keeps.refl _ _
    | with_reducible apply keeps_overloadCheck
    | with_reducible apply keeps_schedDrop
    | split

theorem keeps_rerunEvent {lv : Nat} {ss0 : State} {s : State} {p : Nat} {b : Band} {cause : Nat} {taker : Nat} (hK : Keeps lv ss0 s) :
    Keeps lv ss0 (rerunEvent s p b cause taker) := by
  unfold rerunEvent
  iterate 40 try any_goals with_reducible first | assumption | apply keeps_notify

theorem keeps_returnBand {lv : Nat} {ss0 : State} {s : State} {b : Band} (hK : Keeps lv ss0 s) :
    Keeps lv ss0 ((returnBand s b).2) := by
  unfold returnBand
  iterate 40 try any_goals first
    | with_reducible assumption
    | with_reducible exact fun h => h
    | with_reducible exact fun _ => rfl
    | with_reducible exact fun _ => ⟨rfl, rfl⟩
    | with_reducible exact rfl
    | with_reducible apply keeps_dropOutputs
    | split
    | with_reducible apply Keeps.upd

theorem keeps_engineFailFor {lv : Nat} {ss0 : State} {mid : State → State} {s : State} {p : Nat} {cause : Nat} (hmid : ∀ z0, Keeps lv ss0 z0 → Keeps lv ss0 (mid z0))
    (hK : Keeps lv ss0 s) :
    Keeps lv ss0 (engineFailFor mid s p cause) := by
  unfold engineFailFor
  iterate 40 try any_goals first
    | with_reducible assumption
    | with_reducible apply hmid
    | with_reducible exact fun h => h
    | with_reducible exact fun _ => rfl
    | with_reducible exact fun _ => ⟨rfl, rfl⟩
    | with_reducible exact rfl
    | with_reducible apply keeps_settleCredit
    | with_reducible apply keeps_returnBand
    | with_reducible apply keeps_spareRecord
    | with_reducible apply keeps_countSubst
    | with_reducible apply keeps_setLeaf
    | with_reducible apply keeps_rerunEvent
    | with_reducible apply keeps_issueBand
    | with_reducible apply keeps_overloadCheck
    | with_reducible apply Keeps.ite
    | split
    | with_reducible apply Keeps.upd

theorem keeps_engineFail {lv : Nat} {ss0 : State} {s : State} {p : Nat} {cause : Nat} (hK : Keeps lv ss0 s) :
    Keeps lv ss0 (engineFail s p cause) := by
  unfold engineFail
  iterate 40 try any_goals with_reducible first | assumption | apply keeps_engineFailFor | apply Keeps.id

theorem keeps_execEngineFault (engine : Fin 9) (flash : Bool) (s : State) : KeepsO 0 s (execEngineFault engine flash s) := by
  unfold execEngineFault
  iterate 40 try any_goals first
    | with_reducible apply KeepsO.next
    | with_reducible exact Keeps.refl _ _
    | with_reducible exact fun h => h
    | with_reducible exact fun _ => rfl
    | with_reducible exact fun _ => ⟨rfl, rfl⟩
    | with_reducible exact rfl
    | with_reducible apply keeps_engineFail
    | with_reducible apply Keeps.upd

theorem keeps_execEngineNoProgress (engine : Fin 9) (flash : Bool) (s : State) : KeepsO 0 s (execEngineNoProgress engine flash s) := by
  unfold execEngineNoProgress
  iterate 40 try any_goals first
    | with_reducible apply KeepsO.next
    | with_reducible exact Keeps.refl _ _
    | with_reducible exact fun h => h
    | with_reducible exact fun _ => rfl
    | with_reducible exact fun _ => ⟨rfl, rfl⟩
    | with_reducible exact rfl
    | with_reducible apply keeps_engineFail
    | split
    | with_reducible apply Keeps.upd

/-! ## FrontEnd -/

theorem keeps_updShadow {lv : Nat} {ss0 : State} {s : State} {sn : Nat} {f : Params → Params} (hK : Keeps lv ss0 s) :
    Keeps lv ss0 (updShadow s sn f) := by
  unfold updShadow
  iterate 40 try any_goals with_reducible first | assumption | apply keeps_updSensor

theorem keeps_makeCopy {lv : Nat} {ss0 : State} {s : State} {size : Nat} {vals : List Nat} (hK : Keeps lv ss0 s) :
    Keeps lv ss0 ((makeCopy s size vals).2) := by
  unfold makeCopy
  iterate 40 try any_goals with_reducible first | assumption | apply keeps_alloc

theorem card_feLinLoadCard {lv : Nat}  : Card.Keeps lv feLinLoadCard := by
  intro n b ss0 s hK
  unfold feLinLoadCard
  iterate 40 try any_goals first
    | with_reducible assumption
    | with_reducible apply keeps_makeCopy
    | with_reducible apply keeps_sweep
    | with_reducible apply keeps_updShadow

theorem keeps_execFeLinLoad (n : Fin 40) (s : State) : KeepsO 0 s (execFeLinLoad n s) :=
  .next (keeps_mbxRun card_feLinLoadCard (.refl _ _))

theorem card_feMergeCard {lv : Nat}  : Card.Keeps lv feMergeCard := by
  intro n b ss0 s hK
  unfold feMergeCard
  iterate 40 try any_goals with_reducible first | assumption | apply keeps_updShadow

theorem keeps_execFeMerge (n : Fin 40) (s : State) : KeepsO 0 s (execFeMerge n s) :=
  .next (keeps_mbxRun card_feMergeCard (.refl _ _))

theorem card_feBlackCard {lv : Nat}  : Card.Keeps lv feBlackCard := by
  intro n b ss0 s hK
  unfold feBlackCard
  iterate 40 try any_goals first
    | with_reducible assumption
    | with_reducible apply keeps_makeCopy
    | with_reducible apply keeps_sweep
    | with_reducible apply keeps_columnRegion
    | with_reducible apply keeps_updSensor
    | with_reducible apply keeps_updShadow
    | split

theorem keeps_execFeBlack (n : Fin 40) (s : State) : KeepsO 0 s (execFeBlack n s) :=
  .next (keeps_mbxRun card_feBlackCard (.refl _ _))

theorem keeps_putEntry {lv : Nat} {ss0 : State} {s : State} {m : PhotoMap} {x : Nat} {y : Nat} {e : Nat} (hK : Keeps lv ss0 s) :
    Keeps lv ss0 (putEntry s m x y e) := by
  unfold putEntry
  iterate 40 try any_goals with_reducible first | assumption | apply keeps_dramWrite

theorem card_feMapAllocCard {lv : Nat}  : Card.Keeps lv feMapAllocCard := by
  intro n b ss0 s hK
  unfold feMapAllocCard
  iterate 40 try any_goals first
    | with_reducible assumption
    | with_reducible exact fun h => h
    | with_reducible exact fun _ => rfl
    | with_reducible exact fun _ => ⟨rfl, rfl⟩
    | with_reducible exact rfl
    | with_reducible apply keeps_alloc
    | with_reducible apply keeps_dramWrite
    | (with_reducible apply Keeps.foldl; intro _ _ _)
    | with_reducible apply Keeps.upd

theorem keeps_execFeMapAlloc (n : Fin 40) (s : State) : KeepsO 0 s (execFeMapAlloc n s) :=
  .next (keeps_mbxRun card_feMapAllocCard (.refl _ _))

theorem card_feMapFreeCard {lv : Nat}  : Card.Keeps lv feMapFreeCard := by
  intro n b ss0 s hK
  unfold feMapFreeCard
  iterate 40 try any_goals first
    | with_reducible assumption
    | with_reducible exact fun h => h
    | with_reducible exact fun _ => rfl
    | with_reducible exact fun _ => ⟨rfl, rfl⟩
    | with_reducible exact rfl
    | with_reducible apply keeps_release
    | with_reducible apply Keeps.upd

theorem keeps_execFeMapFree (n : Fin 40) (s : State) : KeepsO 0 s (execFeMapFree n s) :=
  .next (keeps_mbxRun card_feMapFreeCard (.refl _ _))

theorem card_feMapSelectCard {lv : Nat}  : Card.Keeps lv feMapSelectCard := by
  intro n b ss0 s hK
  unfold feMapSelectCard
  iterate 40 try any_goals with_reducible first | assumption | apply keeps_updShadow

theorem keeps_execFeMapSelect (n : Fin 40) (s : State) : KeepsO 0 s (execFeMapSelect n s) :=
  .next (keeps_mbxRun card_feMapSelectCard (.refl _ _))

theorem card_feDefectCard {lv : Nat}  : Card.Keeps lv feDefectCard := by
  intro n b ss0 s hK
  unfold feDefectCard
  iterate 40 try any_goals with_reducible first | assumption | apply keeps_updShadow

theorem keeps_execFeDefect (n : Fin 40) (s : State) : KeepsO 0 s (execFeDefect n s) :=
  .next (keeps_mbxRun card_feDefectCard (.refl _ _))

theorem card_feStatsConfigCard {lv : Nat}  : Card.Keeps lv feStatsConfigCard := by
  intro n b ss0 s hK
  unfold feStatsConfigCard
  iterate 40 try any_goals with_reducible first | assumption | apply keeps_realloc | apply keeps_updSensor

theorem keeps_execFeStatsConfig (n : Fin 40) (s : State) : KeepsO 0 s (execFeStatsConfig n s) :=
  .next (keeps_mbxRun card_feStatsConfigCard (.refl _ _))

theorem card_feCalCaptureCard {lv : Nat}  : Card.Keeps lv feCalCaptureCard := by
  intro n b ss0 s hK
  unfold feCalCaptureCard
  iterate 40 try any_goals with_reducible first | assumption | apply keeps_alloc | apply keeps_updSensor

theorem keeps_execFeCalCapture (n : Fin 40) (s : State) : KeepsO 0 s (execFeCalCapture n s) :=
  .next (keeps_mbxRun card_feCalCaptureCard (.refl _ _))

theorem card_feCalAbortCard {lv : Nat}  : Card.Keeps lv feCalAbortCard := by
  intro n b ss0 s hK
  unfold feCalAbortCard
  iterate 40 try any_goals with_reducible first | assumption | apply keeps_captureEnd

theorem keeps_execFeCalAbort (n : Fin 40) (s : State) : KeepsO 0 s (execFeCalAbort n s) :=
  .next (keeps_mbxRun card_feCalAbortCard (.refl _ _))

theorem keeps_finalPass {lv : Nat} {ss0 s : State} {sn : Nat} {c : Capture} {m : PhotoMap} (hK : Keeps lv ss0 s) :
    Keeps lv ss0 (finalPass s sn c m).1 := by
  refine Keeps.foldl_fst (fun acc i h => ?_) hK
  dsimp only
  generalize (if c.kind = 0 then _ else _ : Nat × Bool × Bool) = v
  split
  · exact h
  · exact keeps_putEntry h

theorem keeps_execCalFinalPassDone (sensor : Fin 4) (s : State) : KeepsO 0 s (execCalFinalPassDone sensor s) := by
  unfold execCalFinalPassDone
  iterate 40 try any_goals first
    | with_reducible apply KeepsO.next
    | with_reducible exact Keeps.refl _ _
    | with_reducible apply keeps_finalPass
    | with_reducible apply keeps_captureEnd
    | split

end Sys2Proof.Machine
end

