-- ==== Sys2Proof/Laws/KeepsColour.lean ====
section
/-! SUPPORT. What the operations of development and renditions keep. -/

namespace Sys2Proof.Machine

/-! ## Dev -/

theorem card_devCfaCard {lv : Nat}  : Card.Keeps lv devCfaCard := by
  intro n b ss0 s hK
  unfold devCfaCard
  iterate 40 try any_goals with_reducible first | assumption | apply keeps_updShadow

theorem keeps_execDevCfa (n : Fin 40) (s : State) : KeepsO 0 s (execDevCfa n s) :=
  .next (keeps_mbxRun card_devCfaCard (.refl _ _))

theorem card_devDemosaicCard {lv : Nat}  : Card.Keeps lv devDemosaicCard := by
  intro n b ss0 s hK
  unfold devDemosaicCard
  iterate 40 try any_goals with_reducible first | assumption | apply keeps_updShadow

theorem keeps_execDevDemosaic (n : Fin 40) (s : State) : KeepsO 0 s (execDevDemosaic n s) :=
  .next (keeps_mbxRun card_devDemosaicCard (.refl _ _))

theorem keeps_setSl {lv : Nat} {ss0 : State} {s : State} {sn : Nat} {l : Option SlCfg} (hK : Keeps lv ss0 s) :
    Keeps lv ss0 (setSl s sn l) := by
  unfold setSl
  iterate 40 try any_goals with_reducible first | assumption | apply keeps_updSensor

theorem card_devSlFrameCard {lv : Nat}  : Card.Keeps lv devSlFrameCard := by
  intro n b ss0 s hK
  unfold devSlFrameCard
  try dsimp only
  iterate 40 try any_goals with_reducible first | assumption | apply keeps_setSl | apply keeps_realloc | split

theorem keeps_execDevSlFrame (n : Fin 40) (s : State) : KeepsO 0 s (execDevSlFrame n s) :=
  .next (keeps_mbxRun card_devSlFrameCard (.refl _ _))

/-! ## Colour -/

theorem keeps_colUpd {lv : Nat} {ss0 : State} {b : Body} {s : State} {f : Colour → Colour} (hK : Keeps lv ss0 s) :
    Keeps lv ss0 (colUpd b s f) := by
  unfold colUpd
  iterate 40 try any_goals with_reducible first | assumption | apply keeps_sweep | apply keeps_updShadow | split

theorem card_colTransformCard {lv : Nat}  : Card.Keeps lv colTransformCard := by
  intro n b ss0 s hK
  unfold colTransformCard
  iterate 40 try any_goals with_reducible first | assumption | apply keeps_colUpd

theorem keeps_execColTransform (n : Fin 40) (s : State) : KeepsO 0 s (execColTransform n s) :=
  .next (keeps_mbxRun card_colTransformCard (.refl _ _))

theorem card_colGainsCard {lv : Nat}  : Card.Keeps lv colGainsCard := by
  intro n b ss0 s hK
  unfold colGainsCard
  iterate 40 try any_goals with_reducible first | assumption | apply keeps_colUpd

theorem keeps_execColGains (n : Fin 40) (s : State) : KeepsO 0 s (execColGains n s) :=
  .next (keeps_mbxRun card_colGainsCard (.refl _ _))

theorem keeps_hostCopy {lv : Nat} {ss0 : State} {s : State} {given : Bool} {size : Nat} {vals : List Nat} (hK : Keeps lv ss0 s) :
    Keeps lv ss0 ((hostCopy s given size vals).2) := by
  unfold hostCopy
  iterate 40 try any_goals with_reducible first | assumption | apply keeps_makeCopy | split

theorem card_colShaperLoadCard {lv : Nat}  : Card.Keeps lv colShaperLoadCard := by
  intro n b ss0 s hK
  unfold colShaperLoadCard
  iterate 40 try any_goals with_reducible first | assumption | apply keeps_hostCopy | apply keeps_colUpd

theorem keeps_execColShaperLoad (n : Fin 40) (s : State) : KeepsO 0 s (execColShaperLoad n s) :=
  .next (keeps_mbxRun card_colShaperLoadCard (.refl _ _))

theorem card_lutLoadCard {lv : Nat}  : Card.Keeps lv lutLoadCard := by
  intro n b ss0 s hK
  unfold lutLoadCard
  iterate 40 try any_goals with_reducible first | assumption | apply keeps_hostCopy | apply keeps_colUpd

theorem keeps_execLutLoad (n : Fin 40) (s : State) : KeepsO 0 s (execLutLoad n s) :=
  .next (keeps_mbxRun card_lutLoadCard (.refl _ _))

theorem card_colContrastCard {lv : Nat}  : Card.Keeps lv colContrastCard := by
  intro n b ss0 s hK
  unfold colContrastCard
  iterate 40 try any_goals with_reducible first | assumption | apply keeps_hostCopy | apply keeps_colUpd

theorem keeps_execColContrast (n : Fin 40) (s : State) : KeepsO 0 s (execColContrast n s) :=
  .next (keeps_mbxRun card_colContrastCard (.refl _ _))

theorem card_colOutputCard {lv : Nat}  : Card.Keeps lv colOutputCard := by
  intro n b ss0 s hK
  unfold colOutputCard
  iterate 40 try any_goals with_reducible first | assumption | apply keeps_hostCopy | apply keeps_colUpd

theorem keeps_execColOutput (n : Fin 40) (s : State) : KeepsO 0 s (execColOutput n s) :=
  .next (keeps_mbxRun card_colOutputCard (.refl _ _))

theorem card_colStatusCard {lv : Nat}  : Card.Keeps lv colStatusCard := by
  intro n b ss0 s hK
  unfold colStatusCard
  try dsimp only
  iterate 40 try any_goals first
    | with_reducible assumption
    | with_reducible exact fun h => h
    | with_reducible exact fun _ h => h
    | with_reducible exact fun _ => rfl
    | with_reducible exact fun _ => ⟨rfl, rfl⟩
    | with_reducible exact rfl
    | with_reducible exact fun _ => Mem.wf_nil
    | (intro _; with_reducible exact memPutBytes_wf _ _ _)
    | with_reducible apply keeps_updSensor
    | with_reducible apply keeps_updRnd
    | with_reducible apply Keeps.id
    | (with_reducible apply Keeps.foldl; intro _ _ _)
    | (with_reducible apply Keeps.foldl_snd; intro _ _ _)
    | (with_reducible apply Keeps.foldl_fst; intro _ _ _)
    | with_reducible apply Keeps.ite
    | split
    | with_reducible apply Keeps.upd
    | with_reducible exact memPutBytes_wf _ _ _
    | with_reducible exact memPutLE_wf _ _ _ _
    | (intro h; with_reducible exact memPuts_wf h)
    | with_reducible exact memPut_wf _ _ _
    | with_reducible exact memClear_wf _ _ _
    | with_reducible exact memKeep_wf _ _
    | exact fun h => absurd h (by omega)
    | intro _ _
    | dsimp only

theorem keeps_execColStatus (n : Fin 40) (s : State) : KeepsO 0 s (execColStatus n s) :=
  .next (keeps_mbxRun card_colStatusCard (.refl _ _))

theorem keeps_execBankWrite (inst : Fin 6) (bank : Fin 2) (s : State) : KeepsO 0 s (execBankWrite inst bank s) := by
  unfold execBankWrite
  try dsimp only
  iterate 40 try any_goals first
    | with_reducible apply KeepsO.next
    | with_reducible exact Keeps.refl _ _
    | with_reducible apply keeps_updSensor
    | with_reducible apply keeps_setBank
    | split

/-! ## RndOps -/

theorem keeps_resetRnd {lv : Nat} {ss0 : State} {s : State} {sn : Nat} {r : Nat} (hK : Keeps lv ss0 s) :
    Keeps lv ss0 (resetRnd s sn r) := by
  unfold resetRnd
  iterate 40 try any_goals with_reducible first | assumption | apply keeps_updSensor | apply keeps_resolveBank

theorem keeps_bindRnd {lv : Nat} {ss0 : State} {s : State} {r : Nat} {sensor : Option Nat} {x : Rendition} (hK : Keeps lv ss0 s) :
    Keeps lv ss0 (bindRnd s r sensor x) := by
  unfold bindRnd
  iterate 40 try any_goals first
    | with_reducible assumption
    | with_reducible apply keeps_retire
    | with_reducible apply keeps_updRnd
    | with_reducible apply keeps_realloc
    | with_reducible apply keeps_resetRnd
    | split

theorem keeps_passOver {lv : Nat} {ss0 : State} {s : State} {r : Nat} {sn : Nat} {l : List SlBuf} (hK : Keeps lv ss0 s) :
    Keeps lv ss0 (passOver s r sn l) := by
  unfold passOver
  iterate 40 try any_goals first
    | with_reducible assumption
    | with_reducible apply keeps_skipMarker
    | with_reducible apply keeps_rndSkip
    | (with_reducible apply Keeps.foldl; intro _ _ _)

theorem keeps_refuse {lv : Nat} {ss0 : State} {s : State} {r : Nat} {sn : Nat} {b : SlBuf} {reason : Nat} {post : Bool} (hK : Keeps lv ss0 s) :
    Keeps lv ss0 (refuse s r sn b reason post) := by
  unfold refuse
  iterate 40 try any_goals with_reducible first | assumption | apply keeps_skipMarker | apply keeps_rndSkip

theorem keeps_proxyPlaced {lv : Nat} {ss0 : State} {s : State} {r : Nat} {x : Rendition} {b : SlBuf} {p : Placement} {n : Nat} (hK : Keeps lv ss0 s) :
    Keeps lv ss0 (proxyPlaced s r x b p n) := by
  unfold proxyPlaced
  iterate 40 try any_goals with_reducible first | assumption | apply keeps_updFrame | split

theorem keeps_takeFrame {lv : Nat} {ss0 : State} {s : State} {r : Nat} {sn : Nat} {b : SlBuf} {l : SlCfg} {c : SensConfig} {p : Placement} (hK : Keeps lv ss0 s) :
    Keeps lv ss0 (takeFrame s r sn b l c p) := by
  unfold takeFrame
  iterate 40 try any_goals first
    | with_reducible assumption
    | with_reducible exact fun h => h
    | with_reducible exact fun _ => rfl
    | with_reducible exact fun _ => ⟨rfl, rfl⟩
    | with_reducible exact rfl
    | with_reducible apply keeps_updRnd
    | with_reducible apply keeps_refuse
    | with_reducible apply keeps_beginBuffer
    | with_reducible apply keeps_proxyPlaced
    | with_reducible apply Keeps.ite
    | split
    | with_reducible apply Keeps.upd

theorem keeps_renditionTake {lv : Nat} {ss0 : State} {s : State} {r : Nat} (hK : Keeps lv ss0 s) :
    Keeps lv ss0 (renditionTake s r) := by
  unfold renditionTake
  iterate 40 try any_goals first
    | with_reducible assumption
    | with_reducible apply keeps_passOver
    | with_reducible apply keeps_updRnd
    | with_reducible apply keeps_takeFrame
    | with_reducible apply Keeps.ite
    | split

theorem keeps_renderDone {lv : Nat} {ss0 : State} {s : State} {r : Nat} {t : Taken} {p : Placement} (hK : Keeps lv ss0 s) :
    Keeps lv ss0 (renderDone s r t p) := by
  unfold renderDone
  try dsimp only
  iterate 40 try any_goals first
    | with_reducible assumption
    | with_reducible exact fun h => h
    | with_reducible exact fun _ h => h
    | with_reducible exact fun _ => rfl
    | with_reducible exact fun _ => ⟨rfl, rfl⟩
    | with_reducible exact rfl
    | with_reducible exact fun _ => Mem.wf_nil
    | (intro _; with_reducible exact memPutBytes_wf _ _ _)
    | with_reducible apply keeps_endBuffer
    | with_reducible apply keeps_updRnd
    | with_reducible apply keeps_notify
    | with_reducible apply keeps_sweep
    | with_reducible apply keeps_poisonHandled
    | with_reducible apply Keeps.id
    | (with_reducible apply Keeps.foldl; intro _ _ _)
    | (with_reducible apply Keeps.foldl_snd; intro _ _ _)
    | (with_reducible apply Keeps.foldl_fst; intro _ _ _)
    | with_reducible apply Keeps.ite
    | split
    | with_reducible apply Keeps.upd
    | with_reducible exact memPutBytes_wf _ _ _
    | with_reducible exact memPutLE_wf _ _ _ _
    | (intro h; with_reducible exact memPuts_wf h)
    | with_reducible exact memPut_wf _ _ _
    | with_reducible exact memClear_wf _ _ _
    | with_reducible exact memKeep_wf _ _
    | exact fun h => absurd h (by omega)
    | intro _ _
    | dsimp only

theorem keeps_renditionFrameDone {lv : Nat} {ss0 : State} {s : State} {r : Nat} (hK : Keeps lv ss0 s) :
    Keeps lv ss0 (renditionFrameDone s r) := by
  unfold renditionFrameDone
  iterate 40 try any_goals with_reducible first | assumption | apply keeps_renderDone | apply Keeps.ite | split

/-! ## Rnd -/

theorem keeps_setRnd0 {lv : Nat} {ss0 : State} {s : State} {sn : Nat} {l : Option Rnd0Cfg} (hK : Keeps lv ss0 s) :
    Keeps lv ss0 (setRnd0 s sn l) := by
  unfold setRnd0
  iterate 40 try any_goals with_reducible first | assumption | apply keeps_updSensor

theorem card_rnd0OutputCard {lv : Nat}  : Card.Keeps lv rnd0OutputCard := by
  intro n b ss0 s hK
  unfold rnd0OutputCard
  try dsimp only
  iterate 40 try any_goals first
    | with_reducible assumption
    | with_reducible exact fun h => h
    | with_reducible exact fun _ h => h
    | with_reducible exact fun _ => rfl
    | with_reducible exact fun _ => ⟨rfl, rfl⟩
    | with_reducible exact rfl
    | with_reducible exact fun _ => Mem.wf_nil
    | (intro _; with_reducible exact memPutBytes_wf _ _ _)
    | with_reducible apply keeps_setRnd0
    | with_reducible apply keeps_realloc
    | with_reducible apply Keeps.id
    | (with_reducible apply Keeps.foldl; intro _ _ _)
    | (with_reducible apply Keeps.foldl_snd; intro _ _ _)
    | (with_reducible apply Keeps.foldl_fst; intro _ _ _)
    | with_reducible apply Keeps.ite
    | split
    | with_reducible apply Keeps.upd
    | with_reducible exact memPutBytes_wf _ _ _
    | with_reducible exact memPutLE_wf _ _ _ _
    | (intro h; with_reducible exact memPuts_wf h)
    | with_reducible exact memPut_wf _ _ _
    | with_reducible exact memClear_wf _ _ _
    | with_reducible exact memKeep_wf _ _
    | exact fun h => absurd h (by omega)
    | intro _ _
    | dsimp only

theorem keeps_execRnd0Output (n : Fin 40) (s : State) : KeepsO 0 s (execRnd0Output n s) :=
  .next (keeps_mbxRun card_rnd0OutputCard (.refl _ _))

theorem card_rndBindCard {lv : Nat}  : Card.Keeps lv rndBindCard := by
  intro n b ss0 s hK
  unfold rndBindCard
  try dsimp only
  iterate 40 try any_goals with_reducible first | assumption | apply keeps_bindRnd | split

theorem keeps_execRndBind (n : Fin 40) (s : State) : KeepsO 0 s (execRndBind n s) :=
  .next (keeps_mbxRun card_rndBindCard (.refl _ _))

theorem keeps_setPlace {lv : Nat} {ss0 : State} {s : State} {r : Nat} {p : Option Placement} (hK : Keeps lv ss0 s) :
    Keeps lv ss0 (setPlace s r p) := by
  unfold setPlace
  iterate 40 try any_goals with_reducible first | assumption | apply keeps_updShadow | split

theorem card_rndGeometryCard {lv : Nat}  : Card.Keeps lv rndGeometryCard := by
  intro n b ss0 s hK
  unfold rndGeometryCard
  iterate 40 try any_goals first
    | with_reducible assumption
    | with_reducible apply keeps_setPlace
    | with_reducible apply keeps_makeCopy
    | with_reducible apply keeps_sweep
    | split

theorem keeps_execRndGeometry (n : Fin 40) (s : State) : KeepsO 0 s (execRndGeometry n s) :=
  .next (keeps_mbxRun card_rndGeometryCard (.refl _ _))

theorem card_rndStatusCard {lv : Nat}  : Card.Keeps lv rndStatusCard := by
  intro n b ss0 s hK
  unfold rndStatusCard
  iterate 40 try any_goals first
    | with_reducible assumption
    | with_reducible exact fun h => h
    | with_reducible exact fun _ => rfl
    | with_reducible exact fun _ => ⟨rfl, rfl⟩
    | with_reducible exact rfl
    | with_reducible apply Keeps.ite
    | with_reducible apply Keeps.upd

theorem keeps_execRndStatus (n : Fin 40) (s : State) : KeepsO 0 s (execRndStatus n s) :=
  .next (keeps_mbxRun card_rndStatusCard (.refl _ _))

theorem keeps_setTap {lv : Nat} {ss0 : State} {s : State} {sn : Nat} {point : Nat} {t : Option Tap} (hK : Keeps lv ss0 s) :
    Keeps lv ss0 (setTap s sn point t) := by
  unfold setTap
  iterate 40 try any_goals with_reducible first | assumption | apply keeps_updSensor

theorem card_tapConfigCard {lv : Nat}  : Card.Keeps lv tapConfigCard := by
  intro n b ss0 s hK
  unfold tapConfigCard
  try dsimp only
  iterate 40 try any_goals with_reducible first | assumption | apply keeps_setTap | apply keeps_realloc | split

theorem keeps_execTapConfig (n : Fin 40) (s : State) : KeepsO 0 s (execTapConfig n s) :=
  .next (keeps_mbxRun card_tapConfigCard (.refl _ _))

theorem keeps_execRenditionTake (r : Fin 6) (s : State) : KeepsO 0 s (execRenditionTake r s) := by
  unfold execRenditionTake
  iterate 40 try any_goals first
    | with_reducible apply KeepsO.next
    | with_reducible exact Keeps.refl _ _
    | with_reducible apply keeps_renditionTake
    | with_reducible apply Keeps.ite

theorem keeps_execRenditionFrameDone (r : Fin 6) (s : State) : KeepsO 0 s (execRenditionFrameDone r s) := by
  unfold execRenditionFrameDone
  iterate 40 try any_goals first
    | with_reducible apply KeepsO.next
    | with_reducible exact Keeps.refl _ _
    | with_reducible apply keeps_renditionFrameDone

end Sys2Proof.Machine
end

