-- ==== Sys2Proof/Laws/KeepsLinks.lean ====
section
/-! SUPPORT. What the operations of lanes, flows and the ring keep. -/

namespace Sys2Proof.Machine

/-! ## LaneRows -/

theorem keeps_withFlash {lv : Nat} {ss0 : State} {s : State} {ok : Bool} (hK : Keeps lv ss0 s) :
    Keeps lv ss0 (withFlash s ok) := by
  unfold withFlash
  iterate 40 try any_goals first
    | with_reducible assumption
    | with_reducible exact fun h => h
    | with_reducible exact fun _ => rfl
    | with_reducible exact fun _ => ⟨rfl, rfl⟩
    | with_reducible exact rfl
    | with_reducible apply Keeps.upd

theorem keeps_configLane {lv : Nat} {ss0 : State} {b : Body} {s : State} {i : Nat} (hK : Keeps lv ss0 s) :
    Keeps lv ss0 (configLane b s i) := by
  unfold configLane
  try dsimp only
  iterate 40 try any_goals first
    | with_reducible assumption
    | with_reducible exact fun h => h
    | with_reducible exact fun _ h => h
    | with_reducible exact fun _ => rfl
    | with_reducible exact fun _ => ⟨rfl, rfl⟩
    | with_reducible exact rfl
    | with_reducible exact fun _ => Mem.wf_nil
    | (intro _; with_reducible exact memPutBytes_wf _ _ _)
    | with_reducible apply keeps_updSerial
    | with_reducible apply keeps_setLane
    | with_reducible apply Keeps.id
    | (with_reducible apply Keeps.foldl; intro _ _ _)
    | (with_reducible apply Keeps.foldl_snd; intro _ _ _)
    | (with_reducible apply Keeps.foldl_fst; intro _ _ _)
    | with_reducible apply Keeps.ite
    | split
    | with_reducible apply Keeps.upd
    | with_reducible exact memPutBytes_wf _ _ _
    | with_reducible exact memPutLE_wf _ _ _ _
    | (intro h; with_reducible exact memPuts_wf h)
    | with_reducible exact memPut_wf _ _ _
    | with_reducible exact memClear_wf _ _ _
    | with_reducible exact memKeep_wf _ _
    | exact fun h => absurd h (by omega)
    | intro _ _
    | dsimp only

theorem card_laneConfigCard {lv : Nat} {khzA : Nat} {khzB : Nat} : Card.Keeps lv (laneConfigCard khzA khzB) := by
  intro n b ss0 s hK
  unfold laneConfigCard
  try dsimp only
  iterate 40 try any_goals first
    | with_reducible assumption
    | with_reducible exact fun h => h
    | with_reducible exact fun _ h => h
    | with_reducible exact fun _ => rfl
    | with_reducible exact fun _ => ⟨rfl, rfl⟩
    | with_reducible exact rfl
    | with_reducible exact fun _ => Mem.wf_nil
    | (intro _; with_reducible exact memPutBytes_wf _ _ _)
    | with_reducible apply keeps_configLane
    | with_reducible apply keeps_epTrain
    | with_reducible apply Keeps.id
    | (with_reducible apply Keeps.foldl; intro _ _ _)
    | (with_reducible apply Keeps.foldl_snd; intro _ _ _)
    | (with_reducible apply Keeps.foldl_fst; intro _ _ _)
    | with_reducible apply Keeps.ite
    | split
    | with_reducible apply Keeps.upd
    | with_reducible exact memPutBytes_wf _ _ _
    | with_reducible exact memPutLE_wf _ _ _ _
    | (intro h; with_reducible exact memPuts_wf h)
    | with_reducible exact memPut_wf _ _ _
    | with_reducible exact memClear_wf _ _ _
    | with_reducible exact memKeep_wf _ _
    | exact fun h => absurd h (by omega)
    | intro _ _
    | dsimp only

theorem keeps_execLaneConfig (n : Fin 40) (khzA : Nat) (khzB : Nat) (s : State) : KeepsO 0 s (execLaneConfig n khzA khzB s) :=
  .next (keeps_mbxRun card_laneConfigCard (.refl _ _))

theorem card_laneStatusCard {lv : Nat} {taps : List Int} {eyeW : Nat} {eyeH : Nat} : Card.Keeps lv (laneStatusCard taps eyeW eyeH) := by
  intro n b ss0 s hK
  unfold laneStatusCard
  iterate 40 try any_goals with_reducible first | assumption | apply keeps_updSerial | apply Keeps.ite

theorem keeps_execLaneStatus (n : Fin 40) (taps : List Int) (eyeW : Nat) (eyeH : Nat) (s : State) : KeepsO 0 s (execLaneStatus n taps eyeW eyeH s) :=
  .next (keeps_mbxRun card_laneStatusCard (.refl _ _))

theorem keeps_bindLink {lv : Nat} {ss0 : State} {s : State} {q : Nat} {l : LaneLink} (hK : Keeps lv ss0 s) :
    Keeps lv ss0 (bindLink s q l) := by
  unfold bindLink
  iterate 40 try any_goals first
    | with_reducible assumption
    | with_reducible exact fun h => h
    | with_reducible exact fun _ => rfl
    | with_reducible exact fun _ => ⟨rfl, rfl⟩
    | with_reducible exact rfl
    | with_reducible apply keeps_setLane
    | (with_reducible apply Keeps.foldl; intro _ _ _)
    | with_reducible apply Keeps.ite
    | with_reducible apply Keeps.upd

theorem keeps_unbindLink {lv : Nat} {ss0 : State} {s : State} {q : Nat} (hK : Keeps lv ss0 s) :
    Keeps lv ss0 (unbindLink s q) := by
  unfold unbindLink
  try dsimp only
  iterate 40 try any_goals first
    | with_reducible assumption
    | with_reducible exact fun h => h
    | with_reducible exact fun _ h => h
    | with_reducible exact fun _ => rfl
    | with_reducible exact fun _ => ⟨rfl, rfl⟩
    | with_reducible exact rfl
    | with_reducible exact fun _ => Mem.wf_nil
    | (intro _; with_reducible exact memPutBytes_wf _ _ _)
    | with_reducible apply keeps_linkEventOf
    | with_reducible apply keeps_updLink
    | with_reducible apply keeps_setLane
    | with_reducible apply keeps_updPort
    | with_reducible apply Keeps.id
    | (with_reducible apply Keeps.foldl; intro _ _ _)
    | (with_reducible apply Keeps.foldl_snd; intro _ _ _)
    | (with_reducible apply Keeps.foldl_fst; intro _ _ _)
    | with_reducible apply Keeps.ite
    | split
    | with_reducible apply Keeps.upd
    | with_reducible exact memPutBytes_wf _ _ _
    | with_reducible exact memPutLE_wf _ _ _ _
    | (intro h; with_reducible exact memPuts_wf h)
    | with_reducible exact memPut_wf _ _ _
    | with_reducible exact memClear_wf _ _ _
    | with_reducible exact memKeep_wf _ _
    | exact fun h => absurd h (by omega)
    | intro _ _
    | dsimp only

theorem card_laneLinkCard {lv : Nat}  : Card.Keeps lv laneLinkCard := by
  intro n b ss0 s hK
  unfold laneLinkCard
  iterate 40 try any_goals first
    | with_reducible assumption
    | with_reducible apply keeps_bindLink
    | with_reducible apply keeps_unbindLink
    | with_reducible apply Keeps.ite

theorem keeps_execLaneLink (n : Fin 40) (s : State) : KeepsO 0 s (execLaneLink n s) :=
  .next (keeps_mbxRun card_laneLinkCard (.refl _ _))

theorem keeps_lanePower {lv : Nat} {ss0 : State} {s : State} {a : Nat} {state : Nat} (hK : Keeps lv ss0 s) :
    Keeps lv ss0 (lanePower s a state) := by
  unfold lanePower
  try dsimp only
  iterate 40 try any_goals first
    | with_reducible assumption
    | with_reducible exact fun h => h
    | with_reducible exact fun _ h => h
    | with_reducible exact fun _ => rfl
    | with_reducible exact fun _ => ⟨rfl, rfl⟩
    | with_reducible exact rfl
    | with_reducible exact fun _ => Mem.wf_nil
    | (intro _; with_reducible exact memPutBytes_wf _ _ _)
    | with_reducible apply keeps_linkDown
    | with_reducible apply keeps_setLane
    | with_reducible apply Keeps.id
    | (with_reducible apply Keeps.foldl; intro _ _ _)
    | (with_reducible apply Keeps.foldl_snd; intro _ _ _)
    | (with_reducible apply Keeps.foldl_fst; intro _ _ _)
    | with_reducible apply Keeps.ite
    | split
    | with_reducible apply Keeps.upd
    | with_reducible exact memPutBytes_wf _ _ _
    | with_reducible exact memPutLE_wf _ _ _ _
    | (intro h; with_reducible exact memPuts_wf h)
    | with_reducible exact memPut_wf _ _ _
    | with_reducible exact memClear_wf _ _ _
    | with_reducible exact memKeep_wf _ _
    | exact fun h => absurd h (by omega)
    | intro _ _
    | dsimp only

theorem card_lanePowerCard {lv : Nat}  : Card.Keeps lv lanePowerCard := by
  intro n b ss0 s hK
  unfold lanePowerCard
  try dsimp only
  iterate 40 try any_goals first
    | with_reducible assumption
    | with_reducible exact fun h => h
    | with_reducible exact fun _ h => h
    | with_reducible exact fun _ => rfl
    | with_reducible exact fun _ => ⟨rfl, rfl⟩
    | with_reducible exact rfl
    | with_reducible exact fun _ => Mem.wf_nil
    | (intro _; with_reducible exact memPutBytes_wf _ _ _)
    | with_reducible apply keeps_lanePower
    | with_reducible apply keeps_portPower
    | with_reducible apply Keeps.id
    | (with_reducible apply Keeps.foldl; intro _ _ _)
    | (with_reducible apply Keeps.foldl_snd; intro _ _ _)
    | (with_reducible apply Keeps.foldl_fst; intro _ _ _)
    | with_reducible apply Keeps.ite
    | split
    | with_reducible apply Keeps.upd
    | with_reducible exact memPutBytes_wf _ _ _
    | with_reducible exact memPutLE_wf _ _ _ _
    | (intro h; with_reducible exact memPuts_wf h)
    | with_reducible exact memPut_wf _ _ _
    | with_reducible exact memClear_wf _ _ _
    | with_reducible exact memKeep_wf _ _
    | exact fun h => absurd h (by omega)
    | intro _ _
    | dsimp only

theorem keeps_execLanePower (n : Fin 40) (s : State) : KeepsO 0 s (execLanePower n s) :=
  .next (keeps_mbxRun card_lanePowerCard (.refl _ _))

theorem keeps_returnSpare {lv : Nat} {ss0 : State} {s : State} {a : Nat} (hK : Keeps lv ss0 s) :
    Keeps lv ss0 (returnSpare s a) := by
  unfold returnSpare
  try dsimp only
  iterate 40 try any_goals first
    | with_reducible assumption
    | with_reducible exact fun h => h
    | with_reducible exact fun _ h => h
    | with_reducible exact fun _ => rfl
    | with_reducible exact fun _ => ⟨rfl, rfl⟩
    | with_reducible exact rfl
    | with_reducible exact fun _ => Mem.wf_nil
    | (intro _; with_reducible exact memPutBytes_wf _ _ _)
    | with_reducible apply keeps_laneLedger
    | with_reducible apply keeps_setLane
    | with_reducible apply keeps_updLink
    | with_reducible apply Keeps.id
    | (with_reducible apply Keeps.foldl; intro _ _ _)
    | (with_reducible apply Keeps.foldl_snd; intro _ _ _)
    | (with_reducible apply Keeps.foldl_fst; intro _ _ _)
    | with_reducible apply Keeps.ite
    | split
    | with_reducible apply Keeps.upd
    | with_reducible exact memPutBytes_wf _ _ _
    | with_reducible exact memPutLE_wf _ _ _ _
    | (intro h; with_reducible exact memPuts_wf h)
    | with_reducible exact memPut_wf _ _ _
    | with_reducible exact memClear_wf _ _ _
    | with_reducible exact memKeep_wf _ _
    | exact fun h => absurd h (by omega)
    | intro _ _
    | dsimp only

theorem keeps_endLoop {lv : Nat} {ss0 : State} {s : State} {a : Nat} {result : Nat} {bits : Nat} {errs : Nat} (hK : Keeps lv ss0 s) :
    Keeps lv ss0 (endLoop s a result bits errs) := by
  unfold endLoop
  try dsimp only
  iterate 40 try any_goals first
    | with_reducible assumption
    | with_reducible exact fun h => h
    | with_reducible exact fun _ h => h
    | with_reducible exact fun _ => rfl
    | with_reducible exact fun _ => ⟨rfl, rfl⟩
    | with_reducible exact rfl
    | with_reducible exact fun _ => Mem.wf_nil
    | (intro _; with_reducible exact memPutBytes_wf _ _ _)
    | with_reducible apply keeps_updSerial
    | with_reducible apply keeps_returnSpare
    | with_reducible apply keeps_setLane
    | with_reducible apply keeps_loopEvent
    | with_reducible apply Keeps.id
    | (with_reducible apply Keeps.foldl; intro _ _ _)
    | (with_reducible apply Keeps.foldl_snd; intro _ _ _)
    | (with_reducible apply Keeps.foldl_fst; intro _ _ _)
    | with_reducible apply Keeps.ite
    | split
    | with_reducible apply Keeps.upd
    | with_reducible exact memPutBytes_wf _ _ _
    | with_reducible exact memPutLE_wf _ _ _ _
    | (intro h; with_reducible exact memPuts_wf h)
    | with_reducible exact memPut_wf _ _ _
    | with_reducible exact memClear_wf _ _ _
    | with_reducible exact memKeep_wf _ _
    | exact fun h => absurd h (by omega)
    | intro _ _
    | dsimp only

theorem card_laneLoopCard {lv : Nat} {bits : Nat} {errs : Nat} : Card.Keeps lv (laneLoopCard bits errs) := by
  intro n b ss0 s hK
  unfold laneLoopCard
  try dsimp only
  iterate 40 try any_goals first
    | with_reducible assumption
    | with_reducible exact fun h => h
    | with_reducible exact fun _ h => h
    | with_reducible exact fun _ => rfl
    | with_reducible exact fun _ => ⟨rfl, rfl⟩
    | with_reducible exact rfl
    | with_reducible exact fun _ => Mem.wf_nil
    | (intro _; with_reducible exact memPutBytes_wf _ _ _)
    | with_reducible apply keeps_endLoop
    | with_reducible apply keeps_setLane
    | with_reducible apply keeps_updSerial
    | with_reducible apply Keeps.id
    | (with_reducible apply Keeps.foldl; intro _ _ _)
    | (with_reducible apply Keeps.foldl_snd; intro _ _ _)
    | (with_reducible apply Keeps.foldl_fst; intro _ _ _)
    | with_reducible apply Keeps.ite
    | split
    | with_reducible apply Keeps.upd
    | with_reducible exact memPutBytes_wf _ _ _
    | with_reducible exact memPutLE_wf _ _ _ _
    | (intro h; with_reducible exact memPuts_wf h)
    | with_reducible exact memPut_wf _ _ _
    | with_reducible exact memClear_wf _ _ _
    | with_reducible exact memKeep_wf _ _
    | exact fun h => absurd h (by omega)
    | intro _ _
    | dsimp only

theorem keeps_execLaneLoop (n : Fin 40) (bits : BitVec 64) (errs : BitVec 32) (s : State) : KeepsO 0 s (execLaneLoop n bits errs s) :=
  .next (keeps_mbxRun card_laneLoopCard (.refl _ _))

theorem keeps_execLaneLoopEnd (lane : Fin 70) (locked : Bool) (bits : BitVec 64) (errs : BitVec 32) (flash : Bool) (s : State) : KeepsO 0 s (execLaneLoopEnd lane locked bits errs flash s) := by
  unfold execLaneLoopEnd
  iterate 40 try any_goals first
    | with_reducible apply KeepsO.next
    | with_reducible exact Keeps.refl _ _
    | with_reducible apply keeps_endLoop
    | with_reducible apply keeps_withFlash

theorem card_laneEqCard {lv : Nat}  : Card.Keeps lv laneEqCard := by
  intro n b ss0 s hK
  unfold laneEqCard
  try dsimp only
  iterate 40 try any_goals first
    | with_reducible assumption
    | with_reducible exact fun h => h
    | with_reducible exact fun _ h => h
    | with_reducible exact fun _ => rfl
    | with_reducible exact fun _ => ⟨rfl, rfl⟩
    | with_reducible exact rfl
    | with_reducible exact fun _ => Mem.wf_nil
    | (intro _; with_reducible exact memPutBytes_wf _ _ _)
    | with_reducible apply keeps_updSerial
    | with_reducible apply keeps_adapted
    | with_reducible apply Keeps.id
    | (with_reducible apply Keeps.foldl; intro _ _ _)
    | (with_reducible apply Keeps.foldl_snd; intro _ _ _)
    | (with_reducible apply Keeps.foldl_fst; intro _ _ _)
    | with_reducible apply Keeps.ite
    | split
    | with_reducible apply Keeps.upd
    | with_reducible exact memPutBytes_wf _ _ _
    | with_reducible exact memPutLE_wf _ _ _ _
    | (intro h; with_reducible exact memPuts_wf h)
    | with_reducible exact memPut_wf _ _ _
    | with_reducible exact memClear_wf _ _ _
    | with_reducible exact memKeep_wf _ _
    | exact fun h => absurd h (by omega)
    | intro _ _
    | dsimp only

theorem keeps_execLaneEq (n : Fin 40) (s : State) : KeepsO 0 s (execLaneEq n s) :=
  .next (keeps_mbxRun card_laneEqCard (.refl _ _))

theorem keeps_laneLost {lv : Nat} {ss0 : State} {s : State} {a : Nat} {cause : Nat} (hK : Keeps lv ss0 s) :
    Keeps lv ss0 (laneLost s a cause) := by
  unfold laneLost
  try dsimp only
  iterate 40 try any_goals first
    | with_reducible assumption
    | with_reducible exact fun h => h
    | with_reducible exact fun _ h => h
    | with_reducible exact fun _ => rfl
    | with_reducible exact fun _ => ⟨rfl, rfl⟩
    | with_reducible exact rfl
    | with_reducible exact fun _ => Mem.wf_nil
    | (intro _; with_reducible exact memPutBytes_wf _ _ _)
    | with_reducible apply keeps_countLoss
    | with_reducible apply keeps_loseOld
    | with_reducible apply keeps_afterLoss
    | with_reducible apply keeps_loseSpare
    | with_reducible apply keeps_losePosition
    | with_reducible apply keeps_setLane
    | with_reducible apply keeps_linkDown
    | with_reducible apply keeps_pcieRetrain
    | with_reducible apply keeps_ethLink
    | with_reducible apply Keeps.id
    | (with_reducible apply Keeps.foldl; intro _ _ _)
    | (with_reducible apply Keeps.foldl_snd; intro _ _ _)
    | (with_reducible apply Keeps.foldl_fst; intro _ _ _)
    | with_reducible apply Keeps.ite
    | split
    | with_reducible apply Keeps.upd
    | with_reducible exact memPutBytes_wf _ _ _
    | with_reducible exact memPutLE_wf _ _ _ _
    | (intro h; with_reducible exact memPuts_wf h)
    | with_reducible exact memPut_wf _ _ _
    | with_reducible exact memClear_wf _ _ _
    | with_reducible exact memKeep_wf _ _
    | exact fun h => absurd h (by omega)
    | intro _ _
    | dsimp only

theorem keeps_laneLocked {lv : Nat} {ss0 : State} {s : State} {a : Nat} (hK : Keeps lv ss0 s) :
    Keeps lv ss0 (laneLocked s a) := by
  unfold laneLocked
  try dsimp only
  iterate 40 try any_goals first
    | with_reducible assumption
    | with_reducible exact fun h => h
    | with_reducible exact fun _ h => h
    | with_reducible exact fun _ => rfl
    | with_reducible exact fun _ => ⟨rfl, rfl⟩
    | with_reducible exact rfl
    | with_reducible exact fun _ => Mem.wf_nil
    | (intro _; with_reducible exact memPutBytes_wf _ _ _)
    | with_reducible apply keeps_setLane
    | with_reducible apply keeps_formLink
    | with_reducible apply keeps_linkCame
    | with_reducible apply keeps_epTrain
    | with_reducible apply Keeps.id
    | (with_reducible apply Keeps.foldl; intro _ _ _)
    | (with_reducible apply Keeps.foldl_snd; intro _ _ _)
    | (with_reducible apply Keeps.foldl_fst; intro _ _ _)
    | with_reducible apply Keeps.ite
    | split
    | with_reducible apply Keeps.upd
    | with_reducible exact memPutBytes_wf _ _ _
    | with_reducible exact memPutLE_wf _ _ _ _
    | (intro h; with_reducible exact memPuts_wf h)
    | with_reducible exact memPut_wf _ _ _
    | with_reducible exact memClear_wf _ _ _
    | with_reducible exact memKeep_wf _ _
    | exact fun h => absurd h (by omega)
    | intro _ _
    | dsimp only

theorem keeps_execLaneBlockLock (lane : Fin 70) (skewNs : Nat) (flash : Bool) (s : State) : KeepsO 0 s (execLaneBlockLock lane skewNs flash s) := by
  unfold execLaneBlockLock
  try dsimp only
  iterate 40 try any_goals first
    | with_reducible apply KeepsO.next
    | with_reducible exact Keeps.refl _ _
    | with_reducible apply keeps_laneEvent
    | with_reducible apply keeps_laneLocked
    | with_reducible apply keeps_withFlash
    | split

theorem keeps_execLaneLockLoss (lane : Fin 70) (markers : Bool) (flash : Bool) (s : State) : KeepsO 0 s (execLaneLockLoss lane markers flash s) := by
  unfold execLaneLockLoss
  iterate 40 try any_goals first
    | with_reducible apply KeepsO.next
    | with_reducible exact Keeps.refl _ _
    | with_reducible apply keeps_laneLost
    | with_reducible apply keeps_withFlash

theorem keeps_execRefqLost (refq : Fin 4) (flash : Bool) (s : State) : KeepsO 0 s (execRefqLost refq flash s) := by
  unfold execRefqLost
  try dsimp only
  iterate 40 try any_goals first
    | with_reducible apply KeepsO.next
    | with_reducible exact Keeps.refl _ _
    | with_reducible assumption
    | with_reducible exact fun h => h
    | with_reducible exact fun _ h => h
    | with_reducible exact fun _ => rfl
    | with_reducible exact fun _ => ⟨rfl, rfl⟩
    | with_reducible exact rfl
    | with_reducible exact fun _ => Mem.wf_nil
    | (intro _; with_reducible exact memPutBytes_wf _ _ _)
    | with_reducible apply keeps_laneLost
    | with_reducible apply keeps_loseOld
    | with_reducible apply keeps_setLeaf
    | with_reducible apply keeps_withFlash
    | with_reducible apply Keeps.id
    | (with_reducible apply Keeps.foldl; intro _ _ _)
    | (with_reducible apply Keeps.foldl_snd; intro _ _ _)
    | (with_reducible apply Keeps.foldl_fst; intro _ _ _)
    | with_reducible apply Keeps.ite
    | split
    | with_reducible apply Keeps.upd
    | with_reducible exact memPutBytes_wf _ _ _
    | with_reducible exact memPutLE_wf _ _ _ _
    | (intro h; with_reducible exact memPuts_wf h)
    | with_reducible exact memPut_wf _ _ _
    | with_reducible exact memClear_wf _ _ _
    | with_reducible exact memKeep_wf _ _
    | exact fun h => absurd h (by omega)
    | intro _ _
    | dsimp only

theorem keeps_execSpareLockTimeout (pair : Fin 6) (flash : Bool) (s : State) : KeepsO 0 s (execSpareLockTimeout pair flash s) := by
  unfold execSpareLockTimeout
  try dsimp only
  iterate 40 try any_goals first
    | with_reducible apply KeepsO.next
    | with_reducible exact Keeps.refl _ _
    | with_reducible apply keeps_loseSpare
    | with_reducible apply keeps_countLoss
    | with_reducible apply keeps_withFlash
    | split

theorem keeps_partnerMasks {lv : Nat} {ss0 : State} {s : State} {q : Nat} {ok : Nat} {active : Nat} (hK : Keeps lv ss0 s) :
    Keeps lv ss0 (partnerMasks s q ok active) := by
  unfold partnerMasks
  iterate 40 try any_goals first
    | with_reducible assumption
    | with_reducible apply keeps_updLink
    | with_reducible apply keeps_afterLoss
    | with_reducible apply keeps_loseSpare
    | with_reducible apply keeps_losePosition
    | (with_reducible apply Keeps.foldl; intro _ _ _)
    | split

theorem keeps_partnerPower {lv : Nat} {ss0 : State} {s : State} {q : Nat} {lp : Bool} {deep : Bool} (hK : Keeps lv ss0 s) :
    Keeps lv ss0 (partnerPower s q lp deep) := by
  unfold partnerPower
  iterate 40 try any_goals first
    | with_reducible assumption
    | with_reducible apply keeps_enterLowPower
    | with_reducible apply keeps_leaveLowPower
    | with_reducible apply Keeps.ite
    | split

theorem keeps_elastic {lv : Nat} {ss0 : State} {s : State} {a : Nat} {idle : Nat} (hK : Keeps lv ss0 s) :
    Keeps lv ss0 (elastic s a idle) := by
  unfold elastic
  iterate 40 try any_goals first
    | with_reducible assumption
    | with_reducible apply keeps_updSerial
    | (with_reducible apply Keeps.foldl; intro _ _ _)

theorem keeps_execMilestoneMarker (lane : Fin 70) (marker : List Byte) (idle : Fin 3) (stuffErrors : Nat) (deep : Bool) (flash : Bool) (s : State) : KeepsO 0 s (execMilestoneMarker lane marker idle stuffErrors deep flash s) := by
  unfold execMilestoneMarker
  try dsimp only
  iterate 40 try any_goals first
    | with_reducible apply KeepsO.next
    | with_reducible exact Keeps.refl _ _
    | with_reducible apply keeps_updSerial
    | with_reducible apply keeps_withFlash
    | with_reducible apply keeps_elastic
    | with_reducible apply keeps_partnerMasks
    | with_reducible apply keeps_joinSpare
    | with_reducible apply keeps_formLink
    | with_reducible apply keeps_partnerPower
    | split

theorem keeps_execAlignmentColumn (lane : Fin 70) (invalid : Nat) (s : State) : KeepsO 0 s (execAlignmentColumn lane invalid s) := by
  unfold execAlignmentColumn
  try dsimp only
  iterate 40 try any_goals first
    | with_reducible apply KeepsO.next
    | with_reducible exact Keeps.refl _ _
    | with_reducible apply keeps_updSerial
    | with_reducible apply keeps_laneLost
    | with_reducible apply Keeps.ite
    | split

theorem keeps_execLaneWearRetire (lane : Fin 70) (s : State) : KeepsO 0 s (execLaneWearRetire lane s) := by
  unfold execLaneWearRetire
  try dsimp only
  iterate 40 try any_goals first
    | with_reducible apply KeepsO.next
    | with_reducible exact Keeps.refl _ _
    | with_reducible apply keeps_takeSpare
    | with_reducible apply keeps_updLink
    | split

/-! ## FlowRows -/

theorem keeps_flowEnd {lv : Nat} {ss0 : State} {s : State} {f : Flow} {what : Nat} {cause : Nat} (hK : Keeps lv ss0 s) :
    Keeps lv ss0 (flowEnd s f what cause) := by
  unfold flowEnd
  iterate 40 try any_goals first
    | with_reducible assumption
    | with_reducible apply keeps_notify
    | with_reducible apply keeps_flowStateEvent
    | with_reducible apply keeps_freeFlow
    | with_reducible apply keeps_timeFlowLost
    | with_reducible apply keeps_sessionEnd
    | (with_reducible apply Keeps.foldl; intro _ _ _)
    | with_reducible apply Keeps.ite
    | split

theorem keeps_sendClose {lv : Nat} {ss0 : State} {s : State} {f : Flow} (hK : Keeps lv ss0 s) :
    Keeps lv ss0 (sendClose s f) := by
  unfold sendClose
  iterate 40 try any_goals with_reducible first | assumption | apply keeps_sendControl | apply keeps_updFlow

theorem keeps_closeWhenDone {lv : Nat} {ss0 : State} {s : State} {num : Nat} (hK : Keeps lv ss0 s) :
    Keeps lv ss0 (closeWhenDone s num) := by
  unfold closeWhenDone
  iterate 40 try any_goals with_reducible first | assumption | apply keeps_sendClose | apply Keeps.ite | split

theorem keeps_sessionSettle {lv : Nat} {ss0 : State} {s : State} {nsid : Nat} (hK : Keeps lv ss0 s) :
    Keeps lv ss0 (sessionSettle s nsid) := by
  unfold sessionSettle
  try dsimp only
  iterate 40 try any_goals first
    | with_reducible assumption
    | with_reducible exact fun h => h
    | with_reducible exact fun _ h => h
    | with_reducible exact fun _ => rfl
    | with_reducible exact fun _ => ⟨rfl, rfl⟩
    | with_reducible exact rfl
    | with_reducible exact fun _ => Mem.wf_nil
    | (intro _; with_reducible exact memPutBytes_wf _ _ _)
    | with_reducible apply keeps_closeWhenDone
    | with_reducible apply keeps_updFlow
    | with_reducible apply Keeps.id
    | (with_reducible apply Keeps.foldl; intro _ _ _)
    | (with_reducible apply Keeps.foldl_snd; intro _ _ _)
    | (with_reducible apply Keeps.foldl_fst; intro _ _ _)
    | with_reducible apply Keeps.ite
    | split
    | with_reducible apply Keeps.upd
    | with_reducible exact memPutBytes_wf _ _ _
    | with_reducible exact memPutLE_wf _ _ _ _
    | (intro h; with_reducible exact memPuts_wf h)
    | with_reducible exact memPut_wf _ _ _
    | with_reducible exact memClear_wf _ _ _
    | with_reducible exact memKeep_wf _ _
    | exact fun h => absurd h (by omega)
    | intro _ _
    | dsimp only

theorem keeps_openFail {lv : Nat} {ss0 : State} {s : State} {f : Flow} {code : Nat} (hK : Keeps lv ss0 s) :
    Keeps lv ss0 (openFail s f code) := by
  unfold openFail
  iterate 40 try any_goals first
    | with_reducible assumption
    | with_reducible exact fun h => h
    | with_reducible exact fun _ => rfl
    | with_reducible exact fun _ => ⟨rfl, rfl⟩
    | with_reducible exact rfl
    | with_reducible apply keeps_sessionEvent
    | with_reducible apply keeps_freeFlow
    | with_reducible apply keeps_timeFlowLost
    | with_reducible apply keeps_mbxReject
    | with_reducible apply Keeps.ite
    | split
    | with_reducible apply Keeps.upd

theorem keeps_openDone {lv : Nat} {ss0 : State} {s : State} {f : Flow} {c : Control} (hK : Keeps lv ss0 s) :
    Keeps lv ss0 (openDone s f c) := by
  unfold openDone
  iterate 40 try any_goals first
    | with_reducible assumption
    | with_reducible exact fun h => h
    | with_reducible exact fun _ => rfl
    | with_reducible exact fun _ => ⟨rfl, rfl⟩
    | with_reducible exact rfl
    | with_reducible apply keeps_updFlow
    | with_reducible apply keeps_sendControl
    | with_reducible apply keeps_mbxOk
    | with_reducible apply keeps_domainApply
    | with_reducible apply keeps_nsNotice
    | with_reducible apply keeps_sessionEvent
    | with_reducible apply Keeps.ite
    | split
    | with_reducible apply Keeps.upd

theorem keeps_sendNack {lv : Nat} {ss0 : State} {s : State} {c : Control} {code : Nat} (hK : Keeps lv ss0 s) :
    Keeps lv ss0 (sendNack s c code) := by
  unfold sendNack
  iterate 40 try any_goals with_reducible first | assumption | apply keeps_sendControl

theorem keeps_sendAccept {lv : Nat} {ss0 : State} {s : State} {f : Flow} (hK : Keeps lv ss0 s) :
    Keeps lv ss0 (sendAccept s f) := by
  unfold sendAccept
  iterate 40 try any_goals with_reducible first | assumption | apply keeps_sendControl

theorem keeps_refuseOpen {lv : Nat} {ss0 : State} {s : State} {c : Control} {code : Nat} (hK : Keeps lv ss0 s) :
    Keeps lv ss0 (refuseOpen s c code) := by
  unfold refuseOpen
  iterate 40 try any_goals first
    | with_reducible assumption
    | with_reducible exact fun h => h
    | with_reducible apply keeps_updRing
    | with_reducible apply keeps_setLeaf
    | with_reducible apply keeps_flowStateEvent
    | with_reducible apply keeps_sendNack
    | with_reducible apply keeps_sessionEvent
    | with_reducible apply Keeps.ite

theorem keeps_acceptOpen {lv : Nat} {ss0 : State} {s : State} {c : Control} (hK : Keeps lv ss0 s) :
    Keeps lv ss0 (acceptOpen s c) := by
  unfold acceptOpen
  iterate 40 try any_goals first
    | with_reducible assumption
    | with_reducible exact fun h => h
    | with_reducible exact fun _ => rfl
    | with_reducible exact fun _ => ⟨rfl, rfl⟩
    | with_reducible exact rfl
    | with_reducible apply keeps_allocFlow
    | with_reducible apply keeps_alloc
    | with_reducible apply keeps_updFlow
    | with_reducible apply keeps_sendAccept
    | with_reducible apply Keeps.ite
    | split
    | with_reducible apply Keeps.upd

theorem keeps_execOpenFrame (c : Control) (s : State) : KeepsO 0 s (execOpenFrame c s) := by
  unfold execOpenFrame
  iterate 40 try any_goals first
    | with_reducible apply KeepsO.next
    | with_reducible exact Keeps.refl _ _
    | with_reducible apply keeps_takeInbox
    | with_reducible apply keeps_sendAccept
    | with_reducible apply keeps_sendNack
    | with_reducible apply keeps_refuseOpen
    | with_reducible apply keeps_acceptOpen
    | split

theorem keeps_execAcceptFrame (c : Control) (s : State) : KeepsO 0 s (execAcceptFrame c s) := by
  unfold execAcceptFrame
  iterate 40 try any_goals first
    | with_reducible apply KeepsO.next
    | with_reducible exact Keeps.refl _ _
    | with_reducible apply keeps_takeInbox
    | with_reducible apply keeps_countStale
    | with_reducible apply keeps_openDone
    | with_reducible apply keeps_sendControl
    | with_reducible apply Keeps.ite
    | split

theorem keeps_execConfirmFrame (c : Control) (s : State) : KeepsO 0 s (execConfirmFrame c s) := by
  unfold execConfirmFrame
  iterate 40 try any_goals first
    | with_reducible apply KeepsO.next
    | with_reducible exact Keeps.refl _ _
    | with_reducible exact fun h => h
    | with_reducible exact fun _ => rfl
    | with_reducible exact fun _ => ⟨rfl, rfl⟩
    | with_reducible exact rfl
    | with_reducible apply keeps_takeInbox
    | with_reducible apply keeps_flowStateEvent
    | with_reducible apply keeps_updFlow
    | with_reducible apply keeps_sessionEvent
    | with_reducible apply keeps_countStale
    | with_reducible apply Keeps.ite
    | split
    | with_reducible apply Keeps.upd

theorem keeps_execNackFrame (c : Control) (s : State) : KeepsO 0 s (execNackFrame c s) := by
  unfold execNackFrame
  iterate 40 try any_goals first
    | with_reducible apply KeepsO.next
    | with_reducible exact Keeps.refl _ _
    | with_reducible apply keeps_takeInbox
    | with_reducible apply keeps_openFail
    | with_reducible apply keeps_countStale
    | with_reducible apply Keeps.ite
    | split

theorem keeps_skipItems {lv : Nat} {ss0 : State} {num : Nat} : ∀ {nn : Nat} {v1 : Nat} {sv : State},
    Keeps lv ss0 sv → Keeps lv ss0 (skipItems num nn v1 sv) := by
  intro nn
  induction nn with
  | zero => intro v1 sv hK; exact hK
  | succ nn ih =>
    intro v1 sv hK
    unfold skipItems
    iterate 40 try any_goals first
      | with_reducible assumption
      | with_reducible apply ih
      | with_reducible apply keeps_slotComplete
      | with_reducible apply keeps_updFlow
      | with_reducible apply Keeps.ite
      | split

theorem keeps_fillGap {lv : Nat} {ss0 : State} {s : State} {num : Nat} (hK : Keeps lv ss0 s) :
    Keeps lv ss0 (fillGap s num) := by
  unfold fillGap
  try dsimp only
  iterate 40 try any_goals first
    | with_reducible assumption
    | with_reducible apply keeps_skipItems
    | with_reducible apply keeps_updFlow
    | with_reducible apply keeps_deliverFrames
    | split

theorem keeps_fillGaps {lv : Nat} {ss0 : State} {num : Nat} : ∀ {nn : Nat} {sv : State},
    Keeps lv ss0 sv → Keeps lv ss0 (fillGaps num nn sv) := by
  intro nn
  induction nn with
  | zero => intro sv hK; exact hK
  | succ nn ih =>
    intro sv hK
    unfold fillGaps
    iterate 40 try any_goals with_reducible first | assumption | apply ih | apply keeps_fillGap | apply Keeps.ite

theorem keeps_execCloseFrame (c : Control) (s : State) : KeepsO 0 s (execCloseFrame c s) := by
  unfold execCloseFrame
  iterate 40 try any_goals first
    | with_reducible apply KeepsO.next
    | with_reducible exact Keeps.refl _ _
    | with_reducible exact fun h => h
    | with_reducible exact fun _ => rfl
    | with_reducible exact fun _ => ⟨rfl, rfl⟩
    | with_reducible exact rfl
    | with_reducible apply keeps_takeInbox
    | with_reducible apply keeps_fillGaps
    | with_reducible apply keeps_sendControl
    | with_reducible apply keeps_freeFlow
    | with_reducible apply keeps_flowEnd
    | with_reducible apply keeps_countStale
    | with_reducible apply Keeps.ite
    | split
    | with_reducible apply Keeps.upd

theorem keeps_execClosedFrame (c : Control) (s : State) : KeepsO 0 s (execClosedFrame c s) := by
  unfold execClosedFrame
  iterate 40 try any_goals first
    | with_reducible apply KeepsO.next
    | with_reducible exact Keeps.refl _ _
    | with_reducible apply keeps_takeInbox
    | with_reducible apply keeps_flowEnd
    | with_reducible apply keeps_countStale
    | with_reducible apply Keeps.ite
    | split

theorem keeps_execOpenResend (flow : BitVec 16) (s : State) : KeepsO 0 s (execOpenResend flow s) := by
  unfold execOpenResend
  iterate 40 try any_goals first
    | with_reducible apply KeepsO.next
    | with_reducible exact Keeps.refl _ _
    | with_reducible apply keeps_openFail
    | with_reducible apply keeps_sendOpen
    | with_reducible apply Keeps.ite
    | split

theorem keeps_execConfirmTimeout (flow : BitVec 16) (s : State) : KeepsO 0 s (execConfirmTimeout flow s) := by
  unfold execConfirmTimeout
  iterate 40 try any_goals first
    | with_reducible apply KeepsO.next
    | with_reducible exact Keeps.refl _ _
    | with_reducible exact fun h => h
    | with_reducible exact fun _ => rfl
    | with_reducible exact fun _ => ⟨rfl, rfl⟩
    | with_reducible exact rfl
    | with_reducible apply keeps_freeFlow
    | with_reducible apply Keeps.ite
    | split
    | with_reducible apply Keeps.upd

theorem keeps_execCloseTimeout (flow : BitVec 16) (s : State) : KeepsO 0 s (execCloseTimeout flow s) := by
  unfold execCloseTimeout
  iterate 40 try any_goals first
    | with_reducible apply KeepsO.next
    | with_reducible exact Keeps.refl _ _
    | with_reducible apply keeps_flowEnd
    | with_reducible apply keeps_sendClose
    | with_reducible apply Keeps.ite
    | split

theorem keeps_takeAnswer {lv : Nat} {ss0 : State} {s : State} {x : Session} {b : List Byte} (hK : Keeps lv ss0 s) :
    Keeps lv ss0 (takeAnswer s x b) := by
  unfold takeAnswer
  try dsimp only
  iterate 40 try any_goals first
    | with_reducible assumption
    | with_reducible exact fun h => h
    | with_reducible exact fun _ h => h
    | with_reducible exact fun _ => rfl
    | with_reducible exact fun _ => ⟨rfl, rfl⟩
    | with_reducible exact rfl
    | with_reducible exact fun _ => Mem.wf_nil
    | (intro _; with_reducible exact memPutBytes_wf _ _ _)
    | with_reducible apply keeps_nsNotice
    | with_reducible apply keeps_updNvme
    | with_reducible apply keeps_nvmeEnd
    | with_reducible apply Keeps.id
    | (with_reducible apply Keeps.foldl; intro _ _ _)
    | (with_reducible apply Keeps.foldl_snd; intro _ _ _)
    | (with_reducible apply Keeps.foldl_fst; intro _ _ _)
    | with_reducible apply Keeps.ite
    | split
    | with_reducible apply Keeps.upd
    | with_reducible exact memPutBytes_wf _ _ _
    | with_reducible exact memPutLE_wf _ _ _ _
    | (intro h; with_reducible exact memPuts_wf h)
    | with_reducible exact memPut_wf _ _ _
    | with_reducible exact memClear_wf _ _ _
    | with_reducible exact memKeep_wf _ _
    | exact fun h => absurd h (by omega)
    | intro _ _
    | dsimp only

theorem keeps_takeStored {lv : Nat} {ss0 : State} {s : State} {num : Nat} (hK : Keeps lv ss0 s) :
    Keeps lv ss0 (takeStored s num) := by
  unfold takeStored
  try dsimp only
  iterate 40 try any_goals first
    | with_reducible assumption
    | with_reducible exact fun h => h
    | with_reducible exact fun _ h => h
    | with_reducible exact fun _ => rfl
    | with_reducible exact fun _ => ⟨rfl, rfl⟩
    | with_reducible exact rfl
    | with_reducible exact fun _ => Mem.wf_nil
    | (intro _; with_reducible exact memPutBytes_wf _ _ _)
    | with_reducible apply keeps_nvmeSettle
    | with_reducible apply keeps_updFlow
    | with_reducible apply keeps_sessionSettle
    | with_reducible apply keeps_sendShutFlushes
    | with_reducible apply keeps_takeAnswer
    | with_reducible apply Keeps.id
    | (with_reducible apply Keeps.foldl; intro _ _ _)
    | (with_reducible apply Keeps.foldl_snd; intro _ _ _)
    | (with_reducible apply Keeps.foldl_fst; intro _ _ _)
    | with_reducible apply Keeps.ite
    | split
    | with_reducible apply Keeps.upd
    | with_reducible exact memPutBytes_wf _ _ _
    | with_reducible exact memPutLE_wf _ _ _ _
    | (intro h; with_reducible exact memPuts_wf h)
    | with_reducible exact memPut_wf _ _ _
    | with_reducible exact memClear_wf _ _ _
    | with_reducible exact memKeep_wf _ _
    | exact fun h => absurd h (by omega)
    | intro _ _
    | dsimp only

theorem keeps_execFlowDataFrame (src : BitVec 12) (dflow : BitVec 16) (dgen : Byte) (fseqno : BitVec 32) (payload : List Byte) (miss : Bool) (s : State) : KeepsO 0 s (execFlowDataFrame src dflow dgen fseqno payload miss s) := by
  unfold execFlowDataFrame
  iterate 40 try any_goals first
    | with_reducible apply KeepsO.next
    | with_reducible exact Keeps.refl _ _
    | with_reducible exact fun h => h
    | with_reducible apply keeps_takeInbox
    | with_reducible apply keeps_countStale
    | with_reducible apply keeps_updRing
    | with_reducible apply keeps_deliverFrames
    | with_reducible apply keeps_takeStored
    | with_reducible apply keeps_updFlow
    | with_reducible apply Keeps.ite
    | split

theorem keeps_takeFlowAck {lv : Nat} {ss0 : State} {s : State} {f : Flow} {last : Nat} (hK : Keeps lv ss0 s) :
    Keeps lv ss0 (takeFlowAck s f last) := by
  unfold takeFlowAck
  iterate 40 try any_goals first
    | with_reducible assumption
    | with_reducible apply keeps_updFlow
    | with_reducible apply keeps_notify
    | with_reducible apply keeps_closeWhenDone
    | with_reducible apply keeps_pumpFlow
    | (with_reducible apply Keeps.foldl; intro _ _ _)
    | with_reducible apply Keeps.ite

theorem keeps_execFlowAckFrame (src : BitVec 12) (dflow : BitVec 16) (dgen : Byte) (last : BitVec 32) (s : State) : KeepsO 0 s (execFlowAckFrame src dflow dgen last s) := by
  unfold execFlowAckFrame
  iterate 40 try any_goals first
    | with_reducible apply KeepsO.next
    | with_reducible exact Keeps.refl _ _
    | with_reducible apply keeps_takeInbox
    | with_reducible apply keeps_countStale
    | with_reducible apply keeps_takeFlowAck
    | split

theorem keeps_execFlowAckTimer (flow : BitVec 16) (s : State) : KeepsO 0 s (execFlowAckTimer flow s) := by
  unfold execFlowAckTimer
  iterate 40 try any_goals first
    | with_reducible apply KeepsO.next
    | with_reducible exact Keeps.refl _ _
    | with_reducible apply keeps_sendFlowAck
    | with_reducible apply Keeps.ite
    | split

theorem keeps_execReorderTimeout (flow : BitVec 16) (s : State) : KeepsO 0 s (execReorderTimeout flow s) := by
  unfold execReorderTimeout
  iterate 40 try any_goals first
    | with_reducible apply KeepsO.next
    | with_reducible exact Keeps.refl _ _
    | with_reducible apply keeps_fillGap
    | with_reducible apply keeps_flowEnd
    | with_reducible apply Keeps.ite
    | split

theorem keeps_execFlowSilence (flow : BitVec 16) (s : State) : KeepsO 0 s (execFlowSilence flow s) := by
  unfold execFlowSilence
  iterate 40 try any_goals first
    | with_reducible apply KeepsO.next
    | with_reducible exact Keeps.refl _ _
    | with_reducible apply keeps_flowEnd
    | with_reducible apply Keeps.ite
    | split

theorem card_flowOpenCard {lv : Nat}  : Card.Keeps lv flowOpenCard := by
  intro n b ss0 s hK
  unfold flowOpenCard
  iterate 40 try any_goals first
    | with_reducible assumption
    | with_reducible apply keeps_startOpen
    | with_reducible apply keeps_alloc
    | with_reducible apply keeps_launchOpen
    | with_reducible apply keeps_updFlow
    | with_reducible apply Keeps.ite
    | split

theorem keeps_execFlowOpen (n : Fin 40) (s : State) : KeepsO 0 s (execFlowOpen n s) :=
  .next (keeps_mbxRun card_flowOpenCard (.refl _ _))

theorem card_flowCloseCard {lv : Nat}  : Card.Keeps lv flowCloseCard := by
  intro n b ss0 s hK
  unfold flowCloseCard
  iterate 40 try any_goals with_reducible first | assumption | apply keeps_closeWhenDone | apply keeps_updFlow

theorem keeps_execFlowClose (n : Fin 40) (s : State) : KeepsO 0 s (execFlowClose n s) :=
  .next (keeps_mbxRun card_flowCloseCard (.refl _ _))

theorem card_flowListenCard {lv : Nat}  : Card.Keeps lv flowListenCard := by
  intro n b ss0 s hK
  unfold flowListenCard
  iterate 40 try any_goals with_reducible first | assumption | exact fun h => h | apply keeps_updRing | split

theorem keeps_execFlowListen (n : Fin 40) (s : State) : KeepsO 0 s (execFlowListen n s) :=
  .next (keeps_mbxRun card_flowListenCard (.refl _ _))

theorem card_flowSendCard {lv : Nat}  : Card.Keeps lv flowSendCard := by
  intro n b ss0 s hK
  unfold flowSendCard
  iterate 40 try any_goals with_reducible first | assumption | apply keeps_flowQueueItem

theorem keeps_execFlowSend (n : Fin 40) (s : State) : KeepsO 0 s (execFlowSend n s) :=
  .next (keeps_mbxRun card_flowSendCard (.refl _ _))

theorem card_flowStatusCard {lv : Nat}  : Card.Keeps lv flowStatusCard := by
  intro n b ss0 s hK
  unfold flowStatusCard
  try dsimp only
  iterate 40 try any_goals first
    | with_reducible assumption
    | with_reducible apply keeps_draw
    | with_reducible apply keeps_updFlow
    | with_reducible apply Keeps.ite
    | split

theorem keeps_execFlowStatus (n : Fin 40) (s : State) : KeepsO 0 s (execFlowStatus n s) :=
  .next (keeps_mbxRun card_flowStatusCard (.refl _ _))

theorem card_gateSessionOpenCard {lv : Nat}  : Card.Keeps lv gateSessionOpenCard := by
  intro n b ss0 s hK
  unfold gateSessionOpenCard
  iterate 40 try any_goals first
    | with_reducible assumption
    | with_reducible exact fun h => h
    | with_reducible exact fun _ => rfl
    | with_reducible exact fun _ => ⟨rfl, rfl⟩
    | with_reducible exact rfl
    | with_reducible apply keeps_startOpen
    | with_reducible apply keeps_launchOpen
    | with_reducible apply Keeps.upd

theorem keeps_execGateSessionOpen (n : Fin 40) (s : State) : KeepsO 0 s (execGateSessionOpen n s) :=
  .next (keeps_mbxRun card_gateSessionOpenCard (.refl _ _))

theorem card_gateSessionCloseCard {lv : Nat}  : Card.Keeps lv gateSessionCloseCard := by
  intro n b ss0 s hK
  unfold gateSessionCloseCard
  iterate 40 try any_goals first
    | with_reducible assumption
    | with_reducible exact fun h => h
    | with_reducible exact fun _ => rfl
    | with_reducible exact fun _ => ⟨rfl, rfl⟩
    | with_reducible exact rfl
    | with_reducible apply keeps_sessionSettle
    | with_reducible apply Keeps.upd

theorem keeps_execGateSessionClose (n : Fin 40) (s : State) : KeepsO 0 s (execGateSessionClose n s) :=
  .next (keeps_mbxRun card_gateSessionCloseCard (.refl _ _))

theorem keeps_reopenTime {lv : Nat} {ss0 : State} {s : State} {d : Nat} (hK : Keeps lv ss0 s) :
    Keeps lv ss0 (reopenTime s d) := by
  unfold reopenTime
  try dsimp only
  iterate 40 try any_goals first
    | with_reducible assumption
    | with_reducible exact fun h => h
    | with_reducible exact fun _ h => h
    | with_reducible exact fun _ => rfl
    | with_reducible exact fun _ => ⟨rfl, rfl⟩
    | with_reducible exact rfl
    | with_reducible exact fun _ => Mem.wf_nil
    | (intro _; with_reducible exact memPutBytes_wf _ _ _)
    | with_reducible apply keeps_startOpen
    | with_reducible apply keeps_launchOpen
    | with_reducible apply keeps_updDom
    | with_reducible apply Keeps.id
    | (with_reducible apply Keeps.foldl; intro _ _ _)
    | (with_reducible apply Keeps.foldl_snd; intro _ _ _)
    | (with_reducible apply Keeps.foldl_fst; intro _ _ _)
    | with_reducible apply Keeps.ite
    | split
    | with_reducible apply Keeps.upd
    | with_reducible exact memPutBytes_wf _ _ _
    | with_reducible exact memPutLE_wf _ _ _ _
    | (intro h; with_reducible exact memPuts_wf h)
    | with_reducible exact memPut_wf _ _ _
    | with_reducible exact memClear_wf _ _ _
    | with_reducible exact memKeep_wf _ _
    | exact fun h => absurd h (by omega)
    | intro _ _
    | dsimp only

theorem keeps_tryReopen {lv : Nat} {ss0 : State} {s : State} (hK : Keeps lv ss0 s) :
    Keeps lv ss0 (tryReopen s) := by
  unfold tryReopen
  try dsimp only
  iterate 40 try any_goals first
    | with_reducible assumption
    | with_reducible exact fun h => h
    | with_reducible exact fun _ h => h
    | with_reducible exact fun _ => rfl
    | with_reducible exact fun _ => ⟨rfl, rfl⟩
    | with_reducible exact rfl
    | with_reducible exact fun _ => Mem.wf_nil
    | (intro _; with_reducible exact memPutBytes_wf _ _ _)
    | with_reducible apply keeps_reopenTime
    | with_reducible apply Keeps.id
    | (with_reducible apply Keeps.foldl; intro _ _ _)
    | (with_reducible apply Keeps.foldl_snd; intro _ _ _)
    | (with_reducible apply Keeps.foldl_fst; intro _ _ _)
    | with_reducible apply Keeps.ite
    | split
    | with_reducible apply Keeps.upd
    | with_reducible exact memPutBytes_wf _ _ _
    | with_reducible exact memPutLE_wf _ _ _ _
    | (intro h; with_reducible exact memPuts_wf h)
    | with_reducible exact memPut_wf _ _ _
    | with_reducible exact memClear_wf _ _ _
    | with_reducible exact memKeep_wf _ _
    | exact fun h => absurd h (by omega)
    | intro _ _
    | dsimp only

theorem keeps_askReopen {lv : Nat} {ss0 : State} {s : State} {d : Nat} (hK : Keeps lv ss0 s) :
    Keeps lv ss0 (askReopen s d) := by
  unfold askReopen
  try dsimp only
  iterate 40 try any_goals first
    | with_reducible assumption
    | with_reducible exact fun h => h
    | with_reducible exact fun _ h => h
    | with_reducible exact fun _ => rfl
    | with_reducible exact fun _ => ⟨rfl, rfl⟩
    | with_reducible exact rfl
    | with_reducible exact fun _ => Mem.wf_nil
    | (intro _; with_reducible exact memPutBytes_wf _ _ _)
    | with_reducible apply keeps_tryReopen
    | with_reducible apply Keeps.id
    | (with_reducible apply Keeps.foldl; intro _ _ _)
    | (with_reducible apply Keeps.foldl_snd; intro _ _ _)
    | (with_reducible apply Keeps.foldl_fst; intro _ _ _)
    | with_reducible apply Keeps.ite
    | split
    | with_reducible apply Keeps.upd
    | with_reducible exact memPutBytes_wf _ _ _
    | with_reducible exact memPutLE_wf _ _ _ _
    | (intro h; with_reducible exact memPuts_wf h)
    | with_reducible exact memPut_wf _ _ _
    | with_reducible exact memClear_wf _ _ _
    | with_reducible exact memKeep_wf _ _
    | exact fun h => absurd h (by omega)
    | intro _ _
    | dsimp only

/-! ## RingRows -/

theorem keeps_budgetEvent {lv : Nat} {ss0 : State} {s : State} (hK : Keeps lv ss0 s) :
    Keeps lv ss0 (budgetEvent s) := by
  unfold budgetEvent
  iterate 40 try any_goals with_reducible first | assumption | apply keeps_notify

theorem keeps_judgeBudget {lv : Nat} {ss0 : State} {s : State} (hK : Keeps lv ss0 s) :
    Keeps lv ss0 (judgeBudget s) := by
  unfold judgeBudget
  iterate 40 try any_goals first
    | with_reducible assumption
    | with_reducible exact fun h => h
    | with_reducible apply keeps_budgetEvent
    | with_reducible apply keeps_updRing
    | with_reducible apply Keeps.ite

theorem keeps_sendManagement {lv : Nat} {ss0 : State} {s : State} {q : Nat} {f : Frame} (hK : Keeps lv ss0 s) :
    Keeps lv ss0 (sendManagement s q f) := by
  unfold sendManagement
  iterate 40 try any_goals with_reducible first | assumption | apply keeps_queueFrame | apply Keeps.ite

theorem keeps_passManagement {lv : Nat} {ss0 : State} {s : State} {q : Nat} {f : Frame} (hK : Keeps lv ss0 s) :
    Keeps lv ss0 (passManagement s q f) := by
  unfold passManagement
  iterate 40 try any_goals first
    | with_reducible assumption
    | with_reducible apply keeps_countDropped
    | with_reducible apply keeps_sendManagement
    | with_reducible apply Keeps.ite
    | split

theorem keeps_sendBeacon {lv : Nat} {ss0 : State} {s : State} {q : Nat} {ring : Nat} {acc : Nat} (hK : Keeps lv ss0 s) :
    Keeps lv ss0 (sendBeacon s q ring acc) := by
  unfold sendBeacon
  iterate 40 try any_goals with_reducible first | assumption | apply keeps_sendManagement

theorem keeps_childBeacons {lv : Nat} {ss0 : State} {s : State} (hK : Keeps lv ss0 s) :
    Keeps lv ss0 (childBeacons s) := by
  unfold childBeacons
  iterate 40 try any_goals first
    | with_reducible assumption
    | with_reducible apply keeps_sendBeacon
    | (with_reducible apply Keeps.foldl; intro _ _ _)
    | split

theorem keeps_execBeaconSend (s : State) : KeepsO 0 s (execBeaconSend s) := by
  unfold execBeaconSend
  iterate 40 try any_goals first
    | with_reducible apply KeepsO.next
    | with_reducible exact Keeps.refl _ _
    | with_reducible assumption
    | with_reducible exact fun h => h
    | with_reducible apply keeps_updRing
    | with_reducible apply keeps_childBeacons
    | with_reducible apply keeps_sendBeacon
    | (with_reducible apply Keeps.foldl; intro _ _ _)
    | with_reducible apply Keeps.ite
    | split

theorem keeps_execBeaconFrame (port : Fin 8) (accNs : BitVec 32) (budgetNs : BitVec 32) (number : BitVec 16) (s : State) : KeepsO 0 s (execBeaconFrame port accNs budgetNs number s) := by
  unfold execBeaconFrame
  try dsimp only
  iterate 40 try any_goals first
    | with_reducible apply KeepsO.next
    | with_reducible exact Keeps.refl _ _
    | with_reducible assumption
    | with_reducible exact fun h => h
    | with_reducible exact fun _ h => h
    | with_reducible exact fun _ => rfl
    | with_reducible exact fun _ => ⟨rfl, rfl⟩
    | with_reducible exact rfl
    | with_reducible exact fun _ => Mem.wf_nil
    | (intro _; with_reducible exact memPutBytes_wf _ _ _)
    | with_reducible apply keeps_updRing
    | with_reducible apply keeps_judgeBudget
    | with_reducible apply keeps_passManagement
    | with_reducible apply keeps_tryReopen
    | with_reducible apply keeps_childBeacons
    | with_reducible apply Keeps.id
    | (with_reducible apply Keeps.foldl; intro _ _ _)
    | (with_reducible apply Keeps.foldl_snd; intro _ _ _)
    | (with_reducible apply Keeps.foldl_fst; intro _ _ _)
    | with_reducible apply Keeps.ite
    | split
    | with_reducible apply Keeps.upd
    | with_reducible exact memPutBytes_wf _ _ _
    | with_reducible exact memPutLE_wf _ _ _ _
    | (intro h; with_reducible exact memPuts_wf h)
    | with_reducible exact memPut_wf _ _ _
    | with_reducible exact memClear_wf _ _ _
    | with_reducible exact memKeep_wf _ _
    | exact fun h => absurd h (by omega)
    | intro _ _
    | dsimp only

theorem keeps_execBeaconStale (s : State) : KeepsO 0 s (execBeaconStale s) := by
  unfold execBeaconStale
  iterate 40 try any_goals first
    | with_reducible apply KeepsO.next
    | with_reducible exact Keeps.refl _ _
    | with_reducible exact fun h => h
    | with_reducible apply keeps_updRing
    | with_reducible apply Keeps.ite

theorem keeps_execWireDelayMeasure (port : Fin 8) (ps : BitVec 32) (s : State) : KeepsO 0 s (execWireDelayMeasure port ps s) := by
  unfold execWireDelayMeasure
  iterate 40 try any_goals first
    | with_reducible apply KeepsO.next
    | with_reducible exact Keeps.refl _ _
    | with_reducible apply keeps_updPort
    | with_reducible apply Keeps.ite

theorem keeps_takeNotice {lv : Nat} {ss0 : State} {s : State} {q : Nat} {origin : Nat} {p : Nat} {heal : Bool} (hK : Keeps lv ss0 s) :
    Keeps lv ss0 (takeNotice s q origin p heal) := by
  unfold takeNotice
  iterate 40 try any_goals first
    | with_reducible assumption
    | with_reducible exact fun h => h
    | with_reducible apply keeps_updRing
    | with_reducible apply keeps_passManagement
    | with_reducible apply keeps_recordBreak
    | with_reducible apply Keeps.ite
    | split

theorem keeps_execBreakNotice (port : Fin 8) (origin : BitVec 12) (p : Fin 64) (s : State) : KeepsO 0 s (execBreakNotice port origin p s) := by
  unfold execBreakNotice
  iterate 40 try any_goals with_reducible first | apply KeepsO.next | exact Keeps.refl _ _ | apply keeps_takeNotice

theorem keeps_execHealNotice (port : Fin 8) (origin : BitVec 12) (p : Fin 64) (s : State) : KeepsO 0 s (execHealNotice port origin p s) := by
  unfold execHealNotice
  try dsimp only
  iterate 40 try any_goals first
    | with_reducible apply KeepsO.next
    | with_reducible exact Keeps.refl _ _
    | with_reducible assumption
    | with_reducible exact fun h => h
    | with_reducible exact fun _ h => h
    | with_reducible exact fun _ => rfl
    | with_reducible exact fun _ => ⟨rfl, rfl⟩
    | with_reducible exact rfl
    | with_reducible exact fun _ => Mem.wf_nil
    | (intro _; with_reducible exact memPutBytes_wf _ _ _)
    | with_reducible apply keeps_tryReopen
    | with_reducible apply keeps_takeNotice
    | with_reducible apply Keeps.id
    | (with_reducible apply Keeps.foldl; intro _ _ _)
    | (with_reducible apply Keeps.foldl_snd; intro _ _ _)
    | (with_reducible apply Keeps.foldl_fst; intro _ _ _)
    | with_reducible apply Keeps.ite
    | split
    | with_reducible apply Keeps.upd
    | with_reducible exact memPutBytes_wf _ _ _
    | with_reducible exact memPutLE_wf _ _ _ _
    | (intro h; with_reducible exact memPuts_wf h)
    | with_reducible exact memPut_wf _ _ _
    | with_reducible exact memClear_wf _ _ _
    | with_reducible exact memKeep_wf _ _
    | exact fun h => absurd h (by omega)
    | intro _ _
    | dsimp only

theorem keeps_execFlitReceived (port : Fin 8) (flit : List Byte) (s : State) : KeepsO 0 s (execFlitReceived port flit s) := by
  unfold execFlitReceived
  try dsimp only
  iterate 40 try any_goals first
    | with_reducible apply KeepsO.next
    | with_reducible exact Keeps.refl _ _
    | with_reducible assumption
    | with_reducible exact fun h => h
    | with_reducible exact fun _ h => h
    | with_reducible exact fun _ => rfl
    | with_reducible exact fun _ => ⟨rfl, rfl⟩
    | with_reducible exact rfl
    | with_reducible exact fun _ => Mem.wf_nil
    | (intro _; with_reducible exact memPutBytes_wf _ _ _)
    | with_reducible apply keeps_tryReopen
    | with_reducible apply keeps_receiveFlit
    | with_reducible apply Keeps.id
    | (with_reducible apply Keeps.foldl; intro _ _ _)
    | (with_reducible apply Keeps.foldl_snd; intro _ _ _)
    | (with_reducible apply Keeps.foldl_fst; intro _ _ _)
    | with_reducible apply Keeps.ite
    | split
    | with_reducible apply Keeps.upd
    | with_reducible exact memPutBytes_wf _ _ _
    | with_reducible exact memPutLE_wf _ _ _ _
    | (intro h; with_reducible exact memPuts_wf h)
    | with_reducible exact memPut_wf _ _ _
    | with_reducible exact memClear_wf _ _ _
    | with_reducible exact memKeep_wf _ _
    | exact fun h => absurd h (by omega)
    | intro _ _
    | dsimp only

theorem keeps_execFlitTransmit (port : Fin 8) (s : State) : KeepsO 0 s (execFlitTransmit port s) := by
  unfold execFlitTransmit
  iterate 40 try any_goals first
    | with_reducible apply KeepsO.next
    | with_reducible exact Keeps.refl _ _
    | with_reducible apply keeps_transmit
    | with_reducible apply keeps_linkFail
    | with_reducible apply Keeps.ite

theorem keeps_execReplayTimeout (port : Fin 8) (s : State) : KeepsO 0 s (execReplayTimeout port s) := by
  unfold execReplayTimeout
  iterate 40 try any_goals first
    | with_reducible apply KeepsO.next
    | with_reducible exact Keeps.refl _ _
    | with_reducible apply keeps_startReplay
    | with_reducible apply Keeps.ite

theorem keeps_execLinkSilenceTimeout (port : Fin 8) (s : State) : KeepsO 0 s (execLinkSilenceTimeout port s) := by
  unfold execLinkSilenceTimeout
  iterate 40 try any_goals first
    | with_reducible apply KeepsO.next
    | with_reducible exact Keeps.refl _ _
    | with_reducible apply keeps_linkFail
    | with_reducible apply Keeps.ite

theorem card_ringConfigCard {lv : Nat}  : Card.Keeps lv ringConfigCard := by
  intro n b ss0 s hK
  unfold ringConfigCard
  iterate 40 try any_goals first
    | with_reducible assumption
    | with_reducible exact fun h => h
    | with_reducible apply keeps_updRing
    | with_reducible apply keeps_judgeBudget

theorem keeps_execRingConfig (n : Fin 40) (s : State) : KeepsO 0 s (execRingConfig n s) :=
  .next (keeps_mbxRun card_ringConfigCard (.refl _ _))

theorem card_ringStatusCard {lv : Nat}  : Card.Keeps lv ringStatusCard := by
  intro n b ss0 s hK
  unfold ringStatusCard
  iterate 40 try any_goals first
    | with_reducible assumption
    | with_reducible exact fun h => h
    | with_reducible apply keeps_updRing
    | with_reducible apply Keeps.ite

theorem keeps_execRingStatus (n : Fin 40) (s : State) : KeepsO 0 s (execRingStatus n s) :=
  .next (keeps_mbxRun card_ringStatusCard (.refl _ _))

theorem card_flintSetCard {lv : Nat}  : Card.Keeps lv flintSetCard := by
  intro n b ss0 s hK
  unfold flintSetCard
  iterate 40 try any_goals with_reducible first | assumption | exact fun h => h | apply keeps_updRing

theorem keeps_execFlintSet (n : Fin 40) (s : State) : KeepsO 0 s (execFlintSet n s) :=
  .next (keeps_mbxRun card_flintSetCard (.refl _ _))

theorem card_flintStatusCard {lv : Nat}  : Card.Keeps lv flintStatusCard := by
  intro n b ss0 s hK
  unfold flintStatusCard
  iterate 40 try any_goals first
    | with_reducible assumption
    | with_reducible exact fun h => h
    | with_reducible apply keeps_updRing
    | with_reducible apply Keeps.ite

theorem keeps_execFlintStatus (n : Fin 40) (s : State) : KeepsO 0 s (execFlintStatus n s) :=
  .next (keeps_mbxRun card_flintStatusCard (.refl _ _))

end Sys2Proof.Machine
end

