-- ==== Sys2Proof/Laws/KeepsOut.lean ====
section
/-! SUPPORT. What the operations of outputs, display and audio keep. -/

namespace Sys2Proof.Machine

/-! ## Outputs -/

theorem keeps_updOut {lv : Nat} {ss0 : State} {s : State} {i : Nat} {f : Output → Output} (hK : Keeps lv ss0 s) :
    Keeps lv ss0 (updOut s i f) := by
  unfold updOut
  iterate 40 try any_goals first
    | with_reducible assumption
    | with_reducible exact fun h => h
    | with_reducible exact fun _ => rfl
    | with_reducible exact fun _ => ⟨rfl, rfl⟩
    | with_reducible exact rfl
    | with_reducible apply Keeps.upd

theorem keeps_outEvent {lv : Nat} {ss0 : State} {s : State} {i : Nat} {cause : Nat} (hK : Keeps lv ss0 s) :
    Keeps lv ss0 (outEvent s i cause) := by
  unfold outEvent
  iterate 40 try any_goals with_reducible first | assumption | apply keeps_notify

theorem keeps_outState {lv : Nat} {ss0 : State} {s : State} {i : Nat} {st : Nat} {cause : Nat} (hK : Keeps lv ss0 s) :
    Keeps lv ss0 (outState s i st cause) := by
  unfold outState
  iterate 40 try any_goals first
    | with_reducible assumption
    | with_reducible apply keeps_outEvent
    | with_reducible apply keeps_updOut
    | with_reducible apply Keeps.ite

theorem keeps_ethLeaves {lv : Nat} {ss0 : State} {s : State} {e : Nat} {x : OutPacket} (hK : Keeps lv ss0 s) :
    Keeps lv ss0 (ethLeaves s e x) := by
  unfold ethLeaves
  try dsimp only
  iterate 40 try any_goals first
    | with_reducible assumption
    | with_reducible exact fun h => h
    | with_reducible exact fun _ h => h
    | with_reducible exact fun _ => rfl
    | with_reducible exact fun _ => ⟨rfl, rfl⟩
    | with_reducible exact rfl
    | with_reducible exact fun _ => Mem.wf_nil
    | (intro _; with_reducible exact memPutBytes_wf _ _ _)
    | with_reducible apply keeps_updEth
    | with_reducible apply Keeps.id
    | (with_reducible apply Keeps.foldl; intro _ _ _)
    | (with_reducible apply Keeps.foldl_snd; intro _ _ _)
    | (with_reducible apply Keeps.foldl_fst; intro _ _ _)
    | with_reducible apply Keeps.ite
    | split
    | with_reducible apply Keeps.upd
    | with_reducible exact memPutBytes_wf _ _ _
    | with_reducible exact memPutLE_wf _ _ _ _
    | (intro h; with_reducible exact memPuts_wf h)
    | with_reducible exact memPut_wf _ _ _
    | with_reducible exact memClear_wf _ _ _
    | with_reducible exact memKeep_wf _ _
    | exact fun h => absurd h (by omega)
    | intro _ _
    | dsimp only

theorem keeps_ethStep {lv : Nat} {ss0 : State} {s : State} {e : Nat} {x : OutPacket} (hK : Keeps lv ss0 s) :
    Keeps lv ss0 (ethStep s e x) := by
  unfold ethStep
  try dsimp only
  iterate 40 try any_goals first
    | with_reducible assumption
    | with_reducible exact fun h => h
    | with_reducible exact fun _ h => h
    | with_reducible exact fun _ => rfl
    | with_reducible exact fun _ => ⟨rfl, rfl⟩
    | with_reducible exact rfl
    | with_reducible exact fun _ => Mem.wf_nil
    | (intro _; with_reducible exact memPutBytes_wf _ _ _)
    | with_reducible apply keeps_injectUnit
    | with_reducible apply keeps_updEth
    | with_reducible apply keeps_ethLeaves
    | with_reducible apply Keeps.id
    | (with_reducible apply Keeps.foldl; intro _ _ _)
    | (with_reducible apply Keeps.foldl_snd; intro _ _ _)
    | (with_reducible apply Keeps.foldl_fst; intro _ _ _)
    | with_reducible apply Keeps.ite
    | split
    | with_reducible apply Keeps.upd
    | with_reducible exact memPutBytes_wf _ _ _
    | with_reducible exact memPutLE_wf _ _ _ _
    | (intro h; with_reducible exact memPuts_wf h)
    | with_reducible exact memPut_wf _ _ _
    | with_reducible exact memClear_wf _ _ _
    | with_reducible exact memKeep_wf _ _
    | exact fun h => absurd h (by omega)
    | intro _ _
    | dsimp only

theorem keeps_ethSend {lv : Nat} {ss0 : State} {e : Nat} {pkt : Nat → OutPacket} {n : Nat} : ∀ {nn : Nat} {sv : State},
    Keeps lv ss0 sv → Keeps lv ss0 (ethSend e pkt n nn sv) := by
  intro nn
  induction nn with
  | zero => intro sv hK; exact hK
  | succ nn ih =>
    intro sv hK
    unfold ethSend
    try dsimp only
    iterate 40 try any_goals first
      | with_reducible assumption
      | with_reducible apply ih
      | with_reducible exact fun h => h
      | with_reducible exact fun _ h => h
      | with_reducible exact fun _ => rfl
      | with_reducible exact fun _ => ⟨rfl, rfl⟩
      | with_reducible exact rfl
      | with_reducible exact fun _ => Mem.wf_nil
      | (intro _; with_reducible exact memPutBytes_wf _ _ _)
      | with_reducible apply keeps_updEth
      | with_reducible apply keeps_ethStep
      | with_reducible apply Keeps.id
      | (with_reducible apply Keeps.foldl; intro _ _ _)
      | (with_reducible apply Keeps.foldl_snd; intro _ _ _)
      | (with_reducible apply Keeps.foldl_fst; intro _ _ _)
      | with_reducible apply Keeps.ite
      | split
      | with_reducible apply Keeps.upd
      | with_reducible exact memPutBytes_wf _ _ _
      | with_reducible exact memPutLE_wf _ _ _ _
      | (intro h; with_reducible exact memPuts_wf h)
      | with_reducible exact memPut_wf _ _ _
      | with_reducible exact memClear_wf _ _ _
      | with_reducible exact memKeep_wf _ _
      | exact fun h => absurd h (by omega)
      | intro _ _
      | dsimp only

theorem keeps_senderSend {lv : Nat} {ss0 : State} {s : State} {i : Nat} {k : Nat} (hK : Keeps lv ss0 s) :
    Keeps lv ss0 (senderSend s i k) := by
  unfold senderSend
  try dsimp only
  iterate 40 try any_goals first
    | with_reducible assumption
    | with_reducible exact fun h => h
    | with_reducible exact fun _ h => h
    | with_reducible exact fun _ => rfl
    | with_reducible exact fun _ => ⟨rfl, rfl⟩
    | with_reducible exact rfl
    | with_reducible exact fun _ => Mem.wf_nil
    | (intro _; with_reducible exact memPutBytes_wf _ _ _)
    | with_reducible apply keeps_updOut
    | with_reducible apply keeps_ethSend
    | with_reducible apply Keeps.id
    | (with_reducible apply Keeps.foldl; intro _ _ _)
    | (with_reducible apply Keeps.foldl_snd; intro _ _ _)
    | (with_reducible apply Keeps.foldl_fst; intro _ _ _)
    | with_reducible apply Keeps.ite
    | split
    | with_reducible apply Keeps.upd
    | with_reducible exact memPutBytes_wf _ _ _
    | with_reducible exact memPutLE_wf _ _ _ _
    | (intro h; with_reducible exact memPuts_wf h)
    | with_reducible exact memPut_wf _ _ _
    | with_reducible exact memClear_wf _ _ _
    | with_reducible exact memKeep_wf _ _
    | exact fun h => absurd h (by omega)
    | intro _ _
    | dsimp only

theorem keeps_videoFrame {lv : Nat} {ss0 : State} {s : State} {i : Nat} (hK : Keeps lv ss0 s) :
    Keeps lv ss0 (videoFrame s i) := by
  unfold videoFrame
  iterate 40 try any_goals first
    | with_reducible assumption
    | with_reducible apply keeps_senderSend
    | with_reducible apply keeps_updOut
    | (with_reducible apply Keeps.foldl; intro _ _ _)
    | with_reducible apply Keeps.ite

theorem keeps_audioPackets {lv : Nat} {ss0 : State} {s : State} {vals : List (Int × Bool)} {k : Nat} (hK : Keeps lv ss0 s) :
    Keeps lv ss0 (audioPackets s vals k) := by
  unfold audioPackets
  try dsimp only
  iterate 40 try any_goals first
    | with_reducible assumption
    | with_reducible exact fun h => h
    | with_reducible exact fun _ h => h
    | with_reducible exact fun _ => rfl
    | with_reducible exact fun _ => ⟨rfl, rfl⟩
    | with_reducible exact rfl
    | with_reducible exact fun _ => Mem.wf_nil
    | (intro _; with_reducible exact memPutBytes_wf _ _ _)
    | with_reducible apply keeps_updOut
    | with_reducible apply keeps_senderSend
    | with_reducible apply Keeps.id
    | (with_reducible apply Keeps.foldl; intro _ _ _)
    | (with_reducible apply Keeps.foldl_snd; intro _ _ _)
    | (with_reducible apply Keeps.foldl_fst; intro _ _ _)
    | with_reducible apply Keeps.ite
    | split
    | with_reducible apply Keeps.upd
    | with_reducible exact memPutBytes_wf _ _ _
    | with_reducible exact memPutLE_wf _ _ _ _
    | (intro h; with_reducible exact memPuts_wf h)
    | with_reducible exact memPut_wf _ _ _
    | with_reducible exact memClear_wf _ _ _
    | with_reducible exact memKeep_wf _ _
    | exact fun h => absurd h (by omega)
    | intro _ _
    | dsimp only

theorem keeps_sizeMismatches {lv : Nat} {ss0 : State} {s : State} {i : Nat} {l : List (Nat × RndBuf)} (hK : Keeps lv ss0 s) :
    Keeps lv ss0 (sizeMismatches s i l) := by
  unfold sizeMismatches
  iterate 40 try any_goals first
    | with_reducible assumption
    | with_reducible apply keeps_updOut
    | with_reducible apply keeps_outEvent
    | (with_reducible apply Keeps.foldl; intro _ _ _)
    | with_reducible apply Keeps.ite

theorem keeps_outSelect {lv : Nat} {ss0 : State} {s : State} {i : Nat} (hK : Keeps lv ss0 s) :
    Keeps lv ss0 (outSelect s i) := by
  unfold outSelect
  try dsimp only
  iterate 40 try any_goals first
    | with_reducible assumption
    | with_reducible apply keeps_sizeMismatches
    | with_reducible apply keeps_updOut
    | with_reducible apply keeps_outState
    | with_reducible apply Keeps.ite
    | split

theorem keeps_outFrame {lv : Nat} {ss0 : State} {s : State} {i : Nat} {adjusted : Bool} (hK : Keeps lv ss0 s) :
    Keeps lv ss0 (outFrame s i adjusted) := by
  unfold outFrame
  try dsimp only
  iterate 40 try any_goals first
    | with_reducible assumption
    | with_reducible exact fun h => h
    | with_reducible exact fun _ h => h
    | with_reducible exact fun _ => rfl
    | with_reducible exact fun _ => ⟨rfl, rfl⟩
    | with_reducible exact rfl
    | with_reducible exact fun _ => Mem.wf_nil
    | (intro _; with_reducible exact memPutBytes_wf _ _ _)
    | with_reducible apply keeps_draw
    | with_reducible apply keeps_updOut
    | with_reducible apply Keeps.id
    | (with_reducible apply Keeps.foldl; intro _ _ _)
    | (with_reducible apply Keeps.foldl_snd; intro _ _ _)
    | (with_reducible apply Keeps.foldl_fst; intro _ _ _)
    | with_reducible apply Keeps.ite
    | split
    | with_reducible apply Keeps.upd
    | with_reducible exact memPutBytes_wf _ _ _
    | with_reducible exact memPutLE_wf _ _ _ _
    | (intro h; with_reducible exact memPuts_wf h)
    | with_reducible exact memPut_wf _ _ _
    | with_reducible exact memClear_wf _ _ _
    | with_reducible exact memKeep_wf _ _
    | exact fun h => absurd h (by omega)
    | intro _ _
    | dsimp only

theorem keeps_outEnd {lv : Nat} {ss0 : State} {s : State} {i : Nat} (hK : Keeps lv ss0 s) :
    Keeps lv ss0 (outEnd s i) := by
  unfold outEnd
  iterate 40 try any_goals first
    | with_reducible assumption
    | with_reducible apply keeps_updOut
    | with_reducible apply keeps_setLane
    | with_reducible apply Keeps.ite

theorem keeps_execOutputSelect (i : Fin 12) (adjusted : Bool) (s : State) : KeepsO 0 s (execOutputSelect i adjusted s) := by
  unfold execOutputSelect
  try dsimp only
  iterate 40 try any_goals first
    | with_reducible apply KeepsO.next
    | with_reducible exact Keeps.refl _ _
    | with_reducible assumption
    | with_reducible exact fun h => h
    | with_reducible exact fun _ h => h
    | with_reducible exact fun _ => rfl
    | with_reducible exact fun _ => ⟨rfl, rfl⟩
    | with_reducible exact rfl
    | with_reducible exact fun _ => Mem.wf_nil
    | (intro _; with_reducible exact memPutBytes_wf _ _ _)
    | with_reducible apply keeps_outEnd
    | with_reducible apply keeps_outFrame
    | with_reducible apply keeps_outSelect
    | with_reducible apply keeps_cadenceBegin
    | with_reducible apply keeps_updOut
    | with_reducible apply keeps_videoFrame
    | with_reducible apply Keeps.id
    | (with_reducible apply Keeps.foldl; intro _ _ _)
    | (with_reducible apply Keeps.foldl_snd; intro _ _ _)
    | (with_reducible apply Keeps.foldl_fst; intro _ _ _)
    | with_reducible apply Keeps.ite
    | split
    | with_reducible apply Keeps.upd
    | with_reducible exact memPutBytes_wf _ _ _
    | with_reducible exact memPutLE_wf _ _ _ _
    | (intro h; with_reducible exact memPuts_wf h)
    | with_reducible exact memPut_wf _ _ _
    | with_reducible exact memClear_wf _ _ _
    | with_reducible exact memKeep_wf _ _
    | exact fun h => absurd h (by omega)
    | intro _ _
    | dsimp only

theorem keeps_outDisable {lv : Nat} {ss0 : State} {s : State} {i : Nat} (hK : Keeps lv ss0 s) :
    Keeps lv ss0 (outDisable s i) := by
  unfold outDisable
  iterate 40 try any_goals first
    | with_reducible assumption
    | with_reducible apply keeps_freeFlow
    | with_reducible apply keeps_outState
    | with_reducible apply keeps_updCadence
    | with_reducible apply keeps_updOut
    | split

theorem card_outSdiCard {lv : Nat}  : Card.Keeps lv outSdiCard := by
  intro n b ss0 s hK
  unfold outSdiCard
  try dsimp only
  iterate 40 try any_goals first
    | with_reducible assumption
    | with_reducible exact fun h => h
    | with_reducible exact fun _ h => h
    | with_reducible exact fun _ => rfl
    | with_reducible exact fun _ => ⟨rfl, rfl⟩
    | with_reducible exact rfl
    | with_reducible exact fun _ => Mem.wf_nil
    | (intro _; with_reducible exact memPutBytes_wf _ _ _)
    | with_reducible apply keeps_outDisable
    | with_reducible apply keeps_updOut
    | with_reducible apply keeps_setLane
    | with_reducible apply Keeps.id
    | (with_reducible apply Keeps.foldl; intro _ _ _)
    | (with_reducible apply Keeps.foldl_snd; intro _ _ _)
    | (with_reducible apply Keeps.foldl_fst; intro _ _ _)
    | with_reducible apply Keeps.ite
    | split
    | with_reducible apply Keeps.upd
    | with_reducible exact memPutBytes_wf _ _ _
    | with_reducible exact memPutLE_wf _ _ _ _
    | (intro h; with_reducible exact memPuts_wf h)
    | with_reducible exact memPut_wf _ _ _
    | with_reducible exact memClear_wf _ _ _
    | with_reducible exact memKeep_wf _ _
    | exact fun h => absurd h (by omega)
    | intro _ _
    | dsimp only

theorem keeps_execOutSdi (n : Fin 40) (s : State) : KeepsO 0 s (execOutSdi n s) :=
  .next (keeps_mbxRun card_outSdiCard (.refl _ _))

theorem card_out2110Card {lv : Nat}  : Card.Keeps lv out2110Card := by
  intro n b ss0 s hK
  unfold out2110Card
  try dsimp only
  iterate 40 try any_goals first
    | with_reducible assumption
    | with_reducible exact fun h => h
    | with_reducible exact fun _ h => h
    | with_reducible exact fun _ => rfl
    | with_reducible exact fun _ => ⟨rfl, rfl⟩
    | with_reducible exact rfl
    | with_reducible exact fun _ => Mem.wf_nil
    | (intro _; with_reducible exact memPutBytes_wf _ _ _)
    | with_reducible apply keeps_outDisable
    | with_reducible apply keeps_draw
    | with_reducible apply keeps_allocFlow
    | with_reducible apply keeps_updOut
    | with_reducible apply keeps_outState
    | with_reducible apply Keeps.id
    | (with_reducible apply Keeps.foldl; intro _ _ _)
    | (with_reducible apply Keeps.foldl_snd; intro _ _ _)
    | (with_reducible apply Keeps.foldl_fst; intro _ _ _)
    | with_reducible apply Keeps.ite
    | split
    | with_reducible apply Keeps.upd
    | with_reducible exact memPutBytes_wf _ _ _
    | with_reducible exact memPutLE_wf _ _ _ _
    | (intro h; with_reducible exact memPuts_wf h)
    | with_reducible exact memPut_wf _ _ _
    | with_reducible exact memClear_wf _ _ _
    | with_reducible exact memKeep_wf _ _
    | exact fun h => absurd h (by omega)
    | intro _ _
    | dsimp only

theorem keeps_execOut2110 (n : Fin 40) (s : State) : KeepsO 0 s (execOut2110 n s) :=
  .next (keeps_mbxRun card_out2110Card (.refl _ _))

theorem card_outEthPortCard {lv : Nat}  : Card.Keeps lv outEthPortCard := by
  intro n b ss0 s hK
  unfold outEthPortCard
  iterate 40 try any_goals first
    | with_reducible assumption
    | with_reducible apply keeps_ethLink
    | with_reducible apply keeps_updEth
    | with_reducible apply keeps_setLane
    | with_reducible apply Keeps.ite

theorem keeps_execOutEthPort (n : Fin 40) (s : State) : KeepsO 0 s (execOutEthPort n s) :=
  .next (keeps_mbxRun card_outEthPortCard (.refl _ _))

theorem card_outStatusCard {lv : Nat}  : Card.Keeps lv outStatusCard := by
  intro n b ss0 s hK
  unfold outStatusCard
  iterate 40 try any_goals first
    | with_reducible assumption
    | with_reducible exact fun h => h
    | with_reducible exact fun _ => rfl
    | with_reducible exact fun _ => ⟨rfl, rfl⟩
    | with_reducible exact rfl
    | with_reducible apply Keeps.ite
    | with_reducible apply Keeps.upd

theorem keeps_execOutStatus (n : Fin 40) (s : State) : KeepsO 0 s (execOutStatus n s) :=
  .next (keeps_mbxRun card_outStatusCard (.refl _ _))

theorem keeps_execEthPortDown (e : Fin 2) (s : State) : KeepsO 0 s (execEthPortDown e s) := by
  unfold execEthPortDown
  iterate 40 try any_goals with_reducible first | apply KeepsO.next | exact Keeps.refl _ _ | apply keeps_ethLink

theorem keeps_execEthPortUp (e : Fin 2) (s : State) : KeepsO 0 s (execEthPortUp e s) := by
  unfold execEthPortUp
  iterate 40 try any_goals first
    | with_reducible apply KeepsO.next
    | with_reducible exact Keeps.refl _ _
    | with_reducible apply keeps_ethLink
    | with_reducible apply Keeps.ite

/-! ## Display -/

theorem keeps_updDisp {lv : Nat} {ss0 : State} {s : State} {f : Display → Display} (hK : Keeps lv ss0 s) :
    Keeps lv ss0 (updDisp s f) := by
  unfold updDisp
  iterate 40 try any_goals first
    | with_reducible assumption
    | with_reducible exact fun h => h
    | with_reducible exact fun _ => rfl
    | with_reducible exact fun _ => ⟨rfl, rfl⟩
    | with_reducible exact rfl
    | with_reducible apply Keeps.upd

theorem keeps_composeLine {lv : Nat} {ss0 : State} {s : State} {y : Nat} (hK : Keeps lv ss0 s) :
    Keeps lv ss0 (composeLine s y) := by
  unfold composeLine
  try dsimp only
  iterate 40 try any_goals first
    | with_reducible assumption
    | with_reducible exact fun h => h
    | with_reducible exact fun _ h => h
    | with_reducible exact fun _ => rfl
    | with_reducible exact fun _ => ⟨rfl, rfl⟩
    | with_reducible exact rfl
    | with_reducible exact fun _ => Mem.wf_nil
    | (intro _; with_reducible exact memPutBytes_wf _ _ _)
    | with_reducible apply keeps_updDisp
    | with_reducible apply Keeps.id
    | (with_reducible apply Keeps.foldl; intro _ _ _)
    | (with_reducible apply Keeps.foldl_snd; intro _ _ _)
    | (with_reducible apply Keeps.foldl_fst; intro _ _ _)
    | with_reducible apply Keeps.ite
    | split
    | with_reducible apply Keeps.upd
    | with_reducible exact memPutBytes_wf _ _ _
    | with_reducible exact memPutLE_wf _ _ _ _
    | (intro h; with_reducible exact memPuts_wf h)
    | with_reducible exact memPut_wf _ _ _
    | with_reducible exact memClear_wf _ _ _
    | with_reducible exact memKeep_wf _ _
    | exact fun h => absurd h (by omega)
    | intro _ _
    | dsimp only

theorem keeps_composeReady {lv : Nat} {ss0 : State} {s : State} (hK : Keeps lv ss0 s) :
    Keeps lv ss0 (composeReady s) := by
  unfold composeReady
  iterate 40 try any_goals first
    | with_reducible assumption
    | with_reducible apply keeps_composeLine
    | (with_reducible apply Keeps.foldl; intro _ _ _)
    | with_reducible apply Keeps.ite

theorem keeps_layerOff {lv : Nat} {ss0 : State} {s : State} {l : Nat} {y : Nat} {tell : State → State} (htell : ∀ z0, Keeps lv ss0 z0 → Keeps lv ss0 (tell z0))
    (hK : Keeps lv ss0 s) :
    Keeps lv ss0 (layerOff s l y tell) := by
  unfold layerOff
  try dsimp only
  iterate 40 try any_goals first
    | with_reducible assumption
    | with_reducible apply htell
    | with_reducible exact fun h => h
    | with_reducible exact fun _ h => h
    | with_reducible exact fun _ => rfl
    | with_reducible exact fun _ => ⟨rfl, rfl⟩
    | with_reducible exact rfl
    | with_reducible exact fun _ => Mem.wf_nil
    | (intro _; with_reducible exact memPutBytes_wf _ _ _)
    | with_reducible apply keeps_updDisp
    | with_reducible apply Keeps.id
    | (with_reducible apply Keeps.foldl; intro _ _ _)
    | (with_reducible apply Keeps.foldl_snd; intro _ _ _)
    | (with_reducible apply Keeps.foldl_fst; intro _ _ _)
    | with_reducible apply Keeps.ite
    | split
    | with_reducible apply Keeps.upd
    | with_reducible exact memPutBytes_wf _ _ _
    | with_reducible exact memPutLE_wf _ _ _ _
    | (intro h; with_reducible exact memPuts_wf h)
    | with_reducible exact memPut_wf _ _ _
    | with_reducible exact memClear_wf _ _ _
    | with_reducible exact memKeep_wf _ _
    | exact fun h => absurd h (by omega)
    | intro _ _
    | dsimp only

theorem keeps_execLayerBurst (layer : Fin 4) (line : Fin 1600) (burst : Fin 3) (s : State) : KeepsO 0 s (execLayerBurst layer line burst s) := by
  unfold execLayerBurst
  try dsimp only
  iterate 40 try any_goals first
    | with_reducible apply KeepsO.next
    | with_reducible exact Keeps.refl _ _
    | with_reducible assumption
    | with_reducible exact fun h => h
    | with_reducible exact fun _ h => h
    | with_reducible exact fun _ => rfl
    | with_reducible exact fun _ => ⟨rfl, rfl⟩
    | with_reducible exact rfl
    | with_reducible exact fun _ => Mem.wf_nil
    | (intro _; with_reducible exact memPutBytes_wf _ _ _)
    | with_reducible apply keeps_composeReady
    | with_reducible apply keeps_layerOff
    | with_reducible apply keeps_notify
    | with_reducible apply keeps_updDisp
    | with_reducible apply Keeps.id
    | (with_reducible apply Keeps.foldl; intro _ _ _)
    | (with_reducible apply Keeps.foldl_snd; intro _ _ _)
    | (with_reducible apply Keeps.foldl_fst; intro _ _ _)
    | with_reducible apply Keeps.ite
    | split
    | with_reducible apply Keeps.upd
    | with_reducible exact memPutBytes_wf _ _ _
    | with_reducible exact memPutLE_wf _ _ _ _
    | (intro h; with_reducible exact memPuts_wf h)
    | with_reducible exact memPut_wf _ _ _
    | with_reducible exact memClear_wf _ _ _
    | with_reducible exact memKeep_wf _ _
    | exact fun h => absurd h (by omega)
    | intro _ _
    | dsimp only

theorem keeps_execComposeDeadline (line : Fin 1600) (late : List (BitVec 32)) (s : State) : KeepsO 0 s (execComposeDeadline line late s) := by
  unfold execComposeDeadline
  try dsimp only
  iterate 40 try any_goals first
    | with_reducible apply KeepsO.next
    | with_reducible exact Keeps.refl _ _
    | with_reducible assumption
    | with_reducible exact fun h => h
    | with_reducible exact fun _ h => h
    | with_reducible exact fun _ => rfl
    | with_reducible exact fun _ => ⟨rfl, rfl⟩
    | with_reducible exact rfl
    | with_reducible exact fun _ => Mem.wf_nil
    | (intro _; with_reducible exact memPutBytes_wf _ _ _)
    | with_reducible apply keeps_layerOff
    | with_reducible apply keeps_notify
    | with_reducible apply keeps_updDisp
    | with_reducible apply keeps_composeReady
    | with_reducible apply Keeps.id
    | (with_reducible apply Keeps.foldl; intro _ _ _)
    | (with_reducible apply Keeps.foldl_snd; intro _ _ _)
    | (with_reducible apply Keeps.foldl_fst; intro _ _ _)
    | with_reducible apply Keeps.ite
    | split
    | with_reducible apply Keeps.upd
    | with_reducible exact memPutBytes_wf _ _ _
    | with_reducible exact memPutLE_wf _ _ _ _
    | (intro h; with_reducible exact memPuts_wf h)
    | with_reducible exact memPut_wf _ _ _
    | with_reducible exact memClear_wf _ _ _
    | with_reducible exact memKeep_wf _ _
    | exact fun h => absurd h (by omega)
    | intro _ _
    | dsimp only

theorem keeps_lineStart {lv : Nat} {ss0 : State} {s : State} {k : Nat} (hK : Keeps lv ss0 s) :
    Keeps lv ss0 (lineStart s k) := by
  unfold lineStart
  iterate 40 try any_goals first
    | with_reducible assumption
    | with_reducible apply keeps_updDisp
    | with_reducible apply keeps_notify
    | with_reducible apply Keeps.ite

theorem keeps_scanStop {lv : Nat} {ss0 : State} {s : State} (hK : Keeps lv ss0 s) :
    Keeps lv ss0 (scanStop s) := by
  unfold scanStop
  iterate 40 try any_goals with_reducible first | assumption | apply keeps_updDisp

theorem keeps_execDisplayLine (s : State) : KeepsO 0 s (execDisplayLine s) := by
  unfold execDisplayLine
  try dsimp only
  iterate 40 try any_goals first
    | with_reducible apply KeepsO.next
    | with_reducible exact Keeps.refl _ _
    | with_reducible assumption
    | with_reducible exact fun h => h
    | with_reducible exact fun _ h => h
    | with_reducible exact fun _ => rfl
    | with_reducible exact fun _ => ⟨rfl, rfl⟩
    | with_reducible exact rfl
    | with_reducible exact fun _ => Mem.wf_nil
    | (intro _; with_reducible exact memPutBytes_wf _ _ _)
    | with_reducible apply keeps_scanStop
    | with_reducible apply keeps_cadenceBegin
    | with_reducible apply keeps_lineStart
    | with_reducible apply keeps_updDisp
    | with_reducible apply keeps_composeReady
    | with_reducible apply Keeps.id
    | (with_reducible apply Keeps.foldl; intro _ _ _)
    | (with_reducible apply Keeps.foldl_snd; intro _ _ _)
    | (with_reducible apply Keeps.foldl_fst; intro _ _ _)
    | with_reducible apply Keeps.ite
    | split
    | with_reducible apply Keeps.upd
    | with_reducible exact memPutBytes_wf _ _ _
    | with_reducible exact memPutLE_wf _ _ _ _
    | (intro h; with_reducible exact memPuts_wf h)
    | with_reducible exact memPut_wf _ _ _
    | with_reducible exact memClear_wf _ _ _
    | with_reducible exact memKeep_wf _ _
    | exact fun h => absurd h (by omega)
    | intro _ _
    | dsimp only

theorem keeps_chooseVideo {lv : Nat} {ss0 : State} {s : State} (hK : Keeps lv ss0 s) :
    Keeps lv ss0 (chooseVideo s) := by
  unfold chooseVideo
  try dsimp only
  iterate 40 try any_goals with_reducible first | assumption | apply keeps_updDisp | apply Keeps.ite | split

theorem keeps_dcsSend {lv : Nat} {ss0 : State} {s : State} (hK : Keeps lv ss0 s) :
    Keeps lv ss0 (dcsSend s) := by
  unfold dcsSend
  try dsimp only
  iterate 40 try any_goals first
    | with_reducible assumption
    | with_reducible exact fun h => h
    | with_reducible exact fun _ h => h
    | with_reducible exact fun _ => rfl
    | with_reducible exact fun _ => ⟨rfl, rfl⟩
    | with_reducible exact rfl
    | with_reducible exact fun _ => Mem.wf_nil
    | (intro _; with_reducible exact memPutBytes_wf _ _ _)
    | with_reducible apply keeps_mbxOk
    | with_reducible apply keeps_updDisp
    | with_reducible apply Keeps.id
    | (with_reducible apply Keeps.foldl; intro _ _ _)
    | (with_reducible apply Keeps.foldl_snd; intro _ _ _)
    | (with_reducible apply Keeps.foldl_fst; intro _ _ _)
    | with_reducible apply Keeps.ite
    | split
    | with_reducible apply Keeps.upd
    | with_reducible exact memPutBytes_wf _ _ _
    | with_reducible exact memPutLE_wf _ _ _ _
    | (intro h; with_reducible exact memPuts_wf h)
    | with_reducible exact memPut_wf _ _ _
    | with_reducible exact memClear_wf _ _ _
    | with_reducible exact memKeep_wf _ _
    | exact fun h => absurd h (by omega)
    | intro _ _
    | dsimp only

theorem keeps_execDisplayVblank (s : State) : KeepsO 0 s (execDisplayVblank s) := by
  unfold execDisplayVblank
  try dsimp only
  iterate 40 try any_goals first
    | with_reducible apply KeepsO.next
    | with_reducible exact Keeps.refl _ _
    | with_reducible apply keeps_updDisp
    | with_reducible apply keeps_chooseVideo
    | with_reducible apply keeps_lineStart
    | with_reducible apply keeps_notify
    | with_reducible apply keeps_dcsSend
    | with_reducible apply keeps_composeReady
    | with_reducible apply keeps_setLeaf
    | with_reducible apply Keeps.ite
    | split

theorem keeps_execDisplayFrameCrc (crc0 : BitVec 32) (crc1 : BitVec 32) (s : State) : KeepsO 0 s (execDisplayFrameCrc crc0 crc1 s) := by
  unfold execDisplayFrameCrc
  try dsimp only
  iterate 40 try any_goals first
    | with_reducible apply KeepsO.next
    | with_reducible exact Keeps.refl _ _
    | with_reducible apply keeps_notify
    | with_reducible apply keeps_updDisp
    | with_reducible apply keeps_setLeaf
    | with_reducible apply Keeps.ite
    | split

theorem keeps_dispApply {lv : Nat} {ss0 : State} {s : State} {b : Body} (hK : Keeps lv ss0 s) :
    Keeps lv ss0 (dispApply s b) := by
  unfold dispApply
  try dsimp only
  iterate 40 try any_goals first
    | with_reducible assumption
    | with_reducible exact fun h => h
    | with_reducible exact fun _ h => h
    | with_reducible exact fun _ => rfl
    | with_reducible exact fun _ => ⟨rfl, rfl⟩
    | with_reducible exact rfl
    | with_reducible exact fun _ => Mem.wf_nil
    | (intro _; with_reducible exact memPutBytes_wf _ _ _)
    | with_reducible apply keeps_updDisp
    | with_reducible apply keeps_dcsSend
    | with_reducible apply keeps_scanStop
    | with_reducible apply Keeps.id
    | (with_reducible apply Keeps.foldl; intro _ _ _)
    | (with_reducible apply Keeps.foldl_snd; intro _ _ _)
    | (with_reducible apply Keeps.foldl_fst; intro _ _ _)
    | with_reducible apply Keeps.ite
    | split
    | with_reducible apply Keeps.upd
    | with_reducible exact memPutBytes_wf _ _ _
    | with_reducible exact memPutLE_wf _ _ _ _
    | (intro h; with_reducible exact memPuts_wf h)
    | with_reducible exact memPut_wf _ _ _
    | with_reducible exact memClear_wf _ _ _
    | with_reducible exact memKeep_wf _ _
    | exact fun h => absurd h (by omega)
    | intro _ _
    | dsimp only

theorem card_dispConfigCard {lv : Nat}  : Card.Keeps lv dispConfigCard := by
  intro n b ss0 s hK
  unfold dispConfigCard
  iterate 40 try any_goals with_reducible first | assumption | apply keeps_dispApply

theorem keeps_execDispConfig (n : Fin 40) (s : State) : KeepsO 0 s (execDispConfig n s) :=
  .next (keeps_mbxRun card_dispConfigCard (.refl _ _))

theorem card_dispLayerCard {lv : Nat}  : Card.Keeps lv dispLayerCard := by
  intro n b ss0 s hK
  unfold dispLayerCard
  iterate 40 try any_goals with_reducible first | assumption | apply keeps_updDisp

theorem keeps_execDispLayer (n : Fin 40) (s : State) : KeepsO 0 s (execDispLayer n s) :=
  .next (keeps_mbxRun card_dispLayerCard (.refl _ _))

theorem card_dispCommitCard {lv : Nat}  : Card.Keeps lv dispCommitCard := by
  intro n b ss0 s hK
  unfold dispCommitCard
  try dsimp only
  iterate 40 try any_goals first
    | with_reducible assumption
    | with_reducible exact fun h => h
    | with_reducible exact fun _ h => h
    | with_reducible exact fun _ => rfl
    | with_reducible exact fun _ => ⟨rfl, rfl⟩
    | with_reducible exact rfl
    | with_reducible exact fun _ => Mem.wf_nil
    | (intro _; with_reducible exact memPutBytes_wf _ _ _)
    | with_reducible apply keeps_updDisp
    | with_reducible apply keeps_notify
    | with_reducible apply Keeps.id
    | (with_reducible apply Keeps.foldl; intro _ _ _)
    | (with_reducible apply Keeps.foldl_snd; intro _ _ _)
    | (with_reducible apply Keeps.foldl_fst; intro _ _ _)
    | with_reducible apply Keeps.ite
    | split
    | with_reducible apply Keeps.upd
    | with_reducible exact memPutBytes_wf _ _ _
    | with_reducible exact memPutLE_wf _ _ _ _
    | (intro h; with_reducible exact memPuts_wf h)
    | with_reducible exact memPut_wf _ _ _
    | with_reducible exact memClear_wf _ _ _
    | with_reducible exact memKeep_wf _ _
    | exact fun h => absurd h (by omega)
    | intro _ _
    | dsimp only

theorem keeps_execDispCommit (n : Fin 40) (s : State) : KeepsO 0 s (execDispCommit n s) :=
  .next (keeps_mbxRun card_dispCommitCard (.refl _ _))

theorem card_dispDcsCard {lv : Nat} {r0 : DcsResult} {r1 : DcsResult} : Card.Keeps lv (dispDcsCard r0 r1) := by
  intro n b ss0 s hK
  unfold dispDcsCard
  try dsimp only
  iterate 40 try any_goals first
    | with_reducible assumption
    | with_reducible exact fun h => h
    | with_reducible exact fun _ h => h
    | with_reducible exact fun _ => rfl
    | with_reducible exact fun _ => ⟨rfl, rfl⟩
    | with_reducible exact rfl
    | with_reducible exact fun _ => Mem.wf_nil
    | (intro _; with_reducible exact memPutBytes_wf _ _ _)
    | with_reducible apply keeps_updDisp
    | with_reducible apply Keeps.id
    | (with_reducible apply Keeps.foldl; intro _ _ _)
    | (with_reducible apply Keeps.foldl_snd; intro _ _ _)
    | (with_reducible apply Keeps.foldl_fst; intro _ _ _)
    | with_reducible apply Keeps.ite
    | split
    | with_reducible apply Keeps.upd
    | with_reducible exact memPutBytes_wf _ _ _
    | with_reducible exact memPutLE_wf _ _ _ _
    | (intro h; with_reducible exact memPuts_wf h)
    | with_reducible exact memPut_wf _ _ _
    | with_reducible exact memClear_wf _ _ _
    | with_reducible exact memKeep_wf _ _
    | exact fun h => absurd h (by omega)
    | intro _ _
    | dsimp only

theorem keeps_execDispDcs (n : Fin 40) (r0 : DcsResult) (r1 : DcsResult) (s : State) : KeepsO 0 s (execDispDcs n r0 r1 s) :=
  .next (keeps_mbxRun card_dispDcsCard (.refl _ _))

theorem card_dispStatusCard {lv : Nat}  : Card.Keeps lv dispStatusCard := by
  intro n b ss0 s hK
  unfold dispStatusCard
  iterate 40 try any_goals with_reducible first | assumption | apply keeps_updDisp | apply Keeps.ite

theorem keeps_execDispStatus (n : Fin 40) (s : State) : KeepsO 0 s (execDispStatus n s) :=
  .next (keeps_mbxRun card_dispStatusCard (.refl _ _))

/-! ## AudOps -/

theorem keeps_updAud {lv : Nat} {ss0 : State} {s : State} {f : Audio → Audio} (hK : Keeps lv ss0 s) :
    Keeps lv ss0 (updAud s f) := by
  unfold updAud
  iterate 40 try any_goals first
    | with_reducible assumption
    | with_reducible exact fun h => h
    | with_reducible exact fun _ => rfl
    | with_reducible exact fun _ => ⟨rfl, rfl⟩
    | with_reducible exact rfl
    | with_reducible apply Keeps.upd

theorem keeps_updAudPort {lv : Nat} {ss0 : State} {s : State} {k : Nat} {f : AudPort → AudPort} (hK : Keeps lv ss0 s) :
    Keeps lv ss0 (updAudPort s k f) := by
  unfold updAudPort
  iterate 40 try any_goals with_reducible first | assumption | apply keeps_updAud

theorem keeps_updAudChan {lv : Nat} {ss0 : State} {s : State} {c : Nat} {f : AudChan → AudChan} (hK : Keeps lv ss0 s) :
    Keeps lv ss0 (updAudChan s c f) := by
  unfold updAudChan
  iterate 40 try any_goals with_reducible first | assumption | apply keeps_updAud

theorem keeps_slip {lv : Nat} {ss0 : State} {s : State} {k : Nat} {drop : Bool} (hK : Keeps lv ss0 s) :
    Keeps lv ss0 (slip s k drop) := by
  unfold slip
  iterate 40 try any_goals first
    | with_reducible assumption
    | with_reducible apply keeps_updAudPort
    | with_reducible apply keeps_notify
    | with_reducible apply Keeps.ite

theorem keeps_bufWrite {lv : Nat} {ss0 : State} {s : State} {k : Nat} {f : SlotFrame} (hK : Keeps lv ss0 s) :
    Keeps lv ss0 (bufWrite s k f) := by
  unfold bufWrite
  try dsimp only
  iterate 40 try any_goals first
    | with_reducible assumption
    | with_reducible exact fun h => h
    | with_reducible exact fun _ h => h
    | with_reducible exact fun _ => rfl
    | with_reducible exact fun _ => ⟨rfl, rfl⟩
    | with_reducible exact rfl
    | with_reducible exact fun _ => Mem.wf_nil
    | (intro _; with_reducible exact memPutBytes_wf _ _ _)
    | with_reducible apply keeps_updAudPort
    | with_reducible apply keeps_slip
    | with_reducible apply Keeps.id
    | (with_reducible apply Keeps.foldl; intro _ _ _)
    | (with_reducible apply Keeps.foldl_snd; intro _ _ _)
    | (with_reducible apply Keeps.foldl_fst; intro _ _ _)
    | with_reducible apply Keeps.ite
    | split
    | with_reducible apply Keeps.upd
    | with_reducible exact memPutBytes_wf _ _ _
    | with_reducible exact memPutLE_wf _ _ _ _
    | (intro h; with_reducible exact memPuts_wf h)
    | with_reducible exact memPut_wf _ _ _
    | with_reducible exact memClear_wf _ _ _
    | with_reducible exact memKeep_wf _ _
    | exact fun h => absurd h (by omega)
    | intro _ _
    | dsimp only

theorem keeps_bufRead {lv : Nat} {ss0 : State} {s : State} {k : Nat} (hK : Keeps lv ss0 s) :
    Keeps lv ss0 ((bufRead s k).2) := by
  unfold bufRead
  try dsimp only
  iterate 40 try any_goals first
    | with_reducible assumption
    | with_reducible exact fun h => h
    | with_reducible exact fun _ h => h
    | with_reducible exact fun _ => rfl
    | with_reducible exact fun _ => ⟨rfl, rfl⟩
    | with_reducible exact rfl
    | with_reducible exact fun _ => Mem.wf_nil
    | (intro _; with_reducible exact memPutBytes_wf _ _ _)
    | with_reducible apply keeps_updAudPort
    | with_reducible apply keeps_slip
    | with_reducible apply Keeps.id
    | (with_reducible apply Keeps.foldl; intro _ _ _)
    | (with_reducible apply Keeps.foldl_snd; intro _ _ _)
    | (with_reducible apply Keeps.foldl_fst; intro _ _ _)
    | with_reducible apply Keeps.ite
    | split
    | with_reducible apply Keeps.upd
    | with_reducible exact memPutBytes_wf _ _ _
    | with_reducible exact memPutLE_wf _ _ _ _
    | (intro h; with_reducible exact memPuts_wf h)
    | with_reducible exact memPut_wf _ _ _
    | with_reducible exact memClear_wf _ _ _
    | with_reducible exact memKeep_wf _ _
    | exact fun h => absurd h (by omega)
    | intro _ _
    | dsimp only

theorem keeps_appliedEvent {lv : Nat} {ss0 : State} {s : State} {source : Nat} {cause : Nat} {replaced : Nat} {t : Nat} (hK : Keeps lv ss0 s) :
    Keeps lv ss0 (appliedEvent s source cause replaced t) := by
  unfold appliedEvent
  iterate 40 try any_goals with_reducible first | assumption | apply keeps_notify

theorem keeps_maskApply {lv : Nat} {ss0 : State} {s : State} {k : Nat} {t : Nat} (hK : Keeps lv ss0 s) :
    Keeps lv ss0 (maskApply s k t) := by
  unfold maskApply
  iterate 40 try any_goals first
    | with_reducible assumption
    | with_reducible apply keeps_appliedEvent
    | with_reducible apply keeps_updAudPort
    | split

theorem keeps_maskFrame {lv : Nat} {ss0 : State} {s : State} {k : Nat} {t : Nat} {soon : Bool} (hK : Keeps lv ss0 s) :
    Keeps lv ss0 (maskFrame s k t soon) := by
  unfold maskFrame
  iterate 40 try any_goals first
    | with_reducible assumption
    | with_reducible apply keeps_updAudPort
    | with_reducible apply keeps_maskApply
    | with_reducible apply Keeps.ite
    | split

theorem keeps_maskCrossings {lv : Nat} {ss0 : State} {s : State} {crossed : List Nat} (hK : Keeps lv ss0 s) :
    Keeps lv ss0 (maskCrossings s crossed) := by
  unfold maskCrossings
  try dsimp only
  iterate 40 try any_goals first
    | with_reducible assumption
    | with_reducible exact fun h => h
    | with_reducible exact fun _ h => h
    | with_reducible exact fun _ => rfl
    | with_reducible exact fun _ => ⟨rfl, rfl⟩
    | with_reducible exact rfl
    | with_reducible exact fun _ => Mem.wf_nil
    | (intro _; with_reducible exact memPutBytes_wf _ _ _)
    | with_reducible apply keeps_updAudPort
    | with_reducible apply Keeps.id
    | (with_reducible apply Keeps.foldl; intro _ _ _)
    | (with_reducible apply Keeps.foldl_snd; intro _ _ _)
    | (with_reducible apply Keeps.foldl_fst; intro _ _ _)
    | with_reducible apply Keeps.ite
    | split
    | with_reducible apply Keeps.upd
    | with_reducible exact memPutBytes_wf _ _ _
    | with_reducible exact memPutLE_wf _ _ _ _
    | (intro h; with_reducible exact memPuts_wf h)
    | with_reducible exact memPut_wf _ _ _
    | with_reducible exact memClear_wf _ _ _
    | with_reducible exact memKeep_wf _ _
    | exact fun h => absurd h (by omega)
    | intro _ _
    | dsimp only

theorem keeps_gainApply {lv : Nat} {ss0 : State} {s : State} {c : Nat} {cause : Nat} {t : Nat} (hK : Keeps lv ss0 s) :
    Keeps lv ss0 (gainApply s c cause t) := by
  unfold gainApply
  iterate 40 try any_goals first
    | with_reducible assumption
    | with_reducible apply keeps_appliedEvent
    | with_reducible apply keeps_updAudChan
    | split

theorem keeps_faultUnmute {lv : Nat} {ss0 : State} {s : State} {c : Nat} {cause : Nat} {t : Nat} (hK : Keeps lv ss0 s) :
    Keeps lv ss0 (faultUnmute s c cause t) := by
  unfold faultUnmute
  iterate 40 try any_goals first
    | with_reducible assumption
    | with_reducible apply keeps_appliedEvent
    | with_reducible apply keeps_updAudChan
    | with_reducible apply Keeps.ite

theorem keeps_chanSample {lv : Nat} {ss0 : State} {s : State} {c : Nat} {x : Int} {live : Bool} {t : Nat} (hK : Keeps lv ss0 s) :
    Keeps lv ss0 ((chanSample s c x live t).2) := by
  unfold chanSample
  try dsimp only
  iterate 40 try any_goals first
    | with_reducible assumption
    | with_reducible exact fun h => h
    | with_reducible exact fun _ h => h
    | with_reducible exact fun _ => rfl
    | with_reducible exact fun _ => ⟨rfl, rfl⟩
    | with_reducible exact rfl
    | with_reducible exact fun _ => Mem.wf_nil
    | (intro _; with_reducible exact memPutBytes_wf _ _ _)
    | with_reducible apply keeps_faultUnmute
    | with_reducible apply keeps_gainApply
    | with_reducible apply keeps_updAudChan
    | with_reducible apply Keeps.id
    | (with_reducible apply Keeps.foldl; intro _ _ _)
    | (with_reducible apply Keeps.foldl_snd; intro _ _ _)
    | (with_reducible apply Keeps.foldl_fst; intro _ _ _)
    | with_reducible apply Keeps.ite
    | split
    | with_reducible apply Keeps.upd
    | with_reducible exact memPutBytes_wf _ _ _
    | with_reducible exact memPutLE_wf _ _ _ _
    | (intro h; with_reducible exact memPuts_wf h)
    | with_reducible exact memPut_wf _ _ _
    | with_reducible exact memClear_wf _ _ _
    | with_reducible exact memKeep_wf _ _
    | exact fun h => absurd h (by omega)
    | intro _ _
    | dsimp only

theorem keeps_audStop {lv : Nat} {ss0 : State} {s : State} {m : Nat} {t : Nat} (hK : Keeps lv ss0 s) :
    Keeps lv ss0 (audStop s m t) := by
  unfold audStop
  iterate 40 try any_goals first
    | with_reducible assumption
    | with_reducible apply keeps_updAud
    | with_reducible apply keeps_updAudChan
    | with_reducible apply keeps_gainApply
    | with_reducible apply keeps_updAudPort
    | with_reducible apply keeps_maskApply
    | (with_reducible apply Keeps.foldl; intro _ _ _)
    | with_reducible apply Keeps.ite

theorem keeps_audStops {lv : Nat} {ss0 : State} {s : State} {t : Nat} (hK : Keeps lv ss0 s) :
    Keeps lv ss0 (audStops s t) := by
  unfold audStops
  try dsimp only
  iterate 40 try any_goals first
    | with_reducible assumption
    | with_reducible exact fun h => h
    | with_reducible exact fun _ h => h
    | with_reducible exact fun _ => rfl
    | with_reducible exact fun _ => ⟨rfl, rfl⟩
    | with_reducible exact rfl
    | with_reducible exact fun _ => Mem.wf_nil
    | (intro _; with_reducible exact memPutBytes_wf _ _ _)
    | with_reducible apply keeps_audStop
    | with_reducible apply keeps_updAud
    | with_reducible apply Keeps.id
    | (with_reducible apply Keeps.foldl; intro _ _ _)
    | (with_reducible apply Keeps.foldl_snd; intro _ _ _)
    | (with_reducible apply Keeps.foldl_fst; intro _ _ _)
    | with_reducible apply Keeps.ite
    | split
    | with_reducible apply Keeps.upd
    | with_reducible exact memPutBytes_wf _ _ _
    | with_reducible exact memPutLE_wf _ _ _ _
    | (intro h; with_reducible exact memPuts_wf h)
    | with_reducible exact memPut_wf _ _ _
    | with_reducible exact memClear_wf _ _ _
    | with_reducible exact memKeep_wf _ _
    | exact fun h => absurd h (by omega)
    | intro _ _
    | dsimp only

theorem keeps_audStarts {lv : Nat} {ss0 : State} {s : State} {t : Nat} (hK : Keeps lv ss0 s) :
    Keeps lv ss0 (audStarts s t) := by
  unfold audStarts
  iterate 40 try any_goals first
    | with_reducible assumption
    | with_reducible apply keeps_notify
    | with_reducible apply keeps_updAud
    | (with_reducible apply Keeps.foldl; intro _ _ _)

theorem keeps_audConsumers {lv : Nat} {ss0 : State} {s : State} {j : Nat} (hK : Keeps lv ss0 s) :
    Keeps lv ss0 (audConsumers s j) := by
  unfold audConsumers
  iterate 40 try any_goals first
    | with_reducible assumption
    | with_reducible apply keeps_recAudioSample
    | with_reducible apply keeps_audioPackets
    | (with_reducible apply Keeps.foldl; intro _ _ _)
    | with_reducible apply Keeps.ite

/-! ## Audio -/

theorem keeps_micStrobe {lv : Nat} {ss0 : State} {s : State} {bits : List (List Bool)} (hK : Keeps lv ss0 s) :
    Keeps lv ss0 (micStrobe s bits) := by
  unfold micStrobe
  iterate 40 try any_goals with_reducible first | assumption | apply keeps_updAud

theorem keeps_portInputs {lv : Nat} {ss0 : State} {s : State} {rx : List (List (BitVec 24))} (hK : Keeps lv ss0 s) :
    Keeps lv ss0 ((portInputs s rx).2) := by
  unfold portInputs
  try dsimp only
  iterate 40 try any_goals first
    | with_reducible assumption
    | with_reducible exact fun h => h
    | with_reducible exact fun _ h => h
    | with_reducible exact fun _ => rfl
    | with_reducible exact fun _ => ⟨rfl, rfl⟩
    | with_reducible exact rfl
    | with_reducible exact fun _ => Mem.wf_nil
    | (intro _; with_reducible exact memPutBytes_wf _ _ _)
    | with_reducible apply keeps_bufRead
    | with_reducible apply Keeps.id
    | (with_reducible apply Keeps.foldl; intro _ _ _)
    | (with_reducible apply Keeps.foldl_snd; intro _ _ _)
    | (with_reducible apply Keeps.foldl_fst; intro _ _ _)
    | with_reducible apply Keeps.ite
    | split
    | with_reducible apply Keeps.upd
    | with_reducible exact memPutBytes_wf _ _ _
    | with_reducible exact memPutLE_wf _ _ _ _
    | (intro h; with_reducible exact memPuts_wf h)
    | with_reducible exact memPut_wf _ _ _
    | with_reducible exact memClear_wf _ _ _
    | with_reducible exact memKeep_wf _ _
    | exact fun h => absurd h (by omega)
    | intro _ _
    | dsimp only

theorem keeps_channelInputs {lv : Nat} {ss0 : State} {s : State} {frames : List SlotFrame} {t : Nat} (hK : Keeps lv ss0 s) :
    Keeps lv ss0 ((channelInputs s frames t).2) := by
  unfold channelInputs
  try dsimp only
  iterate 40 try any_goals first
    | with_reducible assumption
    | with_reducible exact fun h => h
    | with_reducible exact fun _ h => h
    | with_reducible exact fun _ => rfl
    | with_reducible exact fun _ => ⟨rfl, rfl⟩
    | with_reducible exact rfl
    | with_reducible exact fun _ => Mem.wf_nil
    | (intro _; with_reducible exact memPutBytes_wf _ _ _)
    | with_reducible apply keeps_chanSample
    | with_reducible apply Keeps.id
    | (with_reducible apply Keeps.foldl; intro _ _ _)
    | (with_reducible apply Keeps.foldl_snd; intro _ _ _)
    | (with_reducible apply Keeps.foldl_fst; intro _ _ _)
    | with_reducible apply Keeps.ite
    | split
    | with_reducible apply Keeps.upd
    | with_reducible exact memPutBytes_wf _ _ _
    | with_reducible exact memPutLE_wf _ _ _ _
    | (intro h; with_reducible exact memPuts_wf h)
    | with_reducible exact memPut_wf _ _ _
    | with_reducible exact memClear_wf _ _ _
    | with_reducible exact memKeep_wf _ _
    | exact fun h => absurd h (by omega)
    | intro _ _
    | dsimp only

theorem keeps_portOutputs {lv : Nat} {ss0 : State} {s : State} (hK : Keeps lv ss0 s) :
    Keeps lv ss0 (portOutputs s) := by
  unfold portOutputs
  try dsimp only
  iterate 40 try any_goals first
    | with_reducible assumption
    | with_reducible exact fun h => h
    | with_reducible exact fun _ h => h
    | with_reducible exact fun _ => rfl
    | with_reducible exact fun _ => ⟨rfl, rfl⟩
    | with_reducible exact rfl
    | with_reducible exact fun _ => Mem.wf_nil
    | (intro _; with_reducible exact memPutBytes_wf _ _ _)
    | with_reducible apply keeps_updAudPort
    | with_reducible apply keeps_bufWrite
    | with_reducible apply Keeps.id
    | (with_reducible apply Keeps.foldl; intro _ _ _)
    | (with_reducible apply Keeps.foldl_snd; intro _ _ _)
    | (with_reducible apply Keeps.foldl_fst; intro _ _ _)
    | with_reducible apply Keeps.ite
    | split
    | with_reducible apply Keeps.upd
    | with_reducible exact memPutBytes_wf _ _ _
    | with_reducible exact memPutLE_wf _ _ _ _
    | (intro h; with_reducible exact memPuts_wf h)
    | with_reducible exact memPut_wf _ _ _
    | with_reducible exact memClear_wf _ _ _
    | with_reducible exact memKeep_wf _ _
    | exact fun h => absurd h (by omega)
    | intro _ _
    | dsimp only

theorem keeps_execAudioStrobe (j : Nat) (pdm : List (List Bool)) (rx : List (List (BitVec 24))) (s : State) : KeepsO 0 s (execAudioStrobe j pdm rx s) := by
  unfold execAudioStrobe
  try dsimp only
  iterate 40 try any_goals first
    | with_reducible apply KeepsO.next
    | with_reducible exact Keeps.refl _ _
    | with_reducible assumption
    | with_reducible exact fun h => h
    | with_reducible exact fun _ h => h
    | with_reducible exact fun _ => rfl
    | with_reducible exact fun _ => ⟨rfl, rfl⟩
    | with_reducible exact rfl
    | with_reducible exact fun _ => Mem.wf_nil
    | (intro _; with_reducible exact memPutBytes_wf _ _ _)
    | with_reducible apply keeps_audStops
    | with_reducible apply keeps_audStarts
    | with_reducible apply keeps_maskFrame
    | with_reducible apply keeps_portInputs
    | with_reducible apply keeps_micStrobe
    | with_reducible apply keeps_channelInputs
    | with_reducible apply keeps_audConsumers
    | with_reducible apply keeps_portOutputs
    | with_reducible apply keeps_maskCrossings
    | with_reducible apply Keeps.id
    | (with_reducible apply Keeps.foldl; intro _ _ _)
    | (with_reducible apply Keeps.foldl_snd; intro _ _ _)
    | (with_reducible apply Keeps.foldl_fst; intro _ _ _)
    | with_reducible apply Keeps.ite
    | split
    | with_reducible apply Keeps.upd
    | with_reducible exact memPutBytes_wf _ _ _
    | with_reducible exact memPutLE_wf _ _ _ _
    | (intro h; with_reducible exact memPuts_wf h)
    | with_reducible exact memPut_wf _ _ _
    | with_reducible exact memClear_wf _ _ _
    | with_reducible exact memKeep_wf _ _
    | exact fun h => absurd h (by omega)
    | intro _ _
    | dsimp only

theorem keeps_execAudioFrame (port : Fin 3) (slots : List (BitVec 24)) (soon : Bool) (s : State) : KeepsO 0 s (execAudioFrame port slots soon s) := by
  unfold execAudioFrame
  try dsimp only
  iterate 40 try any_goals first
    | with_reducible apply KeepsO.next
    | with_reducible exact Keeps.refl _ _
    | with_reducible assumption
    | with_reducible exact fun h => h
    | with_reducible exact fun _ h => h
    | with_reducible exact fun _ => rfl
    | with_reducible exact fun _ => ⟨rfl, rfl⟩
    | with_reducible exact rfl
    | with_reducible exact fun _ => Mem.wf_nil
    | (intro _; with_reducible exact memPutBytes_wf _ _ _)
    | with_reducible apply keeps_maskFrame
    | with_reducible apply keeps_bufWrite
    | with_reducible apply keeps_bufRead
    | with_reducible apply keeps_updAudPort
    | with_reducible apply Keeps.id
    | (with_reducible apply Keeps.foldl; intro _ _ _)
    | (with_reducible apply Keeps.foldl_snd; intro _ _ _)
    | (with_reducible apply Keeps.foldl_fst; intro _ _ _)
    | with_reducible apply Keeps.ite
    | split
    | with_reducible apply Keeps.upd
    | with_reducible exact memPutBytes_wf _ _ _
    | with_reducible exact memPutLE_wf _ _ _ _
    | (intro h; with_reducible exact memPuts_wf h)
    | with_reducible exact memPut_wf _ _ _
    | with_reducible exact memClear_wf _ _ _
    | with_reducible exact memKeep_wf _ _
    | exact fun h => absurd h (by omega)
    | intro _ _
    | dsimp only

theorem keeps_execAudioChangeTimeout (item : Fin 35) (s : State) : KeepsO 0 s (execAudioChangeTimeout item s) := by
  unfold execAudioChangeTimeout
  iterate 40 try any_goals first
    | with_reducible apply KeepsO.next
    | with_reducible exact Keeps.refl _ _
    | with_reducible apply keeps_faultUnmute
    | with_reducible apply keeps_gainApply
    | with_reducible apply keeps_updAudPort
    | split

theorem keeps_execAudioClockFault (port : Fin 3) (fault : Fin 3) (periodPs : BitVec 32) (s : State) : KeepsO 0 s (execAudioClockFault port fault periodPs s) := by
  unfold execAudioClockFault
  try dsimp only
  iterate 40 try any_goals first
    | with_reducible apply KeepsO.next
    | with_reducible exact Keeps.refl _ _
    | with_reducible assumption
    | with_reducible apply keeps_updAudPort
    | with_reducible apply keeps_updAudChan
    | with_reducible apply keeps_notify
    | (with_reducible apply Keeps.foldl; intro _ _ _)
    | split

theorem keeps_execAudioClockQualified (port : Fin 3) (periodPs : BitVec 32) (s : State) : KeepsO 0 s (execAudioClockQualified port periodPs s) := by
  unfold execAudioClockQualified
  try dsimp only
  iterate 40 try any_goals first
    | with_reducible apply KeepsO.next
    | with_reducible exact Keeps.refl _ _
    | with_reducible assumption
    | with_reducible apply keeps_updAudPort
    | with_reducible apply keeps_updAudChan
    | with_reducible apply keeps_notify
    | (with_reducible apply Keeps.foldl; intro _ _ _)
    | split

theorem card_audConfigCard {lv : Nat}  : Card.Keeps lv audConfigCard := by
  intro n b ss0 s hK
  unfold audConfigCard
  iterate 40 try any_goals with_reducible first | assumption | apply keeps_updAud

theorem keeps_execAudConfig (n : Fin 40) (s : State) : KeepsO 0 s (execAudConfig n s) :=
  .next (keeps_mbxRun card_audConfigCard (.refl _ _))

theorem card_audPortCard {lv : Nat}  : Card.Keeps lv audPortCard := by
  intro n b ss0 s hK
  unfold audPortCard
  iterate 40 try any_goals first
    | with_reducible assumption
    | with_reducible apply keeps_updAudChan
    | with_reducible apply keeps_updAudPort
    | (with_reducible apply Keeps.foldl; intro _ _ _)
    | with_reducible apply Keeps.ite

theorem keeps_execAudPort (n : Fin 40) (s : State) : KeepsO 0 s (execAudPort n s) :=
  .next (keeps_mbxRun card_audPortCard (.refl _ _))

theorem keeps_countReplaced {lv : Nat} {ss0 : State} {s : State} {u : Nat} (hK : Keeps lv ss0 s) :
    Keeps lv ss0 (countReplaced s u) := by
  unfold countReplaced
  iterate 40 try any_goals with_reducible first | assumption | apply keeps_updAud

theorem card_audChannelCard {lv : Nat}  : Card.Keeps lv audChannelCard := by
  intro n b ss0 s hK
  unfold audChannelCard
  try dsimp only
  iterate 40 try any_goals first
    | with_reducible assumption
    | with_reducible apply keeps_updAudChan
    | with_reducible apply keeps_countReplaced
    | with_reducible apply Keeps.ite
    | split

theorem keeps_execAudChannel (n : Fin 40) (s : State) : KeepsO 0 s (execAudChannel n s) :=
  .next (keeps_mbxRun card_audChannelCard (.refl _ _))

theorem card_audSlotsCard {lv : Nat}  : Card.Keeps lv audSlotsCard := by
  intro n b ss0 s hK
  unfold audSlotsCard
  try dsimp only
  iterate 40 try any_goals first
    | with_reducible assumption
    | with_reducible apply keeps_updAudPort
    | with_reducible apply keeps_countReplaced
    | with_reducible apply Keeps.ite
    | split

theorem keeps_execAudSlots (n : Fin 40) (s : State) : KeepsO 0 s (execAudSlots n s) :=
  .next (keeps_mbxRun card_audSlotsCard (.refl _ _))

theorem card_audStartCard {lv : Nat}  : Card.Keeps lv audStartCard := by
  intro n b ss0 s hK
  unfold audStartCard
  iterate 40 try any_goals with_reducible first | assumption | apply keeps_updAud

theorem keeps_execAudStart (n : Fin 40) (s : State) : KeepsO 0 s (execAudStart n s) :=
  .next (keeps_mbxRun card_audStartCard (.refl _ _))

theorem card_audStopCard {lv : Nat}  : Card.Keeps lv audStopCard := by
  intro n b ss0 s hK
  unfold audStopCard
  try dsimp only
  iterate 40 try any_goals first
    | with_reducible assumption
    | with_reducible exact fun h => h
    | with_reducible exact fun _ h => h
    | with_reducible exact fun _ => rfl
    | with_reducible exact fun _ => ⟨rfl, rfl⟩
    | with_reducible exact rfl
    | with_reducible exact fun _ => Mem.wf_nil
    | (intro _; with_reducible exact memPutBytes_wf _ _ _)
    | with_reducible apply keeps_updAud
    | with_reducible apply Keeps.id
    | (with_reducible apply Keeps.foldl; intro _ _ _)
    | (with_reducible apply Keeps.foldl_snd; intro _ _ _)
    | (with_reducible apply Keeps.foldl_fst; intro _ _ _)
    | with_reducible apply Keeps.ite
    | split
    | with_reducible apply Keeps.upd
    | with_reducible exact memPutBytes_wf _ _ _
    | with_reducible exact memPutLE_wf _ _ _ _
    | (intro h; with_reducible exact memPuts_wf h)
    | with_reducible exact memPut_wf _ _ _
    | with_reducible exact memClear_wf _ _ _
    | with_reducible exact memKeep_wf _ _
    | exact fun h => absurd h (by omega)
    | intro _ _
    | dsimp only

theorem keeps_execAudStop (n : Fin 40) (s : State) : KeepsO 0 s (execAudStop n s) :=
  .next (keeps_mbxRun card_audStopCard (.refl _ _))

theorem card_audStatusCard {lv : Nat}  : Card.Keeps lv audStatusCard := by
  intro n b ss0 s hK
  unfold audStatusCard
  iterate 40 try any_goals with_reducible first | assumption | apply keeps_updAud | apply Keeps.ite

theorem keeps_execAudStatus (n : Fin 40) (s : State) : KeepsO 0 s (execAudStatus n s) :=
  .next (keeps_mbxRun card_audStatusCard (.refl _ _))

end Sys2Proof.Machine
end

