-- ==== Sys2Proof/Laws/KeepsTherm.lean ====
section
/-! SUPPORT. What the operations of thermal control, calibration and pins keep. -/

namespace Sys2Proof.Machine

/-! ## ThermOps -/

theorem keeps_updTemp {lv : Nat} {ss0 : State} {s : State} {i : Nat} {f : TempSensor → TempSensor} (hK : Keeps lv ss0 s) :
    Keeps lv ss0 (updTemp s i f) := by
  unfold updTemp
  iterate 40 try any_goals first
    | with_reducible assumption
    | with_reducible exact fun h => h
    | with_reducible exact fun _ => rfl
    | with_reducible exact fun _ => ⟨rfl, rfl⟩
    | with_reducible exact rfl
    | with_reducible apply Keeps.upd

theorem keeps_settleLanes {lv : Nat} {ss0 : State} {s : State} (hK : Keeps lv ss0 s) :
    Keeps lv ss0 (settleLanes s) := by
  unfold settleLanes
  iterate 40 try any_goals with_reducible first | assumption | apply keeps_updLane | apply Keeps.foldl; intro _ _ _

theorem keeps_setAllow {lv : Nat} {ss0 : State} {s : State} {a : Nat} (hK : Keeps lv ss0 s) :
    Keeps lv ss0 (setAllow s a) := by
  unfold setAllow
  iterate 40 try any_goals first
    | with_reducible assumption
    | with_reducible exact fun h => h
    | with_reducible exact fun _ => rfl
    | with_reducible exact fun _ => ⟨rfl, rfl⟩
    | with_reducible exact rfl
    | with_reducible apply keeps_settleRnds
    | with_reducible apply keeps_settleLanes
    | with_reducible apply keeps_settleCredit
    | with_reducible apply keeps_overloadCheck
    | with_reducible apply Keeps.upd

theorem keeps_thermStepEvent {lv : Nat} {ss0 : State} {s : State} {old : Nat} {cause : Nat} (hK : Keeps lv ss0 s) :
    Keeps lv ss0 (thermStepEvent s old cause) := by
  unfold thermStepEvent
  iterate 40 try any_goals with_reducible first | assumption | apply keeps_notify

theorem keeps_floorCheck {lv : Nat} {ss0 : State} {s : State} (hK : Keeps lv ss0 s) :
    Keeps lv ss0 (floorCheck s) := by
  unfold floorCheck
  iterate 40 try any_goals first
    | with_reducible assumption
    | with_reducible exact fun h => h
    | with_reducible exact fun _ => rfl
    | with_reducible exact fun _ => ⟨rfl, rfl⟩
    | with_reducible exact rfl
    | with_reducible apply keeps_thermStepEvent
    | with_reducible apply keeps_setLeaf
    | with_reducible apply keeps_setAllow
    | with_reducible apply Keeps.ite
    | with_reducible apply Keeps.upd

theorem keeps_sensorEvent {lv : Nat} {ss0 : State} {s : State} {i : Nat} {old : TempState} {new : TempState} {cause : Nat} {spare : Nat} {reading : Int} {p : Option Int} {q : Option Int} (hK : Keeps lv ss0 s) :
    Keeps lv ss0 (sensorEvent s i old new cause spare reading p q) := by
  unfold sensorEvent
  iterate 40 try any_goals first
    | with_reducible assumption
    | with_reducible exact fun h => h
    | with_reducible exact fun _ => rfl
    | with_reducible exact fun _ => ⟨rfl, rfl⟩
    | with_reducible exact rfl
    | with_reducible apply keeps_notify
    | split
    | with_reducible apply Keeps.upd

theorem keeps_recordTemp {lv : Nat} {ss0 : State} {was : Bool} {s : State} {i : Nat} {spare : Option Nat} (hK : Keeps lv ss0 s) :
    Keeps lv ss0 (recordTemp was s i spare) := by
  unfold recordTemp
  iterate 40 try any_goals first
    | with_reducible assumption
    | with_reducible apply keeps_spareRecord
    | with_reducible apply keeps_countSubst
    | with_reducible apply keeps_setLeaf
    | with_reducible apply Keeps.ite
    | split

theorem keeps_spareFollows {lv : Nat} {ss0 : State} {s : State} {k : Nat} (hK : Keeps lv ss0 s) :
    Keeps lv ss0 (spareFollows s k) := by
  unfold spareFollows
  try dsimp only
  iterate 40 try any_goals first
    | with_reducible assumption
    | with_reducible exact fun h => h
    | with_reducible exact fun _ h => h
    | with_reducible exact fun _ => rfl
    | with_reducible exact fun _ => ⟨rfl, rfl⟩
    | with_reducible exact rfl
    | with_reducible exact fun _ => Mem.wf_nil
    | (intro _; with_reducible exact memPutBytes_wf _ _ _)
    | with_reducible apply keeps_draw
    | with_reducible apply keeps_sensorEvent
    | with_reducible apply keeps_updTemp
    | with_reducible apply Keeps.id
    | (with_reducible apply Keeps.foldl; intro _ _ _)
    | (with_reducible apply Keeps.foldl_snd; intro _ _ _)
    | (with_reducible apply Keeps.foldl_fst; intro _ _ _)
    | with_reducible apply Keeps.ite
    | split
    | with_reducible apply Keeps.upd
    | with_reducible exact memPutBytes_wf _ _ _
    | with_reducible exact memPutLE_wf _ _ _ _
    | (intro h; with_reducible exact memPuts_wf h)
    | with_reducible exact memPut_wf _ _ _
    | with_reducible exact memClear_wf _ _ _
    | with_reducible exact memKeep_wf _ _
    | exact fun h => absurd h (by omega)
    | intro _ _
    | dsimp only

theorem keeps_tempFail {lv : Nat} {ss0 : State} {s : State} {i : Nat} {cause : Nat} (hK : Keeps lv ss0 s) :
    Keeps lv ss0 (tempFail s i cause) := by
  unfold tempFail
  try dsimp only
  iterate 40 try any_goals first
    | with_reducible assumption
    | with_reducible exact fun h => h
    | with_reducible exact fun _ h => h
    | with_reducible exact fun _ => rfl
    | with_reducible exact fun _ => ⟨rfl, rfl⟩
    | with_reducible exact rfl
    | with_reducible exact fun _ => Mem.wf_nil
    | (intro _; with_reducible exact memPutBytes_wf _ _ _)
    | with_reducible apply keeps_updTemp
    | with_reducible apply keeps_sensorEvent
    | with_reducible apply keeps_spareFollows
    | with_reducible apply keeps_floorCheck
    | with_reducible apply keeps_recordTemp
    | with_reducible apply Keeps.id
    | (with_reducible apply Keeps.foldl; intro _ _ _)
    | (with_reducible apply Keeps.foldl_snd; intro _ _ _)
    | (with_reducible apply Keeps.foldl_fst; intro _ _ _)
    | with_reducible apply Keeps.ite
    | split
    | with_reducible apply Keeps.upd
    | with_reducible exact memPutBytes_wf _ _ _
    | with_reducible exact memPutLE_wf _ _ _ _
    | (intro h; with_reducible exact memPuts_wf h)
    | with_reducible exact memPut_wf _ _ _
    | with_reducible exact memClear_wf _ _ _
    | with_reducible exact memKeep_wf _ _
    | exact fun h => absurd h (by omega)
    | intro _ _
    | dsimp only

theorem keeps_tempSuspect {lv : Nat} {ss0 : State} {s : State} {i : Nat} (hK : Keeps lv ss0 s) :
    Keeps lv ss0 (tempSuspect s i) := by
  unfold tempSuspect
  iterate 40 try any_goals first
    | with_reducible assumption
    | with_reducible apply keeps_floorCheck
    | with_reducible apply keeps_sensorEvent
    | with_reducible apply keeps_updTemp

theorem keeps_convert {lv : Nat} {ss0 : State} {s : State} {i : Nat} {reading : Int} (hK : Keeps lv ss0 s) :
    Keeps lv ss0 (convert s i reading) := by
  unfold convert
  iterate 40 try any_goals first
    | with_reducible assumption
    | with_reducible apply keeps_updTemp
    | with_reducible apply keeps_tempFail
    | with_reducible apply keeps_tempSuspect
    | with_reducible apply Keeps.ite
    | split

theorem keeps_selfTest {lv : Nat} {ss0 : State} {s : State} {i : Nat} {value : Int} (hK : Keeps lv ss0 s) :
    Keeps lv ss0 (selfTest s i value) := by
  unfold selfTest
  iterate 40 try any_goals first
    | with_reducible assumption
    | with_reducible apply keeps_tempFail
    | with_reducible apply keeps_convert
    | with_reducible apply Keeps.ite

theorem keeps_sampleTmax {lv : Nat} {ss0 : State} {s : State} (hK : Keeps lv ss0 s) :
    Keeps lv ss0 (sampleTmax s) := by
  unfold sampleTmax
  iterate 40 try any_goals first
    | with_reducible assumption
    | with_reducible exact fun h => h
    | with_reducible exact fun _ => rfl
    | with_reducible exact fun _ => ⟨rfl, rfl⟩
    | with_reducible exact rfl
    | split
    | with_reducible apply Keeps.upd

theorem keeps_warnCheck {lv : Nat} {ss0 : State} {s : State} (hK : Keeps lv ss0 s) :
    Keeps lv ss0 (warnCheck s) := by
  unfold warnCheck
  iterate 40 try any_goals first
    | with_reducible assumption
    | with_reducible exact fun h => h
    | with_reducible exact fun _ => rfl
    | with_reducible exact fun _ => ⟨rfl, rfl⟩
    | with_reducible exact rfl
    | with_reducible apply keeps_notify
    | with_reducible apply Keeps.ite
    | with_reducible apply Keeps.upd

theorem keeps_stepDown {lv : Nat} {ss0 : State} {s : State} {cause : Nat} (hK : Keeps lv ss0 s) :
    Keeps lv ss0 (stepDown s cause) := by
  unfold stepDown
  iterate 40 try any_goals first
    | with_reducible assumption
    | with_reducible exact fun h => h
    | with_reducible exact fun _ => rfl
    | with_reducible exact fun _ => ⟨rfl, rfl⟩
    | with_reducible exact rfl
    | with_reducible apply keeps_thermStepEvent
    | with_reducible apply keeps_setAllow
    | with_reducible apply Keeps.ite
    | split
    | with_reducible apply Keeps.upd

theorem keeps_stepUp {lv : Nat} {ss0 : State} {s : State} (hK : Keeps lv ss0 s) :
    Keeps lv ss0 (stepUp s) := by
  unfold stepUp
  iterate 40 try any_goals first
    | with_reducible assumption
    | with_reducible exact fun h => h
    | with_reducible exact fun _ => rfl
    | with_reducible exact fun _ => ⟨rfl, rfl⟩
    | with_reducible exact rfl
    | with_reducible apply keeps_setAllow
    | with_reducible apply keeps_thermStepEvent
    | with_reducible apply Keeps.upd

theorem keeps_controlPeriod {lv : Nat} {ss0 : State} {s : State} {ma : Nat} (hK : Keeps lv ss0 s) :
    Keeps lv ss0 (controlPeriod s ma) := by
  unfold controlPeriod
  iterate 40 try any_goals first
    | with_reducible assumption
    | with_reducible exact fun h => h
    | with_reducible exact fun _ => rfl
    | with_reducible exact fun _ => ⟨rfl, rfl⟩
    | with_reducible exact rfl
    | with_reducible apply keeps_sampleTmax
    | with_reducible apply keeps_stepDown
    | with_reducible apply keeps_stepUp
    | with_reducible apply keeps_warnCheck
    | split
    | with_reducible apply Keeps.upd

theorem keeps_updClass {lv : Nat} {ss0 : State} {s : State} {c : Nat} {f : CalClass → CalClass} (hK : Keeps lv ss0 s) :
    Keeps lv ss0 (updClass s c f) := by
  unfold updClass
  iterate 40 try any_goals first
    | with_reducible assumption
    | with_reducible exact fun h => h
    | with_reducible exact fun _ => rfl
    | with_reducible exact fun _ => ⟨rfl, rfl⟩
    | with_reducible exact rfl
    | with_reducible apply Keeps.upd

theorem keeps_updTarget {lv : Nat} {ss0 : State} {s : State} {c : Nat} {t : Nat} {f : CalTarget → CalTarget} (hK : Keeps lv ss0 s) :
    Keeps lv ss0 (updTarget s c t f) := by
  unfold updTarget
  iterate 40 try any_goals with_reducible first | assumption | apply keeps_updClass

theorem keeps_startPass {lv : Nat} {ss0 : State} {s : State} {c : Nat} (hK : Keeps lv ss0 s) :
    Keeps lv ss0 (startPass s c) := by
  unfold startPass
  iterate 40 try any_goals with_reducible first | assumption | apply keeps_updClass | apply Keeps.ite

theorem keeps_passCheck {lv : Nat} {ss0 : State} {s : State} {c : Nat} (hK : Keeps lv ss0 s) :
    Keeps lv ss0 (passCheck s c) := by
  unfold passCheck
  iterate 40 try any_goals first
    | with_reducible assumption
    | with_reducible apply keeps_notify
    | with_reducible apply keeps_updClass
    | with_reducible apply Keeps.ite

theorem keeps_starveStep {lv : Nat} {ss0 : State} {s : State} {c : Nat} (hK : Keeps lv ss0 s) :
    Keeps lv ss0 (starveStep s c) := by
  unfold starveStep
  iterate 40 try any_goals first
    | with_reducible assumption
    | with_reducible apply keeps_updTarget
    | with_reducible apply keeps_setLeaf
    | with_reducible apply keeps_updClass
    | (with_reducible apply Keeps.foldl; intro _ _ _)
    | with_reducible apply Keeps.ite

/-! ## Therm -/

theorem card_thermConfigCard {lv : Nat}  : Card.Keeps lv thermConfigCard := by
  intro n b ss0 s hK
  unfold thermConfigCard
  iterate 40 try any_goals first
    | with_reducible assumption
    | with_reducible exact fun h => h
    | with_reducible exact fun _ => rfl
    | with_reducible exact fun _ => ⟨rfl, rfl⟩
    | with_reducible exact rfl
    | with_reducible apply Keeps.upd

theorem keeps_execThermConfig (n : Fin 40) (s : State) : KeepsO 0 s (execThermConfig n s) :=
  .next (keeps_mbxRun card_thermConfigCard (.refl _ _))

theorem card_thermStatusCard {lv : Nat}  : Card.Keeps lv thermStatusCard := by
  intro n b ss0 s hK
  unfold thermStatusCard
  iterate 40 try any_goals first
    | with_reducible assumption
    | with_reducible exact fun h => h
    | with_reducible exact fun _ => rfl
    | with_reducible exact fun _ => ⟨rfl, rfl⟩
    | with_reducible exact rfl
    | with_reducible apply Keeps.ite
    | with_reducible apply Keeps.upd

theorem keeps_execThermStatus (n : Fin 40) (s : State) : KeepsO 0 s (execThermStatus n s) :=
  .next (keeps_mbxRun card_thermStatusCard (.refl _ _))

theorem card_calConfigCard {lv : Nat}  : Card.Keeps lv calConfigCard := by
  intro n b ss0 s hK
  unfold calConfigCard
  iterate 40 try any_goals first
    | with_reducible assumption
    | with_reducible exact fun h => h
    | with_reducible exact fun _ => rfl
    | with_reducible exact fun _ => ⟨rfl, rfl⟩
    | with_reducible exact rfl
    | with_reducible apply Keeps.upd

theorem keeps_execCalConfig (n : Fin 40) (s : State) : KeepsO 0 s (execCalConfig n s) :=
  .next (keeps_mbxRun card_calConfigCard (.refl _ _))

theorem card_calRunCard {lv : Nat}  : Card.Keeps lv calRunCard := by
  intro n b ss0 s hK
  unfold calRunCard
  iterate 40 try any_goals first
    | with_reducible assumption
    | with_reducible apply keeps_startPass
    | (with_reducible apply Keeps.foldl; intro _ _ _)

theorem keeps_execCalRun (n : Fin 40) (s : State) : KeepsO 0 s (execCalRun n s) :=
  .next (keeps_mbxRun card_calRunCard (.refl _ _))

theorem card_calStatusCard {lv : Nat}  : Card.Keeps lv calStatusCard := by
  intro n b ss0 s hK
  unfold calStatusCard
  iterate 40 try any_goals first
    | with_reducible assumption
    | with_reducible exact fun h => h
    | with_reducible exact fun _ => rfl
    | with_reducible exact fun _ => ⟨rfl, rfl⟩
    | with_reducible exact rfl
    | with_reducible apply Keeps.ite
    | with_reducible apply Keeps.upd

theorem keeps_execCalStatus (n : Fin 40) (s : State) : KeepsO 0 s (execCalStatus n s) :=
  .next (keeps_mbxRun card_calStatusCard (.refl _ _))

theorem keeps_execSensorConversion (sensor : Fin 28) (reading : BitVec 16) (bias : Bool) (flash : Bool) (s : State) : KeepsO 0 s (execSensorConversion sensor reading bias flash s) := by
  unfold execSensorConversion
  try dsimp only
  iterate 40 try any_goals first
    | with_reducible apply KeepsO.next
    | with_reducible exact Keeps.refl _ _
    | with_reducible exact fun h => h
    | with_reducible exact fun _ => rfl
    | with_reducible exact fun _ => ⟨rfl, rfl⟩
    | with_reducible exact rfl
    | with_reducible apply keeps_updTemp
    | with_reducible apply keeps_selfTest
    | with_reducible apply keeps_convert
    | with_reducible apply Keeps.ite
    | split
    | with_reducible apply Keeps.upd

theorem keeps_execSuspectTimeout (sensor : Fin 24) (flash : Bool) (s : State) : KeepsO 0 s (execSuspectTimeout sensor flash s) := by
  unfold execSuspectTimeout
  try dsimp only
  iterate 40 try any_goals first
    | with_reducible apply KeepsO.next
    | with_reducible exact Keeps.refl _ _
    | with_reducible exact fun h => h
    | with_reducible exact fun _ => rfl
    | with_reducible exact fun _ => ⟨rfl, rfl⟩
    | with_reducible exact rfl
    | with_reducible apply keeps_updTemp
    | with_reducible apply keeps_floorCheck
    | with_reducible apply keeps_sensorEvent
    | with_reducible apply keeps_tempFail
    | split
    | with_reducible apply Keeps.upd

theorem keeps_execRiseEvaluation (s : State) : KeepsO 0 s (execRiseEvaluation s) := by
  unfold execRiseEvaluation
  iterate 40 try any_goals first
    | with_reducible apply KeepsO.next
    | with_reducible exact Keeps.refl _ _
    | with_reducible exact fun h => h
    | with_reducible exact fun _ => rfl
    | with_reducible exact fun _ => ⟨rfl, rfl⟩
    | with_reducible exact rfl
    | with_reducible apply Keeps.upd

theorem keeps_execControlPeriod (ma : BitVec 32) (s : State) : KeepsO 0 s (execControlPeriod ma s) := by
  unfold execControlPeriod
  iterate 40 try any_goals first
    | with_reducible apply KeepsO.next
    | with_reducible exact Keeps.refl _ _
    | with_reducible apply keeps_controlPeriod

theorem keeps_execCalInterval (cls : Fin 6) (s : State) : KeepsO 0 s (execCalInterval cls s) := by
  unfold execCalInterval
  try dsimp only
  iterate 40 try any_goals first
    | with_reducible apply KeepsO.next
    | with_reducible exact Keeps.refl _ _
    | with_reducible assumption
    | with_reducible exact fun h => h
    | with_reducible exact fun _ h => h
    | with_reducible exact fun _ => rfl
    | with_reducible exact fun _ => ⟨rfl, rfl⟩
    | with_reducible exact rfl
    | with_reducible exact fun _ => Mem.wf_nil
    | (intro _; with_reducible exact memPutBytes_wf _ _ _)
    | with_reducible apply keeps_passCheck
    | with_reducible apply keeps_starveStep
    | with_reducible apply keeps_updClass
    | with_reducible apply keeps_startPass
    | with_reducible apply Keeps.id
    | (with_reducible apply Keeps.foldl; intro _ _ _)
    | (with_reducible apply Keeps.foldl_snd; intro _ _ _)
    | (with_reducible apply Keeps.foldl_fst; intro _ _ _)
    | with_reducible apply Keeps.ite
    | split
    | with_reducible apply Keeps.upd
    | with_reducible exact memPutBytes_wf _ _ _
    | with_reducible exact memPutLE_wf _ _ _ _
    | (intro h; with_reducible exact memPuts_wf h)
    | with_reducible exact memPut_wf _ _ _
    | with_reducible exact memClear_wf _ _ _
    | with_reducible exact memKeep_wf _ _
    | exact fun h => absurd h (by omega)
    | intro _ _
    | dsimp only

theorem keeps_execCalMeasure (cls : Fin 6) (target : Fin 54) (tries : List (BitVec 10 × BitVec 10)) (s : State) : KeepsO 0 s (execCalMeasure cls target tries s) := by
  unfold execCalMeasure
  try dsimp only
  iterate 40 try any_goals first
    | with_reducible apply KeepsO.next
    | with_reducible exact Keeps.refl _ _
    | with_reducible apply keeps_updClass
    | with_reducible apply keeps_passCheck
    | with_reducible apply keeps_updTarget
    | with_reducible apply keeps_notify
    | split

theorem keeps_execCalGapApply (cls : Fin 6) (target : Fin 54) (s : State) : KeepsO 0 s (execCalGapApply cls target s) := by
  unfold execCalGapApply
  try dsimp only
  iterate 40 try any_goals first
    | with_reducible apply KeepsO.next
    | with_reducible exact Keeps.refl _ _
    | with_reducible apply keeps_updTarget
    | with_reducible apply keeps_updClass
    | with_reducible apply keeps_updTemp
    | with_reducible apply keeps_passCheck
    | with_reducible apply Keeps.ite
    | split

theorem keeps_rcalEvent {lv : Nat} {ss0 : State} {s : State} {restored : Bool} (hK : Keeps lv ss0 s) :
    Keeps lv ss0 (rcalEvent s restored) := by
  unfold rcalEvent
  iterate 40 try any_goals with_reducible first | assumption | apply keeps_notify

theorem keeps_execRcalCheck (value : BitVec 32) (s : State) : KeepsO 0 s (execRcalCheck value s) := by
  unfold execRcalCheck
  try dsimp only
  iterate 40 try any_goals first
    | with_reducible apply KeepsO.next
    | with_reducible exact Keeps.refl _ _
    | with_reducible exact fun h => h
    | with_reducible exact fun _ => rfl
    | with_reducible exact fun _ => ⟨rfl, rfl⟩
    | with_reducible exact rfl
    | with_reducible apply keeps_rcalEvent
    | split
    | with_reducible apply Keeps.upd

/-! ## Pins -/

theorem card_sysGpioCard {lv : Nat}  : Card.Keeps lv sysGpioCard := by
  intro n b ss0 s hK
  unfold sysGpioCard
  try dsimp only
  iterate 40 try any_goals first
    | with_reducible assumption
    | with_reducible exact fun h => h
    | with_reducible exact fun _ h => h
    | with_reducible exact fun _ => rfl
    | with_reducible exact fun _ => ⟨rfl, rfl⟩
    | with_reducible exact rfl
    | with_reducible exact fun _ => Mem.wf_nil
    | (intro _; with_reducible exact memPutBytes_wf _ _ _)
    | with_reducible apply Keeps.id
    | (with_reducible apply Keeps.foldl; intro _ _ _)
    | (with_reducible apply Keeps.foldl_snd; intro _ _ _)
    | (with_reducible apply Keeps.foldl_fst; intro _ _ _)
    | with_reducible apply Keeps.ite
    | split
    | with_reducible apply Keeps.upd
    | with_reducible exact memPutBytes_wf _ _ _
    | with_reducible exact memPutLE_wf _ _ _ _
    | (intro h; with_reducible exact memPuts_wf h)
    | with_reducible exact memPut_wf _ _ _
    | with_reducible exact memClear_wf _ _ _
    | with_reducible exact memKeep_wf _ _
    | exact fun h => absurd h (by omega)
    | intro _ _
    | dsimp only

theorem keeps_execSysGpio (n : Fin 40) (s : State) : KeepsO 0 s (execSysGpio n s) :=
  .next (keeps_mbxRun card_sysGpioCard (.refl _ _))

theorem card_sysTallyCard {lv : Nat}  : Card.Keeps lv sysTallyCard := by
  intro n b ss0 s hK
  unfold sysTallyCard
  iterate 40 try any_goals first
    | with_reducible assumption
    | with_reducible exact fun h => h
    | with_reducible exact fun _ => rfl
    | with_reducible exact fun _ => ⟨rfl, rfl⟩
    | with_reducible exact rfl
    | with_reducible apply Keeps.upd

theorem keeps_execSysTally (n : Fin 40) (s : State) : KeepsO 0 s (execSysTally n s) :=
  .next (keeps_mbxRun card_sysTallyCard (.refl _ _))

theorem keeps_execGpioEdge (levels : BitVec 32) (s : State) : KeepsO 0 s (execGpioEdge levels s) := by
  unfold execGpioEdge
  try dsimp only
  iterate 40 try any_goals first
    | with_reducible apply KeepsO.next
    | with_reducible exact Keeps.refl _ _
    | with_reducible assumption
    | with_reducible exact fun h => h
    | with_reducible exact fun _ h => h
    | with_reducible exact fun _ => rfl
    | with_reducible exact fun _ => ⟨rfl, rfl⟩
    | with_reducible exact rfl
    | with_reducible exact fun _ => Mem.wf_nil
    | (intro _; with_reducible exact memPutBytes_wf _ _ _)
    | with_reducible apply keeps_setLeaf
    | with_reducible apply keeps_postEventS
    | with_reducible apply Keeps.id
    | (with_reducible apply Keeps.foldl; intro _ _ _)
    | (with_reducible apply Keeps.foldl_snd; intro _ _ _)
    | (with_reducible apply Keeps.foldl_fst; intro _ _ _)
    | with_reducible apply Keeps.ite
    | split
    | with_reducible apply Keeps.upd
    | with_reducible exact memPutBytes_wf _ _ _
    | with_reducible exact memPutLE_wf _ _ _ _
    | (intro h; with_reducible exact memPuts_wf h)
    | with_reducible exact memPut_wf _ _ _
    | with_reducible exact memClear_wf _ _ _
    | with_reducible exact memKeep_wf _ _
    | exact fun h => absurd h (by omega)
    | intro _ _
    | dsimp only

end Sys2Proof.Machine
end

