-- ==== Sys2Proof/Laws/KeepsReset.lean ====
section
/-! SUPPORT. What the operations of resets and spares keep. -/

namespace Sys2Proof.Machine

/-! ## ResetOps -/

theorem keeps_setStop {lv : Nat} {ss0 : State} {s : State} {cause : Nat} (hK : Keeps lv ss0 s) :
    Keeps lv ss0 (setStop s cause) := by
  unfold setStop
  iterate 40 try any_goals first
    | with_reducible assumption
    | with_reducible exact fun h => h
    | with_reducible exact fun _ => rfl
    | with_reducible exact fun _ => ⟨rfl, rfl⟩
    | with_reducible exact rfl
    | with_reducible apply Keeps.ite
    | with_reducible apply Keeps.upd

theorem keeps_closeFlint {lv : Nat} {ss0 : State} {s : State} (hK : Keeps lv ss0 s) :
    Keeps lv ss0 (closeFlint s) := by
  unfold closeFlint
  iterate 40 try any_goals first
    | with_reducible assumption
    | with_reducible exact fun h => h
    | with_reducible exact fun _ => rfl
    | with_reducible exact fun _ => ⟨rfl, rfl⟩
    | with_reducible exact rfl
    | with_reducible apply keeps_flintDisarm
    | with_reducible apply keeps_bedrockLeaf
    | with_reducible apply Keeps.ite
    | with_reducible apply Keeps.upd

theorem keeps_openFlint {lv : Nat} {ss0 : State} {s : State} (hK : Keeps lv ss0 s) :
    Keeps lv ss0 (openFlint s) := by
  unfold openFlint
  iterate 40 try any_goals first
    | with_reducible assumption
    | with_reducible exact fun h => h
    | with_reducible exact fun _ => rfl
    | with_reducible exact fun _ => ⟨rfl, rfl⟩
    | with_reducible exact rfl
    | with_reducible apply keeps_bedrockLeaf
    | with_reducible apply Keeps.ite
    | with_reducible apply Keeps.upd

theorem keeps_discardCommands {lv : Nat} {ss0 : State} {s : State} (hK : Keeps lv ss0 s) :
    Keeps lv ss0 (discardCommands s) := by
  unfold discardCommands
  iterate 40 try any_goals first
    | with_reducible assumption
    | with_reducible exact fun h => h
    | with_reducible exact fun _ => rfl
    | with_reducible exact fun _ => ⟨rfl, rfl⟩
    | with_reducible exact rfl
    | with_reducible exact fun _ => Mem.wf_nil
    | with_reducible apply Keeps.upd

theorem keeps_resetSensor {lv : Nat} {ss0 : State} {s : State} {sn : Nat} (hK : Keeps lv ss0 s) :
    Keeps lv ss0 (resetSensor s sn) := by
  unfold resetSensor
  iterate 40 try any_goals first
    | with_reducible assumption
    | with_reducible apply keeps_countCheck
    | with_reducible apply keeps_setLeaf
    | with_reducible apply keeps_leaveStreaming
    | with_reducible apply keeps_cancelDeferred
    | with_reducible apply keeps_updSensor
    | with_reducible apply Keeps.ite

theorem keeps_resetPixels {lv : Nat} {ss0 : State} {s : State} (hK : Keeps lv ss0 s) :
    Keeps lv ss0 (resetPixels s) := by
  unfold resetPixels
  iterate 40 try any_goals first
    | with_reducible assumption
    | with_reducible exact fun h => h
    | with_reducible exact fun _ => rfl
    | with_reducible exact fun _ => ⟨rfl, rfl⟩
    | with_reducible exact rfl
    | with_reducible apply keeps_settleRnds
    | with_reducible apply keeps_settleLanes
    | with_reducible apply keeps_settleCredit
    | with_reducible apply keeps_sweep
    | with_reducible apply Keeps.upd

theorem keeps_resetRecording {lv : Nat} {ss0 : State} {s : State} (hK : Keeps lv ss0 s) :
    Keeps lv ss0 (resetRecording s) := by
  unfold resetRecording
  iterate 40 try any_goals first
    | with_reducible assumption
    | with_reducible exact fun h => h
    | with_reducible exact fun _ => rfl
    | with_reducible exact fun _ => ⟨rfl, rfl⟩
    | with_reducible exact rfl
    | with_reducible apply keeps_release
    | (with_reducible apply Keeps.foldl; intro _ _ _)
    | with_reducible apply Keeps.upd

theorem keeps_resetDomain {lv : Nat} {ss0 : State} {s : State} {d : Nat} (hK : Keeps lv ss0 s) :
    Keeps lv ss0 (resetDomain s d) := by
  unfold resetDomain
  try dsimp only
  iterate 40 try any_goals first
    | with_reducible assumption
    | with_reducible exact fun h => h
    | with_reducible exact fun _ h => h
    | with_reducible exact fun _ => rfl
    | with_reducible exact fun _ => ⟨rfl, rfl⟩
    | with_reducible exact rfl
    | with_reducible exact fun _ => Mem.wf_nil
    | (intro _; with_reducible exact memPutBytes_wf _ _ _)
    | with_reducible apply keeps_loseSource
    | with_reducible apply Keeps.id
    | (with_reducible apply Keeps.foldl; intro _ _ _)
    | (with_reducible apply Keeps.foldl_snd; intro _ _ _)
    | (with_reducible apply Keeps.foldl_fst; intro _ _ _)
    | with_reducible apply Keeps.ite
    | split
    | with_reducible apply Keeps.upd
    | with_reducible exact memPutBytes_wf _ _ _
    | with_reducible exact memPutLE_wf _ _ _ _
    | (intro h; with_reducible exact memPuts_wf h)
    | with_reducible exact memPut_wf _ _ _
    | with_reducible exact memClear_wf _ _ _
    | with_reducible exact memKeep_wf _ _
    | exact fun h => absurd h (by omega)
    | intro _ _
    | dsimp only

theorem keeps_resetDomains {lv : Nat} {ss0 : State} {s : State} (hK : Keeps lv ss0 s) :
    Keeps lv ss0 (resetDomains s) := by
  unfold resetDomains
  try dsimp only
  iterate 40 try any_goals first
    | with_reducible assumption
    | with_reducible exact fun h => h
    | with_reducible exact fun _ h => h
    | with_reducible exact fun _ => rfl
    | with_reducible exact fun _ => ⟨rfl, rfl⟩
    | with_reducible exact rfl
    | with_reducible exact fun _ => Mem.wf_nil
    | (intro _; with_reducible exact memPutBytes_wf _ _ _)
    | with_reducible apply keeps_followViews
    | with_reducible apply keeps_resetDomain
    | with_reducible apply Keeps.id
    | (with_reducible apply Keeps.foldl; intro _ _ _)
    | (with_reducible apply Keeps.foldl_snd; intro _ _ _)
    | (with_reducible apply Keeps.foldl_fst; intro _ _ _)
    | with_reducible apply Keeps.ite
    | split
    | with_reducible apply Keeps.upd
    | with_reducible exact memPutBytes_wf _ _ _
    | with_reducible exact memPutLE_wf _ _ _ _
    | (intro h; with_reducible exact memPuts_wf h)
    | with_reducible exact memPut_wf _ _ _
    | with_reducible exact memClear_wf _ _ _
    | with_reducible exact memKeep_wf _ _
    | exact fun h => absurd h (by omega)
    | intro _ _
    | dsimp only

theorem keeps_resetFlows {lv : Nat} {ss0 : State} {s : State} (hK : Keeps lv ss0 s) :
    Keeps lv ss0 (resetFlows s) := by
  unfold resetFlows
  iterate 40 try any_goals first
    | with_reducible assumption
    | with_reducible exact fun h => h
    | with_reducible exact fun _ => rfl
    | with_reducible exact fun _ => ⟨rfl, rfl⟩
    | with_reducible exact rfl
    | with_reducible apply keeps_draw
    | with_reducible apply keeps_flowEnd
    | with_reducible apply keeps_sendClose
    | with_reducible apply keeps_updDom
    | (with_reducible apply Keeps.foldl; intro _ _ _)
    | with_reducible apply Keeps.ite
    | with_reducible apply Keeps.upd

theorem keeps_resetOutputs {lv : Nat} {ss0 : State} {s : State} (hK : Keeps lv ss0 s) :
    Keeps lv ss0 (resetOutputs s) := by
  unfold resetOutputs
  try dsimp only
  iterate 40 try any_goals first
    | with_reducible assumption
    | with_reducible exact fun h => h
    | with_reducible exact fun _ h => h
    | with_reducible exact fun _ => rfl
    | with_reducible exact fun _ => ⟨rfl, rfl⟩
    | with_reducible exact rfl
    | with_reducible exact fun _ => Mem.wf_nil
    | (intro _; with_reducible exact memPutBytes_wf _ _ _)
    | with_reducible apply keeps_outEnd
    | with_reducible apply keeps_outDisable
    | with_reducible apply keeps_updDisp
    | with_reducible apply keeps_audStop
    | with_reducible apply keeps_updAud
    | with_reducible apply Keeps.id
    | (with_reducible apply Keeps.foldl; intro _ _ _)
    | (with_reducible apply Keeps.foldl_snd; intro _ _ _)
    | (with_reducible apply Keeps.foldl_fst; intro _ _ _)
    | with_reducible apply Keeps.ite
    | split
    | with_reducible apply Keeps.upd
    | with_reducible exact memPutBytes_wf _ _ _
    | with_reducible exact memPutLE_wf _ _ _ _
    | (intro h; with_reducible exact memPuts_wf h)
    | with_reducible exact memPut_wf _ _ _
    | with_reducible exact memClear_wf _ _ _
    | with_reducible exact memKeep_wf _ _
    | exact fun h => absurd h (by omega)
    | intro _ _
    | dsimp only

theorem keeps_keepDram {lv : Nat} {ss0 : State} {s : State} (hK : Keeps lv ss0 s) :
    Keeps lv ss0 (keepDram s) := by
  unfold keepDram
  iterate 40 try any_goals first
    | with_reducible assumption
    | with_reducible exact fun h => h
    | with_reducible exact fun _ => rfl
    | with_reducible exact fun _ => ⟨rfl, rfl⟩
    | with_reducible exact rfl
    | with_reducible apply Keeps.upd
    | with_reducible exact memKeep_wf _ _

theorem keeps_dropUnkept {lv : Nat} {ss0 : State} {s : State} (hK : Keeps lv ss0 s) :
    Keeps lv ss0 (dropUnkept s) := by
  unfold dropUnkept
  iterate 40 try any_goals first
    | with_reducible assumption
    | with_reducible exact fun h => h
    | with_reducible exact fun _ => rfl
    | with_reducible exact fun _ => ⟨rfl, rfl⟩
    | with_reducible exact rfl
    | with_reducible apply keeps_clearSensor
    | with_reducible apply keeps_keepDram
    | with_reducible apply keeps_release
    | (with_reducible apply Keeps.foldl; intro _ _ _)
    | with_reducible apply Keeps.upd

theorem keeps_softReset {lv : Nat} {ss0 : State} {kind : ResetKind} {s : State} (hK : Keeps lv ss0 s) :
    Keeps lv ss0 (softReset kind s) := by
  unfold softReset
  try dsimp only
  iterate 40 try any_goals first
    | with_reducible assumption
    | with_reducible exact fun h => h
    | with_reducible exact fun _ h => h
    | with_reducible exact fun _ => rfl
    | with_reducible exact fun _ => ⟨rfl, rfl⟩
    | with_reducible exact rfl
    | with_reducible exact fun _ => Mem.wf_nil
    | (intro _; with_reducible exact memPutBytes_wf _ _ _)
    | with_reducible apply keeps_setLane
    | with_reducible apply keeps_dropUnkept
    | with_reducible apply keeps_closeFlint
    | with_reducible apply keeps_discardCommands
    | with_reducible apply keeps_resetRecording
    | with_reducible apply keeps_resetPixels
    | with_reducible apply keeps_resetSensor
    | with_reducible apply keeps_controllerReset
    | with_reducible apply keeps_finishPort
    | with_reducible apply keeps_resetOutputs
    | with_reducible apply keeps_resetFlows
    | with_reducible apply keeps_resetDomains
    | with_reducible apply Keeps.id
    | (with_reducible apply Keeps.foldl; intro _ _ _)
    | (with_reducible apply Keeps.foldl_snd; intro _ _ _)
    | (with_reducible apply Keeps.foldl_fst; intro _ _ _)
    | with_reducible apply Keeps.ite
    | split
    | with_reducible apply Keeps.upd
    | with_reducible exact memPutBytes_wf _ _ _
    | with_reducible exact memPutLE_wf _ _ _ _
    | (intro h; with_reducible exact memPuts_wf h)
    | with_reducible exact memPut_wf _ _ _
    | with_reducible exact memClear_wf _ _ _
    | with_reducible exact memKeep_wf _ _
    | exact fun h => absurd h (by omega)
    | intro _ _
    | dsimp only

theorem keeps_watchdogReset {lv : Nat} {ss0 : State} {s : State} (hK : Keeps lv ss0 s) :
    Keeps lv ss0 (watchdogReset s) := by
  unfold watchdogReset
  try dsimp only
  iterate 40 try any_goals first
    | with_reducible assumption
    | with_reducible exact fun h => h
    | with_reducible exact fun _ h => h
    | with_reducible exact fun _ => rfl
    | with_reducible exact fun _ => ⟨rfl, rfl⟩
    | with_reducible exact rfl
    | with_reducible exact fun _ => Mem.wf_nil
    | (intro _; with_reducible exact memPutBytes_wf _ _ _)
    | with_reducible apply keeps_setStop
    | with_reducible apply keeps_softReset
    | with_reducible apply Keeps.id
    | (with_reducible apply Keeps.foldl; intro _ _ _)
    | (with_reducible apply Keeps.foldl_snd; intro _ _ _)
    | (with_reducible apply Keeps.foldl_fst; intro _ _ _)
    | with_reducible apply Keeps.ite
    | split
    | with_reducible apply Keeps.upd
    | with_reducible exact memPutBytes_wf _ _ _
    | with_reducible exact memPutLE_wf _ _ _ _
    | (intro h; with_reducible exact memPuts_wf h)
    | with_reducible exact memPut_wf _ _ _
    | with_reducible exact memClear_wf _ _ _
    | with_reducible exact memKeep_wf _ _
    | exact fun h => absurd h (by omega)
    | intro _ _
    | dsimp only

theorem keeps_buildPools {lv : Nat} {ss0 : State} {s : State} (hK : Keeps lv ss0 s) :
    Keeps lv ss0 (buildPools s) := by
  unfold buildPools
  try dsimp only
  iterate 40 try any_goals first
    | with_reducible assumption
    | with_reducible exact fun h => h
    | with_reducible exact fun _ h => h
    | with_reducible exact fun _ => rfl
    | with_reducible exact fun _ => ⟨rfl, rfl⟩
    | with_reducible exact rfl
    | with_reducible exact fun _ => Mem.wf_nil
    | (intro _; with_reducible exact memPutBytes_wf _ _ _)
    | with_reducible apply Keeps.id
    | (with_reducible apply Keeps.foldl; intro _ _ _)
    | (with_reducible apply Keeps.foldl_snd; intro _ _ _)
    | (with_reducible apply Keeps.foldl_fst; intro _ _ _)
    | with_reducible apply Keeps.ite
    | split
    | with_reducible apply Keeps.upd
    | with_reducible exact memPutBytes_wf _ _ _
    | with_reducible exact memPutLE_wf _ _ _ _
    | (intro h; with_reducible exact memPuts_wf h)
    | with_reducible exact memPut_wf _ _ _
    | with_reducible exact memClear_wf _ _ _
    | with_reducible exact memKeep_wf _ _
    | exact fun h => absurd h (by omega)
    | intro _ _
    | dsimp only

theorem keeps_withoutBanks {lv : Nat} {ss0 : State} {s : State} (hK : Keeps lv ss0 s) :
    Keeps lv ss0 (withoutBanks s) := by
  unfold withoutBanks
  try dsimp only
  iterate 40 try any_goals first
    | with_reducible assumption
    | with_reducible exact fun h => h
    | with_reducible exact fun _ h => h
    | with_reducible exact fun _ => rfl
    | with_reducible exact fun _ => ⟨rfl, rfl⟩
    | with_reducible exact rfl
    | with_reducible exact fun _ => Mem.wf_nil
    | (intro _; with_reducible exact memPutBytes_wf _ _ _)
    | with_reducible apply Keeps.id
    | (with_reducible apply Keeps.foldl; intro _ _ _)
    | (with_reducible apply Keeps.foldl_snd; intro _ _ _)
    | (with_reducible apply Keeps.foldl_fst; intro _ _ _)
    | with_reducible apply Keeps.ite
    | split
    | with_reducible apply Keeps.upd
    | with_reducible exact memPutBytes_wf _ _ _
    | with_reducible exact memPutLE_wf _ _ _ _
    | (intro h; with_reducible exact memPuts_wf h)
    | with_reducible exact memPut_wf _ _ _
    | with_reducible exact memClear_wf _ _ _
    | with_reducible exact memKeep_wf _ _
    | exact fun h => absurd h (by omega)
    | intro _ _
    | dsimp only

theorem keeps_fullReset {lv : Nat} {ss0 : State} {hold : Option FaultHold} {s : State} (hK : Keeps (lv + 1) ss0 s) :
    Keeps (lv + 1) ss0 (fullReset hold s) := by
  unfold fullReset
  try dsimp only
  iterate 40 try any_goals first
    | with_reducible assumption
    | with_reducible exact fun h => h
    | with_reducible exact fun _ h => h
    | with_reducible exact fun _ => rfl
    | with_reducible exact fun _ => ⟨rfl, rfl⟩
    | with_reducible exact rfl
    | with_reducible exact fun _ => Mem.wf_nil
    | (intro _; with_reducible exact memPutBytes_wf _ _ _)
    | with_reducible apply keeps_withoutBanks
    | with_reducible apply keeps_buildPools
    | (intro h; with_reducible exact ⟨disks_map (fun _ h => h) h.1, Mem.wf_nil⟩)
    | with_reducible apply Keeps.id
    | (with_reducible apply Keeps.foldl; intro _ _ _)
    | (with_reducible apply Keeps.foldl_snd; intro _ _ _)
    | (with_reducible apply Keeps.foldl_fst; intro _ _ _)
    | with_reducible apply Keeps.ite
    | split
    | with_reducible apply Keeps.upd
    | with_reducible exact memPutBytes_wf _ _ _
    | with_reducible exact memPutLE_wf _ _ _ _
    | (intro h; with_reducible exact memPuts_wf h)
    | with_reducible exact memPut_wf _ _ _
    | with_reducible exact memClear_wf _ _ _
    | with_reducible exact memKeep_wf _ _
    | exact fun h => absurd h (by omega)
    | intro _ _
    | dsimp only

theorem keeps_coldReset {lv : Nat} {ss0 : State} {s : State} (hK : Keeps (lv + 2) ss0 s) :
    Keeps (lv + 2) ss0 (coldReset s) := by
  unfold coldReset
  try dsimp only
  iterate 40 try any_goals first
    | with_reducible assumption
    | with_reducible exact fun h => h
    | with_reducible exact fun _ h => h
    | with_reducible exact fun _ => rfl
    | with_reducible exact fun _ => ⟨rfl, rfl⟩
    | with_reducible exact rfl
    | with_reducible exact fun _ => Mem.wf_nil
    | (intro _; with_reducible exact memPutBytes_wf _ _ _)
    | with_reducible apply keeps_fullReset
    | with_reducible apply keeps_withoutBanks
    | exact (keeps_fullReset (lv := 0) (Keeps.refl _ s)).flash.symm
    | with_reducible apply Keeps.id
    | (with_reducible apply Keeps.foldl; intro _ _ _)
    | (with_reducible apply Keeps.foldl_snd; intro _ _ _)
    | (with_reducible apply Keeps.foldl_fst; intro _ _ _)
    | with_reducible apply Keeps.ite
    | split
    | with_reducible apply Keeps.upd
    | with_reducible exact memPutBytes_wf _ _ _
    | with_reducible exact memPutLE_wf _ _ _ _
    | (intro h; with_reducible exact memPuts_wf h)
    | with_reducible exact memPut_wf _ _ _
    | with_reducible exact memClear_wf _ _ _
    | with_reducible exact memKeep_wf _ _
    | exact fun h => absurd h (by omega)
    | intro _ _
    | dsimp only

theorem keeps_readPolicy {lv : Nat} {ss0 : State} {s : State} (hK : Keeps (lv + 2) ss0 s) :
    Keeps (lv + 2) ss0 (readPolicy s) := by
  unfold readPolicy
  iterate 40 try any_goals first
    | with_reducible assumption
    | with_reducible exact fun h => h
    | with_reducible exact fun _ => rfl
    | with_reducible exact rfl
    | with_reducible apply keeps_bedrockLeaf
    | with_reducible apply Keeps.ite
    | with_reducible apply Keeps.upd
    | exact fun h => absurd h (by omega)

/-! ## SpareOps -/

theorem keeps_mapCore {lv : Nat} {ss0 : State} {s : State} {i : Nat} {p : Nat} {cause : Nat} (hK : Keeps lv ss0 s) :
    Keeps lv ss0 (mapCore s i p cause) := by
  unfold mapCore
  iterate 40 try any_goals first
    | with_reducible assumption
    | with_reducible exact fun h => h
    | with_reducible exact fun _ => rfl
    | with_reducible exact fun _ => ⟨rfl, rfl⟩
    | with_reducible exact rfl
    | with_reducible apply keeps_spareRecord
    | with_reducible apply keeps_countSubst
    | with_reducible apply Keeps.upd

theorem keeps_coreFailFor {lv : Nat} {ss0 : State} {mid : State → State} {s : State} {p : Nat} {cause : Nat} (hmid : ∀ z0, Keeps lv ss0 z0 → Keeps lv ss0 (mid z0))
    (hK : Keeps lv ss0 s) :
    Keeps lv ss0 (coreFailFor mid s p cause) := by
  unfold coreFailFor
  iterate 40 try any_goals first
    | with_reducible assumption
    | with_reducible apply hmid
    | with_reducible exact fun h => h
    | with_reducible exact fun _ => rfl
    | with_reducible exact fun _ => ⟨rfl, rfl⟩
    | with_reducible exact rfl
    | with_reducible apply keeps_bedrockLeaf
    | with_reducible apply keeps_spareRecord
    | with_reducible apply keeps_mapCore
    | with_reducible apply keeps_setLeaf
    | with_reducible apply Keeps.ite
    | split
    | with_reducible apply Keeps.upd

theorem keeps_bankRecord {lv : Nat} {ss0 : State} {b : BankId} {cause : Nat} {count : Nat} {s : State} (hK : Keeps lv ss0 s) :
    Keeps lv ss0 (bankRecord b cause count s) := by
  unfold bankRecord
  iterate 40 try any_goals first
    | with_reducible assumption
    | with_reducible exact fun h => h
    | with_reducible exact fun _ => rfl
    | with_reducible exact fun _ => ⟨rfl, rfl⟩
    | with_reducible exact rfl
    | with_reducible apply keeps_spareRecord
    | with_reducible apply keeps_countSubst
    | with_reducible apply keeps_setLeaf
    | with_reducible apply Keeps.ite
    | with_reducible apply Keeps.upd

theorem keeps_loseRecords {lv : Nat} {ss0 : State} {s : State} {qi : Nat} {half : Nat} (hK : Keeps lv ss0 s) :
    Keeps lv ss0 (loseRecords s qi half) := by
  unfold loseRecords
  iterate 40 try any_goals with_reducible first | assumption | apply keeps_attnEdge | apply keeps_updQueue

theorem keeps_lostSpan {lv : Nat} {ss0 : State} {s : State} {span : Nat × Nat × Nat} (hK : Keeps lv ss0 s) :
    Keeps lv ss0 (lostSpan s span) := by
  unfold lostSpan
  iterate 40 try any_goals first
    | with_reducible assumption
    | with_reducible apply keeps_draw
    | with_reducible apply keeps_updDisp
    | with_reducible apply Keeps.ite

theorem keeps_loseReplay {lv : Nat} {ss0 : State} {s : State} {u : Nat} {bank : Nat} (hK : Keeps lv ss0 s) :
    Keeps lv ss0 (loseReplay s u bank) := by
  unfold loseReplay
  try dsimp only
  iterate 40 try any_goals first
    | with_reducible assumption
    | with_reducible exact fun h => h
    | with_reducible exact fun _ h => h
    | with_reducible exact fun _ => rfl
    | with_reducible exact fun _ => ⟨rfl, rfl⟩
    | with_reducible exact rfl
    | with_reducible exact fun _ => Mem.wf_nil
    | (intro _; with_reducible exact memPutBytes_wf _ _ _)
    | with_reducible apply keeps_linkFail
    | with_reducible apply keeps_updPort
    | with_reducible apply Keeps.id
    | (with_reducible apply Keeps.foldl; intro _ _ _)
    | (with_reducible apply Keeps.foldl_snd; intro _ _ _)
    | (with_reducible apply Keeps.foldl_fst; intro _ _ _)
    | with_reducible apply Keeps.ite
    | split
    | with_reducible apply Keeps.upd
    | with_reducible exact memPutBytes_wf _ _ _
    | with_reducible exact memPutLE_wf _ _ _ _
    | (intro h; with_reducible exact memPuts_wf h)
    | with_reducible exact memPut_wf _ _ _
    | with_reducible exact memClear_wf _ _ _
    | with_reducible exact memKeep_wf _ _
    | exact fun h => absurd h (by omega)
    | intro _ _
    | dsimp only

theorem keeps_bankRecover {lv : Nat} {ss0 : State} {s : State} {b : BankId} {spans : List (Nat × Nat × Nat)} (hK : Keeps lv ss0 s) :
    Keeps lv ss0 (bankRecover s b spans) := by
  unfold bankRecover
  try dsimp only
  iterate 40 try any_goals first
    | with_reducible assumption
    | with_reducible exact fun h => h
    | with_reducible exact fun _ h => h
    | with_reducible exact fun _ => rfl
    | with_reducible exact fun _ => ⟨rfl, rfl⟩
    | with_reducible exact rfl
    | with_reducible exact fun _ => Mem.wf_nil
    | (intro _; with_reducible exact memPutBytes_wf _ _ _)
    | with_reducible apply keeps_bankRecord
    | with_reducible apply keeps_engineFailFor
    | with_reducible apply keeps_laneFailFor
    | with_reducible apply keeps_lostSpan
    | with_reducible apply keeps_loseReplay
    | with_reducible apply keeps_loseRecords
    | with_reducible apply keeps_watchdogReset
    | with_reducible apply keeps_coreFailFor
    | with_reducible apply Keeps.id
    | (with_reducible apply Keeps.foldl; intro _ _ _)
    | (with_reducible apply Keeps.foldl_snd; intro _ _ _)
    | (with_reducible apply Keeps.foldl_fst; intro _ _ _)
    | with_reducible apply Keeps.ite
    | split
    | with_reducible apply Keeps.upd
    | with_reducible exact memPutBytes_wf _ _ _
    | with_reducible exact memPutLE_wf _ _ _ _
    | (intro h; with_reducible exact memPuts_wf h)
    | with_reducible exact memPut_wf _ _ _
    | with_reducible exact memClear_wf _ _ _
    | with_reducible exact memKeep_wf _ _
    | exact fun h => absurd h (by omega)
    | intro _ _
    | dsimp only

theorem keeps_shrinkWindows {lv : Nat} {ss0 : State}  : ∀ {nn : Nat} {sv : State},
    Keeps lv ss0 sv → Keeps lv ss0 (shrinkWindows nn sv) := by
  intro nn
  induction nn with
  | zero => intro sv hK; exact hK
  | succ nn ih =>
    intro sv hK
    unfold shrinkWindows
    iterate 40 try any_goals first
      | with_reducible assumption
      | with_reducible apply ih
      | with_reducible exact fun _ h => h
      | with_reducible apply keeps_updGatePort
      | with_reducible apply Keeps.ite
      | split

theorem keeps_bankOverdraw {lv : Nat} {ss0 : State} {s : State} {b : BankId} {cause : Nat} {count : Nat} {spans : List (Nat × Nat × Nat)} (hK : Keeps lv ss0 s) :
    Keeps lv ss0 (bankOverdraw s b cause count spans) := by
  unfold bankOverdraw
  try dsimp only
  iterate 40 try any_goals first
    | with_reducible assumption
    | with_reducible exact fun h => h
    | with_reducible exact fun _ h => h
    | with_reducible exact fun _ => rfl
    | with_reducible exact fun _ => ⟨rfl, rfl⟩
    | with_reducible exact rfl
    | with_reducible exact fun _ => Mem.wf_nil
    | (intro _; with_reducible exact memPutBytes_wf _ _ _)
    | with_reducible apply keeps_bankRecord
    | with_reducible apply keeps_engineFailFor
    | with_reducible apply keeps_laneFailFor
    | with_reducible apply keeps_shrinkWindows
    | with_reducible apply keeps_lostSpan
    | with_reducible apply keeps_coreFailFor
    | with_reducible apply keeps_watchdogReset
    | with_reducible apply Keeps.id
    | (with_reducible apply Keeps.foldl; intro _ _ _)
    | (with_reducible apply Keeps.foldl_snd; intro _ _ _)
    | (with_reducible apply Keeps.foldl_fst; intro _ _ _)
    | with_reducible apply Keeps.ite
    | split
    | with_reducible apply Keeps.upd
    | with_reducible exact memPutBytes_wf _ _ _
    | with_reducible exact memPutLE_wf _ _ _ _
    | (intro h; with_reducible exact memPuts_wf h)
    | with_reducible exact memPut_wf _ _ _
    | with_reducible exact memClear_wf _ _ _
    | with_reducible exact memKeep_wf _ _
    | exact fun h => absurd h (by omega)
    | intro _ _
    | dsimp only

theorem keeps_unitReturned {lv : Nat} {ss0 : State} {s : State} {cls : Nat} {p : Nat} {cause : Nat} (hK : Keeps lv ss0 s) :
    Keeps lv ss0 (unitReturned s cls p cause) := by
  unfold unitReturned
  iterate 40 try any_goals first
    | with_reducible assumption
    | with_reducible exact fun h => h
    | with_reducible exact fun _ => rfl
    | with_reducible exact fun _ => ⟨rfl, rfl⟩
    | with_reducible exact rfl
    | with_reducible apply keeps_settleCredit
    | with_reducible apply keeps_spareRecord
    | with_reducible apply keeps_overloadCheck
    | with_reducible apply keeps_countSubst
    | with_reducible apply keeps_updLane
    | with_reducible apply keeps_mapCore
    | with_reducible apply keeps_updTemp
    | with_reducible apply keeps_floorCheck
    | with_reducible apply Keeps.ite
    | split
    | with_reducible apply Keeps.upd

theorem keeps_byteCount {lv : Nat} {ss0 : State} {s : State} {n : Nat} (hK : Keeps lv ss0 s) :
    Keeps lv ss0 ((byteCount s n).2) := by
  unfold byteCount
  iterate 40 try any_goals with_reducible first | assumption | apply keeps_draw | split

theorem keeps_poolBytes {lv : Nat} {ss0 : State} {acc : List Byte × State} {k : Nat} (hK : Keeps lv ss0 acc.2) :
    Keeps lv ss0 (poolBytes acc k).2 := keeps_byteCount (keeps_byteCount hK)

/-! ## Spares -/

theorem card_spareStatusCard {lv : Nat}  : Card.Keeps lv spareStatusCard := by
  intro n b ss0 s hK
  unfold spareStatusCard
  iterate 40 try any_goals first
    | with_reducible assumption
    | with_reducible exact fun h => h
    | with_reducible exact fun _ => rfl
    | with_reducible exact fun _ => ⟨rfl, rfl⟩
    | with_reducible exact rfl
    | with_reducible apply keeps_poolBytes
    | (with_reducible apply Keeps.foldl_snd; intro _ _ _)
    | with_reducible apply Keeps.ite
    | with_reducible apply Keeps.upd

theorem keeps_execSpareStatus (n : Fin 40) (s : State) : KeepsO 0 s (execSpareStatus n s) :=
  .next (keeps_mbxRun card_spareStatusCard (.refl _ _))

theorem card_spareLedgerCard {lv : Nat}  : Card.Keeps lv spareLedgerCard := by
  intro n b ss0 s hK
  unfold spareLedgerCard
  iterate 40 try any_goals with_reducible first | assumption

theorem keeps_execSpareLedger (n : Fin 40) (s : State) : KeepsO 0 s (execSpareLedger n s) :=
  .next (keeps_mbxRun card_spareLedgerCard (.refl _ _))

theorem card_spareReturnCard {lv : Nat}  : Card.Keeps lv spareReturnCard := by
  intro n b ss0 s hK
  unfold spareReturnCard
  iterate 40 try any_goals first
    | with_reducible assumption
    | with_reducible exact fun h => h
    | with_reducible exact fun _ => rfl
    | with_reducible exact fun _ => ⟨rfl, rfl⟩
    | with_reducible exact rfl
    | with_reducible apply Keeps.upd

theorem keeps_execSpareReturn (n : Fin 40) (s : State) : KeepsO 0 s (execSpareReturn n s) :=
  .next (keeps_mbxRun card_spareReturnCard (.refl _ _))

theorem keeps_execBankFault (array : Fin 15) (unit : Fin 16) (bank : Fin 1024) (spans : List (Fin 1600 × Fin 2560 × Fin 2561)) (flash : Bool) (s : State) : KeepsO 0 s (execBankFault array unit bank spans flash s) := by
  unfold execBankFault
  try dsimp only
  iterate 40 try any_goals first
    | with_reducible apply KeepsO.next
    | with_reducible exact Keeps.refl _ _
    | with_reducible assumption
    | with_reducible exact fun h => h
    | with_reducible exact fun _ h => h
    | with_reducible exact fun _ => rfl
    | with_reducible exact fun _ => ⟨rfl, rfl⟩
    | with_reducible exact rfl
    | with_reducible exact fun _ => Mem.wf_nil
    | (intro _; with_reducible exact memPutBytes_wf _ _ _)
    | with_reducible apply keeps_bankRecover
    | with_reducible apply keeps_bankOverdraw
    | with_reducible apply Keeps.id
    | (with_reducible apply Keeps.foldl; intro _ _ _)
    | (with_reducible apply Keeps.foldl_snd; intro _ _ _)
    | (with_reducible apply Keeps.foldl_fst; intro _ _ _)
    | with_reducible apply Keeps.ite
    | split
    | with_reducible apply Keeps.upd
    | with_reducible exact memPutBytes_wf _ _ _
    | with_reducible exact memPutLE_wf _ _ _ _
    | (intro h; with_reducible exact memPuts_wf h)
    | with_reducible exact memPut_wf _ _ _
    | with_reducible exact memClear_wf _ _ _
    | with_reducible exact memKeep_wf _ _
    | exact fun h => absurd h (by omega)
    | intro _ _
    | dsimp only

theorem keeps_execBankWear (array : Fin 15) (unit : Fin 16) (bank : Fin 1024) (corrections : BitVec 32) (flash : Bool) (s : State) : KeepsO 0 s (execBankWear array unit bank corrections flash s) := by
  unfold execBankWear
  try dsimp only
  iterate 40 try any_goals first
    | with_reducible apply KeepsO.next
    | with_reducible exact Keeps.refl _ _
    | with_reducible assumption
    | with_reducible exact fun h => h
    | with_reducible exact fun _ h => h
    | with_reducible exact fun _ => rfl
    | with_reducible exact fun _ => ⟨rfl, rfl⟩
    | with_reducible exact rfl
    | with_reducible exact fun _ => Mem.wf_nil
    | (intro _; with_reducible exact memPutBytes_wf _ _ _)
    | with_reducible apply keeps_bankRecord
    | with_reducible apply keeps_bankOverdraw
    | with_reducible apply Keeps.id
    | (with_reducible apply Keeps.foldl; intro _ _ _)
    | (with_reducible apply Keeps.foldl_snd; intro _ _ _)
    | (with_reducible apply Keeps.foldl_fst; intro _ _ _)
    | with_reducible apply Keeps.ite
    | split
    | with_reducible apply Keeps.upd
    | with_reducible exact memPutBytes_wf _ _ _
    | with_reducible exact memPutLE_wf _ _ _ _
    | (intro h; with_reducible exact memPuts_wf h)
    | with_reducible exact memPut_wf _ _ _
    | with_reducible exact memClear_wf _ _ _
    | with_reducible exact memKeep_wf _ _
    | exact fun h => absurd h (by omega)
    | intro _ _
    | dsimp only

theorem keeps_execSelfTestDone (cls : Fin 8) (index : Fin 64) (pass : Bool) (flash : Bool) (s : State) : KeepsO 0 s (execSelfTestDone cls index pass flash s) := by
  unfold execSelfTestDone
  iterate 40 try any_goals first
    | with_reducible apply KeepsO.next
    | with_reducible exact Keeps.refl _ _
    | with_reducible exact fun h => h
    | with_reducible exact fun _ => rfl
    | with_reducible exact fun _ => ⟨rfl, rfl⟩
    | with_reducible exact rfl
    | with_reducible apply keeps_unitReturned
    | with_reducible apply keeps_spareRecord
    | split
    | with_reducible apply Keeps.upd

theorem keeps_poisonStaged {lv : Nat} {ss0 : State} {s : State} {i : Nat} {off : Nat} (hK : Keeps lv ss0 s) :
    Keeps lv ss0 (poisonStaged s i off) := by
  unfold poisonStaged
  iterate 40 try any_goals first
    | with_reducible assumption
    | with_reducible exact fun h => h
    | with_reducible exact fun _ => rfl
    | with_reducible exact fun _ => ⟨rfl, rfl⟩
    | with_reducible exact rfl
    | split
    | with_reducible apply Keeps.upd

theorem keeps_poisonClient {lv : Nat} {ss0 : State} {s : State} {a : Nat} {client : BurstClient} (hK : Keeps lv ss0 s) :
    Keeps lv ss0 (poisonClient s a client) := by
  unfold poisonClient
  iterate 40 try any_goals first
    | with_reducible assumption
    | with_reducible apply keeps_watchdogReset
    | with_reducible apply keeps_poisonHandled
    | with_reducible apply keeps_poisonStaged
    | split

theorem keeps_execBurstPoisoned (addr : BitVec 36) (rank : Fin 2) (bank : BitVec 12) (row : BitVec 32) (client : BurstClient) (s : State) : KeepsO 0 s (execBurstPoisoned addr rank bank row client s) := by
  unfold execBurstPoisoned
  try dsimp only
  iterate 40 try any_goals first
    | with_reducible apply KeepsO.next
    | with_reducible exact Keeps.refl _ _
    | with_reducible assumption
    | with_reducible exact fun h => h
    | with_reducible exact fun _ h => h
    | with_reducible exact fun _ => rfl
    | with_reducible exact fun _ => ⟨rfl, rfl⟩
    | with_reducible exact rfl
    | with_reducible exact fun _ => Mem.wf_nil
    | (intro _; with_reducible exact memPutBytes_wf _ _ _)
    | with_reducible apply keeps_updChannel
    | with_reducible apply keeps_notify
    | with_reducible apply keeps_queueRow
    | with_reducible apply keeps_poisonClient
    | with_reducible apply Keeps.id
    | (with_reducible apply Keeps.foldl; intro _ _ _)
    | (with_reducible apply Keeps.foldl_snd; intro _ _ _)
    | (with_reducible apply Keeps.foldl_fst; intro _ _ _)
    | with_reducible apply Keeps.ite
    | split
    | with_reducible apply Keeps.upd
    | with_reducible exact memPutBytes_wf _ _ _
    | with_reducible exact memPutLE_wf _ _ _ _
    | (intro h; with_reducible exact memPuts_wf h)
    | with_reducible exact memPut_wf _ _ _
    | with_reducible exact memClear_wf _ _ _
    | with_reducible exact memKeep_wf _ _
    | exact fun h => absurd h (by omega)
    | intro _ _
    | dsimp only

end Sys2Proof.Machine
end

