-- ==== Sys2Proof/Laws/KeepsBoot.lean ====
section
/-! SUPPORT. What the operations of boot, Bedrock and power keep. -/

namespace Sys2Proof.Machine

/-! ## BootOps -/

theorem keeps_setRail {lv : Nat} {ss0 : State} {s : State} {k : Nat} {mv : Nat} (hK : Keeps lv ss0 s) :
    Keeps lv ss0 (setRail s k mv) := by
  unfold setRail
  iterate 40 try any_goals first
    | with_reducible assumption
    | with_reducible exact fun h => h
    | with_reducible exact fun _ => rfl
    | with_reducible exact fun _ => ⟨rfl, rfl⟩
    | with_reducible exact rfl
    | with_reducible apply Keeps.upd

theorem keeps_lockRoot {lv : Nat} {ss0 : State} {s : State} {alt : Bool} (hK : Keeps lv ss0 s) :
    Keeps lv ss0 (lockRoot s alt) := by
  unfold lockRoot
  try dsimp only
  iterate 40 try any_goals first
    | with_reducible assumption
    | with_reducible exact fun h => h
    | with_reducible exact fun _ h => h
    | with_reducible exact fun _ => rfl
    | with_reducible exact fun _ => ⟨rfl, rfl⟩
    | with_reducible exact rfl
    | with_reducible exact fun _ => Mem.wf_nil
    | (intro _; with_reducible exact memPutBytes_wf _ _ _)
    | with_reducible apply Keeps.id
    | (with_reducible apply Keeps.foldl; intro _ _ _)
    | (with_reducible apply Keeps.foldl_snd; intro _ _ _)
    | (with_reducible apply Keeps.foldl_fst; intro _ _ _)
    | with_reducible apply Keeps.ite
    | split
    | with_reducible apply Keeps.upd
    | with_reducible exact memPutBytes_wf _ _ _
    | with_reducible exact memPutLE_wf _ _ _ _
    | (intro h; with_reducible exact memPuts_wf h)
    | with_reducible exact memPut_wf _ _ _
    | with_reducible exact memClear_wf _ _ _
    | with_reducible exact memKeep_wf _ _
    | exact fun h => absurd h (by omega)
    | intro _ _
    | dsimp only

theorem keeps_tryStart {lv : Nat} {ss0 : State} {s : State} (hK : Keeps (lv + 2) ss0 s) :
    Keeps (lv + 2) ss0 (tryStart s) := by
  unfold tryStart
  try dsimp only
  iterate 40 try any_goals first
    | with_reducible assumption
    | with_reducible exact fun h => h
    | with_reducible exact fun _ h => h
    | with_reducible exact fun _ => rfl
    | with_reducible exact fun _ => ⟨rfl, rfl⟩
    | with_reducible exact rfl
    | with_reducible exact fun _ => Mem.wf_nil
    | (intro _; with_reducible exact memPutBytes_wf _ _ _)
    | with_reducible apply keeps_readPolicy
    | with_reducible apply keeps_fullReset
    | with_reducible apply keeps_setStop
    | with_reducible apply Keeps.id
    | (with_reducible apply Keeps.foldl; intro _ _ _)
    | (with_reducible apply Keeps.foldl_snd; intro _ _ _)
    | (with_reducible apply Keeps.foldl_fst; intro _ _ _)
    | with_reducible apply Keeps.ite
    | split
    | with_reducible apply Keeps.upd
    | with_reducible exact memPutBytes_wf _ _ _
    | with_reducible exact memPutLE_wf _ _ _ _
    | (intro h; with_reducible exact memPuts_wf h)
    | with_reducible exact memPut_wf _ _ _
    | with_reducible exact memClear_wf _ _ _
    | with_reducible exact memKeep_wf _ _
    | exact fun h => absurd h (by omega)
    | intro _ _
    | dsimp only

theorem keeps_bootCalibrate {lv : Nat} {ss0 : State} {s : State} {rcal : Nat} {codes : List (List (BitVec 10))} (hK : Keeps lv ss0 s) :
    Keeps lv ss0 (bootCalibrate s rcal codes) := by
  unfold bootCalibrate
  try dsimp only
  iterate 40 try any_goals first
    | with_reducible assumption
    | with_reducible exact fun h => h
    | with_reducible exact fun _ h => h
    | with_reducible exact fun _ => rfl
    | with_reducible exact fun _ => ⟨rfl, rfl⟩
    | with_reducible exact rfl
    | with_reducible exact fun _ => Mem.wf_nil
    | (intro _; with_reducible exact memPutBytes_wf _ _ _)
    | with_reducible apply Keeps.id
    | (with_reducible apply Keeps.foldl; intro _ _ _)
    | (with_reducible apply Keeps.foldl_snd; intro _ _ _)
    | (with_reducible apply Keeps.foldl_fst; intro _ _ _)
    | with_reducible apply Keeps.ite
    | split
    | with_reducible apply Keeps.upd
    | with_reducible exact memPutBytes_wf _ _ _
    | with_reducible exact memPutLE_wf _ _ _ _
    | (intro h; with_reducible exact memPuts_wf h)
    | with_reducible exact memPut_wf _ _ _
    | with_reducible exact memClear_wf _ _ _
    | with_reducible exact memKeep_wf _ _
    | exact fun h => absurd h (by omega)
    | intro _ _
    | dsimp only

theorem keeps_bootTrain {lv : Nat} {ss0 : State} {s : State} {channels : List ChannelTraining} (hK : Keeps lv ss0 s) :
    Keeps lv ss0 (bootTrain s channels) := by
  unfold bootTrain
  try dsimp only
  iterate 40 try any_goals first
    | with_reducible assumption
    | with_reducible exact fun h => h
    | with_reducible exact fun _ h => h
    | with_reducible exact fun _ => rfl
    | with_reducible exact fun _ => ⟨rfl, rfl⟩
    | with_reducible exact rfl
    | with_reducible exact fun _ => Mem.wf_nil
    | (intro _; with_reducible exact memPutBytes_wf _ _ _)
    | with_reducible apply Keeps.id
    | (with_reducible apply Keeps.foldl; intro _ _ _)
    | (with_reducible apply Keeps.foldl_snd; intro _ _ _)
    | (with_reducible apply Keeps.foldl_fst; intro _ _ _)
    | with_reducible apply Keeps.ite
    | split
    | with_reducible apply Keeps.upd
    | with_reducible exact memPutBytes_wf _ _ _
    | with_reducible exact memPutLE_wf _ _ _ _
    | (intro h; with_reducible exact memPuts_wf h)
    | with_reducible exact memPut_wf _ _ _
    | with_reducible exact memClear_wf _ _ _
    | with_reducible exact memKeep_wf _ _
    | exact fun h => absurd h (by omega)
    | intro _ _
    | dsimp only

theorem keeps_bootRepair {lv : Nat} {ss0 : State} {s : State} {ppr : List RowRepair} (hK : Keeps lv ss0 s) :
    Keeps lv ss0 (bootRepair s ppr) := by
  unfold bootRepair
  try dsimp only
  iterate 40 try any_goals first
    | with_reducible assumption
    | with_reducible exact fun h => h
    | with_reducible exact fun _ h => h
    | with_reducible exact fun _ => rfl
    | with_reducible exact fun _ => ⟨rfl, rfl⟩
    | with_reducible exact rfl
    | with_reducible exact fun _ => Mem.wf_nil
    | (intro _; with_reducible exact memPutBytes_wf _ _ _)
    | with_reducible apply keeps_updChannel
    | with_reducible apply keeps_spareRecord
    | with_reducible apply Keeps.id
    | (with_reducible apply Keeps.foldl; intro _ _ _)
    | (with_reducible apply Keeps.foldl_snd; intro _ _ _)
    | (with_reducible apply Keeps.foldl_fst; intro _ _ _)
    | with_reducible apply Keeps.ite
    | split
    | with_reducible apply Keeps.upd
    | with_reducible exact memPutBytes_wf _ _ _
    | with_reducible exact memPutLE_wf _ _ _ _
    | (intro h; with_reducible exact memPuts_wf h)
    | with_reducible exact memPut_wf _ _ _
    | with_reducible exact memClear_wf _ _ _
    | with_reducible exact memKeep_wf _ _
    | exact fun h => absurd h (by omega)
    | intro _ _
    | dsimp only

theorem keeps_bootQuad {lv : Nat} {ss0 : State} {s : State} {refq : Bool} {gen : Nat} {width : Nat} (hK : Keeps lv ss0 s) :
    Keeps lv ss0 (bootQuad s refq gen width) := by
  unfold bootQuad
  try dsimp only
  iterate 40 try any_goals first
    | with_reducible assumption
    | with_reducible exact fun h => h
    | with_reducible exact fun _ h => h
    | with_reducible exact fun _ => rfl
    | with_reducible exact fun _ => ⟨rfl, rfl⟩
    | with_reducible exact rfl
    | with_reducible exact fun _ => Mem.wf_nil
    | (intro _; with_reducible exact memPutBytes_wf _ _ _)
    | with_reducible apply Keeps.id
    | (with_reducible apply Keeps.foldl; intro _ _ _)
    | (with_reducible apply Keeps.foldl_snd; intro _ _ _)
    | (with_reducible apply Keeps.foldl_fst; intro _ _ _)
    | with_reducible apply Keeps.ite
    | split
    | with_reducible apply Keeps.upd
    | with_reducible exact memPutBytes_wf _ _ _
    | with_reducible exact memPutLE_wf _ _ _ _
    | (intro h; with_reducible exact memPuts_wf h)
    | with_reducible exact memPut_wf _ _ _
    | with_reducible exact memClear_wf _ _ _
    | with_reducible exact memKeep_wf _ _
    | exact fun h => absurd h (by omega)
    | intro _ _
    | dsimp only

theorem keeps_bootFull {lv : Nat} {ss0 : State} {s : State} {r : BootReport} (hK : Keeps lv ss0 s) :
    Keeps lv ss0 (bootFull s r) := by
  unfold bootFull
  try dsimp only
  iterate 40 try any_goals first
    | with_reducible assumption
    | with_reducible exact fun h => h
    | with_reducible exact fun _ h => h
    | with_reducible exact fun _ => rfl
    | with_reducible exact fun _ => ⟨rfl, rfl⟩
    | with_reducible exact rfl
    | with_reducible exact fun _ => Mem.wf_nil
    | (intro _; with_reducible exact memPutBytes_wf _ _ _)
    | with_reducible apply keeps_bootTrain
    | with_reducible apply keeps_bootCalibrate
    | with_reducible apply keeps_floorCheck
    | with_reducible apply keeps_bootQuad
    | with_reducible apply keeps_bootRepair
    | with_reducible apply Keeps.id
    | (with_reducible apply Keeps.foldl; intro _ _ _)
    | (with_reducible apply Keeps.foldl_snd; intro _ _ _)
    | (with_reducible apply Keeps.foldl_fst; intro _ _ _)
    | with_reducible apply Keeps.ite
    | split
    | with_reducible apply Keeps.upd
    | with_reducible exact memPutBytes_wf _ _ _
    | with_reducible exact memPutLE_wf _ _ _ _
    | (intro h; with_reducible exact memPuts_wf h)
    | with_reducible exact memPut_wf _ _ _
    | with_reducible exact memClear_wf _ _ _
    | with_reducible exact memKeep_wf _ _
    | exact fun h => absurd h (by omega)
    | intro _ _
    | dsimp only

theorem keeps_runImage {lv : Nat} {ss0 : State} {s : State} {slot : Nat} {lacks : List Nat} (hK : Keeps lv ss0 s) :
    Keeps lv ss0 (runImage s slot lacks) := by
  unfold runImage
  iterate 40 try any_goals first
    | with_reducible assumption
    | with_reducible exact fun h => h
    | with_reducible exact fun _ => rfl
    | with_reducible exact fun _ => ⟨rfl, rfl⟩
    | with_reducible exact rfl
    | with_reducible apply Keeps.upd

theorem keeps_releaseSpwr {lv : Nat} {ss0 : State} {s : State} {sn : Nat} (hK : Keeps lv ss0 s) :
    Keeps lv ss0 (releaseSpwr s sn) := by
  unfold releaseSpwr
  try dsimp only
  iterate 40 try any_goals first
    | with_reducible assumption
    | with_reducible exact fun h => h
    | with_reducible exact fun _ h => h
    | with_reducible exact fun _ => rfl
    | with_reducible exact fun _ => ⟨rfl, rfl⟩
    | with_reducible exact rfl
    | with_reducible exact fun _ => Mem.wf_nil
    | (intro _; with_reducible exact memPutBytes_wf _ _ _)
    | with_reducible apply keeps_bedrockLeaf
    | with_reducible apply keeps_setSpwr
    | with_reducible apply Keeps.id
    | (with_reducible apply Keeps.foldl; intro _ _ _)
    | (with_reducible apply Keeps.foldl_snd; intro _ _ _)
    | (with_reducible apply Keeps.foldl_fst; intro _ _ _)
    | with_reducible apply Keeps.ite
    | split
    | with_reducible apply Keeps.upd
    | with_reducible exact memPutBytes_wf _ _ _
    | with_reducible exact memPutLE_wf _ _ _ _
    | (intro h; with_reducible exact memPuts_wf h)
    | with_reducible exact memPut_wf _ _ _
    | with_reducible exact memClear_wf _ _ _
    | with_reducible exact memKeep_wf _ _
    | exact fun h => absurd h (by omega)
    | intro _ _
    | dsimp only

theorem keeps_bootFail {lv : Nat} {ss0 : State} {s : State} {phase : Nat} {cause : Nat} {channel : Nat} {byteLane : Nat} (hK : Keeps lv ss0 s) :
    Keeps lv ss0 (bootFail s phase cause channel byteLane) := by
  unfold bootFail
  try dsimp only
  iterate 40 try any_goals first
    | with_reducible assumption
    | with_reducible exact fun h => h
    | with_reducible exact fun _ h => h
    | with_reducible exact fun _ => rfl
    | with_reducible exact fun _ => ⟨rfl, rfl⟩
    | with_reducible exact rfl
    | with_reducible exact fun _ => Mem.wf_nil
    | (intro _; with_reducible exact memPutBytes_wf _ _ _)
    | with_reducible apply keeps_releaseSpwr
    | with_reducible apply Keeps.id
    | (with_reducible apply Keeps.foldl; intro _ _ _)
    | (with_reducible apply Keeps.foldl_snd; intro _ _ _)
    | (with_reducible apply Keeps.foldl_fst; intro _ _ _)
    | with_reducible apply Keeps.ite
    | split
    | with_reducible apply Keeps.upd
    | with_reducible exact memPutBytes_wf _ _ _
    | with_reducible exact memPutLE_wf _ _ _ _
    | (intro h; with_reducible exact memPuts_wf h)
    | with_reducible exact memPut_wf _ _ _
    | with_reducible exact memClear_wf _ _ _
    | with_reducible exact memKeep_wf _ _
    | exact fun h => absurd h (by omega)
    | intro _ _
    | dsimp only

theorem keeps_flushNotices {lv : Nat} {ss0 : State} {s : State} (hK : Keeps lv ss0 s) :
    Keeps lv ss0 (flushNotices s) := by
  unfold flushNotices
  iterate 40 try any_goals first
    | with_reducible assumption
    | with_reducible exact fun h => h
    | with_reducible exact fun _ => rfl
    | with_reducible exact fun _ => ⟨rfl, rfl⟩
    | with_reducible exact rfl
    | with_reducible apply keeps_postNotice
    | (with_reducible apply Keeps.foldl; intro _ _ _)
    | with_reducible apply Keeps.upd

theorem keeps_passBoot {lv : Nat} {ss0 : State} {s : State} {ms : Nat} (hK : Keeps lv ss0 s) :
    Keeps lv ss0 (passBoot s ms) := by
  unfold passBoot
  try dsimp only
  iterate 40 try any_goals first
    | with_reducible assumption
    | with_reducible exact fun h => h
    | with_reducible exact fun _ h => h
    | with_reducible exact fun _ => rfl
    | with_reducible exact fun _ => ⟨rfl, rfl⟩
    | with_reducible exact rfl
    | with_reducible exact fun _ => Mem.wf_nil
    | (intro _; with_reducible exact memPutBytes_wf _ _ _)
    | with_reducible apply keeps_draw
    | with_reducible apply Keeps.id
    | (with_reducible apply Keeps.foldl; intro _ _ _)
    | (with_reducible apply Keeps.foldl_snd; intro _ _ _)
    | (with_reducible apply Keeps.foldl_fst; intro _ _ _)
    | with_reducible apply Keeps.ite
    | split
    | with_reducible apply Keeps.upd
    | with_reducible exact memPutBytes_wf _ _ _
    | with_reducible exact memPutLE_wf _ _ _ _
    | (intro h; with_reducible exact memPuts_wf h)
    | with_reducible exact memPut_wf _ _ _
    | with_reducible exact memClear_wf _ _ _
    | with_reducible exact memKeep_wf _ _
    | exact fun h => absurd h (by omega)
    | intro _ _
    | dsimp only

theorem keeps_bootDone {lv : Nat} {ss0 : State} {s : State} {k : ResetKind} {slot : Nat} {lacks : List Nat} {ms : Nat} (hK : Keeps lv ss0 s) :
    Keeps lv ss0 (bootDone s k slot lacks ms) := by
  unfold bootDone
  try dsimp only
  iterate 40 try any_goals first
    | with_reducible assumption
    | with_reducible exact fun h => h
    | with_reducible exact fun _ h => h
    | with_reducible exact fun _ => rfl
    | with_reducible exact fun _ => ⟨rfl, rfl⟩
    | with_reducible exact rfl
    | with_reducible exact fun _ => Mem.wf_nil
    | (intro _; with_reducible exact memPutBytes_wf _ _ _)
    | with_reducible apply keeps_runImage
    | with_reducible apply keeps_passBoot
    | with_reducible apply keeps_askReopen
    | with_reducible apply keeps_notify
    | with_reducible apply keeps_flushNotices
    | with_reducible apply keeps_rcalEvent
    | with_reducible apply keeps_openFlint
    | with_reducible apply keeps_nvmeReady
    | with_reducible apply Keeps.id
    | (with_reducible apply Keeps.foldl; intro _ _ _)
    | (with_reducible apply Keeps.foldl_snd; intro _ _ _)
    | (with_reducible apply Keeps.foldl_fst; intro _ _ _)
    | with_reducible apply Keeps.ite
    | split
    | with_reducible apply Keeps.upd
    | with_reducible exact memPutBytes_wf _ _ _
    | with_reducible exact memPutLE_wf _ _ _ _
    | (intro h; with_reducible exact memPuts_wf h)
    | with_reducible exact memPut_wf _ _ _
    | with_reducible exact memClear_wf _ _ _
    | with_reducible exact memKeep_wf _ _
    | exact fun h => absurd h (by omega)
    | intro _ _
    | dsimp only

theorem keeps_removeNoted {lv : Nat} {ss0 : State} {s : State} {sn : Nat} (hK : Keeps lv ss0 s) :
    Keeps lv ss0 (removeNoted s sn) := by
  unfold removeNoted
  iterate 40 try any_goals with_reducible first | assumption | apply keeps_bedrockLeaf | apply keeps_removePower

theorem keeps_plossSensor {lv : Nat} {ss0 : State} {s : State} {sn : Nat} (hK : Keeps lv ss0 s) :
    Keeps lv ss0 (plossSensor s sn) := by
  unfold plossSensor
  iterate 40 try any_goals first
    | with_reducible assumption
    | with_reducible apply keeps_powerDone
    | with_reducible apply keeps_setSpwr
    | with_reducible apply keeps_removeNoted
    | with_reducible apply Keeps.ite
    | split

theorem keeps_plossStart {lv : Nat} {ss0 : State} {s : State} {trip : Bool} {unit : Nat} {mv : Nat} (hK : Keeps lv ss0 s) :
    Keeps lv ss0 (plossStart s trip unit mv) := by
  unfold plossStart
  iterate 40 try any_goals first
    | with_reducible assumption
    | with_reducible exact fun h => h
    | with_reducible exact fun _ => rfl
    | with_reducible exact fun _ => ⟨rfl, rfl⟩
    | with_reducible exact rfl
    | with_reducible apply keeps_plossSensor
    | with_reducible apply keeps_bedrockLeaf
    | (with_reducible apply Keeps.foldl; intro _ _ _)
    | with_reducible apply Keeps.ite
    | split
    | with_reducible apply Keeps.upd

theorem keeps_plossReset {lv : Nat} {ss0 : State} {s : State} (hK : Keeps (lv + 1) ss0 s) :
    Keeps (lv + 1) ss0 (plossReset s) := by
  unfold plossReset
  iterate 40 try any_goals first
    | with_reducible assumption
    | with_reducible apply keeps_fullReset
    | with_reducible apply keeps_setStop
    | with_reducible apply Keeps.ite

theorem keeps_recordDrain {lv : Nat} {ss0 : State} {s : State} {p : Nat} {drain : Nat} (hK : Keeps lv ss0 s) :
    Keeps lv ss0 (recordDrain s p drain) := by
  unfold recordDrain
  iterate 40 try any_goals first
    | with_reducible assumption
    | (intro _; with_reducible exact memPutBytes_wf _ _ _)
    | with_reducible apply keeps_updGatePort
    | with_reducible apply Keeps.ite

theorem keeps_plossDrain {lv : Nat} {ss0 : State} {s : State} {mask : Nat} {us : Nat} (hK : Keeps lv ss0 s) :
    Keeps lv ss0 (plossDrain s mask us) := by
  unfold plossDrain
  iterate 40 try any_goals first
    | with_reducible assumption
    | with_reducible exact fun h => h
    | with_reducible exact fun _ => rfl
    | with_reducible exact fun _ => ⟨rfl, rfl⟩
    | with_reducible exact rfl
    | with_reducible apply keeps_drainPorts
    | with_reducible apply keeps_recordDrain
    | (with_reducible apply Keeps.foldl; intro _ _ _)
    | with_reducible apply Keeps.upd

/-! ## Boot -/

theorem keeps_execColdPowerOn (refclk : Bool) (alt : Bool) (resetLow : Bool) (plossLow : Bool) (mv : List (BitVec 16)) (s : State) : KeepsO 2 s (execColdPowerOn refclk alt resetLow plossLow mv s) := by
  unfold execColdPowerOn
  try dsimp only
  iterate 40 try any_goals first
    | with_reducible apply KeepsO.next
    | with_reducible exact Keeps.refl _ _
    | with_reducible assumption
    | with_reducible exact fun h => h
    | with_reducible exact fun _ h => h
    | with_reducible exact fun _ => rfl
    | with_reducible exact fun _ => ⟨rfl, rfl⟩
    | with_reducible exact rfl
    | with_reducible exact fun _ => Mem.wf_nil
    | (intro _; with_reducible exact memPutBytes_wf _ _ _)
    | with_reducible apply keeps_coldReset
    | with_reducible apply keeps_tryStart
    | with_reducible apply keeps_lockRoot
    | with_reducible apply Keeps.id
    | (with_reducible apply Keeps.foldl; intro _ _ _)
    | (with_reducible apply Keeps.foldl_snd; intro _ _ _)
    | (with_reducible apply Keeps.foldl_fst; intro _ _ _)
    | with_reducible apply Keeps.ite
    | split
    | with_reducible apply Keeps.upd
    | with_reducible exact memPutBytes_wf _ _ _
    | with_reducible exact memPutLE_wf _ _ _ _
    | (intro h; with_reducible exact memPuts_wf h)
    | with_reducible exact memPut_wf _ _ _
    | with_reducible exact memClear_wf _ _ _
    | with_reducible exact memKeep_wf _ _
    | exact fun h => absurd h (by omega)
    | intro _ _
    | dsimp only

theorem keeps_execBootReady (r : BootReport) (s : State) : KeepsO 0 s (execBootReady r s) := by
  unfold execBootReady
  try dsimp only
  iterate 40 try any_goals first
    | with_reducible apply KeepsO.next
    | with_reducible exact Keeps.refl _ _
    | with_reducible assumption
    | with_reducible exact fun h => h
    | with_reducible exact fun _ h => h
    | with_reducible exact fun _ => rfl
    | with_reducible exact fun _ => ⟨rfl, rfl⟩
    | with_reducible exact rfl
    | with_reducible exact fun _ => Mem.wf_nil
    | (intro _; with_reducible exact memPutBytes_wf _ _ _)
    | with_reducible apply keeps_bootFail
    | with_reducible apply keeps_bootFull
    | with_reducible apply keeps_bootDone
    | with_reducible apply Keeps.id
    | (with_reducible apply Keeps.foldl; intro _ _ _)
    | (with_reducible apply Keeps.foldl_snd; intro _ _ _)
    | (with_reducible apply Keeps.foldl_fst; intro _ _ _)
    | with_reducible apply Keeps.ite
    | split
    | with_reducible apply Keeps.upd
    | with_reducible exact memPutBytes_wf _ _ _
    | with_reducible exact memPutLE_wf _ _ _ _
    | (intro h; with_reducible exact memPuts_wf h)
    | with_reducible exact memPut_wf _ _ _
    | with_reducible exact memClear_wf _ _ _
    | with_reducible exact memKeep_wf _ _
    | exact fun h => absurd h (by omega)
    | intro _ _
    | dsimp only

theorem keeps_execResetN (held : Bool) (s : State) : KeepsO 1 s (execResetN held s) := by
  unfold execResetN
  iterate 40 try any_goals first
    | with_reducible apply KeepsO.next
    | with_reducible exact Keeps.refl _ _
    | with_reducible exact fun h => h
    | with_reducible exact fun _ => rfl
    | with_reducible exact fun _ => ⟨rfl, rfl⟩
    | with_reducible exact rfl
    | with_reducible apply keeps_fullReset
    | with_reducible apply Keeps.ite
    | split
    | with_reducible apply Keeps.upd

theorem keeps_execResetNRise (s : State) : KeepsO 0 s (execResetNRise s) := by
  unfold execResetNRise
  iterate 40 try any_goals first
    | with_reducible apply KeepsO.next
    | with_reducible exact Keeps.refl _ _
    | with_reducible exact fun h => h
    | with_reducible exact fun _ => rfl
    | with_reducible exact fun _ => ⟨rfl, rfl⟩
    | with_reducible exact rfl
    | with_reducible apply Keeps.upd

theorem card_sysResetCard {lv : Nat}  : Card.Keeps lv sysResetCard := by
  intro n b ss0 s hK
  unfold sysResetCard
  iterate 40 try any_goals with_reducible first | assumption

theorem keeps_execSysReset (n : Fin 40) (s : State) : KeepsO 0 s (execSysReset n s) := by
  unfold execSysReset
  iterate 40 try any_goals first
    | with_reducible apply KeepsO.next
    | with_reducible exact Keeps.refl _ _
    | with_reducible apply keeps_mbxReject
    | with_reducible apply keeps_softReset
    | split

theorem keeps_execRailUndervoltage (k : Fin 8) (mv : BitVec 16) (s : State) : KeepsO 2 s (execRailUndervoltage k mv s) := by
  unfold execRailUndervoltage
  try dsimp only
  iterate 40 try any_goals first
    | with_reducible apply KeepsO.next
    | with_reducible exact Keeps.refl _ _
    | with_reducible assumption
    | with_reducible exact fun h => h
    | with_reducible exact fun _ h => h
    | with_reducible exact fun _ => rfl
    | with_reducible exact fun _ => ⟨rfl, rfl⟩
    | with_reducible exact rfl
    | with_reducible exact fun _ => Mem.wf_nil
    | (intro _; with_reducible exact memPutBytes_wf _ _ _)
    | with_reducible apply keeps_coldReset
    | with_reducible apply keeps_setRail
    | with_reducible apply keeps_bedrockLeaf
    | with_reducible apply keeps_plossStart
    | with_reducible apply Keeps.id
    | (with_reducible apply Keeps.foldl; intro _ _ _)
    | (with_reducible apply Keeps.foldl_snd; intro _ _ _)
    | (with_reducible apply Keeps.foldl_fst; intro _ _ _)
    | with_reducible apply Keeps.ite
    | split
    | with_reducible apply Keeps.upd
    | with_reducible exact memPutBytes_wf _ _ _
    | with_reducible exact memPutLE_wf _ _ _ _
    | (intro h; with_reducible exact memPuts_wf h)
    | with_reducible exact memPut_wf _ _ _
    | with_reducible exact memClear_wf _ _ _
    | with_reducible exact memKeep_wf _ _
    | exact fun h => absurd h (by omega)
    | intro _ _
    | dsimp only

theorem keeps_execRailOvervoltage (k : Fin 8) (mv : BitVec 16) (s : State) : KeepsO 1 s (execRailOvervoltage k mv s) := by
  unfold execRailOvervoltage
  try dsimp only
  iterate 40 try any_goals first
    | with_reducible apply KeepsO.next
    | with_reducible exact Keeps.refl _ _
    | with_reducible assumption
    | with_reducible exact fun h => h
    | with_reducible exact fun _ h => h
    | with_reducible exact fun _ => rfl
    | with_reducible exact fun _ => ⟨rfl, rfl⟩
    | with_reducible exact rfl
    | with_reducible exact fun _ => Mem.wf_nil
    | (intro _; with_reducible exact memPutBytes_wf _ _ _)
    | with_reducible apply keeps_setRail
    | with_reducible apply keeps_fullReset
    | with_reducible apply keeps_setStop
    | with_reducible apply keeps_bedrockLeaf
    | with_reducible apply Keeps.id
    | (with_reducible apply Keeps.foldl; intro _ _ _)
    | (with_reducible apply Keeps.foldl_snd; intro _ _ _)
    | (with_reducible apply Keeps.foldl_fst; intro _ _ _)
    | with_reducible apply Keeps.ite
    | split
    | with_reducible apply Keeps.upd
    | with_reducible exact memPutBytes_wf _ _ _
    | with_reducible exact memPutLE_wf _ _ _ _
    | (intro h; with_reducible exact memPuts_wf h)
    | with_reducible exact memPut_wf _ _ _
    | with_reducible exact memClear_wf _ _ _
    | with_reducible exact memKeep_wf _ _
    | exact fun h => absurd h (by omega)
    | intro _ _
    | dsimp only

theorem keeps_execRailInWindow (k : Fin 8) (mv : BitVec 16) (s : State) : KeepsO 2 s (execRailInWindow k mv s) := by
  unfold execRailInWindow
  try dsimp only
  iterate 40 try any_goals first
    | with_reducible apply KeepsO.next
    | with_reducible exact Keeps.refl _ _
    | with_reducible apply keeps_setRail
    | with_reducible apply keeps_bedrockLeaf
    | with_reducible apply keeps_tryStart
    | with_reducible apply Keeps.ite
    | split

theorem keeps_execRefclkLost (alt : Bool) (s : State) : KeepsO 0 s (execRefclkLost alt s) := by
  unfold execRefclkLost
  try dsimp only
  iterate 40 try any_goals first
    | with_reducible apply KeepsO.next
    | with_reducible exact Keeps.refl _ _
    | with_reducible assumption
    | with_reducible exact fun h => h
    | with_reducible exact fun _ h => h
    | with_reducible exact fun _ => rfl
    | with_reducible exact fun _ => ⟨rfl, rfl⟩
    | with_reducible exact rfl
    | with_reducible exact fun _ => Mem.wf_nil
    | (intro _; with_reducible exact memPutBytes_wf _ _ _)
    | with_reducible apply Keeps.id
    | (with_reducible apply Keeps.foldl; intro _ _ _)
    | (with_reducible apply Keeps.foldl_snd; intro _ _ _)
    | (with_reducible apply Keeps.foldl_fst; intro _ _ _)
    | with_reducible apply Keeps.ite
    | split
    | with_reducible apply Keeps.upd
    | with_reducible exact memPutBytes_wf _ _ _
    | with_reducible exact memPutLE_wf _ _ _ _
    | (intro h; with_reducible exact memPuts_wf h)
    | with_reducible exact memPut_wf _ _ _
    | with_reducible exact memClear_wf _ _ _
    | with_reducible exact memKeep_wf _ _
    | exact fun h => absurd h (by omega)
    | intro _ _
    | dsimp only

theorem keeps_execRefclkFailoverDone (s : State) : KeepsO 0 s (execRefclkFailoverDone s) := by
  unfold execRefclkFailoverDone
  iterate 40 try any_goals first
    | with_reducible apply KeepsO.next
    | with_reducible exact Keeps.refl _ _
    | with_reducible exact fun h => h
    | with_reducible exact fun _ => rfl
    | with_reducible exact fun _ => ⟨rfl, rfl⟩
    | with_reducible exact rfl
    | with_reducible apply keeps_lockRoot
    | with_reducible apply keeps_bedrockLeaf
    | split
    | with_reducible apply Keeps.upd

theorem keeps_execRefclkQualified (alt : Bool) (s : State) : KeepsO 2 s (execRefclkQualified alt s) := by
  unfold execRefclkQualified
  iterate 40 try any_goals first
    | with_reducible apply KeepsO.next
    | with_reducible exact Keeps.refl _ _
    | with_reducible exact fun h => h
    | with_reducible exact fun _ => rfl
    | with_reducible exact fun _ => ⟨rfl, rfl⟩
    | with_reducible exact rfl
    | with_reducible apply keeps_tryStart
    | with_reducible apply keeps_lockRoot
    | with_reducible apply keeps_fullReset
    | split
    | with_reducible apply Keeps.upd

theorem keeps_refStopBegin {lv : Nat} {ss0 : State} {s : State} (hK : Keeps lv ss0 s) :
    Keeps lv ss0 (refStopBegin s) := by
  unfold refStopBegin
  iterate 40 try any_goals first
    | with_reducible assumption
    | with_reducible exact fun h => h
    | with_reducible exact fun _ => rfl
    | with_reducible exact fun _ => ⟨rfl, rfl⟩
    | with_reducible exact rfl
    | with_reducible apply keeps_notify
    | with_reducible apply keeps_stopChannels
    | with_reducible apply Keeps.upd

theorem keeps_refStopEnd {lv : Nat} {ss0 : State} {s : State} (hK : Keeps (lv + 1) ss0 s) :
    Keeps (lv + 1) ss0 (refStopEnd s) := by
  unfold refStopEnd
  try dsimp only
  iterate 40 try any_goals first
    | with_reducible assumption
    | with_reducible exact fun h => h
    | with_reducible exact fun _ h => h
    | with_reducible exact fun _ => rfl
    | with_reducible exact fun _ => ⟨rfl, rfl⟩
    | with_reducible exact rfl
    | with_reducible exact fun _ => Mem.wf_nil
    | (intro _; with_reducible exact memPutBytes_wf _ _ _)
    | with_reducible apply keeps_chanIdle
    | with_reducible apply keeps_closeClip
    | with_reducible apply keeps_setStop
    | with_reducible apply keeps_finishPort
    | with_reducible apply keeps_fullReset
    | with_reducible apply keeps_lockRoot
    | with_reducible apply Keeps.id
    | (with_reducible apply Keeps.foldl; intro _ _ _)
    | (with_reducible apply Keeps.foldl_snd; intro _ _ _)
    | (with_reducible apply Keeps.foldl_fst; intro _ _ _)
    | with_reducible apply Keeps.ite
    | split
    | with_reducible apply Keeps.upd
    | with_reducible exact memPutBytes_wf _ _ _
    | with_reducible exact memPutLE_wf _ _ _ _
    | (intro h; with_reducible exact memPuts_wf h)
    | with_reducible exact memPut_wf _ _ _
    | with_reducible exact memClear_wf _ _ _
    | with_reducible exact memKeep_wf _ _
    | exact fun h => absurd h (by omega)
    | intro _ _
    | dsimp only

theorem keeps_execRefclkStop (final : Bool) (s : State) : KeepsO 1 s (execRefclkStop final s) := by
  unfold execRefclkStop
  try dsimp only
  iterate 40 try any_goals first
    | with_reducible apply KeepsO.next
    | with_reducible exact Keeps.refl _ _
    | with_reducible assumption
    | with_reducible exact fun h => h
    | with_reducible exact fun _ h => h
    | with_reducible exact fun _ => rfl
    | with_reducible exact fun _ => ⟨rfl, rfl⟩
    | with_reducible exact rfl
    | with_reducible exact fun _ => Mem.wf_nil
    | (intro _; with_reducible exact memPutBytes_wf _ _ _)
    | with_reducible apply keeps_refStopEnd
    | with_reducible apply keeps_refStopBegin
    | with_reducible apply Keeps.id
    | (with_reducible apply Keeps.foldl; intro _ _ _)
    | (with_reducible apply Keeps.foldl_snd; intro _ _ _)
    | (with_reducible apply Keeps.foldl_fst; intro _ _ _)
    | with_reducible apply Keeps.ite
    | split
    | with_reducible apply Keeps.upd
    | with_reducible exact memPutBytes_wf _ _ _
    | with_reducible exact memPutLE_wf _ _ _ _
    | (intro h; with_reducible exact memPuts_wf h)
    | with_reducible exact memPut_wf _ _ _
    | with_reducible exact memClear_wf _ _ _
    | with_reducible exact memKeep_wf _ _
    | exact fun h => absurd h (by omega)
    | intro _ _
    | dsimp only

/-! ## Bedrock -/

theorem card_brStatusCard {lv : Nat}  : Card.Keeps lv brStatusCard := by
  intro n b ss0 s hK
  unfold brStatusCard
  iterate 40 try any_goals with_reducible first | assumption

theorem keeps_execBrStatus (n : Fin 40) (s : State) : KeepsO 0 s (execBrStatus n s) :=
  .next (keeps_mbxRun card_brStatusCard (.refl _ _))

theorem card_brPolicyCard {lv : Nat}  : Card.Keeps lv brPolicyCard := by
  intro n b ss0 s hK
  unfold brPolicyCard
  try dsimp only
  iterate 40 try any_goals first
    | with_reducible assumption
    | with_reducible exact fun h => h
    | with_reducible exact fun _ h => h
    | with_reducible exact fun _ => rfl
    | with_reducible exact fun _ => ⟨rfl, rfl⟩
    | with_reducible exact rfl
    | with_reducible exact fun _ => Mem.wf_nil
    | (intro _; with_reducible exact memPutBytes_wf _ _ _)
    | with_reducible apply Keeps.id
    | (with_reducible apply Keeps.foldl; intro _ _ _)
    | (with_reducible apply Keeps.foldl_snd; intro _ _ _)
    | (with_reducible apply Keeps.foldl_fst; intro _ _ _)
    | with_reducible apply Keeps.ite
    | split
    | with_reducible apply Keeps.upd
    | with_reducible exact memPutBytes_wf _ _ _
    | with_reducible exact memPutLE_wf _ _ _ _
    | (intro h; with_reducible exact memPuts_wf h)
    | with_reducible exact memPut_wf _ _ _
    | with_reducible exact memClear_wf _ _ _
    | with_reducible exact memKeep_wf _ _
    | exact fun h => absurd h (by omega)
    | intro _ _
    | dsimp only

theorem keeps_execBrPolicy (n : Fin 40) (s : State) : KeepsO 0 s (execBrPolicy n s) :=
  .next (keeps_mbxRun card_brPolicyCard (.refl _ _))

theorem keeps_execPlossNFall (s : State) : KeepsO 0 s (execPlossNFall s) := by
  unfold execPlossNFall
  try dsimp only
  iterate 40 try any_goals first
    | with_reducible apply KeepsO.next
    | with_reducible exact Keeps.refl _ _
    | with_reducible assumption
    | with_reducible exact fun h => h
    | with_reducible exact fun _ h => h
    | with_reducible exact fun _ => rfl
    | with_reducible exact fun _ => ⟨rfl, rfl⟩
    | with_reducible exact rfl
    | with_reducible exact fun _ => Mem.wf_nil
    | (intro _; with_reducible exact memPutBytes_wf _ _ _)
    | with_reducible apply keeps_plossStart
    | with_reducible apply Keeps.id
    | (with_reducible apply Keeps.foldl; intro _ _ _)
    | (with_reducible apply Keeps.foldl_snd; intro _ _ _)
    | (with_reducible apply Keeps.foldl_fst; intro _ _ _)
    | with_reducible apply Keeps.ite
    | split
    | with_reducible apply Keeps.upd
    | with_reducible exact memPutBytes_wf _ _ _
    | with_reducible exact memPutLE_wf _ _ _ _
    | (intro h; with_reducible exact memPuts_wf h)
    | with_reducible exact memPut_wf _ _ _
    | with_reducible exact memClear_wf _ _ _
    | with_reducible exact memKeep_wf _ _
    | exact fun h => absurd h (by omega)
    | intro _ _
    | dsimp only

theorem keeps_execPlossDrainDone (ports : BitVec 4) (us : BitVec 32) (s : State) : KeepsO 1 s (execPlossDrainDone ports us s) := by
  unfold execPlossDrainDone
  iterate 40 try any_goals first
    | with_reducible apply KeepsO.next
    | with_reducible exact Keeps.refl _ _
    | with_reducible apply keeps_plossDrain
    | with_reducible apply keeps_plossReset
    | with_reducible apply Keeps.ite
    | split

theorem keeps_execPlossResetPoint (low : Bool) (s : State) : KeepsO 1 s (execPlossResetPoint low s) := by
  unfold execPlossResetPoint
  iterate 40 try any_goals first
    | with_reducible apply KeepsO.next
    | with_reducible exact Keeps.refl _ _
    | with_reducible exact fun h => h
    | with_reducible exact fun _ => rfl
    | with_reducible exact fun _ => ⟨rfl, rfl⟩
    | with_reducible exact rfl
    | with_reducible apply keeps_plossReset
    | split
    | with_reducible apply Keeps.upd

theorem keeps_execPlossResponseEnd (s : State) : KeepsO 0 s (execPlossResponseEnd s) := by
  unfold execPlossResponseEnd
  iterate 40 try any_goals first
    | with_reducible apply KeepsO.next
    | with_reducible exact Keeps.refl _ _
    | with_reducible exact fun h => h
    | with_reducible exact fun _ => rfl
    | with_reducible exact fun _ => ⟨rfl, rfl⟩
    | with_reducible exact rfl
    | with_reducible apply keeps_nvmeSettle
    | with_reducible apply keeps_notify
    | with_reducible apply keeps_bedrockLeaf
    | with_reducible apply keeps_watchdogReset
    | with_reducible apply Keeps.ite
    | split
    | with_reducible apply Keeps.upd

theorem keeps_execPlossResetExit (s : State) : KeepsO 1 s (execPlossResetExit s) := by
  unfold execPlossResetExit
  iterate 40 try any_goals first
    | with_reducible apply KeepsO.next
    | with_reducible exact Keeps.refl _ _
    | with_reducible exact fun h => h
    | with_reducible exact fun _ => rfl
    | with_reducible exact fun _ => ⟨rfl, rfl⟩
    | with_reducible exact rfl
    | with_reducible apply keeps_fullReset
    | with_reducible apply Keeps.ite
    | split
    | with_reducible apply Keeps.upd

theorem keeps_execThermalTrip (s : State) : KeepsO 1 s (execThermalTrip s) := by
  unfold execThermalTrip
  try dsimp only
  iterate 40 try any_goals first
    | with_reducible apply KeepsO.next
    | with_reducible exact Keeps.refl _ _
    | with_reducible assumption
    | with_reducible exact fun h => h
    | with_reducible exact fun _ h => h
    | with_reducible exact fun _ => rfl
    | with_reducible exact fun _ => ⟨rfl, rfl⟩
    | with_reducible exact rfl
    | with_reducible exact fun _ => Mem.wf_nil
    | (intro _; with_reducible exact memPutBytes_wf _ _ _)
    | with_reducible apply keeps_setStop
    | with_reducible apply keeps_plossStart
    | with_reducible apply keeps_plossReset
    | with_reducible apply Keeps.id
    | (with_reducible apply Keeps.foldl; intro _ _ _)
    | (with_reducible apply Keeps.foldl_snd; intro _ _ _)
    | (with_reducible apply Keeps.foldl_fst; intro _ _ _)
    | with_reducible apply Keeps.ite
    | split
    | with_reducible apply Keeps.upd
    | with_reducible exact memPutBytes_wf _ _ _
    | with_reducible exact memPutLE_wf _ _ _ _
    | (intro h; with_reducible exact memPuts_wf h)
    | with_reducible exact memPut_wf _ _ _
    | with_reducible exact memClear_wf _ _ _
    | with_reducible exact memKeep_wf _ _
    | exact fun h => absurd h (by omega)
    | intro _ _
    | dsimp only

theorem keeps_execLockstepFault (s : State) : KeepsO 1 s (execLockstepFault s) := by
  unfold execLockstepFault
  try dsimp only
  iterate 40 try any_goals first
    | with_reducible apply KeepsO.next
    | with_reducible exact Keeps.refl _ _
    | with_reducible assumption
    | with_reducible exact fun h => h
    | with_reducible exact fun _ h => h
    | with_reducible exact fun _ => rfl
    | with_reducible exact fun _ => ⟨rfl, rfl⟩
    | with_reducible exact rfl
    | with_reducible exact fun _ => Mem.wf_nil
    | (intro _; with_reducible exact memPutBytes_wf _ _ _)
    | with_reducible apply keeps_fullReset
    | with_reducible apply keeps_setStop
    | with_reducible apply Keeps.id
    | (with_reducible apply Keeps.foldl; intro _ _ _)
    | (with_reducible apply Keeps.foldl_snd; intro _ _ _)
    | (with_reducible apply Keeps.foldl_fst; intro _ _ _)
    | with_reducible apply Keeps.ite
    | split
    | with_reducible apply Keeps.upd
    | with_reducible exact memPutBytes_wf _ _ _
    | with_reducible exact memPutLE_wf _ _ _ _
    | (intro h; with_reducible exact memPuts_wf h)
    | with_reducible exact memPut_wf _ _ _
    | with_reducible exact memClear_wf _ _ _
    | with_reducible exact memKeep_wf _ _
    | exact fun h => absurd h (by omega)
    | intro _ _
    | dsimp only

theorem keeps_restartSeq {lv : Nat} {ss0 : State} {s : State} {sn : Nat} (hK : Keeps lv ss0 s) :
    Keeps lv ss0 (restartSeq s sn) := by
  unfold restartSeq
  iterate 40 try any_goals first
    | with_reducible assumption
    | with_reducible apply keeps_assertPower
    | with_reducible apply keeps_beginPower
    | with_reducible apply Keeps.ite
    | split

theorem keeps_execLockstepRestartDone (s : State) : KeepsO 0 s (execLockstepRestartDone s) := by
  unfold execLockstepRestartDone
  iterate 40 try any_goals first
    | with_reducible apply KeepsO.next
    | with_reducible exact Keeps.refl _ _
    | with_reducible assumption
    | with_reducible exact fun h => h
    | with_reducible exact fun _ => rfl
    | with_reducible exact fun _ => ⟨rfl, rfl⟩
    | with_reducible exact rfl
    | with_reducible apply keeps_bedrockLeaf
    | with_reducible apply keeps_restartSeq
    | with_reducible apply keeps_beginPower
    | (with_reducible apply Keeps.foldl; intro _ _ _)
    | split
    | with_reducible apply Keeps.upd

theorem keeps_execCoreHeartbeatMiss (core : Fin 5) (flash : Bool) (s : State) : KeepsO 0 s (execCoreHeartbeatMiss core flash s) := by
  unfold execCoreHeartbeatMiss
  iterate 40 try any_goals first
    | with_reducible apply KeepsO.next
    | with_reducible exact Keeps.refl _ _
    | with_reducible exact fun h => h
    | with_reducible exact fun _ => rfl
    | with_reducible exact fun _ => ⟨rfl, rfl⟩
    | with_reducible exact rfl
    | with_reducible apply keeps_coreFailFor
    | with_reducible apply Keeps.id
    | split
    | with_reducible apply Keeps.upd

theorem keeps_execWatchdogReset (s : State) : KeepsO 0 s (execWatchdogReset s) := by
  unfold execWatchdogReset
  iterate 40 try any_goals first
    | with_reducible apply KeepsO.next
    | with_reducible exact Keeps.refl _ _
    | with_reducible apply keeps_watchdogReset
    | split

theorem keeps_execTestEnFall (s : State) : KeepsO 0 s (execTestEnFall s) := by
  unfold execTestEnFall
  iterate 40 try any_goals first
    | with_reducible apply KeepsO.next
    | with_reducible exact Keeps.refl _ _
    | with_reducible exact fun h => h
    | with_reducible exact fun _ => rfl
    | with_reducible exact fun _ => ⟨rfl, rfl⟩
    | with_reducible exact rfl
    | with_reducible apply keeps_closeFlint
    | with_reducible apply keeps_flintDisarm
    | with_reducible apply Keeps.ite
    | with_reducible apply Keeps.upd

theorem keeps_execFlintGateOpen (s : State) : KeepsO 0 s (execFlintGateOpen s) := by
  unfold execFlintGateOpen
  iterate 40 try any_goals first
    | with_reducible apply KeepsO.next
    | with_reducible exact Keeps.refl _ _
    | with_reducible exact fun h => h
    | with_reducible exact fun _ => rfl
    | with_reducible exact fun _ => ⟨rfl, rfl⟩
    | with_reducible exact rfl
    | with_reducible apply keeps_openFlint
    | with_reducible apply Keeps.ite
    | with_reducible apply Keeps.upd

theorem keeps_execSpwrPgFall (sensor : Fin 4) (s : State) : KeepsO 0 s (execSpwrPgFall sensor s) := by
  unfold execSpwrPgFall
  try dsimp only
  iterate 40 try any_goals first
    | with_reducible apply KeepsO.next
    | with_reducible exact Keeps.refl _ _
    | with_reducible assumption
    | with_reducible exact fun h => h
    | with_reducible exact fun _ h => h
    | with_reducible exact fun _ => rfl
    | with_reducible exact fun _ => ⟨rfl, rfl⟩
    | with_reducible exact rfl
    | with_reducible exact fun _ => Mem.wf_nil
    | (intro _; with_reducible exact memPutBytes_wf _ _ _)
    | with_reducible apply keeps_removeNoted
    | with_reducible apply keeps_powerDone
    | with_reducible apply Keeps.id
    | (with_reducible apply Keeps.foldl; intro _ _ _)
    | (with_reducible apply Keeps.foldl_snd; intro _ _ _)
    | (with_reducible apply Keeps.foldl_fst; intro _ _ _)
    | with_reducible apply Keeps.ite
    | split
    | with_reducible apply Keeps.upd
    | with_reducible exact memPutBytes_wf _ _ _
    | with_reducible exact memPutLE_wf _ _ _ _
    | (intro h; with_reducible exact memPuts_wf h)
    | with_reducible exact memPut_wf _ _ _
    | with_reducible exact memClear_wf _ _ _
    | with_reducible exact memKeep_wf _ _
    | exact fun h => absurd h (by omega)
    | intro _ _
    | dsimp only

theorem keeps_execSpwrPgRise (sensor : Fin 4) (s : State) : KeepsO 0 s (execSpwrPgRise sensor s) := by
  unfold execSpwrPgRise
  iterate 40 try any_goals first
    | with_reducible apply KeepsO.next
    | with_reducible exact Keeps.refl _ _
    | with_reducible apply keeps_setSpwr
    | with_reducible apply Keeps.ite

theorem keeps_execSpwrPgTimeout (sensor : Fin 4) (s : State) : KeepsO 0 s (execSpwrPgTimeout sensor s) := by
  unfold execSpwrPgTimeout
  iterate 40 try any_goals first
    | with_reducible apply KeepsO.next
    | with_reducible exact Keeps.refl _ _
    | with_reducible apply keeps_powerDone
    | with_reducible apply keeps_setSpwr
    | with_reducible apply Keeps.ite

theorem keeps_execSensorPowerSettled (sensor : Fin 4) (s : State) : KeepsO 0 s (execSensorPowerSettled sensor s) := by
  unfold execSensorPowerSettled
  iterate 40 try any_goals first
    | with_reducible apply KeepsO.next
    | with_reducible exact Keeps.refl _ _
    | with_reducible apply keeps_powerDone
    | with_reducible apply keeps_setSpwr
    | with_reducible apply Keeps.ite

theorem keeps_execStaggerWaitEnd (sensor : Fin 4) (s : State) : KeepsO 0 s (execStaggerWaitEnd sensor s) := by
  unfold execStaggerWaitEnd
  iterate 40 try any_goals first
    | with_reducible apply KeepsO.next
    | with_reducible exact Keeps.refl _ _
    | with_reducible apply keeps_assertPower
    | with_reducible apply Keeps.ite

/-! ## PowerOps -/

theorem keeps_unitSensor {lv : Nat} {ss0 : State} {s : State} {sn : Nat} (hK : Keeps lv ss0 s) :
    Keeps lv ss0 (unitSensor s sn) := by
  unfold unitSensor
  iterate 40 try any_goals first
    | with_reducible assumption
    | with_reducible apply keeps_closeFrame
    | with_reducible apply keeps_leaveStreaming
    | with_reducible apply keeps_cancelDeferred
    | with_reducible apply keeps_updSensor
    | with_reducible apply Keeps.ite

theorem keeps_unitBus {lv : Nat} {ss0 : State} {s : State} {b : Nat} (hK : Keeps lv ss0 s) :
    Keeps lv ss0 (unitBus s b) := by
  unfold unitBus
  try dsimp only
  iterate 40 try any_goals first
    | with_reducible assumption
    | with_reducible exact fun h => h
    | with_reducible exact fun _ h => h
    | with_reducible exact fun _ => rfl
    | with_reducible exact fun _ => ⟨rfl, rfl⟩
    | with_reducible exact rfl
    | with_reducible exact fun _ => Mem.wf_nil
    | (intro _; with_reducible exact memPutBytes_wf _ _ _)
    | with_reducible apply keeps_pollEnd
    | with_reducible apply keeps_busXferEnd
    | with_reducible apply Keeps.id
    | (with_reducible apply Keeps.foldl; intro _ _ _)
    | (with_reducible apply Keeps.foldl_snd; intro _ _ _)
    | (with_reducible apply Keeps.foldl_fst; intro _ _ _)
    | with_reducible apply Keeps.ite
    | split
    | with_reducible apply Keeps.upd
    | with_reducible exact memPutBytes_wf _ _ _
    | with_reducible exact memPutLE_wf _ _ _ _
    | (intro h; with_reducible exact memPuts_wf h)
    | with_reducible exact memPut_wf _ _ _
    | with_reducible exact memClear_wf _ _ _
    | with_reducible exact memKeep_wf _ _
    | exact fun h => absurd h (by omega)
    | intro _ _
    | dsimp only

theorem keeps_unitPort {lv : Nat} {ss0 : State} {s : State} {q : Nat} (hK : Keeps lv ss0 s) :
    Keeps lv ss0 (unitPort s q) := by
  unfold unitPort
  iterate 40 try any_goals first
    | with_reducible assumption
    | with_reducible apply keeps_ringPortDown
    | with_reducible apply keeps_linkLanesUp
    | with_reducible apply Keeps.ite

theorem keeps_unitJobs {lv : Nat} {ss0 : State} {s : State} (hK : Keeps lv ss0 s) :
    Keeps lv ss0 (unitJobs s) := by
  unfold unitJobs
  iterate 40 try any_goals first
    | with_reducible assumption
    | with_reducible apply keeps_jobEnd
    | with_reducible apply keeps_abandon
    | (with_reducible apply Keeps.foldl; intro _ _ _)

theorem keeps_unitOutput {lv : Nat} {ss0 : State} {s : State} {i : Nat} (hK : Keeps lv ss0 s) :
    Keeps lv ss0 (unitOutput s i) := by
  unfold unitOutput
  iterate 40 try any_goals with_reducible first | assumption | apply keeps_sweep | apply keeps_updOut

theorem keeps_unitDisplay {lv : Nat} {ss0 : State} {s : State} (hK : Keeps lv ss0 s) :
    Keeps lv ss0 (unitDisplay s) := by
  unfold unitDisplay
  try dsimp only
  iterate 40 try any_goals first
    | with_reducible assumption
    | with_reducible exact fun h => h
    | with_reducible exact fun _ h => h
    | with_reducible exact fun _ => rfl
    | with_reducible exact fun _ => ⟨rfl, rfl⟩
    | with_reducible exact rfl
    | with_reducible exact fun _ => Mem.wf_nil
    | (intro _; with_reducible exact memPutBytes_wf _ _ _)
    | with_reducible apply keeps_updDisp
    | with_reducible apply Keeps.id
    | (with_reducible apply Keeps.foldl; intro _ _ _)
    | (with_reducible apply Keeps.foldl_snd; intro _ _ _)
    | (with_reducible apply Keeps.foldl_fst; intro _ _ _)
    | with_reducible apply Keeps.ite
    | split
    | with_reducible apply Keeps.upd
    | with_reducible exact memPutBytes_wf _ _ _
    | with_reducible exact memPutLE_wf _ _ _ _
    | (intro h; with_reducible exact memPuts_wf h)
    | with_reducible exact memPut_wf _ _ _
    | with_reducible exact memClear_wf _ _ _
    | with_reducible exact memKeep_wf _ _
    | exact fun h => absurd h (by omega)
    | intro _ _
    | dsimp only

theorem keeps_unitAudio {lv : Nat} {ss0 : State} {s : State} {u : Nat} (hK : Keeps lv ss0 s) :
    Keeps lv ss0 (unitAudio s u) := by
  unfold unitAudio
  try dsimp only
  iterate 40 try any_goals first
    | with_reducible assumption
    | with_reducible exact fun h => h
    | with_reducible exact fun _ h => h
    | with_reducible exact fun _ => rfl
    | with_reducible exact fun _ => ⟨rfl, rfl⟩
    | with_reducible exact rfl
    | with_reducible exact fun _ => Mem.wf_nil
    | (intro _; with_reducible exact memPutBytes_wf _ _ _)
    | with_reducible apply keeps_updAud
    | with_reducible apply keeps_audStop
    | with_reducible apply Keeps.id
    | (with_reducible apply Keeps.foldl; intro _ _ _)
    | (with_reducible apply Keeps.foldl_snd; intro _ _ _)
    | (with_reducible apply Keeps.foldl_fst; intro _ _ _)
    | with_reducible apply Keeps.ite
    | split
    | with_reducible apply Keeps.upd
    | with_reducible exact memPutBytes_wf _ _ _
    | with_reducible exact memPutLE_wf _ _ _ _
    | (intro h; with_reducible exact memPuts_wf h)
    | with_reducible exact memPut_wf _ _ _
    | with_reducible exact memClear_wf _ _ _
    | with_reducible exact memKeep_wf _ _
    | exact fun h => absurd h (by omega)
    | intro _ _
    | dsimp only

theorem keeps_unitReset {lv : Nat} {ss0 : State} {s : State} {unit : Nat} {index : Nat} (hK : Keeps lv ss0 s) :
    Keeps lv ss0 (unitReset s unit index) := by
  unfold unitReset
  try dsimp only
  iterate 40 try any_goals first
    | with_reducible assumption
    | with_reducible exact fun h => h
    | with_reducible exact fun _ h => h
    | with_reducible exact fun _ => rfl
    | with_reducible exact fun _ => ⟨rfl, rfl⟩
    | with_reducible exact rfl
    | with_reducible exact fun _ => Mem.wf_nil
    | (intro _; with_reducible exact memPutBytes_wf _ _ _)
    | with_reducible apply keeps_closeFlint
    | with_reducible apply keeps_unitSensor
    | with_reducible apply keeps_unitBus
    | with_reducible apply keeps_unitPort
    | with_reducible apply keeps_unitJobs
    | with_reducible apply keeps_controllerReset
    | with_reducible apply keeps_unitOutput
    | with_reducible apply keeps_unitDisplay
    | with_reducible apply keeps_unitAudio
    | with_reducible apply keeps_askReopen
    | with_reducible apply keeps_restartDomain
    | with_reducible apply keeps_openFlint
    | with_reducible apply keeps_notify
    | with_reducible apply Keeps.id
    | (with_reducible apply Keeps.foldl; intro _ _ _)
    | (with_reducible apply Keeps.foldl_snd; intro _ _ _)
    | (with_reducible apply Keeps.foldl_fst; intro _ _ _)
    | with_reducible apply Keeps.ite
    | split
    | with_reducible apply Keeps.upd
    | with_reducible exact memPutBytes_wf _ _ _
    | with_reducible exact memPutLE_wf _ _ _ _
    | (intro h; with_reducible exact memPuts_wf h)
    | with_reducible exact memPut_wf _ _ _
    | with_reducible exact memClear_wf _ _ _
    | with_reducible exact memKeep_wf _ _
    | exact fun h => absurd h (by omega)
    | intro _ _
    | dsimp only

theorem keeps_restLane {lv : Nat} {ss0 : State} {s : State} {a : Nat} (hK : Keeps lv ss0 s) :
    Keeps lv ss0 (restLane s a) := by
  unfold restLane
  try dsimp only
  iterate 40 try any_goals first
    | with_reducible assumption
    | with_reducible exact fun h => h
    | with_reducible exact fun _ h => h
    | with_reducible exact fun _ => rfl
    | with_reducible exact fun _ => ⟨rfl, rfl⟩
    | with_reducible exact rfl
    | with_reducible exact fun _ => Mem.wf_nil
    | (intro _; with_reducible exact memPutBytes_wf _ _ _)
    | with_reducible apply keeps_linkDown
    | with_reducible apply keeps_setLane
    | with_reducible apply Keeps.id
    | (with_reducible apply Keeps.foldl; intro _ _ _)
    | (with_reducible apply Keeps.foldl_snd; intro _ _ _)
    | (with_reducible apply Keeps.foldl_fst; intro _ _ _)
    | with_reducible apply Keeps.ite
    | split
    | with_reducible apply Keeps.upd
    | with_reducible exact memPutBytes_wf _ _ _
    | with_reducible exact memPutLE_wf _ _ _ _
    | (intro h; with_reducible exact memPuts_wf h)
    | with_reducible exact memPut_wf _ _ _
    | with_reducible exact memClear_wf _ _ _
    | with_reducible exact memKeep_wf _ _
    | exact fun h => absurd h (by omega)
    | intro _ _
    | dsimp only

theorem keeps_hibernateEnter {lv : Nat} {ss0 : State} {s : State} (hK : Keeps lv ss0 s) :
    Keeps lv ss0 (hibernateEnter s) := by
  unfold hibernateEnter
  try dsimp only
  iterate 40 try any_goals first
    | with_reducible assumption
    | with_reducible exact fun h => h
    | with_reducible exact fun _ h => h
    | with_reducible exact fun _ => rfl
    | with_reducible exact fun _ => ⟨rfl, rfl⟩
    | with_reducible exact rfl
    | with_reducible exact fun _ => Mem.wf_nil
    | (intro _; with_reducible exact memPutBytes_wf _ _ _)
    | with_reducible apply keeps_resetFlows
    | with_reducible apply keeps_resetDomains
    | with_reducible apply keeps_ethLink
    | with_reducible apply keeps_ringPortDown
    | with_reducible apply keeps_restLane
    | with_reducible apply keeps_portDown
    | with_reducible apply keeps_resetRecording
    | (intro h; with_reducible exact ⟨h.1, Mem.wf_nil⟩)
    | with_reducible apply Keeps.id
    | (with_reducible apply Keeps.foldl; intro _ _ _)
    | (with_reducible apply Keeps.foldl_snd; intro _ _ _)
    | (with_reducible apply Keeps.foldl_fst; intro _ _ _)
    | with_reducible apply Keeps.ite
    | split
    | with_reducible apply Keeps.upd
    | with_reducible exact memPutBytes_wf _ _ _
    | with_reducible exact memPutLE_wf _ _ _ _
    | (intro h; with_reducible exact memPuts_wf h)
    | with_reducible exact memPut_wf _ _ _
    | with_reducible exact memClear_wf _ _ _
    | with_reducible exact memKeep_wf _ _
    | exact fun h => absurd h (by omega)
    | intro _ _
    | dsimp only

theorem keeps_restorePort {lv : Nat} {ss0 : State} {drives : List (Option DriveFacts)} {s : State} {p : Nat} (hK : Keeps lv ss0 s) :
    Keeps lv ss0 (restorePort drives s p) := by
  unfold restorePort
  iterate 40 try any_goals with_reducible first | assumption | apply keeps_bringUp | apply Keeps.ite | split

theorem keeps_hibernateExit {lv : Nat} {ss0 : State} {s : State} {drives : List (Option DriveFacts)} (hK : Keeps lv ss0 s) :
    Keeps lv ss0 (hibernateExit s drives) := by
  unfold hibernateExit
  try dsimp only
  iterate 40 try any_goals first
    | with_reducible assumption
    | with_reducible exact fun h => h
    | with_reducible exact fun _ h => h
    | with_reducible exact fun _ => rfl
    | with_reducible exact fun _ => ⟨rfl, rfl⟩
    | with_reducible exact rfl
    | with_reducible exact fun _ => Mem.wf_nil
    | (intro _; with_reducible exact memPutBytes_wf _ _ _)
    | with_reducible apply keeps_restorePort
    | with_reducible apply keeps_dropUnkept
    | with_reducible apply keeps_setLane
    | with_reducible apply keeps_askReopen
    | with_reducible apply Keeps.id
    | (with_reducible apply Keeps.foldl; intro _ _ _)
    | (with_reducible apply Keeps.foldl_snd; intro _ _ _)
    | (with_reducible apply Keeps.foldl_fst; intro _ _ _)
    | with_reducible apply Keeps.ite
    | split
    | with_reducible apply Keeps.upd
    | with_reducible exact memPutBytes_wf _ _ _
    | with_reducible exact memPutLE_wf _ _ _ _
    | (intro h; with_reducible exact memPuts_wf h)
    | with_reducible exact memPut_wf _ _ _
    | with_reducible exact memClear_wf _ _ _
    | with_reducible exact memKeep_wf _ _
    | exact fun h => absurd h (by omega)
    | intro _ _
    | dsimp only

theorem keeps_restEnter {lv : Nat} {ss0 : State} {s : State} {target : PwrState} (hK : Keeps lv ss0 s) :
    Keeps lv ss0 (restEnter s target) := by
  unfold restEnter
  iterate 40 try any_goals first
    | with_reducible assumption
    | with_reducible exact fun h => h
    | with_reducible exact fun _ => rfl
    | with_reducible exact fun _ => ⟨rfl, rfl⟩
    | with_reducible exact rfl
    | with_reducible apply keeps_hibernateEnter
    | split
    | with_reducible apply Keeps.upd

theorem keeps_restExit {lv : Nat} {ss0 : State} {s : State} {cause : Nat} {us : Nat} {r : ExitReport} (hK : Keeps lv ss0 s) :
    Keeps lv ss0 (restExit s cause us r) := by
  unfold restExit
  try dsimp only
  iterate 40 try any_goals first
    | with_reducible assumption
    | with_reducible exact fun h => h
    | with_reducible exact fun _ h => h
    | with_reducible exact fun _ => rfl
    | with_reducible exact fun _ => ⟨rfl, rfl⟩
    | with_reducible exact rfl
    | with_reducible exact fun _ => Mem.wf_nil
    | (intro _; with_reducible exact memPutBytes_wf _ _ _)
    | with_reducible apply keeps_hibernateExit
    | with_reducible apply keeps_notify
    | with_reducible apply keeps_flushNotices
    | with_reducible apply Keeps.id
    | (with_reducible apply Keeps.foldl; intro _ _ _)
    | (with_reducible apply Keeps.foldl_snd; intro _ _ _)
    | (with_reducible apply Keeps.foldl_fst; intro _ _ _)
    | with_reducible apply Keeps.ite
    | split
    | with_reducible apply Keeps.upd
    | with_reducible exact memPutBytes_wf _ _ _
    | with_reducible exact memPutLE_wf _ _ _ _
    | (intro h; with_reducible exact memPuts_wf h)
    | with_reducible exact memPut_wf _ _ _
    | with_reducible exact memClear_wf _ _ _
    | with_reducible exact memKeep_wf _ _
    | exact fun h => absurd h (by omega)
    | intro _ _
    | dsimp only

theorem keeps_activate {lv : Nat} {ss0 : State} {s : State} {n : Nat} {slot : Nat} {lacks : List Nat} (hK : Keeps lv ss0 s) :
    Keeps lv ss0 (activate s n slot lacks) := by
  unfold activate
  try dsimp only
  iterate 40 try any_goals first
    | with_reducible assumption
    | with_reducible exact fun h => h
    | with_reducible exact fun _ h => h
    | with_reducible exact fun _ => rfl
    | with_reducible exact fun _ => ⟨rfl, rfl⟩
    | with_reducible exact rfl
    | with_reducible exact fun _ => Mem.wf_nil
    | (intro _; with_reducible exact memPutBytes_wf _ _ _)
    | with_reducible apply keeps_runImage
    | with_reducible apply keeps_mbxOk
    | with_reducible apply keeps_answerUnassigned
    | with_reducible apply Keeps.id
    | (with_reducible apply Keeps.foldl; intro _ _ _)
    | (with_reducible apply Keeps.foldl_snd; intro _ _ _)
    | (with_reducible apply Keeps.foldl_fst; intro _ _ _)
    | with_reducible apply Keeps.ite
    | split
    | with_reducible apply Keeps.upd
    | with_reducible exact memPutBytes_wf _ _ _
    | with_reducible exact memPutLE_wf _ _ _ _
    | (intro h; with_reducible exact memPuts_wf h)
    | with_reducible exact memPut_wf _ _ _
    | with_reducible exact memClear_wf _ _ _
    | with_reducible exact memKeep_wf _ _
    | exact fun h => absurd h (by omega)
    | intro _ _
    | dsimp only

/-! ## Power -/

theorem keeps_restBreak {lv : Nat} {ss0 : State} {s : State} {q : Nat} (hK : Keeps lv ss0 s) :
    Keeps lv ss0 (restBreak s q) := by
  unfold restBreak
  iterate 40 try any_goals with_reducible first | assumption | apply keeps_endBreak | apply Keeps.ite

theorem card_pwrStateCard {lv : Nat}  : Card.Keeps lv pwrStateCard := by
  intro n b ss0 s hK
  unfold pwrStateCard
  try dsimp only
  iterate 40 try any_goals first
    | with_reducible assumption
    | with_reducible exact fun h => h
    | with_reducible exact fun _ => rfl
    | with_reducible exact fun _ => ⟨rfl, rfl⟩
    | with_reducible exact rfl
    | with_reducible apply keeps_restBreak
    | (with_reducible apply Keeps.foldl; intro _ _ _)
    | split
    | with_reducible apply Keeps.upd

theorem keeps_execPwrState (n : Fin 40) (s : State) : KeepsO 0 s (execPwrState n s) :=
  .next (keeps_mbxRun card_pwrStateCard (.refl _ _))

theorem keeps_execWakeGpio (s : State) : KeepsO 0 s (execWakeGpio s) := by
  unfold execWakeGpio
  iterate 40 try any_goals first
    | with_reducible apply KeepsO.next
    | with_reducible exact Keeps.refl _ _
    | with_reducible apply keeps_wake
    | with_reducible apply Keeps.ite

theorem keeps_execWakeTime (s : State) : KeepsO 0 s (execWakeTime s) := by
  unfold execWakeTime
  iterate 40 try any_goals first
    | with_reducible apply KeepsO.next
    | with_reducible exact Keeps.refl _ _
    | with_reducible apply keeps_wake
    | with_reducible apply Keeps.ite

theorem keeps_execPowerStateEntered (s : State) : KeepsO 0 s (execPowerStateEntered s) := by
  unfold execPowerStateEntered
  iterate 40 try any_goals first
    | with_reducible apply KeepsO.next
    | with_reducible exact Keeps.refl _ _
    | with_reducible apply keeps_restEnter
    | split

theorem keeps_execPowerStateExitDone (us : BitVec 32) (r : ExitReport) (s : State) : KeepsO 0 s (execPowerStateExitDone us r s) := by
  unfold execPowerStateExitDone
  try dsimp only
  iterate 40 try any_goals first
    | with_reducible apply KeepsO.next
    | with_reducible exact Keeps.refl _ _
    | with_reducible assumption
    | with_reducible exact fun h => h
    | with_reducible exact fun _ h => h
    | with_reducible exact fun _ => rfl
    | with_reducible exact fun _ => ⟨rfl, rfl⟩
    | with_reducible exact rfl
    | with_reducible exact fun _ => Mem.wf_nil
    | (intro _; with_reducible exact memPutBytes_wf _ _ _)
    | with_reducible apply keeps_restExit
    | with_reducible apply Keeps.id
    | (with_reducible apply Keeps.foldl; intro _ _ _)
    | (with_reducible apply Keeps.foldl_snd; intro _ _ _)
    | (with_reducible apply Keeps.foldl_fst; intro _ _ _)
    | with_reducible apply Keeps.ite
    | split
    | with_reducible apply Keeps.upd
    | with_reducible exact memPutBytes_wf _ _ _
    | with_reducible exact memPutLE_wf _ _ _ _
    | (intro h; with_reducible exact memPuts_wf h)
    | with_reducible exact memPut_wf _ _ _
    | with_reducible exact memClear_wf _ _ _
    | with_reducible exact memKeep_wf _ _
    | exact fun h => absurd h (by omega)
    | intro _ _
    | dsimp only

theorem card_pwrUnitResetCard {lv : Nat}  : Card.Keeps lv pwrUnitResetCard := by
  intro n b ss0 s hK
  unfold pwrUnitResetCard
  iterate 40 try any_goals with_reducible first | assumption | apply keeps_unitReset

theorem keeps_execPwrUnitReset (n : Fin 40) (s : State) : KeepsO 0 s (execPwrUnitReset n s) :=
  .next (keeps_mbxRun card_pwrUnitResetCard (.refl _ _))

theorem card_fwStageCard {lv : Nat}  : Card.Keeps lv fwStageCard := by
  intro n b ss0 s hK
  unfold fwStageCard
  iterate 40 try any_goals first
    | with_reducible assumption
    | with_reducible exact fun h => h
    | with_reducible exact fun _ => rfl
    | with_reducible exact fun _ => ⟨rfl, rfl⟩
    | with_reducible exact rfl
    | with_reducible apply Keeps.upd

theorem keeps_execFwStage (n : Fin 40) (s : State) : KeepsO 0 s (execFwStage n s) :=
  .next (keeps_mbxRun card_fwStageCard (.refl _ _))

theorem keeps_execFwStageWriteDone (result : Fin 3) (s : State) : KeepsO 0 s (execFwStageWriteDone result s) := by
  unfold execFwStageWriteDone
  iterate 40 try any_goals first
    | with_reducible apply KeepsO.next
    | with_reducible exact Keeps.refl _ _
    | with_reducible exact fun h => h
    | with_reducible exact fun _ => rfl
    | with_reducible exact fun _ => ⟨rfl, rfl⟩
    | with_reducible exact rfl
    | with_reducible apply keeps_notify
    | split
    | with_reducible apply Keeps.upd

theorem card_fwActivateCard {lv : Nat}  : Card.Keeps lv fwActivateCard := by
  intro n b ss0 s hK
  unfold fwActivateCard
  try dsimp only
  iterate 40 try any_goals first
    | with_reducible assumption
    | with_reducible exact fun h => h
    | with_reducible exact fun _ h => h
    | with_reducible exact fun _ => rfl
    | with_reducible exact fun _ => ⟨rfl, rfl⟩
    | with_reducible exact rfl
    | with_reducible exact fun _ => Mem.wf_nil
    | (intro _; with_reducible exact memPutBytes_wf _ _ _)
    | with_reducible apply Keeps.id
    | (with_reducible apply Keeps.foldl; intro _ _ _)
    | (with_reducible apply Keeps.foldl_snd; intro _ _ _)
    | (with_reducible apply Keeps.foldl_fst; intro _ _ _)
    | with_reducible apply Keeps.ite
    | split
    | with_reducible apply Keeps.upd
    | with_reducible exact memPutBytes_wf _ _ _
    | with_reducible exact memPutLE_wf _ _ _ _
    | (intro h; with_reducible exact memPuts_wf h)
    | with_reducible exact memPut_wf _ _ _
    | with_reducible exact memClear_wf _ _ _
    | with_reducible exact memKeep_wf _ _
    | exact fun h => absurd h (by omega)
    | intro _ _
    | dsimp only

theorem keeps_execFwActivate (n : Fin 40) (s : State) : KeepsO 0 s (execFwActivate n s) :=
  .next (keeps_mbxRun card_fwActivateCard (.refl _ _))

theorem keeps_execFwActivationDone (lacks : List Nat) (s : State) : KeepsO 0 s (execFwActivationDone lacks s) := by
  unfold execFwActivationDone
  iterate 40 try any_goals first
    | with_reducible apply KeepsO.next
    | with_reducible exact Keeps.refl _ _
    | with_reducible apply keeps_activate
    | with_reducible apply Keeps.ite
    | split

theorem keeps_execFwActivationRevert (s : State) : KeepsO 0 s (execFwActivationRevert s) := by
  unfold execFwActivationRevert
  iterate 40 try any_goals first
    | with_reducible apply KeepsO.next
    | with_reducible exact Keeps.refl _ _
    | with_reducible apply keeps_softReset
    | with_reducible apply Keeps.ite

theorem card_fwStatusCard {lv : Nat}  : Card.Keeps lv fwStatusCard := by
  intro n b ss0 s hK
  unfold fwStatusCard
  iterate 40 try any_goals with_reducible first | assumption

theorem keeps_execFwStatus (n : Fin 40) (s : State) : KeepsO 0 s (execFwStatus n s) :=
  .next (keeps_mbxRun card_fwStatusCard (.refl _ _))

end Sys2Proof.Machine
end

