-- ==== Sys2Proof/Laws/KeepsExec.lean ====
section
/-! SUPPORT. Every command answers a next state and keeps what its level promises. -/

namespace Sys2Proof.Machine
/-- The level of `Keeps` a command holds. -/
def keepLevel (i : Instr) : Nat := if i.readsPolicy then 2 else if i.setsCount then 1 else 0

/-- Every command answers a next state, and keeps. -/
theorem keeps_exec (i : Instr) (s : State) : KeepsO (keepLevel i) s (exec i s) := by
  cases i with
  | sysIdentify n => exact keeps_execSysIdentify n s
  | sysReset n => exact keeps_execSysReset n s
  | sysGpio n => exact keeps_execSysGpio n s
  | sysTally n => exact keeps_execSysTally n s
  | evqConfig n => exact keeps_execEvqConfig n s
  | evqRoute n => exact keeps_execEvqRoute n s
  | evqReset n => exact keeps_execEvqReset n s
  | sensConfig n => exact keeps_execSensConfig n s
  | sensPower n => exact keeps_execSensPower n s
  | sensStart n => exact keeps_execSensStart n s
  | sensStop n => exact keeps_execSensStop n s
  | sensClear n => exact keeps_execSensClear n s
  | sensBusXfer n => exact keeps_execSensBusXfer n s
  | sensCounters n => exact keeps_execSensCounters n s
  | sensMetaPoll n => exact keeps_execSensMetaPoll n s
  | schedSensor n => exact keeps_execSchedSensor n s
  | schedCommit n => exact keeps_execSchedCommit n s
  | schedStatus n => exact keeps_execSchedStatus n s
  | feLinLoad n => exact keeps_execFeLinLoad n s
  | feMerge n => exact keeps_execFeMerge n s
  | feBlack n => exact keeps_execFeBlack n s
  | feMapAlloc n => exact keeps_execFeMapAlloc n s
  | feMapFree n => exact keeps_execFeMapFree n s
  | feMapSelect n => exact keeps_execFeMapSelect n s
  | feDefect n => exact keeps_execFeDefect n s
  | feStatsConfig n => exact keeps_execFeStatsConfig n s
  | feCalCapture n => exact keeps_execFeCalCapture n s
  | feCalAbort n => exact keeps_execFeCalAbort n s
  | devCfa n => exact keeps_execDevCfa n s
  | devDemosaic n => exact keeps_execDevDemosaic n s
  | devSlFrame n => exact keeps_execDevSlFrame n s
  | colTransform n => exact keeps_execColTransform n s
  | colGains n => exact keeps_execColGains n s
  | colShaperLoad n => exact keeps_execColShaperLoad n s
  | lutLoad n => exact keeps_execLutLoad n s
  | colContrast n => exact keeps_execColContrast n s
  | colOutput n => exact keeps_execColOutput n s
  | colStatus n => exact keeps_execColStatus n s
  | rnd0Output n => exact keeps_execRnd0Output n s
  | rndBind n => exact keeps_execRndBind n s
  | rndGeometry n => exact keeps_execRndGeometry n s
  | rndStatus n => exact keeps_execRndStatus n s
  | tapConfig n => exact keeps_execTapConfig n s
  | codecStream n => exact keeps_execCodecStream n s
  | codecJobEncode n => exact keeps_execCodecJobEncode n s
  | codecJobDecode n => exact keeps_execCodecJobDecode n s
  | codecJobResume n => exact keeps_execCodecJobResume n s
  | codecJobAbort n => exact keeps_execCodecJobAbort n s
  | codecStatus n => exact keeps_execCodecStatus n s
  | recStart n => exact keeps_execRecStart n s
  | recStop n => exact keeps_execRecStop n s
  | recChannel n => exact keeps_execRecChannel n s
  | recVolFormat n => exact keeps_execRecVolFormat n s
  | recVolMount n => exact keeps_execRecVolMount n s
  | recVolUnmount n => exact keeps_execRecVolUnmount n s
  | recClipDelete n => exact keeps_execRecClipDelete n s
  | recStatus n => exact keeps_execRecStatus n s
  | gateStatus n => exact keeps_execGateStatus n s
  | gateDrive n drive => exact keeps_execGateDrive n drive s
  | gateService n => exact keeps_execGateService n s
  | gateRemote n => exact keeps_execGateRemote n s
  | gateSessionOpen n => exact keeps_execGateSessionOpen n s
  | gateSessionClose n => exact keeps_execGateSessionClose n s
  | laneConfig n khzA khzB => exact keeps_execLaneConfig n khzA khzB s
  | laneStatus n taps eyeW eyeH => exact keeps_execLaneStatus n taps eyeW eyeH s
  | laneLink n => exact keeps_execLaneLink n s
  | lanePower n => exact keeps_execLanePower n s
  | laneLoop n bits errs => exact keeps_execLaneLoop n bits errs s
  | laneEq n => exact keeps_execLaneEq n s
  | ringConfig n => exact keeps_execRingConfig n s
  | ringStatus n => exact keeps_execRingStatus n s
  | flowOpen n => exact keeps_execFlowOpen n s
  | flowClose n => exact keeps_execFlowClose n s
  | flowListen n => exact keeps_execFlowListen n s
  | flowSend n => exact keeps_execFlowSend n s
  | flowStatus n => exact keeps_execFlowStatus n s
  | outSdi n => exact keeps_execOutSdi n s
  | out2110 n => exact keeps_execOut2110 n s
  | outEthPort n => exact keeps_execOutEthPort n s
  | outStatus n => exact keeps_execOutStatus n s
  | dispConfig n => exact keeps_execDispConfig n s
  | dispLayer n => exact keeps_execDispLayer n s
  | dispCommit n => exact keeps_execDispCommit n s
  | dispDcs n r0 r1 => exact keeps_execDispDcs n r0 r1 s
  | dispStatus n => exact keeps_execDispStatus n s
  | audConfig n => exact keeps_execAudConfig n s
  | audPort n => exact keeps_execAudPort n s
  | audChannel n => exact keeps_execAudChannel n s
  | audSlots n => exact keeps_execAudSlots n s
  | audStart n => exact keeps_execAudStart n s
  | audStop n => exact keeps_execAudStop n s
  | audStatus n => exact keeps_execAudStatus n s
  | timeDomain n => exact keeps_execTimeDomain n s
  | timeSelect n => exact keeps_execTimeSelect n s
  | timePort n => exact keeps_execTimePort n s
  | timeSync n => exact keeps_execTimeSync n s
  | timeLtc n => exact keeps_execTimeLtc n s
  | timeServe n => exact keeps_execTimeServe n s
  | timeStatus n => exact keeps_execTimeStatus n s
  | memStatus n => exact keeps_execMemStatus n s
  | memAperture n => exact keeps_execMemAperture n s
  | memKeep n => exact keeps_execMemKeep n s
  | thermConfig n => exact keeps_execThermConfig n s
  | thermStatus n => exact keeps_execThermStatus n s
  | calConfig n => exact keeps_execCalConfig n s
  | calRun n => exact keeps_execCalRun n s
  | calStatus n => exact keeps_execCalStatus n s
  | brStatus n => exact keeps_execBrStatus n s
  | brPolicy n => exact keeps_execBrPolicy n s
  | pwrState n => exact keeps_execPwrState n s
  | pwrUnitReset n => exact keeps_execPwrUnitReset n s
  | fwStage n => exact keeps_execFwStage n s
  | fwActivate n => exact keeps_execFwActivate n s
  | fwStatus n => exact keeps_execFwStatus n s
  | spareStatus n => exact keeps_execSpareStatus n s
  | spareLedger n => exact keeps_execSpareLedger n s
  | spareReturn n => exact keeps_execSpareReturn n s
  | flintSet n => exact keeps_execFlintSet n s
  | flintStatus n => exact keeps_execFlintStatus n s
  | doorbellRing port n value => exact keeps_execDoorbellRing port n value s
  | registerWrite port addr data => exact keeps_execRegisterWrite port addr data s
  | attnLeafClear port reg value => exact keeps_execAttnLeafClear port reg value s
  | attnMaskWrite port reg value => exact keeps_execAttnMaskWrite port reg value s
  | wmHitClear port q => exact keeps_execWmHitClear port q s
  | eqPortRead q word => exact keeps_execEqPortRead q word s
  | eqMark port q => exact keeps_execEqMark port q s
  | eqRewind port q alsoMark => exact keeps_execEqRewind port q alsoMark s
  | eqRelease port q value => exact keeps_execEqRelease port q value s
  | pwrWakeWrite port value => exact keeps_execPwrWakeWrite port value s
  | tbCountRead wide => exact keeps_execTbCountRead wide s
  | tbDomainRead d wide => exact keeps_execTbDomainRead d wide s
  | bedrockWindowWrite port word value => exact keeps_execBedrockWindowWrite port word value s
  | bar2Access off access ecc => exact keeps_execBar2Access off access ecc s
  | qspiTransaction instr addr data count => exact keeps_execQspiTransaction instr addr data count s
  | qspiStatusRead => exact keeps_execQspiStatusRead s
  | coldPowerOn refclk alt resetLow plossLow mv => exact keeps_execColdPowerOn refclk alt resetLow plossLow mv s
  | bootReady r => exact keeps_execBootReady r s
  | resetN held => exact keeps_execResetN held s
  | plossNFall => exact keeps_execPlossNFall s
  | plossDrainDone ports us => exact keeps_execPlossDrainDone ports us s
  | plossResetPoint low => exact keeps_execPlossResetPoint low s
  | plossResponseEnd => exact keeps_execPlossResponseEnd s
  | railUndervoltage k mv => exact keeps_execRailUndervoltage k mv s
  | railOvervoltage k mv => exact keeps_execRailOvervoltage k mv s
  | refclkLost alt => exact keeps_execRefclkLost alt s
  | refclkFailoverDone => exact keeps_execRefclkFailoverDone s
  | refclkStop final => exact keeps_execRefclkStop final s
  | thermalTrip => exact keeps_execThermalTrip s
  | lockstepFault => exact keeps_execLockstepFault s
  | coreHeartbeatMiss core flash => exact keeps_execCoreHeartbeatMiss core flash s
  | watchdogReset => exact keeps_execWatchdogReset s
  | testEnFall => exact keeps_execTestEnFall s
  | flintGateOpen => exact keeps_execFlintGateOpen s
  | spwrPgFall sensor => exact keeps_execSpwrPgFall sensor s
  | spwrPgRise sensor => exact keeps_execSpwrPgRise sensor s
  | spwrPgTimeout sensor => exact keeps_execSpwrPgTimeout sensor s
  | sensorPowerSettled sensor => exact keeps_execSensorPowerSettled sensor s
  | gpioEdge levels => exact keeps_execGpioEdge levels s
  | wakeGpio => exact keeps_execWakeGpio s
  | wakeTime => exact keeps_execWakeTime s
  | powerStateEntered => exact keeps_execPowerStateEntered s
  | powerStateExitDone us r => exact keeps_execPowerStateExitDone us r s
  | fwStageWriteDone result => exact keeps_execFwStageWriteDone result s
  | fwActivationDone lacks => exact keeps_execFwActivationDone lacks s
  | fwActivationRevert => exact keeps_execFwActivationRevert s
  | frameStart sensor p => exact keeps_execFrameStart sensor p s
  | frameEnd sensor p => exact keeps_execFrameEnd sensor p s
  | linePacket sensor p => exact keeps_execLinePacket sensor p s
  | embeddedPacket sensor p => exact keeps_execEmbeddedPacket sensor p s
  | lineTimeout sensor => exact keeps_execLineTimeout sensor s
  | framePeriodTimeout sensor => exact keeps_execFramePeriodTimeout sensor s
  | linkLockLoss sensor link lanes => exact keeps_execLinkLockLoss sensor link lanes s
  | sensorLinkUp sensor link => exact keeps_execSensorLinkUp sensor link s
  | busXferDone bus result written data => exact keeps_execBusXferDone bus result written data s
  | metaPollTrigger sensor fifo => exact keeps_execMetaPollTrigger sensor fifo s
  | metaPollDone bus result data => exact keeps_execMetaPollDone bus result data s
  | bandIssue engine => exact keeps_execBandIssue engine s
  | bandComplete engine misses stall => exact keeps_execBandComplete engine misses stall s
  | deadlineDrop sensor => exact keeps_execDeadlineDrop sensor s
  | engineFault engine flash => exact keeps_execEngineFault engine flash s
  | engineNoProgress engine flash => exact keeps_execEngineNoProgress engine flash s
  | slotRelease sensor slot => exact keeps_execSlotRelease sensor slot s
  | bankWrite inst bank => exact keeps_execBankWrite inst bank s
  | calFinalPassDone sensor => exact keeps_execCalFinalPassDone sensor s
  | renditionTake r => exact keeps_execRenditionTake r s
  | renditionFrameDone r => exact keeps_execRenditionFrameDone r s
  | slabIssue lane => exact keeps_execSlabIssue lane s
  | slabVerified p v flash => exact keeps_execSlabVerified p v flash s
  | codecDeadline t => exact keeps_execCodecDeadline t s
  | codecLaneFault p flash => exact keeps_execCodecLaneFault p flash s
  | codecLaneNoProgress p flash => exact keeps_execCodecLaneNoProgress p flash s
  | heldMarkerStaged c => exact keeps_execHeldMarkerStaged c s
  | recCheckpoint c => exact keeps_execRecCheckpoint c s
  | recClipClose c => exact keeps_execRecClipClose c s
  | gateAdmit port blocks => exact keeps_execGateAdmit port blocks s
  | journalRecordDurable port => exact keeps_execJournalRecordDurable port s
  | driveWriteComplete port index blocks => exact keeps_execDriveWriteComplete port index blocks s
  | journalRetire port => exact keeps_execJournalRetire port s
  | driveFailed port cause => exact keeps_execDriveFailed port cause s
  | nvmeDoorbell queue value => exact keeps_execNvmeDoorbell queue value s
  | nvmeCcEnable mps css iosqes iocqes asqs acqs => exact keeps_execNvmeCcEnable mps css iosqes iocqes asqs acqs s
  | nvmeControllerReset => exact keeps_execNvmeControllerReset s
  | nvmeShutdown => exact keeps_execNvmeShutdown s
  | nvmeCreateIoSq h qid size cq contiguous => exact keeps_execNvmeCreateIoSq h qid size cq contiguous s
  | nvmeCreateIoCq h qid size vector contiguous irq => exact keeps_execNvmeCreateIoCq h qid size vector contiguous irq s
  | nvmeDeleteIoSq h qid => exact keeps_execNvmeDeleteIoSq h qid s
  | nvmeDeleteIoCq h qid => exact keeps_execNvmeDeleteIoCq h qid s
  | nvmeGetLogPage h page dwords off => exact keeps_execNvmeGetLogPage h page dwords off s
  | nvmeIdentify h cns => exact keeps_execNvmeIdentify h cns s
  | nvmeAbort h sq target => exact keeps_execNvmeAbort h sq target s
  | nvmeSetFeatures h fid value => exact keeps_execNvmeSetFeatures h fid value s
  | nvmeGetFeatures h fid => exact keeps_execNvmeGetFeatures h fid s
  | nvmeAsyncEventRequest h => exact keeps_execNvmeAsyncEventRequest h s
  | nvmeFlush sq h => exact keeps_execNvmeFlush sq h s
  | nvmeWrite sq h lba blocks fua data => exact keeps_execNvmeWrite sq h lba blocks fua data s
  | nvmeRead sq h lba blocks failed => exact keeps_execNvmeRead sq h lba blocks failed s
  | nvmeWriteZeroes sq h lba blocks fua => exact keeps_execNvmeWriteZeroes sq h lba blocks fua s
  | nvmeWriteOrdered sq h lba blocks fua data => exact keeps_execNvmeWriteOrdered sq h lba blocks fua data s
  | nvmeBarrier sq h clean => exact keeps_execNvmeBarrier sq h clean s
  | laneBlockLock lane skewNs flash => exact keeps_execLaneBlockLock lane skewNs flash s
  | laneLockLoss lane markers flash => exact keeps_execLaneLockLoss lane markers flash s
  | milestoneMarker lane marker idle stuffErrors deep flash => exact keeps_execMilestoneMarker lane marker idle stuffErrors deep flash s
  | spareLockTimeout pair flash => exact keeps_execSpareLockTimeout pair flash s
  | alignmentColumn lane invalid => exact keeps_execAlignmentColumn lane invalid s
  | refqLost refq flash => exact keeps_execRefqLost refq flash s
  | laneLoopEnd lane locked bits errs flash => exact keeps_execLaneLoopEnd lane locked bits errs flash s
  | laneWearRetire lane => exact keeps_execLaneWearRetire lane s
  | flitReceived port flit => exact keeps_execFlitReceived port flit s
  | flitTransmit port => exact keeps_execFlitTransmit port s
  | replayTimeout port => exact keeps_execReplayTimeout port s
  | linkSilenceTimeout port => exact keeps_execLinkSilenceTimeout port s
  | flowDataFrame src dflow dgen fseqno payload miss => exact keeps_execFlowDataFrame src dflow dgen fseqno payload miss s
  | flowAckFrame src dflow dgen last => exact keeps_execFlowAckFrame src dflow dgen last s
  | flowAckTimer flow => exact keeps_execFlowAckTimer flow s
  | reorderTimeout flow => exact keeps_execReorderTimeout flow s
  | flowSilence flow => exact keeps_execFlowSilence flow s
  | openFrame c => exact keeps_execOpenFrame c s
  | acceptFrame c => exact keeps_execAcceptFrame c s
  | confirmFrame c => exact keeps_execConfirmFrame c s
  | nackFrame c => exact keeps_execNackFrame c s
  | closeFrame c => exact keeps_execCloseFrame c s
  | closedFrame c => exact keeps_execClosedFrame c s
  | openResend flow => exact keeps_execOpenResend flow s
  | confirmTimeout flow => exact keeps_execConfirmTimeout flow s
  | closeTimeout flow => exact keeps_execCloseTimeout flow s
  | breakNotice port origin p => exact keeps_execBreakNotice port origin p s
  | healNotice port origin p => exact keeps_execHealNotice port origin p s
  | beaconSend => exact keeps_execBeaconSend s
  | beaconFrame port accNs budgetNs number => exact keeps_execBeaconFrame port accNs budgetNs number s
  | beaconStale => exact keeps_execBeaconStale s
  | wireDelayMeasure port ps => exact keeps_execWireDelayMeasure port ps s
  | timeFrameSend => exact keeps_execTimeFrameSend s
  | timeFrame src flow port payload stamp => exact keeps_execTimeFrame src flow port payload stamp s
  | timeFlowTimeout d => exact keeps_execTimeFlowTimeout d s
  | ptpSync d sender t1 stamp => exact keeps_execPtpSync d sender t1 stamp s
  | ptpAnnounce d sender dataset => exact keeps_execPtpAnnounce d sender dataset s
  | ptpDelayResp d stamp t4 => exact keeps_execPtpDelayResp d stamp t4 s
  | announceTimeout d => exact keeps_execAnnounceTimeout d s
  | syncTimeout d => exact keeps_execSyncTimeout d s
  | revertTimer => exact keeps_execRevertTimer s
  | viewStep => exact keeps_execViewStep s
  | refHoldEnd k lines => exact keeps_execRefHoldEnd k lines s
  | cadenceAligned k => exact keeps_execCadenceAligned k s
  | syncInFrame fmt num den periodPs stamp => exact keeps_execSyncInFrame fmt num den periodPs stamp s
  | syncInLost => exact keeps_execSyncInLost s
  | ltcFrame value stamp => exact keeps_execLtcFrame value stamp s
  | ltcFreewheel => exact keeps_execLtcFreewheel s
  | ltcGeneratorFrame offset => exact keeps_execLtcGeneratorFrame offset s
  | outputSelect k adjusted => exact keeps_execOutputSelect k adjusted s
  | ethPortDown e => exact keeps_execEthPortDown e s
  | displayVblank => exact keeps_execDisplayVblank s
  | displayLine => exact keeps_execDisplayLine s
  | layerBurst layer line burst => exact keeps_execLayerBurst layer line burst s
  | composeDeadline line late => exact keeps_execComposeDeadline line late s
  | displayFrameCrc crc0 crc1 => exact keeps_execDisplayFrameCrc crc0 crc1 s
  | audioStrobe j pdm rx => exact keeps_execAudioStrobe j pdm rx s
  | audioChangeTimeout item => exact keeps_execAudioChangeTimeout item s
  | audioFrame port slots soon => exact keeps_execAudioFrame port slots soon s
  | audioClockFault port fault periodPs => exact keeps_execAudioClockFault port fault periodPs s
  | audioClockQualified port periodPs => exact keeps_execAudioClockQualified port periodPs s
  | mr4Read ch rank code band => exact keeps_execMr4Read ch rank code band s
  | paybackEnd ch rank ns => exact keeps_execPaybackEnd ch rank ns s
  | writeDrain ch r => exact keeps_execWriteDrain ch r s
  | dqOscRead ch rank osc => exact keeps_execDqOscRead ch rank osc s
  | burstPoisoned addr rank bank row client => exact keeps_execBurstPoisoned addr rank bank row client s
  | scrubReport ch rank bank row corrections => exact keeps_execScrubReport ch rank bank row corrections s
  | rowRemapDone ch flash => exact keeps_execRowRemapDone ch flash s
  | sensorConversion sensor reading bias flash => exact keeps_execSensorConversion sensor reading bias flash s
  | suspectTimeout sensor flash => exact keeps_execSuspectTimeout sensor flash s
  | riseEvaluation => exact keeps_execRiseEvaluation s
  | controlPeriod ma => exact keeps_execControlPeriod ma s
  | calInterval cls => exact keeps_execCalInterval cls s
  | calMeasure cls target tries => exact keeps_execCalMeasure cls target tries s
  | calGapApply cls target => exact keeps_execCalGapApply cls target s
  | rcalCheck value => exact keeps_execRcalCheck value s
  | bankFault array unit bank spans flash => exact keeps_execBankFault array unit bank spans flash s
  | bankWear array unit bank corrections flash => exact keeps_execBankWear array unit bank corrections flash s
  | selfTestDone cls index pass flash => exact keeps_execSelfTestDone cls index pass flash s
  | lockstepRestartDone => exact keeps_execLockstepRestartDone s
  | refclkQualified alt => exact keeps_execRefclkQualified alt s
  | resetNRise => exact keeps_execResetNRise s
  | railInWindow k mv => exact keeps_execRailInWindow k mv s
  | plossResetExit => exact keeps_execPlossResetExit s
  | staggerWaitEnd sensor => exact keeps_execStaggerWaitEnd sensor s
  | ethPortUp e => exact keeps_execEthPortUp e s
  | refreshDue ch rank waiting issued => exact keeps_execRefreshDue ch rank waiting issued s
  | decodeSlabDone p => exact keeps_execDecodeSlabDone p s

end Sys2Proof.Machine
end

