-- ==== Sys2Proof/Laws/Mailbox.lean ====
section
/-! SUPPORT. What the end of a mailbox command leaves: its slot answers, its done bit is set, and every other byte of the
mailbox stands. -/

namespace Sys2Proof.Machine

/-- A value coded in bytes reads back, modulo its width. -/
theorem leNat_leBytes (k v : Nat) : leNat (leBytes k v) = v % 256 ^ k := by
  induction k generalizing v with
  | zero => simp [leBytes, leNat, Nat.mod_one]
  | succ k ih =>
    rw [leBytes, leNat, ih, BitVec.toNat_ofNat, Nat.pow_succ' (n := k) (m := 256)]
    exact (Nat.mod_mul (x := v) (a := 256) (b := 256 ^ k)).symm

@[simp] theorem leBytes_length (k v : Nat) : (leBytes k v).length = k := by
  induction k generalizing v with
  | zero => rfl
  | succ k ih => simp [leBytes, ih]

/-- The mailbox after a command ends, its doorbells and holds apart. -/
theorem mbxFinish_mbx (s : State) (n st eo : Nat) (l : List Byte) :
    (mbxFinish s n st eo l).mbx.slots = memPutBytes (memPutBytes (memPutBytes s.mbx.slots (slotAddr n + 16) l)
        (slotAddr n + 0x0A) (leBytes 2 l.length)) (slotAddr n + 0x08) (leBytes 2 st) ∧
      (mbxFinish s n st eo l).mbx.done = s.mbx.done ||| BitVec.ofNat 40 (2 ^ n) := by
  unfold mbxFinish
  dsimp only
  split <;> simp [slotWrite]

/-- A completed command's slot answers. -/
theorem mbxFinish_answered {s : State} {n st eo : Nat} {l : List Byte} (hw : Mem.wf s.mbx.slots = true) (hn : n < 40)
    (hs : st < 65536) (hl : l.length ≤ 496) : Answered (mbxFinish s n st eo l) n st l := by
  obtain ⟨h1, h2⟩ := mbxFinish_mbx s n st eo l
  have w1 := memPutBytes_wf _ (slotAddr n + 16) l hw
  have w2 := memPutBytes_wf _ (slotAddr n + 0x0A) (leBytes 2 l.length) w1
  have e1 := memBytes_memPutBytes _ (slotAddr n + 0x08) (leBytes 2 st) w2
  have e2 := memBytes_memPutBytes _ (slotAddr n + 0x0A) (leBytes 2 l.length) w1
  rw [leBytes_length] at e1 e2
  refine ⟨?_, ?_, ?_, ?_⟩
  · unfold slotStatus slotField memLE
    rw [h1, e1, leNat_leBytes]
    exact Nat.mod_eq_of_lt (by omega)
  · unfold slotField memLE
    rw [h1, memBytes_memPutBytes_outside _ _ _ _ _ w2 (by simp), e2, leNat_leBytes]
    exact Nat.mod_eq_of_lt (by omega)
  · rw [h1, memBytes_memPutBytes_outside _ _ _ _ _ w2 (by simp), memBytes_memPutBytes_outside _ _ _ _ _ w1 (by simp),
      memBytes_memPutBytes _ _ _ hw]
  · rw [h2, BitVec.getLsbD_or, BitVec.getLsbD_ofNat]
    simp [hn]

/-- A completed command leaves every byte of the mailbox outside its own answer. -/
theorem mbxFinish_outside {s : State} {n st eo : Nat} {l : List Byte} {a : Nat} (hw : Mem.wf s.mbx.slots = true)
    (ha : a < slotAddr n + 8 ∨ slotAddr n + 16 + l.length ≤ a) (hb : a < slotAddr n + 8 ∨ slotAddr n + 12 ≤ a) :
    memGet (mbxFinish s n st eo l).mbx.slots a = memGet s.mbx.slots a := by
  have w1 := memPutBytes_wf _ (slotAddr n + 16) l hw
  have w2 := memPutBytes_wf _ (slotAddr n + 0x0A) (leBytes 2 l.length) w1
  rw [(mbxFinish_mbx s n st eo l).1, memGet_memPutBytes_outside _ _ _ _ w2 (by rw [leBytes_length]; omega),
    memGet_memPutBytes_outside _ _ _ _ w1 (by rw [leBytes_length]; omega),
    memGet_memPutBytes_outside _ _ _ _ hw (by omega)]

/-- A command whose turn it is not runs nothing. -/
theorem mbxRun_idle {c : Card} {n : Nat} {s : State} (h : mbxTurn s c.opcode n = false) : mbxRun c n s = s := by
  simp [mbxRun, h]

/-- A refused command answers with its rejection and does nothing else. -/
theorem mbxRun_reject {c : Card} {n : Nat} {s : State} {r : Rej} (h : mbxTurn s c.opcode n = true)
    (hr : cardChecks c n s = some r) : mbxRun c n s = mbxReject s n r := by
  simp [mbxRun, h, hr]

/-- An accepted command whose card answers at once. -/
theorem mbxRun_now {c : Card} {n : Nat} {s t : State} {resp : List Byte} (h : Accepted c n s)
    (he : c.effect n (slotBody s n) s = (t, .now resp)) : mbxRun c n s = mbxOk t n resp := by
  simp [mbxRun, h.1, h.2, he]

/-- An accepted command whose card answers later: its slot is under way. -/
theorem mbxRun_later {c : Card} {n : Nat} {s t : State} (h : Accepted c n s)
    (he : c.effect n (slotBody s n) s = (t, .later)) :
    mbxRun c n s = { t with mbx.started := t.mbx.started ++ [n] } := by
  simp [mbxRun, h.1, h.2, he]

/-- An accepted command that answers at once completes with status OK, and everything but the mailbox, the event record
and its interrupt is as its card leaves it. -/
theorem mbxRun_answers {c : Card} {n : Nat} {s t : State} {resp : List Byte} (h : Accepted c n s)
    (he : c.effect n (slotBody s n) s = (t, .now resp)) (hw : Mem.wf t.mbx.slots = true) (hn : n < 40)
    (hl : resp.length ≤ 496) : Answered (mbxRun c n s) n 0 resp := by
  rw [mbxRun_now h he]
  exact mbxFinish_answered hw hn (by omega) hl

end Sys2Proof.Machine
end

