-- ==== Sys2Proof/Laws/PerInstr.lean ====
section
/-! SUPPORT. For every constructor: the opcode it names, where it is a mailbox command, is an assigned opcode (R629). -/

namespace Sys2Proof.Laws.Named

/-- A mailbox command names an assigned opcode; an event or an access names none. -/
def Statement (i : Instr) : Prop := ∀ op, i.opcode? = some op → Machine.opcodeAssigned op = true

theorem of_none {i : Instr} (h : i.opcode? = none) : Statement i := by
  intro op h2
  rw [h] at h2
  cases h2

theorem of_some {i : Instr} {k : Nat} (h : i.opcode? = some k) (hk : Machine.opcodeAssigned k = true) : Statement i := by
  intro op h2
  rw [h] at h2
  cases h2
  exact hk

theorem sysIdentify (n : Fin 40) : Statement (.sysIdentify n) :=
  of_some rfl rfl
theorem sysReset (n : Fin 40) : Statement (.sysReset n) :=
  of_some rfl rfl
theorem sysGpio (n : Fin 40) : Statement (.sysGpio n) :=
  of_some rfl rfl
theorem sysTally (n : Fin 40) : Statement (.sysTally n) :=
  of_some rfl rfl
theorem evqConfig (n : Fin 40) : Statement (.evqConfig n) :=
  of_some rfl rfl
theorem evqRoute (n : Fin 40) : Statement (.evqRoute n) :=
  of_some rfl rfl
theorem evqReset (n : Fin 40) : Statement (.evqReset n) :=
  of_some rfl rfl
theorem sensConfig (n : Fin 40) : Statement (.sensConfig n) :=
  of_some rfl rfl
theorem sensPower (n : Fin 40) : Statement (.sensPower n) :=
  of_some rfl rfl
theorem sensStart (n : Fin 40) : Statement (.sensStart n) :=
  of_some rfl rfl
theorem sensStop (n : Fin 40) : Statement (.sensStop n) :=
  of_some rfl rfl
theorem sensClear (n : Fin 40) : Statement (.sensClear n) :=
  of_some rfl rfl
theorem sensBusXfer (n : Fin 40) : Statement (.sensBusXfer n) :=
  of_some rfl rfl
theorem sensCounters (n : Fin 40) : Statement (.sensCounters n) :=
  of_some rfl rfl
theorem sensMetaPoll (n : Fin 40) : Statement (.sensMetaPoll n) :=
  of_some rfl rfl
theorem schedSensor (n : Fin 40) : Statement (.schedSensor n) :=
  of_some rfl rfl
theorem schedCommit (n : Fin 40) : Statement (.schedCommit n) :=
  of_some rfl rfl
theorem schedStatus (n : Fin 40) : Statement (.schedStatus n) :=
  of_some rfl rfl
theorem feLinLoad (n : Fin 40) : Statement (.feLinLoad n) :=
  of_some rfl rfl
theorem feMerge (n : Fin 40) : Statement (.feMerge n) :=
  of_some rfl rfl
theorem feBlack (n : Fin 40) : Statement (.feBlack n) :=
  of_some rfl rfl
theorem feMapAlloc (n : Fin 40) : Statement (.feMapAlloc n) :=
  of_some rfl rfl
theorem feMapFree (n : Fin 40) : Statement (.feMapFree n) :=
  of_some rfl rfl
theorem feMapSelect (n : Fin 40) : Statement (.feMapSelect n) :=
  of_some rfl rfl
theorem feDefect (n : Fin 40) : Statement (.feDefect n) :=
  of_some rfl rfl
theorem feStatsConfig (n : Fin 40) : Statement (.feStatsConfig n) :=
  of_some rfl rfl
theorem feCalCapture (n : Fin 40) : Statement (.feCalCapture n) :=
  of_some rfl rfl
theorem feCalAbort (n : Fin 40) : Statement (.feCalAbort n) :=
  of_some rfl rfl
theorem devCfa (n : Fin 40) : Statement (.devCfa n) :=
  of_some rfl rfl
theorem devDemosaic (n : Fin 40) : Statement (.devDemosaic n) :=
  of_some rfl rfl
theorem devSlFrame (n : Fin 40) : Statement (.devSlFrame n) :=
  of_some rfl rfl
theorem colTransform (n : Fin 40) : Statement (.colTransform n) :=
  of_some rfl rfl
theorem colGains (n : Fin 40) : Statement (.colGains n) :=
  of_some rfl rfl
theorem colShaperLoad (n : Fin 40) : Statement (.colShaperLoad n) :=
  of_some rfl rfl
theorem lutLoad (n : Fin 40) : Statement (.lutLoad n) :=
  of_some rfl rfl
theorem colContrast (n : Fin 40) : Statement (.colContrast n) :=
  of_some rfl rfl
theorem colOutput (n : Fin 40) : Statement (.colOutput n) :=
  of_some rfl rfl
theorem colStatus (n : Fin 40) : Statement (.colStatus n) :=
  of_some rfl rfl
theorem rnd0Output (n : Fin 40) : Statement (.rnd0Output n) :=
  of_some rfl rfl
theorem rndBind (n : Fin 40) : Statement (.rndBind n) :=
  of_some rfl rfl
theorem rndGeometry (n : Fin 40) : Statement (.rndGeometry n) :=
  of_some rfl rfl
theorem rndStatus (n : Fin 40) : Statement (.rndStatus n) :=
  of_some rfl rfl
theorem tapConfig (n : Fin 40) : Statement (.tapConfig n) :=
  of_some rfl rfl
theorem codecStream (n : Fin 40) : Statement (.codecStream n) :=
  of_some rfl rfl
theorem codecJobEncode (n : Fin 40) : Statement (.codecJobEncode n) :=
  of_some rfl rfl
theorem codecJobDecode (n : Fin 40) : Statement (.codecJobDecode n) :=
  of_some rfl rfl
theorem codecJobResume (n : Fin 40) : Statement (.codecJobResume n) :=
  of_some rfl rfl
theorem codecJobAbort (n : Fin 40) : Statement (.codecJobAbort n) :=
  of_some rfl rfl
theorem codecStatus (n : Fin 40) : Statement (.codecStatus n) :=
  of_some rfl rfl
theorem recStart (n : Fin 40) : Statement (.recStart n) :=
  of_some rfl rfl
theorem recStop (n : Fin 40) : Statement (.recStop n) :=
  of_some rfl rfl
theorem recChannel (n : Fin 40) : Statement (.recChannel n) :=
  of_some rfl rfl
theorem recVolFormat (n : Fin 40) : Statement (.recVolFormat n) :=
  of_some rfl rfl
theorem recVolMount (n : Fin 40) : Statement (.recVolMount n) :=
  of_some rfl rfl
theorem recVolUnmount (n : Fin 40) : Statement (.recVolUnmount n) :=
  of_some rfl rfl
theorem recClipDelete (n : Fin 40) : Statement (.recClipDelete n) :=
  of_some rfl rfl
theorem recStatus (n : Fin 40) : Statement (.recStatus n) :=
  of_some rfl rfl
theorem gateStatus (n : Fin 40) : Statement (.gateStatus n) :=
  of_some rfl rfl
theorem gateDrive (n : Fin 40) (drive : Option DriveFacts) : Statement (.gateDrive n drive) :=
  of_some rfl rfl
theorem gateService (n : Fin 40) : Statement (.gateService n) :=
  of_some rfl rfl
theorem gateRemote (n : Fin 40) : Statement (.gateRemote n) :=
  of_some rfl rfl
theorem gateSessionOpen (n : Fin 40) : Statement (.gateSessionOpen n) :=
  of_some rfl rfl
theorem gateSessionClose (n : Fin 40) : Statement (.gateSessionClose n) :=
  of_some rfl rfl
theorem laneConfig (n : Fin 40) (khzA khzB : Nat) : Statement (.laneConfig n khzA khzB) :=
  of_some rfl rfl
theorem laneStatus (n : Fin 40) (taps : List Int) (eyeW eyeH : Nat) : Statement (.laneStatus n taps eyeW eyeH) :=
  of_some rfl rfl
theorem laneLink (n : Fin 40) : Statement (.laneLink n) :=
  of_some rfl rfl
theorem lanePower (n : Fin 40) : Statement (.lanePower n) :=
  of_some rfl rfl
theorem laneLoop (n : Fin 40) (bits : BitVec 64) (errs : BitVec 32) : Statement (.laneLoop n bits errs) :=
  of_some rfl rfl
theorem laneEq (n : Fin 40) : Statement (.laneEq n) :=
  of_some rfl rfl
theorem ringConfig (n : Fin 40) : Statement (.ringConfig n) :=
  of_some rfl rfl
theorem ringStatus (n : Fin 40) : Statement (.ringStatus n) :=
  of_some rfl rfl
theorem flowOpen (n : Fin 40) : Statement (.flowOpen n) :=
  of_some rfl rfl
theorem flowClose (n : Fin 40) : Statement (.flowClose n) :=
  of_some rfl rfl
theorem flowListen (n : Fin 40) : Statement (.flowListen n) :=
  of_some rfl rfl
theorem flowSend (n : Fin 40) : Statement (.flowSend n) :=
  of_some rfl rfl
theorem flowStatus (n : Fin 40) : Statement (.flowStatus n) :=
  of_some rfl rfl
theorem outSdi (n : Fin 40) : Statement (.outSdi n) :=
  of_some rfl rfl
theorem out2110 (n : Fin 40) : Statement (.out2110 n) :=
  of_some rfl rfl
theorem outEthPort (n : Fin 40) : Statement (.outEthPort n) :=
  of_some rfl rfl
theorem outStatus (n : Fin 40) : Statement (.outStatus n) :=
  of_some rfl rfl
theorem dispConfig (n : Fin 40) : Statement (.dispConfig n) :=
  of_some rfl rfl
theorem dispLayer (n : Fin 40) : Statement (.dispLayer n) :=
  of_some rfl rfl
theorem dispCommit (n : Fin 40) : Statement (.dispCommit n) :=
  of_some rfl rfl
theorem dispDcs (n : Fin 40) (r0 r1 : DcsResult) : Statement (.dispDcs n r0 r1) :=
  of_some rfl rfl
theorem dispStatus (n : Fin 40) : Statement (.dispStatus n) :=
  of_some rfl rfl
theorem audConfig (n : Fin 40) : Statement (.audConfig n) :=
  of_some rfl rfl
theorem audPort (n : Fin 40) : Statement (.audPort n) :=
  of_some rfl rfl
theorem audChannel (n : Fin 40) : Statement (.audChannel n) :=
  of_some rfl rfl
theorem audSlots (n : Fin 40) : Statement (.audSlots n) :=
  of_some rfl rfl
theorem audStart (n : Fin 40) : Statement (.audStart n) :=
  of_some rfl rfl
theorem audStop (n : Fin 40) : Statement (.audStop n) :=
  of_some rfl rfl
theorem audStatus (n : Fin 40) : Statement (.audStatus n) :=
  of_some rfl rfl
theorem timeDomain (n : Fin 40) : Statement (.timeDomain n) :=
  of_some rfl rfl
theorem timeSelect (n : Fin 40) : Statement (.timeSelect n) :=
  of_some rfl rfl
theorem timePort (n : Fin 40) : Statement (.timePort n) :=
  of_some rfl rfl
theorem timeSync (n : Fin 40) : Statement (.timeSync n) :=
  of_some rfl rfl
theorem timeLtc (n : Fin 40) : Statement (.timeLtc n) :=
  of_some rfl rfl
theorem timeServe (n : Fin 40) : Statement (.timeServe n) :=
  of_some rfl rfl
theorem timeStatus (n : Fin 40) : Statement (.timeStatus n) :=
  of_some rfl rfl
theorem memStatus (n : Fin 40) : Statement (.memStatus n) :=
  of_some rfl rfl
theorem memAperture (n : Fin 40) : Statement (.memAperture n) :=
  of_some rfl rfl
theorem memKeep (n : Fin 40) : Statement (.memKeep n) :=
  of_some rfl rfl
theorem thermConfig (n : Fin 40) : Statement (.thermConfig n) :=
  of_some rfl rfl
theorem thermStatus (n : Fin 40) : Statement (.thermStatus n) :=
  of_some rfl rfl
theorem calConfig (n : Fin 40) : Statement (.calConfig n) :=
  of_some rfl rfl
theorem calRun (n : Fin 40) : Statement (.calRun n) :=
  of_some rfl rfl
theorem calStatus (n : Fin 40) : Statement (.calStatus n) :=
  of_some rfl rfl
theorem brStatus (n : Fin 40) : Statement (.brStatus n) :=
  of_some rfl rfl
theorem brPolicy (n : Fin 40) : Statement (.brPolicy n) :=
  of_some rfl rfl
theorem pwrState (n : Fin 40) : Statement (.pwrState n) :=
  of_some rfl rfl
theorem pwrUnitReset (n : Fin 40) : Statement (.pwrUnitReset n) :=
  of_some rfl rfl
theorem fwStage (n : Fin 40) : Statement (.fwStage n) :=
  of_some rfl rfl
theorem fwActivate (n : Fin 40) : Statement (.fwActivate n) :=
  of_some rfl rfl
theorem fwStatus (n : Fin 40) : Statement (.fwStatus n) :=
  of_some rfl rfl
theorem spareStatus (n : Fin 40) : Statement (.spareStatus n) :=
  of_some rfl rfl
theorem spareLedger (n : Fin 40) : Statement (.spareLedger n) :=
  of_some rfl rfl
theorem spareReturn (n : Fin 40) : Statement (.spareReturn n) :=
  of_some rfl rfl
theorem flintSet (n : Fin 40) : Statement (.flintSet n) :=
  of_some rfl rfl
theorem flintStatus (n : Fin 40) : Statement (.flintStatus n) :=
  of_some rfl rfl
theorem doorbellRing (port : Port) (n : Fin 40) (value : BitVec 32) : Statement (.doorbellRing port n value) :=
  of_none rfl
theorem registerWrite (port : Port) (addr : Nat) (data : List Byte) : Statement (.registerWrite port addr data) :=
  of_none rfl
theorem attnLeafClear (port : Port) (reg : LeafReg) (value : BitVec 32) : Statement (.attnLeafClear port reg value) :=
  of_none rfl
theorem attnMaskWrite (port : Port) (reg : MaskReg) (value : BitVec 32) : Statement (.attnMaskWrite port reg value) :=
  of_none rfl
theorem wmHitClear (port : Port) (q : Fin 16) : Statement (.wmHitClear port q) :=
  of_none rfl
theorem eqPortRead (q : Fin 16) (word : Fin 8) : Statement (.eqPortRead q word) :=
  of_none rfl
theorem eqMark (port : Port) (q : Fin 16) : Statement (.eqMark port q) :=
  of_none rfl
theorem eqRewind (port : Port) (q : Fin 16) (alsoMark : Bool) : Statement (.eqRewind port q alsoMark) :=
  of_none rfl
theorem eqRelease (port : Port) (q : Fin 16) (value : BitVec 32) : Statement (.eqRelease port q value) :=
  of_none rfl
theorem pwrWakeWrite (port : Port) (value : BitVec 32) : Statement (.pwrWakeWrite port value) :=
  of_none rfl
theorem tbCountRead (wide : Bool) : Statement (.tbCountRead wide) :=
  of_none rfl
theorem tbDomainRead (d : Fin 2) (wide : Bool) : Statement (.tbDomainRead d wide) :=
  of_none rfl
theorem bedrockWindowWrite (port : Port) (word : BitVec 14) (value : BitVec 32) : Statement (.bedrockWindowWrite port word value) :=
  of_none rfl
theorem bar2Access (off : BitVec 32) (access : HostAccess) (ecc : LinkFault) : Statement (.bar2Access off access ecc) :=
  of_none rfl
theorem qspiTransaction (instr : Byte) (addr : BitVec 32) (data : List Byte) (count : Nat) : Statement (.qspiTransaction instr addr data count) :=
  of_none rfl
theorem qspiStatusRead : Statement (.qspiStatusRead) :=
  of_none rfl
theorem coldPowerOn (refclk alt resetLow plossLow : Bool) (mv : List (BitVec 16)) : Statement (.coldPowerOn refclk alt resetLow plossLow mv) :=
  of_none rfl
theorem bootReady (r : BootReport) : Statement (.bootReady r) :=
  of_none rfl
theorem resetN (held : Bool) : Statement (.resetN held) :=
  of_none rfl
theorem plossNFall : Statement (.plossNFall) :=
  of_none rfl
theorem plossDrainDone (ports : BitVec 4) (us : BitVec 32) : Statement (.plossDrainDone ports us) :=
  of_none rfl
theorem plossResetPoint (low : Bool) : Statement (.plossResetPoint low) :=
  of_none rfl
theorem plossResponseEnd : Statement (.plossResponseEnd) :=
  of_none rfl
theorem railUndervoltage (k : Fin 8) (mv : BitVec 16) : Statement (.railUndervoltage k mv) :=
  of_none rfl
theorem railOvervoltage (k : Fin 8) (mv : BitVec 16) : Statement (.railOvervoltage k mv) :=
  of_none rfl
theorem refclkLost (alt : Bool) : Statement (.refclkLost alt) :=
  of_none rfl
theorem refclkFailoverDone : Statement (.refclkFailoverDone) :=
  of_none rfl
theorem refclkStop (final : Bool) : Statement (.refclkStop final) :=
  of_none rfl
theorem thermalTrip : Statement (.thermalTrip) :=
  of_none rfl
theorem lockstepFault : Statement (.lockstepFault) :=
  of_none rfl
theorem coreHeartbeatMiss (core : Fin 5) (flash : Bool) : Statement (.coreHeartbeatMiss core flash) :=
  of_none rfl
theorem watchdogReset : Statement (.watchdogReset) :=
  of_none rfl
theorem testEnFall : Statement (.testEnFall) :=
  of_none rfl
theorem flintGateOpen : Statement (.flintGateOpen) :=
  of_none rfl
theorem spwrPgFall (sensor : Fin 4) : Statement (.spwrPgFall sensor) :=
  of_none rfl
theorem spwrPgRise (sensor : Fin 4) : Statement (.spwrPgRise sensor) :=
  of_none rfl
theorem spwrPgTimeout (sensor : Fin 4) : Statement (.spwrPgTimeout sensor) :=
  of_none rfl
theorem sensorPowerSettled (sensor : Fin 4) : Statement (.sensorPowerSettled sensor) :=
  of_none rfl
theorem gpioEdge (levels : BitVec 32) : Statement (.gpioEdge levels) :=
  of_none rfl
theorem wakeGpio : Statement (.wakeGpio) :=
  of_none rfl
theorem wakeTime : Statement (.wakeTime) :=
  of_none rfl
theorem powerStateEntered : Statement (.powerStateEntered) :=
  of_none rfl
theorem powerStateExitDone (us : BitVec 32) (r : ExitReport) : Statement (.powerStateExitDone us r) :=
  of_none rfl
theorem fwStageWriteDone (result : Fin 3) : Statement (.fwStageWriteDone result) :=
  of_none rfl
theorem fwActivationDone (lacks : List Nat) : Statement (.fwActivationDone lacks) :=
  of_none rfl
theorem fwActivationRevert : Statement (.fwActivationRevert) :=
  of_none rfl
theorem frameStart (sensor : Fin 4) (p : Packet) : Statement (.frameStart sensor p) :=
  of_none rfl
theorem frameEnd (sensor : Fin 4) (p : Packet) : Statement (.frameEnd sensor p) :=
  of_none rfl
theorem linePacket (sensor : Fin 4) (p : Packet) : Statement (.linePacket sensor p) :=
  of_none rfl
theorem embeddedPacket (sensor : Fin 4) (p : Packet) : Statement (.embeddedPacket sensor p) :=
  of_none rfl
theorem lineTimeout (sensor : Fin 4) : Statement (.lineTimeout sensor) :=
  of_none rfl
theorem framePeriodTimeout (sensor : Fin 4) : Statement (.framePeriodTimeout sensor) :=
  of_none rfl
theorem linkLockLoss (sensor link : Fin 4) (lanes : BitVec 16) : Statement (.linkLockLoss sensor link lanes) :=
  of_none rfl
theorem sensorLinkUp (sensor link : Fin 4) : Statement (.sensorLinkUp sensor link) :=
  of_none rfl
theorem busXferDone (bus : Fin 6) (result : Fin 5) (written : Nat) (data : List Byte) : Statement (.busXferDone bus result written data) :=
  of_none rfl
theorem metaPollTrigger (sensor : Fin 4) (fifo : Fin 2) : Statement (.metaPollTrigger sensor fifo) :=
  of_none rfl
theorem metaPollDone (bus : Fin 6) (result : Fin 5) (data : List Byte) : Statement (.metaPollDone bus result data) :=
  of_none rfl
theorem bandIssue (engine : Fin 8) : Statement (.bandIssue engine) :=
  of_none rfl
theorem bandComplete (engine : Fin 9) (misses stall : Nat) : Statement (.bandComplete engine misses stall) :=
  of_none rfl
theorem deadlineDrop (sensor : Fin 4) : Statement (.deadlineDrop sensor) :=
  of_none rfl
theorem engineFault (engine : Fin 9) (flash : Bool) : Statement (.engineFault engine flash) :=
  of_none rfl
theorem engineNoProgress (engine : Fin 9) (flash : Bool) : Statement (.engineNoProgress engine flash) :=
  of_none rfl
theorem slotRelease (sensor : Fin 4) (slot : Fin 8) : Statement (.slotRelease sensor slot) :=
  of_none rfl
theorem bankWrite (inst : Fin 6) (bank : Fin 2) : Statement (.bankWrite inst bank) :=
  of_none rfl
theorem calFinalPassDone (sensor : Fin 4) : Statement (.calFinalPassDone sensor) :=
  of_none rfl
theorem renditionTake (r : Fin 6) : Statement (.renditionTake r) :=
  of_none rfl
theorem renditionFrameDone (r : Fin 6) : Statement (.renditionFrameDone r) :=
  of_none rfl
theorem slabIssue (lane : Fin 4) : Statement (.slabIssue lane) :=
  of_none rfl
theorem slabVerified (p : Fin 5) (v : Verify) (flash : Bool) : Statement (.slabVerified p v flash) :=
  of_none rfl
theorem codecDeadline (t : Fin 8) : Statement (.codecDeadline t) :=
  of_none rfl
theorem codecLaneFault (p : Fin 5) (flash : Bool) : Statement (.codecLaneFault p flash) :=
  of_none rfl
theorem codecLaneNoProgress (p : Fin 5) (flash : Bool) : Statement (.codecLaneNoProgress p flash) :=
  of_none rfl
theorem heldMarkerStaged (c : Fin 8) : Statement (.heldMarkerStaged c) :=
  of_none rfl
theorem recCheckpoint (c : Fin 8) : Statement (.recCheckpoint c) :=
  of_none rfl
theorem recClipClose (c : Fin 8) : Statement (.recClipClose c) :=
  of_none rfl
theorem gateAdmit (port : Fin 4) (blocks : Nat) : Statement (.gateAdmit port blocks) :=
  of_none rfl
theorem journalRecordDurable (port : Fin 4) : Statement (.journalRecordDurable port) :=
  of_none rfl
theorem driveWriteComplete (port : Fin 4) (index blocks : Nat) : Statement (.driveWriteComplete port index blocks) :=
  of_none rfl
theorem journalRetire (port : Fin 4) : Statement (.journalRetire port) :=
  of_none rfl
theorem driveFailed (port : Fin 4) (cause : DriveFault) : Statement (.driveFailed port cause) :=
  of_none rfl
theorem nvmeDoorbell (queue : NvmeQueue) (value : BitVec 16) :
    Statement (.nvmeDoorbell queue value) :=
  of_none rfl
theorem nvmeCcEnable (mps css iosqes iocqes : Fin 16) (asqs acqs : BitVec 12) : Statement (.nvmeCcEnable mps css iosqes iocqes asqs acqs) :=
  of_none rfl
theorem nvmeControllerReset : Statement (.nvmeControllerReset) :=
  of_none rfl
theorem nvmeShutdown : Statement (.nvmeShutdown) :=
  of_none rfl
theorem nvmeCreateIoSq (h : NvmeHead) (qid size cq : BitVec 16) (contiguous : Bool) : Statement (.nvmeCreateIoSq h qid size cq contiguous) :=
  of_none rfl
theorem nvmeCreateIoCq (h : NvmeHead) (qid size vector : BitVec 16) (contiguous irq : Bool) : Statement (.nvmeCreateIoCq h qid size vector contiguous irq) :=
  of_none rfl
theorem nvmeDeleteIoSq (h : NvmeHead) (qid : BitVec 16) : Statement (.nvmeDeleteIoSq h qid) :=
  of_none rfl
theorem nvmeDeleteIoCq (h : NvmeHead) (qid : BitVec 16) : Statement (.nvmeDeleteIoCq h qid) :=
  of_none rfl
theorem nvmeGetLogPage (h : NvmeHead) (page : Byte) (dwords : BitVec 16) (off : BitVec 16) : Statement (.nvmeGetLogPage h page dwords off) :=
  of_none rfl
theorem nvmeIdentify (h : NvmeHead) (cns : Byte) : Statement (.nvmeIdentify h cns) :=
  of_none rfl
theorem nvmeAbort (h : NvmeHead) (sq target : BitVec 16) : Statement (.nvmeAbort h sq target) :=
  of_none rfl
theorem nvmeSetFeatures (h : NvmeHead) (fid : Byte) (value : BitVec 32) : Statement (.nvmeSetFeatures h fid value) :=
  of_none rfl
theorem nvmeGetFeatures (h : NvmeHead) (fid : Byte) : Statement (.nvmeGetFeatures h fid) :=
  of_none rfl
theorem nvmeAsyncEventRequest (h : NvmeHead) : Statement (.nvmeAsyncEventRequest h) :=
  of_none rfl
theorem nvmeFlush (sq : Fin 65) (h : NvmeHead) : Statement (.nvmeFlush sq h) :=
  of_none rfl
theorem nvmeWrite (sq : Fin 65) (h : NvmeHead) (lba : BitVec 64) (blocks : BitVec 16) (fua : Bool) (data : List Byte) : Statement (.nvmeWrite sq h lba blocks fua data) :=
  of_none rfl
theorem nvmeRead (sq : Fin 65) (h : NvmeHead) (lba : BitVec 64) (blocks : BitVec 16) (failed : Bool) : Statement (.nvmeRead sq h lba blocks failed) :=
  of_none rfl
theorem nvmeWriteZeroes (sq : Fin 65) (h : NvmeHead) (lba : BitVec 64) (blocks : BitVec 16) (fua : Bool) : Statement (.nvmeWriteZeroes sq h lba blocks fua) :=
  of_none rfl
theorem nvmeWriteOrdered (sq : Fin 65) (h : NvmeHead) (lba : BitVec 64) (blocks : BitVec 16) (fua : Bool) (data : List Byte) : Statement (.nvmeWriteOrdered sq h lba blocks fua data) :=
  of_none rfl
theorem nvmeBarrier (sq : Fin 65) (h : NvmeHead) (clean : Bool) : Statement (.nvmeBarrier sq h clean) :=
  of_none rfl
theorem laneBlockLock (lane : Fin 70) (skewNs : Nat) (flash : Bool) : Statement (.laneBlockLock lane skewNs flash) :=
  of_none rfl
theorem laneLockLoss (lane : Fin 70) (markers flash : Bool) : Statement (.laneLockLoss lane markers flash) :=
  of_none rfl
theorem milestoneMarker (lane : Fin 70) (marker : List Byte) (idle : Fin 3) (stuffErrors : Nat) (deep flash : Bool) : Statement (.milestoneMarker lane marker idle stuffErrors deep flash) :=
  of_none rfl
theorem spareLockTimeout (pair : Fin 6) (flash : Bool) : Statement (.spareLockTimeout pair flash) :=
  of_none rfl
theorem alignmentColumn (lane : Fin 70) (invalid : Nat) : Statement (.alignmentColumn lane invalid) :=
  of_none rfl
theorem refqLost (refq : Fin 4) (flash : Bool) : Statement (.refqLost refq flash) :=
  of_none rfl
theorem laneLoopEnd (lane : Fin 70) (locked : Bool) (bits : BitVec 64) (errs : BitVec 32) (flash : Bool) : Statement (.laneLoopEnd lane locked bits errs flash) :=
  of_none rfl
theorem laneWearRetire (lane : Fin 70) : Statement (.laneWearRetire lane) :=
  of_none rfl
theorem flitReceived (port : Fin 8) (flit : List Byte) : Statement (.flitReceived port flit) :=
  of_none rfl
theorem flitTransmit (port : Fin 8) : Statement (.flitTransmit port) :=
  of_none rfl
theorem replayTimeout (port : Fin 8) : Statement (.replayTimeout port) :=
  of_none rfl
theorem linkSilenceTimeout (port : Fin 8) : Statement (.linkSilenceTimeout port) :=
  of_none rfl
theorem flowDataFrame (src : BitVec 12) (dflow : BitVec 16) (dgen : Byte) (fseqno : BitVec 32) (payload : List Byte) (miss : Bool) : Statement (.flowDataFrame src dflow dgen fseqno payload miss) :=
  of_none rfl
theorem flowAckFrame (src : BitVec 12) (dflow : BitVec 16) (dgen : Byte) (last : BitVec 32) : Statement (.flowAckFrame src dflow dgen last) :=
  of_none rfl
theorem flowAckTimer (flow : BitVec 16) : Statement (.flowAckTimer flow) :=
  of_none rfl
theorem reorderTimeout (flow : BitVec 16) : Statement (.reorderTimeout flow) :=
  of_none rfl
theorem flowSilence (flow : BitVec 16) : Statement (.flowSilence flow) :=
  of_none rfl
theorem openFrame (c : Control) : Statement (.openFrame c) :=
  of_none rfl
theorem acceptFrame (c : Control) : Statement (.acceptFrame c) :=
  of_none rfl
theorem confirmFrame (c : Control) : Statement (.confirmFrame c) :=
  of_none rfl
theorem nackFrame (c : Control) : Statement (.nackFrame c) :=
  of_none rfl
theorem closeFrame (c : Control) : Statement (.closeFrame c) :=
  of_none rfl
theorem closedFrame (c : Control) : Statement (.closedFrame c) :=
  of_none rfl
theorem openResend (flow : BitVec 16) : Statement (.openResend flow) :=
  of_none rfl
theorem confirmTimeout (flow : BitVec 16) : Statement (.confirmTimeout flow) :=
  of_none rfl
theorem closeTimeout (flow : BitVec 16) : Statement (.closeTimeout flow) :=
  of_none rfl
theorem breakNotice (port : Fin 8) (origin : BitVec 12) (p : Fin 64) : Statement (.breakNotice port origin p) :=
  of_none rfl
theorem healNotice (port : Fin 8) (origin : BitVec 12) (p : Fin 64) : Statement (.healNotice port origin p) :=
  of_none rfl
theorem beaconSend : Statement (.beaconSend) :=
  of_none rfl
theorem beaconFrame (port : Fin 8) (accNs budgetNs : BitVec 32) (number : BitVec 16) : Statement (.beaconFrame port accNs budgetNs number) :=
  of_none rfl
theorem beaconStale : Statement (.beaconStale) :=
  of_none rfl
theorem wireDelayMeasure (port : Fin 8) (ps : BitVec 32) : Statement (.wireDelayMeasure port ps) :=
  of_none rfl
theorem timeFrameSend : Statement (.timeFrameSend) :=
  of_none rfl
theorem timeFrame (src : BitVec 12) (flow : FlowRef) (port : Fin 8) (payload : List Byte) (stamp : Nat) :
    Statement (.timeFrame src flow port payload stamp) :=
  of_none rfl
theorem timeFlowTimeout (d : Fin 2) : Statement (.timeFlowTimeout d) :=
  of_none rfl
theorem ptpSync (d : Fin 2) (sender : Nat) (t1 : Int) (stamp : Nat) : Statement (.ptpSync d sender t1 stamp) :=
  of_none rfl
theorem ptpAnnounce (d : Fin 2) (sender : Nat) (dataset : List Nat) : Statement (.ptpAnnounce d sender dataset) :=
  of_none rfl
theorem ptpDelayResp (d : Fin 2) (stamp : Nat) (t4 : Int) : Statement (.ptpDelayResp d stamp t4) :=
  of_none rfl
theorem announceTimeout (d : Fin 2) : Statement (.announceTimeout d) :=
  of_none rfl
theorem syncTimeout (d : Fin 2) : Statement (.syncTimeout d) :=
  of_none rfl
theorem revertTimer : Statement (.revertTimer) :=
  of_none rfl
theorem viewStep : Statement (.viewStep) :=
  of_none rfl
theorem refHoldEnd (k : Fin 20) (lines : Int) : Statement (.refHoldEnd k lines) :=
  of_none rfl
theorem cadenceAligned (k : Fin 20) : Statement (.cadenceAligned k) :=
  of_none rfl
theorem syncInFrame (fmt : Fin 5) (num den periodPs stamp : Nat) : Statement (.syncInFrame fmt num den periodPs stamp) :=
  of_none rfl
theorem syncInLost : Statement (.syncInLost) :=
  of_none rfl
theorem ltcFrame (value : BitVec 32) (stamp : Nat) : Statement (.ltcFrame value stamp) :=
  of_none rfl
theorem ltcFreewheel : Statement (.ltcFreewheel) :=
  of_none rfl
theorem ltcGeneratorFrame (offset : Int) : Statement (.ltcGeneratorFrame offset) :=
  of_none rfl
theorem outputSelect (i : Fin 12) (adjusted : Bool) : Statement (.outputSelect i adjusted) :=
  of_none rfl
theorem ethPortDown (e : Fin 2) : Statement (.ethPortDown e) :=
  of_none rfl
theorem displayVblank : Statement (.displayVblank) :=
  of_none rfl
theorem displayLine : Statement (.displayLine) :=
  of_none rfl
theorem layerBurst (layer : Fin 4) (line : Fin 1600) (burst : Fin 3) : Statement (.layerBurst layer line burst) :=
  of_none rfl
theorem composeDeadline (line : Fin 1600) (late : List (BitVec 32)) : Statement (.composeDeadline line late) :=
  of_none rfl
theorem displayFrameCrc (crc0 crc1 : BitVec 32) : Statement (.displayFrameCrc crc0 crc1) :=
  of_none rfl
theorem audioStrobe (j : Nat) (pdm : List (List Bool)) (rx : List (List (BitVec 24))) : Statement (.audioStrobe j pdm rx) :=
  of_none rfl
theorem audioChangeTimeout (item : Fin 35) : Statement (.audioChangeTimeout item) :=
  of_none rfl
theorem audioFrame (port : Fin 3) (slots : List (BitVec 24)) (soon : Bool) : Statement (.audioFrame port slots soon) :=
  of_none rfl
theorem audioClockFault (port fault : Fin 3) (periodPs : BitVec 32) : Statement (.audioClockFault port fault periodPs) :=
  of_none rfl
theorem audioClockQualified (port : Fin 3) (periodPs : BitVec 32) : Statement (.audioClockQualified port periodPs) :=
  of_none rfl
theorem mr4Read (ch : Fin 16) (rank : Fin 2) (code : Byte) (band : Fin 3) : Statement (.mr4Read ch rank code band) :=
  of_none rfl
theorem paybackEnd (ch : Fin 16) (rank : Fin 2) (ns : BitVec 32) : Statement (.paybackEnd ch rank ns) :=
  of_none rfl
theorem writeDrain (ch : Fin 16) (r : ChannelReport) : Statement (.writeDrain ch r) :=
  of_none rfl
theorem dqOscRead (ch : Fin 16) (rank : Fin 2) (osc : DqReading) : Statement (.dqOscRead ch rank osc) :=
  of_none rfl
theorem burstPoisoned (addr : BitVec 36) (rank : Fin 2) (bank : BitVec 12) (row : BitVec 32) (client : BurstClient) :
    Statement (.burstPoisoned addr rank bank row client) :=
  of_none rfl
theorem scrubReport (ch : Fin 16) (rank : Fin 2) (bank row : Nat) (corrections : BitVec 32) : Statement (.scrubReport ch rank bank row corrections) :=
  of_none rfl
theorem rowRemapDone (ch : Fin 16) (flash : Bool) : Statement (.rowRemapDone ch flash) :=
  of_none rfl
theorem sensorConversion (sensor : Fin 28) (reading : BitVec 16) (bias : Bool) (flash : Bool) : Statement (.sensorConversion sensor reading bias flash) :=
  of_none rfl
theorem suspectTimeout (sensor : Fin 24) (flash : Bool) : Statement (.suspectTimeout sensor flash) :=
  of_none rfl
theorem riseEvaluation : Statement (.riseEvaluation) :=
  of_none rfl
theorem controlPeriod (ma : BitVec 32) : Statement (.controlPeriod ma) :=
  of_none rfl
theorem calInterval (cls : Fin 6) : Statement (.calInterval cls) :=
  of_none rfl
theorem calMeasure (cls : Fin 6) (target : Fin 54) (tries : List (BitVec 10 × BitVec 10)) : Statement (.calMeasure cls target tries) :=
  of_none rfl
theorem calGapApply (cls : Fin 6) (target : Fin 54) : Statement (.calGapApply cls target) :=
  of_none rfl
theorem rcalCheck (value : BitVec 32) : Statement (.rcalCheck value) :=
  of_none rfl
theorem bankFault (array : Fin 15) (unit : Fin 16) (bank : Fin 1024) (spans : List (Fin 1600 × Fin 2560 × Fin 2561)) (flash : Bool) : Statement (.bankFault array unit bank spans flash) :=
  of_none rfl
theorem bankWear (array : Fin 15) (unit : Fin 16) (bank : Fin 1024) (corrections : BitVec 32) (flash : Bool) : Statement (.bankWear array unit bank corrections flash) :=
  of_none rfl
theorem selfTestDone (cls : Fin 8) (index : Fin 64) (pass flash : Bool) : Statement (.selfTestDone cls index pass flash) :=
  of_none rfl
theorem lockstepRestartDone : Statement (.lockstepRestartDone) :=
  of_none rfl
theorem refclkQualified (alt : Bool) : Statement (.refclkQualified alt) :=
  of_none rfl
theorem resetNRise : Statement (.resetNRise) :=
  of_none rfl
theorem railInWindow (k : Fin 8) (mv : BitVec 16) : Statement (.railInWindow k mv) :=
  of_none rfl
theorem plossResetExit : Statement (.plossResetExit) :=
  of_none rfl
theorem staggerWaitEnd (sensor : Fin 4) : Statement (.staggerWaitEnd sensor) :=
  of_none rfl
theorem ethPortUp (e : Fin 2) : Statement (.ethPortUp e) :=
  of_none rfl
theorem refreshDue (ch : Fin 16) (rank : Fin 2) (waiting : Bool) (issued : Fin 18) : Statement (.refreshDue ch rank waiting issued) :=
  of_none rfl
theorem decodeSlabDone (p : Fin 5) : Statement (.decodeSlabDone p) :=
  of_none rfl

end Sys2Proof.Laws.Named
end

