-- ==== Sys2Proof/Laws/Super.lean ====
section
/-! SUPPORT. A block with its CRC at its end passes the check of it, and a superblock that has been written is valid
(R312, R343). -/

namespace Sys2Proof.Machine

theorem crcBits_lt (poly : Nat) (hp : poly < 2 ^ 32) (k c : Nat) (hc : c < 2 ^ 32) : crcBits poly k c < 2 ^ 32 := by
  induction k generalizing c with
  | zero => exact hc
  | succ k ih =>
    simp only [crcBits]
    apply ih
    split
    · exact Nat.xor_lt_two_pow (by omega) hp
    · omega

/-- A CRC-32C is 32 bits. -/
theorem crc32c_lt (bs : List Byte) : crc32c bs < 2 ^ 32 := by
  have h : ∀ c, c < 2 ^ 32 → bs.foldl (crcByte 0x82F63B78) c < 2 ^ 32 := by
    induction bs with
    | nil => exact fun c hc => hc
    | cons b bs ih =>
      intro c hc
      exact ih _ (crcBits_lt _ (by decide) _ _ (Nat.xor_lt_two_pow hc (by have := b.isLt; omega)))
  exact Nat.xor_lt_two_pow (h _ (by decide)) (by decide)

/-- A block with its CRC appended passes the check. -/
theorem crcOk_withCrc (b : List Byte) : crcOk (withCrc b) = true := by
  have h4 : (leBytes 4 (crc32c b)).length = 4 := by simp
  have e : (b ++ leBytes 4 (crc32c b)).length - 4 = b.length := by simp
  unfold crcOk withCrc fld
  rw [e, List.take_left' rfl, List.drop_left' rfl, List.take_of_length_le (by simp), leNat_leBytes,
    Nat.mod_eq_of_lt (a := crc32c b) (b := 256 ^ 4) (crc32c_lt b)]
  exact beq_self_eq_true _

/-- A written superblock is valid. -/
theorem superOk_superBytes (x : Volume) (blocks vstate : Nat) : superOk (superBytes x blocks vstate) = true := by
  have h4 : (leBytes 4 0x4C435646).length = 4 := by simp
  have h2 : (leBytes 2 1).length = 2 := by simp
  have h : ∀ l : List Byte, fld (leBytes 4 0x4C435646 ++ (leBytes 2 1 ++ l)) 0 4 = 0x4C435646 ∧
      fld (leBytes 4 0x4C435646 ++ (leBytes 2 1 ++ l)) 4 2 = 1 := by
    intro l
    refine ⟨?_, ?_⟩
    · rw [fld, List.drop_zero, List.take_left' h4]; rfl
    · rw [fld, List.drop_left' h4, List.take_left' h2]; rfl
  have k := crcOk_withCrc (leBytes 4 0x4C435646 ++ leBytes 2 1 ++ [0, 0] ++ leBytes 8 x.generation ++ leBytes 8 x.volId ++
    leBytes 8 blocks ++ leBytes 4 x.units ++ zeros 4 ++ leBytes 8 x.formatTime ++ leBytes 1 vstate ++ zeros 15 ++
    (x.label ++ zeros 16).take 16 ++ zeros 4012)
  unfold superOk superBytes
  rw [k]
  unfold withCrc
  simp only [List.append_assoc]
  rw [(h _).1, (h _).2]
  rfl

/-- Staged writes that touch no block of an address leave what the disk holds there. -/
theorem blockUnder_untouched (ws : List GWrite) (s : State) (p blk lba : Nat)
    (h : ∀ w ∈ ws, targetIndex w.targets lba = none) :
    blockUnder ws s p blk lba = memBytes (gatePort s p).disk (lba * blk) blk := by
  suffices ∀ acc : List Byte, ws.foldl (fun acc w =>
      if w.port = p then ((targetIndex w.targets lba).map w.block).getD acc else acc) acc = acc from this _
  induction ws with
  | nil => exact fun _ => rfl
  | cons w ws ih =>
    intro acc
    rw [List.foldl_cons, h w List.mem_cons_self]
    simp only [Option.map_none, Option.getD_none, ite_self]
    exact ih (fun w hw => h w (List.mem_cons_of_mem _ hw)) acc

/-- A port whose disk holds a written superblock in block 0, which no staged write touches, is formatted. -/
theorem superValid_written (s : State) (p : Nat) (m : Mem) (x : Volume) (blocks vstate : Nat) (h : Mem.wf m = true)
    (hd : (gatePort s p).disk = memPutBytes m 0 (superBytes x blocks vstate))
    (hw : ∀ w ∈ s.gate.writes, targetIndex w.targets 0 = none) : superValid s p = true := by
  have e : gateBlock s p 4096 0 = superBytes x blocks vstate := by
    unfold gateBlock
    rw [blockUnder_untouched _ _ _ _ _ hw, hd]
    have l : (superBytes x blocks vstate).length = 4096 := by
      simp only [superBytes, withCrc, zeros, List.length_append, leBytes_length, List.length_replicate,
        List.length_take, List.length_cons, List.length_nil]
      omega
    have := memBytes_memPutBytes m 0 (superBytes x blocks vstate) h
    rwa [l] at this
  unfold superValid
  rw [e, superOk_superBytes]
  rfl

end Sys2Proof.Machine
end

