-- ==== Sys2Proof/Laws/Windows.lean ====
section
/-! SUPPORT. Which window of BAR0 an address of the map reaches (R50): one lemma per window for a 4-byte write and for a
4-byte read, in terms of the offset inside the window. -/

namespace Sys2Proof.Machine

/-- A write in the doorbell region. -/
theorem bar0Write4_doorbells (s : State) (port : Port) (off v : Nat) (h : off < 0x1000) :
    bar0Write4 s port (0x1000 + off) v = doorbellWrite s port off v := by
  unfold bar0Write4
  rw [if_pos (by simp only [Bool.and_eq_true, decide_eq_true_eq]; omega)]
  rw [Nat.add_sub_cancel_left]

/-- A write in the attention window. -/
theorem bar0Write4_attention (s : State) (port : Port) (off v : Nat) (h : off < 0x1400) :
    bar0Write4 s port (0x20000 + off) v = attnWrite s off v := by
  unfold bar0Write4
  rw [if_neg (by simp only [Bool.and_eq_true, decide_eq_true_eq]; omega),
    if_neg (by simp only [Bool.and_eq_true, decide_eq_true_eq]; omega),
    if_pos (by simp only [Bool.and_eq_true, decide_eq_true_eq]; omega)]
  rw [Nat.add_sub_cancel_left]

/-- A write in the block of an event queue. -/
theorem bar0Write4_queue (s : State) (port : Port) (q off v : Nat) (hq : q < 16) (h : off < 256) :
    bar0Write4 s port (queueAddr q + off) v = eqWrite s q off v := by
  unfold bar0Write4 queueAddr
  rw [if_neg (by simp only [Bool.and_eq_true, decide_eq_true_eq]; omega),
    if_neg (by simp only [Bool.and_eq_true, decide_eq_true_eq]; omega),
    if_neg (by simp only [Bool.and_eq_true, decide_eq_true_eq]; omega),
    if_pos (by simp only [Bool.and_eq_true, decide_eq_true_eq]; omega)]
  congr 1 <;> omega

/-- A write in the Bedrock window. -/
theorem bar0Write4_bedrock (s : State) (port : Port) (off v : Nat) (h : off < 0x10000) :
    bar0Write4 s port (0x40000 + off) v = bedrockWrite s := by
  unfold bar0Write4
  rw [if_neg (by simp only [Bool.and_eq_true, decide_eq_true_eq]; omega),
    if_neg (by simp only [Bool.and_eq_true, decide_eq_true_eq]; omega),
    if_neg (by simp only [Bool.and_eq_true, decide_eq_true_eq]; omega),
    if_neg (by simp only [Bool.and_eq_true, decide_eq_true_eq]; omega),
    if_pos (by simp only [Bool.and_eq_true, decide_eq_true_eq]; omega)]

/-- A read in the block of an event queue. -/
theorem bar0Read4_queue (s : State) (q off : Nat) (hq : q < 16) (h : off < 256) :
    bar0Read4 s (queueAddr q + off) = eqRead s q off := by
  unfold bar0Read4 queueAddr
  rw [if_neg (by omega), if_neg (by simp only [Bool.and_eq_true, decide_eq_true_eq]; omega),
    if_neg (by simp only [Bool.and_eq_true, decide_eq_true_eq]; omega),
    if_neg (by simp only [Bool.and_eq_true, decide_eq_true_eq]; omega),
    if_pos (by simp only [Bool.and_eq_true, decide_eq_true_eq]; omega)]
  congr 1 <;> omega

/-- A read in the time-base window: it latches first, then reads a latched word (R638). -/
theorem bar0Read4_time (s : State) (off : Nat) (h : off < 0x100000) :
    bar0Read4 s (0x100000 + off) = (tbWord (tbTouch s off) off, tbTouch s off) := by
  unfold bar0Read4
  rw [if_neg (by omega), if_neg (by simp only [Bool.and_eq_true, decide_eq_true_eq]; omega),
    if_neg (by simp only [Bool.and_eq_true, decide_eq_true_eq]; omega),
    if_neg (by simp only [Bool.and_eq_true, decide_eq_true_eq]; omega),
    if_neg (by simp only [Bool.and_eq_true, decide_eq_true_eq]; omega),
    if_neg (by simp only [Bool.and_eq_true, decide_eq_true_eq]; omega),
    if_pos (by simp only [Bool.and_eq_true, decide_eq_true_eq]; omega)]
  rw [Nat.add_sub_cancel_left]

end Sys2Proof.Machine
end

