-- ==== Sys2Proof/Tests/Slice0.lean ====
section
/-! SUPPORT. Tests: a command each check of well-formedness refuses, a state that meets the hypotheses of each statement,
clause by clause, and some behaviour whose expected values come from outside the model. -/

namespace Sys2Proof.Tests.Slice0
open Sys2Proof Sys2Proof.Machine

set_option Elab.async false

/-! ## States and commands -/

/-- A device in Run, its boot done and its mailboxes ready. -/
def up : State := { State.reset with
  pwr := { State.reset.pwr with powered := true, booting := none, phase := 3, capFw := 0x03040000, dramGib := 16 }
  clk := { State.reset.clk with refclkOk := true, rootLock := true }
  mbx := { State.reset.mbx with ready := true }
  br := { State.reset.br with policy := { State.reset.br.policy with
    flintPermit := true, pubkey := zeros 96, sens := List.replicate 4 { grant := true, pgUse := true, pgTimeoutMs := 10, settleMs := 10 } } } }

/-- Parameters of `n` bytes: each entry is an offset, a length and a value; all other bytes are 0. -/
def params (n : Nat) (l : List (Nat × Nat × Nat)) : List Byte :=
  l.foldl (fun b x => overlay b x.1 (leBytes x.2.1 x.2.2)) (zeros n)

/-- A state in which firmware owns slot 0, with a command of an opcode, sequence number 1 and parameters. -/
def given (op : Nat) (p : List Byte) (s : State) : State := { s with
  mbx.slots := memPutBytes s.mbx.slots 0
    (leBytes 2 op ++ leBytes 2 1 ++ leBytes 2 p.length ++ zeros 10 ++ p)
  mbx.arrival := [0]
  mbx.db := s.mbx.db.setIfInBounds 0 1 }

/-- A small camera: 64 columns by 32 lines, one exposure of 12 bits on a CSI-2 link. -/
def smallCfg : SensConfig where
  iface := 1
  exposures := 1
  bits := 12
  width := 64
  height := 32
  fpsNum := 30
  fpsDen := 1
  depth := 2
  shortLimit := 0
  pedestal := 0
  first := 0
  links := 1
  lanesPer := 1
  rate := 100
  vcdt := [(0, 0x2C), (0, 0), (0, 0)]
  lineTimeout := 2
  base := 0x10000000

/-- Sensor 0 configured, and changed as told. -/
def cam (f : Sensor → Sensor) : State :=
  updSensor up 0 fun x => f { x with cfg := some smallCfg, linkUp := true, freeSlots := [0, 1] }

/-- The camera, powered and streaming. -/
def live (f : Sensor → Sensor) : State :=
  { cam (fun x => f { x with streaming := true }) with br.spwrOn := [true, false, false, false] }

/-- The device with one lane changed. -/
def withLane (a : Nat) (f : SerialLane → SerialLane) (s : State) : State := updSerial s a f

/-- A drive of 65,536 blocks of 4,096 bytes on root port 0. -/
def portUp : State := updGatePort up 0 fun p => { p with
  state := 1, gen := 4, width := 4, lbaLog2 := 12, windowKib := 256, blocks := 65536 }
/-- The same drive with a superblock. -/
def formatted : State := updGatePort portUp 0 fun p => { p with
  disk := memPutBytes [] 0 (superBytes { volId := 1, generation := 1, units := 61 } 65536 0) }
/-- The drive mounted as volume 0. -/
def mounted : State := updVolume portUp 0 fun v => { v with mounted := true, units := 61 }
/-- Channel 0 set to a codec stream on the mounted volume. -/
def channelSet : State := { mounted with recs.chans := modAt mounted.recs.chans 0 fun c => { c with kind := 1, state := 1 } }
/-- A mounted volume with a closed clip in directory entry 1. -/
def clipped : State := updGatePort mounted 0 fun p => { p with disk := [(1280 * 4096 + 512, 2)] }
/-- A configured member of ring 0 of two devices, at position 0, on ports 0 and 1. -/
def onRing : State := updRing up fun r => { r with
  configured := true, rootLat := some 0, within := true
  slots := [some { ring := 0, pos := 0, size := 2, portCw := 0, portCcw := 1 }, none, none, none]
  ports := r.ports.map fun p => { p with state := 2, lanesUp := true } }
/-- Four lanes of root port 0 with their personality. -/
def rpLanesUp : State := (List.range 4).foldl (fun s i => updSerial s (4 * rootQuad up.fuse 0 + i) fun x => { x with pers := 5 }) up
/-- Ports 0 and 1 bound to a lane each. -/
def linked : State := { up with
  lane.links := [some { lanes := [0], spare := false }, some { lanes := [8], spare := false }] ++
  List.replicate 6 none }

/-! ## What the statements assume: host accesses, boot, power, Bedrock

Each theorem named `test_meets_…` gives, clause by clause, a state and operands that meet the hypotheses of the statement
it is named after, at the ends of their ranges. -/

/-- Every addressed store of a small state is canonical. -/
theorem test_canonical : Canonical up ∧ Canonical mounted ∧ Canonical onRing := by
  refine ⟨⟨?_, ?_, ?_, ?_⟩, ⟨?_, ?_, ?_, ?_⟩, ⟨?_, ?_, ?_, ?_⟩⟩ <;> decide +kernel

theorem test_meets_IdleStepTicks : up.pending = [] ∧ up.mbx.arrival = [] ∧ counts up = true := by decide +kernel

theorem test_meets_StoresStayCanonical : Canonical State.reset ∧ step State.reset = .next State.reset :=
  ⟨⟨by decide, by decide, by decide, by decide⟩, rfl⟩

theorem test_meets_StepInvariants :
    step { up with pending := [.eqMark .pcie 0] } = .next (updQueue up 0 fun x => { x with mark := x.rd, ctrl := 1 }) ∧
    (Instr.eqMark .pcie 0).setsCount = false ∧ (Instr.eqMark .pcie 0).readsPolicy = false := ⟨rfl, rfl, rfl⟩

theorem test_meets_Completion : (zeros 496).length ≤ 496 ∧ (⟨0xFFFF, 0, 0⟩ : Rej).code < 65536 := by decide +kernel

theorem test_meets_RefusedCommandsOnlyAnswer :
    (Instr.sysTally 0).card? = some (0, sysTallyCard) ∧
    mbxTurn (given 0x0104 (params 4 [(0, 1, 4)]) up) sysTallyCard.opcode 0 = true ∧
    cardChecks sysTallyCard 0 (given 0x0104 (params 4 [(0, 1, 4)]) up) = some ⟨0x0103, 0, 0⟩ ∧
    mbxTurn up sysTallyCard.opcode 0 = false := ⟨rfl, by decide +kernel, by decide +kernel, by decide +kernel⟩

theorem test_meets_NoRingPartsRefuseGroup0C :
    (Instr.ringStatus 0).card? = some (0, ringStatusCard) ∧ ringStatusCard.opcode / 256 = 0x0C ∧
    (let s := given 0x0C02 (params 4 []) { up with fuse.ring := false }
     s.fuse.ring = false ∧ s.pwr.fwLacks.contains ringStatusCard.opcode = false ∧
      mbxTurn s ringStatusCard.opcode 0 = true ∧ s.mbx.db.getD 0 0 = slotSequence s 0) :=
  ⟨rfl, rfl, rfl, rfl, by decide +kernel, by decide +kernel⟩

theorem test_meets_DoorbellHandsOver :
    ownsSlot .pcie 32 = false ∧ ownsSlot .pcie 31 = true ∧ ownsSlot .qspi 32 = true ∧ ownsSlot .qspi 39 = true ∧
    State.reset.mbx.ready = false ∧ (given 0x0101 [] up).mbx.arrival.contains 0 = true ∧
    up.mbx.ready = true ∧ up.mbx.arrival.contains 31 = false ∧ up.mbx.activating = false ∧
    up.mbx.heldSlots.contains 31 = false := by decide +kernel

theorem test_meets_QueueTargets :
    (let s := given 0x0201 (params 4 [(0, 1, 4)]) up
     fld (slotBody s 0) 0 1 = 4 ∧ slotLength s 0 = 4 ∧ slotFlags s 0 < 8 ∧ mbxTurn s 0x0201 0 = true ∧
      s.pwr.fwLacks.contains 0x0201 = false ∧ s.mbx.db.getD 0 0 = slotSequence s 0) ∧
    (let s := given 0x0203 (params 4 [(0, 1, 0x1C)]) up
     fld (slotBody s 0) 0 1 = 0x1C ∧ slotLength s 0 = 4 ∧ slotFlags s 0 < 8 ∧ mbxTurn s 0x0203 0 = true ∧
      s.pwr.fwLacks.contains 0x0203 = false ∧ s.mbx.db.getD 0 0 = slotSequence s 0) := by
  refine ⟨⟨?_, ?_, ?_, ?_, ?_, ?_⟩, ⟨?_, ?_, ?_, ?_, ?_, ?_⟩⟩ <;> decide +kernel

theorem test_meets_StripesTile : ({ smallCfg with width := 8 } : SensConfig).width % 8 = 0 ∧
    stripeCount { smallCfg with width := 8 } = 1 ∧ stripeCount { smallCfg with width := 2056 } = 2 ∧
    stripeCount { smallCfg with width := 16384 } = 8 := by decide

theorem test_meets_F24ResultsAreCodes : (0x7FFFFF : Nat) < 2 ^ 24 ∧ (0x7FFFFF : Nat) ≠ 0x800000 ∧
    F24.round (F24.val 0x7FFFFF) 1 = 0x7FFFFF ∧ F24.round (F24.val 0xFFFFFF) 1 = 0xFFFFFF := by decide +kernel

theorem test_meets_IdentifyAlways : (let s := given 0x0101 [] up
    mbxTurn s 0x0101 0 = true ∧ slotLength s 0 = 0 ∧ slotFlags s 0 < 8 ∧ s.pwr.fwLacks.contains 0x0101 = false ∧
      s.mbx.db.getD 0 0 = slotSequence s 0) := by
  refine ⟨?_, ?_, ?_, ?_, ?_⟩ <;> decide +kernel

theorem test_meets_RegisterWrites :
    bar0Accepts 0x1FFFFC 4 = true ∧ bar0Accepts 0 8 = true ∧ bar0Accepts 0x10001 1 = true ∧
    bar0Accepts 0x200000 4 = false ∧ bar0Accepts 0x1FFFFE 4 = false ∧ (22 : Fin 32).val < 23 ∧ 28 < (29 : Fin 32).val ∧
    (1 : Fin 32) ≠ 2 ∧ (20 : Fin 32) ≠ 19 ∧
    (1 : Nat) ≠ 0 ∧ (1 : Nat) ≠ 2 ∧ (28 : Nat) ≠ 29 ∧ (30 : Nat) ≠ 31 := by decide

theorem test_meets_MarkAndRewind : ((up.queues.getD 15 {}).recs.any fun e => e.erased) = false := by decide +kernel

theorem test_meets_QueueAccesses : 0 < (1 : Fin 8).val ∧ (6 : Fin 8).val < 7 := by decide

/-- The window opens on the last byte of the usable capacity. -/
def lastByte : State := { up with host.bar2Base := dramUsable up.fuse - 1 }

theorem test_meets_DramWindow :
    up.pwr.state = .run ∧ up.host.bar2Base + (0xFFFFFFFF : BitVec 32).toNat + [(1 : Byte)].length ≤ dramUsable up.fuse ∧
    (lastByte.pwr.state = .run ∧ min 2 (dramUsable lastByte.fuse - (lastByte.host.bar2Base + 0)) = 1) ∧
    { up with pwr.state := .standby }.pwr.state ≠ .run ∧
    poisonedRange up (up.host.bar2Base + (0xFFFFFFFF : BitVec 32).toNat) 1 = false ∧
    [0x02, 0x32, 0x0B, 0xEB, 0x05].contains (0x06 : Byte) = false ∧
    (0x1FFFFC : BitVec 32).toNat % 4 = 0 ∧ (zeros 4).length = 4 ∧ (zeros 5).length % 4 ≠ 0 ∧ (7 : Nat) % 4 ≠ 0 ∧
    (0x1FFFFC : BitVec 32).toNat < 0x200000 ∧ 0x80000000 ≤ (0x80000000 : BitVec 32).toNat ∧
    0x200000 ≤ (0x200000 : BitVec 32).toNat ∧ (0x7FFFFFFC : BitVec 32).toNat < 0x80000000 ∧
    qspiEnd (0x7FFFFFFC : BitVec 32).toNat ≤ (0x7FFFFFFC : BitVec 32).toNat + 4 ∧
    (0x200000 : BitVec 32).toNat + 4 < qspiEnd (0x200000 : BitVec 32).toNat := by
  refine ⟨?_, ?_, ⟨?_, ?_⟩, ?_, ?_, ?_, ?_, ?_, ?_, ?_, ?_, ?_, ?_, ?_, ?_, ?_⟩ <;> decide +kernel

theorem test_meets_DramWindow_words : exec (.qspiTransaction 0x32 0x200000 (zeros 4) 0) up = .next up := rfl

/-- A device at the end of a boot of a kind. -/
def bootOf (k : ResetKind) : State := { up with pwr.booting := some k, mbx.ready := false }
/-- A byte lane that passes at every position of both sweeps. -/
def goodSweep : LaneSweep := ⟨List.replicate 16 true, List.replicate 16 true⟩
/-- A report of a boot of the fitted DRAM, both byte lanes of every channel with an eye of 16 positions. -/
def report : BootReport where
  fail := none
  rcal := 20000
  codes := List.replicate 6 []
  modes := List.replicate 16 [⟨true, 8, 1⟩]
  channels := List.replicate 16 ⟨[goodSweep, goodSweep], []⟩
  refq := true
  ppr := []
  lacks := []
  flash := true
  ms := 300
  epGen := 3
  epWidth := 4

theorem test_meets_BootAndResetPins :
    (State.reset.pwr.powered = false ∧ railLow 6 ≤ railHigh 6 ∧ railLow 7 ≤ railHigh 7 ∧ railHigh 7 < 2 ^ 16) ∧
    (up.pwr.resetNLow = false ∧ up.pwr.powered = true ∧ up.br.hold = none ∧ up.pwr.booting = none) ∧
    (let s := { up with br.hold := some .overVoltage }
     s.pwr.resetNLow = false ∧ s.pwr.powered = true ∧ s.br.hold = some .overVoltage ∧
      (List.range 8).all (fun k => railOk s k) = true) ∧
    { up with br.hold := some .trip }.br.hold = some .trip := by
  refine ⟨⟨?_, ?_, ?_, ?_⟩, ⟨?_, ?_, ?_, ?_⟩, ⟨?_, ?_, ?_, ?_⟩, ?_⟩ <;> decide +kernel

theorem test_trains : trainFault State.reset.fuse report = none ∧
    trainFault State.reset.fuse { report with channels := [] } = some (3, 0, 0) := ⟨by decide +kernel, by decide +kernel⟩

/-- A boot record that names slot 0, with its checksum. -/
def goodRecord : List Byte × Nat := (bootRecordZero.1, sectorCrc bootRecordZero.1)
/-- A device at the end of a boot of a kind, with that record in both copies, and firmware slots as told. -/
def bootFrom (k : ResetKind) (l : List FwSlot) : State := { bootOf k with
  pwr := { (bootOf k).pwr with record := [goodRecord, goodRecord], slots := l } }

theorem test_boot_slot (k : ResetKind) (l : List FwSlot) :
    bootSlotOf (bootFrom k l).pwr = [0, 1].find? fun n => (l.getD n {}).valid := by
  have h : recordValid goodRecord = true := by
    simp only [recordValid, goodRecord, beq_self_eq_true, Bool.and_true]; decide +kernel
  have e : bootSlotOf (bootFrom k l).pwr =
      (if recordValid goodRecord && (!recordValid goodRecord || fld goodRecord.1 8 8 ≤ fld goodRecord.1 8 8)
        then some goodRecord else if recordValid goodRecord then some goodRecord else none).bind fun c =>
          [fld c.1 0x10 1, 1 - fld c.1 0x10 1].find? fun n => (l.getD n {}).valid := rfl
  rw [e, h]; rfl

theorem test_meets_BootAndResetPins_boot :
    (let s := bootFrom .cold [{ valid := true }, {}]
     s.pwr.booting = some .cold ∧ mayBoot s .cold = true ∧ bootSlotOf s.pwr = some 0 ∧
      bootStop s true { report with fail := some ⟨8, 6, 15, 1⟩ } = some (8, 6, 15, 1)) ∧
    (let s := bootFrom .soft [{}, { valid := true }]
     s.pwr.booting = some .soft ∧ mayBoot s .soft = true ∧ bootSlotOf s.pwr = some 1 ∧
      bootStop s false report = none) ∧
    (let s := bootFrom .soft [{}, {}]
     s.pwr.booting = some .soft ∧ mayBoot s .soft = true ∧ bootSlotOf s.pwr = none ∧
      bootStop s false report = none) := by
  refine ⟨⟨?_, ?_, (test_boot_slot _ _).trans ?_, ?_⟩, ⟨?_, ?_, (test_boot_slot _ _).trans ?_, ?_⟩,
    ⟨?_, ?_, (test_boot_slot _ _).trans ?_, ?_⟩⟩ <;> decide +kernel

/-- The root PLL in holdover. -/
def heldOver : State := { up with clk := { up.clk with rootLock := false, holdover := true, altOk := true, refSel := true } }

theorem test_meets_ReferenceClockEvents :
    (let s := { up with clk.altOk := true }
     s.clk.rootLock = true ∧ s.clk.refSel = false ∧ s.clk.altOk = true) ∧
    (heldOver.clk.holdover = true ∧ heldOver.clk.stopping = false ∧ refOk heldOver heldOver.clk.refSel = true ∧
      heldOver.clk.refSel ≠ heldOver.clk.lostSel) ∧
    (let s := { up with br.hold := some .refStop }
     s.pwr.powered = true ∧ s.pwr.booting = none ∧ s.br.hold = some .refStop) ∧
    (let s := { heldOver with clk := { heldOver.clk with refclkOk := false, altOk := false } }
     s.clk.stopping = false ∧ s.clk.holdover = true ∧ s.clk.refclkOk = false ∧ s.clk.altOk = false ∧ s.br.hold = none ∧ s.br.ploss = false) ∧
    { up with clk.stopping := true }.clk.stopping = true := by
  refine ⟨⟨?_, ?_, ?_⟩, ⟨?_, ?_, ?_, ?_⟩, ⟨?_, ?_, ?_⟩, ⟨?_, ?_, ?_, ?_, ?_, ?_⟩, ?_⟩ <;> decide +kernel

theorem test_meets_RailAndSensorSupplyEvents :
    (up.pwr.powered = true ∧ monitorsArmed up = true ∧ (up.br.rails.getD 5 {}).low = false ∧
      (up.br.rails.getD 0 {}).high = false ∧ up.br.hold = none ∧ heldAtStart up = false ∧ up.pwr.booting = none) ∧
    (List.range 8).all (fun k => (BitVec.ofNat 16 (railLow k - 1)).toNat < railLow k &&
      railHigh k < (BitVec.ofNat 16 (railHigh k + 1)).toNat) = true ∧
    railOk { up with br.rails := up.br.rails.set 5 { low := true } } 5 = false ∧
    seqAt (setSpwr up 3 true .waitPg) 3 .waitPg = true ∧ seqAt (setSpwr up 0 true .settle) 0 .settle = true ∧
    seqAt (setSpwr up 0 false .stagger) 0 .stagger = true ∧
    (let s := live id
     (sensPolicy s 0).pgUse = true ∧ spwrOn s 0 = true ∧ spwrSeq s 0 ≠ .waitPg ∧
      (sensorOf (removeNoted s 0) 0).powerReq = none) := by
  refine ⟨⟨?_, ?_, ?_, ?_, ?_, ?_, ?_⟩, ?_, ?_, ?_, ?_, ?_, ⟨?_, ?_, ?_, ?_⟩⟩ <;> decide +kernel

/-- In the power-loss response. -/
def losing : State := { up with br.ploss := true }

theorem test_meets_PowerLossEvents :
    (up.pwr.powered = true ∧ monitorsArmed up = true ∧ up.br.hold = none ∧ heldAtStart up = false) ∧
    (losing.br.ploss = true ∧ losing.br.drained = false ∧ losing.br.trip = false ∧ losing.br.pointPassed = false ∧
      (List.range 6).all (fun k => !(losing.br.rails.getD k {}).low) = true) ∧
    (let s := { losing with br := { losing.br with drained := true, pointPassed := true } }
     s.br.ploss = true ∧ s.br.trip = false ∧ s.br.drained = true ∧ s.br.pointPassed = true ∧ s.br.wdDeferred = false) ∧
    (let s := { up with br.hold := some .ploss }
     s.pwr.powered = true ∧ s.br.ploss = false ∧ suppliesOk s = true ∧ s.br.hold = some .ploss) := by
  refine ⟨⟨?_, ?_, ?_, ?_⟩, ⟨?_, ?_, ?_, ?_, ?_⟩, ⟨?_, ?_, ?_, ?_, ?_⟩, ⟨?_, ?_, ?_, ?_⟩⟩ <;> decide +kernel

theorem test_meets_BedrockFaults :
    (up.br.hold = none ∧ monitorsArmed up = true ∧ (plossStart up true 0xFF 0).br.drained = false) ∧
    (let s := { up with br.hold := some .refStop }
     s.br.hold.isSome = true ∧ monitorsArmed s = true) ∧
    (let s := bootOf .resetN
     s.pwr.powered = true ∧ s.br.lsRestart = false ∧ s.pwr.failed = false ∧ s.br.hold = none ∧ s.br.ploss = false ∧
      s.pwr.booting = some .resetN ∧ mayBoot s .resetN = true) ∧
    (up.pwr.powered = true ∧ up.br.hold ≠ some .lockstep ∧ up.br.lsAt = none) ∧
    (let s := { up with br.lsAt := some 0, time.c := 1228799999 }
     s.br.lsAt = some 0 ∧ (s.time.c.toNat : Int) - 0 < 1228800000) ∧
    (let s := { up with br.lsRestart := true }
     s.br.lsRestart = true ∧ s.br.held = []) ∧
    (up.pwr.powered = true ∧ up.br.lsRestart = false ∧ up.pwr.failed = false ∧ up.br.hold = none ∧
      up.pwr.booting ≠ some .cold ∧ up.pwr.booting ≠ some .resetN ∧ up.br.ploss = false ∧ losing.br.ploss = true) ∧
    (up.br.lsRestart = false ∧ (coreLogical up 3).isSome = true) ∧
    { up with br.flintGate := true }.br.flintGate = true ∧
    (up.pwr.booting = none ∧ up.br.flintGate = false ∧ flintAllowed up = true) := by
  refine ⟨⟨?_, ?_, ?_⟩, ⟨?_, ?_⟩, ⟨?_, ?_, ?_, ?_, ?_, ?_, ?_⟩, ⟨?_, ?_, ?_⟩, ⟨?_, ?_⟩, ⟨?_, ?_⟩,
    ⟨?_, ?_, ?_, ?_, ?_, ?_, ?_, ?_⟩, ⟨?_, ?_⟩, ?_, ⟨?_, ?_, ?_⟩⟩ <;> decide +kernel

/-- GPIO 31 selects both edges. -/
def edges : State := { up with pins.edge := up.pins.edge.set 31 3 }

theorem test_meets_PinsPowerAndFirmwareEvents :
    (edges.pwr.powered = true ∧ ((List.range 32).any fun k => edgeSelected edges k (pinLevel edges k)
      (pinLevel { edges with pins.board := 0x80000000 } k) && !edgeMerges edges k) = true) ∧
    ((List.range 32).any fun k => edgeSelected edges k (pinLevel edges k)
      (pinLevel { edges with pins.board := 0x7FFFFFFF } k) && !edgeMerges edges k) = false ∧
    (let s := { up with pwr := { up.pwr with wakeGpio := 31, tWake := 1, state := .standby } }
     s.pwr.wakeGpio < 32 ∧ s.pwr.move = none ∧ s.pwr.state ≠ .run ∧ s.pwr.tWake ≠ 0) ∧
    (let s := { up with pwr.move := some ⟨true, .hibernate, 0⟩ }
     s.pwr.move = some ⟨true, .hibernate, 0⟩ ∧ s.mbx.arrival = [] ∧ mayRest s true = true) ∧
    { up with pwr.move := some ⟨false, .run, 1⟩ }.pwr.move = some ⟨false, .run, 1⟩ ∧
    { up with pwr.staging := some (1, {}) }.pwr.staging = some (1, {}) ∧
    (let s := { up with pwr.activateSlot := some 39, pwr.stagedSlot := some 1, mbx.arrival := [39] }
     s.pwr.activateSlot = some 39 ∧ s.pwr.stagedSlot = some 1 ∧ oldDone s 39 = true ∧
      s.pwr.activateSlot.isSome = true) := by
  refine ⟨⟨?_, ?_⟩, ?_, ⟨?_, ?_, ?_, ?_⟩, ⟨?_, ?_, ?_⟩, ?_, ?_, ⟨?_, ?_, ?_, ?_⟩⟩ <;> decide +kernel

/-! ## What the statements assume: imaging, codec, recording and the Media Gate -/

/-- A closed frame of the small camera in slot 0. -/
def aFrame : IngestFrame where
  seq := 0
  num := 0
  cfg := smallCfg
  slot := some 0
  gen := 0
  params := {}
  banks := List.replicate 6 (some 0)
  run := 0
  col := []
  fs := 0
  deadline := -1
  cls := 1
  closed := true

/-- The camera with a frame of its own still arriving: line 0 only is missing nothing. -/
def arriving : IngestFrame := { aFrame with closed := false, got := List.replicate 3 (2 ^ 32 - 1) }
/-- The same camera on a link of the device's own kind, its frame numbered 5. -/
def linkCam : State := updSensor (live fun x => { x with frames := [{ arriving with num := 5, cfg := { smallCfg with iface := 0 } }] }) 0
  fun x => { x with cfg := some { smallCfg with iface := 0 } }
/-- A link packet of a type and a frame number, with no data. -/
def linkPacket (t n : Nat) : List Byte :=
  let h := leBytes 1 t ++ leBytes 1 4 ++ leBytes 2 0 ++ leBytes 4 n ++ leBytes 4 0
  h ++ leBytes 4 (crc32c h) ++ leBytes 4 (crc32c [])

theorem test_meets_IngestEvents :
    (let s := live fun x => { x with frames := [arriving] }
     (sensorOf s 0).cfg = some smallCfg ∧ (sensorOf s 0).streaming = true ∧ (sensorOf s 0).linkUp = true ∧
      parsePacket smallCfg (.csi .good 0 0 1 [] true) = { kind := 0, exps := [0], num := some 1 } ∧
      (sensorOf s 0).stopping = false ∧ s.clk.stopping = false ∧
      parsePacket smallCfg (.csi .good 0 0x2C 0 [7] true) = { kind := 2, exps := [0], samples := [7] } ∧
      pktFrame s 0 { kind := 2, exps := [0], samples := [7] } false = some arriving ∧
      parsePacket smallCfg (.csi .good 0 0x12 0 [7] true) = { kind := 3, exps := [0], bytes := [7] } ∧
      pktFrame s 0 { kind := 3, exps := [0], bytes := [7] } false = some arriving ∧
      arriving.ended.getD 0 false = false) ∧
    (let k := parsePacket { smallCfg with iface := 0 } (.link (linkPacket 2 5))
     k.kind = 1 ∧ k.crcBad = false ∧ k.corrected = false ∧ (pktFrame linkCam 0 k true).isSome = true ∧
      (sensorOf linkCam 0).cfg = some { smallCfg with iface := 0 }) ∧
    (let s := live fun x => { x with frames := [arriving] }
     openIngest s 0 = some arriving ∧ arriving.drop = none ∧ arriving.first = false ∧ closeMarks arriving = 0 ∧
      arriving.marks = 0) ∧
    (let s := cam fun x => { x with linkUp := false }
     (sensorOf s 0).cfg.isSome = true ∧ (sensorOf s 0).linkUp = false) ∧
    openIngest (live id) 0 = none ∧
    (let s := live fun x => { x with frames := [{ aFrame with complete := true }] }
     ((sensorOf s 0).frames.find? fun f => f.slot == some 0 && mayRelease s 0 f) =
      some { aFrame with complete := true }) := by
  refine ⟨⟨?_, ?_, ?_, ?_, ?_, ?_, ?_, ?_, ?_, ?_, ?_⟩, ⟨?_, ?_, ?_, ?_, ?_⟩, ⟨?_, ?_, ?_, ?_, ?_⟩, ⟨?_, ?_⟩, ?_, ?_⟩ <;>
    decide +kernel

/-- A transfer of two bytes out and two in. -/
def aXfer : BusXfer := ⟨0, 5, 0, 0x10, [1, 2], 2⟩

theorem test_meets_BusEvents :
    (let s := { up with img.buses := up.img.buses.set 5 [.host 39 aXfer] }
     busOf s 5 = .host 39 aXfer :: [] ∧ ([7, 8] : List Byte).length = aXfer.rdLen) ∧
    busOf { up with img.buses := up.img.buses.set 5 [.deferred 0 aXfer] } 5 = .deferred 0 aXfer :: [] ∧
    busOf { up with img.buses := up.img.buses.set 5 [.poll 3 1 aXfer] } 5 = .poll 3 1 aXfer :: [] ∧
    (let s := updSensor up 3 fun x => { x with polls := [none, some ⟨2, 0, aXfer⟩] }
     (sensorOf s 3).polls.getD 1 none = some ⟨2, 0, aXfer⟩ ∧ pollQueued s 3 1 = false ∧
      pollQueued { s with img.buses := s.img.buses.set 0 [.poll 3 1 aXfer, .poll 3 1 aXfer] } 3 1 = true) ∧
    (sensorOf (updSensor up 3 fun x => { x with polls := [none, some ⟨1, 1000, aXfer⟩] }) 3).polls.getD 1 none =
      some ⟨1, 1000, aXfer⟩ := by
  refine ⟨⟨?_, ?_⟩, ?_, ?_, ⟨?_, ?_, ?_⟩, ?_⟩ <;> decide +kernel

/-- The camera with a frame to process. -/
def framed : State := live fun x => { x with frames := [aFrame] }
/-- An engine at work on it. -/
def banded : State := { framed with img.sched.engines := up.img.sched.engines.set 8 { running := some ⟨0, 0, 0, 0, 0⟩ } }
/-- A parameter set that waits for its banks. -/
def waiting : PendingSet := { params := {}, banks := List.replicate 6 none }
/-- A capture at its final pass. -/
def aCapture : Capture := ⟨0, 1, 15, 0, 0, 0, 0, 0, 0, 0, 0, 0, true, []⟩
/-- The camera at the final pass of a capture into map 15. -/
def capturing : State := { live fun x => { x with capture := some aCapture } with
  img.maps := List.replicate 15 none ++ [some ⟨64, 32, 0x20000000⟩] }

/-- A placement of rendition 1. -/
def aPlace : Placement := ⟨0, 0, 64, 32, 64, 32, none⟩
/-- A scene-linear buffer that rendition 1 may take. -/
def aBuf : SlBuf := { fill := 1, seq := 3, state := 1, params := { place := [none, some aPlace] } }
/-- Rendition 1 bound to the camera, whose scene-linear frames are on. -/
def bound (f : Rendition → Rendition) : State :=
  let s := live fun x => { x with slEff := some ⟨0, 2, 0x20000000⟩, slBufs := [aBuf] }
  updRnd s 1 fun x => f { x with sensor := some 0 }
/-- Rendition 1 at work on that buffer. -/
def aTaken : Taken := ⟨0, 0, aBuf, ⟨0, 2, 0x20000000⟩, smallCfg, 0⟩
/-- The last engine fails with no spare left. -/
def noSpare : State := { banded with img.sched.engines := banded.img.sched.engines.mapIdx fun i e =>
  if i < 8 then { e with failed := true } else e, img.sched.logical := banded.img.sched.logical.set 0 8 }

theorem test_meets_SchedulerEvents :
    (freeEngine framed 7 = some 7 ∧ nextBand framed = some ⟨0, 0, 0, 0, 0⟩ ∧ 0 < schedCredit framed ∧
      ingestOf framed 0 0 = some aFrame) ∧
    ((pendingFrames framed).find? fun f => f.1 == 0 && decide (f.2.deadline < viewSNow framed)) = some (0, aFrame) ∧
    ((banded.img.sched.engines.getD 8 {}).running = some ⟨0, 0, 0, 0, 0⟩ ∧ ingestOf banded 0 0 = some aFrame ∧
      aFrame.drop = none ∧ ({ aFrame with drop := some 1 } : IngestFrame).drop.isSome = true) ∧
    ((framed.img.sched.engines.getD 7 {}).failed = false ∧ (framed.img.sched.engines.getD 7 {}).running = none ∧
      7 ≤ stripeActive framed.fuse ∧
      (let a := settleCredit { framed with spare.flashOk := true }
       let t := { a with img.sched.engines := modAt a.img.sched.engines 7 fun _ => { failed := true, running := none } }
       engineLogical a 7 = some 7 ∧ spareEngine t = some 8)) ∧
    ((noSpare.img.sched.engines.getD 8 {}).failed = false ∧
      (noSpare.img.sched.engines.getD 8 {}).running = some ⟨0, 0, 0, 0, 0⟩ ∧ 8 ≤ stripeActive noSpare.fuse ∧
      (let a := settleCredit { noSpare with spare.flashOk := true }
       let t := { a with img.sched.engines := modAt a.img.sched.engines 8 fun _ => { failed := true, running := none } }
       engineLogical a 8 = some 0 ∧ spareEngine t = none ∧ spareEngine a = none)) ∧
    (let s := live fun x => { x with pendingSet := some waiting, banks := List.replicate 6 (some 0) }
     bankWaiter s 0 = some 0 ∧ (sensorOf s 0).pendingSet = some waiting ∧ bankFree s 0 1 = true ∧
      lacksActive s 0 0 = false) ∧
    (let s := live fun x => { x with banks := List.replicate 6 none }
     bankWaiter s 0 = some 0 ∧ bankFree s 0 1 = true ∧ lacksActive s 0 0 = true) ∧
    ((sensorOf capturing 0).capture = some aCapture ∧ mapOf capturing aCapture.handle = some ⟨64, 32, 0x20000000⟩ ∧
      aCapture.finalPass = true) ∧
    ((rndOf (bound id) 1).sensor = some 0 ∧ newestOf (eligible (bound id) 1) = some aBuf ∧ (rndOf (bound id) 1).taken = none ∧
      (sensorOf (bound id) 0).slEff = some ⟨0, 2, 0x20000000⟩ ∧ (sensorOf (bound id) 0).cfg = some smallCfg ∧
      aBuf.params.place.getD 1 none = some aPlace) ∧
    (let s := bound fun x => { x with taken := some aTaken }
     (rndOf s 1).taken = some aTaken ∧ linesStarted s 1 aPlace = true) := by
  refine ⟨⟨?_, ?_, ?_, ?_⟩, ?_, ⟨?_, ?_, ?_, ?_⟩, ⟨?_, ?_, ?_, ?_, ?_⟩, ⟨?_, ?_, ?_, ?_, ?_, ?_⟩, ⟨?_, ?_, ?_, ?_⟩,
    ⟨?_, ?_, ?_⟩, ⟨?_, ?_, ?_⟩, ⟨?_, ?_, ?_, ?_, ?_, ?_⟩, ⟨?_, ?_⟩⟩ <;> decide +kernel

theorem test_meets_SensConfigSchedules :
    ((sensorOf (mbxRun sensConfigCard 0 (given 0x0301 (params 0x24 [(1, 1, 1), (2, 1, 1), (3, 1, 12), (4, 2, 64),
      (6, 2, 32), (8, 4, 30), (0xC, 2, 1), (0xE, 1, 2), (0x13, 1, 1), (0x14, 1, 1), (0x16, 2, 100), (0x19, 1, 0x2C),
      (0x1E, 2, 2)]) up)) 0).cfg.map fun c => c.width) = some 64 := by decide +kernel

/-- Physical lane 4 at some work. -/
def laneAt (w : LaneWork) : State := { up with codec.lanes := up.codec.lanes.set 4 { running := some w } }
/-- A frame of a codec stream. -/
def coded : CodecFrame := { cfg := ⟨0, 0, 0, 0, false, false, 64, 32, 256, 0, 63, List.replicate 16 1, 0, 0, 1048576⟩, sensor := 0, seq := 0, num := 0, fs := 0, gen := 0, width := 64, height := 32
                            addr := 0, stride := 0, deadline := 0 }
/-- Job 15 decodes on lane 4. -/
def decoding : State := { laneAt (.job 15 0 false) with
  codec.jobs := List.replicate 15 none ++ [some { spec := .decode 0x28 0 0 0 0 0 0 0 0, order := 0 }] }

/-- Stream 7 with a frame of RND0 to code, in a buffer that is complete. -/
def coding : State := { up with
  codec.streams := up.codec.streams.set 7 { frames := [{ coded with cfg := { coded.cfg with src := 1 } }] }
  img.rnds := up.img.rnds.set 0 { bufs := [{ state := 1 }] } }

theorem test_meets_CodecEvents :
    lanePhys up 3 = some 3 ∧ laneFree up 3 = true ∧ up.codec.returned = [] ∧ bestStreamSlab up = none ∧
    (bestStreamSlab coding).isSome = true ∧
    (let s := { decoding with codec.returned := [.job 15 0 true] }
     s.codec.returned = .job 15 0 true :: [] ∧ (jobOf s 15).isSome = true ∧ laneFree s 3 = true) ∧
    ((lane (laneAt (.stream 0 0 0 false false)) 4).running = some (.stream 0 0 0 false false) ∧
      isDecodeWork (laneAt (.stream 0 0 0 false false)) (.stream 0 0 0 false false) = false ∧
      isFallback (.stream 0 0 0 false false) = false ∧ isFallback (.stream 0 0 0 false true) = true ∧
      (lane (laneAt (.stream 0 0 0 false true)) 4).running = some (.stream 0 0 0 false true)) ∧
    (codecStream { up with codec.streams := up.codec.streams.set 7 { frames := [coded] } } 7).frames = coded :: [] ∧
    ((lane decoding 4).running = some (.job 15 0 false) ∧ isDecodeWork decoding (.job 15 0 false) = true) := by
  refine ⟨?_, ?_, ?_, ?_, ?_, ⟨?_, ?_, ?_⟩, ⟨?_, ?_, ?_, ?_, ?_⟩, ?_, ⟨?_, ?_⟩⟩ <;> decide +kernel

/-- A clip with no item. -/
def aClip : Clip := ⟨0, 1, 0, 0, 0, 0, 0, 0, 0, 0xFF, 0, [0], 0, [], 0, 0, 0, [], 0, 0, true, false⟩
/-- Channel 7 stops at the present. -/
def stoppingChan : State := { mounted with recs.chans := modAt mounted.recs.chans 7 fun c =>
  { c with kind := 4, state := 3, u := some 0, clip := some aClip } }
/-- A write of two blocks of 512 bytes, one admitted. -/
def aWrite : GWrite := { id := 0, who := .host 1 0 1, port := 0, blk := 512, targets := [(2000, 2)], data := zeros 1024
                         admitted := 1 }

/-- A marker item that channel 7 holds. -/
def aMarker : RecItem := ⟨0, 0, 0, 0, []⟩
/-- Channel 7 with a checkpoint to write. -/
def toCheck : State := { mounted with recs.chans := modAt mounted.recs.chans 7 fun c =>
  { c with kind := 4, state := 2, clip := some { aClip with pending := 1 } } }
/-- An atomic unit of two blocks. -/
def aUnit : GWrite := { aWrite with admitted := 0, journal := true }

theorem test_meets_RecordingAndDriveEvents :
    lastItemDurable stoppingChan 7 = true ∧
    (let s := { mounted with recs.chans := modAt mounted.recs.chans 7 fun c => { c with held := some aMarker } }
     (recChan s 7).held = some aMarker ∧ engineFits s 4096 = true ∧ (recChan s 7).waiting = []) ∧
    ((recChan toCheck 7).clip = some { aClip with pending := 1 } ∧ ({ aClip with pending := 1 } : Clip).pending ≠ 0 ∧
      entersReserve toCheck { aClip with pending := 1 } 4096 = false ∧
      (clipGrow toCheck { aClip with pending := 1 } 4096).isSome = true) ∧
    (let s := { portUp with gate.writes := [aUnit] }
     s.gate.stopped = none ∧ (s.gate.writes.find? fun w => w.port == 0 && decide (w.admitted < w.blocks)) = some aUnit ∧
      mayAdmit s aUnit = true ∧ aUnit.journal = true ∧ aUnit.jrec = none) ∧
    (let s := { portUp with gate.writes := [aWrite] }
     (s.gate.writes.find? fun w => w.port == 0 && decide (w.admitted < w.blocks)) = some aWrite ∧
      mayAdmit s aWrite = true ∧ aWrite.journal = false) ∧
    (let w := { aUnit with admitted := 2, jrec := some (1, 0, false) }
     let s := { portUp with gate.writes := [w] }
     ((rootSend s 0).gate.writes.find? fun w => w.port == 0 && (w.jrec.any fun j => !j.2.2)) = some w) ∧
    (let w := { aUnit with admitted := 2, written := 2, jrec := some (1, 0, true) }
     (((({ portUp with gate.writes := [w] } : State).gate.writes.filter fun w => w.port == 0 && w.jrec.isSome).takeWhile
       GWrite.durable).getLast?) = some w) ∧
    (let s := { portUp with gate.writes := [aWrite] }
     (s.gate.writes.filter fun w => w.port == 0)[0]? = some aWrite ∧ mayComplete s aWrite = true) ∧
    ((gatePort portUp 0).state = 1 ∨ (gatePort portUp 0).state = 3) := by
  refine ⟨?_, ⟨?_, ?_, ?_⟩, ⟨?_, ?_, ?_, ?_⟩, ⟨?_, ?_, ?_, ?_, ?_⟩, ⟨?_, ?_, ?_⟩, ?_, ?_, ⟨?_, ?_⟩, ?_⟩ <;> decide +kernel

/-- Command 7 of namespace 1. -/
def head1 : NvmeHead := ⟨7, 1, 0, 0, false⟩
/-- A ready controller with a command in the admin queue and in I/O queue 64, on completion queue 64. -/
def nvmeUp : State := { updGatePort portUp 0 fun p => { p with clipValid := true } with
  gate.nvme := { enabled := true, state := 1
                 sqs := [some { cq := 0, size := 2, tail := 1 }] ++ List.replicate 63 none ++ [some { cq := 64, size := 2, tail := 1 }]
                 cqs := [some { size := 2 }] ++ List.replicate 63 none ++ [some { size := 2 }] } }
/-- The controller with one command under way. -/
def nvmeBusy (w : NvmeWork) : State := { nvmeUp with gate.nvme.outstanding := [⟨64, 0xFFFF, w⟩] }

theorem test_fetched : Fetched nvmeUp 0 head1 ∧ Fetched nvmeUp 64 head1 ∧ Fetched nvmeUp 64 ⟨7, 0xFFFFFFFF, 0, 0, false⟩ ∧
    Fetched (nvmeBusy (.write 1 false)) 0 head1 := by
  refine ⟨⟨?_, ?_, ?_, ?_, ?_⟩, ⟨?_, ?_, ?_, ?_, ?_⟩, ⟨?_, ?_, ?_, ?_, ?_⟩, ⟨?_, ?_, ?_, ?_, ?_⟩⟩ <;> decide +kernel

theorem test_meets_NvmeAdminCommands :
    (up.gate.nvme.enabled = false ∧ (255 : BitVec 12).toNat ≤ 255 ∧ 255 < (256 : BitVec 12).toNat) ∧
    nvmeUp.gate.nvme.state = 1 ∧
    ((1 : BitVec 16) ≠ 0 ∧ (63 : BitVec 16).toNat ≤ 64 ∧ nvmeUp.gate.nvme.sqs.getD 63 none = none ∧
      (1023 : BitVec 16).toNat ≤ 1023 ∧ (nvmeUp.gate.nvme.cqs.getD 64 none).isSome = true ∧
      nvmeUp.gate.nvme.cqs.getD 63 none = none ∧ (64 : BitVec 16).toNat ≤ 64) ∧
    ((headMoved nvmeUp 0).gate.nvme.sqs.getD 64 none).isSome = true ∧
    (let s := { nvmeUp with gate.nvme.sqs := nvmeUp.gate.nvme.sqs.set 64 none }
     (s.gate.nvme.cqs.getD 64 none).isSome = true ∧
      (headMoved s 0).gate.nvme.sqs.any (fun o => o.any fun x => x.cq == 64) = false) ∧
    (abortTarget (nvmeBusy (.write 1 false)) 64 0xFFFF = some ⟨64, 0xFFFF, .write 1 false⟩ ∧
      abortTarget (nvmeBusy (.flush [])) 64 0xFFFF = some ⟨64, 0xFFFF, .flush []⟩ ∧ abortTarget nvmeUp 64 0xFFFF = none) ∧
    ({ head1 with unknown := true }.unknown = true ∧ mayFetch nvmeUp 0 = true ∧ mayFetch nvmeUp 64 = true) ∧ (featureIds.contains 0x0B = true ∧ (0x0B : Byte) ≠ 2 ∧ (0x0B : Byte) ≠ 6 ∧
      (0x0B : Byte) ≠ 7) ∧
    (nvmeUp.gate.nvme.noticeHeld = false ∧ (nvmeUp.gate.nvme.outstanding.filter fun c => c.work == .aer).length < 4) := by
  refine ⟨⟨?_, ?_, ?_⟩, ?_, ⟨?_, ?_, ?_, ?_, ?_, ?_, ?_⟩, ?_, ⟨?_, ?_⟩, ⟨?_, ?_, ?_⟩, ⟨?_, ?_, ?_⟩,
    ⟨?_, ?_, ?_, ?_⟩, ⟨?_, ?_⟩⟩ <;> decide +kernel

theorem test_writes_whole (d : List Byte) :
    (d.length = 4096 → WritesWhole nvmeUp 64 head1 65535 1 true d) ∧
    (d.length = 262144 → WritesWhole nvmeUp 64 head1 0 64 false d) := by
  refine ⟨fun h => ⟨?_, ?_, ?_, ?_, ?_, ?_, h.trans ?_, fun _ => ?_⟩,
    fun h => ⟨?_, ?_, ?_, ?_, ?_, ?_, h.trans ?_, fun _ => ?_⟩⟩ <;> decide +kernel

/-- A session's namespace 9 on a flow with credits. -/
def remoteUp : State := { nvmeUp with gate.sessions := [{ server := false, nsid := 9, flow := 1, partner := 1, remoteNs := 1
                                                          credits := 4, active := true, nsze := 65536 }] }

theorem test_meets_NvmeIoCommands :
    (head1.nsid ≠ 0xFFFFFFFF ∧ head1.nsid.toNat ≤ 8 ∧ (64 : Fin 65) ≠ 0 ∧ nsActive (headMoved nvmeUp 64) 1 = true) ∧
    (zeros 262144).length = 262144 ∧ ((63 : BitVec 16).toNat < 64 ∧ 64 ≤ (64 : BitVec 16).toNat) ∧
    rangeStatus (headMoved nvmeUp 64) 1 0 64 false = none ∧
    (Fetched remoteUp 64 ⟨7, 9, 0, 0, false⟩ ∧ nsActive (headMoved remoteUp 64) 9 = true ∧
      (sessionOf (headMoved remoteUp 64) 9).isSome = true ∧ rangeStatus (headMoved remoteUp 64) 9 0 64 false = none) := by
  refine ⟨⟨?_, ?_, ?_, ?_⟩, List.length_replicate, ⟨?_, ?_⟩, ?_, ⟨⟨?_, ?_, ?_, ?_, ?_⟩, ?_, ?_, ?_⟩⟩ <;> decide +kernel

/-! ## What the statements assume: lanes, ring, flows and time -/

/-- Port 0 bound to lane 0, with the pair's spare. -/
def sparing (l : LaneLink) : State := { withLane 0 (fun x => { x with pers := 1, st := 3 }) up with
  lane.links := [some l] ++ List.replicate 7 none }
/-- A formed link of lane 0 with a spare free. -/
def aLink : LaneLink := { lanes := [0], spare := true, formed := true }
/-- The spare of pair 5 trains for port 0. -/
def joining : State := { withLane 69 (fun x => { x with st := 2 }) up with
  lane.pairs := up.lane.pairs.set 5 { lane := 69, user := some 0 } }

theorem test_meets_LaneEvents :
    (let s := withLane 69 (fun x => { x with st := 2 }) up
     (laneOf s 69).st = 2 ∧ lanePort s 69 = none) ∧
    (let s := { withLane 0 (fun x => { x with st := 2 }) linked with ring := up.ring }
     (laneOf s 0).st = 2 ∧ (lanePort s 0).isSome = true) ∧
    (let s := { withLane 0 (fun x => { x with pers := 1 }) up with lane.quads := up.lane.quads.set 0 { refA := 3 } }
     (laneAddrs s.fuse).any (fun a => laneFedBy s a 3) = true) ∧
    (let s := withLane 47 (fun x => { x with pers := 2, st := 3 }) up
     (laneOf s 47).pers = 2 ∧ (laneOf s 47).st = 3) ∧
    (let s := sparing aLink
     ((laneOf s 0).pers = 1 ∨ (laneOf s 0).pers = 3) ∧ (laneOf s 0).st ≠ 5 ∧ (laneOf s 0).st ≠ 6 ∧
      markerGood (zeros 8) = false ∧ markerGood (markerBytes 3 1 0xFFFF 0xF 0xF) = true ∧
      lanePort (updSerial (withFlash s true) 0 fun x => { x with stuffErrors := sat32 x.stuffErrors 1 }) 0 = some 0 ∧
      lanePort (updSerial (withFlash up true) 0 fun x => { x with stuffErrors := sat32 x.stuffErrors 1 }) 0 = none) ∧
    ((pairSpare joining 5).user = some 0 ∧ (laneOf joining (pairSpare joining 5).lane).st = 2) ∧
    (let s := { sparing aLink with lane.lanes := modAt (sparing aLink).lane.lanes 48 fun x => { x with st := 7 } }
     lanePort s 0 = some 0 ∧ linkOf s 0 = some aLink ∧ aLink.lanes.findIdx? (· == 0) = some 0 ∧
      aLink.spareLane = none ∧ aLink.sparePos = none ∧ (laneOf s 0).st = 3 ∧ spareFree s (pairOf 0) = true ∧
      (laneOf s (pairSpare s (pairOf 0)).lane).st = 7) := by
  refine ⟨⟨?_, ?_⟩, ⟨?_, ?_⟩, ?_, ⟨?_, ?_⟩, ⟨?_, ?_, ?_, ?_, ?_, ?_, ?_⟩, ⟨?_, ?_⟩, ⟨?_, ?_, ?_, ?_, ?_, ?_, ?_, ?_⟩⟩ <;>
    decide +kernel

/-- A loop of lane 69 or another. -/
def aLoop (b : Bool) : LaneLoop := ⟨0, 1, b, 5, true⟩
/-- Port 0 bound to lane 0, which is in a state of its own, and port 0's link formed or not. -/
def laneBound (pers st : Nat) (g : Bool) : State :=
  { withLane 0 (fun x => { x with pers := pers, st := st }) up with
    lane.links := [some { aLink with formed := g }] ++ List.replicate 7 none }

theorem test_meets_LaneEvents_locks :
    (let s := withLane 69 (fun x => { x with st := 2 }) up
     (40 : Nat) ≤ 40 ∧ alignedLane s 69 = false ∧ (laneOf s 69).st = 2) ∧
    (let s := laneBound 1 2 false
     (40 : Nat) < 41 ∧ alignedLane s 0 = true ∧ (laneOf s 0).st = 2) ∧
    ((laneOf up 69).st ≠ 3 ∧ (laneOf up 69).st ≠ 4) ∧
    (let s := withLane 47 (fun x => { x with pers := 1, st := 4 }) up
     (laneOf s 47).st = 4 ∧ lanePort s 47 = none ∧ (laneOf s 47).pers ≤ 1) ∧
    (let s := laneBound 2 3 true
     (laneOf s 0).st = 3 ∧ lanePort s 0 = some 0 ∧ (linkOf s 0).isSome = true ∧ (laneOf s 0).pers = 2) ∧
    (∀ g, let s := laneBound 1 3 g
     (laneOf s 0).st = 3 ∧ lanePort s 0 = some 0 ∧ linkOf s 0 = some { aLink with formed := g } ∧
      (laneOf s 0).pers ≠ 2 ∧ aLink.spareLane ≠ some 0 ∧ aLink.lanes.findIdx? (· == 0) = some 0) ∧
    (∀ b, (laneOf (withLane 69 (fun x => { x with loop := some (aLoop b) }) up) 69).loop = some (aLoop b) ∧
      (aLoop b).returnSpare = b) ∧
    (laneOf up 0).loop = none := by
  refine ⟨⟨?_, ?_, ?_⟩, ⟨?_, ?_, ?_⟩, ⟨?_, ?_⟩, ⟨?_, ?_, ?_⟩, ⟨?_, ?_, ?_, ?_⟩, ?_, ?_, ?_⟩ <;> decide +kernel

/-- Slot 0 of device 0 of a ring of two. -/
def rootSlot : RingSlot := { ring := 0, pos := 0, size := 2, portCw := 0, portCcw := 1 }
/-- Slot 0 of device 1. -/
def childSlot : RingSlot := { ring := 0, pos := 1, size := 3, portCw := 0, portCcw := 1 }
/-- Device 1 of a ring of three, on ports 0 and 1. -/
def member : State := updRing onRing fun r => { r with stageAddr := 1, slots := [some childSlot, none, none, none] }
/-- A flit held in port 7 for replay. -/
def aFlit : HeldFlit := ⟨0, 0, true, true, [], { dst := 1, ftype := 3, src := 0 }⟩

theorem test_meets_RingLinkEvents :
    ((ringPort onRing 7).lanesUp = true ∧ (ringPort up 7).lanesUp = false ∧ (ringPort up 7).consecutive < 8 ∧
      (ringPort onRing 7).state = 2) ∧
    (let s := updRing onRing fun r => { r with ports := modAt r.ports 7 fun p => { p with held := [aFlit] } }
     (ringPort s 7).state = 2 ∧ (ringPort s 7).held ≠ []) ∧
    (ringSlot onRing 0 = some rootSlot ∧ isRoot onRing = true) ∧
    (portRole member 0 = some (0, 0) ∧ portRole member 1 = some (0, 1) ∧ ringSlot member 0 = some childSlot ∧
      isRoot member = false ∧ portToward childSlot 0 ≠ some 0 ∧ portToward childSlot 0 = some 1 ∧
      otherPort member 0 = some 1 ∧ otherPort member 1 = some 0) ∧
    (member.ring.configured = true ∧ member.ring.rootLat.isSome = true ∧ isRoot member = false) := by
  refine ⟨⟨?_, ?_, ?_, ?_⟩, ⟨?_, ?_⟩, ⟨?_, ?_⟩, ⟨?_, ?_, ?_, ?_, ?_, ?_, ?_, ?_⟩, ⟨?_, ?_, ?_⟩⟩ <;> decide +kernel

/-- A flit of 60 bytes, its first as told, with its right checksum. -/
def goodFlit (h : Byte) : List Byte := [h] ++ zeros 59 ++ leBytes 4 (crc32c ([h] ++ zeros 59))

theorem test_meets_RingLinkEvents_flits :
    (let s := updPort onRing 7 fun p => { p with state := 1 }
     (ringPort s 7).lanesUp = true ∧ (ringPort s 7).state = 1 ∧ (ringPort s 7).initGood < 3 ∧
      (ringPort s 7).consecutive < 8) ∧
    (∀ h, h ∈ [(0x40 : Byte), 0] → (goodFlit h).length = 64 ∧ crc32c ((goodFlit h).take 60) = fld (goodFlit h) 60 4 ∧
      (fld (goodFlit h) 0 1).testBit 6 = (h == 0x40) ∧ (fld (goodFlit h) 0 1).testBit 0 = false) ∧
    ((ringPort onRing 7).state = 2 ∧ (zeros 63).length ≠ 64 ∧ (zeros 63 ++ [1]).length = 64 ∧
      crc32c ((zeros 63 ++ [1]).take 60) ≠ fld (zeros 63 ++ [1]) 60 4) ∧
    (portRole member 1 = some (0, 1) ∧ ringSlot member 0 = some childSlot ∧ (2 : Fin 64).val < childSlot.size ∧
      (0 : BitVec 12).toNat ≠ stageAddress childSlot.ring childSlot.pos ∧ childSlot.size ≤ (3 : Fin 64).val ∧
      (1 : BitVec 12).toNat = stageAddress childSlot.ring childSlot.pos) ∧
    portRole member 2 = none := by
  refine ⟨⟨?_, ?_, ?_, ?_⟩, ?_, ⟨?_, ?_, ?_, ?_⟩, ⟨?_, ?_, ?_, ?_, ?_, ?_⟩, ?_⟩ <;> decide +kernel

/-- A flow under way: number 1, generation 2. -/
def aFlow (kind state : Nat) (inbound : Bool) : Flow where
  num := 1
  kind := kind
  state := state
  inbound := inbound
  partner := 1
  gen := 2
  token := 9
  rxNext := 0xFFFFFFFF
/-- Device 0 of a ring of two, with a flow. -/
def flowing (f : Flow) : State := updRing onRing fun r => { r with flows := [f] }
/-- A control frame for flow 1. -/
def aControl : Control := ⟨1, 1, 2, 1, 0, 0, 0, 9, 0, 0, []⟩
/-- Device 0 ready to take a message flow. -/
def listening : State := updRing onRing fun r => { r with
  rootLat := some 0, within := true, listen1 := { accept := true, maxFlows := 1, slotBytes := 256, depth := 2 } }

theorem test_meets_FlowFrames_data :
    flowFor onRing 1 2 = none ∧
    (let f := aFlow 1 2 true
     flowFor (flowing f) 1 2 = some f ∧ f.kind ≠ 4 ∧ f.rxNext = 0xFFFFFFFF ∧ (0xFFFFFFFE : Nat) ≠ f.rxNext ∧
      (seqBefore 0xFFFFFFFE f.rxNext || f.rxHeld.any fun h => h.1 == 0xFFFFFFFE) = true ∧ (0 : Nat) ≠ f.rxNext ∧
      (seqBefore 0 f.rxNext || f.rxHeld.any fun h => h.1 == 0) = false ∧ f.rxHeld.length < 16) ∧
    (let f := aFlow 4 2 true
     flowFor (flowing f) 1 2 = some f ∧ f.kind = 4 ∧ f.rxNext = 0xFFFFFFFF) ∧
    (let f := { aFlow 1 2 true with rxHeld := (List.range 16).map fun i => (i, []) }
     flowFor (flowing f) 1 2 = some f ∧ (16 : Nat) ≠ f.rxNext ∧
      (seqBefore 16 f.rxNext || f.rxHeld.any fun h => h.1 == 16) = false ∧ 16 ≤ f.rxHeld.length) := by
  refine ⟨?_, ⟨?_, ?_, ?_, ?_, ?_, ?_, ?_, ?_⟩, ⟨?_, ?_, ?_⟩, ⟨?_, ?_, ?_, ?_⟩⟩ <;> decide +kernel

theorem test_meets_FlowFrames_open :
    (let f := { aFlow 1 2 true with remote := 1, dgen := 1 }
     let s := flowing f
     (s.ring.flows.find? fun f => f.inbound && f.partner == 1 && f.token == 9 && f.remote == 1 && f.dgen == 1) =
       some f) ∧
    (let s := updRing onRing fun r => { r with nacks := [(1, 9, 3)] }
     s.ring.flows = [] ∧ s.ring.nacks.find? (fun e => e.1 == 1 && e.2.1 == 9) = some (1, 9, 3)) ∧
    (onRing.ring.flows = [] ∧ onRing.ring.nacks = [] ∧ refusal onRing 1 0 = some 1) ∧
    (listening.ring.flows = [] ∧ listening.ring.nacks = [] ∧ refusal listening 1 0 = none) := by
  refine ⟨?_, ⟨?_, ?_⟩, ⟨?_, ?_, ?_⟩, ⟨?_, ?_, ?_⟩⟩ <;> decide +kernel

theorem test_meets_FlowFrames :
    flowFor onRing 1 2 = none ∧
    (∀ k, k ∈ [1, 2] → flowFor (flowing (aFlow 1 k false)) 1 2 = some (aFlow 1 k false)) ∧
    (∀ k, k ∈ [1, 2] → flowFor (flowing (aFlow 1 k true)) 1 2 = some (aFlow 1 k true)) ∧
    ((aFlow 1 1 false).inbound = false ∧ (aFlow 1 1 false).token = 9 ∧ (aFlow 1 2 false).state ≠ 1) ∧
    sessionOfFlow (flowing (aFlow 1 1 true)) 1 = none ∧
    (let s := { flowing (aFlow 4 1 true) with
       gate.sessions := [{ server := true, nsid := 1, flow := 1, partner := 1, remoteNs := 1, credits := 1 }] }
     flowFor s 1 2 = some (aFlow 4 1 true) ∧ (sessionOfFlow s 1).isSome = true) ∧
    (let f := { aFlow 1 3 true with closeSent := true }
     flowFor (flowing f) 1 2 = some f ∧ f.state = 3 ∧ f.closeSent = true) := by
  refine ⟨?_, ?_, ?_, ⟨?_, ?_, ?_⟩, ?_, ⟨?_, ?_⟩, ⟨?_, ?_, ?_⟩⟩ <;> decide +kernel

theorem test_meets_FlowTimers :
    (let f := { aFlow 4 2 true with rxHeld := [(0, [])] }
     flowOf (flowing f) 1 = some f ∧ f.dead = false ∧ 2 ≤ f.state ∧ f.kind ≤ 4 ∧ f.rxHeld ≠ []) ∧
    (let f := { aFlow 1 1 false with tries := 8 }
     flowOf (flowing f) 1 = some f ∧ f.dead = false ∧ f.inbound = false ∧ f.state = 1) ∧
    (let f := aFlow 1 1 true
     flowOf (flowing f) 1 = some f ∧ f.dead = false ∧ f.inbound = true ∧ f.state = 1) ∧
    (let f := aFlow 2 3 true
     flowOf (flowing f) 1 = some f ∧ f.dead = false ∧ f.state = 3) ∧
    flowOf onRing 1 = none := by
  refine ⟨⟨?_, ?_, ?_, ?_, ?_⟩, ⟨?_, ?_, ?_, ?_⟩, ⟨?_, ?_, ?_, ?_⟩, ⟨?_, ?_, ?_⟩, ?_⟩ <;> decide +kernel

/-- Domain 1 on a source, with a master. -/
def onSource (x : DomSource) (n : Nat) : State := updDom up 1 fun d => { d with
  state := .settling, source := x, masters := (List.range n).map fun m => ⟨m, []⟩ }

theorem test_meets_DomainEvents :
    (let s := onSource .ptp 1
     (domOf s 1).source = .ptp ∧ ((domOf s 1).masters.head?.map (·.port)) = some 0 ∧
      ((domOf s 1).masters.head?.map (·.port)) ≠ some 1 ∧ ((domOf s 1).masters.any fun x => x.port == 0) = true ∧
      ((domOf s 1).masters.any fun x => x.port == 1) = false) ∧
    (domOf (onSource .free 0) 1).source ≠ .ptp ∧ 4 ≤ (domOf (onSource .ptp 4) 1).masters.length ∧
    ((domOf (onSource .ptp 4) 1).masters.any fun x => x.port == 4) = false ∧
    (domOf (onSource .flow 0) 1).source = .flow := by
  refine ⟨⟨?_, ?_, ?_, ?_, ?_⟩, ?_, ?_, ?_, ?_⟩ <;> decide +kernel

theorem test_meets_DomainEvents_frames :
    ((domOf (onSource .ptp 1) 1).syncT = none ∧
      (domOf (updDom (onSource .ptp 1) 1 fun d => { d with syncT := some (1, 2) }) 1).syncT = some (1, 2)) ∧
    flowFor onRing 1 2 = none ∧
    (let s := flowing (aFlow 3 2 true)
     flowFor s 1 2 = some (aFlow 3 2 true) ∧ domainOfFlow s 1 = none) ∧
    (let s := updDom (flowing (aFlow 3 2 true)) 1 fun d => { d with source := .flow, flow := some 1 }
     flowFor s 1 2 = some (aFlow 3 2 true) ∧ domainOfFlow s 1 = some 1) ∧
    (let s := updRing (onSource .ptp 3) fun r => { r with flows := List.replicate 1024 (aFlow 3 2 true) }
     (domOf s 1).source = .ptp ∧ ((domOf s 1).masters.any fun x => x.port == 3) = false ∧ pinnedFree s = false) := by
  refine ⟨⟨?_, ?_⟩, ?_, ⟨?_, ?_⟩, ⟨?_, ?_⟩, ⟨?_, ?_, ?_⟩⟩ <;> decide +kernel

/-- Domain 1 locked, and class S to step to it. -/
def stepping : State := { updDom up 1 fun d => { d with state := .locked } with time.stepWait := true, time.stepTo := some 1 }
/-- The device at a count of the root clock. -/
def tickTo (n : Nat) (s : State) : State := { s with time.c := n }
/-- A sync input that is on, as told. -/
def syncing (x : SyncIn) : State := { up with time.syncIn := { x with enable := true } }

theorem test_meets_ViewSyncAndTimecodeEvents_sync :
    (let s := flowing (aFlow 3 2 true)
     (s.ring.flows.filter fun f => f.kind == 3 && f.inbound && f.state == 2) = [aFlow 3 2 true]) ∧
    (up.time.syncIn.enable = false ∧ (syncing {}).time.syncIn.enable = true ∧ syncRateOk 1 25 1 = false) ∧
    ((4 : Fin 5) ≠ 0 ∧ syncRateOk 3 25 1 = true ∧ linePeriodOk 3 25 1 0 = false ∧
      linePeriodOk 3 25 1 (1000000000000 / (syncLines 3 * 25)) = true) ∧
    (∀ x, x ∈ [(⟨true, 3, 3, 9, 0, 25, 1, 0, 0⟩ : SyncIn), ⟨true, 0, 3, 6, 0, 25, 1, 0, 0⟩, ⟨true, 0, 3, 7, 0, 25, 1, 0, 0⟩] →
      (syncing x).time.syncIn = x ∧ x.candidate = 3 ∧ x.fpsNum = 25 ∧ x.fpsDen = 1) ∧
    (up.time.syncIn.format = 0 ∧ (syncing { format := 4 }).time.syncIn.format ≠ 0) := by
  refine ⟨?_, ⟨?_, ?_, ?_⟩, ⟨?_, ?_, ?_, ?_⟩, ?_, ⟨?_, ?_⟩⟩ <;> decide +kernel

/-- Time code of rate 4 in and out. -/
def ltcUp : State := { up with time.ltc := { rate := 4, readerValid := true } }

theorem test_meets_ViewSyncAndTimecodeEvents :
    (up.ring.flows.filter fun f => f.kind == 3 && f.inbound && f.state == 2) = [] ∧
    (let s := { tickTo revertTicks stepping with time.revert := true, time.primary := 1, time.viewS.base := some 0 }
     s.time.revert = true ∧ isLocked s s.time.primary = true ∧
      (domOf s s.time.primary).lockedAt + revertTicks ≤ now s ∧ s.time.viewS.base.isSome = true ∧
      s.time.viewS.base ≠ some s.time.primary) ∧
    (stepping.time.stepWait = true ∧ stepping.time.stepTo = some 1 ∧ classSBusy stepping = false ∧
      isLocked stepping 1 = true ∧ stepping.time.viewS.base = none) ∧
    (let s := { stepping with time.stepTo := some 0, aud.running := [false, false, false, false, true] }
     s.time.stepTo = some 0 ∧ classSBusy s = true ∧ isLocked s 0 = false) ∧
    (let s := { up with time.cadences := up.time.cadences.set 19 { phase := 1 } }
     (s.time.cadences.getD 19 {}).phase = 1) ∧
    (let s := { up with time.cadences := up.time.cadences.set 0 { phase := 2 } }
     (s.time.cadences.getD 0 {}).phase = 2 ∧ (s.time.cadences.getD 0 {}).linesLeft = 0) ∧
    (let s := { up with time.cadences := (up.time.cadences.set 12 { phase := 2, linesLeft := -1 }).set 13 { phase := 2, linesLeft := 1 } }
     (s.time.cadences.getD 12 {}).phase = 2 ∧ (s.time.cadences.getD 12 {}).linesLeft ≠ 0 ∧
      (s.time.cadences.getD 13 {}).phase = 2) ∧
    (up.time.syncIn.enable = false ∧ syncRateOk 1 50 1 = false) ∧
    (ltcUp.time.ltc.rate ≠ 0 ∧ ltcUp.time.ltc.genSrc = 0 ∧ ltcUp.time.ltc.genSrc ≠ 1 ∧
      ltcUp.time.ltc.readerValid = true ∧ ltcUp.time.ltc.srcPending = false) := by
  refine ⟨?_, ⟨?_, ?_, ?_, ?_, ?_⟩, ⟨?_, ?_, ?_, ?_, ?_⟩, ⟨?_, ?_, ?_⟩, ?_, ⟨?_, ?_⟩,
    ⟨?_, ?_, ?_⟩, ⟨?_, ?_⟩, ⟨?_, ?_, ?_, ?_, ?_⟩⟩ <;>
    decide +kernel

/-! ## What the statements assume: outputs, audio, memory, heat and spares -/

/-- A panel of 320 by 240, on, with layer 1 opaque over line 1599's place, at a line. -/
def shown (l : Nat) : State := { up with disp := {
  enabled := true, configured := true, line := some l
  cfg := { ports := 1, hActive := 320, vActive := 240, hTotal := 400, vTotal := 260 }
  opened := 240
  latched := { layers := [{}, { enable := true, w := 320, h := 240, stride := 1280, addr := 0x100000, gen := 1 }, {}, {}] } } }

theorem test_meets_OutputAndDisplayEvents :
    (outOf up 11).enabled = false ∧ (outOf { up with out.outs := up.out.outs.set 3 { enabled := true } } 3).enabled = true ∧
    (outOf up 11).ending = false ∧
    (outOf { up with out.outs := up.out.outs.set 11 { ending := true } } 11).ending = true ∧ 4 ≤ (11 : Fin 12).val ∧
    (let s := { up with out.eth := [{ up := true, link := true }, { up := true }] }
     (ethOf s 0).link = true ∧ (ethOf s 1).link = false ∧ (ethOf s 1).up = true) ∧
    (up.disp.enabled = false ∧ up.disp.finishing = false ∧ (shown 0).disp.finishing = false) ∧
    ((shown 238).disp.enabled = true ∧ (shown 238).disp.line = some 238 ∧ 238 + 1 < (shown 238).disp.cfg.vActive ∧
      238 + 1 < dispTotal (shown 238) ∧ (shown 239).disp.line = some 239 ∧ 239 + 1 = (shown 239).disp.cfg.vActive) ∧
    ((shown 259).disp.enabled = true ∧ (shown 259).disp.finishing = false ∧ dispTotal (shown 259) ≤ 259 + 1 ∧
      0 < (shown 259).disp.cfg.vActive) ∧
    (let s := shown 0
     (1 : Fin 4) ≠ 0 ∧ (239 : Fin 1600).val < s.disp.opened ∧ s.disp.written.contains 239 = false ∧
      covers s 1 239 = true ∧ 0 < burstsOf s 1 239 ∧ ((burstsIn s 1 239).any fun f => f.2.2.1 == 0) = false ∧
      memLE s.dram (layerOf s.disp.latched 1).addr 4 ≠ (layerOf s.disp.latched 1).gen ∧ s.disp.off.getD 1 none = none) ∧
    (let s := { shown 0 with disp.off := (shown 0).disp.off.set 1 (some 240) }
     covers s 1 239 = true ∧ (s.disp.off.getD 1 none).isSome = true) ∧
    (let s := { shown 0 with disp.fetched := [(1, 239, 0, [])] }
     (List.range 4).all (fun k => !covers s k 239 || arrived s k 239) = true) ∧
    ((shown 259).disp.line = some 259 ∧ (shown 259).disp.cfg.vActive ≤ 259 ∧ (shown 259).disp.cfg.ports = 1 ∧
      (0 : BitVec 32).toNat = (shown 259).disp.frameCrc ∧ (1 : BitVec 32).toNat ≠ (shown 259).disp.frameCrc) := by
  refine ⟨?_, ?_, ?_, ?_, ?_, ⟨?_, ?_, ?_⟩, ⟨?_, ?_, ?_⟩, ⟨?_, ?_, ?_, ?_, ?_, ?_⟩,
    ⟨?_, ?_, ?_, ?_⟩, ⟨?_, ?_, ?_, ?_, ?_, ?_, ?_, ?_⟩, ⟨?_, ?_⟩, ?_, ⟨?_, ?_, ?_, ?_, ?_⟩⟩ <;>
    decide +kernel

/-- Port 2 as a slave in one direction, at work. -/
def slave (d : Nat) : State := { up with aud.ports := up.aud.ports.set 2 { dir := d }, aud.running := [false, false, false, false, true] }

theorem test_meets_AudioEvents :
    ((audPort (slave 1) 2).master = false ∧ (audPort (slave 1) 2).fault = none ∧ unitRuns (slave 1) (2 + 2) = true ∧
      (audPort (slave 1) 2).dir = 1 ∧ (audPort (slave 2) 2).dir = 2 ∧ (audPort (slave 2) 2).dir ≠ 0) ∧
    (31 : Fin 35).val < 32 ∧
    (audPort { up with aud.ports := up.aud.ports.set 2 { dir := 1, fault := some 0 } } 2).fault.isSome = true := by
  refine ⟨⟨?_, ?_, ?_, ?_, ?_, ?_⟩, ?_, ?_⟩ <;> decide +kernel

/-- Channel 15, rank 0 as told. -/
def ranked (r : Rank) : State := updRank up 15 0 fun _ => r
/-- A row of channel 15. -/
def aRow : DramRow := ⟨0, 4095, 65535, 4, false, 0⟩
/-- Channel 15 with a row to remap and `n` rows remapped. -/
def remapped (n : Nat) : State := updChannel up 15 fun c => { c with retire := [aRow], remap := List.replicate n ⟨1, 0, 0, 0, true, 0⟩ }

theorem test_meets_MemoryEvents :
    (rankExists up 15 0 = true ∧ (0 : Fin 3).val = (rankOf up 15 0).band) ∧
    (let s := ranked { band := 2, lowerBand := 1, lowerRun := 2 }
     (1 : Fin 3).val < (rankOf s 15 0).band ∧ (rankOf s 15 0).lowerBand = 1 ∧ (rankOf s 15 0).lowerRun < 3) ∧
    (let s := ranked { band := 2, lowerBand := 1, lowerRun := 3 }
     (rankOf s 15 0).lowerBand = 1 ∧ 3 ≤ (rankOf s 15 0).lowerRun) ∧
    (let s := ranked { owed := 1 }
     (rankOf s 15 0).band = 0 ∧ 0 < (1 : Fin 3).val ∧ 0 < (rankOf s 15 0).owed) ∧
    ((rankOf up 15 0).payback = none ∧ (rankOf (ranked { payback := some (0, 2, true) }) 15 0).payback = some (0, 2, true)) ∧
    (15 : Nat) < dramChannels up.fuse ∧ up.pwr.state = .run ∧
    ((remapped 256).mem.channels.getD 15 {}).retire = aRow :: [] ∧
    256 ≤ ((remapped 256).mem.channels.getD 15 {}).remap.length ∧
    ((remapped 255).mem.channels.getD 15 {}).retire = aRow :: [] ∧
    ((remapped 255).mem.channels.getD 15 {}).remap.length < 256 ∧
    (let a : BitVec 36 := 0x3FFFFFFFF
     burstOf a.toNat < dramBytes up.fuse ∧ 0 = dramRankOf up.fuse (burstOf a.toNat) ∧
      up.mem.poison.contains (burstOf a.toNat) = false) := by
  refine ⟨⟨?_, ?_⟩, ⟨?_, ?_, ?_⟩, ⟨?_, ?_⟩, ⟨?_, ?_, ?_⟩, ⟨?_, ?_⟩, ?_, ?_, ?_, ?_, ?_, ?_, ⟨?_, ?_, ?_⟩⟩ <;>
    decide +kernel

/-- Sensor 23 as told. -/
def sensing (f : TempSensor → TempSensor) : State := updTemp up 23 f
/-- Target 53 of class 0 as told, in a pass. -/
def passing (t : CalTarget) : State := updTarget (updClass up 0 fun x => { x with running := true }) 0 53 fun _ => t

theorem test_meets_ThermalAndCalibrationEvents :
    ((tempSensor up 27).state ≠ .failed ∧ (tempSensor up 27).state ≠ .spareFailed) ∧
    (tempSensor (sensing fun x => { x with state := .failed }) 23).state = .failed ∧
    (let s := sensing fun x => { x with state := .suspect, near := 10 }
     (tempSensor s 23).state = .suspect ∧ 10 ≤ (tempSensor s 23).near ∧ (tempSensor s 23).again = false) ∧
    (let s := sensing fun x => { x with state := .suspect, near := 9 }
     (tempSensor s 23).near < 10 ∧ (tempSensor s 23).again = false) ∧
    (tempSensor (sensing fun x => { x with state := .suspect, again := true }) 23).again = true ∧
    { up with therm.riseSignal := true }.therm.riseSignal = true ∧ (calClass up 5).running = false ∧
    (let s := passing {}
     (calClass s 0).running = true ∧ ((calClass s 0).targets.getD 53 {}).done = false ∧
      ((calClass s 0).targets.getD 53 {}).next = none ∧ 53 < calTargets s.fuse 0 ∧
      agreeing s.therm.agree ([((62 : BitVec 10), (63 : BitVec 10))].map fun q =>
        (q.1.toNat % 2 ^ calBits 0 53, q.2.toNat % 2 ^ calBits 0 53)) = some (62, 63)) ∧
    (((calClass (passing { next := some 63 }) 0).targets.getD 53 {}).next = some 63 ∧ (0 : Fin 6).val ≠ 5 ∧
      calGap (passing { next := some 63 }) 0 53 = true) ∧
    (up.therm.rcalFault = false ∧ 19600 ≤ (19600 : BitVec 32).toNat ∧ (20400 : BitVec 32).toNat ≤ 20400 ∧
      (19599 : BitVec 32).toNat < 19600) ∧
    (let s := { up with therm.rcalFault := true, therm.rcalGood := 1 }
     s.therm.rcalFault = true ∧ 1 ≤ s.therm.rcalGood) := by
  refine ⟨⟨?_, ?_⟩, ?_, ⟨?_, ?_, ?_⟩, ⟨?_, ?_⟩, ?_, ?_, ?_, ⟨?_, ?_, ?_, ?_, ?_⟩, ⟨?_, ?_, ?_⟩, ⟨?_, ?_, ?_, ?_⟩, ⟨?_, ?_⟩⟩ <;>
    decide +kernel

theorem test_meets_SpareEvents :
    bankExists up.fuse ⟨14, 0, 255⟩ = true ∧ bankExists up.fuse ⟨7, 0, 1023⟩ = true ∧ bankGone up ⟨7, 0, 1023⟩ = false ∧
    bankGone up ⟨14, 0, 255⟩ = false ∧ ({ up with spare.testing := [(7, 63, true)] }.spare.testing.find? fun t =>
      t.1 == 7 && t.2.1 == 63) = some (7, 63, true) := by decide +kernel

/-! ## Accepted commands

For each command of a mailbox statement, a command with parameters that firmware accepts in a small state: its turn has
come and no check of R66 refuses it. -/

theorem test_accepts_SystemCommands :
    Accepted sysIdentifyCard 0 (given 0x0101 (params 0 []) up) ∧
    Accepted sysGpioCard 0 (given 0x0103 (params 12 [(0, 4, 3), (8, 4, 1)]) up) ∧
    Accepted sysTallyCard 0 (given 0x0104 (params 4 [(0, 1, 3), (1, 1, 2), (2, 1, 255)]) up) ∧
    Accepted evqConfigCard 0 (given 0x0201 (params 4 [(0, 1, 27), (2, 2, 0x400)]) up) ∧
    Accepted evqRouteCard 0 (given 0x0202 (params 2 [(0, 1, 22), (1, 1, 3)]) up) ∧
    Accepted evqResetCard 0 (given 0x0203 (params 4 [(0, 1, 3)]) up) ∧
    Accepted memStatusCard 0 (given 0x1101 (params 4 [(0, 1, 15), (1, 1, 1)]) up) ∧
    Accepted memApertureCard 0 (given 0x1102 (params 4 [(0, 1, 15)]) up) ∧
    Accepted memKeepCard 0 (given 0x1103 (params 4 [(0, 1, 127)]) up) ∧
    Accepted sysResetCard 0 (given 0x0102 (params 4 [(0, 4, 0x53595352)]) up) := by
  refine ⟨?_, ?_, ?_, ?_, ?_, ?_, ?_, ?_, ?_, ?_⟩ <;> decide +kernel

theorem test_accepts_SensorCommands :
    Accepted sensPowerCard 0 (given 0x0302 (params 4 [(0, 1, 3), (1, 1, 1)]) up) ∧
    Accepted sensStartCard 0 (given 0x0303 (params 4 []) { cam id with br.spwrOn := [true, false, false, false] }) ∧
    Accepted sensStopCard 0 (given 0x0304 (params 4 []) (live id)) ∧
    Accepted sensClearCard 0 (given 0x0305 (params 4 []) (cam id)) ∧
    Accepted sensCountersCard 0 (given 0x0307 (params 4 [(0, 1, 3), (1, 1, 1)]) up) ∧
    Accepted sensMetaPollCard 0 (given 0x0308 (params 20 [(1, 1, 1), (3, 1, 16), (5, 1, 2), (6, 2, 0xffff), (8, 1, 1),
      (9, 1, 48)]) up) ∧
    Accepted sensConfigCard 0 (given 0x0301 (params 36 [(1, 1, 1), (2, 1, 1), (3, 1, 12), (4, 2, 64), (6, 2, 32), (8,
      4, 30), (12, 2, 1), (14, 1, 2), (19, 1, 1), (20, 1, 1), (22, 2, 100), (25, 1, 44), (30, 2, 2)]) up) ∧
    Accepted sensBusXferCard 0 (given 0x0306 (params 9 [(2, 1, 16), (4, 2, 1)]) up) ∧
    Accepted sensBusXferCard 0 (given 0x0306 (params 9 [(2, 1, 16), (3, 1, 1), (4, 2, 1)]) (live id)) := by
  refine ⟨?_, ?_, ?_, ?_, ?_, ?_, ?_, ?_, ?_⟩ <;> decide +kernel

theorem test_accepts_FrontEndCommands :
    Accepted schedSensorCard 0 (given 0x0401 (params 8 [(4, 4, 100)]) (cam id)) ∧
    Accepted schedCommitCard 0 (given 0x0402 (params 4 []) (cam id)) ∧
    Accepted schedStatusCard 0 (given 0x0403 (params 4 [(0, 1, 1)]) up) ∧
    Accepted feMergeCard 0 (given 0x0502 (params 56 [(8, 4, 0x3f0000), (12, 4, 0x3f0000), (16, 4, 0x2b0000), (20, 4,
      0x2f0000)]) (cam id)) ∧
    Accepted feBlackCard 0 (given 0x0503 (params 24 []) (cam id)) ∧
    Accepted feMapAllocCard 0 (given 0x0504 (params 8 [(0, 2, 64), (2, 2, 32)]) up) ∧
    Accepted feMapFreeCard 0 (given 0x0505 (params 4 [])
      { cam id with img.maps := [some ⟨64, 32, 0x20000000⟩] ++ List.replicate 15 none }) ∧
    Accepted feMapSelectCard 0 (given 0x0506 (params 12 [(4, 4, 0x2b0000), (8, 4, 0x5555aaa8)])
      { cam id with img.maps := [some ⟨64, 32, 0x20000000⟩] ++ List.replicate 15 none }) ∧
    Accepted feDefectCard 0 (given 0x0507 (params 16 [(1, 1, 2)]) (cam id)) ∧
    Accepted feStatsConfigCard 0 (given 0x0508 (params 20 [(1, 1, 16)]) (cam id)) ∧
    Accepted feCalCaptureCard 0 (given 0x0509 (params 24 [(2, 2, 0x100), (8, 4, 0x3f0000), (20, 4, 0x2b0000)])
      { live id with img.maps := [some ⟨64, 32, 0x20000000⟩] ++ List.replicate 15 none }) ∧
    Accepted feCalAbortCard 0 (given 0x050A (params 4 []) (live fun x =>
      { x with capture := some { kind := 0, frames := 1, handle := 0, hot := 0, target := 0, gainLo := 0, gainHi := 0, offsetUnit := 0, fromSeq := 0 } })) := by
  refine ⟨?_, ?_, ?_, ?_, ?_, ?_, ?_, ?_, ?_, ?_, ?_, ?_⟩ <;> decide +kernel

theorem test_accepts_ColourCommands :
    Accepted devCfaCard 0 (given 0x0601 (params 80 [(1, 1, 2), (2, 1, 2), (8, 4, 0x2010100), (16, 2, 0x100), (24, 2,
      0x302)]) (cam id)) ∧
    Accepted devDemosaicCard 0 (given 0x0602 (params 28 [(4, 4, 0x3f0000), (8, 4, 0x3f0000), (12, 4, 0x3f0000), (16,
      4, 0x3f0000), (20, 4, 0x2f0000), (24, 4, 0x3e0000)]) (cam id)) ∧
    Accepted colTransformCard 0 (given 0x0610 (params 52 [(3, 1, 1), (4, 4, 0x463200), (16, 4, 0x3f0000), (32, 4,
      0x3f0000), (48, 4, 0x3f0000)]) (cam id)) ∧
    Accepted colGainsCard 0 (given 0x0611 (params 20 [(4, 4, 0x3f0000), (8, 4, 0x3f0000), (12, 4, 0x3f0000), (16, 4,
      0x3f0000)]) (cam id)) ∧
    Accepted colShaperLoadCard 0 (given 0x0612 (params 16 []) (cam id)) ∧
    Accepted lutLoadCard 0 (given 0x0620 (params 16 []) (cam id)) ∧
    Accepted colContrastCard 0 (given 0x0613 (params 32 [(8, 4, 0x2f0000)]) (cam id)) ∧
    Accepted colOutputCard 0 (given 0x0614 (params 56 [(3, 1, 1), (8, 4, 0x3f0000)]) (cam id)) ∧
    Accepted colStatusCard 0 (given 0x0615 (params 4 [(0, 1, 0)]) (cam id)) ∧
    Accepted rndGeometryCard 0 (given 0x0703 (params 24 [(0, 1, 1), (8, 2, 64), (10, 2, 32), (12, 2, 64), (14, 2,
      32)])
      { cam id with img.rnds := modAt up.img.rnds 1 fun r => { r with sensor := some 0, dest := 1, layout := 2, div := 1, depth := 2, maxW := 64, maxH := 32 } }) ∧
    Accepted rndStatusCard 0 (given 0x0704 (params 4 [(0, 1, 1)]) up) ∧
    Accepted devSlFrameCard 0 (given 0x0603 (params 4 [(1, 1, 1), (3, 1, 2)]) (cam id)) ∧
    Accepted devSlFrameCard 0 (given 0x0603 (params 4 []) (cam id)) ∧
    Accepted rnd0OutputCard 0 (given 0x0701 (params 4 []) (cam id)) ∧
    Accepted rndBindCard 0 (given 0x0702 (params 12 [(0, 1, 1), (1, 1, 255)])
      { cam id with img.rnds := modAt up.img.rnds 1 fun r => { r with sensor := some 0, dest := 1, layout := 2, div := 1, depth := 2, maxW := 64, maxH := 32 } }) ∧
    Accepted tapConfigCard 0 (given 0x0710 (params 12 [(1, 1, 4)]) (cam id)) := by
  refine ⟨?_, ?_, ?_, ?_, ?_, ?_, ?_, ?_, ?_, ?_, ?_, ?_, ?_, ?_, ?_, ?_⟩ <;> decide +kernel

theorem test_accepts_CodecCommands :
    Accepted codecStreamCard 0 (given 0x0801 (params 40 []) up) ∧
    Accepted jobEncodeCard 0 (given 0x0802 (params 88 [(4, 2, 16), (6, 2, 8), (8, 2, 16), (10, 2, 8), (13, 1, 1), (16,
      8, 0x100000), (24, 4, 0x100), (28, 4, 0x10000), (32, 8, 0x200000), (40, 8, 0x300000), (56, 2, 16), (58, 2, 16),
      (60, 2, 16), (62, 2, 16), (64, 2, 16), (66, 2, 16), (68, 2, 16)]) up) ∧
    Accepted jobDecodeCard 0 (given 0x0803 (params 48 [(4, 4, 40), (8, 8, 0x100000), (16, 8, 0x200000), (32, 8,
      0x300000)]) up) ∧
    Accepted jobResumeCard 0 (given 0x0804 (params 16 [(4, 4, 16), (8, 8, 0x100000)])
      { up with codec.jobs := [some { spec := .decode 0x28 0 0 0 0 0 0 0 0, state := 3, order := 0 }] ++ List.replicate 15 none }) ∧
    Accepted jobAbortCard 0 (given 0x0805 (params 4 [])
      { up with codec.jobs := [some { spec := .decode 0x28 0 0 0 0 0 0 0 0, state := 1, order := 0 }] ++ List.replicate 15 none }) ∧
    Accepted codecStatusCard 0 (given 0x0806 (params 4 [(0, 1, 1)]) up) := by
  refine ⟨?_, ?_, ?_, ?_, ?_, ?_⟩ <;> decide +kernel

theorem test_accepts_RecordingCommands :
    Accepted recStartCard 0 (given 0x0901 (params 24 [(0, 1, 1)]) channelSet) ∧
    Accepted recStopCard 0 (given 0x0902 (params 12 [(0, 1, 1)])
      { up with recs.chans := modAt up.recs.chans 0 fun c => { c with kind := 1, state := 2 } }) ∧
    Accepted recChannelCard 0 (given 0x0903 (params 20 [(1, 1, 5), (4, 1, 255)]) up) ∧
    Accepted volFormatCard 0 (given 0x0904 (params 20 []) portUp) ∧
    Accepted volUnmountCard 0 (given 0x0906 (params 4 []) mounted) ∧
    Accepted clipDeleteCard 0 (given 0x0907 (params 4 [(2, 2, 1)]) clipped) ∧
    Accepted recStatusCard 0 (given 0x0908 (params 4 [(0, 1, 1)]) up) := by
  refine ⟨?_, ?_, ?_, ?_, ?_, ?_, ?_⟩ <;> decide +kernel

theorem test_accepts_GateCommands :
    Accepted gateStatusCard 0 (given 0x0A01 (params 4 [(0, 1, 1)]) up) ∧
    Accepted gateRemoteCard 0 (given 0x0A04 (params 8 [(0, 1, 1), (2, 2, 0x100), (4, 2, 0x400)]) up) ∧
    Accepted gateSessionOpenCard 0 (given 0x0A05 (params 8 [(0, 1, 9), (1, 1, 1), (2, 2, 1), (4, 2, 0x100)]) onRing) ∧
    Accepted gateSessionCloseCard 0 (given 0x0A06 (params 4 [(0, 1, 24)])
      { up with gate.sessions := [{ server := false, nsid := 24, flow := 0, partner := 1, remoteNs := 1, credits := 1, active := true }] }) ∧
    Accepted (gateDriveCard (some ⟨4, 4, 12, 65536⟩)) 0 (given 0x0A02 (params 8 [(1, 1, 1), (4, 4, 0x100)]) rpLanesUp) ∧
    Accepted (gateDriveCard none) 0 (given 0x0A02 (params 8 []) up) ∧
    Accepted gateServiceCard 0 (given 0x0A03 (params 4 [(1, 1, 1)]) portUp) ∧
    Accepted gateServiceCard 0 (given 0x0A03 (params 4 []) (updGatePort portUp 0 fun p => { p with state := 3 })) := by
  refine ⟨?_, ?_, ?_, ?_, ?_, ?_, ?_, ?_⟩ <;> decide +kernel

theorem test_accepts_LaneCommands :
    Accepted (laneConfigCard 0 0) 0 (given 0x0B01 (params 20 [(1, 1, 255), (3, 1, 255)]) up) ∧
    Accepted (laneStatusCard [] 0 0) 0 (given 0x0B02 (params 4 [(0, 1, 47), (1, 1, 1)]) up) ∧
    Accepted laneLinkCard 0 (given 0x0B03 (params 8 [(0, 1, 7), (1, 1, 1), (3, 1, 1)]) (withLane 0 (fun x =>
      { x with pers := 1 }) up)) ∧
    Accepted lanePowerCard 0 (given 0x0B04 (params 4 [(1, 1, 4), (2, 1, 1)]) (withLane 4 (fun x =>
      { x with pers := 1 }) up)) ∧
    Accepted (laneLoopCard 0 0) 0 (given 0x0B05 (params 8 [(0, 1, 4), (1, 1, 1), (4, 2, 0xe10)]) up) ∧
    Accepted laneEqCard 0 (given 0x0B06 (params 4 [(0, 1, 4)]) (withLane 4 (fun x => { x with pers := 1, st := 3 })
      up)) := by
  refine ⟨?_, ?_, ?_, ?_, ?_, ?_⟩ <;> decide +kernel

theorem test_accepts_RingCommands :
    Accepted ringConfigCard 0 (given 0x0C01 (params 152 [(2, 1, 2), (4, 1, 0), (5, 1, 1), (8, 1, 255), (12, 1, 255),
      (16, 1, 255), (20, 4, 10)]) linked) ∧
    Accepted ringStatusCard 0 (given 0x0C02 (params 4 [(0, 1, 1)]) up) ∧
    Accepted flowOpenCard 0 (given 0x0C10 (params 12 [(0, 2, 1), (2, 1, 1), (4, 4, 16)])
      { onRing with ring.listen1 := { accept := true, maxFlows := 4096, slotBytes := 512, depth := 2 } }) ∧
    Accepted flowCloseCard 0 (given 0x0C11 (params 4 [])
      { up with ring.flows := [{ num := 0, kind := 1, state := 2, partner := 1, maxItem := 1024 }] }) ∧
    Accepted flowListenCard 0 (given 0x0C12 (params 12 [(0, 1, 2), (1, 1, 1), (2, 2, 0x1000), (4, 4, 0x200), (8, 1,
      64)]) up) ∧
    Accepted flowSendCard 0 (given 0x0C13 (params 16 [(4, 4, 16), (8, 8, 0x100000)])
      { up with ring.flows := [{ num := 0, kind := 1, state := 2, partner := 1, maxItem := 1024 }] }) ∧
    Accepted flintSetCard 0 (given 0x1610 (params 20 []) up) ∧
    Accepted flintStatusCard 0 (given 0x1611 (params 4 [(0, 1, 1)]) up) ∧
    Accepted flowStatusCard 0 (given 0x0C14 (params 4 [(0, 2, 0xffff)]) up) := by
  refine ⟨?_, ?_, ?_, ?_, ?_, ?_, ?_, ?_, ?_⟩ <;> decide +kernel

theorem test_accepts_OutputCommands :
    Accepted outEthPortCard 0 (given 0x0D03 (params 16 [(1, 1, 1)]) (withLane (ethLane up.fuse 0) (fun x =>
      { x with pers := 6 }) up)) ∧
    Accepted outStatusCard 0 (given 0x0D04 (params 4 [(0, 1, 1)]) up) ∧
    Accepted dispConfigCard 0 (given 0x0E01 (params 32 [(0, 1, 1), (1, 1, 1), (2, 1, 4), (4, 2, 0x1c2), (8, 2, 0x140),
      (10, 2, 240), (12, 2, 0x190), (14, 2, 0x104), (16, 2, 8), (18, 2, 8), (20, 1, 2), (21, 1, 2), (22, 2, 1), (24,
      4, 30)]) up) ∧
    Accepted dispLayerCard 0 (given 0x0E02 (params 48 [(0, 1, 3)])
      { up with disp.configured := true, disp.cfg := dispCfgOf (params 0x20 [(8, 2, 320), (0xA, 2, 240), (0xC, 2, 400), (0xE, 2, 260), (0x16, 2, 1), (0x18, 4, 30)]) }) ∧
    Accepted dispCommitCard 0 (given 0x0E03 (params 4 [(0, 2, 0x103)])
      { up with disp.configured := true, disp.cfg := dispCfgOf (params 0x20 [(8, 2, 320), (0xA, 2, 240), (0xC, 2, 400), (0xE, 2, 260), (0x16, 2, 1), (0x18, 4, 30)]) }) ∧
    Accepted dispStatusCard 0 (given 0x0E05 (params 4 [(0, 1, 1)]) up) ∧
    Accepted outSdiCard 0 (given 0x0D01 (params 32 []) (withLane (sdiLane up.fuse 0) (fun x => { x with pers := 7 })
      up)) ∧
    Accepted outSdiCard 0 (given 0x0D01 (params 32 [(1, 1, 1), (2, 1, 1), (4, 2, 0x780), (6, 2, 0x438), (8, 4, 30),
      (12, 2, 1)]) (withLane (sdiLane up.fuse 0) (fun x => { x with pers := 7 })
      ({ up with img.rnds := modAt up.img.rnds 1 fun r => { r with sensor := some 0, dest := 2, layout := 0, maxW := 1920, maxH := 1080 } }))) ∧
    Accepted out2110Card 0 (given 0x0D02 (params 68 [(0, 1, 7)]) up) ∧
    Accepted (dispDcsCard ⟨0, 0, []⟩ ⟨0, 0, []⟩) 0 (given 0x0E04 (params 9 [(0, 1, 1), (4, 2, 1)]) up) := by
  refine ⟨?_, ?_, ?_, ?_, ?_, ?_, ?_, ?_, ?_, ?_⟩ <;> decide +kernel

theorem test_accepts_AudioAndTimeCommands :
    Accepted audConfigCard 0 (given 0x0F01 (params 4 [(0, 1, 2), (1, 1, 2), (2, 1, 2), (3, 1, 2)]) up) ∧
    Accepted audPortCard 0 (given 0x0F02 (params 16 [(1, 1, 1), (2, 1, 1), (8, 1, 255), (9, 1, 255), (10, 1, 255),
      (11, 1, 255), (12, 1, 255), (13, 1, 255), (14, 1, 255), (15, 1, 255)]) up) ∧
    Accepted audStartCard 0 (given 0x0F05 (params 16 [(0, 1, 1)]) { up with aud.pdm := [1, 1] }) ∧
    Accepted audStopCard 0 (given 0x0F06 (params 4 [(0, 1, 1)])
      { up with aud.running := [true, false, false, false, false] }) ∧
    Accepted audStatusCard 0 (given 0x0F07 (params 4 [(0, 1, 1)]) up) ∧
    Accepted timeSelectCard 0 (given 0x1002 (params 8 [(1, 1, 255), (4, 4, 100)]) (updDom up 0 fun d =>
      { d with state := .acquiring, source := .free })) ∧
    Accepted timePortCard 0 (given 0x1003 (params 16 [(0, 1, 11), (4, 4, 0x186a0)]) up) ∧
    Accepted timeSyncCard 0 (given 0x1004 (params 16 [(0, 1, 1), (8, 2, 1)]) up) ∧
    Accepted timeLtcCard 0 (given 0x1005 (params 8 [(2, 1, 255)]) up) ∧
    Accepted timeServeCard 0 (given 0x1007 (params 4 [(0, 1, 1), (2, 2, 0x400)]) up) ∧
    Accepted timeStatusCard 0 (given 0x1006 (params 4 [(0, 1, 1)]) up) ∧
    Accepted audChannelCard 0 (given 0x0F03 (params 8 [(0, 1, 31), (1, 1, 1), (4, 4, 0xffffff)]) up) ∧
    Accepted audSlotsCard 0 (given 0x0F04 (params 12 [(4, 1, 255), (5, 1, 255), (6, 1, 255), (7, 1, 255), (8, 1, 255),
      (9, 1, 255), (10, 1, 255), (11, 1, 255)])
      { up with aud.ports := modAt up.aud.ports 0 fun p => { p with dir := 1, fmt := 2 } }) ∧
    Accepted timeDomainCard 0 (given 0x1001 (params 20 [(1, 1, 4), (12, 4, 100), (16, 4, 10)]) up) := by
  refine ⟨?_, ?_, ?_, ?_, ?_, ?_, ?_, ?_, ?_, ?_, ?_, ?_, ?_, ?_⟩ <;> decide +kernel

theorem test_accepts_ManagementCommands :
    Accepted thermConfigCard 0 (given 0x1201 (params 12 [(0, 4, 0x4e20), (4, 2, 0x640), (6, 2, 0x690)]) up) ∧
    Accepted thermStatusCard 0 (given 0x1202 (params 4 [(0, 1, 1)]) up) ∧
    Accepted calConfigCard 0 (given 0x1203 (params 16 [(0, 1, 8), (1, 1, 63), (4, 2, 100), (6, 2, 100), (8, 2, 100),
      (10, 2, 100), (12, 2, 100), (14, 2, 100)]) up) ∧
    Accepted calRunCard 0 (given 0x1204 (params 4 [(0, 1, 1)]) (updClass up 0 fun x =>
      { x with nextEnabled := true })) ∧
    Accepted calStatusCard 0 (given 0x1205 (params 4 [(0, 1, 1)]) up) ∧
    Accepted brStatusCard 0 (given 0x1301 (params 4 []) up) ∧
    Accepted brPolicyCard 0 (given 0x1302 (params 0 []) up) ∧
    Accepted pwrUnitResetCard 0 (given 0x1402 (params 4 [(0, 1, 2)]) up) ∧
    Accepted fwActivateCard 0 (given 0x1411 (params 4 [(0, 4, 7)])
      { up with pwr.stagedSlot := some 1, pwr.slots := [{}, { valid := true, build := 7 }] }) ∧
    Accepted fwStatusCard 0 (given 0x1412 (params 0 []) up) ∧
    Accepted spareStatusCard 0 (given 0x1501 (params 4 [(0, 1, 1)]) up) ∧
    Accepted spareLedgerCard 0 (given 0x1502 (params 8 [(4, 1, 14)])
      { up with spare.ledger := [⟨1, 0, 0, 0, 0, 0, 0, 0⟩] }) ∧
    Accepted spareReturnCard 0 (given 0x1503 (params 4 [(0, 1, 1)])
      { up with img.sched.engines := modAt up.img.sched.engines 0 fun e => { e with failed := true } }) ∧
    Accepted pwrStateCard 0 (given 0x1401 (params 12 [(1, 1, 255)]) { up with pwr.state := .standby }) ∧
    Accepted pwrStateCard 0 (given 0x1401 (params 12 [(0, 1, 1), (1, 1, 31)]) up) := by
  refine ⟨?_, ?_, ?_, ?_, ?_, ?_, ?_, ?_, ?_, ?_, ?_, ?_, ?_, ?_, ?_⟩ <;> decide +kernel


/-- Sensor 0 with a tap or RND0 slot asked for, rendition 1 bound to it or none. -/
def aTapReq : List Byte := params 12 [(1, 1, 1), (2, 1, 1), (3, 1, 1)]
/-- A root port with a write that a power-loss response keeps from admission. -/
def withheld (s : State) : State := { s with gate.stopped := some 0, gate.writes := [{ aWrite with blk := 512 }] }
/-- Ethernet port 0 of the device up, with its lane. -/
def ethUp : State := { up with out.eth := [{ up := true, link := true }, {}] }
/-- A panel on, at line 3 of 240. -/
def scanning3 : State := { up with disp := {
  enabled := true, configured := true, line := some 3
  cfg := dispCfgOf (params 0x20 [(0, 1, 1), (1, 1, 1), (2, 1, 4), (4, 2, 0x1c2), (8, 2, 0x140), (10, 2, 240), (12, 2, 0x190), (14, 2, 0x104), (16, 2, 8), (18, 2, 8), (20, 1, 2), (21, 1, 2), (22, 2, 1), (24, 4, 30)]) } }
/-- Port 0 in, of 8 slots, at work; with a slot change that waits or none. -/
def slotting (w : Option SlotsWait) : State := { up with
  aud.running := [false, false, true, false, false]
  aud.ports := modAt up.aud.ports 0 fun p => { p with dir := 1, fmt := 2, wait := w } }
/-- Channel 31 (a serial port's) of a unit at work, with a gain that waits or none. -/
def fading (w : Option GainWait) : State := { up with
  aud.running := [true, true, true, true, true], aud.chans := modAt up.aud.chans 31 fun c => { c with wait := w } }

theorem test_accepts_with_buffers :
    (let s := given 0x0701 (params 4 [(1, 1, 1), (3, 1, 2)]) (cam id)
     Accepted rnd0OutputCard 0 s ∧ (rnd0Asked (slotBody s 0)).isSome = true ∧ (sensorOf s 0).cfg = some smallCfg) ∧
    (let s := given 0x0702 (params 12 [(0, 1, 1), (1, 1, 0), (2, 1, 1), (3, 1, 2), (4, 1, 1), (5, 1, 2), (8, 2, 64),
      (10, 2, 32)]) (cam id)
     Accepted rndBindCard 0 s ∧ fld (slotBody s 0) 1 1 ≠ 0xFF) ∧
    (let s := given 0x0710 aTapReq (cam id)
     Accepted tapConfigCard 0 s ∧ (tapAsked (slotBody s 0)).isSome = true ∧ (sensorOf s 0).cfg = some smallCfg) := by
  refine ⟨⟨?_, ?_, ?_⟩, ⟨?_, ?_⟩, ⟨?_, ?_, ?_⟩⟩ <;> decide +kernel

theorem test_accepts_gate_waits :
    (gateWaits volFormatCard (given 0x0904 (params 20 []) portUp) 0 = false) ∧
    (gateWaits (gateDriveCard (some ⟨4, 4, 12, 65536⟩)) (given 0x0A02 (params 8 [(1, 1, 1), (4, 4, 0x100)]) rpLanesUp) 0
      = false) ∧
    (gateWaits (gateDriveCard none) (given 0x0A02 (params 8 []) up) 0 = false) ∧
    (gateWaits gateServiceCard (given 0x0A03 (params 4 [(1, 1, 1)]) portUp) 0 = false) ∧
    (gateWaits gateServiceCard (given 0x0A03 (params 4 []) (updGatePort portUp 0 fun p => { p with state := 3 })) 0 = false) ∧
    (gateWaits volFormatCard (given 0x0904 (params 20 []) (withheld portUp)) 0 = true) ∧
    (gateWaits (gateDriveCard none) (given 0x0A02 (params 8 []) (withheld portUp)) 0 = true) ∧
    (gateWaits gateServiceCard (given 0x0A03 (params 4 [(1, 1, 1)]) (withheld portUp)) 0 = true) := by
  refine ⟨?_, ?_, ?_, ?_, ?_, ?_, ?_, ?_⟩ <;> decide +kernel

theorem test_accepts_running_units :
    (let s := given 0x0D02 (params 68 [(0, 1, 7), (1, 1, 1), (2, 1, 2), (4, 1, 1), (5, 1, 96), (0x1C, 4, 1)]) ethUp
     Accepted out2110Card 0 s ∧ fld (slotBody s 0) 1 1 = 1) ∧
    (let s := given 0x0E04 (params 9 [(0, 1, 1), (4, 2, 1)]) scanning3
     Accepted (dispDcsCard ⟨0, 0, []⟩ ⟨0, 0, []⟩) 0 s ∧ s.disp.enabled = true ∧ s.disp.line = some 3 ∧
      ¬ s.disp.cfg.vActive ≤ 3) ∧
    (let s := given 0x0E04 (params 9 [(0, 1, 1), (4, 2, 1)]) { scanning3 with disp.line := some 240 }
     Accepted (dispDcsCard ⟨0, 0, []⟩ ⟨0, 0, []⟩) 0 s ∧ s.disp.enabled = true ∧ s.disp.line = some 240 ∧
      s.disp.cfg.vActive ≤ 240 ∧ linesLast s.disp.cfg (dispTotal s - 240) (s.time.c.toNat - s.disp.lineAt)
        (dcsTenths (slotBody s 0)) = true) ∧
    (∀ w, w ∈ [none, some (⟨0, false, 255⟩ : GainWait)] →
      let s := given 0x0F03 (params 8 [(0, 1, 31), (1, 1, 1), (4, 4, 0xffffff)]) (fading w)
      Accepted audChannelCard 0 s ∧ unitRuns s (unitOf (fld (slotBody s 0) 0 1)) = true ∧ (audChan s 31).wait = w) ∧
    (∀ w, w ∈ [none, some ({ mask := 1, route := [], waits := [8] } : SlotsWait)] →
      let s := given 0x0F04 (params 12 [(4, 1, 255), (5, 1, 255), (6, 1, 255), (7, 1, 255), (8, 1, 255),
        (9, 1, 255), (10, 1, 255), (11, 1, 255)]) (slotting w)
      Accepted audSlotsCard 0 s ∧ unitRuns s 2 = true ∧ (audPort s 0).wait = w) := by
  refine ⟨⟨?_, ?_⟩, ⟨?_, ?_, ?_, ?_⟩, ⟨?_, ?_, ?_, ?_, ?_⟩, ?_, ?_⟩ <;> decide +kernel

/-- TIME_SYNC for a sync output of 1,080 lines at 25 frames a second. -/
def syncingOut (s : State) : State := given 0x1004 (params 16 [(0, 1, 1), (1, 1, 3), (4, 4, 25), (8, 2, 1)]) s
/-- The device with the settings of that command. -/
def syncSet (s : State) : State := { s with
  time.syncIn := { s.time.syncIn with enable := true }
  time.syncOutStd := 3, time.syncOutFpsNum := 25, time.syncOutFpsDen := 1 }
/-- Class S on domain 0, which follows PTP. -/
def onPtp : State := { updDom up 0 fun d => { d with source := .ptp } with time.viewS.base := some 0 }

theorem test_accepts_timeSync :
    (Accepted timeSyncCard 0 (syncingOut up) ∧ fld (slotBody (syncingOut up) 0) 1 1 ≠ 0 ∧
      baseAligned (syncSet up) = false) ∧
    (Accepted timeSyncCard 0 (syncingOut onPtp) ∧ baseAligned (syncSet onPtp) = true ∧
      (consumerRate (syncSet onPtp) 13).1 ≠ 0) := by
  refine ⟨⟨?_, ?_, ?_⟩, ⟨?_, ?_, ?_⟩⟩ <;> decide +kernel

theorem test_accepts_flows :
    (let s := given 0x1001 (params 20 [(1, 1, 2), (8, 2, 1), (12, 4, 100), (16, 4, 10)]) onRing
     Accepted timeDomainCard 0 s ∧ fld (slotBody s 0) 1 1 = 2) ∧
    (let f := aFlow 1 2 true
     let s := given 0x0C14 (params 4 [(0, 2, 1), (2, 1, 1)]) (flowing f)
     Accepted flowStatusCard 0 s ∧ flowOf s 1 = some f ∧ f.kind ≤ 4) := by
  refine ⟨⟨?_, ?_⟩, ⟨?_, ?_, ?_⟩⟩ <;> decide +kernel
/-- FE_LIN_LOAD of sensor 0 with the table at 0x100000, where all of memory reads 0. -/
def loading : State := given 0x0501 (params 12 [(4, 8, 0x100000)]) (cam id)

/-- A table of zeros has no bad word and falls nowhere. -/
theorem test_zero_table (n : Nat) : badWord (List.replicate n 0) (2 ^ 24 ≤ ·) 0x0103 4 = none ∧
    firstFall (List.replicate n 0) = none := by
  have e : ∀ i, (List.replicate n (0 : Nat)).getD i 0 = 0 := by
    intro i; simp only [List.getD_eq_getElem?_getD, List.getElem?_replicate]; split <;> rfl
  have l : F24.lt 0 0 = false := by decide +kernel
  constructor
  · unfold badWord
    rw [List.find?_eq_none.2 (fun i _ => by rw [e]; decide)]; rfl
  · unfold firstFall
    exact List.find?_eq_none.2 (fun i _ => by rw [e, e, l]; simp)

theorem test_linWords : linWords (slotBody loading 0) loading = List.replicate 4096 0 := by
  have d : loading.dram = [] := rfl
  have h : ∀ n a, (List.range n).map (fun i => memLE [] (a + 4 * i) 4) = List.replicate n 0 := fun n a =>
    List.ext_getElem (by simp) fun i _ _ => by simp [memLE, memBytes, memGet, leNat]
  unfold linWords tableWords
  rw [d]
  exact h 4096 _

theorem test_accepts_feLinLoad : Accepted feLinLoadCard 0 loading := by
  refine ⟨by decide +kernel, ?_⟩
  simp only [cardChecks, feLinLoadCard, test_linWords, (test_zero_table 4096).1, (test_zero_table 4096).2]
  decide +kernel

theorem test_formatted_disk : (gatePort formatted 0).disk =
    memPutBytes [] 0 (superBytes { volId := 1, generation := 1, units := 61 } 65536 0) := by
  unfold formatted updGatePort gatePort modAt
  generalize superBytes { volId := 1, generation := 1, units := 61 } 65536 0 = b
  rfl

/-- REC_VOL_MOUNT of the formatted volume, as it is or with a write that may not be admitted. -/
def mounting (f : State → State) : State := given 0x0905 (params 4 []) (f formatted)

theorem test_formatted (f : State → State) (g : (mounting f).gate.ports = formatted.gate.ports)
    (w : ∀ w ∈ (mounting f).gate.writes, targetIndex w.targets 0 = none) : superValid (mounting f) 0 = true := by
  refine superValid_written _ 0 [] { volId := 1, generation := 1, units := 61 } 65536 0 rfl ?_ w
  unfold gatePort; rw [g]; exact test_formatted_disk

theorem test_accepts_volMount :
    (Accepted volMountCard 0 (mounting id) ∧ gateWaits volMountCard (mounting id) 0 = false) ∧
    gateWaits volMountCard (mounting withheld) 0 = true := by
  have h1 : superValid (mounting id) 0 = true := test_formatted id rfl (fun _ h => by cases h)
  have h2 : superValid (mounting withheld) 0 = true := test_formatted withheld rfl (by decide +kernel)
  have e1 : fld (slotBody (mounting id) 0) 0 1 = 0 := by decide +kernel
  have e2 : fld (slotBody (mounting withheld) 0) 0 1 = 0 := by decide +kernel
  have c1 : cardChecks volMountCard 0 (mounting id) = none := by
    simp only [cardChecks, volMountCard, e1, h1]
    decide +kernel
  have c2 : cardChecks volMountCard 0 (mounting withheld) = none := by
    simp only [cardChecks, volMountCard, e2, h2]
    decide +kernel
  refine ⟨⟨⟨by decide +kernel, c1⟩, ?_⟩, ?_⟩
  · simp only [gateWaits, c1, e1]; decide +kernel
  · simp only [gateWaits, c2, e2]; decide +kernel

/-- The 48 bytes of a number, most significant first. -/
def big (v : Nat) : List Byte := beBytes 48 v
/-- A signed image with an empty body: level 3, version 3.4.1, build 1, counter 0. -/
def image : List Byte :=
  leBytes 4 0x474D4946 ++ [3, 4, 1, 0] ++ leBytes 4 1 ++ zeros 20 ++
  big 0x38b060a751ac96384cd9327eb1b1e36a21fdb71114be07434c0cc7bf63f6e1da274edebfe76f65fbd51ad2f14898b95b ++
  big 0xbfd152465458e5b9f1a903eafef03095ebfd52c5f9ea97be74de9194355fcfb40ec097315adf6afdefba21f44b625b48 ++
  big 0x17058eff9a1ad175a4675e9c730cb028ec76aec544f7a56d58164d8cfc0402b489c4e74c918dc3a77f5c219d31b8e245 ++
  big 0xc6684e4a1f195a09dc42ff8a3744597fd6f5cb9558e09d7e169bcdc7ebbb01876cf0839e2f46230a77ba360d4efc3295 ++
  big 0xca895779cb91258eefa7db789ffa29a987878d516d7371d3a182e0c8c2bb7728bae44f03497dcc3f9642a3f3743d51cc
/-- The device with the key's hash in its fuses and the image at address 0. -/
def holding : State := { up with
  fuse.fwKeyHash := big 0x2b8bbb93f96a511bfc15475cab001a884d51afca0bd0c9378b98b1543bb5b25639b68072717a667a66a3f53dd2c0ba7c
  dram := (image.zipIdx.map fun x => (x.2, x.1)).filter fun x => x.2 != 0 }

/-- With a controller that knows no parameter; the signature is a vector computed from FIPS 186-4 for this test. -/
theorem test_accepts_fwStage (h : Config.profileParams = []) :
    Accepted fwStageCard 0 (given 0x1410 (params 16 [(8, 4, 0x200)]) holding) := by
  refine ⟨by decide +kernel, ?_⟩
  unfold cardChecks fwStageCard profileValid
  simp only [h]
  decide +kernel

/-! ## Ill-formed commands: one for each check of `Instr.wellFormed` -/

/-- A control frame whose extra part is a byte too long. -/
def longControl : Control := { aControl with extra := zeros 17 }

theorem test_ill_formed :
    (Instr.laneStatus 0 [] 0 0).wellFormed = false ∧
    (Instr.dispDcs 0 ⟨0, 0, zeros 65⟩ ⟨0, 0, []⟩).wellFormed = false ∧
    (Instr.dispDcs 0 ⟨0, 0, []⟩ ⟨0, 0, zeros 65⟩).wellFormed = false ∧
    (Instr.registerWrite .pcie 0 []).wellFormed = false ∧ (Instr.registerWrite .pcie 0 (zeros 9)).wellFormed = false ∧
    (Instr.registerWrite .pcie 0x1FFFFF (zeros 2)).wellFormed = false ∧
    (Instr.bar2Access 0xFFFFFFFF (.read 2) .clean).wellFormed = false ∧
    (Instr.bar2Access 0xFFFFFFFF (.write [1, 2]) .clean).wellFormed = false ∧
    (Instr.qspiTransaction 0x0B 0 [] (2 ^ 31 + 1)).wellFormed = false ∧
    (Instr.coldPowerOn true true false false []).wellFormed = false ∧
    (Instr.bootReady { report with codes := [] }).wellFormed = false ∧
    (Instr.bootReady { report with channels := [] }).wellFormed = false ∧
    (Instr.bootReady { report with lacks := [0x10000] }).wellFormed = false ∧
    (Instr.powerStateExitDone 0 ⟨[], []⟩).wellFormed = false ∧ (Instr.fwActivationDone [0x10000]).wellFormed = false ∧
    (Instr.frameStart 0 (.link (zeros 19))).wellFormed = false ∧ (Instr.frameEnd 0 (.link [])).wellFormed = false ∧
    (Instr.linePacket 0 (.link [])).wellFormed = false ∧ (Instr.embeddedPacket 0 (.link [])).wellFormed = false ∧
    (Instr.busXferDone 0 0 257 []).wellFormed = false ∧ (Instr.busXferDone 0 0 0 (zeros 257)).wellFormed = false ∧
    (Instr.metaPollDone 0 0 (zeros 49)).wellFormed = false ∧
    (Instr.milestoneMarker 0 (zeros 7) 0 0 false true).wellFormed = false ∧
    (Instr.flitReceived 0 (zeros 63)).wellFormed = false ∧
    (Instr.openFrame longControl).wellFormed = false ∧ (Instr.acceptFrame longControl).wellFormed = false ∧
    (Instr.confirmFrame longControl).wellFormed = false ∧ (Instr.nackFrame longControl).wellFormed = false ∧
    (Instr.closeFrame longControl).wellFormed = false ∧ (Instr.closedFrame longControl).wellFormed = false ∧
    (Instr.audioFrame 0 (List.replicate 9 0) false).wellFormed = false ∧ (Instr.calMeasure 0 0 []).wellFormed = false ∧
    (Instr.calMeasure 0 0 (List.replicate 5 (0, 0))).wellFormed = false := by decide +kernel

theorem test_ill_formed_long (p : List Byte) (q : List (BitVec 16)) (h : p.length = 4097) (k : q.length = 65536) :
    (Instr.frameStart 0 (.csi .good 0 0 0 q true)).wellFormed = false ∧
    (Instr.flowDataFrame 0 0 0 0 p false).wellFormed = false := by
  simp [Instr.wellFormed, Packet.wellFormed, h, k]

theorem test_ill_formed_qspi (d : List Byte) (h : d.length = 2 ^ 31 + 1) :
    (Instr.qspiTransaction 0x02 0 d 0).wellFormed = false := by
  simp [Instr.wellFormed, h]

/-- No row gives bits, so no word spells a command. -/
theorem test_decode_none : decodeTableWord 16 0x0101 = none ∧ up.withFetchWord 16 0x0101 = up := ⟨rfl, rfl⟩

/-! ## Behaviour

The expected values come from the manual's worked examples and tables, or from the published check values of the codes it
names. -/

/-- CRC-32C and CRC-8 of "123456789" (their published check values; R93, R365). -/
theorem test_crc : crc32c [0x31, 0x32, 0x33, 0x34, 0x35, 0x36, 0x37, 0x38, 0x39] = 0xE3069283 ∧
    crc8 [0x31, 0x32, 0x33, 0x34, 0x35, 0x36, 0x37, 0x38, 0x39] = 0xF4 := by decide +kernel

/-- SHA-384 of "abc" (FIPS 180-4). -/
theorem test_sha384 : sha384 [0x61, 0x62, 0x63] = beBytes 48
    0xcb00753f45a35e8bb5a03d699ac65007272c32ab0eded1631a8b605a43ff5bed8086072ba1e7cc2358baeca134c825a7 := by
  decide +kernel

/-- R123: 12,288 columns are six stripes of 2,048. -/
theorem test_stripes : stripeCount { smallCfg with width := 12288 } = 6 ∧
    stripeWidth { smallCfg with width := 12288 } 5 = 2048 := by decide

/-- Chapter 16, worked example: from position 20 of a ring of 32 to position 0, 12 hops one way and 20 the other. -/
theorem test_hops : cwHops ⟨5, 20, 32, 0, 1, 0⟩ 0 = 12 ∧ ccwHops ⟨5, 20, 32, 0, 1, 0⟩ 0 = 20 ∧
    portToward ⟨5, 20, 32, 0, 1, 0⟩ 0 = some 0 := by decide

/-- Chapter 17, worked example: a line of 3,840 pixels of layout 0 is 9,600 bytes in 8 packets. -/
theorem test_lines : lineBytes 0 3840 = 9600 ∧ linePackets 0 3840 = 8 := by decide

/-- Chapter 3, worked example: slot 3 is at 0x0001_0600 of BAR0. -/
theorem test_slot : 0x10000 + slotAddr 3 = 0x10600 := by decide

/-- R56: a slot taken with a value that is not its sequence number is answered with E_SEQUENCE (0x010A). -/
theorem test_doorbell :
    let t := earlyReject { up with mbx.db := up.mbx.db.setIfInBounds 3 7 } 3
    slotStatus t 3 = 0x010A ∧ t.mbx.done.getLsbD 3 = true ∧ slotField t 3 0x10 2 = 0xFF02 := by decide +kernel

/-- R86: the record that brings a queue to its watermark of 768 sets wm_hit, and in a full queue the oldest is lost for it. -/
theorem test_watermark : (Queue.post { recs := List.replicate 767 {}, wm := 768, rearm := true } {}).wmHit = true ∧
    (Queue.post { recs := List.replicate 1024 {} } {}).lost = 1 := by decide +kernel

/-- R44: bytes written through BAR2 are read back, and a byte of memory that nothing has written reads 0 (log entry 13). -/
theorem test_bar2 : (match exec (.bar2Access 6 (.write [1, 2, 3]) .clean) up with
    | .next t => (match exec (.bar2Access 5 (.read 4) .clean) t with
      | .next u => u.host.readData == [0, 1, 2, 3]
      | _ => false)
    | _ => false) = true := by decide +kernel

/-- R551: VDD_CORE below 94 % of its nominal value sets leaf 0 of the Bedrock causes. -/
theorem test_rail : (match exec (.railUndervoltage 0 (BitVec.ofNat 16 (railLow 0 - 1))) up with
    | .next t => t.br.ploss && (t.br.rails.getD 0 {}).low
    | _ => false) = true := by decide +kernel

end Sys2Proof.Tests.Slice0
end

section
/-! PROOFS. The scope of the machine (00_scope.md): every addressed store is canonical at reset and after every step, and a
mailbox row that is refused or out of turn does what its card says and nothing else. -/

namespace Sys2Proof.Machine

/-! ## Canonical stores -/

/-- At reset every store is empty. -/
theorem canonical_reset : Canonical State.reset where
  dram := Mem.wf_nil
  slots := Mem.wf_nil
  gate := ⟨fun _ hp => List.eq_of_mem_replicate hp ▸ Mem.wf_nil, Mem.wf_nil⟩
  gens := Mem.wf_nil

theorem Keeps.canonical {k : Nat} {s t : State} (h : Keeps k s t) (hs : Canonical s) : Canonical t :=
  ⟨h.dram hs.dram, h.slots hs.slots, h.gate hs.gate, h.gens hs.gens⟩

theorem keeps_pipeTick (s : State) : Keeps 1 s (pipeTick s) :=
  .ite ⟨rfl, rfl, rfl, fun _ => ⟨rfl, rfl⟩, fun h => absurd h (by decide), id, id, id, id⟩ (.refl 1 s)

/-- The step of an empty queue keeps all but the count C. -/
theorem keeps_idleStep (s : State) : Keeps 1 s (answerUnassigned (pipeTick s)) :=
  keeps_answerUnassigned (keeps_pipeTick s)

theorem canonical_withPending {s : State} (l : List Instr) (hs : Canonical s) : Canonical { s with pending := l } :=
  ⟨hs.dram, hs.slots, hs.gate, hs.gens⟩

theorem canonical_exec {i : Instr} {s t : State} (hs : Canonical s) (h : exec i s = .next t) : Canonical t := by
  obtain ⟨u, hu, hk⟩ := keeps_exec i s
  obtain rfl : u = t := Host.Outcome.next.inj (hu.symm.trans h)
  exact hk.canonical hs

theorem canonical_step {s t : State} (hs : Canonical s) (h : step s = .next t) : Canonical t := by
  unfold step at h
  split at h
  next => exact Host.Outcome.next.inj h ▸ (keeps_idleStep s).canonical hs
  next c rest _ => exact canonical_exec (canonical_withPending rest hs) h

/-! ## Commands that are refused or out of turn -/

/-- The outcome `o` of slot n's command in state s, as far as its card decides it before the effect: the first failed check
of R66 is the whole outcome, and out of turn nothing happens. -/
structure RefusedByCard (c : Card) (n : Nat) (s : State) (o : Host.Outcome State Fault Refusal) : Prop where
  reject : ∀ r, mbxTurn s c.opcode n = true → cardChecks c n s = some r → o = .next (mbxReject s n r)
  idle : mbxTurn s c.opcode n = false → o = .next s

theorem refusedByCard_mbxRun (c : Card) (n : Nat) (s : State) : RefusedByCard c n s (.next (mbxRun c n s)) where
  reject _ ht hr := congrArg _ (mbxRun_reject ht hr)
  idle ht := congrArg _ (mbxRun_idle ht)

/-- A refused command of the Gate does not wait for held writes (R337, R353). -/
theorem gateWaits_of_refused {c : Card} {s : State} {n : Nat} {r : Rej} (h : cardChecks c n s = some r) :
    gateWaits c s n = false := by simp [gateWaits, h]

theorem refusedByCard_gated (c : Card) (n : Nat) (s : State) :
    RefusedByCard c n s (.next (if gateWaits c s n then s else mbxRun c n s)) where
  reject _ ht hr := by simp [gateWaits_of_refused hr, mbxRun_reject ht hr]
  idle ht := by simp [mbxRun_idle ht]

/-- SYS_RESET runs under its card until it is accepted. -/
theorem refusedByCard_sysReset (n : Fin 40) (s : State) : RefusedByCard sysResetCard n s (execSysReset n s) where
  reject _ ht hr := by
    have ht' : mbxTurn s 0x0102 n = true := ht
    simp [execSysReset, ht', hr]
  idle ht := by
    have ht' : mbxTurn s 0x0102 n = false := ht
    simp [execSysReset, ht']

/-- Every mailbox row is decided by its card: SYS_RESET and the four commands that can wait for the Gate by lemmas of their
own, and every other one because it is `mbxRun` of its card. A row with no card is no mailbox row. -/
theorem exec_refusedByCard {i : Instr} {n : Fin 40} {c : Card} (h : i.card? = some (n, c)) (s : State) :
    RefusedByCard c n s (exec i s) := by
  cases i with
  | sysReset n => cases h; exact refusedByCard_sysReset n s
  | recVolFormat n => cases h; exact refusedByCard_gated volFormatCard n s
  | recVolMount n => cases h; exact refusedByCard_gated volMountCard n s
  | gateDrive n drive => cases h; exact refusedByCard_gated (gateDriveCard drive) n s
  | gateService n => cases h; exact refusedByCard_gated gateServiceCard n s
  | _ => cases h <;> exact refusedByCard_mbxRun _ _ s

/-! ## The obligations -/

/-- Settles O4: every store is empty at reset. -/
theorem resetIsCanonical : Obligations.ResetIsCanonical := canonical_reset

/-- Settles O5: the idle step and every command keep the stores canonical. -/
theorem storesStayCanonical : Obligations.StoresStayCanonical := fun _ _ => canonical_step

/-- Settles O11: every mailbox row's outcome is decided by its card until it is accepted. -/
theorem refusedCommandsOnlyAnswer : Obligations.RefusedCommandsOnlyAnswer := fun _ _ _ s h =>
  ⟨(exec_refusedByCard h s).reject, (exec_refusedByCard h s).idle⟩

end Sys2Proof.Machine
end

section
/-! PROOFS. The family and its variants (01_family_and_variants.md): every command answers and leaves the fuses alone, a
part without the ring refuses group 0x0C, SYS_IDENTIFY is always accepted, and the system, queue and memory commands do
what their cards say. -/

namespace Sys2Proof.Machine

/-! ## The order of the checks (R66) -/

/-- Every mailbox row's card has an assigned opcode (R629). -/
theorem opcodeAssigned_of_card {i : Instr} {n : Fin 40} {c : Card} (h : i.card? = some (n, c)) :
    opcodeAssigned c.opcode = true := by
  cases i with
  | _ => cases h <;> rfl

/-- Steps 4 to 9 of R66: the length, the flags, and the card's own checks with the one of Standby. -/
def laterChecks (c : Card) (n : Nat) (s : State) : List (Option Rej) :=
  [(c.len (slotLength s n) (slotBody s n)).bind eLength, eRange (8 ≤ slotFlags s n) 0xFF06] ++
    c.fields (slotBody s n) s ++ c.seq (slotBody s n) s ++
    [eState (s.pwr.state == .standby && !standbyOpcodes.contains c.opcode && !ownStandby.contains c.opcode)] ++
    c.state (slotBody s n) s ++ c.res (slotBody s n) s

theorem firstRej_none (l : List (Option Rej)) : firstRej (none :: l) = firstRej l := rfl

/-- Firmware comes to step 3 of R66 for a command: it was rung with its sequence number (R55), its opcode is assigned, and
the running firmware implements it. -/
structure ReachesVariantCheck (c : Card) (n : Nat) (s : State) : Prop where
  rung : s.mbx.db.getD n 0 = slotSequence s n
  assigned : opcodeAssigned c.opcode = true
  implemented : s.pwr.fwLacks.contains c.opcode = false

/-- What is left of the checks at step 3: the part's variant, then the later steps. -/
theorem ReachesVariantCheck.cardChecks_eq {c : Card} {n : Nat} {s : State} (h : ReachesVariantCheck c n s) :
    cardChecks c n s = firstRej (eVariant (ringOnly c.opcode && !s.fuse.ring) 0xFF00 :: laterChecks c n s) := by
  have hr : doorbellCheck s n = none := by simp [doorbellCheck, rejIf, h.rung]
  have ho : opcodeChecks s c.opcode = [none, none, eVariant (ringOnly c.opcode && !s.fuse.ring) 0xFF00] := by
    rw [opcodeChecks, h.assigned, h.implemented]
    rfl
  simp only [cardChecks, hr, ho, laterChecks, List.cons_append, List.nil_append, List.append_assoc, firstRej_none]

/-- A part without the ring refuses a command of the ring at step 3, before it looks at the parameters. -/
theorem ReachesVariantCheck.refused {c : Card} {n : Nat} {s : State} (h : ReachesVariantCheck c n s)
    (hc : ringOnly c.opcode = true) (hs : s.fuse.ring = false) : cardChecks c n s = some ⟨0x0107, 0xFF00, 0⟩ := by
  rw [h.cardChecks_eq, hc, hs]
  rfl

/-- A command that every part has comes to the later steps. -/
theorem ReachesVariantCheck.passed {c : Card} {n : Nat} {s : State} (h : ReachesVariantCheck c n s)
    (hc : ringOnly c.opcode = false) : cardChecks c n s = firstRej (laterChecks c n s) := by
  rw [h.cardChecks_eq, hc]
  rfl

theorem ringOnly_of_group {op : Nat} (h : op / 256 = 0x0C) : ringOnly op = true := by simp [ringOnly, h]

/-! ## Accepted commands -/

/-- SYS_IDENTIFY has no checks but those of its length and flags, and is a command of Standby too. -/
theorem laterChecks_sysIdentify {n : Nat} {s : State} (hl : slotLength s n = 0) (hf : slotFlags s n < 8) :
    firstRej (laterChecks sysIdentifyCard n s) = none := by
  have hlen : (sysIdentifyCard.len (slotLength s n) (slotBody s n)).bind eLength = none := by rw [hl]; rfl
  have hflags : eRange (8 ≤ slotFlags s n) 0xFF06 = none := by simp [eRange, rejIf, hf]
  have hstandby : eState (s.pwr.state == .standby && !standbyOpcodes.contains sysIdentifyCard.opcode &&
      !ownStandby.contains sysIdentifyCard.opcode) = none := by simp [eState, rejIf, standbyOpcodes, sysIdentifyCard]
  unfold laterChecks
  rw [hlen, hflags, hstandby]
  rfl

theorem accepted_sysIdentify {n : Nat} {s : State} (ht : mbxTurn s 0x0101 n = true) (hl : slotLength s n = 0)
    (hf : slotFlags s n < 8) (hd : s.mbx.db.getD n 0 = slotSequence s n) (hi : s.pwr.fwLacks.contains 0x0101 = false) :
    Accepted sysIdentifyCard n s := by
  have h : ReachesVariantCheck sysIdentifyCard n s := ⟨hd, rfl, hi⟩
  exact ⟨ht, (h.passed rfl).trans (laterChecks_sysIdentify hl hf)⟩

/-- A row that is run under its card yields what the card's effect gives at once. -/
theorem yields_of_effect {c : Card} {i : Instr} {n : Fin 40} {x : Body → State → State}
    {resp : Body → State → List Byte} (hi : ∀ s, exec i s = .next (mbxRun c n s))
    (he : ∀ b s, c.effect n b s = (x b s, .now (resp b s))) : Yields c i n x resp := fun s h =>
  (hi s).trans (congrArg _ (mbxRun_now h (he _ s)))

/-- SYS_RESET discards itself: the soft reset is all of its effect (R68, R568). -/
theorem exec_sysReset_accepted {n : Fin 40} {s : State} (h : Accepted sysResetCard n s) :
    exec (.sysReset n) s = .next (softReset .soft s) := by
  obtain ⟨ht, hc⟩ := h
  have ht' : mbxTurn s 0x0102 n = true := ht
  show execSysReset n s = _
  simp [execSysReset, ht', hc]

/-! ## The obligations -/

/-- Settles O6: every command keeps the queue, the fuses and the flash block, at whatever level of `Keeps` it holds. -/
theorem everyCommandAnswers : Obligations.EveryCommandAnswers := fun i s => by
  obtain ⟨t, ht, hk⟩ := keeps_exec i s
  exact ⟨t, ht, hk.pending, hk.fuse, hk.flash⟩

/-- Settles O13: step 3 of R66 is the first that fails. -/
theorem noRingPartsRefuseGroup0C : Obligations.NoRingPartsRefuseGroup0C := fun _ n c s hc hg hs hi ht hd =>
  have h : ReachesVariantCheck c n s := ⟨hd, opcodeAssigned_of_card hc, hi⟩
  (exec_refusedByCard hc s).reject _ ht (h.refused (ringOnly_of_group hg) hs)

/-- SYS_IDENTIFY changes no state but its slot's answer (R19). -/
theorem yields_sysIdentify (n : Fin 40) :
    Yields sysIdentifyCard (.sysIdentify n) n (fun _ s => s) (fun _ s => identifyBytes s) :=
  yields_of_effect (fun _ => rfl) fun _ _ => rfl

/-- Settles O60: no check of R66 that is left can refuse it. -/
theorem identifyAlways : Obligations.IdentifyAlways := fun n s ht hl hf hd hi =>
  yields_sysIdentify n s (accepted_sysIdentify ht hl hf hd hi)

/-- Settles O15: each row is run under its card, whose effect is the one stated; SYS_RESET has its own lemma. -/
theorem systemCommands : Obligations.SystemCommands := by
  refine ⟨yields_sysIdentify, ?gpio, ?tally, ?evqConfig, ?evqRoute, ?evqReset, ?memStatus, ?memAperture, ?memKeep,
    fun _ _ => exec_sysReset_accepted⟩
  all_goals exact fun n => yields_of_effect (fun _ => rfl) fun _ _ => rfl

end Sys2Proof.Machine
end

section
/-! PROOFS. The device anatomy (02_device_anatomy.md): the reference inputs are lost, relocked, qualified and given up
as R32, R33 and R494 say, and a sensor's packets, timeouts, links and slots act as R28 and R107 to R112 say. -/

namespace Sys2Proof.Machine

/-! ## The reference inputs (R32, R33, R494) -/

/-- The input in use is lost while the other one is good: holdover, and the PLL turns to the other input (R33). -/
theorem exec_refclkLost_selected {s : State} (hl : s.clk.rootLock = true) (hr : s.clk.refSel = false)
    (ha : s.clk.altOk = true) : exec (.refclkLost false) s = .next { s with clk := { s.clk with
      refclkOk := false, rootLock := false, holdover := true, holdoverAt := some s.time.c.toNat, lostSel := false
      lostInBoot := fullBoot s, refSel := true } } := by
  change execRefclkLost false s = _
  simp [execRefclkLost, refOk, hl, hr, ha]

/-- A PLL that locks to another input than the one lost ends holdover, counts the failover and sets its leaf (R33). -/
theorem exec_refclkFailoverDone_other {s : State} (hh : s.clk.holdover = true) (hs : s.clk.stopping = false)
    (hr : refOk s s.clk.refSel = true) (hd : s.clk.refSel ≠ s.clk.lostSel) : exec .refclkFailoverDone s =
      .next (let u := { lockRoot s s.clk.refSel with clk.failovers := sat32 s.clk.failovers 1 }
        bedrockLeaf u 1 0xFF true 0 (sat32 s.clk.failovers 1)) := by
  change execRefclkFailoverDone s = _
  simp [execRefclkFailoverDone, lockRoot, hh, hs, hr, hd]

/-- An input qualifies in a reference hold: the PLL locks to it and the device leaves reset (R494). -/
theorem exec_refclkQualified_held {alt : Bool} {s : State} (hp : s.pwr.powered = true) (hb : s.pwr.booting = none)
    (hh : s.br.hold = some .refStop) : exec (.refclkQualified alt) s = .next (fullReset none (lockRoot { s with
      clk := if alt then { s.clk with altOk := true } else { s.clk with refclkOk := true } } alt)) := by
  change execRefclkQualified alt s = _
  simp [execRefclkQualified, hp, hb, hh]

/-- Holdover ran out with both inputs lost and no other stop under way: the ordered stop begins (R494). -/
theorem exec_refclkStop_begins {s : State} (hs : s.clk.stopping = false) (hh : s.clk.holdover = true)
    (hr : s.clk.refclkOk = false) (ha : s.clk.altOk = false) (hf : s.br.hold = none) (hp : s.br.ploss = false) :
    exec (.refclkStop false) s = .next (refStopBegin s) := by
  change execRefclkStop false s = _
  simp [execRefclkStop, hs, hh, hr, ha, hf, hp]

/-- An ordered stop under way ends (R494). -/
theorem exec_refclkStop_ends {s : State} (hs : s.clk.stopping = true) :
    exec (.refclkStop true) s = .next (refStopEnd s) := by
  change execRefclkStop true s = _
  simp [execRefclkStop, hs]

/-! ## Sensors and their open frames -/

/-- What an update of a sensor leaves in it can be read as before, also where there is no such sensor. -/
theorem sensorOf_updSensor_kept {α : Type} (g : Sensor → α) (s : State) (sn : Nat) (f : Sensor → Sensor)
    (h : ∀ x, g (f x) = g x) : g (sensorOf (updSensor s sn f) sn) = g (sensorOf s sn) := by
  simp only [sensorOf, updSensor, modAt, List.getD_eq_getElem?_getD, List.getElem?_modify_eq]
  cases s.img.sensors[sn]? with
  | none => rfl
  | some x => exact h x

/-- The open frame depends on a sensor's frames alone. -/
theorem openIngest_updSensor_kept (s : State) (sn : Nat) (f : Sensor → Sensor) (h : ∀ x, (f x).frames = x.frames) :
    openIngest (updSensor s sn f) sn = openIngest s sn := by
  simp only [openIngest, sensorOf_updSensor_kept Sensor.frames s sn f h]

theorem openIngest_countCheck (s : State) (sn kind col n : Nat) :
    openIngest (countCheck s sn kind col n) sn = openIngest s sn :=
  openIngest_updSensor_kept s sn _ fun _ => rfl

theorem stopping_updIngest (s : State) (sn seq : Nat) (g : IngestFrame → IngestFrame) :
    (sensorOf (updIngest s sn seq g) sn).stopping = (sensorOf s sn).stopping :=
  sensorOf_updSensor_kept Sensor.stopping s sn _ fun _ => rfl

/-- Nothing closes where no frame is open. -/
theorem closeFrame_none {s : State} {sn : Nat} (h : openIngest s sn = none) (extra : Nat) :
    closeFrame s sn extra = s := by simp [closeFrame, h]

/-- A frame that closes with no mark sets no leaf and counts nothing (R113, R117). -/
theorem closeCounts_unmarked {f : IngestFrame} (h : f.marks = 0) (s : State) (sn : Nat) : closeCounts s sn f = s := by
  simp [closeCounts, h]

/-- A whole frame of a sensor that goes on closes with nothing but its close and the time of it (R109). -/
theorem closeFrame_whole {s : State} {sn : Nat} {f : IngestFrame} (ho : openIngest s sn = some f) (hd : f.drop = none)
    (hf : f.first = false) (hc : closeMarks f = 0) (hm : f.marks = 0) (hs : (sensorOf s sn).stopping = false) :
    closeFrame s sn 0 = updIngest s sn f.seq fun _ => { f with closed := true, closeTime := classS s } := by
  simp [closeFrame, ho, hd, hf, hc, hm, closeCounts_unmarked, stopping_updIngest, hs]

/-! ## Packets (R95, R107, R109, R110) -/

/-- A good packet of the wanted kind, at a sensor that streams on a link that is up, acts at once. -/
theorem packetRow_good {want sn : Nat} {p : Packet} {s : State} {c : SensConfig} {k : Pkt}
    (hc : (sensorOf s sn).cfg = some c) (hs : (sensorOf s sn).streaming = true) (hl : (sensorOf s sn).linkUp = true)
    (hp : parsePacket c p = k) (hg : k.corrected = false) (hk : k.kind = want) (hw : want < 4)
    (act : State → SensConfig → Pkt → State) : packetRow want sn p act s = act s c k := by
  have h4 : want ≠ 4 := by omega
  have h5 : want ≠ 5 := by omega
  have h6 : want ≠ 6 := by omega
  simp [packetRow, hc, hs, hl, hp, hg, hk, h4, h5, h6]

/-- A good Frame Start of exposure 0 is accepted unless the sensor or the device stops (R107, R494). -/
theorem frameStart_accepted {sn : Nat} {s : State} {c : SensConfig} {k : Pkt}
    (he : c.iface = 0 ∨ k.exps.contains 0 = true) (hs : (sensorOf s sn).stopping = false)
    (hr : s.clk.stopping = false) (hb : k.crcBad = false) :
    frameStart sn s c k = cadenceBegin (acceptFs s sn (k.num.getD 0) c) (16 + sn)
      (viewTime s s.time.viewS s.time.c.toNat) := by
  simp only [frameStart]
  rw [if_pos (by simpa using he)]
  simp [hs, hr, hb]

/-- A good Frame End of the open frame closes it on a link of the device's own kind (R109). -/
theorem frameEnd_closes {sn : Nat} {s : State} {c : SensConfig} {k : Pkt} {f : IngestFrame}
    (hf : pktFrame s sn k (c.iface == 0) = some f) (hi : c.iface = 0) (hb : k.crcBad = false) :
    frameEnd sn s c k = closeFrame s sn 0 := by
  simp only [frameEnd, hf]
  simp [hi, hb]

/-- A packet of an exposure of the open frame that has not ended is the frame's own (R109). -/
theorem ownPacket_of_open {sn : Nat} {s : State} {c : SensConfig} {k : Pkt} {f : IngestFrame}
    (hf : pktFrame s sn k (c.iface == 0) = some f) (he : f.ended.getD (pktCol k) false = false)
    (act : State → IngestFrame → Pkt → State) : ownPacket sn act s c k = act s f k := by
  simp only [ownPacket, hf, he]
  rfl

/-! ## Links and slots (R28, R112) -/

/-- A link group that loses lock with no frame open is counted and reported, and no frame closes (R112). -/
theorem linkDown_noFrame {s : State} {sn : Nat} (hc : (sensorOf s sn).cfg.isSome = true)
    (hl : (sensorOf s sn).linkUp = true) (ho : openIngest s sn = none) (link lanes : Nat) : linkDown s sn link lanes =
      linkEvent (updSensor (countCheck s sn 14 3 1) sn fun y => { y with
        linkUp := false, linkLost := true, unlocked := lanes }) sn 0 link lanes 0xFFFFFFFF := by
  have hn : (sensorOf s sn).cfg.isNone = false := by simpa using hc
  have hu : openIngest (updSensor (countCheck s sn 14 3 1) sn fun y => { y with
      linkUp := false, linkLost := true, unlocked := lanes }) sn = none := by
    rw [openIngest_updSensor_kept, openIngest_countCheck, ho]
    exact fun _ => rfl
  simp [linkDown, hn, hl, ho, closeFrame_none hu]

/-- An unlinked configured sensor comes up again (R112). -/
theorem exec_sensorLinkUp_unlinked {x : Fin 4} {s : State} (hc : (sensorOf s x).cfg.isSome = true)
    (hl : (sensorOf s x).linkUp = false) (l : Fin 4) : exec (.sensorLinkUp x l) s = .next (linkCame s x l) := by
  have hn : (sensorOf s x).cfg.isNone = false := by simpa using hc
  change execSensorLinkUp x l s = _
  simp [execSensorLinkUp, hn, hl]

/-- The first frame of a slot that meets R28 leaves it. -/
theorem exec_slotRelease_found {x : Fin 4} {k : Fin 8} {f : IngestFrame} {s : State}
    (h : ((sensorOf s x).frames.find? fun f => f.slot == some k.val && mayRelease s x f) = some f) :
    exec (.slotRelease x k) s = .next (releaseSlot s x f) := by
  change execSlotRelease x k s = _
  simp only [execSlotRelease, h]

/-! ## The obligations -/

/-- Settles O33: one lemma per event; the failover's registers are those the Bedrock leaf leaves. -/
theorem referenceClockEvents : Obligations.ReferenceClockEvents :=
  ⟨fun _ => exec_refclkLost_selected,
    fun _ hh hs hr hd => ⟨_, exec_refclkFailoverDone_other hh hs hr hd, by simp [lockRoot]⟩,
    fun _ _ => exec_refclkQualified_held, fun _ => exec_refclkStop_begins, fun _ => exec_refclkStop_ends⟩

/-- Settles O38: a packet that passes the checks of its row acts by its kind; the other events have their own lemmas. -/
theorem ingestEvents : Obligations.IngestEvents := by
  refine ⟨fun _ _ _ => ⟨rfl, rfl, rfl, rfl⟩, ?packet, ?whole, fun _ _ => ⟨rfl, rfl⟩, ?lost, ?came,
    fun _ _ _ _ => exec_slotRelease_found⟩
  case packet =>
    intro x p c k s hc hs hl hp hg
    have row {want : Nat} (hk : k.kind = want) (hw : want < 4) (act : State → SensConfig → Pkt → State) :
        packetRow want x p act s = act s c k := packetRow_good hc hs hl hp hg hk hw act
    refine ⟨fun hk he hx hr hb => congrArg Host.Outcome.next ?start,
      fun f hk hf hi hb => congrArg Host.Outcome.next ?finish, fun f hk hf he => congrArg Host.Outcome.next ?line,
      fun f hk hf he => congrArg Host.Outcome.next ?embedded⟩
    case start => exact (row hk (by decide) _).trans (frameStart_accepted he hx hr hb)
    case finish => exact (row hk (by decide) _).trans (frameEnd_closes hf hi hb)
    case line => exact (row hk (by decide) _).trans (ownPacket_of_open hf he _)
    case embedded => exact (row hk (by decide) _).trans (ownPacket_of_open hf he _)
  case whole =>
    intro f x s ho hd hf hc hm hs
    have h := closeFrame_whole ho hd hf hc hm hs
    exact ⟨congrArg Host.Outcome.next h, congrArg Host.Outcome.next h⟩
  case lost =>
    intro x l m s
    exact ⟨rfl, fun hc hl ho => congrArg Host.Outcome.next (linkDown_noFrame hc hl ho l m.toNat)⟩
  case came => exact fun x l s hc hl => exec_sensorLinkUp_unlinked hc hl l

end Sys2Proof.Machine
end

section
/-! PROOFS. The host ports and mailboxes (03_host_ports_and_mailboxes.md): what the end of a command answers and leaves
alone, what a doorbell does, what a host write of a register does, what a read of the time base latches, and which bytes
of DRAM the windows reach. -/

namespace Sys2Proof.Machine

/-! ## The end of a command (R57, R59) -/

/-- An interrupt edge changes the count of messages at most. -/
theorem attnEdge_eq (before after : State) : ∃ m, attnEdge before after = { after with attn.msix := m } := by
  unfold attnEdge
  split
  · exact ⟨_, rfl⟩
  · exact ⟨after.attn.msix, rfl⟩

/-- The EV_MBX_DONE record of slot n's command (R59). -/
def doneRecord (s : State) (n status errOff len : Nat) : EvRecord where
  ts := classL s
  code := 0x0100
  source := n
  origin := s.ring.stageAddr
  payload := pad16 (leBytes 2 (slotOpcode s n) ++ leBytes 2 (slotSequence s n) ++ leBytes 2 status ++ leBytes 2 len ++
    leBytes 2 errOff)

/-- All that the end of a command changes: the slot's bytes, who owns it, its done bit, one record unless `no_record` is
set, and the count of messages. -/
theorem mbxFinish_eq (s : State) (n st eo : Nat) (l : List Byte) : ∃ m, mbxFinish s n st eo l = { s with
    mbx := { s.mbx with
      slots := (mbxFinish s n st eo l).mbx.slots
      arrival := s.mbx.arrival.erase n
      started := s.mbx.started.erase n
      heldSlots := s.mbx.heldSlots.erase n
      done := s.mbx.done ||| BitVec.ofNat 40 (2 ^ n) }
    queues := if (slotFlags s n).testBit 2 then s.queues
      else modAt s.queues (slotFlags s n % 4) (·.post (doneRecord s n st eo l.length))
    attn.msix := m } := by
  rw [(mbxFinish_mbx s n st eo l).1]
  unfold mbxFinish
  dsimp only
  split
  next => exact attnEdge_eq _ _
  next =>
    obtain ⟨m, h⟩ := attnEdge_eq (slotWrite (slotWrite (slotWrite s n 16 l) n 0x0A (leBytes 2 l.length)) n 0x08
      (leBytes 2 st)) _
    rw [h]
    exact attnEdge_eq _ _

/-- Settles O9: both ends of a command are `mbxFinish`. -/
theorem completionAnswers : Obligations.CompletionAnswers :=
  ⟨fun _ n _ hs hl => mbxFinish_answered hs.slots n.isLt (by decide) hl,
    fun _ n _ hs hr => mbxFinish_answered hs.slots n.isLt hr (by simp)⟩

/-- Settles O10: what `mbxFinish` changes, field by field. -/
theorem completionFrame : Obligations.CompletionFrame := by
  intro s n resp hs _
  obtain ⟨m, h⟩ := mbxFinish_eq s n 0 0 resp
  refine ⟨fun a ha hb => mbxFinish_outside hs.slots ha hb, congrArg State.mbx h, congrArg State.queues h, ?_⟩
  exact congrArg (fun t : State => { t with mbx := s.mbx, queues := s.queues, attn.msix := s.attn.msix }) h

/-! ## Doorbells (R52, R55, R56, R69) -/

/-- Taking a slot leaves its header up to the status as the host wrote it. -/
theorem slotField_slotTake {s : State} {n v off len : Nat} (hw : Mem.wf s.mbx.slots = true) (h : off + len ≤ 8) :
    slotField (slotTake s n v) n off len = slotField s n off len := by
  have w1 := memPutBytes_wf _ (slotAddr n + 0x08) [0xFF, 0xFF] hw
  have w2 := memPutBytes_wf _ (slotAddr n + 0x0A) (drawBytes s 2).1 w1
  unfold slotField memLE
  change leNat (memBytes (memPutBytes (memPutBytes (memPutBytes s.mbx.slots _ _) _ _) _ _) _ _) = _
  rw [memBytes_memPutBytes_outside _ _ _ _ _ w2 (.inl (by omega)),
    memBytes_memPutBytes_outside _ _ _ _ _ w1 (.inl (by omega)),
    memBytes_memPutBytes_outside _ _ _ _ _ hw (.inl (by omega))]

/-- The doorbell value of a slot that firmware takes is kept (R55). -/
theorem slotTake_db (s : State) (n : Fin 40) (v : Nat) : (slotTake s n v).mbx.db.getD n 0 = v := by
  change (s.mbx.db.setIfInBounds n v).getD n 0 = v
  simp [Vector.getD]

/-- A slot taken while no firmware activates is not held. -/
theorem slotTake_heldSlots {s : State} (h : s.mbx.activating = false) (n v : Nat) :
    (slotTake s n v).mbx.heldSlots = s.mbx.heldSlots := by
  change (if s.mbx.activating then s.mbx.heldSlots ++ [n] else s.mbx.heldSlots) = _
  simp [h]

/-- What is checked at the doorbell itself (log entry 7), in terms of what the host wrote. -/
theorem earlyReject_slotTake {s : State} (hw : Mem.wf s.mbx.slots = true) (n : Fin 40) (v : Nat) :
    earlyReject (slotTake s n v) n =
      if v ≠ slotSequence s n then mbxReject (slotTake s n v) n ⟨0x010A, 0xFF02, 0⟩
      else if opcodeAssigned (slotOpcode s n) = false then mbxReject (slotTake s n v) n ⟨0x0101, 0xFF00, 0⟩
      else slotTake s n v := by
  have hseq : slotSequence (slotTake s n v) n = slotSequence s n := slotField_slotTake hw (by decide)
  have hop : slotOpcode (slotTake s n v) n = slotOpcode s n := slotField_slotTake hw (by decide)
  simp [earlyReject, slotTake_db, hseq, hop]

/-- A doorbell that hands its slot over while no firmware activates. -/
theorem ringDoorbell_hands {s : State} {port : Port} {n v : Nat} (ho : ownsSlot port n = true)
    (hr : s.mbx.ready = true) (hb : s.mbx.arrival.contains n = false) (ha : s.mbx.activating = false)
    (hh : s.mbx.heldSlots.contains n = false) :
    ringDoorbell s port n v = earlyReject (slotTake s n (v % 2 ^ 16)) n := by
  simp only [ringDoorbell, ho, hr, hb, slotTake_heldSlots ha, hh]
  rfl

/-- Settles O14: another port's slot, a busy slot or mailboxes that are not ready, and the handover with its two checks. -/
theorem doorbellHandsOver : Obligations.DoorbellHandsOver := by
  intro port n v s hs
  refine ⟨fun ho => congrArg Host.Outcome.next ?locked, fun ho hb => congrArg Host.Outcome.next ?busy,
    fun ho hr hb ha hh => congrArg Host.Outcome.next ?hands⟩
  case locked => simp [ringDoorbell, ho]
  case busy =>
    have hbusy : (!s.mbx.ready || s.mbx.arrival.contains n.val) = true := by simpa using hb
    simp only [ringDoorbell, ho, hbusy]
    rfl
  case hands => exact (ringDoorbell_hands ho hr hb ha hh).trans (earlyReject_slotTake hs.slots n _)

/-! ## Register writes (R46, R50, R74 to R78, R572) -/

/-- A host write of a leaf or of a mask sends one further message if the INT_N source is active (R74, log entry 173). -/
theorem attnWrite_leafOrMask {off : Nat} (h : attnLeafOrMask off = true) (s : State) (v : Nat) :
    attnWrite s off v = attnResend (attnEdge s (attnStore s off v)) := by
  simp [attnWrite, h]

/-- The registers of a summary bit's block (R76): cause and mask, and for bit 0 those of the QSPI slots. -/
theorem attnStore_block {b r : Nat} (hb : b < 23 ∨ 28 < b ∧ b < 32) (hr : r < 16) (s : State) (v : Nat) :
    attnStore s (0x100 + 16 * b + r) v =
      if r = 0 then causeClear s b v
      else if r = 4 then { s with attn.cmask := modAt s.attn.cmask b fun _ => BitVec.ofNat 32 v }
      else if b = 0 && r = 8 then doneQClear s v
      else if b = 0 && r = 12 then { s with attn.cmask2 := BitVec.ofNat 32 v ||| 0xFFFFFF00 }
      else s := by
  have hq : (0x100 + 16 * b + r - 0x100) / 16 = b := by omega
  have hm : (0x100 + 16 * b + r) % 16 = r := by omega
  have hn : ¬ (decide (23 ≤ b) && decide (b ≤ 28)) = true := by
    simp only [Bool.and_eq_true, decide_eq_true_eq]; omega
  unfold attnStore
  rw [if_neg (by omega), if_pos (by simp only [Bool.and_eq_true, decide_eq_true_eq]; omega)]
  simp only [hq, hm]
  rw [if_neg hn]

/-- The two registers of a sensor's block (R78). -/
theorem attnStore_subBlock {k r : Nat} (hk : k < 4) (hr : r < 16) (s : State) (v : Nat) :
    attnStore s (0x1100 + 16 * k + r) v =
      if r = 0 then subCauseClear s k v
      else if r = 4 then { s with attn.submask := modAt s.attn.submask k fun _ => BitVec.ofNat 32 v }
      else s := by
  have hq : (0x1100 + 16 * k + r - 0x1100) / 16 = k := by omega
  have hm : (0x1100 + 16 * k + r) % 16 = r := by omega
  unfold attnStore
  rw [if_neg (by omega), if_neg (by simp only [Bool.and_eq_true, decide_eq_true_eq]; omega),
    if_pos (by simp only [Bool.and_eq_true, decide_eq_true_eq]; omega)]
  simp only [hq, hm]

/-- Which offsets of the attention window are leaf registers or masks, as arithmetic. -/
theorem attnLeafOrMask_iff (off : Nat) : attnLeafOrMask off = true ↔
    off = 4 ∨ (0x100 ≤ off ∧ off < 0x300 ∧ (off < 0x270 ∨ 0x2D0 ≤ off) ∧
      (off % 16 = 0 ∧ off ≠ 0x120 ∧ off ≠ 0x230 ∨ off % 16 = 4 ∨ off = 0x108 ∨ off = 0x10C)) ∨
    (0x1100 ≤ off ∧ off < 0x1140 ∧ (off % 16 = 0 ∨ off % 16 = 4)) := by
  simp only [attnLeafOrMask, Bool.or_eq_true, Bool.and_eq_true, Bool.not_eq_true', decide_eq_true_eq, beq_iff_eq,
    bne_iff_ne, Bool.and_eq_false_iff, decide_eq_false_iff_not]
  omega

/-- The cause register of a summary bit with leaves of its own is a leaf register (R76, R78, R630). -/
theorem attnLeafOrMask_cause {b : Nat} (hb : b < 23 ∨ 28 < b ∧ b < 32) (h2 : b ≠ 2) (h19 : b ≠ 19) :
    attnLeafOrMask (0x100 + 16 * b + 0) = true := by
  rw [attnLeafOrMask_iff]
  omega

/-- The mask of a summary bit's cause register is a mask (R76). -/
theorem attnLeafOrMask_causeMask {b : Nat} (hb : b < 23 ∨ 28 < b ∧ b < 32) :
    attnLeafOrMask (0x100 + 16 * b + 4) = true := by
  rw [attnLeafOrMask_iff]
  omega

/-- A sensor's sub-cause register and its mask are a leaf register and a mask (R78). -/
theorem attnLeafOrMask_sub {k r : Nat} (hk : k < 4) (hr : r = 0 ∨ r = 4) :
    attnLeafOrMask (0x1100 + 16 * k + r) = true := by
  rw [attnLeafOrMask_iff]
  omega

/-- A host write of a leaf or a mask at an offset of the attention window. -/
theorem bar0Write4_leafOrMask {s t : State} {a off v : Nat} (ha : a = 0x20000 + off) (ho : off < 0x1400)
    (hl : attnLeafOrMask off = true) (ht : attnStore s off v = t) (port : Port) :
    bar0Write4 s port a v = attnResend (attnEdge s t) := by
  rw [ha, bar0Write4_attention s port off v ho, attnWrite_leafOrMask hl, ht]

/-- A write of PWR_WAKE keeps its value, and the key wakes (R572). -/
theorem wakeKeyWrite_eq (s : State) (v : BitVec 32) : wakeKeyWrite s v.toNat =
    if v = 0x57414B45 then wake { s with pwr.wakeKey := v } 1 else { s with pwr.wakeKey := v } := by
  have hkey : v.toNat = 0x57414B45 ↔ v = 0x57414B45 := by bv_omega
  simp [wakeKeyWrite, hkey]

/-- A W1C write of a cause register with leaves of its own (R76). -/
theorem causeClear_leaves {b : Nat} (h0 : b ≠ 0) (h2 : b ≠ 2) (h29 : b ≠ 29) (h31 : b ≠ 31) (s : State)
    (v : BitVec 32) : causeClear s b v.toNat = { s with attn.cause := modAt s.attn.cause b (· &&& ~~~v) } := by
  simp [causeClear, h0, h2, h29, h31]

/-- Settles O27: each register by its window; the attention registers by their block. -/
theorem registerWrites : Obligations.RegisterWrites := by
  have inBlock {c : Fin 32} (hc : c.val < 23 ∨ 28 < c.val) : c.val < 23 ∨ 28 < c.val ∧ c.val < 32 :=
    hc.imp_right fun h => ⟨h, c.isLt⟩
  refine ⟨fun p a d s ha h4 => congrArg Host.Outcome.next ?four, fun p a d s ha h8 => congrArg Host.Outcome.next ?eight,
    fun p a d s ha h4 h8 => congrArg Host.Outcome.next ?slot, fun p a d s ha => congrArg Host.Outcome.next ?refused,
    fun p v s => congrArg Host.Outcome.next ?mask, fun p k v s => congrArg Host.Outcome.next ?subMask,
    fun p c v s hc => congrArg Host.Outcome.next ?causeMask, fun p v s => congrArg Host.Outcome.next ?doneQMask,
    fun p c v s hc h2 h19 => congrArg Host.Outcome.next ?cause,
    fun b v s h0 h2 h29 h31 => causeClear_leaves h0 h2 h29 h31 s v,
    fun p k v s => congrArg Host.Outcome.next ?sub, fun p v s => congrArg Host.Outcome.next ?doneQ,
    fun p w v s => congrArg Host.Outcome.next ?bedrock, fun p v s => congrArg Host.Outcome.next (wakeKeyWrite_eq s v)⟩
  case four => simp [bar0Write, h4, h4 ▸ ha]
  case eight => simp [bar0Write, h8, h8 ▸ ha]
  case slot => simp [bar0Write, ha, h4, h8]
  case refused => simp [bar0Write, ha]
  case mask => exact bar0Write4_leafOrMask (off := 4) rfl (by decide) rfl (by simp [attnStore]) p
  case subMask =>
    have hk := k.isLt
    exact bar0Write4_leafOrMask (off := 0x1100 + 16 * k + 4) (by simp only [maskRegAddr]; omega) (by omega)
      (attnLeafOrMask_sub hk (.inr rfl)) (by simp [attnStore_subBlock hk]) p
  case causeMask =>
    exact bar0Write4_leafOrMask (off := 0x100 + 16 * c + 4) (by simp only [maskRegAddr]; omega) (by omega)
      (attnLeafOrMask_causeMask (inBlock hc)) (by simp [attnStore_block (inBlock hc)]) p
  case doneQMask =>
    have hst := attnStore_block (b := 0) (r := 12) (by decide) (by decide) s v.toNat
    exact bar0Write4_leafOrMask rfl (by decide) rfl (hst.trans (by simp)) p
  case cause =>
    exact bar0Write4_leafOrMask (off := 0x100 + 16 * c + 0) (by simp only [leafRegAddr]; omega) (by omega)
      (attnLeafOrMask_cause (inBlock hc) (Fin.val_ne_of_ne h2) (Fin.val_ne_of_ne h19))
      (attnStore_block (inBlock hc) (by decide) s _) p
  case sub =>
    have hk := k.isLt
    exact bar0Write4_leafOrMask (off := 0x1100 + 16 * k + 0) (by simp only [leafRegAddr]; omega) (by omega)
      (attnLeafOrMask_sub hk (.inl rfl)) (attnStore_subBlock hk (by decide) s _) p
  case doneQ =>
    exact bar0Write4_leafOrMask rfl (by decide) rfl (attnStore_block (b := 0) (r := 8) (by decide) (by decide) s _) p
  case bedrock => exact bar0Write4_bedrock s p _ _ (by omega)

/-! ## The time base (R638) -/

/-- The two words of TB_COUNT after a latch. -/
theorem tbWord_count (s : State) : tbWord (tbLatch s) 0 = s.time.c.toNat % 2 ^ 32 ∧
    tbWord (tbLatch s) 4 = s.time.c.toNat / 2 ^ 32 % 2 ^ 32 := by
  simp [tbWord, tbLatch]

/-- Outside the slots BAR0 accepts aligned accesses of 4 and of 8 bytes (R46). -/
theorem bar0Accepts_outside {a k : Nat} (hi : inSlots a = false) (hk : k = 4 ∨ k = 8) (hm : a % k = 0)
    (hb : a + k ≤ 0x200000) : bar0Accepts a k = true := by
  simp [bar0Accepts, hi, hk, hm, hb]

theorem inSlots_time (off : Nat) : inSlots (0x100000 + off) = false := by
  simp only [inSlots, Bool.and_eq_false_iff, decide_eq_false_iff_not]
  omega

/-- A 4-byte read of the time-base window. -/
theorem bar0Read_time_word {off : Nat} (h : off + 4 ≤ 0x100000) (hm : off % 4 = 0) (s : State) :
    bar0Read s (0x100000 + off) 4 = (leBytes 4 (tbWord (tbTouch s off) off), tbTouch s off) := by
  have ha : bar0Accepts (0x100000 + off) 4 = true :=
    bar0Accepts_outside (inSlots_time off) (.inl rfl) (by omega) (by omega)
  simp [bar0Read, ha, bar0Read4_time s off (by omega)]

/-- An 8-byte read of the time-base window whose second word latches nothing more. -/
theorem bar0Read_time_pair {off : Nat} (h : off + 8 ≤ 0x100000) (hm : off % 8 = 0) {s : State}
    (hn : tbTouch (tbTouch s off) (off + 4) = tbTouch s off) : bar0Read s (0x100000 + off) 8 =
      (leBytes 4 (tbWord (tbTouch s off) off) ++ leBytes 4 (tbWord (tbTouch s off) (off + 4)), tbTouch s off) := by
  have ha : bar0Accepts (0x100000 + off) 8 = true :=
    bar0Accepts_outside (inSlots_time off) (.inr rfl) (by omega) (by omega)
  simp [bar0Read, ha, bar0Read4_time s off (by omega), Nat.add_assoc, bar0Read4_time _ (off + 4) (by omega), hn]

/-- The low word of a domain's block latches that block, and the high word latches nothing. -/
theorem tbTouch_domain (d : Fin 2) (s : State) :
    tbTouch s (0x100 + 0x40 * d) = tbBlockLatch s d ∧ tbTouch s (0x100 + 0x40 * d + 4) = s :=
  match d with
  | 0 => ⟨rfl, rfl⟩
  | 1 => ⟨rfl, rfl⟩

/-- A read of a domain's block, of one word or of two, leaves the state with that block latched. -/
theorem bar0Read_domain (d : Fin 2) (wide : Bool) (s : State) :
    (bar0Read s (0x100100 + 0x40 * d) (if wide then 8 else 4)).2 = tbBlockLatch s d := by
  have haddr : 0x100100 + 0x40 * d.val = 0x100000 + (0x100 + 0x40 * d.val) := by omega
  rw [haddr, ← (tbTouch_domain d s).1]
  cases wide with
  | false => exact congrArg Prod.snd (bar0Read_time_word (by omega) (by omega) s)
  | true => exact congrArg Prod.snd (bar0Read_time_pair (by omega) (by omega) (tbTouch_domain d _).2)

/-- The outcome of a row that is a read: what the read does, with the bytes it returns kept for the port. -/
def readNext (r : List Byte × State) : Host.Outcome State Fault Refusal := .next { r.2 with host.readData := r.1 }

/-- Settles O30: what the first word latches; the second word of a wide read latches nothing more. -/
theorem timeWindowReads : Obligations.TimeWindowReads := by
  refine ⟨fun s => ?word, fun s => ?pair, fun s => ⟨rfl, rfl, rfl⟩, fun d w s => ⟨_, rfl, ?domain⟩⟩
  case word =>
    have h := bar0Read_time_word (off := 0) (by decide) rfl s
    change readNext (bar0Read s 0x100000 4) = _
    rw [h, tbTouch, if_pos rfl, (tbWord_count s).1]
    rfl
  case pair =>
    have h := bar0Read_time_pair (off := 0) (by decide) rfl (s := s) rfl
    change readNext (bar0Read s 0x100000 8) = _
    rw [h, tbTouch, if_pos rfl, (tbWord_count s).1, (tbWord_count s).2]
    rfl
  case domain => simp only [bar0Read_domain d w s]

/-! ## BAR2 (R44, R594) -/

/-- How many bytes of an access at a device address count: those below the end of the usable capacity, in Run alone (R44,
R573; in Hibernate log entry 14). -/
def bar2Reach (s : State) (a k : Nat) : Nat := if s.pwr.state = .run then min k (dramUsable s.fuse - a) else 0

theorem bar2Reach_whole {s : State} {a k : Nat} (hr : s.pwr.state = .run) (h : a + k ≤ dramUsable s.fuse) :
    bar2Reach s a k = k := by
  rw [bar2Reach, if_pos hr]
  omega

/-- A write of BAR2 in terms of its bytes that count. -/
theorem bar2Write_eq (s : State) (off : Nat) (d : List Byte) : bar2Write s off d =
    let n := bar2Reach s (s.host.bar2Base + off) d.length
    countBlocked (dramWrite s (s.host.bar2Base + off) (d.take n)) (decide (n < d.length)) := rfl

/-- A write within the capacity stores all its bytes. -/
theorem bar2Write_whole {s : State} {off : Nat} {d : List Byte} (hr : s.pwr.state = .run)
    (h : s.host.bar2Base + off + d.length ≤ dramUsable s.fuse) :
    bar2Write s off d = dramWrite s (s.host.bar2Base + off) d := by
  simp [bar2Write_eq, bar2Reach_whole hr h, countBlocked]

/-- A blocked access is counted, with its leaf (R44). -/
theorem countBlocked_true (s : State) :
    countBlocked s true = setLeaf { s with host.bar2Blocked := sat32 s.host.bar2Blocked 1 } 17 5 := rfl

/-- A write beyond the capacity stores the part that counts, and is counted once with its leaf. -/
theorem bar2Write_beyond {s : State} {off : Nat} {d : List Byte}
    (h : bar2Reach s (s.host.bar2Base + off) d.length < d.length) : bar2Write s off d =
      countBlocked (dramWrite s (s.host.bar2Base + off)
        (d.take (bar2Reach s (s.host.bar2Base + off) d.length))) true := by
  simp [bar2Write_eq, h]

/-- The handling of poisoned bursts leaves the DRAM and the host ports alone. -/
theorem poisonHandled_fold (l : List Nat) (s : State) :
    (l.foldl poisonHandled s).dram = s.dram ∧ (l.foldl poisonHandled s).host = s.host := by
  induction l generalizing s with
  | nil => exact ⟨rfl, rfl⟩
  | cons a l ih =>
    obtain ⟨hd, hh⟩ := ih (poisonHandled s a)
    exact ⟨hd.trans (by simp [poisonHandled, spareEvent]), hh.trans (by simp [poisonHandled, spareEvent])⟩

/-- A range holds a poisoned burst just where the list of its poisoned bursts is not empty. -/
theorem poisonedRange_eq (s : State) (a n : Nat) : poisonedRange s a n = !(poisonIn s a n).isEmpty := by
  rw [Bool.eq_iff_iff]
  simp [poisonedRange, poisonIn]

/-- The link ECC of a read is counted in a channel and nowhere else (R514). -/
theorem linkFault_eq (s : State) (a : Nat) (e : LinkFault) :
    ∃ c, linkFault s a e = { s with mem.channels := c } := by
  unfold linkFault
  split
  · exact ⟨_, rfl⟩
  · split
    · exact ⟨_, rfl⟩
    · exact ⟨_, rfl⟩
    · exact ⟨_, rfl⟩

theorem linkFault_clean (s : State) (a : Nat) : linkFault s a .clean = s := by simp [linkFault]

/-- What a BAR2 read returns and leaves: the bytes that count with zeros behind, the mark of a poisoned burst, the DRAM as
it was, and one count of an access that reaches beyond. -/
theorem bar2Read_eq (s : State) (off k : Nat) :
    let a := s.host.bar2Base + off
    let n := bar2Reach s a k
    ∃ t, bar2Read s off k = (dramRead s a n ++ List.replicate (k - n) 0, t) ∧ t.dram = s.dram ∧
      t.host.readPoisoned = poisonedRange s a n ∧
      t.host.bar2Blocked = if n < k then sat32 s.host.bar2Blocked 1 else s.host.bar2Blocked := by
  intro a n
  obtain ⟨hd, hh⟩ := poisonHandled_fold (poisonIn s a n) (countBlocked s (n < k))
  refine ⟨_, rfl, hd.trans ?dram, (poisonedRange_eq s a n).symm, (congrArg HostPorts.bar2Blocked hh).trans ?count⟩
  case dram => by_cases h : n < k <;> simp [countBlocked, h]
  case count => by_cases h : n < k <;> simp [countBlocked, h]

/-- A read within the capacity that meets no poisoned burst returns the bytes and changes nothing else. -/
theorem bar2Read_whole {s : State} {off k : Nat} (hr : s.pwr.state = .run)
    (h : s.host.bar2Base + off + k ≤ dramUsable s.fuse) (hp : poisonedRange s (s.host.bar2Base + off) k = false) :
    bar2Read s off k = (dramRead s (s.host.bar2Base + off) k, { s with host.readPoisoned := false }) := by
  have hreach : (if s.pwr.state = .run then min k (dramUsable s.fuse - (s.host.bar2Base + off)) else 0) = k :=
    bar2Reach_whole hr h
  have hnone : poisonIn s (s.host.bar2Base + off) k = [] := by simpa [poisonedRange_eq] using hp
  simp [bar2Read, hreach, hnone, countBlocked]

/-! ## QSPI (R47, R48, log entry 175) -/

/-- A transaction that R48 does not take. -/
def QspiRefused (i : Byte) (a : BitVec 32) (d : List Byte) (k : Nat) : Prop :=
  [0x02, 0x32, 0x0B, 0xEB, 0x05].contains i = false ∨
    (i = 0x02 ∨ i = 0x32) ∧ (a.toNat % 4 ≠ 0 ∨ d.length % 4 ≠ 0) ∨
    (i = 0x0B ∨ i = 0xEB) ∧ (a.toNat % 4 ≠ 0 ∨ k % 4 ≠ 0)

/-- A transaction that R48 does not take sets `last_err` and does nothing else. -/
theorem exec_qspi_refused {i : Byte} {a : BitVec 32} {d : List Byte} {k : Nat} (h : QspiRefused i a d k) (s : State) :
    exec (.qspiTransaction i a d k) s = .next { s with host.qspiLastErr := true } := by
  change execQspiTransaction i a d k s = _
  rcases h with hi | ⟨rfl | rfl, h | h⟩ | ⟨rfl | rfl, h | h⟩
  · simp only [List.contains_cons, List.contains_nil, Bool.or_false, Bool.or_eq_false_iff] at hi
    obtain ⟨h02, h32, h0B, hEB, h05⟩ := hi
    simp only [execQspiTransaction, h02, h32, h0B, hEB]
    exact if_neg (beq_eq_false_iff_ne.mp h05)
  all_goals simp [execQspiTransaction, h]

/-- A write of whole words at a word's address. -/
theorem exec_qspi_write {i : Byte} {a : BitVec 32} {d : List Byte} (hi : i = 0x02 ∨ i = 0x32) (ha : a.toNat % 4 = 0)
    (hd : d.length % 4 = 0) (k : Nat) (s : State) :
    exec (.qspiTransaction i a d k) s = .next (qspiWrite (qspiEnd a.toNat) (d.length / 4) a.toNat d s) := by
  change execQspiTransaction i a d k s = _
  rcases hi with rfl | rfl <;> simp [execQspiTransaction, ha, hd]

/-- A region ends beyond each of its addresses, and within the 32 bits of an address. -/
theorem qspiEnd_bounds {a : Nat} (h : a < 2 ^ 32) : a < qspiEnd a ∧ qspiEnd a ≤ 2 ^ 32 := by
  unfold qspiEnd
  split
  · omega
  · split <;> omega

/-- A further word before the end of the region lies in the same region. -/
theorem qspiEnd_next {a : Nat} (h : a + 4 < qspiEnd a) : qspiEnd (a + 4) = qspiEnd a := by
  unfold qspiEnd at *
  split at h
  next => rw [if_pos h, if_pos (by omega)]
  next =>
    split at h
    next => rw [if_neg (by omega), if_pos h, if_neg (by omega), if_pos (by omega)]
    next => rw [if_neg (by omega), if_neg (by omega), if_neg (by omega), if_neg (by omega)]

/-- A write of one word. -/
theorem exec_qspi_write_word {i : Byte} {a : BitVec 32} {d : List Byte} (hi : i = 0x02 ∨ i = 0x32)
    (ha : a.toNat % 4 = 0) (hd : d.length = 4) (k : Nat) (s : State) :
    exec (.qspiTransaction i a d k) s = .next (qspiWriteWord s a.toNat d) := by
  rw [exec_qspi_write hi ha (by omega), hd]
  have hlt := (qspiEnd_bounds a.isLt).1
  simp only [qspiWrite, Nat.reduceDiv]
  rw [if_neg (by omega), List.take_of_length_le (by omega)]

/-- A write that starts at or beyond the end of the region does nothing. -/
theorem qspiWrite_stop {stop a : Nat} (h : stop ≤ a) (k : Nat) (d : List Byte) (s : State) :
    qspiWrite stop k a d s = s := by
  cases k with
  | zero => rfl
  | succ k => rw [qspiWrite, if_pos h]

/-- A longer write is its first word, then the rest. -/
theorem exec_qspi_write_more {i : Byte} {a : BitVec 32} {d e : List Byte} (hi : i = 0x02 ∨ i = 0x32)
    (ha : a.toNat % 4 = 0) (hd : d.length = 4) (he : e.length % 4 = 0) (k : Nat) (s : State) :
    exec (.qspiTransaction i a (d ++ e) k) s =
      .next (qspiWrite (qspiEnd a.toNat) (e.length / 4) (a.toNat + 4) e (qspiWriteWord s a.toNat d)) := by
  have hlen : (d ++ e).length = 4 + e.length := by rw [List.length_append, hd]
  have hlt := (qspiEnd_bounds a.isLt).1
  rw [exec_qspi_write hi ha (by omega), hlen, Nat.add_div_left _ (by decide), qspiWrite, if_neg (by omega),
    List.take_left' hd, List.drop_left' hd]

/-- A read of one word. -/
theorem exec_qspi_read_word {i : Byte} {a : BitVec 32} (hi : i = 0x0B ∨ i = 0xEB) (ha : a.toNat % 4 = 0) (d : List Byte)
    (s : State) : exec (.qspiTransaction i a d 4) s = readNext (qspiReadWord s a.toNat) := by
  change execQspiTransaction i a d 4 s = _
  have hlt := (qspiEnd_bounds a.isLt).1
  have hone : qspiRead (qspiEnd a.toNat) 1 a.toNat s = qspiReadWord s a.toNat := by
    simp only [qspiRead, List.append_nil]
    rw [if_neg (by omega)]
  rcases hi with rfl | rfl <;> simp [execQspiTransaction, ha, hone, readNext]

/-- The offset of a DRAM address of QSPI in the window. -/
theorem qspi_offset (a : BitVec 32) : (BitVec.ofNat 32 (a.toNat - 0x80000000)).toNat = a.toNat - 0x80000000 := by
  rw [BitVec.toNat_ofNat, Nat.mod_eq_of_lt (by omega)]

theorem qspiWriteWord_bar0 {a : Nat} (h : a < 0x200000) (s : State) (d : List Byte) :
    qspiWriteWord s a d = bar0Write s .qspi a d := if_pos h

theorem qspiWriteWord_bar2 {a : Nat} (h : 0x80000000 ≤ a) (ha : a < 2 ^ 32) (s : State) (d : List Byte) :
    qspiWriteWord s a d = bar2Write s (a - 0x80000000) d := by
  rw [qspiWriteWord, if_neg (by omega), if_pos (by simp only [Bool.and_eq_true, decide_eq_true_eq]; omega)]

theorem qspiWriteWord_between {a : Nat} (h : 0x200000 ≤ a) (ha : a < 0x80000000) (s : State) (d : List Byte) :
    qspiWriteWord s a d = s := by
  rw [qspiWriteWord, if_neg (by omega), if_neg (by simp only [Bool.and_eq_true, decide_eq_true_eq]; omega)]

theorem qspiReadWord_bar0 {a : Nat} (h : a < 0x200000) (s : State) : qspiReadWord s a = bar0Read s a 4 := if_pos h

theorem qspiReadWord_bar2 {a : Nat} (h : 0x80000000 ≤ a) (ha : a < 2 ^ 32) (s : State) :
    qspiReadWord s a = bar2Read s (a - 0x80000000) 4 := by
  rw [qspiReadWord, if_neg (by omega), if_pos (by simp only [Bool.and_eq_true, decide_eq_true_eq]; omega)]

/-- Settles O31: BAR2 by how far the access reaches; QSPI word by word, each by the region of its address. -/
theorem dramWindow : Obligations.DramWindow := by
  refine ⟨fun off d e s hr h => congrArg Host.Outcome.next (bar2Write_whole hr h), ?beyond, ?whole, ?read,
    fun i a d k s h => exec_qspi_refused h s, ?word, ?more, ?readWord, fun a d k s => rfl, fun s => rfl⟩
  case beyond =>
    intro off d e s a n h
    refine ⟨_, congrArg Host.Outcome.next (bar2Write_beyond h), ?_⟩
    rw [countBlocked_true, setLeaf_cause, setLeaf_dram, setLeaf_host]
    exact ⟨rfl, rfl, rfl⟩
  case whole =>
    intro off k s hr h hp
    change readNext (bar2Read (linkFault s _ .clean) _ _) = _
    rw [linkFault_clean, bar2Read_whole hr h hp]
    rfl
  case read =>
    intro off k e s a n
    obtain ⟨c, hc⟩ := linkFault_eq s a e
    obtain ⟨t, ht, hd, hp, hb⟩ := bar2Read_eq { s with mem.channels := c } off.toNat k
    refine ⟨{ t with host.readData := dramRead s a n ++ List.replicate (k - n) 0 }, ?_, rfl, hp, hd,
      fun h => hb.trans (if_pos h)⟩
    change readNext (bar2Read (linkFault s a e) _ _) = _
    rw [hc, ht]
    rfl
  case word =>
    intro i a d k s hi ha hd
    rw [exec_qspi_write_word hi ha hd]
    refine ⟨fun h => congrArg _ (qspiWriteWord_bar0 h s d), fun h => ?_,
      fun h h' => congrArg _ (qspiWriteWord_between h h' s d)⟩
    change _ = Host.Outcome.next (bar2Write s (BitVec.toNat _) d)
    rw [qspiWriteWord_bar2 h a.isLt, qspi_offset]
  case more =>
    intro i a d e k s t hi ha hd he ht
    rw [exec_qspi_write_word hi ha hd] at ht
    obtain rfl := Host.Outcome.next.inj ht
    rw [exec_qspi_write_more hi ha hd he]
    refine ⟨fun h => ?_, fun h => congrArg _ (qspiWrite_stop h _ _ _)⟩
    have hend := (qspiEnd_bounds a.isLt).2
    have ha4 : (a + 4).toNat = a.toNat + 4 := by bv_omega
    rw [exec_qspi_write hi (by omega) he, ha4, qspiEnd_next h]
  case readWord =>
    intro i a d s hi ha
    rw [exec_qspi_read_word hi ha]
    refine ⟨fun h => congrArg readNext (qspiReadWord_bar0 h s), fun h => ?_⟩
    change _ = readNext (bar2Read (linkFault s _ .clean) (BitVec.toNat _) 4)
    rw [linkFault_clean, qspiReadWord_bar2 h a.isLt, qspi_offset]

end Sys2Proof.Machine
end

section
/-! PROOFS. Attention and event queues (04_attention_and_event_queues.md): which queue a target names and what the queue
commands do to it, and what a host access of a queue's block does: mark and rewind, release, the clear of `wm_hit` and the
record port. -/

namespace Sys2Proof.Machine

/-! ## A queue of the device -/

/-- An update of a queue puts in its place what the function makes of it. -/
theorem updQueue_eq_set (s : State) (i : Nat) (f : Queue → Queue) :
    updQueue s i f = { s with queues := s.queues.set i (f (s.queues.getD i {})) } := by
  rw [updQueue, modAt, @List.modify_eq_set _ ⟨({} : Queue)⟩ f i s.queues, List.getD_eq_getElem?_getD]
  rfl

/-- Two updates of a queue that agree on the queue as it stands are one. -/
theorem updQueue_congr {s : State} {i : Nat} {f g : Queue → Queue}
    (h : f (s.queues.getD i {}) = g (s.queues.getD i {})) : updQueue s i f = updQueue s i g := by
  rw [updQueue_eq_set, updQueue_eq_set, h]

/-! ## The targets of the queue commands (R88) -/

/-- The targets of the event queues and of the FIFOs, as arithmetic. -/
theorem mem_targetList (x : Nat) : x ∈ targetList ↔ x < 4 ∨ 0x10 ≤ x ∧ x ≤ 0x1B := by
  have hfifo : (∃ k, k < 12 ∧ 0x10 + k = x) ↔ 0x10 ≤ x ∧ x ≤ 0x1B :=
    ⟨fun ⟨k, hk, hx⟩ => by omega, fun h => ⟨x - 0x10, by omega, by omega⟩⟩
  simp only [targetList, List.mem_append, List.mem_cons, List.not_mem_nil, or_false, List.mem_map, List.mem_range,
    hfifo]
  omega

/-- A target byte that names no queue is out of range at its own offset, 0. -/
theorem oneOf_target_refused {b : Body} (h : ¬ (fld b 0 1 < 4 ∨ 0x10 ≤ fld b 0 1 ∧ fld b 0 1 ≤ 0x1B)) :
    oneOf b 0 1 targetList = some ⟨0x0103, 0, 0⟩ := by
  have hc : targetList.contains (fld b 0 1) = false := by
    simpa only [List.contains_eq_mem, decide_eq_false_iff_not, mem_targetList] using h
  rw [oneOf, hc]
  rfl

/-- Where a command's length and flags are right and the first check of its fields fails, that check is the first of steps 4
to 9 of R66 that fails. -/
theorem firstRej_laterChecks_field {c : Card} {n : Nat} {s : State} {r : Rej} {l : List (Option Rej)}
    (hl : c.len (slotLength s n) (slotBody s n) = none) (hf : slotFlags s n < 8)
    (hr : c.fields (slotBody s n) s = some r :: l) : firstRej (laterChecks c n s) = some r := by
  have hflags : eRange (8 ≤ slotFlags s n) 0xFF06 = none := by simp [eRange, rejIf, hf]
  rw [laterChecks, hl, hflags, hr]
  rfl

/-- A command of every part that reaches its fields is refused by the first of their checks. -/
theorem exec_field_refused {i : Instr} {n : Fin 40} {c : Card} {s : State} {r : Rej} {l : List (Option Rej)}
    (hi : i.card? = some (n, c)) (ht : mbxTurn s c.opcode n = true) (hc : ringOnly c.opcode = false)
    (h : ReachesVariantCheck c n s) (hl : c.len (slotLength s n) (slotBody s n) = none) (hf : slotFlags s n < 8)
    (hr : c.fields (slotBody s n) s = some r :: l) : exec i s = .next (mbxReject s n r) :=
  (exec_refusedByCard hi s).reject r ht ((h.passed hc).trans (firstRej_laterChecks_field hl hf hr))

/-- EVQ_CONFIG sets the queue's watermark, and with it only whether a clear has left a set of `wm_hit` to the next record
(log entry 10). -/
theorem updQueue_setWm (s : State) (i wm : Nat) : ∃ rearm,
    updQueue s i (·.setWm wm) = updQueue s i fun q => { q with wm := wm, rearm := rearm } :=
  ⟨((s.queues.getD i {}).setWm wm).rearm, updQueue_congr rfl⟩

/-- Settles O56: an accepted command by its card, any other target by the first check of the fields. -/
theorem queueTargets : Obligations.QueueTargets := by
  obtain ⟨-, -, -, config, -, reset, -⟩ := systemCommands
  refine ⟨fun n s h => ?config, fun n s h => ⟨_, reset n s h⟩, fun q hq => if_pos hq, fun x k _ _ => ?fifo,
    fun n s => ?other⟩
  case config =>
    obtain ⟨rearm, hu⟩ := updQueue_setWm s (targetQueue (fld (slotBody s n) 0 1)) (fld (slotBody s n) 2 2)
    exact ⟨rearm, hu ▸ config n s h⟩
  case fifo =>
    rw [targetQueue, if_neg (by omega)]
    omega
  case other =>
    intro x hl hf hd hx
    have htarget (l : List (Option Rej)) : oneOf (slotBody s n) 0 1 targetList :: l = some ⟨0x0103, 0, 0⟩ :: l :=
      congrArg (· :: l) (oneOf_target_refused hx)
    exact ⟨fun ht hi => exec_field_refused (c := evqConfigCard) rfl ht rfl ⟨hd, rfl, hi⟩ (if_pos hl) hf (htarget _),
      fun ht hi => exec_field_refused (c := evqResetCard) rfl ht rfl ⟨hd, rfl, hi⟩ (if_pos hl) hf (htarget _)⟩

/-! ## Writes to a queue's block (R83, R84, R86) -/

/-- A queue whose records all stand has no position for `rd` to pass over. -/
theorem Queue.skipLost_of_kept {q : Queue} (h : (q.recs.any fun e => e.erased) = false) : q.skipLost = q := by
  have hnone : (q.recs.drop (q.rd - q.rel).toNat).takeWhile (·.erased) = [] := by
    cases hd : q.recs.drop (q.rd - q.rel).toNat with
    | nil => rfl
    | cons e l =>
      have he : e ∈ q.recs := List.mem_of_mem_drop (hd ▸ List.mem_cons_self)
      exact List.takeWhile_cons_of_neg (List.any_eq_false.mp h e he)
  rw [Queue.skipLost, hnone, List.length_nil, BitVec.add_zero]

/-- A rewind: `rd` goes back to the mark and on past the records lost with a bank, and the port's copy is discarded (R83,
log entry 138). -/
def Queue.rewound (q : Queue) : Queue :=
  Queue.skipLost { q with rd := q.mark, port := List.replicate 32 0, portValid := false }

/-- With no record lost, a rewind ends at the mark. -/
theorem Queue.rewound_of_kept {q : Queue} (h : (q.recs.any fun e => e.erased) = false) :
    q.rewound = { q with rd := q.mark, port := List.replicate 32 0, portValid := false } :=
  Queue.skipLost_of_kept h

theorem exec_eqMark (port : Port) (q : Fin 16) (s : State) :
    exec (.eqMark port q) s = .next (updQueue s q fun x => { x with mark := x.rd, ctrl := 1 }) :=
  congrArg Host.Outcome.next (bar0Write4_queue s port q 0x20 1 q.isLt (by decide))

theorem exec_eqRewind_alone (port : Port) (q : Fin 16) (s : State) :
    exec (.eqRewind port q false) s = .next (updQueue s q fun x => { x.rewound with ctrl := 2 }) :=
  congrArg Host.Outcome.next (bar0Write4_queue s port q 0x20 2 q.isLt (by decide))

/-- A write with both bits rewinds first: the mark follows to where `rd` then stands (R83). -/
theorem exec_eqRewind_mark (port : Port) (q : Fin 16) (s : State) : exec (.eqRewind port q true) s =
    .next (updQueue s q fun x => { x.rewound with mark := x.rewound.rd, ctrl := 3 }) :=
  congrArg Host.Outcome.next (bar0Write4_queue s port q 0x20 3 q.isLt (by decide))

theorem exec_wmHitClear (port : Port) (q : Fin 16) (s : State) :
    exec (.wmHitClear port q) s = .next (updQueue s q Queue.clearWm) :=
  congrArg Host.Outcome.next (bar0Write4_queue s port q 0x38 0x8000 q.isLt (by decide))

theorem exec_eqRelease (port : Port) (q : Fin 16) (v : BitVec 32) (s : State) :
    exec (.eqRelease port q v) s = .next (updQueue s q (·.releaseTo v)) := by
  have hw := bar0Write4_queue s port q 0x24 v.toNat q.isLt (by decide)
  have hv : BitVec.ofNat 32 v.toNat = v := BitVec.ofNat_toNat 32 v |>.trans v.setWidth_eq
  exact congrArg Host.Outcome.next (hw.trans (congrArg (fun u => updQueue s q (·.releaseTo u)) hv))

/-- Settles O28: the write's two bits, where no record was lost with a bank. -/
theorem markAndRewind : Obligations.MarkAndRewind := by
  refine ⟨exec_eqMark,
    fun port q s h => (exec_eqRewind_alone port q s).trans (congrArg Host.Outcome.next (updQueue_congr ?rewind)),
    fun port q s h => (exec_eqRewind_mark port q s).trans (congrArg Host.Outcome.next (updQueue_congr ?both)),
    fun _ _ => rfl⟩
  case rewind => simp only [Queue.rewound_of_kept h]
  case both => simp only [Queue.rewound_of_kept h]

/-! ## Reads of the record port (R82) -/

theorem exec_eqPortRead (q : Fin 16) (w : Fin 8) (s : State) : exec (.eqPortRead q w) s =
    readNext (leBytes 4 (eqRead s q (4 * w)).1, (eqRead s q (4 * w)).2) := by
  have hr := bar0Read4_queue s q (4 * w) q.isLt (by omega)
  exact congrArg (fun r : Nat × State => readNext (leBytes 4 r.1, r.2)) hr

/-- The first word latches the record at `rd`. -/
theorem eqRead_first (s : State) (q : Nat) : (eqRead s q 0).2 = updQueue s q Queue.latch := rfl

/-- A word between the first and the last is read from the copy, and nothing changes. -/
theorem eqRead_between {off : Nat} (h : 0 < off) (h' : off < 0x1C) (s : State) (q : Nat) :
    eqRead s q off = (leNat (((s.queues.getD q {}).port.drop off).take 4), s) := by
  have h0 : off ≠ 0 := by omega
  have h20 : off < 0x20 := by omega
  have h1C : off ≠ 0x1C := by omega
  simp only [eqRead, h0, h20, h1C, if_true, if_false]

/-- The last word advances `rd`. -/
theorem eqRead_last (s : State) (q : Nat) : (eqRead s q 0x1C).2 = updQueue s q Queue.advance := rfl

/-- Settles O29: each write by its register, and the port by the word that is read. -/
theorem queueAccesses : Obligations.QueueAccesses := by
  refine ⟨fun port q s => ⟨exec_eqRewind_alone port q s, exec_eqRewind_mark port q s⟩, exec_wmHitClear,
    exec_eqRelease, fun q s => ⟨_, exec_eqPortRead q 0 s, ?latch⟩, fun q w s h h' => ⟨_, exec_eqPortRead q w s, ?copy⟩,
    fun q s => ⟨_, exec_eqPortRead q 7 s, ?advance⟩⟩
  case latch => exact ⟨congrArg State.queues (eqRead_first s q), by rw [← eqRead_first]; rfl⟩
  case copy => rw [eqRead_between (by omega) (by omega)]
  case advance => rw [← eqRead_last]; rfl

end Sys2Proof.Machine
end

section
/-! PROOFS. Sensor ingest (05_sensor_ingest.md): what the accepted sensor commands change and answer, how metadata polls
are triggered, and how the transfers of the control buses end. -/

namespace Sys2Proof.Machine

/-! ## SENS_CONFIG and SENS_BUS_XFER (R100, R120) -/

/-- A SENS_CONFIG that leaves its sensor configured answers with the ring's base, the slot's bytes and the line stride
(R100). -/
theorem sensConfigCard_effect {n : Nat} {b : Body} {s : State} {c : SensConfig}
    (h : (sensorOf (applyConfig s (fld b 0 1) (configOf b)) (fld b 0 1)).cfg = some c) :
    sensConfigCard.effect n b s = (applyConfig s (fld b 0 1) (configOf b),
      .now (leBytes 8 c.base ++ leBytes 4 (slotBytes c) ++ leBytes 4 (lineStride c))) := by
  simp only [sensConfigCard, h]

theorem exec_sensConfig_accepted {n : Fin 40} {s : State} {c : SensConfig} (ha : Accepted sensConfigCard n s)
    (h : (sensorOf (applyConfig s (fld (slotBody s n) 0 1) (configOf (slotBody s n))) (fld (slotBody s n) 0 1)).cfg =
      some c) : exec (.sensConfig n) s = .next (mbxOk
        (applyConfig s (fld (slotBody s n) 0 1) (configOf (slotBody s n))) n
        (leBytes 8 c.base ++ leBytes 4 (slotBytes c) ++ leBytes 4 (lineStride c))) :=
  congrArg Host.Outcome.next (mbxRun_now ha (sensConfigCard_effect h))

/-- The transfer that a SENS_BUS_XFER's parameters ask for, under the next ticket (R120). -/
def xferAsked (b : Body) (s : State) : BusXfer :=
  { ticket := s.img.ticket, bus := fld b 0 1, speed := fld b 1 1, target := fld b 2 1
    wr := (b.drop 8).take (fld b 4 2), rdLen := fld b 6 2 }

/-- With bit 0 of `defer` clear the transfer joins its bus, and the command answers when it ends (R120). -/
theorem sensBusXferCard_effect_immediate {b : Body} (h : fld b 3 1 % 2 = 0) (n : Nat) (s : State) :
    sensBusXferCard.effect n b s = (enqueueBus s (xferAsked b s).bus (.host n (xferAsked b s)), .later) :=
  if_neg (by omega)

/-- With bit 0 of `defer` set the transfer waits for the next frame of the sensor in bits [2:1], and the command answers
with its ticket (R120, R121). -/
theorem sensBusXferCard_effect_deferred {b : Body} (h : fld b 3 1 % 2 = 1) (n : Nat) (s : State) :
    sensBusXferCard.effect n b s = (updSensor { s with img.ticket := (s.img.ticket + 1) % 65536 } (fld b 3 1 / 2)
      fun y => { y with deferred := y.deferred ++ [xferAsked b s] }, .now (leBytes 2 s.img.ticket)) :=
  if_pos h

/-- Settles O16: each row is run under its card; SENS_CONFIG by the configuration it leaves, SENS_BUS_XFER by when it
transfers. -/
theorem sensorCommands : Obligations.SensorCommands := by
  refine ⟨?power, ?start, ?stop, ?clear, ?counters, ?metaPoll, fun _ _ _ => exec_sensConfig_accepted,
    fun n s ha => ⟨fun h => congrArg Host.Outcome.next ?immediate, fun h => congrArg Host.Outcome.next ?deferred⟩⟩
  case immediate => exact mbxRun_later ha (sensBusXferCard_effect_immediate h n s)
  case deferred => exact mbxRun_now ha (sensBusXferCard_effect_deferred h n s)
  all_goals exact fun n => yields_of_effect (fun _ => rfl) fun _ _ => rfl

/-! ## Metadata polls that are triggered (R122) -/

/-- What a trigger does to a poll that is set. -/
theorem triggerPoll_of_set {s : State} {sn k : Nat} {p : MetaPoll} (hp : (sensorOf s sn).polls.getD k none = some p)
    (trigger : Nat) : triggerPoll s sn k trigger = if p.trigger ≠ trigger then s
      else if pollQueued s sn k = true then countCheck s sn 15 3 1 else enqueueBus s p.x.bus (.poll sn k p.x) := by
  simp only [triggerPoll, hp, bne_iff_ne]

/-- A trigger of another kind does not start a poll. -/
theorem triggerPoll_otherTrigger {s : State} {sn k trigger : Nat} {p : MetaPoll}
    (hp : (sensorOf s sn).polls.getD k none = some p) (ht : p.trigger ≠ trigger) :
    triggerPoll s sn k trigger = s := by
  rw [triggerPoll_of_set hp, if_pos ht]

/-- A poll that is triggered while its last one waits behind another transfer is missed, and counted. -/
theorem triggerPoll_missed {s : State} {sn k trigger : Nat} {p : MetaPoll}
    (hp : (sensorOf s sn).polls.getD k none = some p) (ht : p.trigger = trigger) (hq : pollQueued s sn k = true) :
    triggerPoll s sn k trigger = countCheck s sn 15 3 1 := by
  rw [triggerPoll_of_set hp, if_neg (not_not_intro ht), if_pos hq]

/-- A poll that is triggered otherwise joins its bus. -/
theorem triggerPoll_queued {s : State} {sn k trigger : Nat} {p : MetaPoll}
    (hp : (sensorOf s sn).polls.getD k none = some p) (ht : p.trigger = trigger) (hq : pollQueued s sn k = false) :
    triggerPoll s sn k trigger = enqueueBus s p.x.bus (.poll sn k p.x) := by
  rw [triggerPoll_of_set hp, if_neg (not_not_intro ht), if_neg (Bool.eq_false_iff.mp hq)]

/-! ## Transfers that end (R119 to R122) -/

/-- Where a transfer read all its bytes nothing is undefined: the draw for the rest is empty. -/
theorem drawBytes_rest {d : List Byte} {m : Nat} (h : d.length = m) (s : State) :
    drawBytes s (m - d.length) = ([], { s with draws := s.draws + 1 }) := by
  rw [h, Nat.sub_self]
  rfl

/-- A host transfer that read all its bytes answers its command with the result, the bytes written and those read. -/
theorem busXferEnd_host {s : State} {bus n : Nat} {x : BusXfer} {rest : List BusJob} {d : List Byte}
    (h : busOf s bus = .host n x :: rest) (hd : d.length = x.rdLen) (result written : Nat) :
    busXferEnd s bus result written d = mbxOk { busNext s bus with draws := (busNext s bus).draws + 1 } n
      (leBytes 1 result ++ [0] ++ leBytes 2 (min written x.wr.length) ++ d) := by
  simp only [busXferEnd, h, drawBytes_rest hd, List.append_nil, List.take_of_length_le (Nat.le_of_eq hd)]

/-- A deferred transfer that ends posts its event (R121). -/
theorem busXferEnd_deferred {s : State} {bus n : Nat} {x : BusXfer} {rest : List BusJob}
    (h : busOf s bus = .deferred n x :: rest) (result written : Nat) (d : List Byte) :
    busXferEnd s bus result written d = xferEvent (busNext s bus) x result (min written x.wr.length) := by
  simp only [busXferEnd, h]

/-- A poll that ran and read all its bytes posts them to its FIFO, 16 to a record (R122). -/
theorem pollEnd_ran {s : State} {bus n k : Nat} {x : BusXfer} {rest : List BusJob} {d : List Byte}
    (h : busOf s bus = .poll n k x :: rest) (hd : d.length = x.rdLen) :
    pollEnd s bus 0 d = postPoll { busNext s bus with draws := (busNext s bus).draws + 1 } n k (0x0370 + k)
      (classS { busNext s bus with draws := (busNext s bus).draws + 1 }) (chunk 16 x.rdLen d) := by
  simp only [pollEnd, h, if_true, drawBytes_rest hd, List.append_nil, List.take_of_length_le (Nat.le_of_eq hd)]

/-- A poll that failed posts its result to its FIFO (R122). -/
theorem pollEnd_failed {s : State} {bus result n k : Nat} {x : BusXfer} {rest : List BusJob}
    (h : busOf s bus = .poll n k x :: rest) (hr : result ≠ 0) (d : List Byte) :
    pollEnd s bus result d = postPoll (busNext s bus) n k 0x0372 (classS (busNext s bus)) [leBytes 1 result] := by
  simp only [pollEnd, h, if_neg hr]

/-- Settles O39: a trigger by the poll it finds, an end by the transfer at the head of its bus. -/
theorem busEvents : Obligations.BusEvents := by
  refine ⟨fun _ _ _ _ _ => rfl, fun _ _ _ => rfl, fun x k p s hp => ?trigger, fun b r d n k x rest s h => ?poll,
    fun b r w n d x rest s h => congrArg Host.Outcome.next (busXferEnd_deferred h r w d), fun _ _ _ _ => rfl,
    fun b d s n x rest h hd => congrArg Host.Outcome.next ?host⟩
  case trigger =>
    exact ⟨fun ht hq => congrArg Host.Outcome.next (triggerPoll_queued hp ht hq),
      fun ht hq => congrArg Host.Outcome.next (triggerPoll_missed hp ht hq),
      fun ht => congrArg Host.Outcome.next (triggerPoll_otherTrigger hp ht)⟩
  case poll =>
    exact ⟨fun hd => congrArg Host.Outcome.next (pollEnd_ran h hd),
      fun hr => congrArg Host.Outcome.next (pollEnd_failed h (Fin.val_ne_of_ne hr) d)⟩
  case host =>
    have hend := busXferEnd_host h hd 0 x.wr.length
    rw [Nat.min_self] at hend
    exact hend

end Sys2Proof.Machine
end

section
/-! PROOFS. The stripe scheduler (06_stripe_scheduler.md): how stripes tile a width, the class and budget that
SENS_CONFIG sets, what the accepted scheduler and front-end commands change and answer, and what bands, deadlines,
failing engines, bank writes, captures and renditions do. -/

namespace Sys2Proof.Machine

/-! ## The stripes of a width (R123) -/

/-- A positive width has a stripe. -/
theorem stripeCount_pos {c : SensConfig} (h : 0 < c.width) : 0 < stripeCount c :=
  Nat.div_pos (by omega) (by decide)

/-- There are at least as many groups of 8 columns as stripes. -/
theorem stripeCount_le_groups {c : SensConfig} (h8 : c.width % 8 = 0) : stripeCount c ≤ c.width / 8 := by
  unfold stripeCount ceilDiv
  omega

/-- A stripe holds 256 groups of 8 columns at most. -/
theorem groups_le_stripeCount {c : SensConfig} : c.width / 8 ≤ 256 * stripeCount c := by
  unfold stripeCount ceilDiv
  omega

/-- Where n ≤ U, the quotients by n of the multiples of U differ: no stripe is empty. -/
theorem mul_div_lt_succ_mul_div {k U n : Nat} (hn : 0 < n) (hU : n ≤ U) : k * U / n < (k + 1) * U / n :=
  calc k * U / n < (k * U + n) / n := by rw [Nat.add_div_right _ hn]; exact Nat.lt_succ_self _
    _ ≤ (k + 1) * U / n := Nat.div_le_div_right (by rw [Nat.succ_mul]; omega)

/-- Where U ≤ m n, the quotients by n of two successive multiples of U differ by m at most: no stripe is too wide. -/
theorem succ_mul_div_le {k U n m : Nat} (hn : 0 < n) (hU : U ≤ m * n) : (k + 1) * U / n ≤ k * U / n + m :=
  calc (k + 1) * U / n ≤ (k * U + m * n) / n := Nat.div_le_div_right (by rw [Nat.succ_mul]; omega)
    _ = k * U / n + m := Nat.add_mul_div_right _ _ hn

/-- The stripe after the last one would begin at the width. -/
theorem stripeStart_stripeCount {c : SensConfig} (h8 : c.width % 8 = 0) (h : 0 < c.width) :
    stripeStart c (stripeCount c) = c.width := by
  rw [stripeStart, Nat.mul_div_cancel_left _ (stripeCount_pos h)]
  omega

/-! ## Sensors under the operations of SENS_CONFIG -/

/-- What an update gives every sensor, and a sensor that is not there has, is so of the sensor updated. -/
theorem sensorOf_updSensor_of_forall {P : Sensor → Prop} {f : Sensor → Sensor} (h0 : P {}) (hf : ∀ x, P (f x))
    (s : State) (sn : Nat) : P (sensorOf (updSensor s sn f) sn) := by
  simp only [sensorOf, updSensor, modAt, List.getD_eq_getElem?_getD, List.getElem?_modify_eq]
  cases s.img.sensors[sn]? with
  | none => exact h0
  | some x => exact hf x

/-- Resolving banks writes banks alone. -/
theorem resolveBank_sensors (s : State) (r : Nat) (img : ColImage) (me : Option Nat) :
    (resolveBank s r img me).2.img.sensors = s.img.sensors := by
  unfold resolveBank
  dsimp only
  split
  · rfl
  · split <;> rfl

theorem resolveBanks_sensors (s : State) (rs : List Nat) (p : Params) (me : Option Nat) :
    (resolveBanks s rs p me).2.img.sensors = s.img.sensors := by
  unfold resolveBanks
  generalize List.replicate 6 none = banks
  induction rs generalizing s banks with
  | nil => rfl
  | cons r rs ih => exact (ih _ _).trans (resolveBank_sensors s r _ me)

theorem alloc_sensors (s : State) (obj : DramObj) (size : Nat) :
    (alloc s obj size).2.img.sensors = s.img.sensors := by
  unfold alloc
  split <;> rfl

theorem sweep_sensors (s : State) : (sweep s).img.sensors = s.img.sensors := rfl

theorem retire_sensors (s : State) (obj : DramObj) : (retire s obj).img.sensors = s.img.sensors := rfl

theorem columnRegion_sensors (s : State) (sn : Nat) : (columnRegion s sn).img.sensors = s.img.sensors := by
  unfold columnRegion
  split
  · split
    · exact alloc_sensors _ _ _
    · rfl
  · rfl

theorem sensorOf_congr {s t : State} (h : s.img.sensors = t.img.sensors) (sn : Nat) : sensorOf s sn = sensorOf t sn :=
  congrArg (·.getD sn {}) h

/-! ## The class and the budget that SENS_CONFIG sets (R144) -/

/-- The sensor, if it has a configuration, is in class 1 with that budget. -/
def ScheduledIfConfigured (sn budget : Nat) (s : State) : Prop :=
  (sensorOf s sn).cfg.isSome = true → (sensorOf s sn).cls = 1 ∧ (sensorOf s sn).budgetUs = budget

theorem ScheduledIfConfigured.congr {sn budget : Nat} {s t : State} (h : ScheduledIfConfigured sn budget s)
    (hs : t.img.sensors = s.img.sensors) : ScheduledIfConfigured sn budget t := by
  unfold ScheduledIfConfigured
  rw [sensorOf_congr hs]
  exact h

theorem ScheduledIfConfigured.updSensor_kept {sn budget : Nat} {s : State} {f : Sensor → Sensor}
    (h : ScheduledIfConfigured sn budget s) (hc : ∀ x, (f x).cfg = x.cfg) (hl : ∀ x, (f x).cls = x.cls)
    (hb : ∀ x, (f x).budgetUs = x.budgetUs) : ScheduledIfConfigured sn budget (updSensor s sn f) := by
  unfold ScheduledIfConfigured
  rwa [sensorOf_updSensor_kept _ _ _ _ hc, sensorOf_updSensor_kept _ _ _ _ hl, sensorOf_updSensor_kept _ _ _ _ hb]

/-- Binding sets the class and the budget, and only writes banks into the sensor afterwards. -/
theorem bindConfig_scheduled (s : State) (sn : Nat) (c : SensConfig) :
    ScheduledIfConfigured sn (maxBudgetUs c) (bindConfig s sn c) := by
  unfold bindConfig
  extract_lets s0 s1 x shadow track s2 r
  have h2 : ScheduledIfConfigured sn (maxBudgetUs c) s2 :=
    sensorOf_updSensor_of_forall (P := fun x => x.cfg.isSome = true → x.cls = 1 ∧ x.budgetUs = maxBudgetUs c)
      (fun h => nomatch h) (fun _ _ => ⟨rfl, rfl⟩) s1 sn
  have hr : ScheduledIfConfigured sn (maxBudgetUs c) r.2 := h2.congr (resolveBanks_sensors s2 _ shadow _)
  clear_value r
  exact .updSensor_kept (hr.congr rfl) (fun _ => rfl) (fun _ => rfl) fun _ => rfl

/-- The last acts of SENS_CONFIG, on the column term's region and the ones nothing holds, are on DRAM alone. -/
theorem ScheduledIfConfigured.replaceColumn {sn budget : Nat} {s : State} (h : ScheduledIfConfigured sn budget s) :
    ScheduledIfConfigured sn budget (sweep (columnRegion (retire s (.column sn)) sn)) :=
  have hr := h.congr (retire_sensors s (.column sn))
  (hr.congr (columnRegion_sensors _ sn)).congr (sweep_sensors _)

/-- Where the ring lies has no part in the budget. -/
theorem maxBudgetUs_withBase (c : SensConfig) (a : Nat) : maxBudgetUs { c with base := a } = maxBudgetUs c := by
  simp only [maxBudgetUs]

theorem applyConfig_scheduled (s : State) (sn : Nat) (c : SensConfig) :
    ScheduledIfConfigured sn (maxBudgetUs c) (applyConfig s sn c) := by
  unfold applyConfig
  extract_lets _ _ _ a
  rw [← maxBudgetUs_withBase c a.1]
  exact (bindConfig_scheduled a.2 sn { c with base := a.1 }).replaceColumn

/-- The budget that a command's parameters name (R144). -/
theorem maxBudgetUs_configOf (b : Body) :
    maxBudgetUs (configOf b) = (fld b 0x0E 1 - 1) * 1000000 * fld b 0x0C 2 / fld b 8 4 := by
  simp only [maxBudgetUs, configOf]

/-- An accepted SENS_CONFIG applies its configuration, whatever it then answers (R100). -/
theorem exec_sensConfig_state {n : Fin 40} {s : State} (h : Accepted sensConfigCard n s) : ∃ resp,
    exec (.sensConfig n) s =
      .next (mbxOk (applyConfig s (fld (slotBody s n) 0 1) (configOf (slotBody s n))) n resp) := by
  have he : ∃ resp, sensConfigCard.effect n (slotBody s n) s =
      (applyConfig s (fld (slotBody s n) 0 1) (configOf (slotBody s n)), .now resp) := by
    simp only [sensConfigCard]
    split
    · exact ⟨_, rfl⟩
    · exact ⟨_, rfl⟩
  obtain ⟨resp, he⟩ := he
  exact ⟨resp, congrArg Host.Outcome.next (mbxRun_now h he)⟩

/-! ## Bands (R131, R134, R136, R137) -/

theorem exec_bandIssue_ready {e : Fin 8} {p : Nat} {b : Band} {s : State} (hp : freeEngine s e = some p)
    (hb : nextBand s = some b) (hc : 0 < schedCredit s) : exec (.bandIssue e) s = .next (issueBand s p b) := by
  change execBandIssue e s = _
  simp only [execBandIssue, hp, hb, hc, if_true]

/-- A band of a frame in the ring takes its clocks from the credit, leaves the returned bands and runs (R134, R533). -/
theorem issueBand_of_frame {s : State} {b : Band} {f : IngestFrame} (hf : ingestOf s b.sensor b.seq = some f)
    (p : Nat) : issueBand s p b = (let t := settleCredit s
      { t with
        img.sched.credit := t.img.sched.credit -
          16 * bandTime f.cfg (stripeWidth f.cfg b.stripe) (bandLines f.cfg b.row)
        img.sched.returned := t.img.sched.returned.filter fun x =>
          !(x.sensor == b.sensor && x.seq == b.seq && x.stripe == b.stripe && x.row == b.row)
        img.sched.engines := modAt t.img.sched.engines p fun y => { y with
          running := some { b with start := now s } } }) := by
  simp only [issueBand, hf]

/-- The engine's band is over. -/
def engineIdle (s : State) (p : Nat) : State :=
  { s with img.sched.engines := modAt s.img.sched.engines p fun y => { y with running := none } }

/-- The frames are where they were when a band ends. -/
theorem ingestOf_engineIdle (s : State) (p sn seq : Nat) : ingestOf (engineIdle s p) sn seq = ingestOf s sn seq := rfl

/-- A band ends by its frame: its output takes effect, or with a dropped frame the frame's outputs may (R137, R170). -/
theorem bandEnd_running {s : State} {p : Nat} {b : Band} {f : IngestFrame}
    (hr : (s.img.sched.engines.getD p {}).running = some b) (hf : ingestOf s b.sensor b.seq = some f) (m k : Nat) :
    bandEnd s p m k = if f.drop.isSome then overloadCheck (dropOutputs (engineIdle s p) b.sensor b.seq)
      else overloadCheck (completeFrame (bandOutput (engineIdle s p) f b m k) b.sensor b.seq) := by
  have hf' := (ingestOf_engineIdle s p b.sensor b.seq).trans hf
  unfold engineIdle at hf' ⊢
  simp only [bandEnd, hr, hf']

theorem exec_deadlineDrop_late {x : Fin 4} {f : Nat × IngestFrame} {s : State}
    (h : ((pendingFrames s).find? fun f => f.1 == x.val && decide (f.2.deadline < viewSNow s)) = some f) :
    exec (.deadlineDrop x) s = .next (overloadCheck (schedDrop s f.1 f.2 1 0)) := by
  change execDeadlineDrop x s = _
  simp only [execDeadlineDrop, h]

/-! ## Engines that fail (R139, R140, R142) -/

/-- The engine is failed and runs nothing, with the credit brought up to the present. -/
def withoutEngine (s : State) (p : Nat) : State :=
  { settleCredit s with
    img.sched.engines := modAt (settleCredit s).img.sched.engines p fun _ => { failed := true, running := none } }

section
variable {s : State} {p : Nat} (hf : (s.img.sched.engines.getD p {}).failed = false) (hp : p ≤ stripeActive s.fuse)
include hf hp

/-- An engine of the part that has not failed yet fails now. -/
theorem engine_mayFail : ((s.img.sched.engines.getD p {}).failed || decide (stripeActive s.fuse < p)) = false := by
  rw [hf, Bool.false_or]
  exact decide_eq_false (Nat.not_lt.mpr hp)

/-- The spare takes the place of an idle engine, and the leaf is set if it was the last one (R139, R586). -/
theorem engineFail_idle_substituted {i n : Nat} (hr : (s.img.sched.engines.getD p {}).running = none)
    (hi : engineLogical (settleCredit s) p = some i) (hn : spareEngine (withoutEngine s p) = some n) (cause : Nat) :
    engineFail s p cause = overloadCheck (
      let t := withoutEngine s p
      let u := spareRecord (countSubst (spareRecord { t with img.sched.logical := t.img.sched.logical.set i n }
        1 0 cause p 0 0 0) 1) 1 1 cause n 0 0 0
      if (spareEngine u).isNone && (spareEngine (settleCredit s)).isSome then setLeaf u 21 7 else u) := by
  have hr' : ((settleCredit s).img.sched.engines.getD p {}).running = none := hr
  unfold withoutEngine at hn ⊢
  simp only [engineFail, engineFailFor, engine_mayFail hf hp, hr', hi, hn]
  rfl

/-- With no spare an idle engine's index is lost (R142). -/
theorem engineFail_idle_lost {i : Nat} (hr : (s.img.sched.engines.getD p {}).running = none)
    (hi : engineLogical (settleCredit s) p = some i) (hn : spareEngine (withoutEngine s p) = none)
    (hs : spareEngine (settleCredit s) = none) (cause : Nat) :
    engineFail s p cause = overloadCheck (setLeaf (spareRecord { withoutEngine s p with
      img.sched.lost := (withoutEngine s p).img.sched.lost ++ [i] } 1 0 cause p 0 0 0) 4 12) := by
  have hr' : ((settleCredit s).img.sched.engines.getD p {}).running = none := hr
  unfold withoutEngine at hn ⊢
  simp only [engineFail, engineFailFor, engine_mayFail hf hp, hr', hi, hn, hs, Option.isSome_none, Bool.and_false]
  rfl

/-- With no spare the index of an engine at work is lost too, and its band returns to the others (R140, R142). -/
theorem engineFail_running_lost {i : Nat} {b : Band} (hr : (s.img.sched.engines.getD p {}).running = some b)
    (hi : engineLogical (settleCredit s) p = some i) (hn : spareEngine (withoutEngine s p) = none)
    (hs : spareEngine (settleCredit s) = none) (cause : Nat) :
    engineFail s p cause = overloadCheck (
      let r := returnBand (withoutEngine s p) b
      let u := setLeaf (spareRecord { r.2 with img.sched.lost := r.2.img.sched.lost ++ [i] } 1 0 cause p 0 0 0) 4 12
      if r.1 then rerunEvent u p b cause 0xFF else u) := by
  have hr' : ((settleCredit s).img.sched.engines.getD p {}).running = some b := hr
  unfold withoutEngine at hn ⊢
  simp only [engineFail, engineFailFor, engine_mayFail hf hp, hr', hi, hn, hs, Option.isSome_none, Bool.and_false,
    Option.isSome_some, Bool.false_eq_true, if_false, if_true, id]
  generalize returnBand _ b = r
  obtain ⟨_ | _, u⟩ := r
  · rfl
  · rfl

end

theorem exec_engineNoProgress_running {e : Fin 9} {s : State}
    (h : (s.img.sched.engines.getD e.val {}).running.isSome = true) (f : Bool) :
    exec (.engineNoProgress e f) s = .next (engineFail { s with spare.flashOk := f } e 1) := by
  change execEngineNoProgress e f s = _
  rw [execEngineNoProgress, if_pos h]

/-! ## Colour banks (R225) -/

/-- The active set that SENS_CONFIG found no bank for is written first. -/
theorem exec_bankWrite_active {r : Fin 6} {k : Fin 2} {x : Nat} {s : State} (hw : bankWaiter s r = some x)
    (hk : bankFree s r k = true) (hl : lacksActive s r x = true) : exec (.bankWrite r k) s = .next (updSensor
      (setBank s r k (colImage ((sensorOf s x).active.colour.getD r {}))) x fun y => { y with
        banks := y.banks.set r.val (some k.val) }) := by
  change execBankWrite r k s = _
  simp only [execBankWrite, hw, hk, hl]
  rfl

theorem exec_bankWrite_pending {r : Fin 6} {k : Fin 2} {x : Nat} {p : PendingSet} {s : State}
    (hw : bankWaiter s r = some x) (hp : (sensorOf s x).pendingSet = some p) (hk : bankFree s r k = true)
    (hl : lacksActive s r x = false) : exec (.bankWrite r k) s = .next (updSensor
      (setBank s r k (colImage (p.params.colour.getD r.val {}))) x fun y => { y with
        pendingSet := some { p with banks := p.banks.set r.val (some k.val) } }) := by
  change execBankWrite r k s = _
  simp only [execBankWrite, hw, hp, hk, hl]
  rfl

/-! ## Calibration capture (R173) -/

theorem exec_calFinalPassDone_final {x : Fin 4} {c : Capture} {m : PhotoMap} {s : State}
    (hc : (sensorOf s x).capture = some c) (hm : mapOf s c.handle = some m) (hf : c.finalPass = true) :
    exec (.calFinalPassDone x) s =
      .next (captureEnd (finalPass s x c m).1 x 0 (finalPass s x c m).2.1 (finalPass s x c m).2.2) := by
  change execCalFinalPassDone x s = _
  simp only [execCalFinalPassDone, hc, hm, hf]
  rfl

/-! ## Renditions (R244, R245) -/

/-- RND0 has no engine that takes frames; the others do. -/
theorem exec_renditionTake_engine {r : Fin 6} (h : r.val ≠ 0) (s : State) :
    exec (.renditionTake r) s = .next (renditionTake s r) := by
  change execRenditionTake r s = _
  rw [execRenditionTake, if_neg h]

/-- A free engine takes the newest frame that it may, and passes over the older ones (R244). -/
theorem renditionTake_newest {r n : Nat} {b : SlBuf} {l : SlCfg} {c : SensConfig} {p : Placement} {s : State}
    (hn : (rndOf s r).sensor = some n) (hb : newestOf (eligible s r) = some b) (ht : (rndOf s r).taken = none)
    (hl : (sensorOf s n).slEff = some l) (hc : (sensorOf s n).cfg = some c)
    (hp : b.params.place.getD r none = some p) : renditionTake s r = updRnd (takeFrame
      (passOver s r n ((eligible s r).filter fun q => q.seq < b.seq)) r n b l c p) r fun x => { x with
        lastSeen := some b.seq } := by
  simp only [renditionTake, hn, hb, ht, hl, hc, hp]
  rfl

/-- A rendering ends once the credit let its last line start (R245, R533). -/
theorem renditionFrameDone_started {r : Nat} {t : Taken} {p : Placement} {s : State} (ht : (rndOf s r).taken = some t)
    (hp : t.src.params.place.getD r none = some p) (hl : linesStarted s r p = true) :
    renditionFrameDone s r = renderDone s r t p := by
  simp only [renditionFrameDone, ht, hp, hl, if_true]

/-! ## The obligations -/

/-- Settles O58: the groups of 8 columns are at least as many as the stripes, and at most 256 to a stripe. -/
theorem stripesTile : Obligations.StripesTile := by
  refine ⟨fun c => ⟨rfl, fun _ => rfl⟩, fun c h8 h => ⟨?first, stripeStart_stripeCount h8 h, fun k _ => ?stripe⟩⟩
  case first => simp [stripeStart]
  case stripe =>
    have hlt := mul_div_lt_succ_mul_div (k := k) (stripeCount_pos h) (stripeCount_le_groups h8)
    have hle := succ_mul_div_le (k := k) (stripeCount_pos h) (groups_le_stripeCount (c := c))
    simp only [stripeWidth, stripeStart]
    omega

/-- Settles O57: what binding the configuration sets stands through the rest of the command. -/
theorem sensConfigSchedules : Obligations.SensConfigSchedules := by
  intro n s h
  obtain ⟨resp, ht⟩ := exec_sensConfig_state h
  have hs := (applyConfig_scheduled s (fld (slotBody s n) 0 1) (configOf (slotBody s n))).congr
    (congrArg Imaging.sensors (mbxOk_img _ n resp))
  rw [maxBudgetUs_configOf] at hs
  exact ⟨_, ht, fun c hc => hs (hc ▸ rfl)⟩

/-- Settles O17: each row is run under its card, whose effect is the one stated. That FE_MAP_ALLOC gives the lowest free
handle is the model's choice (log entry 210), which R159 leaves open. -/
theorem frontEndCommands : Obligations.FrontEndCommands := by
  refine ⟨?schedSensor, ?schedCommit, ?schedStatus, ?linLoad, ?merge, ?black, ?mapAlloc, ?mapFree, ?mapSelect,
    ?defect, ?statsConfig, ?calCapture, ?calAbort⟩
  all_goals exact fun n => yields_of_effect (fun _ => rfl) fun _ _ => rfl

/-- Settles O40: each event by its own lemma; a failing engine by whether it ran a band and whether a spare is left. -/
theorem schedulerEvents : Obligations.SchedulerEvents := by
  refine ⟨?issue, fun _ _ _ _ => rfl, ?complete, fun _ _ _ => exec_deadlineDrop_late, fun _ _ _ => rfl, ?idleFault,
    fun _ f _ h => exec_engineNoProgress_running h f, ?runningFault, fun _ _ _ _ => exec_bankWrite_active,
    fun _ _ _ _ _ => exec_bankWrite_pending, fun _ _ _ _ => exec_calFinalPassDone_final,
    fun _ s h => exec_renditionTake_engine h s, ?take, ?rendered, fun _ _ => rfl⟩
  case issue =>
    intro e p b s hp hb hc
    have h := exec_bandIssue_ready hp hb hc
    exact ⟨h, fun f hf => h.trans (congrArg Host.Outcome.next (issueBand_of_frame hf p))⟩
  case complete =>
    intro e m k b f s hr hf
    have h := bandEnd_running hr hf m k
    refine ⟨fun hd => congrArg Host.Outcome.next (h.trans (if_neg ?_)),
      fun hd => congrArg Host.Outcome.next (h.trans (if_pos hd))⟩
    simp [hd]
  case idleFault =>
    intro e f s hf hr hp
    exact ⟨fun i n hi hn => congrArg Host.Outcome.next
        (engineFail_idle_substituted (s := { s with spare.flashOk := f }) hf hp hr hi hn 0),
      fun i hi hn hs => congrArg Host.Outcome.next
        (engineFail_idle_lost (s := { s with spare.flashOk := f }) hf hp hr hi hn hs 0)⟩
  case runningFault =>
    intro e f b i s hf hr hp a t hi hn hs
    exact (exec_engineNoProgress_running (Option.isSome_of_mem hr) f).trans
      (congrArg Host.Outcome.next (engineFail_running_lost (s := { s with spare.flashOk := f }) hf hp hr hi hn hs 1))
  case take =>
    intro r n b l c p s h hn hb ht hl hc hp
    exact (exec_renditionTake_engine h s).trans
      (congrArg Host.Outcome.next (renditionTake_newest hn hb ht hl hc hp))
  case rendered =>
    intro r t p s ht hp hl
    exact congrArg Host.Outcome.next (renditionFrameDone_started ht hp hl)

end Sys2Proof.Machine
end

section
/-! PROOFS. Demosaic and scene-linear frames (08_demosaic_and_scene_linear.md): what F24 operations give and which values
they keep, and what the accepted development, colour and rendition commands change and answer. -/

namespace Sys2Proof.Machine

/-! ## Rounding to the nearest, ties to even -/

/-- Rounding goes up by one at most. -/
theorem roundEven_le_succ (n d : Nat) : roundEven n d ≤ n / d + 1 := by
  have hodd : n / d % 2 < 2 := Nat.mod_lt _ (by decide)
  unfold roundEven
  dsimp only
  split
  · exact Nat.le_succ _
  · split
    · exact Nat.le_refl _
    · omega

/-- A whole quotient is its own rounding. -/
theorem roundEven_mul_right (q : Nat) {d : Nat} (h : 0 < d) : roundEven (q * d) d = q := by
  rw [roundEven, Nat.mul_div_cancel q h, Nat.mul_mod_left]
  exact if_pos h

namespace F24

/-! ## The magnitude of a rounding (R181, R183) -/

/-- The power of two by which `round` scales the magnitude a / d, so that 17 bits are left of it at most. -/
def scaleOf (a d : Nat) : Nat := Nat.log2 (a / d) - 16

/-- The code of the magnitude a / d rounded, without its sign. -/
def roundMag (a d : Nat) : Nat := pack (roundEven a (d * 2 ^ scaleOf a d)) (scaleOf a d)

/-- A rounding is its magnitude's code, with the sign bit where the value is negative and the magnitude not 0. -/
theorem round_eq (n : Int) (d : Nat) : round n d =
    if n < 0 && roundMag n.natAbs d != 0 then roundMag n.natAbs d + 0x800000 else roundMag n.natAbs d := rfl

/-- The scaled magnitude has 17 bits at most. -/
theorem div_scaleOf_lt (a d : Nat) : a / (d * 2 ^ scaleOf a d) < 2 ^ 17 := by
  rw [← Nat.div_div_eq_div_mul, Nat.div_lt_iff_lt_mul (Nat.two_pow_pos _), ← Nat.pow_add]
  calc a / d < 2 ^ ((a / d).log2 + 1) := Nat.lt_log2_self
    _ ≤ 2 ^ (17 + scaleOf a d) := Nat.pow_le_pow_right (by decide) (by unfold scaleOf; omega)

theorem pack_of_lt {q : Nat} (h : q < 65536) (k : Nat) : pack q k = q := if_pos h

/-- A mantissa with its leading bit is packed as its exponent and its fraction. -/
theorem pack_normal {f k : Nat} (hf : f < 65536) (hk : k < 127) : pack (65536 + f) k = (k + 1) * 65536 + f := by
  unfold pack
  rw [if_neg (by omega), if_neg (by omega), if_neg (by omega), Nat.add_sub_cancel_left]

/-- Packing saturates below the sign bit. -/
theorem pack_lt {q : Nat} (h : q ≤ 2 ^ 17) (k : Nat) : pack q k < 0x800000 := by
  unfold pack
  split
  · omega
  · split
    · split
      · decide
      · omega
    · split
      · decide
      · omega

theorem roundMag_lt (a d : Nat) : roundMag a d < 0x800000 :=
  pack_lt (Nat.le_trans (roundEven_le_succ _ _) (div_scaleOf_lt a d)) _

/-! ## Results (R182) -/

/-- What an operation may give: a 24-bit code other than negative zero. -/
def IsResult (r : Nat) : Prop := r < 2 ^ 24 ∧ r ≠ 0x800000

/-- A magnitude is below the sign bit, which is set on no magnitude of 0. -/
theorem isResult_round (n : Int) (d : Nat) : IsResult (round n d) := by
  have hlt := roundMag_lt n.natAbs d
  unfold IsResult
  rw [round_eq]
  split
  case isTrue hneg =>
    have hne : roundMag n.natAbs d ≠ 0 := bne_iff_ne.mp (Bool.and_eq_true_iff.mp hneg).2
    omega
  case isFalse => omega

/-- 1 / 0 is the largest value; any other reciprocal is a rounding. -/
theorem isResult_recip (a : Nat) : IsResult (recip a) := by
  unfold recip
  dsimp only
  split
  · exact ⟨by decide, by decide⟩
  · exact isResult_round _ _

/-! ## Exact values (R181, R183) -/

/-- The magnitude of a code's value, in units of 2^-78. -/
def magOf (c : Nat) : Nat :=
  if c / 65536 % 128 = 0 then c % 65536 else (65536 + c % 65536) * 2 ^ (c / 65536 % 128 - 1)

theorem val_eq (c : Nat) : val c = if c.testBit 23 then -(magOf c : Int) else magOf c := rfl

/-- Below 2^16 units nothing is scaled away. -/
theorem roundMag_subnormal {f : Nat} (hf : f < 65536) : roundMag f 1 = f := by
  have hscale : scaleOf f 1 = 0 := by
    rcases Nat.eq_zero_or_pos f with rfl | hpos
    · decide
    · have hlog : f.log2 < 16 := (Nat.log2_lt (Nat.pos_iff_ne_zero.mp hpos)).mpr hf
      rw [scaleOf, Nat.div_one]
      omega
  have hround := roundEven_mul_right f Nat.one_pos
  rw [Nat.mul_one] at hround
  rw [roundMag, hscale, Nat.pow_zero, Nat.one_mul, hround, pack_of_lt hf]

/-- A mantissa of 17 bits is scaled by the power of two that it carries. -/
theorem scaleOf_normal {f : Nat} (hf : f < 65536) (k : Nat) : scaleOf ((65536 + f) * 2 ^ k) 1 = k := by
  have hpos := Nat.two_pow_pos k
  have hne : (65536 + f) * 2 ^ k ≠ 0 := Nat.mul_ne_zero (by omega) (Nat.pos_iff_ne_zero.mp hpos)
  have hlog : ((65536 + f) * 2 ^ k).log2 = 16 + k := by
    rw [Nat.log2_eq_iff hne, Nat.add_right_comm, Nat.pow_add, Nat.pow_add]
    exact ⟨Nat.mul_le_mul_right _ (Nat.le_add_right _ _), Nat.mul_lt_mul_of_pos_right (by omega) hpos⟩
  rw [scaleOf, Nat.div_one, hlog, Nat.add_sub_cancel_left]

theorem roundMag_normal {f k : Nat} (hf : f < 65536) (hk : k < 127) :
    roundMag ((65536 + f) * 2 ^ k) 1 = (k + 1) * 65536 + f := by
  rw [roundMag, scaleOf_normal hf, Nat.one_mul, roundEven_mul_right _ (Nat.two_pow_pos k), pack_normal hf hk]

/-- A code's magnitude is rounded to its own exponent and fraction. -/
theorem roundMag_magOf (c : Nat) : roundMag (magOf c) 1 = c % 0x800000 := by
  have hf : c % 65536 < 65536 := Nat.mod_lt _ (by decide)
  unfold magOf
  split
  case isTrue he =>
    rw [roundMag_subnormal hf]
    omega
  case isFalse he =>
    rw [roundMag_normal hf (by omega)]
    omega

/-- Only the two zeros have magnitude 0. -/
theorem magOf_pos {c : Nat} (h : c % 0x800000 ≠ 0) : 0 < magOf c := by
  refine Nat.pos_of_ne_zero fun hz => h ?_
  rw [← roundMag_magOf, hz]
  exact roundMag_subnormal (by decide)

/-- A value that has a code is given by that code. -/
theorem round_val {c : Nat} (hc : c < 2 ^ 24) (hz : c ≠ 0x800000) : round (val c) 1 = c := by
  have hbit : c.testBit 23 = decide (c / 2 ^ 23 % 2 = 1) := Nat.testBit_eq_decide_div_mod_eq
  rw [round_eq, val_eq]
  cases hs : c.testBit 23 with
  | true =>
    have hsign : c / 2 ^ 23 % 2 = 1 := of_decide_eq_true (hbit ▸ hs)
    have hmag : c % 0x800000 ≠ 0 := by omega
    have hneg : -(magOf c : Int) < 0 := Int.neg_neg_of_pos (Int.natCast_pos.mpr (magOf_pos hmag))
    have hcond : (decide (-(magOf c : Int) < 0) && c % 0x800000 != 0) = true :=
      Bool.and_eq_true_iff.mpr ⟨decide_eq_true hneg, bne_iff_ne.mpr hmag⟩
    rw [if_pos rfl, Int.natAbs_neg, Int.natAbs_natCast, roundMag_magOf, if_pos hcond]
    omega
  | false =>
    have hsign : ¬ c / 2 ^ 23 % 2 = 1 := of_decide_eq_false (hbit ▸ hs)
    have hnonneg : ¬ (magOf c : Int) < 0 := Int.not_lt.mpr (Int.natCast_nonneg _)
    have hcond : ¬ (decide ((magOf c : Int) < 0) && c % 0x800000 != 0) = true :=
      fun h => hnonneg (of_decide_eq_true (Bool.and_eq_true_iff.mp h).1)
    rw [if_neg Bool.false_ne_true, Int.natAbs_natCast, roundMag_magOf, if_neg hcond]
    omega

end F24

/-- Settles O59: every operation but the reciprocal of 0 ends in `round`, whose result never is negative zero and keeps a
value that has a code. -/
theorem f24ResultsAreCodes : Obligations.F24ResultsAreCodes := by
  refine ⟨by decide, fun a b k => ?results, fun c => F24.round_val⟩
  case results =>
    simp only [List.forall_mem_cons]
    exact ⟨F24.isResult_round _ _, F24.isResult_round _ _, F24.isResult_round _ _, F24.isResult_round _ _,
      F24.isResult_round _ _, F24.isResult_recip a, F24.isResult_round _ _, fun _ h => absurd h List.not_mem_nil⟩

/-! ## Commands that answer with buffers (R196, R239, R240, R248) -/

/-- An accepted row that is run under its card ends as the card's effect on the state it met. -/
theorem exec_of_effect {c : Card} {i : Instr} {n : Fin 40} {s t : State} {resp : List Byte}
    (hi : exec i s = .next (mbxRun c n s)) (h : Accepted c n s)
    (he : c.effect n (slotBody s n) s = (t, .now resp)) : exec i s = .next (mbxOk t n resp) :=
  hi.trans (congrArg Host.Outcome.next (mbxRun_now h he))

section
variable {n : Nat} {b : Body} {s : State}

theorem devSlFrameCard_effect_on {l : SlCfg} {c : SensConfig} (hl : slAsked b = some l)
    (hc : (sensorOf s (fld b 0 1)).cfg = some c) : devSlFrameCard.effect n b s =
      (let r := realloc s (.slFrame (fld b 0 1)) (slAskedBytes b s)
      (setSl r.2 (fld b 0 1) (some { l with base := r.1 }),
        .now (leBytes 8 r.1 ++ leBytes 4 (slStride c l.scale) ++ leBytes 4 (slBytes c l.scale)))) := by
  simp only [devSlFrameCard, hl, hc]

theorem devSlFrameCard_effect_off (hl : slAsked b = none) : devSlFrameCard.effect n b s =
    (setSl (realloc s (.slFrame (fld b 0 1)) (slAskedBytes b s)).2 (fld b 0 1) none, .now (zeros 16)) := by
  simp only [devSlFrameCard, hl]

theorem rnd0OutputCard_effect_on {l : Rnd0Cfg} {c : SensConfig} (hl : rnd0Asked b = some l)
    (hc : (sensorOf s (fld b 0 1)).cfg = some c) : rnd0OutputCard.effect n b s =
      (let r := realloc s (.rnd0 (fld b 0 1)) (rnd0AskedBytes b s)
      (setRnd0 r.2 (fld b 0 1) (some { l with base := r.1 }),
        bufferResponse r.1 (layoutStride l.layout c.width) (layoutBufBytes l.layout c.width c.height))) := by
  simp only [rnd0OutputCard, hl, hc]

theorem rnd0OutputCard_effect_off (hl : rnd0Asked b = none) : rnd0OutputCard.effect n b s =
    (setRnd0 (realloc s (.rnd0 (fld b 0 1)) (rnd0AskedBytes b s)).2 (fld b 0 1) none, .now (zeros 16)) := by
  simp only [rnd0OutputCard, hl]

theorem tapConfigCard_effect_on {t : Tap} {c : SensConfig} (ht : tapAsked b = some t)
    (hc : (sensorOf s (fld b 0 1)).cfg = some c) : tapConfigCard.effect n b s =
      (let r := realloc s (.tap (fld b 0 1) (fld b 1 1)) (tapAskedBytes b s)
      (setTap r.2 (fld b 0 1) (fld b 1 1) (some { t with base := r.1 }),
        bufferResponse r.1 (tapStride c) (tapBytes c (fld b 1 1)))) := by
  simp only [tapConfigCard, ht, hc]

theorem tapConfigCard_effect_off (ht : tapAsked b = none) : tapConfigCard.effect n b s =
    (setTap (realloc s (.tap (fld b 0 1) (fld b 1 1)) (tapAskedBytes b s)).2 (fld b 0 1) (fld b 1 1) none,
      .now (zeros 16)) := by
  simp only [tapConfigCard, ht]

theorem rndBindCard_effect_unbind (h : fld b 1 1 = 0xFF) :
    rndBindCard.effect n b s = (bindRnd s (fld b 0 1) none {}, .now (zeros 16)) := if_pos h

theorem rndBindCard_effect_bind (h : fld b 1 1 ≠ 0xFF) : rndBindCard.effect n b s =
    (let t := bindRnd s (fld b 0 1) (some (fld b 1 1)) (bindAsked b)
    let x := rndOf t (fld b 0 1)
    (t, bufferResponse x.base (layoutStride x.layout x.maxW) (rndBufBytes x))) := if_neg h

end

/-- Settles O18: each row is run under its card. The cards that answer with buffers have a lemma for each of their forms,
on and off; the effect of any other card is the one stated. -/
theorem colourCommands : Obligations.ColourCommands := by
  refine ⟨?cfa, ?demosaic, ?transform, ?gains, ?shaper, ?lut, ?contrast, ?output, ?colStatus, ?geometry, ?rndStatus,
    fun n s l c h => ?slOn, fun n s h hl => ?slOff, fun n s h hl => ?rnd0Off, fun n s l c h => ?rnd0On,
    fun n s h => ?bind, fun n s l c h => ?tapOn, fun n s h ht => ?tapOff⟩
  case slOn => exact fun hl hc => exec_of_effect rfl h (devSlFrameCard_effect_on hl hc)
  case slOff => exact exec_of_effect rfl h (devSlFrameCard_effect_off hl)
  case rnd0Off => exact exec_of_effect rfl h (rnd0OutputCard_effect_off hl)
  case rnd0On => exact fun hl hc => exec_of_effect rfl h (rnd0OutputCard_effect_on hl hc)
  case bind =>
    exact ⟨fun hf => exec_of_effect rfl h (rndBindCard_effect_unbind hf),
      fun hf => exec_of_effect rfl h (rndBindCard_effect_bind hf)⟩
  case tapOn => exact fun ht hc => exec_of_effect rfl h (tapConfigCard_effect_on ht hc)
  case tapOff => exact exec_of_effect rfl h (tapConfigCard_effect_off ht)
  all_goals exact fun n => yields_of_effect (fun _ => rfl) fun _ _ => rfl

end Sys2Proof.Machine
end

section
/-! PROOFS. Schist engines (12_schist_engines.md): what the accepted codec commands change and answer, and what the
slabs, deadlines and failing lanes of the Schist pool do. -/

namespace Sys2Proof.Machine

/-! ## Slabs that issue (R292, R297, R640) -/

theorem exec_slabIssue_lane {l : Fin 4} {p : Nat} {s : State} (hp : lanePhys s l = some p) :
    exec (.slabIssue l) s = .next (issueSlab s p) := by
  change execSlabIssue l s = _
  simp only [execSlabIssue, hp]

/-- A slab of a stream's frame fixes the frame's ceiling if it is the first, counts as issued and runs (R277, R289). -/
theorem issueStream_of_frame {s : State} {t q : Nat} {f : CodecFrame}
    (hf : (codecStream s t).frames.find? (fun f => f.seq == q) = some f) (p n : Nat) (fallback : Bool) :
    issueStream s p t q n fallback = laneStart (updFrame (fixCeiling s t q f.cfg.frameMax) t q fun f => { f with
        issued := if f.issued.contains n then f.issued else f.issued ++ [n], noLane := f.noLane.erase n }) p
      (.stream t q n f.emergency fallback) (slabClocks (streamSlab f.cfg f n).2.2 1) := by
  simp only [issueStream, hf]

section
variable {s : State} {p : Nat} (hp : laneFree s p = true)
include hp

/-- A slab that a failed lane returned is the first in the order; here a job's (R297). -/
theorem issueSlab_returnedJob {j n : Nat} {b : Bool} {x : Job} {rest : List LaneWork}
    (hr : s.codec.returned = .job j n b :: rest) (hj : jobOf s j = some x) :
    issueSlab s p = laneStart { s with codec.returned := rest } p (.job j n b)
      (jobClocks { s with codec.returned := rest } x.spec n) := by
  have hj' : jobOf { s with codec.returned := rest } j = some x := hj
  simp [issueSlab, hp, hr, hj']

/-- With no returned slab the stream slab of the earliest deadline is next (R292). -/
theorem issueSlab_stream {k : Int} {t q n : Nat} (hr : s.codec.returned = [])
    (hb : bestStreamSlab s = some (k, t, q, n)) : issueSlab s p = issueStream s p t q n false := by
  simp [issueSlab, hp, hr, hb]

/-- With no stream slab ready either, the jobs have the lane (R292, R640). -/
theorem issueSlab_job (hr : s.codec.returned = []) (hb : bestStreamSlab s = none) : issueSlab s p = issueJob s p := by
  simp [issueSlab, hp, hr, hb]

end

/-! ## Slabs that are verified (R283, R284) or decoded (R296) -/

section
variable {p : Fin 5} {w : LaneWork} {s : State} (hw : (lane s p).running = some w) (hd : isDecodeWork s w = false)
include hw hd

theorem exec_slabVerified_ok (f : Bool) : exec (.slabVerified p .ok f) s = .next (slabVerified s p w) := by
  change execSlabVerified p .ok f s = _
  simp [execSlabVerified, hw, hd]

/-- A slab that fails its check for the first time is coded again on its lane as a fallback. -/
theorem exec_slabVerified_bad_first (hb : isFallback w = false) (f : Bool) (e : Byte) :
    exec (.slabVerified p (.bad e) f) s =
      .next (laneStart (verifyEvent (countFallback s w) p w 0 e.toNat) p (asFallback w) (workClocks s w)) := by
  change execSlabVerified p (.bad e) f s = _
  simp [execSlabVerified, hw, hd, hb]

/-- A fallback that fails its check fails its lane. -/
theorem exec_slabVerified_bad_fallback (hb : isFallback w = true) (f : Bool) (e : Byte) :
    exec (.slabVerified p (.bad e) f) s =
      .next (laneFail (verifyEvent { s with spare.flashOk := f } p w 1 e.toNat) p 1) := by
  change execSlabVerified p (.bad e) f s = _
  simp [execSlabVerified, hw, hd, hb]

end

theorem exec_decodeSlabDone_running {p : Fin 5} {j n : Nat} {b : Bool} {s : State}
    (hw : (lane s p).running = some (.job j n b)) (hd : isDecodeWork s (.job j n b) = true) :
    exec (.decodeSlabDone p) s = .next (decodeSlabDone (laneStop s p) j n) := by
  change execDecodeSlabDone p s = _
  simp only [execDecodeSlabDone, hw, hd, if_true]

/-! ## Deadlines (R291) and lanes that make no progress (R297) -/

/-- The oldest frame is lost at its deadline, with result 3 if a lane fault left an emergency slab no lane (R290). -/
theorem exec_codecDeadline_oldest {t : Fin 8} {f : CodecFrame} {l : List CodecFrame} {s : State}
    (h : (codecStream s t).frames = f :: l) : exec (.codecDeadline t) s =
      .next (codecLost s t f (if f.emergency && !f.noLane.isEmpty then 3 else 2)) := by
  change execCodecDeadline t s = _
  simp only [execCodecDeadline, h]

theorem exec_codecLaneNoProgress_running {p : Fin 5} {s : State} (h : (lane s p).running.isSome = true) (f : Bool) :
    exec (.codecLaneNoProgress p f) s = .next (laneFail { s with spare.flashOk := f } p 2) := by
  change execCodecLaneNoProgress p f s = _
  rw [execCodecLaneNoProgress, if_pos h]

/-! ## The obligations -/

/-- Settles O19: each row is run under its card, whose effect is the one stated. -/
theorem codecCommands : Obligations.CodecCommands := by
  refine ⟨?stream, ?encode, ?decode, ?resume, ?abort, ?status⟩
  all_goals exact fun n => yields_of_effect (fun _ => rfl) fun _ _ => rfl

/-- Settles O41: a free lane by what is first in the order of slabs, a checked slab by its verdict and whether it was a
fallback, the other events by their own lemmas. -/
theorem codecEvents : Obligations.CodecEvents := by
  refine ⟨fun _ _ _ => exec_slabIssue_lane, fun l p s hl hp => ⟨?stream, ?job, ?returned⟩,
    fun _ f _ _ hw hd => exec_slabVerified_ok hw hd f,
    fun _ f e _ _ hw hd hb => exec_slabVerified_bad_first hw hd hb f e,
    fun _ f e _ _ hw hd hb => exec_slabVerified_bad_fallback hw hd hb f e, fun _ _ _ _ => exec_codecDeadline_oldest,
    fun _ _ _ => rfl, fun _ f _ h => exec_codecLaneNoProgress_running h f,
    fun _ _ _ _ _ => exec_decodeSlabDone_running⟩
  case stream =>
    intro k t q n f hr hb hf
    have h := (issueSlab_stream hp hr hb).trans (issueStream_of_frame hf p n false)
    exact (exec_slabIssue_lane hl).trans (congrArg Host.Outcome.next h)
  case job =>
    intro hr hb
    exact (exec_slabIssue_lane hl).trans (congrArg Host.Outcome.next (issueSlab_job hp hr hb))
  case returned =>
    intro j n b x rest hr hj
    exact (exec_slabIssue_lane hl).trans (congrArg Host.Outcome.next (issueSlab_returnedJob hp hr hj))

end Sys2Proof.Machine
end

section
/-! PROOFS. Recording (13_recording.md): what the accepted recording and volume commands change and answer, how held
markers, checkpoints and closing clips act, and what a port's window, journal and drive do with the writes it stages. -/

namespace Sys2Proof.Machine

/-! ## Volume commands that wait for their port (R337, R353) -/

/-- An accepted command whose port holds no withheld write runs at once. -/
theorem exec_of_effect_not_waiting {c : Card} {i : Instr} {n : Fin 40} {s t : State} {resp : List Byte}
    (hi : exec i s = .next (if gateWaits c s n then s else mbxRun c n s)) (hw : gateWaits c s n = false)
    (h : Accepted c n s) (he : c.effect n (slotBody s n) s = (t, .now resp)) : exec i s = .next (mbxOk t n resp) := by
  rw [hw] at hi
  exact exec_of_effect hi h he

/-! ## Items and checkpoints (R307, R317) -/

/-- Room for a marker lets the held one be written; nothing waited behind it. -/
theorem releaseHeld_of_fits {s : State} {c : Nat} {it : RecItem} (hh : (recChan s c).held = some it)
    (hf : engineFits s 4096 = true) (hw : (recChan s c).waiting = []) : releaseHeld s c =
      countOverrun (writeBoth (updChan s c fun y => { y with held := none, waiting := [] }) c it) c := by
  simp only [releaseHeld, hh, hf, hw, Bool.not_true, Bool.false_eq_true, if_false, List.foldl_nil]

theorem growThen_of_clipGrow {α : Type} {s t : State} {k g : Clip} {n : Nat} (hg : clipGrow s k n = some (g, t))
    (full : α) (f : Clip → State → α) : growThen s k n full f = f g t := by
  rw [growThen, hg, grown]

/-- A clip with entries to cover grows by the checkpoint's block, clear of its volume's close reserve (R322). -/
theorem checkpoint_of_grown {s t : State} {c : Nat} {k g : Clip} (hk : (recChan s c).clip = some k)
    (hp : k.pending ≠ 0) (hr : entersReserve s k 4096 = false) (hg : clipGrow s k 4096 = some (g, t)) :
    checkpoint s c = checkpointIn t c g := by
  simp only [checkpoint, hk, if_neg hp, hr, Bool.false_eq_true, if_false]
  exact growThen_of_clipGrow hg _ _

theorem exec_recClipClose_durable {c : Fin 8} {s : State} (h : lastItemDurable s c = true) :
    exec (.recClipClose c) s = .next (chanIdle (closeClip s c 0 0 0xFF 0) c) := by
  change execRecClipClose c s = _
  rw [execRecClipClose, if_pos h]

/-! ## Admission to a port's window (R330, R343) -/

section
variable {s : State} {p : Nat} {w : GWrite} (hs : s.gate.stopped = none)
  (hw : (s.gate.writes.find? fun w => w.port == p && decide (w.admitted < w.blocks)) = some w)
  (hm : mayAdmit s w = true)
include hs hw hm

/-- A journalled unit starts with its record. -/
theorem gateAdmit_unit (hj : w.journal = true) (hr : w.jrec = none) (k : Nat) :
    gateAdmit s p k = startRecord s w (if unitFits s w then w.blocks else 0) := by
  simp [gateAdmit, hs, hw, hm, hj, hr]

/-- A write outside the journal enters block by block, as far as its tags and the window allow. -/
theorem gateAdmit_blocks (hj : w.journal = false) (k : Nat) :
    gateAdmit s p k = updWrite s w.id fun y => { y with
      admitted := y.admitted + min (min k (min (w.blocks - w.admitted) (tagBlocks s w))) (windowFree s p / w.blk) } := by
  simp [gateAdmit, hs, hw, hm, hj]

end

/-! ## The journal (R343) -/

theorem recordDurable_of_jrec {s : State} {w : GWrite} {q a : Nat} {b : Bool} (hr : w.jrec = some (q, a, b)) :
    recordDurable s w =
      (let old := (List.range w.blocks).flatMap fun i =>
        blockUnder (earlier s w) s w.port w.blk (targetLba w.targets i)
      updWrite (updGatePort s w.port fun y => { y with
        disk := memPutBytes y.disk (journalBlock a * 4096) (journalRecord w.targets q old ++ old) }) w.id fun y =>
          { y with jrec := some (q, a, true) }) := by
  simp only [recordDurable, hr]

theorem journalDurable_of_oldest {s : State} {p : Nat} {w : GWrite}
    (hw : (s.gate.writes.find? fun w => w.port == p && (w.jrec.any fun j => !j.2.2)) = some w) :
    journalDurable s p = recordDurable s w := by
  simp only [journalDurable, hw]

/-- The journalled units of a port that lead in order of acceptance and are durable: those that may retire. -/
def durableUnits (s : State) (p : Nat) : List GWrite :=
  (s.gate.writes.filter fun w => w.port == p && w.jrec.isSome).takeWhile GWrite.durable

/-- The header takes the sequence number of the last unit that may retire, and all of them leave. -/
theorem journalRetire_of_last {s : State} {p q a : Nat} {b : Bool} {w : GWrite}
    (hl : (durableUnits s p).getLast? = some w) (hr : w.jrec = some (q, a, b)) : journalRetire s p =
      (let t := updGatePort s p fun y => { y with
        retiredSeq := q, disk := memPutBytes y.disk (256 * 4096) (journalHeader q y.jhead y.headDrain y.left) }
      { t with gate.writes := t.gate.writes.filter fun x => !((durableUnits s p).any fun d => d.id == x.id) }) := by
  have hb : ((durableUnits s p).getLast?).bind (·.jrec) = some (q, a, b) := by rw [hl, Option.bind_some, hr]
  unfold durableUnits at hb ⊢
  simp only [journalRetire, hb]

/-! ## Drives (R328, R329, R332) -/

theorem exec_driveWriteComplete_mayComplete {p : Fin 4} {i k : Nat} {w : GWrite} {s : State}
    (hw : (s.gate.writes.filter fun w => w.port == p.val)[i]? = some w) (hm : mayComplete s w = true) :
    exec (.driveWriteComplete p i k) s =
      .next (nvmeSettle (makeDurable (rootSend s w.port) w (min (w.written + k) w.admitted))) := by
  change execDriveWriteComplete p i k s = _
  simp only [execDriveWriteComplete, hw, hm, if_true]

theorem exec_driveFailed_up {p : Fin 4} {s : State} (h : (gatePort s p).state = 1 ∨ (gatePort s p).state = 3)
    (c : DriveFault) : exec (.driveFailed p c) s = .next (driveFailed s p (driveFaultCode c)) := by
  change execDriveFailed p c s = _
  simp only [execDriveFailed, Bool.or_eq_true, decide_eq_true_eq, h, if_true]

/-! ## The obligations -/

/-- Settles O20: each row is run under its card, whose effect is the one stated; the two that a withheld write may keep
waiting are run because none does. -/
theorem recordingCommands : Obligations.RecordingCommands := by
  refine ⟨?start, ?stop, ?channel, ?unmount, ?clipDelete, ?status, fun n s h hw => ?mount, fun n s h hw => ?format⟩
  case mount => exact exec_of_effect_not_waiting rfl hw h rfl
  case format => exact exec_of_effect_not_waiting rfl hw h rfl
  all_goals exact fun n => yields_of_effect (fun _ => rfl) fun _ _ => rfl

/-- Settles O42: a row that calls its operation outright is that operation, and the operation's own lemma gives the state
under what the clause assumes. -/
theorem recordingAndDriveEvents : Obligations.RecordingAndDriveEvents := by
  refine ⟨fun _ _ => ⟨rfl, rfl⟩, fun _ _ _ hh hf hw => ?held, fun _ _ _ _ _ hk hp hr hg => ?checkpoint,
    fun _ _ => exec_recClipClose_durable, fun _ _ _ => rfl, fun p k w s hs hw hm => ⟨fun hj hr => ?unit, fun hj => ?blocks⟩,
    fun _ _ => ⟨rfl, rfl⟩, fun p w q a b s hw hr => ?durable, fun p w q a b s hl hr => ?retire,
    fun _ _ _ _ _ => exec_driveWriteComplete_mayComplete, fun _ c _ h => exec_driveFailed_up h c⟩
  case held => exact congrArg Host.Outcome.next (releaseHeld_of_fits hh hf hw)
  case checkpoint => exact congrArg Host.Outcome.next (checkpoint_of_grown hk hp hr hg)
  case unit => exact congrArg Host.Outcome.next (gateAdmit_unit hs hw hm hj hr k)
  case blocks => exact congrArg Host.Outcome.next (gateAdmit_blocks hs hw hm hj k)
  case durable => exact congrArg Host.Outcome.next ((journalDurable_of_oldest hw).trans (recordDurable_of_jrec hr))
  case retire => exact congrArg (fun t => Host.Outcome.next (nvmeSettle t)) (journalRetire_of_last hl hr)

end Sys2Proof.Machine
end

section
/-! PROOFS. The Media Gate (14_media_gate.md): what its accepted mailbox commands change and answer, how a power-loss
response begins, drains and ends, and what the NVMe controller does with its registers and with the admin commands it
fetches. -/

namespace Sys2Proof.Machine

/-! ## Mailbox commands (R337, R353) -/

/-- A row that is run under its card begins what the card's effect starts, and answers later. -/
theorem begins_of_effect {c : Card} {i : Instr} {n : Fin 40} {x : Body → State → State}
    (hi : ∀ s, exec i s = .next (mbxRun c n s)) (he : ∀ b s, c.effect n b s = (x b s, .later)) : Begins c i n x :=
  fun s h => (hi s).trans (congrArg _ (mbxRun_later h (he _ s)))

/-- A command whose port holds a withheld write waits for it. -/
theorem exec_of_waiting {c : Card} {i : Instr} {n : Fin 40} {s : State}
    (hi : exec i s = .next (if gateWaits c s n then s else mbxRun c n s)) (hw : gateWaits c s n = true) :
    exec i s = .next s :=
  hi.trans (congrArg _ (if_pos hw))

section
variable {n : Nat} {b : Body} {s : State}

/-- GATE_DRIVE up: the port comes up with the drive that trained, and the answer shows it. -/
theorem gateDriveCard_effect_up (h : fld b 1 1 = 1) (f : DriveFacts) : (gateDriveCard (some f)).effect n b s =
    (let p := fld b 0 1
    let t := bringUp (updVolume s p fun v => { v with failed := false }) p (fld b 4 4) f
    (t, .now (leBytes 1 (gatePort t p).gen ++ leBytes 1 (gatePort t p).width ++ leBytes 1 (gatePort t p).lbaLog2 ++
      leBytes 1 (boolNat (gatePort t p).clipValid) ++ leBytes 4 (gatePort t p).rolledBack ++
      leBytes 8 (gatePort t p).blocks))) := by
  simp only [gateDriveCard, h]

/-- GATE_DRIVE down: the port goes down, whatever could train on it. -/
theorem gateDriveCard_effect_down (h : fld b 1 1 = 0) (d : Option DriveFacts) :
    (gateDriveCard d).effect n b s = (portDown s (fld b 0 1), .now (zeros 16)) := by
  simp only [gateDriveCard, h]

/-- GATE_SERVICE on: the service namespace takes the place of the clip namespace (R336). -/
theorem gateServiceCard_effect_on (h : fld b 1 1 = 1) : gateServiceCard.effect n b s =
    (let p := fld b 0 1
    let t := updGatePort s p fun q => { q with state := 3 }
    (nsNotice (if (gatePort s p).clipValid then nsNotice t (p + 1) else t) (p + 5), .now [])) := if_pos h

/-- GATE_SERVICE off: the port finishes its writes and comes up anew with the window and the drive it had. -/
theorem gateServiceCard_effect_off (h : fld b 1 1 = 0) : gateServiceCard.effect n b s =
    (let p := fld b 0 1
    let q := gatePort s p
    (bringUp (nsNotice (nvmeSettle (finishPort s p)) (p + 5)) p q.windowKib ⟨q.gen, q.width, q.lbaLog2, q.blocks⟩,
      .now [])) := if_neg (by rw [h]; decide)

end

/-- Settles O21: each row is run under its card, whose effect is the one stated; GATE_DRIVE and GATE_SERVICE by their
direction, where no withheld write keeps them waiting. -/
theorem gateCommands : Obligations.GateCommands := by
  refine ⟨?status, ?remote, ?sessionOpen, ?sessionClose,
    fun n s f h hw hu => exec_of_effect_not_waiting rfl hw h (gateDriveCard_effect_up hu f),
    fun n s d h hw hd => exec_of_effect_not_waiting rfl hw h (gateDriveCard_effect_down hd d),
    fun n s h hw => ⟨fun hu => exec_of_effect_not_waiting rfl hw h (gateServiceCard_effect_on hu),
      fun hd => exec_of_effect_not_waiting rfl hw h (gateServiceCard_effect_off hd)⟩,
    fun n d s => ⟨exec_of_waiting rfl, exec_of_waiting rfl, exec_of_waiting rfl, exec_of_waiting rfl⟩⟩
  case sessionOpen => exact fun n => begins_of_effect (fun _ => rfl) fun _ _ => rfl
  all_goals exact fun n => yields_of_effect (fun _ => rfl) fun _ _ => rfl

/-! ## The power-loss response (R351, R557, R558) -/

/-- A fall of PLOSS_N outside a hold, with the monitors armed, starts the response (R557). -/
theorem exec_plossNFall_armed {s : State} (hp : s.pwr.powered = true) (ha : monitorsArmed s = true)
    (hh : s.br.hold = none) (hs : heldAtStart s = false) :
    exec .plossNFall s = .next (plossStart { s with br.plossLow := true } false 0xFF 0) := by
  change execPlossNFall s = _
  simp [execPlossNFall, hp, ha, hh, hs]

/-- A response that begins counts, stops the Gate, sets leaf 2 and answers or powers down each sensor (R557). That the
notice gives the rail that caused it, and its voltage, is the model's choice (log entry 154). -/
theorem plossStart_quiet {s : State} (h : s.br.ploss = false) (trip : Bool) (unit mv : Nat) :
    plossStart s trip unit mv = (List.range 4).foldl plossSensor (bedrockLeaf { s with
      br := { s.br with
        ploss := true, trip := trip, drained := false, pointPassed := false, held := []
        plossCount := sat32 s.br.plossCount 1 }
      gate.stopped := some s.time.c.toNat
      gate.drained := 0
      gate.drainUs := 0 } 2 unit true mv (sat32 s.br.plossCount 1)) := by
  rw [plossStart, if_neg (Bool.eq_false_iff.mp h)]

/-- The first drain of a response that is no trip ends it drained, and the reset point is still to come (R351). -/
theorem exec_plossDrainDone_first {s : State} (hp : s.br.ploss = true) (hd : s.br.drained = false)
    (ht : s.br.trip = false) (p : BitVec 4) (us : BitVec 32) :
    exec (.plossDrainDone p us) s = .next (plossDrain s p.toNat us.toNat) := by
  change execPlossDrainDone p us s = _
  simp [execPlossDrainDone, hp, hd, ht]

section
variable {s : State} (hp : s.br.ploss = true) (hpt : s.br.pointPassed = false)
include hp hpt

/-- At the reset point PLOSS_N that is low resets the device (R558). -/
theorem exec_plossResetPoint_low :
    exec (.plossResetPoint true) s = .next (plossReset { s with br.plossLow := true }) := by
  change execPlossResetPoint true s = _
  simp [execPlossResetPoint, hp, hpt]

/-- With PLOSS_N high, every rail good and no trip, the device passes the reset point (R558). -/
theorem exec_plossResetPoint_passed (ht : s.br.trip = false) (hr : ∀ k, k < 6 → (s.br.rails.getD k {}).low = false) :
    exec (.plossResetPoint false) s = .next { s with br := { s.br with plossLow := false, pointPassed := true } } := by
  have hrails : ((List.range 6).all fun k => !(s.br.rails.getD k {}).low) = true :=
    List.all_eq_true.mpr fun k hk => by rw [hr k (List.mem_range.mp hk)]; rfl
  change execPlossResetPoint false s = _
  simp only [execPlossResetPoint, hp, hpt, ht, hrails]
  rfl

end

/-- A drained response past its reset point releases the device, with the Gate's event and leaf 3 (R351, R558). That
the leaf's notice says `entered` is the model's choice (log entry 97). -/
theorem exec_plossResponseEnd_released {s : State} (hp : s.br.ploss = true) (ht : s.br.trip = false)
    (hd : s.br.drained = true) (hpt : s.br.pointPassed = true) (hw : s.br.wdDeferred = false) :
    exec .plossResponseEnd s = .next (bedrockLeaf (nvmeSettle (notify { s with
      br := { s.br with ploss := false, plossLow := false, drained := false, pointPassed := false, wdDeferred := false }
      gate.stopped := none } 0x0A04 0 (leBytes 4 s.gate.drainUs ++ leBytes 1 s.gate.drained) 9))
      3 0xFF true 0 s.br.plossCount) := by
  change execPlossResponseEnd s = _
  simp [execPlossResponseEnd, hp, ht, hd, hpt, hw]

/-- Good supplies release a device that the power-loss reset holds (R558). -/
theorem exec_plossResetExit_held {s : State} (hw : s.pwr.powered = true) (hp : s.br.ploss = false)
    (hs : suppliesOk s = true) (hh : s.br.hold = some .ploss) :
    exec .plossResetExit s = .next (fullReset none { s with br.plossLow := false }) := by
  change execPlossResetExit s = _
  simp [execPlossResetExit, hw, hp, hs, hh]

/-- Settles O35: one lemma per event; what the drain leaves is read off `plossDrain`. What the notices of leaves
2 and 3 tell is the model's choice (log entries 97 and 154). -/
theorem powerLossEvents : Obligations.PowerLossEvents :=
  ⟨fun _ => exec_plossNFall_armed, fun u mv _ h => plossStart_quiet h false u mv,
    fun p us _ hp hd ht => ⟨_, exec_plossDrainDone_first hp hd ht p us, rfl, rfl, rfl⟩,
    fun _ => exec_plossResetPoint_low, fun _ => exec_plossResetPoint_passed, fun _ => exec_plossResponseEnd_released,
    fun _ => exec_plossResetExit_held⟩

/-! ## The NVMe controller's registers (R333, R345) -/

/-- CC.EN with the settings of R333 and admin queues of 2 to 256 entries makes the admin queues. -/
theorem exec_nvmeCcEnable_accepted {s : State} {a b : BitVec 12} (he : s.gate.nvme.enabled = false)
    (ha : 1 ≤ a.toNat) (ha' : a.toNat ≤ 255) (hb : 1 ≤ b.toNat) (hb' : b.toNat ≤ 255) :
    exec (.nvmeCcEnable 0 0 6 4 a b) s = .next (nvmeReady (updNvme s fun n => { n with
      enabled := true
      cc := ccWord 0 0 6 4
      sqs := n.sqs.set 0 (some { cq := 0, size := a.toNat + 1 })
      cqs := n.cqs.set 0 (some { size := b.toNat + 1, irq := true }) })) := by
  have hsizes : ¬ (255 < a.toNat ∨ 255 < b.toNat ∨ a.toNat = 0 ∨ b.toNat = 0) := by omega
  change execNvmeCcEnable 0 0 6 4 a b s = _
  rw [execNvmeCcEnable, if_neg (Bool.eq_false_iff.mp he), if_neg (by simpa [or_assoc] using hsizes)]
  rfl

/-- CC.EN with any other setting makes CSTS.CFS, with its leaf (R333). -/
theorem exec_nvmeCcEnable_refused {s : State} {m c i o : Fin 16} {a b : BitVec 12} (he : s.gate.nvme.enabled = false)
    (h : m ≠ 0 ∨ c ≠ 0 ∨ i ≠ 6 ∨ o ≠ 4 ∨ 255 < a.toNat ∨ 255 < b.toNat) : exec (.nvmeCcEnable m c i o a b) s =
      .next (setLeaf (updNvme s fun n => { n with enabled := true, state := 2, cc := ccWord m c i o }) 10 10) := by
  change execNvmeCcEnable m c i o a b s = _
  rw [execNvmeCcEnable, if_neg (Bool.eq_false_iff.mp he), if_pos]
  simp only [Bool.or_eq_true, bne_iff_ne, decide_eq_true_eq]
  exact .inl (.inl (by simpa only [or_assoc] using h))

/-- A ready controller's shutdown waits for the writes in flight and flushes the remote namespaces (R345). -/
theorem exec_nvmeShutdown_ready {s : State} (h : s.gate.nvme.state = 1) : exec .nvmeShutdown s = .next (
    let rs := (requesting s).map (·.nsid)
    nvmeSettle (sendShutFlushes (updNvme s fun n => { n with
      state := 3, shst := 1, shutWaits := s.gate.writes.map (·.id), shutRemotes := rs, shutUnsent := rs }))) := by
  change execNvmeShutdown s = _
  simp [execNvmeShutdown, h]

/-! ## Fetches (R333, R335) -/

section
variable {s t : State} {sq : Nat} {h : NvmeHead} {run : State → State}

/-- A row that is a fetch gives what its command does to the state whose queue head has moved on. -/
theorem next_nvmeFetch (k : Fetched s sq h) (ht : run (headMoved s sq) = t) :
    (.next (nvmeFetch s sq h run) : Host.Outcome State Fault Refusal) = .next t :=
  congrArg _ ((nvmeFetch_of_fetched k run).trans ht)

/-- The same of an I/O command of a queue that is not the admin queue. -/
theorem next_ioFetch (k : Fetched s sq h) (hq : sq ≠ 0) (ht : run (headMoved s sq) = t) :
    (.next (ioFetch false s sq h run) : Host.Outcome State Fault Refusal) = .next t :=
  congrArg _ ((ioFetch_of_fetched k hq rfl run).trans ht)

/-- An I/O command in the admin queue is none of the admin set (R335; its status is PRESUMED, log entry 185). -/
theorem next_ioFetch_admin (k : Fetched s 0 h) :
    (.next (ioFetch false s 0 h run) : Host.Outcome State Fault Refusal) = .next (answer (headMoved s 0) 0 h 0 1 0) := by
  obtain ⟨hfetch, hlocal, hfuse, hpsdt, hknown⟩ := k
  simp [ioFetch, nvmeFetchIf, hfetch, hlocal, hfuse, hpsdt, hknown]

/-- An unknown opcode completes with Invalid Command Opcode before anything else is looked at (R335; the order
is the model's choice, log entry 187). -/
theorem nvmeFetchIf_unknown (hu : h.unknown = true) (hm : mayFetch s sq = true) (held : Bool) :
    nvmeFetchIf held s sq h run = nvmeSettle (nvmeComplete (headMoved s sq) sq h.cid.toNat 0 1 0) := by
  simp [nvmeFetchIf, hu, hm]

end

/-! ## Queue management (R335; the status of a refusal is PRESUMED, log entry 36) -/

section
variable {s : State} {h : NvmeHead} (k : Fetched s 0 h)
include k

theorem exec_nvmeCreateIoSq_created {q z c : BitVec 16} (hq : q ≠ 0) (hq' : q.toNat ≤ 64)
    (hn : s.gate.nvme.sqs.getD q.toNat none = none) (hz : z ≠ 0) (hz' : z.toNat ≤ 1023) (hc : c ≠ 0)
    (hs : (s.gate.nvme.cqs.getD c.toNat none).isSome = true) :
    exec (.nvmeCreateIoSq h q z c true) s = .next (answerOk (updNvme (headMoved s 0) fun n => { n with
      sqs := n.sqs.set q.toNat (some { cq := c.toNat, size := z.toNat + 1 }) }) 0 h) := by
  have hq0 : q.toNat ≠ 0 := by bv_omega
  have hz0 : z.toNat ≠ 0 := by bv_omega
  have hc0 : c.toNat ≠ 0 := by bv_omega
  have hfree : (headMoved s 0).gate.nvme.sqs.getD q.toNat none = none := (headMoved_sqs_other s hq0).trans hn
  have hcq : ((headMoved s 0).gate.nvme.cqs.getD c.toNat none).isNone = false := Option.isNone_eq_false_iff.mpr hs
  refine next_nvmeFetch k (if_neg ?_)
  rw [hfree, hcq, decide_eq_false hq0, decide_eq_false hz0, decide_eq_false hc0, decide_eq_false (Nat.not_lt.mpr hq'),
    decide_eq_false (Nat.not_lt.mpr hz')]
  decide

theorem exec_nvmeCreateIoSq_scattered (q z c : BitVec 16) :
    exec (.nvmeCreateIoSq h q z c false) s = .next (answerField (headMoved s 0) 0 h) :=
  next_nvmeFetch k (if_pos (by simp))

theorem exec_nvmeCreateIoCq_created {q z v : BitVec 16} (irq : Bool) (hq : q ≠ 0) (hq' : q.toNat ≤ 64)
    (hn : s.gate.nvme.cqs.getD q.toNat none = none) (hz : z ≠ 0) (hz' : z.toNat ≤ 1023) (hv : v.toNat ≤ 64) :
    exec (.nvmeCreateIoCq h q z v true irq) s = .next (answerOk (updNvme (headMoved s 0) fun n => { n with
      cqs := n.cqs.set q.toNat (some { size := z.toNat + 1, vector := v.toNat, irq := irq }) }) 0 h) := by
  have hq0 : q.toNat ≠ 0 := by bv_omega
  have hz0 : z.toNat ≠ 0 := by bv_omega
  refine next_nvmeFetch k (if_neg ?_)
  rw [headMoved_cqs, hn, decide_eq_false hq0, decide_eq_false hz0, decide_eq_false (Nat.not_lt.mpr hq'),
    decide_eq_false (Nat.not_lt.mpr hz'), decide_eq_false (Nat.not_lt.mpr hv)]
  decide

/-- The commands of a deleted queue end as aborted (log entry 36), and what it ordered is forgotten. -/
theorem exec_nvmeDeleteIoSq_deleted {q : BitVec 16} (hq : q ≠ 0)
    (hs : ((headMoved s 0).gate.nvme.sqs.getD q.toNat none).isSome = true) :
    exec (.nvmeDeleteIoSq h q) s = .next (answerOk (updNvme
      (((headMoved s 0).gate.nvme.outstanding.filter fun c => c.sq == q.toNat).foldl (fun s c => nvmeEnd s c 0 7 0)
        (headMoved s 0)) fun n => { n with
      sqs := n.sqs.set q.toNat none
      ordered := n.ordered.filter fun e => e.1 != q.toNat
      barrierWrites := n.barrierWrites.filter fun e => e.1 != q.toNat }) 0 h) := by
  have hq0 : q.toNat ≠ 0 := by bv_omega
  exact next_nvmeFetch k (if_neg (by rw [Option.isNone_eq_false_iff.mpr hs, decide_eq_false hq0]; decide))

theorem exec_nvmeDeleteIoCq_unused {q : BitVec 16} (hq : q ≠ 0)
    (hs : (s.gate.nvme.cqs.getD q.toNat none).isSome = true)
    (hu : (headMoved s 0).gate.nvme.sqs.any (fun o => o.any fun x => x.cq == q.toNat) = false) :
    exec (.nvmeDeleteIoCq h q) s =
      .next (answerOk (updNvme (headMoved s 0) fun n => { n with cqs := n.cqs.set q.toNat none }) 0 h) := by
  have hq0 : q.toNat ≠ 0 := by bv_omega
  exact next_nvmeFetch k (if_neg (by
    rw [headMoved_cqs, Option.isNone_eq_false_iff.mpr hs, hu, decide_eq_false hq0]; decide))

/-! ## Features and notices (R335, R336) -/

theorem exec_nvmeSetFeatures_stored {f : Byte} (hf : featureIds.contains f.toNat = true) (h2 : f ≠ 2) (h6 : f ≠ 6)
    (h7 : f ≠ 7) (v : BitVec 32) : exec (.nvmeSetFeatures h f v) s = .next (answerOk (updNvme (headMoved s 0) fun n =>
      { n with features := memPutLE n.features (4 * f.toNat) 4 v.toNat }) 0 h) := by
  have n2 : f.toNat ≠ 2 := by bv_omega
  have n6 : f.toNat ≠ 6 := by bv_omega
  have n7 : f.toNat ≠ 7 := by bv_omega
  exact next_nvmeFetch k ((if_neg (by rw [hf, decide_eq_false n2, decide_eq_false n6]; simp)).trans (if_neg n7))

theorem exec_nvmeGetFeatures_stored {f : Byte} (hf : featureIds.contains f.toNat = true) (h6 : f ≠ 6) (h7 : f ≠ 7) :
    exec (.nvmeGetFeatures h f) s =
      .next (answer (headMoved s 0) 0 h 0 0 (memLE s.gate.nvme.features (4 * f.toNat) 4)) := by
  have n6 : f.toNat ≠ 6 := by bv_omega
  have n7 : f.toNat ≠ 7 := by bv_omega
  refine next_nvmeFetch k ((if_neg (by rw [hf]; decide)).trans ?_)
  rw [if_neg n6, if_neg n7, headMoved_features]

/-- A request for notices waits where none is held and fewer than 4 wait. -/
theorem exec_nvmeAsyncEventRequest_waits (hn : s.gate.nvme.noticeHeld = false)
    (hl : (s.gate.nvme.outstanding.filter fun c => c.work == .aer).length < 4) :
    exec (.nvmeAsyncEventRequest h) s = .next (keep (headMoved s 0) 0 h .aer) :=
  next_nvmeFetch k ((if_neg (by rw [headMoved_noticeHeld, hn]; decide)).trans (if_neg (Nat.not_le.mpr hl)))

/-- The log page of changed namespaces is read, and cleared by it (R336). -/
theorem exec_nvmeGetLogPage_changed (d : BitVec 16) : exec (.nvmeGetLogPage h 4 d 0) s = .next (answerOk
    { updNvme (drawBytes (headMoved s 0) (4 * (d.toNat + 1))).2 fun n => { n with changed := [] } with
      host.readData := (overlay (zeros (max 4096 (4 * (d.toNat + 1)))) 0
        (s.gate.nvme.changed.flatMap (leBytes 4))).take (4 * (d.toNat + 1)) } 0 h) :=
  next_nvmeFetch k rfl

/-! ## Aborts (R346; that an Abort waits for any target, however long, is the model's choice, log entry 242) -/

/-- A write that still waits for its data is aborted, and the Abort follows it. -/
theorem exec_nvmeAbort_write {q c : BitVec 16} {x : NvmeCmd} {nsid : Nat} {o : Bool}
    (hx : abortTarget s q.toNat c.toNat = some x) (hw : x.work = .write nsid o) : exec (.nvmeAbort h q c) s =
      .next (nvmeSettle (keep (nvmeEnd (headMoved s 0) x 0 7 0) 0 h (.abort q.toNat c.toNat 0))) := by
  have hx' : abortTarget (headMoved s 0) q.toNat c.toNat = some x := hx
  refine next_nvmeFetch k ?_
  simp only [hx', hw]

/-- Any other target goes on, or there is none: the Abort is counted as one that aborted nothing. -/
theorem exec_nvmeAbort_counted {q c : BitVec 16}
    (hx : ∀ x ∈ abortTarget s q.toNat c.toNat, ∀ nsid o, x.work ≠ .write nsid o) : exec (.nvmeAbort h q c) s =
      .next (nvmeSettle (keep (updNvme (headMoved s 0) fun n => { n with abortsNot := sat32 n.abortsNot 1 }) 0 h
        (.abort q.toNat c.toNat 1))) := by
  have hx' : ∀ x ∈ abortTarget (headMoved s 0) q.toNat c.toNat, ∀ nsid o, x.work ≠ .write nsid o := hx
  refine next_nvmeFetch k ?_
  dsimp only
  split
  case h_1 x ht =>
    split
    case h_1 nsid o hw => exact absurd hw (hx' x ht nsid o)
    case h_2 => rfl
  case h_2 => rfl

end

/-- Settles O43: the registers by their own lemmas; each admin command runs in the state whose queue head has moved on.
The status of refused queue management, completions that wait for room and an Abort that waits for its target are the
model's choices (log entries 36, 185 and 242). -/
theorem nvmeAdminCommands : Obligations.NvmeAdminCommands := by
  refine ⟨fun _ _ _ => ⟨rfl, rfl⟩, fun _ _ _ => exec_nvmeCcEnable_accepted,
    fun _ _ _ _ _ _ _ => exec_nvmeCcEnable_refused, fun _ => ⟨_, rfl, rfl, rfl, rfl, rfl, rfl⟩,
    fun _ => exec_nvmeShutdown_ready, fun _ _ _ _ _ k => exec_nvmeCreateIoSq_created k,
    fun _ _ _ _ irq _ k => exec_nvmeCreateIoCq_created k irq,
    fun _ q z c _ k => exec_nvmeCreateIoSq_scattered k q z c, fun _ _ _ k => exec_nvmeDeleteIoSq_deleted k,
    fun _ _ _ k => exec_nvmeDeleteIoCq_unused k, fun _ d _ k => ⟨_, rfl, exec_nvmeGetLogPage_changed k d⟩,
    fun _ _ k => next_nvmeFetch k rfl, fun h q c s k => ⟨?write, ?other, ?missing⟩,
    fun _ _ _ _ hu => ⟨fun hm => ?unknownAdmin, fun hm => ?unknownIo⟩,
    fun _ _ v _ k hf h2 h6 h7 => exec_nvmeSetFeatures_stored k hf h2 h6 h7 v,
    fun _ _ _ k => exec_nvmeGetFeatures_stored k, fun _ _ k => exec_nvmeAsyncEventRequest_waits k⟩
  case write => exact fun _ _ _ => exec_nvmeAbort_write k
  case other => exact fun x ht hw => exec_nvmeAbort_counted k fun y hy => Option.some.inj (ht.symm.trans hy) ▸ hw
  case missing => exact fun ht => exec_nvmeAbort_counted k fun y hy => nomatch ht.symm.trans hy
  case unknownAdmin => exact congrArg Host.Outcome.next (nvmeFetchIf_unknown hu hm _)
  case unknownIo => exact congrArg Host.Outcome.next (nvmeFetchIf_unknown hu hm _)

end Sys2Proof.Machine
end

section
/-! PROOFS. The Media Gate's I/O commands (14_media_gate.md): flushes, writes, reads and barriers that the NVMe controller
fetches, of local and of remote namespaces. -/

namespace Sys2Proof.Machine

/-! ## Local namespaces (R332, R335, R338, R341) -/

section
variable {s : State} {sq : Nat} {h : NvmeHead}

/-- A new write that is whole, in its turn and in range is accepted when it is fetched (R329, R331, R338). -/
theorem nvmeWrite_whole {lba n : Nat} {ordered : Bool} {d : List Byte} (k : Fetched s sq h)
    (w : WritesWhole s sq h lba n ordered d) (fua : Bool) :
    nvmeWrite s sq h lba n fua ordered d = hostAccept (headMoved s sq) sq h lba d ordered fua := by
  obtain ⟨hqueue, hroom, hfits, hnew, hrange, hlocal, hwhole, horder⟩ := w
  have hlen : d.length = n * nsBlk (headMoved s sq) h.nsid.toNat := hwhole
  have hturn : (!ordered || orderOpen (headMoved s sq) sq h.cid.toNat h.nsid.toNat) = true := by
    cases ordered with
    | false => rfl
    | true => exact horder rfl
  have hgoes : writeGoes (headMoved s sq) sq h lba n fua ordered d =
      some (hostAccept (headMoved s sq) sq h lba d ordered fua) := by
    rw [← hwhole] at hfits
    simp [writeGoes, ← hlen, Nat.not_lt.mpr hlocal, hfits]
  have hfetch := ioFetch_of_fetched (held := !hostFits s 1) k hqueue (by rw [hroom]; rfl)
  rw [nvmeWrite, if_neg (Bool.eq_false_iff.mp hnew), hfetch]
  simp only [hrange, hturn, hgoes, if_true, Option.getD_some]

end

section
variable {s : State} {q : Fin 65} {h : NvmeHead} (k : Fetched s q h)
include k

/-- Write Zeroes of at most 64 blocks writes zeros (R335). -/
theorem exec_nvmeWriteZeroes_whole {lba : BitVec 64} {n : BitVec 16} (hn : n.toNat < 64)
    (w : WritesWhole s q h lba.toNat (n.toNat + 1) false (zeros ((n.toNat + 1) * nsBlk s h.nsid.toNat))) (fua : Bool) :
    exec (.nvmeWriteZeroes q h lba n fua) s = .next (hostAccept (headMoved s q) q h lba.toNat
      (zeros ((n.toNat + 1) * nsBlk s h.nsid.toNat)) false fua) := by
  change execNvmeWriteZeroes q h lba n fua s = _
  rw [execNvmeWriteZeroes, if_neg (by omega), nvmeWrite_whole k w]

variable (hq : q ≠ 0)
include hq

/-- A longer Write Zeroes is an invalid field (R335). -/
theorem exec_nvmeWriteZeroes_long {n : BitVec 16} (hn : 64 ≤ n.toNat) (lba : BitVec 64) (fua : Bool) :
    exec (.nvmeWriteZeroes q h lba n fua) s = .next (answerField (headMoved s q) q h) := by
  change execNvmeWriteZeroes q h lba n fua s = _
  rw [execNvmeWriteZeroes, if_pos (by omega)]
  exact next_ioFetch k (Fin.val_ne_zero_iff.mpr hq) rfl

/-- A Flush of an active local namespace waits for the writes accepted on its port (R341). -/
theorem exec_nvmeFlush_local (hall : h.nsid ≠ 0xFFFFFFFF) (hl : h.nsid.toNat ≤ 8)
    (ha : nsActive (headMoved s q) h.nsid.toNat = true) : exec (.nvmeFlush q h) s = .next (nvmeSettle (keep
      (headMoved s q) q h
      (.flush (((headMoved s q).gate.writes.filter fun w => w.port == nsPort h.nsid.toNat).map (·.id))))) := by
  refine next_ioFetch k (Fin.val_ne_zero_iff.mpr hq) ?_
  have hone : h.nsid ≠ 0xFFFFFFFF#32 := hall
  simp [hone, ha, Nat.not_lt.mpr hl]

/-- A Flush of a remote namespace goes to its serving device (R349). -/
theorem exec_nvmeFlush_remote {x : Session} (hall : h.nsid ≠ 0xFFFFFFFF) (hr : 8 < h.nsid.toNat)
    (ha : nsActive (headMoved s q) h.nsid.toNat = true) (hx : sessionOf (headMoved s q) h.nsid.toNat = some x) :
    exec (.nvmeFlush q h) s = .next
      (sendRequest (keep (headMoved s q) q h (.remote h.nsid.toNat)) x 0 0 q h.cid.toNat 0 0 []) := by
  refine next_ioFetch k (Fin.val_ne_zero_iff.mpr hq) ?_
  have hone : h.nsid ≠ 0xFFFFFFFF#32 := hall
  simp [hone, ha, hr, forward, hx]

/-- A Barrier to all namespaces holds its queue back until it completes (R339). -/
theorem exec_nvmeBarrier_all (hall : h.nsid = 0xFFFFFFFF) : exec (.nvmeBarrier q h true) s = .next (nvmeSettle (updNvme
    (keep (headMoved s q) q h .barrier) fun n => { n with
      sqs := modAt n.sqs q (·.map fun x => { x with barrier := true }) })) := by
  refine next_nvmeFetch k ?_
  rw [if_neg hq, if_neg (by rw [hall]; decide)]
  rfl

section
variable {lba : BitVec 64} {n : BitVec 16}
  (hrange : rangeStatus (headMoved s q) h.nsid.toNat lba.toNat (n.toNat + 1) false = none)
include hrange

/-- A read of a local namespace gives the data last accepted, counted for its port (R332). -/
theorem exec_nvmeRead_local (hl : h.nsid.toNat ≤ 8) :
    let t := headMoved s q
    let p := nsPort h.nsid.toNat
    let d := gateRead t p (nsBlk t h.nsid.toNat) lba.toNat (n.toNat + 1)
    exec (.nvmeRead q h lba n false) s = .next (answerOk { updGatePort (rootSend t p) p fun x => { x with
        read := satAdd 64 x.read d.length } with host.readData := d } q h) := by
  refine next_ioFetch k (Fin.val_ne_zero_iff.mpr hq) ?_
  simp [hrange, Nat.not_lt.mpr hl]

/-- A read that fails at the drive counts there and completes with Unrecovered Read Error (R342). -/
theorem exec_nvmeRead_failed (hl : h.nsid.toNat ≤ 8) : exec (.nvmeRead q h lba n true) s =
    .next (answer (updGatePort (headMoved s q) (nsPort h.nsid.toNat) fun x => { x with
      mediaErrors := sat32 x.mediaErrors 1 }) q h 2 0x81 0) := by
  refine next_ioFetch k (Fin.val_ne_zero_iff.mpr hq) ?_
  simp [hrange, Nat.not_lt.mpr hl]

/-- A read of a remote namespace goes to its serving device (R349). -/
theorem exec_nvmeRead_remote {x : Session} (hr : 8 < h.nsid.toNat)
    (hx : sessionOf (headMoved s q) h.nsid.toNat = some x) (b : Bool) : exec (.nvmeRead q h lba n b) s = .next
      (sendRequest (keep (headMoved s q) q h (.remote h.nsid.toNat)) x 2 0 q h.cid.toNat lba.toNat (n.toNat + 1) []) := by
  refine next_ioFetch k (Fin.val_ne_zero_iff.mpr hq) ?_
  simp [hrange, hr, forward, hx, boolNat]

end

end

/-- Settles O44: each command runs in the state whose queue head has moved on, by where its namespace is. That one in the
admin queue completes with Invalid Command Opcode is PRESUMED (log entry 185). -/
theorem nvmeIoCommands : Obligations.NvmeIoCommands :=
  ⟨fun _ _ _ k hall hl hq => exec_nvmeFlush_local k hq hall hl,
    fun _ _ _ _ fua _ _ k w => congrArg Host.Outcome.next (nvmeWrite_whole k w fua),
    fun _ _ _ _ fua _ _ k w => congrArg Host.Outcome.next (nvmeWrite_whole k w fua),
    fun _ _ _ _ fua _ k hn w => exec_nvmeWriteZeroes_whole k hn w fua,
    fun _ _ lba _ fua _ k hq hn => exec_nvmeWriteZeroes_long k hq hn lba fua,
    fun _ _ _ _ _ k hq hl hr => ⟨exec_nvmeRead_local k hq hr hl, exec_nvmeRead_failed k hq hr hl⟩,
    fun _ _ _ k hq => exec_nvmeBarrier_all k hq,
    fun _ _ _ _ k hq hall hr => exec_nvmeFlush_remote k hq hall hr,
    fun _ _ _ _ _ b _ k hq hr hrange hx => exec_nvmeRead_remote k hq hrange hr hx b,
    fun _ _ _ _ _ k => ⟨next_ioFetch_admin k, next_ioFetch_admin k, next_nvmeFetch k rfl⟩⟩

end Sys2Proof.Machine
end

section
/-! PROOFS. What a step does: it runs the front command, or is one PIPE clock, and only some rows set the count C or read
the policy block. Each mailbox row is that of its card's opcode, and the rows are the assigned opcodes (R629). -/

namespace Sys2Proof.Machine

/-! ## The step -/

theorem step_cons {s : State} {c : Instr} {rest : List Instr} (h : s.pending = c :: rest) :
    step s = exec c { s with pending := rest } := by
  simp only [step, h]

theorem step_empty {s : State} (h : s.pending = []) : step s = .next (answerUnassigned (pipeTick s)) := by
  simp only [step, h]

/-- A tick hands no command over. -/
theorem pipeTick_arrival (s : State) : (pipeTick s).mbx.arrival = s.mbx.arrival := by
  unfold pipeTick
  split <;> rfl

/-- Firmware that owns no command answers none. -/
theorem answerUnassigned_none {s : State} (h : s.mbx.arrival = []) : answerUnassigned s = s := by
  rw [answerUnassigned, h]
  rfl

/-- A step that runs a command keeps what the command's level of `Keeps` promises. -/
theorem keeps_step_cons {s t : State} {c : Instr} {rest : List Instr} (hp : s.pending = c :: rest)
    (h : step s = .next t) : Keeps (keepLevel c) { s with pending := rest } t := by
  obtain ⟨u, hu, hk⟩ := keeps_exec c { s with pending := rest }
  obtain rfl : u = t := Host.Outcome.next.inj (hu.symm.trans ((step_cons hp).symm.trans h))
  exact hk

/-! ## What a level promises -/

/-- A row that cannot begin a reset or a boot keeps the count: no cold power-on reads the policy at it either. -/
theorem keepLevel_of_not_setsCount {c : Instr} (h : c.setsCount = false) : keepLevel c = 0 := by
  have hp : c.readsPolicy = false := by
    cases c with
    | coldPowerOn => exact h
    | railUndervoltage => exact h
    | refclkQualified => exact h
    | railInWindow => exact h
    | _ => rfl
  rw [keepLevel, hp, h]
  rfl

theorem keepLevel_of_not_readsPolicy {c : Instr} (h : c.readsPolicy = false) : keepLevel c < 2 := by
  rw [keepLevel, h]
  cases c.setsCount <;> decide

/-! ## The count in a tick -/

theorem pipeTick_count (s : State) :
    (pipeTick s).time.c = s.time.c ∨ (pipeTick s).time.c = s.time.c + 1 := by
  unfold pipeTick
  split
  · exact .inr rfl
  · exact .inl rfl

/-- The answers in a tick leave the count where the tick left it. -/
theorem answerUnassigned_count (s : State) : (answerUnassigned s).time.c = s.time.c :=
  (keeps_answerUnassigned (Keeps.refl 0 s)).count (by decide)

/-! ## The mailbox rows (R629) -/

/-- A mailbox row is run under the card of its own opcode. -/
theorem opcode_of_card {i : Instr} {n : Fin 40} {c : Card} (h : i.card? = some (n, c)) : i.opcode? = some c.opcode := by
  cases i with
  | _ => cases h <;> rfl

/-- A row of each command of Standby, in slot 0. -/
def standbyRows : List Instr := List.flatten [
  [.sysIdentify 0, .sysReset 0, .sysGpio 0, .sysTally 0, .evqConfig 0, .evqRoute 0, .evqReset 0, .sensCounters 0,
    .schedStatus 0, .colStatus 0, .rndStatus 0, .codecStatus 0, .recStatus 0, .gateStatus 0, .laneStatus 0 [] 0 0,
    .ringStatus 0, .flowStatus 0, .outStatus 0, .dispStatus 0, .audStatus 0, .timeDomain 0, .timeSelect 0,
    .timePort 0, .timeSync 0],
  [.timeLtc 0, .timeStatus 0, .timeServe 0, .memStatus 0, .memAperture 0, .memKeep 0, .thermConfig 0, .thermStatus 0,
    .calConfig 0, .calRun 0, .calStatus 0, .brStatus 0, .brPolicy 0, .pwrState 0, .fwStatus 0, .spareStatus 0,
    .spareLedger 0, .spareReturn 0, .flintSet 0, .flintStatus 0]]

/-- A row of each other command, in slot 0. -/
def runRows : List Instr := List.flatten [
  [.sensConfig 0, .sensPower 0, .sensStart 0, .sensStop 0, .sensClear 0, .sensBusXfer 0, .sensMetaPoll 0,
    .schedSensor 0, .schedCommit 0, .feLinLoad 0, .feMerge 0, .feBlack 0, .feMapAlloc 0, .feMapFree 0, .feMapSelect 0,
    .feDefect 0, .feStatsConfig 0, .feCalCapture 0, .feCalAbort 0, .devCfa 0, .devDemosaic 0, .devSlFrame 0,
    .colTransform 0, .colGains 0],
  [.colShaperLoad 0, .colContrast 0, .colOutput 0, .lutLoad 0, .rnd0Output 0, .rndBind 0, .rndGeometry 0,
    .tapConfig 0, .codecStream 0, .codecJobEncode 0, .codecJobDecode 0, .codecJobResume 0, .codecJobAbort 0,
    .recStart 0, .recStop 0, .recChannel 0, .recVolFormat 0, .recVolMount 0, .recVolUnmount 0, .recClipDelete 0,
    .gateDrive 0 none, .gateService 0, .gateRemote 0, .gateSessionOpen 0],
  [.gateSessionClose 0, .laneConfig 0 0 0, .laneLink 0, .lanePower 0, .laneLoop 0 0 0, .laneEq 0, .ringConfig 0,
    .flowOpen 0, .flowClose 0, .flowListen 0, .flowSend 0, .outSdi 0, .out2110 0, .outEthPort 0, .dispConfig 0,
    .dispLayer 0, .dispCommit 0, .dispDcs 0 ⟨0, 0, []⟩ ⟨0, 0, []⟩, .audConfig 0, .audPort 0, .audChannel 0,
    .audSlots 0, .audStart 0, .audStop 0],
  [.pwrUnitReset 0, .fwStage 0, .fwActivate 0]]

/-- The opcode of the card that a row is run under. -/
def cardOpcode (i : Instr) : Option Nat := i.card?.map (·.2.opcode)

theorem standbyRows_opcodes : standbyRows.map cardOpcode = standbyOpcodes.map some := rfl

theorem runRows_opcodes : runRows.map cardOpcode = runOpcodes.map some := rfl

/-- Every assigned opcode is that of a mailbox row's card. -/
theorem exists_row_of_assigned {op : Nat} (h : opcodeAssigned op = true) : ∃ i, cardOpcode i = some op := by
  have hm : some op ∈ standbyOpcodes.map some ∨ some op ∈ runOpcodes.map some := by
    simpa [opcodeAssigned] using h
  rw [← standbyRows_opcodes, ← runRows_opcodes] at hm
  rcases hm with hm | hm
  · exact (List.mem_map.mp hm).imp fun _ => And.right
  · exact (List.mem_map.mp hm).imp fun _ => And.right

/-! ## The obligations -/

/-- Settles O7: an idle step is a tick, and a row that cannot begin a reset or a boot is of the level that keeps the
count. That only the idle step is a PIPE clock, and a command takes none, is the model's choice (log entries 3 and 152). -/
theorem countOnlyTicksOrResets : Obligations.CountOnlyTicksOrResets := by
  intro s t h
  cases hp : s.pending with
  | nil =>
    obtain rfl : _ = t := Host.Outcome.next.inj ((step_empty hp).symm.trans h)
    rw [answerUnassigned_count]
    exact pipeTick_count s
  | cons c rest =>
    intro hc
    have hk := keeps_step_cons hp h
    rw [keepLevel_of_not_setsCount hc] at hk
    exact hk.count (by decide)

/-- Settles O8: the idle step keeps the policy, and so does every row at a level below the one at which step 3 of a cold
power-on can happen. -/
theorem policyReadOnlyAtPowerOn : Obligations.PolicyReadOnlyAtPowerOn := by
  intro s t h hf
  cases hp : s.pending with
  | nil =>
    obtain rfl : _ = t := Host.Outcome.next.inj ((step_empty hp).symm.trans h)
    exact (keeps_idleStep s).policy (by decide)
  | cons c rest =>
    have hc : c.readsPolicy = false := hf c (by rw [hp]; rfl)
    exact (keeps_step_cons hp h).policy (keepLevel_of_not_readsPolicy hc)

/-- Settles O2: a tick, then the answers of firmware, of which there are none where it owns no command. -/
theorem idleStepTicks : Obligations.IdleStepTicks :=
  ⟨fun _ => step_empty,
    fun s hp ha => (step_empty hp).trans
      (congrArg Host.Outcome.next (answerUnassigned_none ((pipeTick_arrival s).trans ha)))⟩

/-- Settles O12: a card by its row, an assigned opcode by the row of that opcode in slot 0. -/
theorem cardsAreTheAssignedOpcodes : Obligations.CardsAreTheAssignedOpcodes := by
  refine ⟨fun i n c h => ⟨opcode_of_card h, opcodeAssigned_of_card h⟩, fun op h => ?row⟩
  obtain ⟨i, hi⟩ := exists_row_of_assigned h
  obtain ⟨⟨n, c⟩, hc, ho⟩ := Option.map_eq_some_iff.mp hi
  exact ⟨i, n, c, hc, ho⟩

/-- Settles O1: the front of the queue is taken off, and the command runs with the rest. -/
theorem stepRunsFrontCommand : Obligations.StepRunsFrontCommand := fun _ _ => step_cons rfl

end Sys2Proof.Machine
end

section
/-! PROOFS. Serial lanes (15_serial_lanes.md): what the accepted lane commands change and answer, and how lanes lock and
are lost, markers and alignment columns are taken, spares fail, loops end and worn lanes are replaced. -/

namespace Sys2Proof.Machine

/-! ## Lock (R368, R370) -/

section
variable {a : Fin 70} {k : Nat} {s : State} (h : (laneOf s a).st = 2)
include h

/-- A lane in training locks, but where it is aligned with others and skewed by more than 40 ns. -/
theorem exec_laneBlockLock_locks (hk : k ≤ 40 ∨ alignedLane s a = false) (f : Bool) :
    exec (.laneBlockLock a k f) s = .next (laneLocked (withFlash s f) a) := by
  have hskew : (decide (40 < k) && alignedLane s a) = false := by
    rcases hk with hk | hk
    · rw [decide_eq_false (Nat.not_lt.mpr hk), Bool.false_and]
    · rw [hk, Bool.and_false]
  change execLaneBlockLock a k f s = _
  simp [execLaneBlockLock, h, hskew]

theorem exec_laneBlockLock_skewed (hk : 40 < k) (ha : alignedLane s a = true) (f : Bool) :
    exec (.laneBlockLock a k f) s = .next (laneEvent s a 2 2 6) := by
  change execLaneBlockLock a k f s = _
  simp [execLaneBlockLock, h, hk, ha]

end

/-! ## Loss (R368, R371, R381) -/

/-- A lane that has no lock has none to lose. -/
theorem laneLost_unlocked {s : State} {a : Nat} (h3 : (laneOf s a).st ≠ 3) (h4 : (laneOf s a).st ≠ 4) (cause : Nat) :
    laneLost s a cause = s := by
  simp [laneLost, h3, h4]

section
variable {s : State} {a : Nat} (h : (laneOf s a).st = 3 ∨ (laneOf s a).st = 4)
include h

theorem laneLost_guard : ((laneOf s a).st != 3 && (laneOf s a).st != 4) = false := by
  rcases h with h | h <;> rw [h] <;> rfl

/-- A Causeway lane, or one of no personality, that is bound to no port rests in the deep state. -/
theorem laneLost_unbound (hp : lanePort s a = none) (hk : (laneOf s a).pers ≤ 1) (cause : Nat) :
    laneLost s a cause = setLane (countLoss s a) a 1 cause := by
  have h3 : (laneOf s a).pers ≠ 3 := by omega
  have h4 : (laneOf s a).pers ≠ 4 := by omega
  have h5 : (laneOf s a).pers ≠ 5 := by omega
  have h6 : (laneOf s a).pers ≠ 6 := by omega
  simp [laneLost, laneLost_guard h, hp, hk, h3, h4, h5, h6]

section
variable {q : Nat} {l : LaneLink} (hp : lanePort s a = some q) (hl : linkOf s q = some l)
include hp hl

theorem laneLost_old (hk : (laneOf s a).pers = 2) (cause : Nat) : laneLost s a cause = loseOld s [a] cause := by
  simp [laneLost, laneLost_guard h, hp, hl, hk]

/-- A lane at a position of a link, which is not the spare in use, leaves its position in a formed link. -/
theorem laneLost_position {pos : Nat} (hk : (laneOf s a).pers ≠ 2) (hs : l.spareLane ≠ some a)
    (hi : l.lanes.findIdx? (· == a) = some pos) (cause : Nat) : laneLost s a cause =
      if l.formed then losePosition (countLoss s a) q pos 4 cause else setLane (countLoss s a) a 2 cause := by
  simp [laneLost, laneLost_guard h, hp, hl, hk, hs, hi]

end

end

/-- A lost REFQ sets its leaf and loses every lane that it feeds, the 8b/10b lanes of ports together (R358). -/
theorem exec_refqLost_fed {r : Fin 4} {s : State}
    (h : (laneAddrs s.fuse).any (fun a => laneFedBy s a r) = true) (f : Bool) : exec (.refqLost r f) s =
      .next (let fed := (laneAddrs s.fuse).filter fun a => laneFedBy s a r
        let old (a : Nat) : Bool := (laneOf s a).pers == 2 && (laneOf s a).st == 3 && (lanePort s a).isSome
        (fed.filter fun a => !old a).foldl (fun s a => laneLost s a 4)
          (loseOld (setLeaf (withFlash s f) 11 11) (fed.filter old) 4)) := by
  have hne : ((laneAddrs s.fuse).filter fun a => laneFedBy s a r).isEmpty = false := by
    obtain ⟨a, ha, hf⟩ := List.any_eq_true.mp h
    exact List.isEmpty_eq_false_iff.mpr (List.ne_nil_of_mem (List.mem_filter.mpr ⟨ha, hf⟩))
  change execRefqLost r f s = _
  simp only [execRefqLost, hne, Bool.false_eq_true, if_false]

theorem exec_alignmentColumn_locked {a : Fin 70} {s : State} (hk : (laneOf s a).pers = 2) (hs : (laneOf s a).st = 3)
    (k : Nat) : exec (.alignmentColumn a k) s =
      .next (let t := updSerial s a fun x => { x with codeErrors := sat32 x.codeErrors k }
        if 16 ≤ k then laneLost t a 2 else t) := by
  change execAlignmentColumn a k s = _
  simp [execAlignmentColumn, hk, hs]

/-! ## Markers (R365, R376) -/

section
variable {a : Fin 70} {s : State} (hk : (laneOf s a).pers = 1 ∨ (laneOf s a).pers = 3) (h5 : (laneOf s a).st ≠ 5)
  (h6 : (laneOf s a).st ≠ 6)
include hk h5 h6

theorem native_notTesting : (!([1, 3].contains (laneOf s a).pers) || decide ((laneOf s a).st = 6) ||
    decide ((laneOf s a).st = 5)) = false := by
  rcases hk with hk | hk <;> simp [hk, h5, h6]

variable {m : List Byte} (i : Fin 3) (e : Nat) (d f : Bool)

/-- A bad marker only counts. -/
theorem exec_milestoneMarker_bad (hm : markerGood m = false) :
    let t := updSerial (withFlash s f) a fun x => { x with stuffErrors := sat32 x.stuffErrors e }
    exec (.milestoneMarker a m i e d f) s =
      .next (updSerial t a fun x => { x with markerFails := sat32 x.markerFails 1 }) := by
  intro t
  change execMilestoneMarker a m i e d f s = _
  simp only [execMilestoneMarker, native_notTesting hk h5 h6, hm, Bool.not_false, Bool.false_eq_true, if_true, if_false]
  rfl

/-- A good marker of a lane that is bound to no port moves its elastic buffer alone. -/
theorem exec_milestoneMarker_unbound (hm : markerGood m = true) :
    let t := updSerial (withFlash s f) a fun x => { x with stuffErrors := sat32 x.stuffErrors e }
    lanePort t a = none → exec (.milestoneMarker a m i e d f) s = .next (elastic t a i.val) := by
  intro t hp
  change execMilestoneMarker a m i e d f s = _
  simp only [execMilestoneMarker, native_notTesting hk h5 h6, hm, Bool.not_true, Bool.false_eq_true, if_false]
  rw [hp]

/-- A good marker of a bound lane brings the partner's masks and its request for low power. -/
theorem exec_milestoneMarker_bound {q : Nat} (hm : markerGood m = true) :
    let t := updSerial (withFlash s f) a fun x => { x with stuffErrors := sat32 x.stuffErrors e }
    lanePort t a = some q → exec (.milestoneMarker a m i e d f) s = .next (partnerPower
      (joinSpare (formLink (partnerMasks (elastic t a i.val) q (fld m 6 1 % 32) (fld m 5 1 % 32)) q) q) q
      ((fld m 2 1).testBit 3) d) := by
  intro t hp
  change execMilestoneMarker a m i e d f s = _
  simp only [execMilestoneMarker, native_notTesting hk h5 h6, hm, Bool.not_true, Bool.false_eq_true, if_false]
  rw [hp]

end

/-! ## Spares (R379), loops (R375) and wear (R592) -/

theorem exec_spareLockTimeout_training {p : Fin 6} {q : Nat} {s : State} (hu : (pairSpare s p).user = some q)
    (hs : (laneOf s (pairSpare s p).lane).st = 2) (f : Bool) : exec (.spareLockTimeout p f) s =
      .next (loseSpare (countLoss (withFlash s f) (pairSpare s p).lane) q (pairSpare s p).lane 4 5) := by
  change execSpareLockTimeout p f s = _
  simp [execSpareLockTimeout, hu, hs]

theorem endLoop_none {s : State} {a : Nat} (h : (laneOf s a).loop = none) (result bits errs : Nat) :
    endLoop s a result bits errs = s := by
  simp only [endLoop, h]

section
variable {s : State} {a result : Nat} {l : LaneLoop} (h : (laneOf s a).loop = some l)
include h

/-- A loop that does not bring back a retired lane leaves the lane idle, or retired as it was. -/
theorem endLoop_idle (hb : l.returnSpare = false ∨ result ≠ 0) (bits errs : Nat) : endLoop s a result bits errs =
    (let u := updSerial s a fun x => { x with loop := none, loopErrors := sat32 x.loopErrors errs }
    loopEvent (setLane u a (if l.retired then 6 else idleState u a) 0) a l result false bits errs) := by
  have hback : (l.returnSpare && decide (result = 0)) = false := by
    rcases hb with hb | hb <;> simp [hb]
  simp only [endLoop, h, hback, Bool.false_eq_true, if_false]

/-- A loop that passes on a lane that is to return makes it a spare. -/
theorem endLoop_returns (hb : l.returnSpare = true) (bits errs : Nat) : endLoop s a 0 bits errs =
    loopEvent (returnSpare (updSerial s a fun x => { x with loop := none, loopErrors := sat32 x.loopErrors errs }) a) a l
      0 true bits errs := by
  simp [endLoop, h, hb]

end

/-- A worn lane of a formed link whose pair has its spare at rest: the spare trains for it. -/
theorem exec_laneWearRetire_spare {a : Fin 70} {q pos : Nat} {l : LaneLink} {s : State} (hp : lanePort s a = some q)
    (hl : linkOf s q = some l) (hi : l.lanes.findIdx? (· == a.val) = some pos) (hspare : l.spare = true)
    (hform : l.formed = true) (hlane : l.spareLane = none) (hpos : l.sparePos = none) (hst : (laneOf s a).st = 3)
    (hfree : spareFree s (pairOf a) = true) (hrest : (laneOf s (pairSpare s (pairOf a)).lane).st = 7) :
    exec (.laneWearRetire a) s = .next (takeSpare (updLink s q fun l => { l with worn := some pos }) q pos) := by
  change execLaneWearRetire a s = _
  simp [execLaneWearRetire, hp, hl, hi, hspare, hform, hlane, hpos, hst, hfree, hrest]

/-! ## The obligations -/

/-- Settles O22: each row is run under its card, whose effect is the one stated. -/
theorem laneCommands : Obligations.LaneCommands := by
  refine ⟨fun n _ _ => ?config, fun n _ _ _ => ?status, fun n => ?link, fun n => ?power, fun n _ _ => ?loop,
    fun n => ?eq⟩
  all_goals exact yields_of_effect (fun _ => rfl) fun _ _ => rfl

/-- Settles O45: a lane that is lost by what it carries, a marker by what its check and its port are, a loop that ends by
whether it brings its lane back; the other events by their own lemmas. -/
theorem laneEvents : Obligations.LaneEvents := by
  refine ⟨fun a k f s h => ⟨fun hk => exec_laneBlockLock_locks h hk f, fun hk ha => exec_laneBlockLock_skewed h hk ha f⟩,
    fun a m f s h3 h4 => congrArg Host.Outcome.next ?unlocked,
    fun a m f s h hp hk => congrArg Host.Outcome.next ?unbound,
    fun a m f q l s h hp hl => ⟨fun hk => congrArg Host.Outcome.next ?old,
      fun pos hk hs hi => congrArg Host.Outcome.next ?position⟩,
    fun r f s h => exec_refqLost_fed h f, fun a k s hk hs => exec_alignmentColumn_locked hk hs k,
    fun a m i e d f s hk h5 h6 => ?marker, fun _ f _ _ hu hs => exec_spareLockTimeout_training hu hs f,
    fun a k b e f l s h => ⟨fun hb => congrArg Host.Outcome.next ?idle, fun hk he hb => ?returns⟩,
    fun a k b e f s h => congrArg Host.Outcome.next (endLoop_none (s := withFlash s f) h _ _ _),
    fun _ _ _ _ _ => exec_laneWearRetire_spare⟩
  case unlocked => exact laneLost_unlocked (s := withFlash s f) h3 h4 _
  case unbound => exact laneLost_unbound (s := withFlash s f) h hp hk _
  case old => exact laneLost_old (s := withFlash s f) h hp hl hk _
  case position => exact laneLost_position (s := withFlash s f) h hp hl hk hs hi _
  case marker =>
    exact ⟨exec_milestoneMarker_bad hk h5 h6 i e d f, exec_milestoneMarker_unbound hk h5 h6 i e d f,
      fun q => exec_milestoneMarker_bound hk h5 h6 i e d f⟩
  case idle =>
    have hr : l.returnSpare = false ∨ (if !k then 2 else if e = 0 then 0 else 1) ≠ 0 := by
      rcases hb with hk | he | hl
      · exact .inr (by simp [hk])
      · exact .inr (by cases k <;> simp [show e ≠ 0#32 from he])
      · exact .inl hl
    refine (endLoop_idle (s := withFlash s f) h hr b.toNat e.toNat).trans ?_
    cases k <;> rfl
  case returns =>
    subst hk he
    exact congrArg Host.Outcome.next (endLoop_returns (s := withFlash s f) h hb b.toNat 0)

end Sys2Proof.Machine
end

section
/-! PROOFS. The Causeway ring (16_causeway_ring_and_stage.md): what the accepted ring, flow and injector commands change
and answer, and what flits, replays, silence, beacons and notices do at a port. -/

namespace Sys2Proof.Machine

/-! ## FLOW_STATUS (R415) -/

section
variable {n : Nat} {b : Body} {s : State}

theorem flowStatusCard_effect_none (h : flowOf s (fld b 0 2) = none) :
    flowStatusCard.effect n b s = (s, .now (zeros 0x30)) := by
  simp only [flowStatusCard, h]

/-- The context of a ring flow: nothing of its answer is a free value. -/
theorem flowStatusCard_effect_flow {f : Flow} (h : flowOf s (fld b 0 2) = some f) (hk : f.kind ≤ 4) :
    flowStatusCard.effect n b s = (if fld b 2 1 = 1 then updFlow s f.num fun f => { f with
        sentItems := 0, rcvdItems := 0, gapLost := 0, duplicates := 0, stale := 0, overwrites := 0, txOverruns := 0,
        reorderHolds := 0 } else s,
      .now (leBytes 1 f.kind ++ leBytes 1 f.state ++ leBytes 2 f.partner ++ leBytes 2 f.remote ++ leBytes 1 f.dgen ++
        [0] ++ leBytes 4 (pathBound s f) ++ leBytes 4 f.sentItems ++ leBytes 4 f.rcvdItems ++ leBytes 4 f.gapLost ++
        leBytes 4 f.duplicates ++ leBytes 4 f.stale ++ leBytes 4 f.overwrites ++ leBytes 4 f.txOverruns ++
        leBytes 4 f.reorderHolds ++ zeros 4)) := by
  simp only [flowStatusCard, h, if_pos hk]

end

/-- Settles O23: each row is run under its card, whose effect is the one stated; FLOW_STATUS by whether its flow is there.
The seed modulo 2^31 and the new handshake of every port at RING_CONFIG are the model's choices (log entries 25 and
110). -/
theorem ringCommands : Obligations.RingCommands := by
  refine ⟨?config, ?status, ?flowOpen, ?close, ?listen, ?send, ?flintSet, ?flintStatus,
    fun n s h hf => exec_of_effect rfl h (flowStatusCard_effect_none hf),
    fun n f s h hf hk => exec_of_effect rfl h (flowStatusCard_effect_flow hf hk)⟩
  case flowOpen => exact fun n => begins_of_effect (fun _ => rfl) fun _ _ => rfl
  all_goals exact fun n => yields_of_effect (fun _ => rfl) fun _ _ => rfl

/-! ## Flits (R391 to R395) -/

/-- What an update of a port leaves in it can be read as before, also where there is no such port. -/
theorem ringPort_updPort_kept {α : Type} (g : RingPort → α) (s : State) (q : Nat) (f : RingPort → RingPort)
    (h : ∀ p, g (f p) = g p) : g (ringPort (updPort s q f) q) = g (ringPort s q) := by
  simp only [ringPort, updPort, modAt, List.getD_eq_getElem?_getD, List.getElem?_modify_eq]
  cases s.ring.ports[q]? with
  | none => rfl
  | some p => exact h p

section
variable {s : State} {q : Nat} {f : List Byte}

/-- A flit of the handshake: one of the first three good init flits counts (R391). -/
theorem receiveFlit_init (hs : (ringPort s q).state = 1) (hl : f.length = 64) (hc : crc32c (f.take 60) = fld f 60 4)
    (h6 : (fld f 0 1).testBit 6 = true) (h0 : (fld f 0 1).testBit 0 = false) (hn : (ringPort s q).initGood < 3) :
    receiveFlit s q f = updPort s q fun p => { p with initGood := p.initGood + 1 } := by
  have hmore : (ringPort s q).initGood + 1 < 4 := by omega
  simp [receiveFlit, takeInit, hs, hl, hc, h6, h0, hmore]

/-- A flit with a wrong length or check is counted and answered with one `nak` (R392). -/
theorem receiveFlit_bad (hs : (ringPort s q).state = 2) (hb : f.length ≠ 64 ∨ crc32c (f.take 60) ≠ fld f 60 4) :
    receiveFlit s q f = updPort s q fun p => { p with
      fcrcErrors := sat32 p.fcrcErrors 1, needNak := p.needNak || !p.nakSent } := by
  have hbad : (f.length == 64 && crc32c (f.take 60) == fld f 60 4) = false := by
    rcases hb with hb | hb <;> simp [hb]
  simp [receiveFlit, hs, hbad, discardFlit]

/-- A good flit with no data brings its acknowledgement and credits alone. -/
theorem receiveFlit_control (hs : (ringPort s q).state = 2) (hl : f.length = 64)
    (hc : crc32c (f.take 60) = fld f 60 4) (h6 : (fld f 0 1).testBit 6 = false)
    (h0 : (fld f 0 1).testBit 0 = false) : receiveFlit s q f =
      takeAck s q (fld f 4 2 % 4096) (fld f 6 1) (fld f 7 1) ((fld f 0 1).testBit 5) := by
  simp [receiveFlit, hs, hl, hc, h6, h0]

/-- The handshake sends init flits. -/
theorem transmit_init (hs : (ringPort s q).state = 1) : transmit s q =
    updPort s q fun p => { p with lastFlit := some (flitBytes 0x40 0 0xFFF 16 240 []) } := by
  simp [transmit, hs]

end

section
variable {q : Fin 8} {s : State}

theorem exec_flitReceived_up (h : (ringPort s q).lanesUp = true) (f : List Byte) :
    exec (.flitReceived q f) s = .next (tryReopen (receiveFlit s q f)) := by
  change execFlitReceived q f s = _
  simp only [execFlitReceived, h, if_true]

theorem exec_flitReceived_down (h : (ringPort s q).lanesUp = false) (f : List Byte) :
    exec (.flitReceived q f) s = .next s := by
  change execFlitReceived q f s = _
  simp only [execFlitReceived, h, Bool.false_eq_true, if_false]

theorem exec_flitTransmit_up (h : (ringPort s q).lanesUp = true) : exec (.flitTransmit q) s =
    .next (if 8 ≤ (ringPort (transmit s q) q).consecutive then linkFail (transmit s q) q 2 else transmit s q) := by
  change execFlitTransmit q s = _
  simp only [execFlitTransmit, h, if_true]

theorem exec_flitTransmit_down (h : (ringPort s q).lanesUp = false) (hc : (ringPort s q).consecutive < 8) :
    exec (.flitTransmit q) s = .next s := by
  change execFlitTransmit q s = _
  simp only [execFlitTransmit, h, Bool.false_eq_true, if_false, if_neg (Nat.not_le.mpr hc)]

theorem exec_flitTransmit_init (h : (ringPort s q).lanesUp = true) (hs : (ringPort s q).state = 1)
    (hc : (ringPort s q).consecutive < 8) : exec (.flitTransmit q) s =
      .next (updPort s q fun p => { p with lastFlit := some (flitBytes 0x40 0 0xFFF 16 240 []) }) := by
  have hkept := ringPort_updPort_kept RingPort.consecutive s q
    (fun p => { p with lastFlit := some (flitBytes 0x40 0 0xFFF 16 240 []) }) fun _ => rfl
  rw [exec_flitTransmit_up h, transmit_init hs, hkept, if_neg (Nat.not_le.mpr hc)]

theorem exec_replayTimeout_held (hs : (ringPort s q).state = 2) (hh : (ringPort s q).held ≠ []) :
    exec (.replayTimeout q) s = .next (startReplay s q) := by
  change execReplayTimeout q s = _
  simp [execReplayTimeout, hs, hh]

theorem exec_linkSilenceTimeout_up (hs : (ringPort s q).state = 2) :
    exec (.linkSilenceTimeout q) s = .next (linkFail s q 3) := by
  change execLinkSilenceTimeout q s = _
  rw [execLinkSilenceTimeout, if_pos hs]

theorem exec_wireDelayMeasure_link (hs : (ringPort s q).state = 1 ∨ (ringPort s q).state = 2) (ps : BitVec 32) :
    exec (.wireDelayMeasure q ps) s = .next (updPort s q fun p => { p with wirePs := ps.toNat }) := by
  change execWireDelayMeasure q ps s = _
  rcases hs with hs | hs <;> simp [execWireDelayMeasure, hs]

end

/-! ## Beacons (R403, R404) -/

theorem exec_beaconSend_root {r : RingSlot} {s : State} (hr : ringSlot s 0 = some r) (h : isRoot s = true) :
    exec .beaconSend s = .next (childBeacons ([r.portCw, r.portCcw].foldl (fun s q => sendBeacon s q r.ring 0)
      (updRing s fun x => { x with beaconNo := (x.beaconNo + 1) % 2 ^ 16 }))) := by
  change execBeaconSend s = _
  simp only [execBeaconSend, hr, h, Bool.not_true, Bool.false_eq_true, if_false]

/-- The judgement of the budget leaves the rings alone. -/
theorem judgeBudget_slots (s : State) : (judgeBudget s).ring.slots = s.ring.slots := by
  unfold judgeBudget
  dsimp only
  split
  · rfl
  · simp only [budgetEvent, notify_ring, updRing]

/-- A port's partner in its ring depends on the rings alone. -/
theorem otherPort_judgeBudget (s : State) (q : Nat) : otherPort (judgeBudget s) q = otherPort s q := by
  simp only [otherPort, ringSlot, judgeBudget_slots]

theorem otherPort_updRing_kept (s : State) (q : Nat) {f : Ring → Ring} (h : ∀ r, (f r).slots = r.slots) :
    otherPort (updRing s f) q = otherPort s q := by
  simp only [otherPort, ringSlot, updRing, h]

section
variable {q : Fin 8} {a b : BitVec 32} {k : BitVec 16} {w o : Nat} {r : RingSlot} {s : State}
  (hp : portRole s q = some (0, w)) (hr : ringSlot s 0 = some r) (hroot : isRoot s = false)
  (ho : otherPort s q = some o)
include hp hr hroot ho

/-- A member takes a beacon, is judged anew, and forwards it; the copy that came from its own direction to the root sets
its latency first, and goes on into its child rings. -/
theorem exec_beaconFrame_member : exec (.beaconFrame q a b k) s = .next (
    let bytes := leBytes 4 a.toNat ++ leBytes 4 b.toNat ++ leBytes 2 k.toNat
    let own := portToward r 0 == some q.val
    let here := a.toNat * 1000 + (ringPort s q).wirePs
    let t := updRing s fun r => { r with inbox := r.inbox.eraseP fun f => f.ftype == 3 && f.payload == bytes }
    let u := judgeBudget (updRing t fun x => { x with
      budgetNs := b.toNat, beaconNo := k.toNat, lastBeacon := s.time.c.toNat, stale := false
      rootLat := if own then some (upNs here) else s.ring.rootLat })
    let v := passManagement u q { managementFrame s (stageAddress r.ring 0) bytes with
      payload := beaconBytes u (upNs (here + hopBound u o false)) }
    tryReopen (if own then childBeacons v else v)) := by
  change execBeaconFrame q a b k s = _
  unfold execBeaconFrame
  extract_lets bytes f t
  have hp' : portRole t q = some (0, w) := hp
  have hr' : ringSlot t 0 = some r := hr
  have hroot' : isRoot t = false := hroot
  have ho' : otherPort t q = some o := ho
  have hf : f = managementFrame s (stageAddress r.ring 0) bytes := by
    simp only [f, hr, Option.map_some, Option.getD_some]
  simp only [hp', hr', hroot', hf, otherPort_judgeBudget, otherPort_updRing_kept, implies_true, ho',
    Bool.false_eq_true, if_false]
  rfl

end

theorem exec_beaconStale_member {s : State} (hc : s.ring.configured = true) (hl : s.ring.rootLat.isSome = true)
    (hr : isRoot s = false) : exec .beaconStale s = .next (updRing s fun r => { r with stale := true }) := by
  change execBeaconStale s = _
  simp [execBeaconStale, hc, hl, hr]

/-! ## Notices (R400) -/

theorem takeNotice_unnamed {s : State} {q : Nat} (h : portRole s q = none) (o p : Nat) (heal : Bool) :
    takeNotice s q o p heal = s := by
  simp only [takeNotice, h]

section
variable {s : State} {q k w : Nat} {r : RingSlot} (hp : portRole s q = some (k, w)) (hr : ringSlot s k = some r)
  (o p : Nat) (heal : Bool)
include hp hr

/-- A notice of a link of the ring, from another device, is recorded and passed on. -/
theorem takeNotice_passed (hs : p < r.size) (ho : o ≠ stageAddress r.ring r.pos) : takeNotice s q o p heal =
    (let bytes := (List.range 32).map (Config.noticeByte r.ring p (boolNat heal))
    passManagement (recordBreak (updRing s fun x => { x with
      inbox := x.inbox.eraseP fun f => f.ftype == 3 && f.payload == bytes }) k heal p) q (managementFrame s o bytes)) := by
  have hgo : (decide (r.size ≤ p) || decide (o = stageAddress r.ring r.pos)) = false := by
    simp [Nat.not_le.mpr hs, ho]
  simp only [takeNotice, hp, hr, hgo, Bool.false_eq_true, if_false]

/-- A notice of no link of the ring, or one that is back at its sender, ends here. -/
theorem takeNotice_ends (h : r.size ≤ p ∨ o = stageAddress r.ring r.pos) : takeNotice s q o p heal =
    updRing s fun x => { x with inbox := x.inbox.eraseP fun f => f.ftype == 3 &&
      f.payload == (List.range 32).map (Config.noticeByte r.ring p (boolNat heal)) } := by
  have hend : (decide (r.size ≤ p) || decide (o = stageAddress r.ring r.pos)) = true := by
    rcases h with h | h <;> simp [h]
  simp only [takeNotice, hp, hr, hend, if_true]

end

/-! ## The obligation -/

/-- Settles O46: a flit by its port's state and its own check; beacons and notices by their own lemmas. The beacon's
payload and rounding, the notice's bytes and forwarding, and the eighth replay judged at its end are the model's choices
(log entries 23, 111 and 112). -/
theorem ringLinkEvents : Obligations.RingLinkEvents := by
  refine ⟨fun q f s h => exec_flitReceived_up h f, fun q f s h => ⟨fun hs hl hc h6 h0 hn => ?init, fun hs hb => ?bad,
      fun hs hl hc h6 h0 => ?control⟩, fun _ _ => exec_flitTransmit_init,
    fun q f s h => ⟨exec_flitReceived_down h f, exec_flitTransmit_down h⟩, fun _ _ => exec_flitTransmit_up,
    fun _ _ => exec_replayTimeout_held, fun _ _ => exec_linkSilenceTimeout_up, fun _ _ => exec_beaconSend_root,
    fun q a b k w o r s hp hr hroot ho => ⟨fun hn => ?other, fun hown => ?own⟩, fun _ => exec_beaconStale_member,
    fun q o p k w r s hp hr => ⟨fun hs ho => ⟨congrArg Host.Outcome.next ?broken, ?healed⟩,
      fun h => ⟨congrArg Host.Outcome.next ?brokenEnds, ?healedEnds⟩⟩,
    fun q o p s h => ⟨congrArg Host.Outcome.next ?unnamed, ?healUnnamed⟩,
    fun _ ps _ hs => exec_wireDelayMeasure_link hs ps⟩
  case init => rw [exec_flitReceived_up h, receiveFlit_init hs hl hc h6 h0 hn]
  case bad => rw [exec_flitReceived_up h, receiveFlit_bad hs hb]
  case control => rw [exec_flitReceived_up h, receiveFlit_control hs hl hc h6 h0]
  case other =>
    have hfar : (portToward r 0 == some q.val) = false := beq_eq_false_iff_ne.mpr hn
    rw [exec_beaconFrame_member hp hr hroot ho]
    simp only [hfar, Bool.false_eq_true, if_false]
  case own =>
    have hnear : (portToward r 0 == some q.val) = true := beq_iff_eq.mpr hown
    rw [exec_beaconFrame_member hp hr hroot ho]
    simp only [hnear, if_true]
  case broken => exact takeNotice_passed hp hr _ _ _ hs ho
  case healed => exact congrArg (fun t => Host.Outcome.next (tryReopen t)) (takeNotice_passed hp hr _ _ _ hs ho)
  case brokenEnds => exact takeNotice_ends hp hr _ _ _ h
  case healedEnds => exact congrArg (fun t => Host.Outcome.next (tryReopen t)) (takeNotice_ends hp hr _ _ _ h)
  case unnamed => exact takeNotice_unnamed h _ _ _
  case healUnnamed => exact congrArg (fun t => Host.Outcome.next (tryReopen t)) (takeNotice_unnamed h _ _ _)

end Sys2Proof.Machine
end

section
/-! PROOFS. Flows of the Causeway ring (16_causeway_ring_and_stage.md): what each frame of a flow does where its context is
found and where it is not, and what a flow's timers do. -/

namespace Sys2Proof.Machine

/-! ## A frame leaves the inbox -/

/-- The state after a frame has been taken: only what waits, and the input credits it gives back, may be other. -/
theorem takeInbox_eq (s : State) (f : Frame) : ∃ inbox ports,
    takeInbox s f = { s with ring := { s.ring with inbox := inbox, ports := ports } } := by
  unfold takeInbox
  split
  · exact ⟨_, _, rfl⟩
  · dsimp only
    split
    · exact ⟨_, _, rfl⟩
    · exact ⟨_, _, rfl⟩

@[simp] theorem takeInbox_gate (s : State) (f : Frame) : (takeInbox s f).gate = s.gate := by
  obtain ⟨_, _, h⟩ := takeInbox_eq s f
  rw [h]

@[simp] theorem takeInbox_flows (s : State) (f : Frame) : (takeInbox s f).ring.flows = s.ring.flows := by
  obtain ⟨_, _, h⟩ := takeInbox_eq s f
  rw [h]

@[simp] theorem takeInbox_nacks (s : State) (f : Frame) : (takeInbox s f).ring.nacks = s.ring.nacks := by
  obtain ⟨_, _, h⟩ := takeInbox_eq s f
  rw [h]

@[simp] theorem flowFor_takeInbox (s : State) (f : Frame) (num gen : Nat) :
    flowFor (takeInbox s f) num gen = flowFor s num gen := by
  simp only [flowFor, liveFlow, flowOf, takeInbox_flows]

@[simp] theorem sessionOfFlow_takeInbox (s : State) (f : Frame) (num : Nat) :
    sessionOfFlow (takeInbox s f) num = sessionOfFlow s num := by
  simp only [sessionOfFlow, takeInbox_gate]

@[simp] theorem mayMiss_takeInbox (s : State) (f : Frame) (x : Flow) : mayMiss (takeInbox s f) x = mayMiss s x := by
  obtain ⟨_, _, h⟩ := takeInbox_eq s f
  rw [h]
  rfl

theorem allocBase_congr {s t : State} (hf : t.fuse = s.fuse) (hm : t.mem = s.mem) (n : Nat) :
    allocBase t n = allocBase s n := by
  unfold allocBase deviceBase
  rw [hf, hm]

/-- Two allocations look at the fuses and the memory controller alone. -/
theorem allocFits2_congr {s t : State} (hf : t.fuse = s.fuse) (hm : t.mem = s.mem) (a b : Nat) :
    allocFits2 t a b = allocFits2 s a b := by
  have hbase (n : Nat) : allocBase t n = allocBase s n := allocBase_congr hf hm n
  have hfuse (u : State) : (alloc u .copy a).2.fuse = u.fuse := by
    unfold alloc
    split <;> rfl
  have hmem : (alloc t .copy a).2.mem = (alloc s .copy a).2.mem := by
    unfold alloc
    rw [hbase]
    split
    · simp only [hm]
    · exact hm
  have hnext : allocBase (alloc t .copy a).2 b = allocBase (alloc s .copy a).2 b :=
    allocBase_congr ((hfuse t).trans (hf.trans (hfuse s).symm)) hmem b
  unfold allocFits2
  rw [hbase]
  split
  · rw [hbase]
  · rw [hnext]

/-- Whether an OPEN is refused does not depend on the frames that wait. -/
@[simp] theorem refusal_takeInbox (s : State) (f : Frame) (kind maxItem : Nat) :
    refusal (takeInbox s f) kind maxItem = refusal s kind maxItem := by
  obtain ⟨l, ps, h⟩ := takeInbox_eq s f
  have hfits (a b : Nat) : allocFits2 (takeInbox s f) a b = allocFits2 s a b :=
    allocFits2_congr (by rw [h]) (by rw [h]) a b
  unfold refusal
  dsimp only
  rw [hfits, h]
  rfl

/-! ## Data and acknowledgements (R411) -/

section
variable {x : BitVec 12} {d : BitVec 16} {g : Byte} {n : BitVec 32} {s : State}

theorem exec_flowDataFrame_stale (h : flowFor s d.toNat g.toNat = none) (p : List Byte) (m : Bool) :
    exec (.flowDataFrame x d g n p m) s = .next (countStale (takeInbox s
      { dst := s.ring.stageAddr, ftype := 0, src := x.toNat, dflow := d.toNat, dgen := g.toNat, fseqno := n.toNat
        payload := p }) d.toNat) := by
  change execFlowDataFrame x d g n p m s = _
  simp only [execFlowDataFrame, flowFor_takeInbox, h]

/-- A data frame of a flow, by where its number stands: in order, behind or held already, or ahead. -/
theorem exec_flowDataFrame_found {f : Flow} (h : flowFor s d.toNat g.toNat = some f) (p : List Byte) (m : Bool) :
    exec (.flowDataFrame x d g n p m) s = .next (
      let t := takeInbox s { dst := s.ring.stageAddr, ftype := 0, src := x.toNat, dflow := d.toNat, dgen := g.toNat,
                             fseqno := n.toNat, payload := p }
      let u := if m && mayMiss s f then updRing t fun r => { r with cacheMisses := sat32 r.cacheMisses 1 } else t
      if n.toNat = f.rxNext then
        if f.kind = 4 then takeStored (deliverFrames f.num 17 u p) f.num else deliverFrames f.num 17 u p
      else if seqBefore n.toNat f.rxNext || f.rxHeld.any fun h => h.1 == n.toNat then
        updFlow u f.num fun f => { f with duplicates := sat32 f.duplicates 1 }
      else if 16 ≤ f.rxHeld.length then u
      else updFlow u f.num fun f => { f with
        rxHeld := f.rxHeld ++ [(n.toNat, p)], reorderHolds := sat32 f.reorderHolds 1 }) := by
  change execFlowDataFrame x d g n p m s = _
  simp only [execFlowDataFrame, flowFor_takeInbox, mayMiss_takeInbox, h]

theorem exec_flowAckFrame_stale (h : flowFor s d.toNat g.toNat = none) : exec (.flowAckFrame x d g n) s =
    .next (countStale (takeInbox s
      { dst := s.ring.stageAddr, ftype := 1, src := x.toNat, dflow := d.toNat, dgen := g.toNat
        payload := leBytes 4 n.toNat }) d.toNat) := by
  change execFlowAckFrame x d g n s = _
  simp only [execFlowAckFrame, flowFor_takeInbox, h]

theorem exec_flowAckFrame_found {f : Flow} (h : flowFor s d.toNat g.toNat = some f) :
    exec (.flowAckFrame x d g n) s = .next (takeFlowAck (takeInbox s
      { dst := s.ring.stageAddr, ftype := 1, src := x.toNat, dflow := d.toNat, dgen := g.toNat
        payload := leBytes 4 n.toNat }) f n.toNat) := by
  change execFlowAckFrame x d g n s = _
  simp only [execFlowAckFrame, flowFor_takeInbox, h]

end

/-! ## Control frames (R408, R409, R412) -/

/-- The inbound flow that an OPEN asks for again. -/
def openedAlready (s : State) (c : Control) : Option Flow :=
  s.ring.flows.find? fun f => f.inbound && f.partner == c.src.toNat && f.token == c.token.toNat &&
    f.remote == c.sflow.toNat && f.dgen == c.sgen.toNat

/-- The refusal that an OPEN has met before. -/
def refusedAlready (s : State) (c : Control) : Option (Nat × Nat × Nat) :=
  s.ring.nacks.find? fun e => e.1 == c.src.toNat && e.2.1 == c.token.toNat

section
variable {c : Control} {s : State}

theorem exec_openFrame_again {f : Flow} (ha : openedAlready s c = some f) :
    exec (.openFrame c) s = .next (sendAccept (takeInbox s (controlFrame s 1 c)) f) := by
  rw [openedAlready] at ha
  change execOpenFrame c s = _
  simp only [execOpenFrame, takeInbox_flows, ha]

variable (ha : openedAlready s c = none)
include ha

theorem exec_openFrame_refusedAgain {e : Nat × Nat × Nat} (ho : refusedAlready s c = some e) :
    exec (.openFrame c) s = .next (sendNack (takeInbox s (controlFrame s 1 c)) c e.2.2) := by
  rw [openedAlready] at ha
  rw [refusedAlready] at ho
  change execOpenFrame c s = _
  simp only [execOpenFrame, takeInbox_flows, takeInbox_nacks, ha, ho]

variable (ho : refusedAlready s c = none)
include ho

theorem exec_openFrame_refused {code : Nat} (hr : refusal s c.kind.toNat c.maxItem.toNat = some code) :
    exec (.openFrame c) s = .next (refuseOpen (takeInbox s (controlFrame s 1 c)) c code) := by
  rw [openedAlready] at ha
  rw [refusedAlready] at ho
  change execOpenFrame c s = _
  simp only [execOpenFrame, takeInbox_flows, takeInbox_nacks, refusal_takeInbox, ha, ho, hr]

theorem exec_openFrame_accepted (hr : refusal s c.kind.toNat c.maxItem.toNat = none) :
    exec (.openFrame c) s = .next (acceptOpen (takeInbox s (controlFrame s 1 c)) c) := by
  rw [openedAlready] at ha
  rw [refusedAlready] at ho
  change execOpenFrame c s = _
  simp only [execOpenFrame, takeInbox_flows, takeInbox_nacks, refusal_takeInbox, ha, ho, hr]

end

section
variable {c : Control} {s : State} (h : flowFor s c.dflow.toNat c.dgen.toNat = none)
include h

theorem exec_acceptFrame_stale : exec (.acceptFrame c) s =
    .next (let t := takeInbox s (controlFrame s 2 c)
      sendControl t c.src.toNat c.sflow.toNat c.sgen.toNat
        (controlPayload t 5 c.kind.toNat 0 c.dgen.toNat c.dflow.toNat c.token.toNat 0 [])) := by
  change execAcceptFrame c s = _
  simp only [execAcceptFrame, flowFor_takeInbox, h]

theorem exec_confirmFrame_stale :
    exec (.confirmFrame c) s = .next (countStale (takeInbox s (controlFrame s 3 c)) c.dflow.toNat) := by
  change execConfirmFrame c s = _
  simp only [execConfirmFrame, flowFor_takeInbox, h]

theorem exec_nackFrame_stale :
    exec (.nackFrame c) s = .next (countStale (takeInbox s (controlFrame s 4 c)) c.dflow.toNat) := by
  change execNackFrame c s = _
  simp only [execNackFrame, flowFor_takeInbox, h]

theorem exec_closeFrame_stale :
    exec (.closeFrame c) s = .next (countStale (takeInbox s (controlFrame s 5 c)) c.dflow.toNat) := by
  change execCloseFrame c s = _
  simp only [execCloseFrame, flowFor_takeInbox, h]

theorem exec_closedFrame_stale :
    exec (.closedFrame c) s = .next (countStale (takeInbox s (controlFrame s 6 c)) c.dflow.toNat) := by
  change execClosedFrame c s = _
  simp only [execClosedFrame, flowFor_takeInbox, h]

end

section
variable {c : Control} {s : State} {f : Flow} (h : flowFor s c.dflow.toNat c.dgen.toNat = some f)
include h

theorem exec_acceptFrame_found : exec (.acceptFrame c) s =
    .next (let t := takeInbox s (controlFrame s 2 c)
      if f.inbound || f.token != c.token.toNat then countStale t c.dflow.toNat
      else if f.state = 1 then openDone t f c
      else sendControl t f.partner f.remote f.dgen (controlPayload t 3 f.kind 0 f.gen f.num f.token 0 [])) := by
  change execAcceptFrame c s = _
  simp only [execAcceptFrame, flowFor_takeInbox, h]

theorem exec_confirmFrame_other (hf : f.inbound = false ∨ f.state ≠ 1) :
    exec (.confirmFrame c) s = .next (takeInbox s (controlFrame s 3 c)) := by
  have hother : (!f.inbound || f.state != 1) = true := by rcases hf with hf | hf <;> simp [hf]
  change execConfirmFrame c s = _
  simp only [execConfirmFrame, flowFor_takeInbox, h, hother, if_true]

section
variable (hi : f.inbound = true) (hs : f.state = 1)
include hi hs

omit h in
theorem inbound_opening : (!f.inbound || f.state != 1) = false := by
  simp [hi, hs]

omit h hi hs in
/-- Opening a flow leaves its session where it was. -/
theorem sessionOfFlow_opened (s : State) (f : Flow) (x : Frame) : sessionOfFlow (flowStateEvent (updFlow (takeInbox s x)
    f.num fun f => { f with state := 2 }) f.num 0 f.kind f.partner f.remote 0 f.rxBase) f.num =
      sessionOfFlow s f.num := by
  simp only [sessionOfFlow, flowStateEvent, notify_gate, updFlow, takeInbox_gate]

/-- The opener's CONFIRM opens the inbound flow. -/
theorem exec_confirmFrame_opens (hx : sessionOfFlow s f.num = none) : exec (.confirmFrame c) s =
    .next (flowStateEvent (updFlow (takeInbox s (controlFrame s 3 c)) f.num fun f => { f with state := 2 })
      f.num 0 f.kind f.partner f.remote 0 f.rxBase) := by
  change execConfirmFrame c s = _
  simp only [execConfirmFrame, flowFor_takeInbox, h, inbound_opening hi hs, Bool.false_eq_true, if_false,
    sessionOfFlow_opened, hx]

/-- With the flow opens the session that it carries. -/
theorem exec_confirmFrame_opensSession {x : Session} (hx : sessionOfFlow s f.num = some x) :
    exec (.confirmFrame c) s =
      .next (let t := updFlow (takeInbox s (controlFrame s 3 c)) f.num fun f => { f with state := 2 }
        let u := flowStateEvent t f.num 0 f.kind f.partner f.remote 0 f.rxBase
        sessionEvent { u with gate.sessions := u.gate.sessions.map fun z =>
          if z == x then { x with active := true } else z } x 0 0 0) := by
  change execConfirmFrame c s = _
  simp only [execConfirmFrame, flowFor_takeInbox, h, inbound_opening hi hs, Bool.false_eq_true, if_false,
    sessionOfFlow_opened, hx]

end

theorem exec_nackFrame_found : exec (.nackFrame c) s =
    .next (let t := takeInbox s (controlFrame s 4 c)
      if f.inbound || f.state != 1 || f.token != c.token.toNat then t else openFail t f c.code.toNat) := by
  change execNackFrame c s = _
  simp only [execNackFrame, flowFor_takeInbox, h]

theorem exec_closeFrame_found : exec (.closeFrame c) s =
    .next (let t := takeInbox s (controlFrame s 5 c)
      let v := if f.kind = 2 then fillGaps f.num f.rxHeld.length t else t
      let u := sendControl v f.partner c.sflow.toNat c.sgen.toNat
        (controlPayload v 6 f.kind 0 f.gen f.num f.token 0 [])
      if f.inbound && f.state = 1 then
        freeFlow { u with gate.sessions := u.gate.sessions.filter fun x => x.flow != f.num } f.num
      else flowEnd u f 1 0) := by
  change execCloseFrame c s = _
  simp only [execCloseFrame, flowFor_takeInbox, h]

theorem exec_closedFrame_found : exec (.closedFrame c) s =
    .next (let t := takeInbox s (controlFrame s 6 c)
      if f.state = 3 && f.closeSent then flowEnd t f 1 0 else t) := by
  change execClosedFrame c s = _
  simp only [execClosedFrame, flowFor_takeInbox, h]

end

/-! ## Timers (R408, R411, R412) -/

theorem liveFlow_none {s : State} {k : Nat} (h : flowOf s k = none) : liveFlow s k = none := by
  rw [liveFlow, h]
  rfl

theorem liveFlow_some {s : State} {k : Nat} {f : Flow} (h : flowOf s k = some f) (hd : f.dead = false) :
    liveFlow s k = some f := by
  rw [liveFlow, h, Option.filter_some, hd]
  rfl

/-! ## The obligations -/

/-- Settles O47: the frame's flow is looked up in the state the frame meets, and each frame acts by what it finds. The
recognition of a repeated OPEN, the remembered refusals, and the CLOSE that answers an ACCEPT for no flow are the model's
choices (log entries 104 and 105). -/
theorem flowFrames : Obligations.FlowFrames := by
  refine ⟨fun x d g n p m s => ⟨fun h => exec_flowDataFrame_stale h p m, fun f h => ?data⟩,
    fun x d g n s => ⟨exec_flowAckFrame_stale, fun f h => exec_flowAckFrame_found h⟩, fun c s => ?openFrame,
    fun c s => ⟨exec_acceptFrame_stale, fun f h => ?accept⟩,
    fun c s => ⟨exec_confirmFrame_stale, fun f h => ?confirm⟩, fun c s => ⟨exec_nackFrame_stale, fun f h => ?nack⟩,
    fun c s => ⟨exec_closeFrame_stale, fun f h => ?close⟩, fun c s => ⟨exec_closedFrame_stale, fun f h => ?closed⟩⟩
  case data =>
    rw [exec_flowDataFrame_found h]
    refine ⟨fun hn hk => ?_, fun hn hk => ?_, fun hn hk => ?_, fun hn hk hl => ?_, fun hn hk hl => ?_⟩
    · simp only [hn, hk, if_true, if_false]
    · simp only [hn, hk, if_true]
    · simp only [hn, hk, if_true, if_false]
    · simp only [hn, hk, Nat.not_le.mpr hl, Bool.false_eq_true, if_false]
    · simp only [hn, hk, hl, Bool.false_eq_true, if_true, if_false]
  case openFrame =>
    exact ⟨fun f ha => exec_openFrame_again ha, fun e ha ho => exec_openFrame_refusedAgain ha ho,
      fun code ha ho hr => exec_openFrame_refused ha ho hr, fun ha ho hr => exec_openFrame_accepted ha ho hr⟩
  case accept =>
    rw [exec_acceptFrame_found h]
    refine ⟨fun hi ht hs => ?_, fun hi ht hs => ?_, fun hi => ?_⟩
    · simp [hi, ht, hs]
    · simp [hi, ht, hs]
    · rcases hi with hi | ht
      · simp [hi]
      · simp [ht]
  case confirm =>
    exact ⟨exec_confirmFrame_opens h, fun x hi hs hx => exec_confirmFrame_opensSession h hi hs hx,
      exec_confirmFrame_other h⟩
  case nack =>
    rw [exec_nackFrame_found h]
    refine ⟨fun hi ht hs => ?_, fun hi => ?_⟩
    · simp [hi, ht, hs]
    · rcases hi with hi | ht | hs
      · simp [hi]
      · simp [ht]
      · simp [hs]
  case close =>
    rw [exec_closeFrame_found h]
    refine ⟨fun hi => ?_, fun hi hs => ?_⟩
    · rcases hi with hi | hs
      · simp [hi]
      · simp [hs]
    · simp [hi, hs]
  case closed =>
    rw [exec_closedFrame_found h]
    refine ⟨fun hs hc => ?_, fun hs => ?_⟩
    · simp [hs, hc]
    · rcases hs with hs | hc
      · simp [hs]
      · simp [hc]

/-- Settles O48: a timer acts on its flow by the flow's state, and on no flow does nothing. Cause 3 where no way leads to
the partner, and the wait that CLOSE_TIMEOUT ends, are the model's choices (log entry 108). -/
theorem flowTimers : Obligations.FlowTimers := by
  refine ⟨fun k f s h hd => ⟨fun hs hk => ?ack, fun hh => ?reorder, fun hs hk => ?silence, fun hi hs => ?resend,
    fun hi hs => ?confirm, fun hs => ?close⟩, fun k s h => ⟨?_, ?_, ?_, ?_, ?_, ?_⟩⟩
  case ack =>
    change execFlowAckTimer k s = _
    simp [execFlowAckTimer, liveFlow_some h hd, hs, hk]
  case reorder =>
    change execReorderTimeout k s = _
    simp [execReorderTimeout, liveFlow_some h hd, hh]
  case silence =>
    change execFlowSilence k s = _
    simp [execFlowSilence, liveFlow_some h hd, Nat.not_lt.mpr hs, Nat.not_lt.mpr hk]
  case resend =>
    change execOpenResend k s = _
    simp [execOpenResend, h, hi, hs]
  case confirm =>
    change execConfirmTimeout k s = _
    simp [execConfirmTimeout, h, hi, hs]
  case close =>
    change execCloseTimeout k s = _
    simp [execCloseTimeout, liveFlow_some h hd, hs]
  · change execFlowAckTimer k s = _
    simp only [execFlowAckTimer, liveFlow_none h]
  · change execReorderTimeout k s = _
    simp only [execReorderTimeout, liveFlow_none h]
  · change execFlowSilence k s = _
    simp only [execFlowSilence, liveFlow_none h]
  · change execOpenResend k s = _
    simp only [execOpenResend, h]
  · change execConfirmTimeout k s = _
    simp only [execConfirmTimeout, h]
  · change execCloseTimeout k s = _
    simp only [execCloseTimeout, liveFlow_none h]

end Sys2Proof.Machine
end

section
/-! PROOFS. Broadcast outputs and the viewfinder (17_broadcast_outputs.md, 18_viewfinder_scanout.md): what the accepted
output and display commands change and answer, how outputs select, Ethernet ports come and go, and what the lines,
blanking, bursts and checks of the display do. -/

namespace Sys2Proof.Machine

/-! ## Commands (R425, R428, R452) -/

/-- An accepted row that is run under its card and answers later has the card's effect, with its slot under way. -/
theorem exec_of_effect_later {c : Card} {i : Instr} {n : Fin 40} {s t : State} (hi : exec i s = .next (mbxRun c n s))
    (h : Accepted c n s) (he : c.effect n (slotBody s n) s = (t, .later)) :
    exec i s = .next { t with mbx.started := t.mbx.started ++ [n.val] } :=
  hi.trans (congrArg Host.Outcome.next (mbxRun_later h he))

section
variable {n : Nat} {b : Body} {s : State}

theorem outSdiCard_effect_off (h : fld b 1 1 = 0) : outSdiCard.effect n b s = (outDisable s (fld b 0 1), .now []) :=
  if_pos h

theorem outSdiCard_effect_on (h : fld b 1 1 = 1) : outSdiCard.effect n b s = (let i := fld b 0 1
    (setLane (updOut s i fun x => { x with
        enabled := true, ending := false, kind := 0, src := fld b 2 1, std := fld b 3 1, width := fld b 4 2
        height := fld b 6 2, fpsNum := fld b 8 4, fpsDen := fld b 0x0C 2, psf := fld b 0x0E 1, hold := fld b 0x0F 1
        delayUs := fld b 0x10 4, phaseNs := sfld b 0x14 4, audioMask := fld b 0x18 4, anc := fld b 0x1C 1
        colorimetry := fld b 0x1D 1, held := none, run := 0, lastFill := 0, sizeFill := 0, sizeGen := none
        lastFormat := none, lastTf := none, lastYcc := none, embed := [], frames := 0, frame := none })
      (sdiLane s.fuse i) 2 0, .now [])) := if_neg (by rw [h]; decide)

theorem out2110Card_effect_off (h : fld b 1 1 = 0) :
    out2110Card.effect n b s = (outDisable s (4 + fld b 0 1), .now []) := if_pos h

/-- A sender that is switched on starts at a free sequence number, with a context of its own. -/
theorem out2110Card_effect_on (h : fld b 1 1 = 1) : out2110Card.effect n b s = (let i := 4 + fld b 0 1
    let d := draw s
    let r := allocFlow d.2 { num := 0, kind := 5, state := 2, token := fld b 0 1 }
    let t := updOut r.2 i fun y => { senderOf b with
      seq := d.1 % 2 ^ 32, repeats := y.repeats, skips := y.skips, sizeSkips := y.sizeSkips
      audioAdjust := y.audioAdjust, lastSeq := y.lastSeq, lastGen := y.lastGen, flow := some r.1 }
    (if fld b 2 1 = 1 then t else outState t i 1 0, .now [])) := if_neg (by rw [h]; decide)

end

/-- Settles O24: each row is run under its card; the outputs by whether they are switched on or off, DISP_DCS by whether
the panel can take its command now. That a commit before the first line of the first frame is not late is the model's
choice (log entry 204). -/
theorem outputCommands : Obligations.OutputCommands := by
  refine ⟨?ethPort, ?outStatus, ?config, ?layer, ?commit, ?dispStatus, fun n s h hb => ?sdiOff, fun n s h hb => ?sdiOn,
    fun n s h hb => ?senderOff, fun n s h hb => ?senderOn, fun n r0 r1 s h hd => ?dcsOff,
    fun n r0 r1 s h he => fun hw => ?dcsWaits, fun n r0 r1 l s h he hl hv hlong => ?dcsBlanking⟩
  case sdiOff => exact exec_of_effect rfl h (outSdiCard_effect_off hb)
  case sdiOn => exact exec_of_effect rfl h (outSdiCard_effect_on hb)
  case senderOff => exact exec_of_effect rfl h (out2110Card_effect_off hb)
  case senderOn => exact exec_of_effect rfl h (out2110Card_effect_on hb)
  case dcsOff => exact exec_of_effect rfl h (if_pos (by simp [hd]))
  case dcsWaits =>
    refine exec_of_effect_later rfl h (if_neg ?_)
    cases hl : s.disp.line with
    | none => simp [he]
    | some l => simpa [he] using hw l hl
  case dcsBlanking => exact exec_of_effect rfl h (if_pos (by simp [hl, hv, hlong]))
  all_goals exact fun n => yields_of_effect (fun _ => rfl) fun _ _ => rfl

/-! ## Outputs (R422) and Ethernet ports (R433) -/

section
variable {i : Fin 12} {s : State}

theorem exec_outputSelect_disabled (h : (outOf s i).enabled = false) (a : Bool) :
    exec (.outputSelect i a) s = .next (outEnd s i) := by
  change execOutputSelect i a s = _
  simp [execOutputSelect, h]

theorem outEnd_ended (h : (outOf s i).ending = false) : outEnd s i = s := by
  simp [outEnd, h]

/-- A sender whose last frame ends has no lane to silence. -/
theorem outEnd_sender (h : (outOf s i).ending = true) (hi : 4 ≤ i.val) :
    outEnd s i = updOut s i fun y => { y with ending := false, held := none, frame := none } := by
  simp [outEnd, h, Nat.not_lt.mpr hi]

theorem exec_outputSelect_sdi (h : (outOf s i).enabled = true) (hi : i.val < 4) : exec (.outputSelect i false) s =
    .next (outFrame (outSelect (cadenceBegin s i (outDue s)) i) i false) := by
  change execOutputSelect i false s = _
  simp [execOutputSelect, h, hi, Nat.not_le.mpr hi]

end

theorem ethLink_same {s : State} {e : Nat} {up : Bool} (h : (ethOf s e).link = up) : ethLink s e up = s := if_pos h

theorem ethLink_change {s : State} {e : Nat} {up : Bool} (h : (ethOf s e).link ≠ up) :
    ethLink s e up = ethEvent (updEth s e fun p => { p with link := up }) e up := if_neg h

/-! ## Scan-out (R441, R490) -/

theorem scanning_of_enabled {s : State} (h : s.disp.enabled = true) : scanning s = true := by
  rw [scanning, h, Bool.true_or]

theorem scanning_off {s : State} (he : s.disp.enabled = false) (hf : s.disp.finishing = false) :
    scanning s = false := by
  rw [scanning, he, hf]
  rfl

/-- Nothing of the display acts while no scan-out runs. -/
theorem exec_display_off {s : State} (h : scanning s = false) : exec .displayLine s = .next s ∧
    exec .displayVblank s = .next s ∧ (∀ a b, exec (.displayFrameCrc a b) s = .next s) ∧
    (∀ y l, exec (.composeDeadline y l) s = .next s) ∧ ∀ l y b, exec (.layerBurst l y b) s = .next s := by
  refine ⟨?_, ?_, fun a b => ?_, fun y l => ?_, fun l y b => ?_⟩
  · change execDisplayLine s = _
    simp [execDisplayLine, h]
  · change execDisplayVblank s = _
    simp [execDisplayVblank, h]
  · change execDisplayFrameCrc a b s = _
    simp [execDisplayFrameCrc, h]
  · change execComposeDeadline y l s = _
    simp [execComposeDeadline, h]
  · change execLayerBurst l y b s = _
    simp [execLayerBurst, h]

section
variable {l : Nat} {s : State} (he : s.disp.enabled = true) (hf : s.disp.finishing = false)
  (hl : s.disp.line = some l)
include he hf hl

/-- The next active line of the frame starts, and opens the lines of the compose window. -/
theorem exec_displayLine_next (hv : l + 1 < s.disp.cfg.vActive) (ht : l + 1 < dispTotal s) :
    exec .displayLine s = .next (composeReady (updDisp (lineStart (updDisp s fun d => { d with
      dframe := s.disp.dframe }) (l + 1)) fun d => { d with
        opened := max d.opened (min s.disp.cfg.vActive (l + 1 + 65)) })) := by
  change execDisplayLine s = _
  simp [execDisplayLine, scanning_of_enabled he, hf, hl, Nat.not_le.mpr ht, Nat.ne_of_lt hv, hv]

/-- After the last line of a frame the next frame starts. -/
theorem exec_displayLine_frame (ht : dispTotal s ≤ l + 1) (hv : 0 < s.disp.cfg.vActive) :
    exec .displayLine s = .next (composeReady (updDisp (lineStart (updDisp
      (cadenceBegin s 12 (viewTime s s.time.viewS s.time.c.toNat)) fun d => { d with dframe := nextFrame s }) 0)
        fun d => { d with opened := max d.opened (min s.disp.cfg.vActive 65) })) := by
  change execDisplayLine s = _
  simp [execDisplayLine, scanning_of_enabled he, hf, hl, ht, Nat.ne_of_lt hv, hv]

end

/-- Putting the display back as it is changes nothing. -/
theorem updDisp_self (s : State) : updDisp s (fun d => d) = s := rfl

section
variable {l : Nat} {s : State} (he : s.disp.enabled = true) (hl : s.disp.line = some l)
include he hl

/-- Blanking latches the commit that is due at the frame, chooses a video frame and posts its event (R444, R448). -/
theorem exec_displayVblank_active (hf : s.disp.finishing = false) (hv : l + 1 = s.disp.cfg.vActive) :
    exec .displayVblank s = .next (
      let n := s.disp.dframe
      let latch := s.disp.pending.any fun p => p.2 == n
      let u := chooseVideo (updDisp s fun d => latchCommit { d with
        frameNo := n, frameCrc := storeCrc s, frameOff := packBits (d.off.map (·.isSome)) } n)
      let v := lineStart (updDisp u fun d => { d with
        opened := min 64 s.disp.cfg.vActive, written := [], fetched := [], off := [none, none, none, none] })
        s.disp.cfg.vActive
      let w := notify v 0x0E01 0 (leBytes 4 n ++ leBytes 1 (boolNat latch) ++ [0, 0, 0] ++ leBytes 4 (heldSeq v)) 0
      dcsSend (composeReady (if latch then setLeaf w 14 7 else w))) := by
  have hlast : (s.disp.line.any fun l => l + 1 == s.disp.cfg.vActive) = true := by simp [hl, hv]
  change execDisplayVblank s = _
  simp only [execDisplayVblank, scanning_of_enabled he, hlast, hf, Bool.not_true, Bool.or_self, Bool.false_eq_true,
    if_false]

/-- The check of the one port that scans out, in blanking: told with its verdict, and counted with its leaf where it is
wrong (R451). -/
theorem exec_displayFrameCrc_port0 (hv : s.disp.cfg.vActive ≤ l) (hp : s.disp.cfg.ports = 1) (a b : BitVec 32) :
    exec (.displayFrameCrc a b) s = .next (
      let ok := a.toNat == s.disp.frameCrc
      let t := notify s 0x0E03 0 (leBytes 4 s.disp.frameNo ++ leBytes 4 s.disp.frameCrc ++
        leBytes 1 (packBits [ok, false, true, false]) ++ leBytes 1 s.disp.frameOff) 2
      if ok then t else setLeaf (updDisp t fun d => { d with mismatches := modAt d.mismatches 0 (sat32 · 1) }) 14 6) := by
  have h0 : Nat.testBit 1 0 = true := by decide
  have h1 : Nat.testBit 1 1 = false := by decide
  have hblank : (!scanning s || !(s.disp.line.any fun l => s.disp.cfg.vActive ≤ l)) = false := by
    simp [scanning_of_enabled he, hl, hv]
  have hbad : ([0, 1].filter fun p => Nat.testBit 1 p && !((if p = 0 then a else b).toNat == s.disp.frameCrc)) =
      if a.toNat == s.disp.frameCrc then [] else [0] := by
    cases h : a.toNat == s.disp.frameCrc <;> simp [h0, h1, h]
  change execDisplayFrameCrc a b s = _
  simp only [execDisplayFrameCrc, hblank, hp, hbad, h0, h1, Bool.true_and, Bool.false_and, Bool.false_eq_true, if_false,
    if_true]
  cases a.toNat == s.disp.frameCrc with
  | false => simp only [List.isEmpty_cons, List.foldl_cons, List.foldl_nil, Bool.false_eq_true, if_false]
  | true =>
    simp only [List.isEmpty_nil, List.foldl_nil, if_true]
    exact congrArg Host.Outcome.next (updDisp_self _)

end

/-! ## Bursts and deadlines (R445 to R447) -/

/-- A burst of an overlay whose generation word is another switches its layer off from the line on; one that is off already
is not told again. -/
theorem exec_layerBurst_stale {l : Fin 4} {y : Fin 1600} {b : Fin 3} {s : State} (hl : l ≠ 0)
    (he : s.disp.enabled = true) (ho : y.val < s.disp.opened) (hw : s.disp.written.contains y.val = false)
    (hc : covers s l y = true) (hb : b.val < burstsOf s l y)
    (hn : ((burstsIn s l y).any fun f => f.2.2.1 == b.val) = false)
    (hg : memLE s.dram (layerOf s.disp.latched l).addr 4 ≠ (layerOf s.disp.latched l).gen) :
    exec (.layerBurst l y b) s = .next (composeReady (layerOff s l y fun u =>
      notify (updDisp u fun d => { d with stales := modAt d.stales (l.val - 1) (sat32 · 1) }) 0x0E05 l
        (leBytes 4 (composing s) ++ leBytes 1 l ++ [0] ++ leBytes 2 y ++ leBytes 4 (layerOf s.disp.latched l).gen ++
          leBytes 4 (memLE s.dram (layerOf s.disp.latched l).addr 4)) 4)) := by
  have hl' : l.val ≠ 0 := Fin.val_ne_zero_iff.mpr hl
  have hwaits : (!scanning s || decide (s.disp.opened ≤ y.val) || s.disp.written.contains y.val || !covers s l y ||
      decide (burstsOf s l y ≤ b.val) || (burstsIn s l y).any fun f => f.2.2.1 == b.val) = false := by
    simp only [scanning_of_enabled he, hw, hc, hn, decide_eq_false (Nat.not_le.mpr ho),
      decide_eq_false (Nat.not_le.mpr hb), Bool.not_true, Bool.or_self]
  have hstale : (l.val != 0 && memLE s.dram (layerOf s.disp.latched l).addr 4 != (layerOf s.disp.latched l).gen) = true := by
    simp [hl', hg]
  change execLayerBurst l y b s = _
  simp only [execLayerBurst, hwaits, hstale, Bool.false_eq_true, if_false, if_true]

/-- A deadline finds every fetch in: nothing is late. -/
theorem exec_composeDeadline_arrived {y : Fin 1600} {s : State} (he : s.disp.enabled = true)
    (ho : y.val < s.disp.opened) (hw : s.disp.written.contains y.val = false)
    (ha : ∀ k, k < 4 → covers s k y = false ∨ arrived s k y = true) (l : List (BitVec 32)) :
    exec (.composeDeadline y l) s = .next (composeReady s) := by
  have hin (k : Nat) (hk : k < 4) : (!covers s k y || arrived s k y) = true := by
    rcases ha k hk with h | h <;> simp [h]
  have hopen : (!scanning s || decide (s.disp.opened ≤ y.val) || s.disp.written.contains y.val) = false := by
    simp only [scanning_of_enabled he, hw, decide_eq_false (Nat.not_le.mpr ho), Bool.not_true, Bool.or_self]
  change execComposeDeadline y l s = _
  simp only [execComposeDeadline, hopen, Bool.false_eq_true, if_false]
  have hrange : List.range 4 = [0, 1, 2, 3] := rfl
  simp only [hrange, List.foldl_cons, List.foldl_nil, hin 0 (by decide), hin 1 (by decide), hin 2 (by decide),
    hin 3 (by decide), if_true]

/-! ## The obligation -/

/-- Settles O51: each event by its own lemma. A stale burst of a layer that is off already moves its line with no count,
and the line of a reference change comes at the end of blanking, by the model's choice (log entries 119, 222 and 220). -/
theorem outputAndDisplayEvents : Obligations.OutputAndDisplayEvents := by
  refine ⟨fun i a s h => ⟨fun hn => ?ended, fun hn hi => ?sender⟩, fun _ _ => exec_outputSelect_sdi,
    fun e s => ⟨fun h => congrArg Host.Outcome.next ?down, fun h => congrArg Host.Outcome.next (ethLink_same h),
      fun hu h => ?up⟩,
    fun _ _ => exec_displayLine_next, fun _ _ => exec_displayLine_frame,
    fun _ he hf => exec_display_off (scanning_off he hf), fun _ _ he hf hl => exec_displayVblank_active he hl hf,
    fun l y b s hl he ho hw hc hb hn => fun hg => ?stale,
    fun _ l _ he ho hw ha => exec_composeDeadline_arrived he ho hw ha l,
    fun a b l s he hl hv hp ha => ?right, fun a b l s he hl hv hp ha => ?wrong⟩
  case ended => rw [exec_outputSelect_disabled h, outEnd_ended hn]
  case sender => rw [exec_outputSelect_disabled h, outEnd_sender hn hi]
  case down => exact ethLink_change (by simp [h])
  case up =>
    change execEthPortUp e s = _
    rw [execEthPortUp, if_pos hu, ethLink_change (by simp [h])]
  case stale =>
    have hrun := exec_layerBurst_stale hl he ho hw hc hb hn hg
    refine ⟨fun hoff => hrun.trans ?_, fun hoff => hrun.trans ?_⟩
    · rw [layerOff, hoff]
      rfl
    · rw [layerOff, if_pos hoff]
  case right =>
    rw [exec_displayFrameCrc_port0 he hl hv hp]
    simp only [beq_iff_eq.mpr ha, if_true]
    rfl
  case wrong =>
    have hne : (a.toNat == s.disp.frameCrc) = false := beq_eq_false_iff_ne.mpr ha
    rw [exec_displayFrameCrc_port0 he hl hv hp]
    simp only [hne, Bool.false_eq_true, if_false]
    exact ⟨_, rfl, by simp only [updDisp, notify_disp]⟩

end Sys2Proof.Machine
end

section
/-! PROOFS. The audio unit (19_audio.md) and the time commands (20_time_and_genlock.md): what each accepted command
changes and answers, and the audio unit's strobes, frames, changes and clock faults. -/

namespace Sys2Proof.Machine

/-! ## TIME_SYNC (R491, R496) -/

/-- The settings that TIME_SYNC takes, before SYNC_OUT starts. -/
def syncConfigured (b : Body) (s : State) : State :=
  let s1 := if fld b 0 1 = 0 then loseSync s else s
  { s1 with
    time.syncIn := { s1.time.syncIn with enable := fld b 0 1 == 1 }
    time.syncOutStd := fld b 1 1
    time.syncOutFpsNum := fld b 4 4
    time.syncOutFpsDen := fld b 8 2
    time.syncOutPhase := sfld b 0x0C 4 }

/-- Half a frame of SYNC_OUT from now, in the time of view S. -/
def syncOutDue (s : State) : Int := viewTime s s.time.viewS (now s) + periodOf s 13 / 2

section
variable {n : Nat} {b : Body} {s : State}

theorem timeSyncCard_effect_off (h : fld b 1 1 = 0) :
    timeSyncCard.effect n b s = (updCadence (syncConfigured b s) 13 fun _ => {}, .now []) := by
  change (updCadence (syncConfigured b s) 13 fun _ => if fld b 1 1 = 0 then {} else _, _) = _
  simp only [if_pos h]

/-- With no alignment points SYNC_OUT starts half a frame from now. -/
theorem timeSyncCard_effect_unaligned (h : fld b 1 1 ≠ 0) (ha : baseAligned (syncConfigured b s) = false ∨
    (consumerRate (syncConfigured b s) 13).1 = 0) : timeSyncCard.effect n b s =
      (updCadence (syncConfigured b s) 13 fun _ => { start := some (syncOutDue (syncConfigured b s)) }, .now []) := by
  change (updCadence (syncConfigured b s) 13 fun _ => if fld b 1 1 = 0 then {} else
    { start := some (if baseAligned (syncConfigured b s) && (consumerRate (syncConfigured b s) 13).1 != 0 then _
      else syncOutDue (syncConfigured b s)) }, _) = _
  have hno : (baseAligned (syncConfigured b s) && (consumerRate (syncConfigured b s) 13).1 != 0) = false := by
    rcases ha with ha | ha <;> simp [ha]
  simp only [if_neg h, hno, Bool.false_eq_true, if_false]

theorem timeSyncCard_effect_aligned (h : fld b 1 1 ≠ 0) (ha : baseAligned (syncConfigured b s) = true)
    (hr : (consumerRate (syncConfigured b s) 13).1 ≠ 0) : timeSyncCard.effect n b s =
      (updCadence (syncConfigured b s) 13 fun _ => { start := some (alignedPoint (syncConfigured b s) 13
        (syncOutDue (syncConfigured b s)) (2 ^ 48)) }, .now []) := by
  change (updCadence (syncConfigured b s) 13 fun _ => if fld b 1 1 = 0 then {} else
    { start := some (if baseAligned (syncConfigured b s) && (consumerRate (syncConfigured b s) 13).1 != 0 then
      alignedPoint (syncConfigured b s) 13 (syncOutDue (syncConfigured b s)) (2 ^ 48) else _) }, _) = _
  have hyes : (baseAligned (syncConfigured b s) && (consumerRate (syncConfigured b s) 13).1 != 0) = true := by
    simp [ha, hr]
  simp only [if_neg h, hyes, if_true]

/-! ## AUD_CHANNEL (R466) and AUD_SLOTS (R467) -/

theorem audChannelCard_effect_stopped (h : unitRuns s (unitOf (fld b 0 1)) = false) :
    audChannelCard.effect n b s = (updAudChan s (fld b 0 1) fun x => { x with
      gain := fld b 4 4, mute := fld b 1 1 == 1, wait := none }, .now [0, 0, 0, 0]) := by
  simp [audChannelCard, h]

theorem audChannelCard_effect_waits (h : unitRuns s (unitOf (fld b 0 1)) = true)
    (hw : (audChan s (fld b 0 1)).wait = none) : audChannelCard.effect n b s =
      (updAudChan s (fld b 0 1) fun x => { x with
        wait := some { gain := fld b 4 4, mute := fld b 1 1 == 1, replaced := 0 } }, .now [1, 0, 0, 0]) := by
  simp [audChannelCard, h, hw, boolNat]

theorem audChannelCard_effect_replaces {w : GainWait} (h : unitRuns s (unitOf (fld b 0 1)) = true)
    (hw : (audChan s (fld b 0 1)).wait = some w) : audChannelCard.effect n b s =
      (countReplaced (updAudChan s (fld b 0 1) fun x => { x with
        wait := some { gain := fld b 4 4, mute := fld b 1 1 == 1, replaced := satAdd 8 w.replaced 1 } })
        (unitOf (fld b 0 1)), .now [1, 1, 0, 0]) := by
  simp [audChannelCard, h, hw, boolNat]

theorem audSlotsCard_effect_stopped (h : unitRuns s (2 + fld b 0 1) = false) :
    audSlotsCard.effect n b s = (updAudPort s (fld b 0 1) fun p => { p with
      mask := fld b 1 1, route := routesOf b 4, wait := none }, .now [0, 0, 0, 0]) := by
  simp [audSlotsCard, h]

/-- The channels whose crossing a change of the slot mask waits for. -/
def slotsAwaited (b : Body) (s : State) : List Nat :=
  let k := fld b 0 1
  let p := audPort s k
  let gone := (List.range 8).filter fun i => p.mask.testBit i && !(fld b 1 1).testBit i
  let added := (List.range 8).filter fun i => (fld b 1 1).testBit i && !p.mask.testBit i
  gone.map (8 + 8 * k + ·) ++ (if p.dir = 2 then added.map fun i => (routesOf b 4).getD i 0xFF else [])

/-- The port with the change waiting, which has replaced a count of others. -/
def slotsWaiting (b : Body) (s : State) (replaced : Nat) : State :=
  updAudPort s (fld b 0 1) fun y => { y with wait := some {
    mask := fld b 1 1, route := routesOf b 4, waits := slotsAwaited b s, replaced := replaced
    skip := boolNat ((slotsAwaited b s).isEmpty && (audPort s (fld b 0 1)).master &&
      nearFrame s (audPort s (fld b 0 1))) } }

theorem audSlotsCard_effect_running (h : unitRuns s (2 + fld b 0 1) = true) : audSlotsCard.effect n b s =
    (let old := (audPort s (fld b 0 1)).wait
    let t := slotsWaiting b s ((old.map fun w => satAdd 8 w.replaced 1).getD 0)
    (if old.isSome then countReplaced t (2 + fld b 0 1) else t, .now [BitVec.ofNat 8 (boolNat old.isSome), 0, 0, 0])) :=
  if_neg (by simp [h])

theorem audSlotsCard_effect_waits (h : unitRuns s (2 + fld b 0 1) = true) (hw : (audPort s (fld b 0 1)).wait = none) :
    audSlotsCard.effect n b s = (slotsWaiting b s 0, .now [0, 0, 0, 0]) := by
  simp [audSlotsCard_effect_running h, hw, boolNat]

theorem audSlotsCard_effect_replaces {w : SlotsWait} (h : unitRuns s (2 + fld b 0 1) = true)
    (hw : (audPort s (fld b 0 1)).wait = some w) : audSlotsCard.effect n b s =
      (countReplaced (slotsWaiting b s (satAdd 8 w.replaced 1)) (2 + fld b 0 1), .now [1, 0, 0, 0]) := by
  simp [audSlotsCard_effect_running h, hw, boolNat]

/-! ## TIME_DOMAIN (R480 to R482) -/

theorem timeDomainCard_effect_now (h : fld b 1 1 ≠ 2) :
    timeDomainCard.effect n b s = (domainApply s b none, .now []) := if_neg h

/-- A domain fed by a time flow opens it first. -/
theorem timeDomainCard_effect_flow (h : fld b 1 1 = 2) : timeDomainCard.effect n b s =
    (let r := startOpen s { num := 0, kind := 3, state := 1, partner := fld b 8 2, slot := some n }
    (launchOpen r.2 r.1, .later)) := if_pos h

end

/-- Settles O25: each row is run under its card, whose effect is the one stated; the changes of a stopped and of a
running unit, and the domains with and without a time flow, by their own lemmas. -/
theorem audioAndTimeCommands : Obligations.AudioAndTimeCommands := by
  refine ⟨?audConfig, ?audPort, ?audStart, ?audStop, ?audStatus, ?timeSelect, ?timePort, ?timeLtc, ?timeServe,
    ?timeStatus, ?timeSync, ?channelStopped, ?channelRunning, ?slotsStopped, ?slotsRunning, ?domain, ?domainFlow⟩
  case timeSync =>
    exact fun n s h => ⟨fun h0 => exec_of_effect rfl h (timeSyncCard_effect_off h0),
      fun h0 ha => exec_of_effect rfl h (timeSyncCard_effect_unaligned h0 ha),
      fun h0 ha hr => exec_of_effect rfl h (timeSyncCard_effect_aligned h0 ha hr)⟩
  case channelStopped => exact fun n s h hu => exec_of_effect rfl h (audChannelCard_effect_stopped hu)
  case channelRunning =>
    exact fun n s h hu => ⟨fun hw => exec_of_effect rfl h (audChannelCard_effect_waits hu hw),
      fun w hw => exec_of_effect rfl h (audChannelCard_effect_replaces hu hw)⟩
  case slotsStopped => exact fun n s h hu => exec_of_effect rfl h (audSlotsCard_effect_stopped hu)
  case slotsRunning =>
    exact fun n s h hu => ⟨fun hw => exec_of_effect rfl h (audSlotsCard_effect_waits hu hw),
      fun w hw => exec_of_effect rfl h (audSlotsCard_effect_replaces hu hw)⟩
  case domain => exact fun n s h hf => exec_of_effect rfl h (timeDomainCard_effect_now hf)
  case domainFlow => exact fun n s h hf => exec_of_effect_later rfl h (timeDomainCard_effect_flow hf)
  all_goals exact fun n => yields_of_effect (fun _ => rfl) fun _ _ => rfl

/-! ## Audio frames and clock faults (R462 to R464) -/

section
variable {k : Fin 3} {s : State}

theorem exec_audioFrame_runs (hm : (audPort s k).master = false) (hd : (audPort s k).dir ≠ 0)
    (hf : (audPort s k).fault = none) (hu : unitRuns s (2 + k) = true) (l : List (BitVec 24)) (b : Bool) :
    exec (.audioFrame k l b) s = .next (
      let t := maskFrame s k (strobeAfter s (classS s)) b
      if (audPort s k).dir = 1 then bufWrite t k { mask := (audPort t k).mask, slots := l.map fun v => v.toInt }
      else updAudPort (bufRead t k).2 k fun p => { p with sent := drivenSlots p (bufRead t k).1.slots }) := by
  change execAudioFrame k l b s = _
  by_cases h1 : (audPort s k).dir = 1
  · simp [execAudioFrame, hm, h1, hf, hu]
  · simp [execAudioFrame, hm, hd, h1, hf, hu]

theorem exec_audioClockFault_runs (hm : (audPort s k).master = false) (hd : (audPort s k).dir ≠ 0)
    (hf : (audPort s k).fault = none) (hu : unitRuns s (2 + k) = true) (f : Fin 3) (ps : BitVec 32) :
    exec (.audioClockFault k f ps) s = .next (notify ((portChans k).foldl (fun s c => updAudChan s c fun x => { x with
        faultMute := true, unmute := false }) (updAudPort s k fun p => { p with
        fault := some f.val, buf := [], filling := false, sent := List.replicate 8 0, faults := sat32 p.faults 1 }))
      0x0F01 k ([0] ++ leBytes 1 f ++ [0, 0] ++ leBytes 4 ps.toNat) k) := by
  change execAudioClockFault k f ps s = _
  have hgo : ((audPort s k).master || decide ((audPort s k).dir = 0) || (audPort s k).fault.isSome ||
      !unitRuns s (2 + k)) = false := by simp [hm, hd, hf, hu]
  simp only [execAudioClockFault, hgo, Bool.false_eq_true, if_false]

theorem exec_audioClockQualified_faulty (h : (audPort s k).fault.isSome = true) (ps : BitVec 32) :
    exec (.audioClockQualified k ps) s =
      .next (notify ((portChans k).foldl (fun s c => updAudChan s c fun x => { x with
          unmute := x.faultMute }) (updAudPort s k fun p => { p with fault := none, buf := [], filling := true }))
        0x0F01 k ([1, 0, 0, 0] ++ leBytes 4 ps.toNat) k) := by
  change execAudioClockQualified k ps s = _
  have hno : (audPort s k).fault.isNone = false := by rw [Option.isNone_eq_false_iff]; exact h
  simp only [execAudioClockQualified, hno, Bool.false_eq_true, if_false]

end

/-- Settles O52: the strobe is its own composition; the other rows by the state of their port. -/
theorem audioEvents : Obligations.AudioEvents := by
  refine ⟨fun _ _ _ _ => rfl, fun k l b s hm hf hu => ⟨fun hd => ?receive, fun hd => ?transmit⟩,
    fun _ _ hi => if_pos hi, fun _ _ _ _ hm hd hf hu => exec_audioClockFault_runs hm hd hf hu _ _,
    fun _ _ _ h => exec_audioClockQualified_faulty h _⟩
  case receive => rw [exec_audioFrame_runs hm (by omega) hf hu]; exact congrArg Host.Outcome.next (if_pos hd)
  case transmit => rw [exec_audioFrame_runs hm (by omega) hf hu]; exact congrArg Host.Outcome.next (if_neg (by omega))

end Sys2Proof.Machine
end

section
/-! PROOFS. The time base (20_time_and_genlock.md): the measurements and losses of a domain's source, the views and
cadences, the sync input and time code. -/

namespace Sys2Proof.Machine

/-! ## PTP (R478 to R480) -/

section
variable {d : Fin 2} {m : Nat} {s : State}

theorem exec_ptpSync_best (hs : (domOf s d).source = .ptp) (hm : ((domOf s d).masters.head?.map (·.port)) = some m)
    (t1 : Int) (k : Nat) : exec (.ptpSync d m t1 k) s = .next (let r := stampRx s (domOf s d).port k
      let t2 := domTimeAt (domOf s d) r.1
      measure (updDom r.2 d fun y => { y with syncT := some (t1, t2) }) d
        ((t2 - t1) - (domOf s d).path - psToTime (s.time.asym.getD (domOf s d).port 0)) 1 (ptpInterval (domOf s d))) := by
  change execPtpSync d m t1 k s = _
  have hgo : ((domOf s d).source != .ptp || ((domOf s d).masters.head?.map (·.port)) != some m) = false := by
    rw [hs, hm, bne_self_eq_false, bne_self_eq_false]; rfl
  simp only [execPtpSync, hgo, Bool.false_eq_true, if_false]

theorem exec_ptpSync_other (h : (domOf s d).source ≠ .ptp ∨ ((domOf s d).masters.head?.map (·.port)) ≠ some m)
    (t1 : Int) (k : Nat) : exec (.ptpSync d m t1 k) s = .next s := by
  change execPtpSync d m t1 k s = _
  have hend : ((domOf s d).source != .ptp || ((domOf s d).masters.head?.map (·.port)) != some m) = true := by
    rcases h with h | h
    · rw [bne_iff_ne.mpr h, Bool.true_or]
    · rw [bne_iff_ne.mpr h, Bool.or_true]
  simp only [execPtpSync, hend, if_true]

variable (hs : (domOf s d).source = .ptp)
include hs

theorem exec_ptpDelayResp_early (h : (domOf s d).syncT = none) (k : Nat) (t4 : Int) :
    exec (.ptpDelayResp d k t4) s = .next (stampTx s (domOf s d).port k).2 := by
  change execPtpDelayResp d k t4 s = _
  have hgo : ((domOf s d).source != .ptp) = false := by rw [hs, bne_self_eq_false]
  simp only [execPtpDelayResp, hgo, Bool.false_eq_true, if_false, h]

theorem exec_ptpDelayResp_path {t1 t2 : Int} (h : (domOf s d).syncT = some (t1, t2)) (k : Nat) (t4 : Int) :
    exec (.ptpDelayResp d k t4) s = .next (let r := stampTx s (domOf s d).port k
      let p := ((t2 - t1) + (t4 - domTimeAt (domOf s d) r.1)).fdiv 2
      updDom r.2 d fun y => { y with path := p, pathNs := thetaNs p }) := by
  change execPtpDelayResp d k t4 s = _
  have hgo : ((domOf s d).source != .ptp) = false := by rw [hs, bne_self_eq_false]
  simp only [execPtpDelayResp, hgo, Bool.false_eq_true, if_false, h]

theorem exec_ptpAnnounce_known (h : ((domOf s d).masters.any fun x => x.port == m) = true) (l : List Nat) :
    exec (.ptpAnnounce d m l) s = .next (updDom s d fun y => { y with
      masters := insertMaster ⟨m, l⟩ (y.masters.filter fun x => x.port != m) }) := by
  change execPtpAnnounce d m l s = _
  have hgo : ((domOf s d).source != .ptp) = false := by rw [hs, bne_self_eq_false]
  simp only [execPtpAnnounce, hgo, h, Bool.false_eq_true, if_false, if_true]

/-- A master more than the domain may know only counts. -/
theorem exec_ptpAnnounce_ignored (h : ((domOf s d).masters.any fun x => x.port == m) = false)
    (hfull : 4 ≤ (domOf s d).masters.length ∨ pinnedFree s = false) (l : List Nat) :
    exec (.ptpAnnounce d m l) s = .next (updDom s d fun y => { y with ignored := sat32 y.ignored 1 }) := by
  change execPtpAnnounce d m l s = _
  have hgo : ((domOf s d).source != .ptp) = false := by rw [hs, bne_self_eq_false]
  have hno : (decide (4 ≤ (domOf s d).masters.length) || !pinnedFree s) = true := by
    rcases hfull with h | h <;> simp [h]
  simp only [execPtpAnnounce, hgo, h, hno, Bool.false_eq_true, if_false, if_true]

end

/-! ## Time flows (R405, R481) -/

@[simp] theorem domOf_takeInbox (s : State) (f : Frame) (d : Nat) : domOf (takeInbox s f) d = domOf s d := by
  obtain ⟨_, _, h⟩ := takeInbox_eq s f
  rw [h]
  rfl

@[simp] theorem domainOfFlow_takeInbox (s : State) (f : Frame) (num : Nat) :
    domainOfFlow (takeInbox s f) num = domainOfFlow s num := by
  simp only [domainOfFlow, domOf_takeInbox]

/-- The frame that a time frame arrives in. -/
def timeFrameIn (s : State) (x : BitVec 12) (n : BitVec 16) (g : Byte) (b : List Byte) : Frame :=
  { dst := s.ring.stageAddr, ftype := 4, src := x.toNat, dflow := n.toNat, dgen := g.toNat, payload := b }

section
variable {x : BitVec 12} {n : BitVec 16} {g : Byte} {s : State}

theorem exec_timeFrame_stale (h : flowFor s n.toNat g.toNat = none) (p : Fin 8) (b : List Byte) (k : Nat) :
    exec (.timeFrame x ⟨n, g⟩ p b k) s = .next (countStale (takeInbox s (timeFrameIn s x n g b)) n.toNat) := by
  change execTimeFrame x ⟨n, g⟩ p b k s = _
  simp only [execTimeFrame, flowFor_takeInbox, h, timeFrameIn]

theorem exec_timeFrame_noDomain {f : Flow} (h : flowFor s n.toNat g.toNat = some f)
    (hd : domainOfFlow s f.num = none) (p : Fin 8) (b : List Byte) (k : Nat) :
    exec (.timeFrame x ⟨n, g⟩ p b k) s = .next (takeInbox s (timeFrameIn s x n g b)) := by
  change execTimeFrame x ⟨n, g⟩ p b k s = _
  simp only [execTimeFrame, flowFor_takeInbox, h, domainOfFlow_takeInbox, hd, timeFrameIn]

theorem exec_timeFrame_measured {f : Flow} {d : Nat} (h : flowFor s n.toNat g.toNat = some f)
    (hd : domainOfFlow s f.num = some d) (p : Fin 8) (b : List Byte) (k : Nat) :
    exec (.timeFrame x ⟨n, g⟩ p b k) s = .next (
      let r := stampRx (takeInbox s (timeFrameIn s x n g b)) (2 + p.val) k
      measure r.2 d (signed 96 (mod96 (domTimeAt (domOf s d) r.1 - fld b 0 12 - psToTime (sfld b 12 8)))) 1 128) := by
  change execTimeFrame x ⟨n, g⟩ p b k s = _
  simp only [execTimeFrame, flowFor_takeInbox, h, domainOfFlow_takeInbox, hd, domOf_takeInbox, timeFrameIn]

end

/-- Settles O49: each row by its domain's source and by what it finds of its sender. -/
theorem domainEvents : Obligations.DomainEvents :=
  ⟨fun _ _ _ _ _ hs hm => exec_ptpSync_best hs hm _ _, fun _ _ _ _ _ h => exec_ptpSync_other h _ _,
    fun _ _ _ _ hs => ⟨fun h => exec_ptpDelayResp_early hs h _ _, fun _ _ h => exec_ptpDelayResp_path hs h _ _⟩,
    fun _ _ _ _ hs h => exec_ptpAnnounce_known hs h _, fun _ _ _ _ hs h hf => exec_ptpAnnounce_ignored hs h hf _,
    fun _ _ hs => ⟨if_pos hs, if_pos hs⟩,
    fun _ _ _ _ _ _ _ => ⟨fun h => exec_timeFrame_stale h _ _ _, fun _ h hd => exec_timeFrame_noDomain h hd _ _ _,
      fun _ _ h hd => exec_timeFrame_measured h hd _ _ _⟩,
    fun _ _ hs => if_pos hs⟩

/-! ## Views and cadences (R481, R484, R488, R490) -/

/-- The clients of the device's time flows. -/
def timeClients (s : State) : List Flow := s.ring.flows.filter fun f => f.kind == 3 && f.inbound && f.state == 2

theorem exec_timeFrameSend_alone {s : State} (h : timeClients s = []) : exec .timeFrameSend s = .next s := by
  rw [timeClients] at h
  change execTimeFrameSend s = _
  simp only [execTimeFrameSend, h, List.foldl_nil, List.isEmpty_nil, if_true]

theorem exec_timeFrameSend_clients {l : List Flow} {s : State} (h : timeClients s = l) (hl : l ≠ []) :
    exec .timeFrameSend s = .next { l.foldl (fun u f => sendFrame u {
      dst := f.partner, ftype := 4, src := u.ring.stageAddr, dflow := f.remote, dgen := f.dgen
      payload := leBytes 12 (mod96 (viewTime s s.time.viewS (now s))) ++ List.replicate 8 0 ++
        leBytes 1 (baseCode s.time.viewS.base) ++ leBytes 2 s.time.flowSeq ++ List.replicate 9 0 }) s with
      time.flowSeq := (s.time.flowSeq + 1) % 2 ^ 16 } := by
  rw [timeClients] at h
  change execTimeFrameSend s = _
  have hne : l.isEmpty = false := List.isEmpty_eq_false_iff.mpr hl
  simp only [execTimeFrameSend, h, hne, Bool.false_eq_true, if_false]

/-- With the revert setting a primary locked long enough is the base, whatever S runs on. -/
theorem chooseS_primary {s : State} (hr : s.time.revert = true) (hl : isLocked s s.time.primary = true)
    (ht : (domOf s s.time.primary).lockedAt + revertTicks ≤ now s) : chooseS s = some s.time.primary := by
  simp [chooseS, hr, hl, ht]

theorem followS_switch {s : State} {b d : Nat} (hc : chooseS s = some d) (hb : s.time.viewS.base = some b) (hbd : d ≠ b)
    (force : Bool) : followS s force = switchS s (some d) := by
  simp [followS, hc, hb, hbd]

theorem exec_revertTimer_primary {s : State} (hr : s.time.revert = true) (hl : isLocked s s.time.primary = true)
    (ht : (domOf s s.time.primary).lockedAt + revertTicks ≤ now s) (hb : s.time.viewS.base.isSome = true)
    (hne : s.time.viewS.base ≠ some s.time.primary) :
    exec .revertTimer s = .next (switchS s (some s.time.primary)) := by
  change execRevertTimer s = _
  obtain ⟨b, hbase⟩ := Option.isSome_iff_exists.mp hb
  have hother : s.time.primary ≠ b := fun h => hne (hbase.trans (congrArg some h.symm))
  simp only [execRevertTimer, hb, if_true, followS_switch (chooseS_primary hr hl ht) hbase hother]

section
variable {d : Nat} {s : State} (hw : s.time.stepWait = true) (ht : s.time.stepTo = some d)
include hw ht

theorem exec_viewStep_busy (h : classSBusy s = true) : exec .viewStep s = .next s := by
  change execViewStep s = _
  simp only [execViewStep, hw, ht, h, if_true]

theorem exec_viewStep_locked (h : classSBusy s = false) (hl : isLocked s d = true) (hb : s.time.viewS.base = none) :
    exec .viewStep s = .next (stepS s d) := by
  change execViewStep s = _
  simp [execViewStep, hw, ht, h, hl, hb]

theorem exec_viewStep_unlocked (h : classSBusy s = false) (hl : isLocked s d = false) :
    exec .viewStep s = .next { s with time.stepWait := false, time.stepTo := none } := by
  change execViewStep s = _
  simp [execViewStep, hw, ht, h, hl]

end

section
variable {k : Fin 20} {s : State} (h : (s.time.cadences.getD k {}).phase = 2)
include h

theorem exec_cadenceAligned_done (hl : (s.time.cadences.getD k {}).linesLeft = 0 ∨ k.val = 13) :
    exec (.cadenceAligned k) s = .next (refEvent (updCadence s k fun y => { y with phase := 0, linesLeft := 0 }) k 2
      (s.time.cadences.getD k {}).cause 0) := by
  change execCadenceAligned k s = _
  have hgo : (decide ((s.time.cadences.getD k {}).phase = 2) &&
      (decide ((s.time.cadences.getD k {}).linesLeft = 0) || decide (k.val = 13))) = true := by
    rw [decide_eq_true h, Bool.true_and]
    rcases hl with hl | hl
    · rw [decide_eq_true hl, Bool.true_or]
    · rw [decide_eq_true hl, Bool.or_true]
  simp only [execCadenceAligned, hgo, if_true]

theorem exec_cadenceAligned_moving (hl : (s.time.cadences.getD k {}).linesLeft ≠ 0) (hk : k.val ≠ 13) :
    exec (.cadenceAligned k) s = .next s := by
  change execCadenceAligned k s = _
  have hno : (decide ((s.time.cadences.getD k {}).phase = 2) &&
      (decide ((s.time.cadences.getD k {}).linesLeft = 0) || decide (k.val = 13))) = false := by
    simp only [h, hl, hk, decide_true, decide_false, Bool.or_self, Bool.and_false]
  simp only [execCadenceAligned, hno, Bool.false_eq_true, if_false]

end

/-! ## Sync input (R491) -/

section
variable {f : Fin 5} {n d p k : Nat} {s : State}

/-- What the sync input does not take: it is off, or the frame's format or rate is none of its own. -/
theorem exec_syncInFrame_rejected (h : s.time.syncIn.enable = false ∨ f = 0 ∨ n = 0 ∨ d = 0 ∨
    syncRateOk f n d = false) : exec (.syncInFrame f n d p k) s = .next s := by
  change execSyncInFrame f n d p k s = _
  have hend : (!s.time.syncIn.enable || decide (f.val = 0) || decide (n = 0) || decide (d = 0) ||
      !syncRateOk f.val n d) = true := by
    rcases h with h | h | h | h | h <;> simp [h]
  simp only [execSyncInFrame, hend, if_true]

section
variable (he : s.time.syncIn.enable = true) (hf : f ≠ 0) (hn : n ≠ 0) (hd : d ≠ 0) (hr : syncRateOk f n d = true)
include he hf hn hd hr

theorem syncInFrame_taken : (!s.time.syncIn.enable || decide (f.val = 0) || decide (n = 0) || decide (d = 0) ||
    !syncRateOk f.val n d) = false := by
  have hf0 : f.val ≠ 0 := fun h => hf (Fin.ext h)
  simp [he, hf0, hn, hd, hr]

/-- A frame out of tolerance, of another format or rate than the one held, only breaks the run. -/
theorem exec_syncInFrame_breaks (hp : linePeriodOk f n d p = false) (hx : s.time.syncIn.format ≠ f.val ∨
    s.time.syncIn.candidate ≠ f.val ∨ s.time.syncIn.fpsNum ≠ n ∨ s.time.syncIn.fpsDen ≠ d) :
    exec (.syncInFrame f n d p k) s = .next { (stampRx s 10 k).2 with
      time.syncIn := { s.time.syncIn with frames := 0, periodPs := p } } := by
  change execSyncInFrame f n d p k s = _
  have hother : ¬((decide (s.time.syncIn.format = f.val) && (s.time.syncIn.candidate == f.val &&
      s.time.syncIn.fpsNum == n && s.time.syncIn.fpsDen == d)) = true) := by
    simp only [Bool.and_eq_true, decide_eq_true_eq, beq_iff_eq]
    rintro ⟨h1, ⟨h2, h3⟩, h4⟩
    rcases hx with hx | hx | hx | hx
    · exact hx h1
    · exact hx h2
    · exact hx h3
    · exact hx h4
  simp only [execSyncInFrame, syncInFrame_taken he hf hn hd hr, hp, Bool.false_eq_true, if_false, Bool.not_false,
    if_true, if_neg hother]

section
variable (hc : s.time.syncIn.candidate = f.val) (hfn : s.time.syncIn.fpsNum = n) (hfd : s.time.syncIn.fpsDen = d)
include hc hfn hfd

theorem exec_syncInFrame_heldRough (hp : linePeriodOk f n d p = false) (hx : s.time.syncIn.format = f.val) :
    exec (.syncInFrame f n d p k) s = .next (syncHeld (stampRx s 10 k).1 { (stampRx s 10 k).2 with
      time.syncIn := { s.time.syncIn with frames := 0, periodPs := p } }) := by
  change execSyncInFrame f n d p k s = _
  simp only [execSyncInFrame, syncInFrame_taken he hf hn hd hr, hp, hx, hc, hfn, hfd, Bool.false_eq_true, if_false,
    Bool.not_false, if_true, beq_self_eq_true, Bool.and_self, decide_true]

/-- A good frame of the candidate is counted, under the settings it already has. -/
theorem exec_syncInFrame_counted (hp : linePeriodOk f n d p = true) : exec (.syncInFrame f n d p k) s =
    .next (syncInCounted (stampRx s 10 k).1 (decide (s.time.syncIn.format = f.val)) { (stampRx s 10 k).2 with
      time.syncIn := { s.time.syncIn with frames := s.time.syncIn.frames + 1, periodPs := p } }) := by
  change execSyncInFrame f n d p k s = _
  have hsame : (s.time.syncIn.candidate == f.val && s.time.syncIn.fpsNum == n && s.time.syncIn.fpsDen == d) = true := by
    rw [hc, hfn, hfd]; simp only [beq_self_eq_true, Bool.and_self]
  simp only [execSyncInFrame, syncInFrame_taken he hf hn hd hr, hp, hsame, Bool.false_eq_true, if_false,
    Bool.not_true, Bool.and_false, Bool.and_true, if_true]
  subst hfn hfd
  rw [← hc]
  rfl

end

end

theorem syncInCounted_held (v : Int) (s : State) : syncInCounted v true s = syncHeld v s := by
  simp only [syncInCounted, if_true]

theorem syncInCounted_run (v : Int) {s : State} (h : s.time.syncIn.frames < 8) : syncInCounted v false s = s := by
  simp only [syncInCounted, Bool.false_eq_true, if_false, if_neg (Nat.not_le.mpr h)]

/-- The eighth good frame in a row qualifies the candidate. -/
theorem syncInCounted_eighth (v : Int) {s : State} (h : 8 ≤ s.time.syncIn.frames) : syncInCounted v false s =
    syncMeasure (syncEvent { s with time.syncIn := { s.time.syncIn with
      format := s.time.syncIn.candidate, last := now s, since := 0 } } 1) v := by
  simp only [syncInCounted, Bool.false_eq_true, if_false, if_pos h]

end

/-! ## Time code (R492, R493) -/

theorem exec_ltcFrame_read {s : State} (hr : s.time.ltc.rate ≠ 0) (hg : s.time.ltc.genSrc = 0) (v : BitVec 32) (k : Nat) :
    exec (.ltcFrame v k) s = .next (
      let u := (stampRx s 11 k).2
      let t := { u with time.ltc := { s.time.ltc with readerValid := true, reader := v.toNat, readerAt := now s } }
      if s.time.ltc.readerValid then t else ltcEvent t 0 v.toNat) := by
  change execLtcFrame v k s = _
  simp [execLtcFrame, hr, hg]

theorem exec_ltcFreewheel_valid {s : State} (hr : s.time.ltc.rate ≠ 0) (hv : s.time.ltc.readerValid = true) :
    exec .ltcFreewheel s = .next (ltcEvent { s with
      time.ltc := { s.time.ltc with readerValid := false } } 1 s.time.ltc.generator) := by
  change execLtcFreewheel s = _
  simp [execLtcFreewheel, hr, hv]

theorem exec_ltcGeneratorFrame_counts {s : State} (hr : s.time.ltc.rate ≠ 0) (hg : s.time.ltc.genSrc ≠ 1)
    (hp : s.time.ltc.srcPending = false) (o : Int) : exec (.ltcGeneratorFrame o) s = .next (
      let v := ltcValue s.time.ltc.rate (ltcFrames s.time.ltc.rate s.time.ltc.generator + 1)
      { s with time.ltc := { s.time.ltc with
        generator := v, srcPending := false, sent := if s.time.ltc.outEnable then some v else none } }) := by
  change execLtcGeneratorFrame o s = _
  simp [execLtcGeneratorFrame, hr, hg, hp]

/-- Settles O50: each row by the state it meets. SYNC_OUT aligned at once, and the shorter way round the lines of a
frame, are the model's choices (log entry 220). -/
theorem viewSyncAndTimecodeEvents : Obligations.ViewSyncAndTimecodeEvents := by
  refine ⟨fun _ h => exec_timeFrameSend_alone h, fun _ _ h hl => exec_timeFrameSend_clients h hl,
    fun _ hr hl ht hb hne => exec_revertTimer_primary hr hl ht hb hne,
    fun _ _ hw ht => ⟨exec_viewStep_busy hw ht, exec_viewStep_locked hw ht, exec_viewStep_unlocked hw ht⟩,
    fun _ _ _ h => if_pos h, fun _ _ h => ⟨exec_cadenceAligned_done h, exec_cadenceAligned_moving h⟩,
    fun _ _ _ _ _ _ h => exec_syncInFrame_rejected h,
    fun f n d p k s he hf hn hd hr => ⟨fun hp => ⟨exec_syncInFrame_breaks he hf hn hd hr hp,
      fun hx hc hfn hfd => exec_syncInFrame_heldRough he hf hn hd hr hc hfn hfd hp hx⟩,
      fun hp hc hfn hfd => ⟨fun hx => ?held, fun h0 h7 => ?run, fun h0 h7 => ?eighth⟩⟩,
    fun s => ⟨fun h => congrArg Host.Outcome.next (if_pos h), fun h => congrArg Host.Outcome.next (if_neg h)⟩,
    fun _ _ _ hr hg => exec_ltcFrame_read hr hg _ _, fun _ hr hv => exec_ltcFreewheel_valid hr hv,
    fun _ _ hr hg hp => exec_ltcGeneratorFrame_counts hr hg hp _⟩
  case held =>
    rw [exec_syncInFrame_counted he hf hn hd hr hc hfn hfd hp, decide_eq_true hx, syncInCounted_held]
    rfl
  case run =>
    have hnew : s.time.syncIn.format ≠ f.val := fun h => hf (Fin.ext (h.symm.trans h0))
    rw [exec_syncInFrame_counted he hf hn hd hr hc hfn hfd hp, decide_eq_false hnew]
    exact congrArg Host.Outcome.next (syncInCounted_run _ (Nat.succ_lt_succ h7))
  case eighth =>
    have hnew : s.time.syncIn.format ≠ f.val := fun h => hf (Fin.ext (h.symm.trans h0))
    rw [exec_syncInFrame_counted he hf hn hd hr hc hfn hfd hp, decide_eq_false hnew,
      syncInCounted_eighth _ (Nat.succ_le_succ h7)]
    simp only [hc]
    rfl

end Sys2Proof.Machine
end

section
/-! PROOFS. The memory controller (21_memory_controller.md), the thermal manager and Touchstone
(22_thermal_power_calibration.md) and the spares (25_spares_and_wear.md): what each of their events does. -/

namespace Sys2Proof.Machine

/-! ## Temperature bands and refresh (R509 to R511) -/

section
variable {c : Fin 16} {r : Fin 2} {x : Byte} {b : Fin 3} {s : State} (h : rankExists s c r = true)
include h

theorem exec_mr4Read_same (hb : b.val = (rankOf s c r).band) :
    exec (.mr4Read c r x b) s = .next (updRank s c r fun y => { y with lowerRun := 0 }) := by
  change execMr4Read c r x b s = _
  simp [execMr4Read, h, hb]

section
variable (hb : b.val < (rankOf s c r).band)
include hb

theorem exec_mr4Read_cooler : exec (.mr4Read c r x b) s = .next (
    let k := rankOf s c r
    let run := if k.lowerBand = b.val ∧ 0 < k.lowerRun then k.lowerRun + 1 else 1
    if 4 ≤ run then bandChange s c r k.band b x.toNat
    else updRank s c r fun y => { y with lowerBand := b, lowerRun := run }) := by
  change execMr4Read c r x b s = _
  simp only [execMr4Read, h, Bool.not_true, Bool.false_eq_true, if_false, if_neg (Nat.lt_asymm hb), if_pos hb,
    Bool.and_eq_true, decide_eq_true_eq, apply_ite Host.Outcome.next]

/-- A cooler band is not taken before its fourth reading in a row. -/
theorem exec_mr4Read_coolerEarly (he : (rankOf s c r).lowerBand = b.val → (rankOf s c r).lowerRun < 3) :
    exec (.mr4Read c r x b) s = .next (updRank s c r fun y => { y with
      lowerBand := b
      lowerRun := if (rankOf s c r).lowerBand = b.val ∧ 0 < (rankOf s c r).lowerRun then (rankOf s c r).lowerRun + 1
        else 1 }) := by
  have hrun : ¬4 ≤ (if (rankOf s c r).lowerBand = b.val ∧ 0 < (rankOf s c r).lowerRun then (rankOf s c r).lowerRun + 1
      else 1) := by
    split
    case isTrue hsame => have := he hsame.1; omega
    case isFalse => omega
  rw [exec_mr4Read_cooler h hb]
  simp only [if_neg hrun]

theorem exec_mr4Read_coolerFourth (hl : (rankOf s c r).lowerBand = b.val) (h3 : 3 ≤ (rankOf s c r).lowerRun) :
    exec (.mr4Read c r x b) s = .next (bandChange s c r (rankOf s c r).band b x.toNat) := by
  have hrun : (rankOf s c r).lowerBand = b.val ∧ 0 < (rankOf s c r).lowerRun := ⟨hl, by omega⟩
  rw [exec_mr4Read_cooler h hb]
  simp only [if_pos hrun, if_pos (Nat.succ_le_succ h3)]

end

theorem exec_mr4Read_payback (h0 : (rankOf s c r).band = 0) (hb : 0 < b.val) (ho : 0 < (rankOf s c r).owed) :
    exec (.mr4Read c r x b) s = .next (startPayback (bandChange s c r 0 b x.toNat) c r b) := by
  change execMr4Read c r x b s = _
  simp [execMr4Read, h, h0, hb, ho]

end

theorem exec_refreshDue_owes {c : Fin 16} {r : Fin 2} {s : State} (h : rankExists s c r = true)
    (hp : (rankOf s c r).payback = none) (w : Bool) (k : Fin 18) : exec (.refreshDue c r w k) s =
      .next (updRank s c r fun y => { y with owed := owedAfter y.band w (y.owed + 1) k.val }) := by
  change execRefreshDue c r w k s = _
  simp [execRefreshDue, h, hp]

theorem exec_paybackEnd_counts {c : Fin 16} {r : Fin 2} {o n : Nat} {d : Bool} {s : State}
    (h : (rankOf s c r).payback = some (o, n, d)) (ns : BitVec 32) : exec (.paybackEnd c r ns) s =
      .next (notify (updChannel (updRank s c r fun y => { y with payback := none }) c fun y => { y with
        paybacks := sat32 y.paybacks 1 }) 0x1101 c (leBytes 1 r ++ leBytes 1 o ++ leBytes 1 n ++
          leBytes 1 (boolNat d) ++ leBytes 4 (paybackNs s.fuse o ns.toNat) ++ leBytes 4 7812) 0) := by
  change execPaybackEnd c r ns s = _
  simp only [execPaybackEnd, h]

/-! ## Queues, training and repair (R505, R507, R512, R515 to R518) -/

theorem exec_writeDrain_report {c : Fin 16} {s : State} (h : c.val < dramChannels s.fuse) (r : ChannelReport) :
    exec (.writeDrain c r) s = .next (updChannel s c fun y => { y with
      wqLevel := r.level, rqLevel := r.reads
      wqPeak := max y.wqPeak r.level
      drains := if y.draining = false ∧ 192 ≤ r.level.val then sat32 y.drains 1 else y.drains
      draining := if 192 ≤ r.level.val then true
        else if r.level.val ≤ 64 ∧ drainStalled s.fuse y = false then false else y.draining
      fabricHolds := sat32 y.fabricHolds r.held.toNat
      corrections := sat32 y.corrections r.corrected.toNat
      retries := sat32 y.retries r.retried.toNat }) := by
  change execWriteDrain c r s = _
  simp only [execWriteDrain, if_neg (Nat.not_le.mpr h), Bool.and_eq_true, Bool.not_eq_true', decide_eq_true_eq]

theorem exec_dqOscRead_steps {c : Fin 16} {k : Fin 2} {s : State} (hr : s.pwr.state = .run)
    (h : rankExists s c k = true) (o : DqReading) : exec (.dqOscRead c k o) s = .next (updChannel s c fun y => { y with
      lanes := y.lanes.mapIdx fun l x => { x with steps := x.steps + oneStep (oscDrift y k l x o) } }) := by
  change execDqOscRead c k o s = _
  have hgo : (s.pwr.state != .run || !rankExists s c k) = false := by rw [hr, h]; rfl
  simp only [execDqOscRead, hgo, Bool.false_eq_true, if_false]

theorem exec_scrubReport_queues {c : Fin 16} {r : Fin 2} {s : State} (h : rankExists s c r = true) (b k : Nat)
    (n : BitVec 32) : exec (.scrubReport c r b k n) s = .next (
      let t := updChannel s c fun y => { y with lastScrub := n.toNat }
      if 4 ≤ n.toNat then queueRow t c ⟨r, b, k, n.toNat, false, 0⟩ else t) := by
  change execScrubReport c r b k n s = _
  simp only [execScrubReport, h, Bool.not_true, Bool.false_eq_true, if_false]

section
variable {c : Fin 16} {r : DramRow} {l : List DramRow} {s : State}
  (h : (s.mem.channels.getD c {}).retire = r :: l)
include h

theorem exec_rowRemapDone_full (hf : 256 ≤ (s.mem.channels.getD c {}).remap.length) (f : Bool) :
    exec (.rowRemapDone c f) s = .next (remapEvent (updChannel s c fun y => { y with retire := l }) c r true) := by
  change execRowRemapDone c f s = _
  simp only [execRowRemapDone, h, if_pos hf]

theorem exec_rowRemapDone_free (hf : (s.mem.channels.getD c {}).remap.length < 256) (f : Bool) :
    exec (.rowRemapDone c f) s = .next (spareRecord (remapEvent (countSubst (rowsCheck (updChannel
      { s with spare.flashOk := f } c fun y => { y with
        retire := l, remap := y.remap ++ [{ r with into := freeReserveRow y.remap }], awaitPpr := y.awaitPpr + 1 })) 7)
      c r false) 7 0
      (if r.poisoned then 0 else 2) c (r.rank * 4096 + r.bank % 4096) r.row r.corrections) := by
  change execRowRemapDone c f s = _
  simp only [execRowRemapDone, h, if_neg (Nat.not_le.mpr hf)]

end

/-- A burst poisoned for the first time, of no client that does more. -/
theorem exec_burstPoisoned_new {a : BitVec 36} {r : Fin 2} {s : State} (hd : burstOf a.toNat < dramBytes s.fuse)
    (hr : r.val = dramRankOf s.fuse (burstOf a.toNat)) (hp : s.mem.poison.contains (burstOf a.toNat) = false)
    (b : BitVec 12) (k : BitVec 32) : exec (.burstPoisoned a r b k .none) s = .next (
      let p := burstOf a.toNat
      let c := dramChannelOf s.fuse p
      let u := updChannel { s with
        mem.poison := s.mem.poison ++ [p]
        mem.poisonBanks := (p, b.toNat) :: s.mem.poisonBanks.filter fun x => x.1 != p } c fun y => { y with
          poisoned := sat32 y.poisoned 1 }
      queueRow (notify u 0x1103 c (leBytes 8 p ++ leBytes 1 r ++ [4, 0, 0] ++
        leBytes 4 (u.mem.channels.getD c {}).poisoned) 2) c ⟨r, b.toNat, k.toNat, 0, true, 0⟩) := by
  change execBurstPoisoned a r b k .none s = _
  have hgo : (decide (dramBytes s.fuse ≤ burstOf a.toNat) || r.val != dramRankOf s.fuse (burstOf a.toNat)) = false := by
    rw [decide_eq_false (Nat.not_le.mpr hd), ← hr, bne_self_eq_false]; rfl
  simp only [execBurstPoisoned, hgo, hp, Bool.false_eq_true, if_false, poisonClient]

/-- Settles O53: each row by the state of its rank or channel. -/
theorem memoryEvents : Obligations.MemoryEvents :=
  ⟨fun _ _ _ _ _ h => ⟨exec_mr4Read_same h, exec_mr4Read_coolerEarly h, exec_mr4Read_coolerFourth h,
      exec_mr4Read_payback h⟩,
    fun _ _ _ _ _ h hp => exec_refreshDue_owes h hp _ _, fun _ _ _ _ _ _ _ h => exec_paybackEnd_counts h _,
    fun _ _ _ h => exec_writeDrain_report h _, fun _ _ _ _ hr h => exec_dqOscRead_steps hr h _,
    fun _ _ _ _ _ _ h => exec_scrubReport_queues h _ _ _, fun _ _ _ _ _ h hf => exec_rowRemapDone_full h hf _,
    fun _ _ _ _ _ h hf => exec_rowRemapDone_free h hf _,
    fun _ _ _ _ _ hd hr hp => exec_burstPoisoned_new hd hr hp _ _⟩

/-! ## Temperature sensors (R526 to R529) -/

section
variable {i : Fin 28} {v : BitVec 16} {f : Bool} {s : State}

theorem exec_sensorConversion_working (h : (tempSensor s i).state ≠ .failed) (h' : (tempSensor s i).state ≠ .spareFailed)
    (bias : Bool) : exec (.sensorConversion i v bias f) s = .next (if bias then
      selfTest { s with spare.flashOk := f } i v.toInt else convert { s with spare.flashOk := f } i v.toInt) := by
  change execSensorConversion i v bias f s = _
  cases hst : (tempSensor s i).state with
  | failed => exact absurd hst h
  | spareFailed => exact absurd hst h'
  | _ => simp only [execSensorConversion, hst]

theorem exec_sensorConversion_failed (h : (tempSensor s i).state = .failed) : exec (.sensorConversion i v false f) s =
    .next (updTemp s i fun x => { x with reading := v.toInt, converted := true }) := by
  change execSensorConversion i v false f s = _
  simp only [execSensorConversion, h, Bool.false_eq_true, if_false]

end

section
variable {i : Fin 24} {f : Bool} {s : State} (h : (tempSensor s i).state = .suspect)
include h

theorem exec_suspectTimeout_agrees (hn : 10 ≤ (tempSensor s i).near) (ha : (tempSensor s i).again = false) :
    exec (.suspectTimeout i f) s = .next (
      let t := updTemp s i fun x => restartHistory { x with state := .normal, again := false }
      floorCheck (sensorEvent t i .suspect .normal 4 0xFF (tempSensor s i).reading (tempP t i) (tempQ t i))) := by
  change execSuspectTimeout i f s = _
  simp [execSuspectTimeout, h, hn, ha]

theorem exec_suspectTimeout_fails (hno : (tempSensor s i).near < 10 ∨ (tempSensor s i).again = true) :
    exec (.suspectTimeout i f) s =
      .next (tempFail { s with spare.flashOk := f } i (if (tempSensor s i).again then 0 else 1)) := by
  change execSuspectTimeout i f s = _
  have hstays : (decide (10 ≤ (tempSensor s i).near) && !(tempSensor s i).again) = false := by
    rcases hno with hno | hno
    · rw [decide_eq_false (Nat.not_le.mpr hno), Bool.false_and]
    · rw [hno, Bool.not_true, Bool.and_false]
  have hsus : ((tempSensor s i).state != .suspect) = false := by rw [h]; rfl
  simp only [execSuspectTimeout, hsus, hstays, Bool.false_eq_true, if_false]

end

theorem exec_riseEvaluation_stands {s : State} (h : s.therm.riseSignal = true) :
    exec .riseEvaluation s = .next { s with therm.sensors := s.therm.sensors.map riseStep } := by
  change execRiseEvaluation s = _
  simp only [execRiseEvaluation, h, Bool.true_or]

/-! ## Touchstone (R538 to R540) -/

theorem exec_calInterval_idle {c : Fin 6} {s : State} (h : (calClass s c).running = false) :
    exec (.calInterval c) s = .next (
      let t := updClass { s with therm.agree := s.therm.nextAgree } c fun x =>
        if x.nextEnabled then { x with enabled := true, interval := x.nextInterval }
        else { x with
          enabled := false, interval := x.nextInterval, running := false
          targets := x.targets.map fun z => { z with next := none } }
      if (calClass t c).enabled then startPass t c else t) := by
  change execCalInterval c s = _
  simp only [execCalInterval, h, Bool.false_eq_true, if_false]

/-- The codes of a target's tries, by its bits. -/
def triedCodes (c k : Nat) (l : List (BitVec 10 × BitVec 10)) : List (Nat × Nat) :=
  l.map fun q => (q.1.toNat % 2 ^ calBits c k, q.2.toNat % 2 ^ calBits c k)

theorem exec_calMeasure_agrees {c : Fin 6} {k : Fin 54} {l : List (BitVec 10 × BitVec 10)} {p : Nat × Nat} {s : State}
    (hr : (calClass s c).running = true) (hd : ((calClass s c).targets.getD k {}).done = false)
    (hn : ((calClass s c).targets.getD k {}).next = none) (hk : k.val < calTargets s.fuse c)
    (ha : agreeing s.therm.agree (triedCodes c k l) = some p) : exec (.calMeasure c k l) s = .next (
      let x := (calClass s c).targets.getD k.val {}
      let v := agreedCode x.code p
      let u := updClass s c fun y => { y with measured := y.measured + 1 }
      if v = x.code then passCheck (updTarget u c k fun y => { y with waits := 0, done := true }) c
      else updTarget u c k fun y => { y with waits := 0, next := some v }) := by
  rw [triedCodes] at ha
  change execCalMeasure c k l s = _
  have hgo : (!(calClass s c).running || ((calClass s c).targets.getD k {}).done ||
      ((calClass s c).targets.getD k {}).next.isSome || decide (calTargets s.fuse c ≤ k.val)) = false := by
    rw [hr, hd, hn, decide_eq_false (Nat.not_le.mpr hk)]; rfl
  simp only [execCalMeasure, hgo, ha, Bool.false_eq_true, if_false, apply_ite Host.Outcome.next]

/-- A correction is applied in its target's gap; no temperature sensor starts its history anew. -/
theorem exec_calGapApply_applies {c : Fin 6} {k : Fin 54} {v : Nat} {s : State}
    (hn : ((calClass s c).targets.getD k {}).next = some v) (hc : c.val ≠ 5) (hg : calGap s c k = true) :
    exec (.calGapApply c k) s = .next (
      let x := ((calClass s c).targets.getD k.val {}).code
      passCheck (updClass (updTarget s c k fun y => { y with
        code := v, next := none, waits := 0, done := true }) c fun y => { y with
        applied := sat32 y.applied 1, corrections := y.corrections + 1
        largest := max y.largest (min ((v - x) + (x - v)) 255) }) c) := by
  change execCalGapApply c k s = _
  simp only [execCalGapApply, hn, hg, Bool.not_true, Bool.false_eq_true, if_false, if_neg hc]

section
variable {v : BitVec 32} {s : State}

theorem exec_rcalCheck_good (hf : s.therm.rcalFault = false) (hlo : 19600 ≤ v.toNat) (hhi : v.toNat ≤ 20400) :
    exec (.rcalCheck v) s = .next { s with therm.rcal := v.toNat } := by
  change execRcalCheck v s = _
  simp [execRcalCheck, hf, hlo, hhi]

theorem exec_rcalCheck_faults (hf : s.therm.rcalFault = false) (hout : v.toNat < 19600 ∨ 20400 < v.toNat) :
    exec (.rcalCheck v) s = .next (rcalEvent { s with
      therm.rcal := v.toNat, therm.rcalFault := true, therm.rcalGood := 0
      therm.classes := s.therm.classes.map fun x => { x with
        running := false, targets := x.targets.map fun t => { t with next := none } } } false) := by
  change execRcalCheck v s = _
  have hbad : (decide (19600 ≤ v.toNat) && decide (v.toNat ≤ 20400)) = false := by
    rw [Bool.and_eq_false_iff, decide_eq_false_iff_not, decide_eq_false_iff_not]
    omega
  simp only [execRcalCheck, hf, hbad, Bool.false_eq_true, if_false]

theorem exec_rcalCheck_clears (hf : s.therm.rcalFault = true) (hg : 1 ≤ s.therm.rcalGood) (hlo : 19600 ≤ v.toNat)
    (hhi : v.toNat ≤ 20400) : exec (.rcalCheck v) s =
      .next (rcalEvent { s with therm.rcal := v.toNat, therm.rcalGood := 0, therm.rcalFault := false } true) := by
  change execRcalCheck v s = _
  simp [execRcalCheck, hf, hg, hlo, hhi]

end

/-- Settles O54: each row by the state of its sensor, class or target. -/
theorem thermalAndCalibrationEvents : Obligations.ThermalAndCalibrationEvents := by
  refine ⟨fun _ _ _ _ h h' => ⟨exec_sensorConversion_working h h' false, exec_sensorConversion_working h h' true⟩,
    fun _ _ _ _ h => exec_sensorConversion_failed h,
    fun _ _ _ h => ⟨exec_suspectTimeout_agrees h, fun hn ha => ?apart, fun ha => ?again⟩,
    fun _ h => exec_riseEvaluation_stands h, fun _ _ => ⟨_, rfl, rfl, rfl⟩, fun _ _ h => exec_calInterval_idle h,
    fun _ _ _ _ _ hr hd hn hk ha => exec_calMeasure_agrees hr hd hn hk ha,
    fun _ _ _ _ hn hc hg => exec_calGapApply_applies hn hc hg,
    fun _ _ hf hlo hhi => exec_rcalCheck_good hf hlo hhi,
    fun _ _ hf hout => ⟨_, exec_rcalCheck_faults hf hout, rfl, rfl, ?stopped⟩,
    fun _ _ hf hg hlo hhi => exec_rcalCheck_clears hf hg hlo hhi⟩
  case apart => rw [exec_suspectTimeout_fails h (.inl hn), ha]; rfl
  case again => rw [exec_suspectTimeout_fails h (.inr ha), ha]; rfl
  case stopped =>
    intro x hx
    obtain ⟨y, -, rfl⟩ := List.mem_map.mp hx
    rfl

/-! ## Banks and self-tests (R588, R590, R598) -/

section
variable {a : Fin 15} {u : Fin 16} {b : Fin 1024} {s : State} (he : bankExists s.fuse ⟨a, u, b⟩ = true)
  (hg : bankGone s ⟨a, u, b⟩ = false)
include he hg

theorem exec_bankFault_mapped (l : List (Fin 1600 × Fin 2560 × Fin 2561)) (f : Bool) :
    exec (.bankFault a u b l f) s = .next (
      let lost := l.map fun x => (x.1.val, x.2.1.val, x.2.2.val)
      if 0 < sparesLeft s.spare.retired a u then bankRecover { s with spare.flashOk := f } ⟨a, u, b⟩ lost
      else bankOverdraw { s with spare.flashOk := f } ⟨a, u, b⟩ 0 0 lost) := by
  change execBankFault a u b l f s = _
  simp only [execBankFault, he, hg, Bool.not_true, Bool.or_self, Bool.false_eq_true, if_false,
    apply_ite Host.Outcome.next]

theorem exec_bankWear_mapped (n : BitVec 32) (f : Bool) : exec (.bankWear a u b n f) s = .next (
    if n.toNat < 16 then s
    else if 0 < sparesLeft s.spare.retired a u then bankRecord ⟨a, u, b⟩ 2 n.toNat { s with spare.flashOk := f }
    else bankOverdraw { s with spare.flashOk := f } ⟨a, u, b⟩ 2 n.toNat []) := by
  change execBankWear a u b n f s = _
  simp only [execBankWear, he, hg, Bool.not_true, Bool.false_or, decide_eq_true_eq, apply_ite Host.Outcome.next]

end

theorem exec_selfTestDone_running {c : Fin 8} {k : Fin 64} {t : Nat × Nat × Bool} {s : State}
    (h : (s.spare.testing.find? fun t => t.1 == c.val && t.2.1 == k.val) = some t) (p f : Bool) :
    exec (.selfTestDone c k p f) s = .next (
      let u := { s with spare.testing := s.spare.testing.erase t, spare.flashOk := f }
      if p then unitReturned u t.1 t.2.1 (if t.2.2 then 7 else 8)
      else if t.2.2 then spareRecord u t.1 0 8 t.2.1 0 0 0 else u) := by
  change execSelfTestDone c k p f s = _
  simp only [execSelfTestDone, h, apply_ite Host.Outcome.next]

/-- Settles O55: a bank by the spares its unit has, a self-test by how it ends. -/
theorem spareEvents : Obligations.SpareEvents :=
  ⟨fun _ _ _ _ _ _ he hg => exec_bankFault_mapped he hg _ _, fun _ _ _ _ _ _ he hg => exec_bankWear_mapped he hg _ _,
    fun _ _ _ _ _ _ h => exec_selfTestDone_running h _ _⟩

end Sys2Proof.Machine
end

section
/-! PROOFS. The commands of chapters 22 to 25, and Bedrock (23_bedrock_partition.md): rails and sensor supplies, thermal
trip, lockstep, heartbeats, the watchdog and the Flint gate. -/

namespace Sys2Proof.Machine

/-! ## PWR_STATE (R571, R574) -/

section
variable {n : Nat} {b : Body} {s : State}

theorem pwrStateCard_effect_run (h : fld b 0 1 = 0) : pwrStateCard.effect n b s =
    ({ s with pwr.move := some { entering := false, target := .run, cause := 0 } }, .now [0, 0, 0, 0]) := if_pos h

theorem pwrStateCard_effect_rest (h : fld b 0 1 ≠ 0) : pwrStateCard.effect n b s =
    (let hib := fld b 0 1 = 2
    let t := if hib then (List.range 8).foldl restBreak s else s
    ({ t with pwr := { t.pwr with
        move := some { entering := true, target := if hib then .hibernate else .standby }
        wakePending := none, wakeGpio := fld b 1 1, wakeFalling := fld b 2 1 == 1, tWake := fld b 4 8 } },
      .now (leBytes 2 (if hib then maskOf (hibSensors t) else 0) ++
        leBytes 2 (if hib then maskOf (hibMaps t) else 0)))) := if_neg h

end

/-- Settles O26: each row is run under its card, whose effect is the one stated; PWR_STATE by its direction. That
FW_STAGE empties the inactive slot as the staging begins is the model's choice (log entry 163). -/
theorem managementCommands : Obligations.ManagementCommands := by
  refine ⟨?thermConfig, ?thermStatus, ?calConfig, ?calRun, ?calStatus, ?brStatus, ?brPolicy, ?unitReset, ?fwStage,
    ?fwActivate, ?fwStatus, ?spareStatus, ?spareLedger, ?spareReturn,
    fun n s h h0 => exec_of_effect rfl h (pwrStateCard_effect_run h0),
    fun n s h h0 => exec_of_effect rfl h (pwrStateCard_effect_rest h0)⟩
  case fwActivate => exact fun n => begins_of_effect (fun _ => rfl) fun _ _ => rfl
  all_goals exact fun n => yields_of_effect (fun _ => rfl) fun _ _ => rfl

/-! ## Rails (R551, R552) -/

section
variable {k : Fin 8} {mv : BitVec 16} {s : State} (hp : s.pwr.powered = true)
include hp

theorem exec_railUndervoltage_low (hlow : mv.toNat < railLow k.val) (hk : k.val < 6) (ha : monitorsArmed s = true)
    (hwas : (s.br.rails.getD k.val {}).low = false) (hh : s.br.hold = none) (hs : heldAtStart s = false) :
    exec (.railUndervoltage k mv) s = .next
      (plossStart (bedrockLeaf (setRail s k mv.toNat) 0 k true mv.toNat 0) false k mv.toNat) := by
  change execRailUndervoltage k mv s = _
  have hgo : (!s.pwr.powered || decide (railLow k.val ≤ mv.toNat)) = false := by
    rw [hp, decide_eq_false (Nat.not_le.mpr hlow)]; rfl
  have hfree : (bedrockLeaf (setRail s k mv.toNat) 0 k true mv.toNat 0).br.hold = none :=
    (bedrockLeaf_hold _ _ _ _ _ _).trans hh
  simp only [execRailUndervoltage, hgo, Bool.false_eq_true, if_false, if_neg (Nat.not_le.mpr hk), ha, hwas, hfree, hs,
    Bool.not_true, Bool.or_self, Option.isSome_none]

/-- An always-on rail takes the device off. -/
theorem exec_railUndervoltage_alwaysOn (hlow : mv.toNat < railLow k.val) (hk : 6 ≤ k.val) :
    exec (.railUndervoltage k mv) s = .next { coldReset s with pwr := { (coldReset s).pwr with powered := false } } := by
  change execRailUndervoltage k mv s = _
  have hgo : (!s.pwr.powered || decide (railLow k.val ≤ mv.toNat)) = false := by
    rw [hp, decide_eq_false (Nat.not_le.mpr hlow)]; rfl
  simp only [execRailUndervoltage, hgo, Bool.false_eq_true, if_false, if_pos hk]

theorem exec_railOvervoltage_high (hhigh : railHigh k.val < mv.toNat) (ha : monitorsArmed s = true)
    (hwas : (s.br.rails.getD k.val {}).high = false) (hh : s.br.hold = none) :
    exec (.railOvervoltage k mv) s = .next (fullReset (some .overVoltage)
      (setStop (bedrockLeaf (setRail s k mv.toNat) 0 k true mv.toNat 0) 4)) := by
  change execRailOvervoltage k mv s = _
  have hgo : (!s.pwr.powered || decide (mv.toNat ≤ railHigh k.val)) = false := by
    rw [hp, decide_eq_false (Nat.not_le.mpr hhigh)]; rfl
  simp only [execRailOvervoltage, hgo, Bool.false_eq_true, if_false, ha, hwas, hh, Bool.not_true,
    reduceCtorEq]

theorem exec_railInWindow_back (hlo : railLow k.val ≤ mv.toNat) (hhi : mv.toNat ≤ railHigh k.val)
    (hb : s.pwr.booting = none) (ha : monitorsArmed s = true) (hwas : railOk s k = false) :
    exec (.railInWindow k mv) s = .next (bedrockLeaf (setRail s k mv.toNat) 0 k false mv.toNat 0) := by
  change execRailInWindow k mv s = _
  have hgo : (!s.pwr.powered || (railReading k.val mv.toNat).low || (railReading k.val mv.toNat).high) = false := by
    simp [railReading, hp, hlo, hhi]
  have hidle : (bedrockLeaf (setRail s k mv.toNat) 0 k false mv.toNat 0).pwr.booting = none := by
    rw [bedrockLeaf_pwr]; exact hb
  simp only [execRailInWindow, hgo, Bool.false_eq_true, if_false, ha, hwas, Bool.not_false, Bool.and_self, if_true,
    tryStart_idle hidle]

end

/-! ## Sensor supplies (R553, R554) -/

/-- Power good falls on a sensor that asks for nothing: its power is removed. -/
theorem exec_spwrPgFall_removes {x : Fin 4} {s : State} (hu : (sensPolicy s x).pgUse = true) (ho : spwrOn s x = true)
    (hq : spwrSeq s x ≠ .waitPg) (hr : (sensorOf (removeNoted s x) x).powerReq = none) :
    exec (.spwrPgFall x) s = .next { removeNoted s x with
      br.spwrOffAt := (removeNoted s x).br.spwrOffAt.set x (some ((s.time.c.toNat : Int), true)) } := by
  change execSpwrPgFall x s = _
  have hnot : (spwrSeq s x == .waitPg) = false := beq_eq_false_iff_ne.mpr hq
  have hreq : (sensorOf { removeNoted s x with
      br.spwrOffAt := (removeNoted s x).br.spwrOffAt.set x (some ((s.time.c.toNat : Int), true)) } x).powerReq = none := hr
  simp only [execSpwrPgFall, hu, ho, hnot, Bool.true_or, Bool.not_true, Bool.or_self, Bool.false_eq_true, if_false, hreq]

/-- Settles O34: each row by the level it reports, or by where its sensor's sequence stands. -/
theorem railAndSensorSupplyEvents : Obligations.RailAndSensorSupplyEvents :=
  ⟨fun _ _ _ hp hl hk ha hw hh hs => exec_railUndervoltage_low hp hl hk ha hw hh hs,
    fun _ _ _ hp hl hk => exec_railUndervoltage_alwaysOn hp hl hk,
    fun _ _ _ hp hl ha hw hh => exec_railOvervoltage_high hp hl ha hw hh,
    fun _ _ _ hp hlo hhi hb ha hw => exec_railInWindow_back hp hlo hhi hb ha hw,
    fun _ _ h => ⟨congrArg Host.Outcome.next (if_pos h), congrArg Host.Outcome.next (if_pos h)⟩,
    fun _ _ h => congrArg Host.Outcome.next (if_pos h), fun _ _ h => congrArg Host.Outcome.next (if_pos h),
    fun _ _ hu ho hq hr => exec_spwrPgFall_removes hu ho hq hr⟩

/-! ## Thermal trip and lockstep (R559, R561) -/

section
variable {s : State}

theorem exec_thermalTrip_running (hh : s.br.hold = none) (ha : monitorsArmed s = true)
    (hd : (plossStart s true 0xFF 0).br.drained = false) :
    exec .thermalTrip s = .next (plossStart s true 0xFF 0) := by
  change execThermalTrip s = _
  simp only [execThermalTrip, ha, hh, hd, Bool.not_true, Option.isSome_none, Bool.false_eq_true, if_false]

theorem exec_thermalTrip_held (hh : s.br.hold.isSome = true) (ha : monitorsArmed s = true) :
    exec .thermalTrip s = .next (setStop s 3) := by
  change execThermalTrip s = _
  simp only [execThermalTrip, ha, hh, Bool.not_true, Bool.false_eq_true, if_false, if_true]

theorem exec_lockstepFault_first (hp : s.pwr.powered = true) (hh : s.br.hold ≠ some .lockstep) (hl : s.br.lsAt = none) :
    exec .lockstepFault s = .next { s with br := { s.br with
      lsRestart := true, lsAt := some (s.time.c.toNat : Int), lsInBoot := fullBoot s } } := by
  change execLockstepFault s = _
  simp [execLockstepFault, hp, hh, hl]

theorem exec_lockstepFault_again {c : Int} (hp : s.pwr.powered = true) (hh : s.br.hold ≠ some .lockstep)
    (hl : s.br.lsAt = some c) (hc : (s.time.c.toNat : Int) - c < 1228800000) :
    exec .lockstepFault s = .next (fullReset (some .lockstep) (setStop { s with br.lsRestart := false } 5)) := by
  change execLockstepFault s = _
  simp [execLockstepFault, hp, hh, hl, hc]

theorem exec_lockstepRestartDone_counts (h : s.br.lsRestart = true) (hheld : s.br.held = []) :
    exec .lockstepRestartDone s = .next ((List.range 4).foldl restartSeq (bedrockLeaf { s with br := { s.br with
      lsRestart := false, held := [], lockstep := sat32 s.br.lockstep 1 } } 6 0xFF true 0
      (sat32 s.br.lockstep 1))) := by
  change execLockstepRestartDone s = _
  simp only [execLockstepRestartDone, h, hheld, Bool.not_true, Bool.false_eq_true, if_false, List.foldl_nil]

/-! ## Heartbeats and the watchdog (R555, R556, R562) -/

theorem exec_coreHeartbeatMiss_fails {c : Fin 5} (hp : s.pwr.powered = true) (hh : s.br.hold = none)
    (hl : s.br.lsRestart = false) (hc : (coreLogical s c).isSome = true) (f : Bool) :
    exec (.coreHeartbeatMiss c f) s = .next (coreFailFor id { s with spare.flashOk := f } c 1) := by
  change execCoreHeartbeatMiss c f s = _
  have hat : (coreLogical s c).isNone = false := by rw [Option.isNone_eq_false_iff]; exact hc
  simp only [execCoreHeartbeatMiss, hp, hh, hl, hat, Option.isSome_none, Bool.not_true, Bool.or_self,
    Bool.false_eq_true, if_false]

theorem exec_watchdogReset_acts (hp : s.pwr.powered = true) (hl : s.br.lsRestart = false) :
    exec .watchdogReset s = .next (Sys2Proof.Machine.watchdogReset s) := by
  change execWatchdogReset s = _
  simp only [execWatchdogReset, hp, hl, Bool.not_true, Bool.or_self, Bool.false_eq_true, if_false]

section
variable (hf : s.pwr.failed = false) (hh : s.br.hold = none)
include hf hh

theorem watchdogReset_deferred (hq : s.br.ploss = true) :
    Sys2Proof.Machine.watchdogReset s = { s with br.wdDeferred := true } := by
  simp only [Sys2Proof.Machine.watchdogReset, hf, hh, hq, Option.isSome_none, Bool.or_self, Bool.false_eq_true,
    if_false, if_true]

/-- Outside a full boot the watchdog resets the device. -/
theorem watchdogReset_soft (hq : s.br.ploss = false) (hc : s.pwr.booting ≠ some .cold)
    (hn : s.pwr.booting ≠ some .resetN) : Sys2Proof.Machine.watchdogReset s =
      softReset .watchdog (setStop { s with br.wdResets := sat32 s.br.wdResets 1 } 1) := by
  simp only [Sys2Proof.Machine.watchdogReset, hf, hh, hq, Option.isSome_none, Bool.or_self, Bool.false_eq_true,
    if_false]

/-- A full boot past step 3 notes the watchdog's reset and goes on. -/
theorem watchdogReset_inBoot (hq : s.br.ploss = false) (hb : s.pwr.booting = some .resetN)
    (hm : mayBoot s .resetN = true) : Sys2Proof.Machine.watchdogReset s =
      (let u := setStop { s with br.wdResets := sat32 s.br.wdResets 1 } 1
      { u with pwr.wdInBoot := true }) := by
  simp only [Sys2Proof.Machine.watchdogReset, hf, hh, hq, hb, hm, Option.isSome_none, Bool.or_self,
    Bool.false_eq_true, if_false, if_true]

end

/-! ## Flint's gate (R560) -/

theorem exec_testEnFall_open (h : s.br.flintGate = true) : exec .testEnFall s = .next (flintDisarm (bedrockLeaf
    { s with br := { s.br with testEn := false, flintGate := false } } 9 0xFF false 0 0)) := by
  change execTestEnFall s = _
  simp only [execTestEnFall, closeFlint, h, if_true]

theorem openFlint_opens (ht : s.br.testEn = true) (ha : flintAllowed s = true) (hg : s.br.flintGate = false) :
    openFlint s = bedrockLeaf { s with br.flintGate := true } 9 0xFF true 0 0 := by
  simp only [openFlint, ht, ha, hg, Bool.not_false, Bool.and_self, if_true]

theorem exec_flintGateOpen_allowed (hb : s.pwr.booting = none) (hh : s.br.hold = none) (hg : s.br.flintGate = false)
    (ha : flintAllowed s = true) : exec .flintGateOpen s = .next (bedrockLeaf
      { s with br := { s.br with testEn := true, flintGate := true } } 9 0xFF true 0 0) := by
  change execFlintGateOpen s = _
  simp only [execFlintGateOpen, hb, hh, Option.isSome_none, Bool.or_self, Bool.false_eq_true, if_false]
  exact congrArg Host.Outcome.next (openFlint_opens rfl ha hg)

end

/-- Settles O36: each row by the hold, the response and the boot it meets. That the watchdog is noted in a full boot, and
that a trip in a hold only records its cause, are the model's choices (log entries 144 and 232). -/
theorem bedrockFaults : Obligations.BedrockFaults := by
  refine ⟨fun _ hh ha hd => exec_thermalTrip_running hh ha hd, fun _ hh ha => exec_thermalTrip_held hh ha,
    fun _ hp hh hl => exec_lockstepFault_first hp hh hl, fun _ _ hp hh hl hc => exec_lockstepFault_again hp hh hl hc,
    fun _ h hheld => exec_lockstepRestartDone_counts h hheld,
    fun _ _ _ hp hh hl hc => exec_coreHeartbeatMiss_fails hp hh hl hc _, fun _ hp hl => exec_watchdogReset_acts hp hl,
    fun s hp hl hf hh hc hn => ⟨fun hq => ?soft, fun hq => ?deferred⟩, fun s hp hl hf hh hq hb hm => ?inBoot,
    fun _ h => exec_testEnFall_open h, fun _ hb hh hg ha => exec_flintGateOpen_allowed hb hh hg ha⟩
  case soft => rw [exec_watchdogReset_acts hp hl, watchdogReset_soft hf hh hq hc hn]
  case deferred => rw [exec_watchdogReset_acts hp hl, watchdogReset_deferred hf hh hq]
  case inBoot => rw [exec_watchdogReset_acts hp hl, watchdogReset_inBoot hf hh hq hb hm]

end Sys2Proof.Machine
end

section
/-! PROOFS. Resets, boot and power states (24_resets_boot_power_states.md) and the pins (26_pins_and_electrical.md): cold
power-on, the end of a boot, RESET_N, pin edges, waking, and the events of power states and firmware. -/

namespace Sys2Proof.Machine

/-! ## Cold power-on (R32, R566, R579) -/

/-- A powered device with the levels of its reset pin, PLOSS_N and references, its mailboxes not ready. -/
structure ShowsPins (r a l p : Bool) (t : State) : Prop where
  powered : t.pwr.powered = true
  resetNLow : t.pwr.resetNLow = l
  plossLow : t.br.plossLow = p
  refclkOk : t.clk.refclkOk = r
  altOk : t.clk.altOk = a
  notReady : t.mbx.ready = false

section
variable {r a l p : Bool} {t : State}

theorem ShowsPins.readPolicy (h : ShowsPins r a l p t) : ShowsPins r a l p (readPolicy t) := by
  obtain ⟨hw, hl, hp, hr, ha, hm⟩ := h
  unfold Sys2Proof.Machine.readPolicy
  split
  · exact ⟨hw, hl, hp, hr, ha, hm⟩
  · exact ⟨by rw [bedrockLeaf_pwr]; exact hw, by rw [bedrockLeaf_pwr]; exact hl, by rw [bedrockLeaf_plossLow]; exact hp,
      by rw [bedrockLeaf_clk]; exact hr, by rw [bedrockLeaf_clk]; exact ha, by rw [bedrockLeaf_mbx]; exact hm⟩

theorem ShowsPins.setStop (h : ShowsPins r a l p t) (cause : Nat) : ShowsPins r a l p (setStop t cause) := by
  obtain ⟨hw, hl, hp, hr, ha, hm⟩ := h
  unfold Sys2Proof.Machine.setStop
  split
  · exact ⟨hw, hl, hp, hr, ha, hm⟩
  · exact ⟨hw, hl, hp, hr, ha, hm⟩

theorem ShowsPins.fullReset (h : ShowsPins r a l p t) (hold : Option FaultHold) :
    ShowsPins r a l p (fullReset hold t) :=
  ⟨h.powered, h.resetNLow, h.plossLow, h.refclkOk, h.altOk, fullReset_ready hold t⟩

/-- Step 3 reads the policy, and at most starts a reset into a hold: the pins show what they did. -/
theorem ShowsPins.tryStart (h : ShowsPins r a l p t) : ShowsPins r a l p (tryStart t) := by
  have hread : ShowsPins r a l p (Sys2Proof.Machine.readPolicy { t with pwr.phase := 3 }) :=
    ShowsPins.readPolicy ⟨h.powered, h.resetNLow, h.plossLow, h.refclkOk, h.altOk, h.notReady⟩
  unfold Sys2Proof.Machine.tryStart
  split
  · dsimp only
    split
    · refine ShowsPins.fullReset (ShowsPins.setStop ?_ 4) _
      exact ⟨hread.powered, hread.resetNLow, hread.plossLow, hread.refclkOk, hread.altOk, hread.notReady⟩
    · exact hread
  · exact h

end

/-- A rail whose reading lies in its window is neither low nor high. -/
theorem railReading_inWindow {k mv : Nat} (h : railLow k ≤ mv ∧ mv ≤ railHigh k) :
    (railReading k mv).low = false ∧ (railReading k mv).high = false :=
  ⟨decide_eq_false (Nat.not_lt.mpr h.1), decide_eq_false (Nat.not_lt.mpr h.2)⟩

theorem exec_coldPowerOn_shows {r a l p : Bool} {mv : List (BitVec 16)} {s : State} (hs : s.pwr.powered = false)
    (h6 : railLow 6 ≤ (mv.getD 6 0).toNat ∧ (mv.getD 6 0).toNat ≤ railHigh 6)
    (h7 : railLow 7 ≤ (mv.getD 7 0).toNat ∧ (mv.getD 7 0).toNat ≤ railHigh 7) :
    ∃ t, exec (.coldPowerOn r a l p mv) s = .next t ∧ ShowsPins r a l p t := by
  change ∃ t, execColdPowerOn r a l p mv s = .next t ∧ _
  have hgo (k : Nat) (hk : k < 8) : (((List.range 8).map fun k => railReading k (mv.getD k 0).toNat).getD k {}) =
      railReading k (mv.getD k 0).toNat := by
    simp [List.getD_eq_getElem?_getD, hk]
  simp only [execColdPowerOn, hs, hgo 6 (by decide), hgo 7 (by decide), railReading_inWindow h6, railReading_inWindow h7,
    beq_self_eq_true, Bool.and_self, Bool.not_true, Bool.or_self, Bool.false_eq_true, if_false]
  refine ⟨_, rfl, ?_⟩
  split
  · exact ShowsPins.tryStart ⟨rfl, rfl, rfl, rfl, rfl, rfl⟩
  · exact ⟨rfl, rfl, rfl, rfl, rfl, rfl⟩

/-! ## The end of a boot (R566, R568, R579, R581) -/

section
variable {r : BootReport} {k : ResetKind} {s : State} (hb : s.pwr.booting = some k) (hm : mayBoot s k = true)
include hb hm

theorem exec_bootReady_stops {phase cause channel lane : Nat}
    (h : bootStop s k.full r = some (phase, cause, channel, lane)) :
    exec (.bootReady r) s = .next (bootFail s phase cause channel lane) := by
  change execBootReady r s = _
  simp only [execBootReady, hb, hm, h, Bool.not_true, Bool.false_eq_true, if_false]

theorem exec_bootReady_ends {slot : Nat} (h : bootStop s k.full r = none) (hs : bootSlotOf s.pwr = some slot) :
    exec (.bootReady r) s = .next (let u := { s with pwr := readRecord s.pwr }
      bootDone (if k.full then bootFull u r else u) k slot r.lacks r.ms.toNat) := by
  change execBootReady r s = _
  simp only [execBootReady, hb, hm, h, hs, Bool.not_true, Bool.false_eq_true, if_false]

theorem exec_bootReady_noSlot (h : bootStop s k.full r = none) (hs : bootSlotOf s.pwr = none) :
    exec (.bootReady r) s = .next (bootFail s 7 1 0 0) := by
  change execBootReady r s = _
  simp only [execBootReady, hb, hm, h, hs, Bool.not_true, Bool.false_eq_true, if_false]

end

/-- Without training, a boot stops where its report says. -/
theorem bootStop_told {r : BootReport} {f : BootFailure} (h : r.fail = some f) (s : State) :
    bootStop s false r = some (f.phase.val, f.cause.val, f.channel.val, f.byteLane.val) := by
  simp only [bootStop, h, Bool.false_eq_true, if_false, Option.map_some]

/-! ## RESET_N (R552, R559, R566, R567) -/

section
variable {held : Bool} {s : State} (hl : s.pwr.resetNLow = false) (hp : s.pwr.powered = true)
include hl hp

theorem exec_resetN_running (hh : s.br.hold = none) (hb : s.pwr.booting = none) :
    exec (.resetN held) s = .next (fullReset none { s with pwr.resetNLow := true }) := by
  change execResetN held s = _
  simp [execResetN, hl, hp, hh, hb]

theorem exec_resetN_overVoltage (hh : s.br.hold = some .overVoltage) (hok : ∀ k, k < 8 → railOk s k = true) :
    exec (.resetN true) s = .next (fullReset none { s with pwr.resetNLow := true }) := by
  have hall : (List.range 8).all (railOk s) = true := List.all_eq_true.mpr fun k hk => hok k (List.mem_range.mp hk)
  change execResetN true s = _
  simp only [execResetN, hl, hp, hh, hall, Bool.not_true, Bool.and_self, Bool.false_eq_true, if_false, if_true]

theorem exec_resetN_trip (hh : s.br.hold = some .trip) :
    exec (.resetN true) s = .next (fullReset none { s with pwr.resetNLow := true }) := by
  change execResetN true s = _
  simp only [execResetN, hl, hp, hh, Bool.not_true, Bool.false_eq_true, if_false, if_true]

/-- A hold whose condition is not met only notes the level. -/
theorem exec_resetN_held {h : FaultHold} (hh : s.br.hold = some h) :
    exec (.resetN false) s = .next { s with pwr.resetNLow := true } := by
  change execResetN false s = _
  cases h with
  | _ => simp only [execResetN, hl, hp, hh, Bool.not_true, Bool.false_and, Bool.false_eq_true, if_false]

end

/-- Settles O32: cold power-on by the pins it shows, a boot by where it stops, RESET_N by the hold it meets. -/
theorem bootAndResetPins : Obligations.BootAndResetPins := by
  refine ⟨fun r a l p mv s hs hr => ?cold, fun _ _ _ hb hm => ⟨fun _ _ _ _ h => exec_bootReady_stops hb hm h,
      fun _ h hs => exec_bootReady_ends hb hm h hs, exec_bootReady_noSlot hb hm⟩,
    fun _ _ s h => bootStop_told h s, fun _ _ hl hp hh hb => exec_resetN_running hl hp hh hb,
    fun held s hl hp => ⟨fun hh hm hok => ?overVoltage, fun hh hm => ?trip, fun _ hh hm => ?held⟩, fun _ => rfl⟩
  case cold =>
    obtain ⟨t, he, ht⟩ := exec_coldPowerOn_shows (r := r) (a := a) (l := l) (p := p) hs (hr 6 (.inl rfl)) (hr 7 (.inr rfl))
    exact ⟨t, he, ht.powered, ht.resetNLow, ht.plossLow, ht.refclkOk, ht.altOk, ht.notReady⟩
  case overVoltage => subst hm; exact exec_resetN_overVoltage hl hp hh hok
  case trip => subst hm; exact exec_resetN_trip hl hp hh
  case held => subst hm; exact exec_resetN_held hl hp hh

/-! ## Pin edges (R614) -/

/-- An edge that a pin's setting selects comes with new board levels. -/
def edgeHit (l : BitVec 32) (s : State) (n : Nat) : Bool :=
  edgeSelected s n (pinLevel s n) (pinLevel { s with pins.board := l } n)

/-- The new levels, with the time of each selected edge. -/
def edgesNoted (l : BitVec 32) (s : State) : State :=
  { s with
    pins.board := l
    pins.edgeAt := (List.range 32).map fun n =>
      if edgeHit l s n then some (s.time.c.toNat : Int) else s.pins.edgeAt.getD n none }

section
variable {l : BitVec 32} {s : State}

theorem exec_gpioEdge_eq : exec (.gpioEdge l) s = .next (let u := { s with pins.board := l }
    if ((List.range 32).any fun n => edgeHit l s n && !edgeMerges s n) && s.pwr.powered then
      setLeaf (postEventS (edgesNoted l s) 0x0101 0 (leBytes 4 (pinLevels u) ++
        leBytes 4 (packBits ((List.range 32).map fun n => pinLevel s n != pinLevel u n)))) 1 0
    else edgesNoted l s) := rfl

theorem exec_gpioEdge_posts (hp : s.pwr.powered = true)
    (h : ((List.range 32).any fun n => edgeHit l s n && !edgeMerges s n) = true) :
    exec (.gpioEdge l) s = .next (let u := { s with pins.board := l }
      setLeaf (postEventS (edgesNoted l s) 0x0101 0 (leBytes 4 (pinLevels u) ++
        leBytes 4 (packBits ((List.range 32).map fun n => pinLevel s n != pinLevel u n)))) 1 0) := by
  simp only [exec_gpioEdge_eq, h, hp, Bool.and_self, if_true]

/-- No selected edge is far enough from the one before: none is posted. -/
theorem exec_gpioEdge_merges (h : ((List.range 32).any fun n => edgeHit l s n && !edgeMerges s n) = false) :
    exec (.gpioEdge l) s = .next (edgesNoted l s) := by
  simp only [exec_gpioEdge_eq, h, Bool.false_and, Bool.false_eq_true, if_false]

end

/-! ## Power states (R567, R571, R572, R574) -/

section
variable {s : State}

theorem wake_resting (hm : s.pwr.move = none) (hr : s.pwr.state ≠ .run) (cause : Nat) :
    wake s cause = { s with pwr.move := some { entering := false, target := .run, cause := cause } } := by
  simp only [wake, hm, if_neg hr]

theorem exec_powerStateEntered_rests {m : PwrMove} (hm : s.pwr.move = some m) (he : m.entering = true)
    (ha : s.mbx.arrival = []) (hr : mayRest s (m.target == .hibernate) = true) :
    exec .powerStateEntered s = .next (restEnter s m.target) := by
  change execPowerStateEntered s = _
  simp only [execPowerStateEntered, hm, he, ha, hr, List.isEmpty_nil, Bool.not_true, Bool.or_self, Bool.false_eq_true,
    if_false]

theorem exec_powerStateExitDone_exits {m : PwrMove} (hm : s.pwr.move = some m) (he : m.entering = false)
    (us : BitVec 32) (r : ExitReport) :
    exec (.powerStateExitDone us r) s = .next (restExit s m.cause us.toNat r) := by
  change execPowerStateExitDone us r s = _
  simp only [execPowerStateExitDone, hm, he, Bool.false_eq_true, if_false]

/-! ## Firmware (R577, R582) -/

theorem exec_fwStageWriteDone_staged {k : Nat} {x : FwSlot} (h : s.pwr.staging = some (k, x)) :
    exec (.fwStageWriteDone 0) s = .next (notify { s with
      mbx.staged := true
      pwr := { s.pwr with staging := none, stagedSlot := some k, slots := s.pwr.slots.set k x } } 0x1410 0
      (leBytes 1 0 ++ leBytes 1 k ++ [0, 0] ++ leBytes 4 x.build ++ leBytes 4 x.counter) 3) := by
  change execFwStageWriteDone 0 s = _
  simp [execFwStageWriteDone, h]

theorem exec_fwActivationDone_activates {n k : Nat} (hn : s.pwr.activateSlot = some n) (hk : s.pwr.stagedSlot = some k)
    (hd : oldDone s n = true) (l : List Nat) : exec (.fwActivationDone l) s = .next (activate s n k l) := by
  change execFwActivationDone l s = _
  simp only [execFwActivationDone, hn, hk, hd, if_true]

end

/-- Settles O37: each row by the pin, the move or the staging it meets. EV_SYS_GPIO with source 0 and every changed pin,
and one record for edges within 123 PIPE clocks, are the model's choices (log entries 133 and 238). -/
theorem pinsPowerAndFirmwareEvents : Obligations.PinsPowerAndFirmwareEvents := by
  refine ⟨fun _ _ => ⟨exec_gpioEdge_posts, exec_gpioEdge_merges⟩, fun s hw hm hr => congrArg Host.Outcome.next ?pin,
    fun s ht hm hr => congrArg Host.Outcome.next ?time,
    fun _ _ hm he ha hr => exec_powerStateEntered_rests hm he ha hr,
    fun _ _ _ _ hm he => exec_powerStateExitDone_exits hm he _ _,
    fun _ _ s h => ⟨_, exec_fwStageWriteDone_staged h, ?staged⟩,
    fun _ _ _ _ hn hk hd => exec_fwActivationDone_activates hn hk hd _,
    fun _ h => congrArg Host.Outcome.next (if_pos h)⟩
  case pin => exact (if_pos hw).trans (wake_resting hm hr 2)
  case time => exact (if_pos (bne_iff_ne.mpr ht)).trans (wake_resting hm hr 3)
  case staged => simp only [notify_mbx, notify_pwr, notify_cause, Nat.reduceDiv, and_self]

end Sys2Proof.Machine
end
